-- ==== Sys2Proof/Word.lean ====
section
/-!
DEFINITION. The word types of the module and their plainest arithmetic.
-/
namespace Sys2Proof

/-- One byte. -/
abbrev Byte := BitVec 8
/-- A 16-bit halfword. -/
abbrev Half := BitVec 16
/-- A 32-bit word: a module register (R13), an engine word (R165). -/
abbrev Word := BitVec 32
/-- A 64-bit doubleword: an integer register of a pair (R45). -/
abbrev DWord := BitVec 64

/-- `n` cut to `w` bits. -/
def cut (w n : Nat) : Nat := n % 2 ^ w

/-- The value of bit `i` of `n`. -/
def bitOf (n i : Nat) : Bool := n.testBit i

/-- 1 for true, 0 for false. -/
def b2n (b : Bool) : Nat := if b then 1 else 0

/-- Bits `lo` to `lo + w - 1` of `n`. -/
def bitsOf (n lo w : Nat) : Nat := (n >>> lo) % 2 ^ w

/-- `n` counted up by `k`, staying at `max`. -/
def satAdd (max n k : Nat) : Nat := if n + k < max then n + k else max

/-- The smallest multiple of `m` at or above `n` (`n` itself for `m = 0`). -/
def roundUp (n m : Nat) : Nat := if m = 0 then n else (n + m - 1) / m * m

/-- `n` read as a two's-complement number of `w` bits. -/
def toSigned (w n : Nat) : Int :=
  let m := n % 2 ^ w
  if m < 2 ^ (w - 1) then (m : Int) else (m : Int) - (2 ^ w : Nat)

/-- `i` as the two's-complement pattern of `w` bits. -/
def ofSigned (w : Nat) (i : Int) : Nat := (i % ((2 ^ w : Nat) : Int)).toNat

/-- `i` held between `lo` and `hi`. -/
def clampInt (lo hi i : Int) : Int := if i < lo then lo else if hi < i then hi else i

end Sys2Proof
end

