-- ==== Sys2Proof/Syntax.lean ====
section
/-!
DEFINITION. The commands the block takes, one constructor per row of the opcode table, and the data they carry.
-/
namespace Sys2Proof

/-- The recorder codes named by the manual (R473). -/
inductive RCode where
  | POWER_ON
  | SUPPLY_FAIL
  | RECORDER_OVERFLOW
  | STATE_CHANGE
  | DUSK_ENTER
  | CMD_REFUSED
  | CMD_ACCEPTED
  | CFG_WRITE_REFUSED
  | IMAGESET_DAMAGED
  | AUTH_LOCKOUT
  | LOCAL_ORIGIN
  | POS_CHANGED
  | NOT_CONNECTED
  | PAIR_MISMATCH
  | CMP_SELFTEST_FAIL
  | PAIR_DEBUG_DIVERGE
  | MTVEC_UNSET
  | VBASE_REJECT
  | CACHE_CORRECTED
  | STRAY_COMPLETE
  | VDX_CFG_REFUSED
  | ABSENT_PROBE
  | OVERRUN
  | TASK_ABANDON
  | TASK_ABORT
  | PART_STOPPED
  | WAKE_LATE
  | MMODE_OVERRUN
  | PRELOAD_LATE
  | BANK_RECLAIM
  | CMP_TEST_OVERDUE
  | CONTEXT_LOST
  | DEADLINE_STAGE_FAIL
  | IDLE_REJECT
  | PAIRCMD_IGNORED
  | STAGE_MISS
  | WSET_VIOLATION
  | PAGEOP_REFUSED
  | MEM_CORRECTED
  | MEM_UNCORR
  | HARD_SYMBOL
  | SCRUB_LAG
  | QUEUE_PTR_ERR
  | TRANSIT_FAIL
  | LE_MISMATCH
  | LE_SELFTEST_FAIL
  | LE_TRAP
  | PROGRAM_START
  | STATION_ABSENT
  | STATION_RETURN
  | RETAIN_SAVE_LATE
  | RETAIN_LOST
  | CARRY_LOST
  | CHANGE_DONE
  | FORCE_DROPPED
  | FORCES_CLEARED
  | SIO_DI_FAULT
  | SIO_DO_FAULT
  | SIO_Y_LOST
  | SIO_FS_OPEN
  | SIO_FS_BUDGET
  | PEER_DISSENT
  | SELF_DISSENT
  | LEASE_LOST
  | LINK_EXCLUDE
  | MEMBER_CHANGE
  | IDENT_MISMATCH
  | SYNC_FAIL
  | NOMAJ
  | TL_VIOLATION
  | DUPLEX_NO_WITNESS
  | GHEIF_RX_VIOLATION
  | GHEIF_LENGTH
  | GHEIF_GUARD
  | GHEIF_CHANNEL_DIFF
  | GHEIF_CS_ABORT
  | GHEIF_CS_EXHAUSTED
  | GHEIF_SYNC_LOST
  | GHEIF_POS_INVALID
  | MODE_CHANGE
  | MODE_CHANGE_FAIL
  | MODE_FOLLOW
  | MODE_REFUSED
  | TIME_STEP
  | SOURCE_CHANGE
  | OFFSET_ALARM
  | LAUNCH_DISCARD
  | PD_REJECT
  | IXS_FAILSAFE
  | IXS_VALID
  | CAN_OVERSIZE
  | CAN_BUSOFF
  | CAN_BUSOFF_END
  | LRB_TIMEOUT
  | LRB_BERR
  | LRB_LOCK_PARTIAL
  | LRB_LOCK_HOG
  | PREFETCH_DISCARD
  | CLOCK_FAULT
  | SUPPLY_DIP
  | BUDGET_EXCEED
  | NIGHT_LOST
  | APPLICATION_MARK
  deriving DecidableEq, Repr

/-- The operand fields of an engine instruction word (R175): the space SP and OPND. -/
structure Opnd where
  sp : Fin 4
  opnd : BitVec 24
  deriving DecidableEq, Repr

/-- Widths of loads and stores of a pair. -/
inductive MemW where
  | b
  | h
  | w
  | d
  deriving DecidableEq, Repr

/-- Conditions of a branch. -/
inductive BrCond where
  | eq
  | ne
  | lt
  | ge
  | ltu
  | geu
  deriving DecidableEq, Repr

/-- Integer operations of a pair, register or immediate (RV64I and M). -/
inductive AluOp where
  | add
  | sub
  | sll
  | slt
  | sltu
  | xor
  | srl
  | sra
  | or
  | and
  | mul
  | mulh
  | mulhsu
  | mulhu
  | div
  | divu
  | rem
  | remu
  deriving DecidableEq, Repr

/-- Atomic memory operations (RV64A). -/
inductive AmoOp where
  | swap
  | add
  | xor
  | and
  | or
  | min
  | max
  | minu
  | maxu
  deriving DecidableEq, Repr

/-- CSR operations (Zicsr). -/
inductive CsrOp where
  | rw
  | rs
  | rc
  deriving DecidableEq, Repr

/-- An instruction of a pair (R44), as decoded; `len4` tells a 32-bit encoding from a compressed one. -/
inductive RvInsn where
  | lui (rd : Fin 32) (imm : DWord)
  | auipc (rd : Fin 32) (imm : DWord)
  | jal (rd : Fin 32) (ofs : DWord)
  | jalr (rd rs1 : Fin 32) (ofs : DWord)
  | branch (c : BrCond) (rs1 rs2 : Fin 32) (ofs : DWord)
  | load (wd : MemW) (unsigned : Bool) (rd rs1 : Fin 32) (ofs : DWord)
  | store (wd : MemW) (rs2 rs1 : Fin 32) (ofs : DWord)
  | opImm (op : AluOp) (rd rs1 : Fin 32) (imm : DWord)
  | opImmW (op : AluOp) (rd rs1 : Fin 32) (imm : DWord)
  | op (op : AluOp) (rd rs1 rs2 : Fin 32)
  | opW (op : AluOp) (rd rs1 rs2 : Fin 32)
  | lr (dbl : Bool) (rd rs1 : Fin 32)
  | sc (dbl : Bool) (rd rs1 rs2 : Fin 32)
  | amo (op : AmoOp) (dbl : Bool) (rd rs1 rs2 : Fin 32)
  | csr (op : CsrOp) (rd rs1 : Fin 32) (csr : BitVec 12)
  | csrImm (op : CsrOp) (rd : Fin 32) (imm : Fin 32) (csr : BitVec 12)
  | fence
  | fenceI
  | ecall
  | fload (dbl : Bool) (rd rs1 : Fin 32) (ofs : DWord)
  | fstore (dbl : Bool) (rs2 rs1 : Fin 32) (ofs : DWord)
  /-- An F or D operation with a floating-point result. `n`: the seven FUNCT7 bits of an OP-FP encoding plus 128 times its rs2 field where
  that field selects a format; 4096 plus 4 times 0 FMADD, 1 FMSUB, 2 FNMSUB, 3 FNMADD, plus 0 single or 1 double. `rm`: the rm field. -/
  | fop (n rm : Nat) (rd rs1 rs2 rs3 : Fin 32)
  /-- An F or D operation with an integer result (compare, classify, convert, move); `n` and `rm` as for `fop`. -/
  | fopX (n rm : Nat) (rd rs1 rs2 : Fin 32)
  /-- An F or D operation with an integer source; `n` and `rm` as for `fop`. -/
  | fopF (n rm : Nat) (rd rs1 : Fin 32)
  | illegal (word : Word)
  deriving DecidableEq, Repr

/-- What a STEP executes (R68): an instruction as PAIR_INSTRUCTION takes it, or one of the three that have rows of their own. -/
inductive PairStep where
  | insn (i : RvInsn) (len4 : Bool)
  | mret
  | wfi
  | ebreak
  deriving DecidableEq, Repr


/-- A Tri-link frame as received: the header of R217 (`rsv`: a reserved bit or byte is not zero; `len` as the header states
it), whether its trailer check passes, and its payload. -/
structure TlFrame where
  typ : Nat
  sender : Nat
  mstate : Nat
  abstain : Bool
  group : Nat
  cc : Nat
  mfc : Nat
  len : Nat
  fseq : Nat
  rsv : Bool
  ok : Bool
  payload : List Byte
  deriving DecidableEq, Repr

/-- The identities of a peer that R239 compares: CONFIG_ID, the program identities, the image-set digest, and SYS_CAP0 (R11). -/
structure PeerIds where
  config : Nat
  progs : List Nat
  set : List Byte
  cap0 : Nat
  deriving DecidableEq, Repr

/-- A frame received on a Tri-link port, or none where the command is this module's own sending. -/
abbrev TlRx := Option (Fin 2 × TlFrame)

/-- An erroneous line that a read meets (R147, R148): the memory as HXM_MEMERR numbers it, the line's address (the offset within the program
store, the line index of the HX internal memories), the positions of the symbols found wrong (0 to 63 data, 64 to 69 check symbols, 70 to 74 the
virtual symbols of the address), and the data of another codeword within three symbols, where there is one. -/
structure LineErr where
  m : Fin 6
  addr : Nat
  bad : List Nat
  other : Option (List Byte)
  deriving DecidableEq, Repr

/-- What an instruction's reads meet: erroneous lines of the memories, and single-bit errors corrected in the pair's caches (R43), each as cache
(0 instruction, 1 data) and line index. -/
structure PairReads where
  errs : List LineErr
  cache : List (Fin 2 × Nat)
  deriving DecidableEq, Repr

/-- How a pair comes to an instruction: the bytes that it takes, 4 or 2, and what its reads meet. -/
structure InsnFetch where
  len4 : Bool
  reads : PairReads
  deriving DecidableEq, Repr

/-- What a read of a line meets (R148, R152): the symbols found wrong, the data of another codeword within three symbols, and the pair that reads,
or none where another unit does. -/
structure LineRead where
  bad : List Nat
  other : Option (List Byte)
  reader : Option (Fin 4)
  deriving DecidableEq, Repr

/-- A COMMIT: the length written, and the agent whose RELEASE comes in the same fabric cycle, if one does (R161). -/
structure TailWrite where
  len : Nat
  rel : Option Nat
  deriving DecidableEq, Repr

/-- A vote of a cycle group that is over, with the positions that the third member saw dissent (R227), position q in bit q - 1. -/
structure VoteRound where
  g : Fin 4
  seen : BitVec 3
  deriving DecidableEq, Repr

/-- The comparator tests of the Dawn sequence: the units whose test fails, and those whose injected difference does not set the fault latch (R62,
R167). -/
structure DawnTests where
  fails : BitVec 6
  latch : BitVec 6
  deriving DecidableEq, Repr

/-- A part of the sync set of a cycle group (R240). -/
inductive SyncItem where
  /-- A retentive block's identity and data. -/
  | block (ident : Nat) (data : List Byte)
  /-- An engine timer: engine, timer, running, Q, and elapsed microticks. -/
  | timer (e n : Nat) (running q : Bool) (elapsed : Nat)
  /-- The module-status fields, with bit 7 of START_KIND beside the kind (R201), and TVL_MFC. -/
  | status (changeGen startKind : Nat) (retInit : Bool) (taskCycles mfc : Nat)
  deriving DecidableEq, Repr

/-- What a proposal frame of R242 says: the proposal, its acknowledgement or its rejection. -/
inductive Vow where
  | propose
  | accept
  | reject
  deriving DecidableEq, Repr

/-- What a force change agreed under R242 says: force a variable to a value, clear its force, or write bytes of it (R462). -/
inductive ForceWhat where
  | force (value : Nat)
  | clear
  | write (ofs : Nat) (data : List Byte)
  deriving DecidableEq, Repr

/-- A frame on a Gheif channel: the instant of its first falling edge on the model's clock, and the line as the receiver samples it from
that edge on, once per microtick, eight samples per bit (R247); past the last sample the line is idle and reads 1. -/
structure GhFrame where
  sof : Nat
  samples : List Bool
  deriving DecidableEq, Repr

/-- An Ethernet frame as received: its bytes from the destination address to the last payload byte, FCS excluded, whether the
FCS is right, and whether a code violation spoiled it (R318, R336). -/
structure EthFrame where
  bytes : List Byte
  fcs : Bool
  code : Bool
  deriving DecidableEq, Repr

/-- What the supervisor's PTP instance decides on a message (R325): the sender is one it expects in its state, and the port state
of E0 and E1 that its best master clock algorithm comes to (0 to 9). -/
structure PtpVerdict where
  expected : Bool
  e0 : Fin 10
  e1 : Fin 10
  deriving DecidableEq, Repr

/-- A CAN frame as it becomes valid (R364): identifier, frame format bits, DLC and data. -/
structure CanFrame where
  id : Nat
  xtd : Bool
  fdf : Bool
  brs : Bool
  esi : Bool
  rtr : Bool
  dlc : Fin 16
  data : List Byte
  deriving DecidableEq, Repr

/-- The held transmit entry a launch judges (R314): the head of a software queue of Ethernet, a telegram due, a CAN transmit
buffer, or a CAN transmit queue's head. -/
inductive Held where
  | ethQueue (q : Fin 64)
  | telegram (t : Fin 512)
  | canBuffer (n : Fin 6) (b : Fin 32)
  | canQueue (n : Fin 6)
  deriving DecidableEq, Repr

/-- Where a load from the rack window puts its value: register, extension, and length of the instruction in bytes. -/
structure RackLd where
  rd : Fin 32
  /-- The register is f rd. -/
  fp : Bool
  unsigned : Bool
  len : Nat
  deriving DecidableEq, Repr

/-- A board's bus cycle as the bridge sees it (R387): halfword address, direction, byte strobes, data. -/
structure BoardCyc where
  addr : Nat
  wr : Bool
  ub : Bool
  lb : Bool
  data : Half
  /-- LOCK_N stays asserted by the board after the cycle. -/
  lock : Bool
  deriving DecidableEq, Repr

/-- Where a request comes from (R445): a transport with a SRC value, or a local command port. -/
inductive Origin where
  | scp (src : Nat)
  /-- Ethernet: SRC, IPv4 source address, UDP port, arrival port, source MAC. -/
  | eth (src ip udp port mac : Nat)
  | pairPort (n : Nat)
  | partPort (n : Nat)
  deriving DecidableEq, Repr

/-- A command request after its framing checks (R443, R449): origin, SEQ, trailer, FLAGS, the header byte at offset 7, payload, and
the authentication block's COUNTER and TAG. -/
structure Req where
  origin : Origin
  seq : Nat
  trailer : Nat
  flags : Nat
  byte7 : Nat
  payload : List Byte
  tag : Option (Nat × List Byte)
  deriving DecidableEq, Repr


/-- The commands: one constructor per row of the opcode table. -/
inductive Instr where
  /-- GHEIF_CYCLE_START (R17): The cycle timer reaches the start of a Gheif cycle, which advances the cycle count and starts any major frame that begins there. -/
  | gheifCycleStart
  /-- FREEZE (R22): At a group's freeze instant the input image is latched with quality and substitution, and the RAW frames are sent. -/
  | freeze (g : Fin 4)
  /-- AGR_PUB (R22): At F + AGR_DL the agreed image is published to the HX and to the logic engines. -/
  | agrPub (g : Fin 4)
  /-- OUT_LATCH (R22): At output close the committed contributions and output forces are latched, and the OUT frames are sent for the vote. -/
  | outLatch (g : Fin 4)
  /-- OUT_GO (R22): At the output instant the module drives and releases the outputs of the groups whose lease it holds. -/
  | outGo (g : Fin 4)
  /-- UNGATE_REQUEST (R30): The HX requests ungating of a clock-gated pair at least 2 us before its window. -/
  | ungateRequest (p : Fin 4)
  /-- PLL_RESTART_REQUEST (R30): The HX requests a PLL restart at least 22 us before the window of a pair whose PLL is stopped. -/
  | pllRestartRequest (p : Fin 4)
  /-- ARBITRATION_WINDOW (R498): At each 1 us boundary the budget arbiter judges the waiting requests by rank. -/
  | arbitrationWindow (measured : Nat) (settled : List (Nat × Nat))
  /-- PLL_LOCKED (R496): A starting pair PLL locks and the pair clock reaches RUN. -/
  | pllLocked (p : Fin 4)
  /-- EXCEPTION_TRAP (R50): A pair takes an exception or a page fault and traps to machine mode. -/
  | exceptionTrap (p : Fin 4) (cause : Fin 16) (tval : DWord)
  /-- VECTOR_ENTRY (R55): A pair takes a committed vector at an instruction boundary and jumps to its slot. -/
  | vectorEntry (p : Fin 4)
  /-- BANK_SWITCH (R53): The HX switches a pair to its preloaded bank once the pair is in user mode or in WFI. -/
  | bankSwitch (p : Fin 4)
  /-- WFI (R49): WFI stops instruction issue until a vector or a bank switch arrives. -/
  | wfi (p : Fin 4)
  /-- MRET (R107): MRET returns from machine mode, taking any pending bank switch or returning to the hardware park. -/
  | mret (p : Fin 4)
  /-- EBREAK (R71): EBREAK halts the pair in the Service state and otherwise raises a breakpoint exception. -/
  | ebreak (p : Fin 4)
  /-- TRIGGER_HIT (R71): An instruction fetch that matches an enabled trigger in the Service state halts the pair. -/
  | triggerHit (p : Fin 4)
  /-- BANKDAT_WRITE (R54): A write through PLX_BANKDAT is applied, or refused with ERR set when the bank is loading or preloaded. -/
  | bankdatWrite (p : Fin 4) (v : DWord)
  /-- VBASE_WRITE (R56): A write to PLX_VBASE is applied, or rejected with EN cleared when BASE lies outside SRAM. -/
  | vbaseWrite (p : Fin 4) (v : DWord)
  /-- PLX_FENCE_DEV (R58): The pair stalls until its earlier peripheral writes have received their responses. -/
  | plxFenceDev (p : Fin 4)
  /-- PLX_FENCE_Q (R58): The pair stalls until its earlier enqueues are committed and visible. -/
  | plxFenceQ (p : Fin 4)
  /-- PLX_FENCE_LE (R58): The pair's stores and the engines' writes are ordered against each other. -/
  | plxFenceLe (p : Fin 4)
  /-- PLX_FENCE_HX (R58): The pair stalls until the partition's page operations are complete. -/
  | plxFenceHx (p : Fin 4)
  /-- FENCE_COMPLETE (R58): The classes a fence waits on complete, and the stalled pair continues. -/
  | fenceComplete (p : Fin 4)
  /-- PAIR_MISMATCH (R65): The pair comparator finds a difference, which takes the module through the hardware path to Dusk. -/
  | pairMismatch (p : Fin 4) (grp : Fin 7) (lane : Nat) (lead trail : Word)
  /-- CMP_SELFTEST (R63): A due pair comparator self-test runs in a qualifying gap after a budget end. -/
  | cmpSelftest (p : Fin 4)
  /-- CMP_TEST_OVERDUE (R64): A self-test still undone one hour after it fell due is recorded, and again every further hour. -/
  | cmpTestOverdue (u : Fin 6)
  /-- SOURCE_QUALIFIED (R74): A source line change is qualified after the glitch filter, stamped, counted and set pending. -/
  | sourceQualified (li : Fin 8) (level : Bool)
  /-- VECTOR_COMMIT (R78): The dispatcher latches the highest eligible source for a pair and makes it active. -/
  | vectorCommit (p : Fin 4)
  /-- VDX_COMPLETE (R81): A write to VDX_COMPLETE_Pn completes an active source and lowers the running level. -/
  | vdxComplete (p : Fin 4) (v : Word)
  /-- VDX_SWTRIG (R529): A write to VDX_SWTRIG asserts software source 0 to 31. -/
  | vdxSwtrig (v : Word)
  /-- VDX_SRCCFG_WRITE (R87): A write to VDX_SRCCFG is applied, or refused when the source is unmasked, active, absent or given an illegal mode. -/
  | vdxSrccfgWrite (n : Fin 512) (v : Word)
  /-- VDX_MASK_WRITE (R86): A write to VDX_MASKn changes the eligibility of 32 sources. -/
  | vdxMaskWrite (n : Fin 16) (v : Word)
  /-- CNT_CLR (R84): Writing VDX_SRCSTAT.CNT_CLR clears a source's arrival count. -/
  | cntClr (n : Fin 512)
  /-- VDX_STRAY_CLR (R82): Writing VDX_STRAY_Pn.CLR clears the stray-completion count. -/
  | vdxStrayClr (p : Fin 4)
  /-- VDX_DIAG_CLR (R73): Writing VDX_DIAG.CLR clears the refused-write count. -/
  | vdxDiagClr
  /-- WINDOW_START (R113): At a window's start instant the HX dispatches the task on its pair or engine. -/
  | windowStart (w : Nat)
  /-- PRELOAD_START (R101): The HX starts loading the next window's context into a free bank, at the latest 1 us before START. -/
  | preloadStart (p : Fin 4)
  /-- PRELOAD_DONE (R100): A bank copy completes and the bank becomes PRELOADED, which opens a late window or starts a slack quantum. -/
  | preloadDone (p : Fin 4)
  /-- SAVE_DONE (R100): A bank's copy back to context memory completes and the bank becomes FREE. -/
  | saveDone (p : Fin 4) (b : Fin 4)
  /-- DONE (R104): The DONE executive call completes the activation, commits its contribution and parks the pair. -/
  | done (p : Fin 4)
  /-- YIELD (R103): The YIELD executive call ends a background activation. -/
  | yield (p : Fin 4)
  /-- CYCLE_INFO (R103): The CYCLE_INFO executive call returns the freeze cycle count and the continuation count. -/
  | cycleInfo (p : Fin 4)
  /-- BUDGET_END (R108): A window's budget end is reached, and the task is stopped, saved, or declared overrun. -/
  | budgetEnd (u : Fin 6)
  /-- ABORT (R105): Writing HX_PAIRCMD_Pn.ABORT aborts the open activation and holds its bank. -/
  | abort (writer p : Fin 4)
  /-- BANK_REL (R105): Writing HX_PAIRCMD_Pn.BANK_REL releases the held bank. -/
  | bankRel (writer p : Fin 4)
  /-- HX_IDLE_WRITE (R107): A write to HX_IDLE_Pn sets the idle entry or the hardware park, or is rejected. -/
  | hxIdleWrite (p : Fin 4) (v : Word)
  /-- HX_TASKSTAT_CLR (R115): Writing HX_TASKSTAT.CLR clears a task's statistics. -/
  | hxTaskstatClr (t : Fin 1024)
  /-- SLACK_QUANTUM_END (R117): A 100 us slack quantum ends and the background context is saved. -/
  | slackQuantumEnd (p : Fin 4)
  /-- SCHED_SWITCH (R118): A new schedule image takes effect at the agreed major-frame boundary. -/
  | schedSwitch
  /-- STAGING_REQUEST (R138): At START − LOOKAHEAD the HX places a staging request for a window's working set. -/
  | stagingRequest (w : Nat)
  /-- PAGE_TRANSFER_DONE (R138): The stager finishes a page copy or write-back and takes the next page. -/
  | pageTransferDone
  /-- STAGE_MISS (R140): A staged task's access to an absent page stalls until the page is resident. -/
  | stageMiss (p : Fin 4) (va : Nat)
  /-- WSET_VIOLATION (R141): A task accesses a mapped page outside its working set. -/
  | wsetViolation (p : Fin 4) (va : Nat)
  /-- DEMAND_FILL (R144): A background task's access to an absent page is filled without a trap. -/
  | demandFill (p : Fin 4) (va : Nat)
  /-- PAGE_ALLOC (R145): The PAGE_ALLOC executive call creates zero-filled HOME 3 pages. -/
  | pageAlloc (p : Fin 4)
  /-- PAGE_FREE (R145): The PAGE_FREE executive call removes HOME 3 pages. -/
  | pageFree (p : Fin 4)
  /-- PAGE_PREFETCH (R145): The PAGE_PREFETCH executive call fills a range of pages. -/
  | pagePrefetch (p : Fin 4)
  /-- PAGE_FLUSH (R145): The PAGE_FLUSH executive call writes written pages back to DDR. -/
  | pageFlush (p : Fin 4)
  /-- MEM_INFO (R145): The MEM_INFO executive call returns the frames held and the DDR pages reserved. -/
  | memInfo (p : Fin 4)
  /-- PAGE_OP_COMPLETE (R146): An accepted page operation completes. -/
  | pageOpComplete (part : Fin 256)
  /-- SCRUB_PASS (R150): The scrubber completes a pass over a memory. -/
  | scrubPass (m : Fin 5) (errs : List LineErr)
  /-- MEM_UNCORR (R152): An uncorrectable line is found and handled according to where it lies. -/
  | memUncorr (m : Fin 6) (addr : Nat) (r : LineRead)
  /-- COMMIT (R159): Writing HXQ_CTRL.COMMIT commits the tail slot of a queue. -/
  | commit (who : Nat) (q : Fin 64) (w : TailWrite)
  /-- RELEASE (R159): Writing HXQ_CTRL.RELEASE frees the head slot of a queue. -/
  | release (who : Nat) (q : Fin 64)
  /-- QUEUE_ITEM_VERIFIED (R162): A committed item passes its transit check and becomes visible to the consumer, or is discarded. -/
  | queueItemVerified (q : Fin 76)
  /-- CREDIT_RETURN (R154): A released slot's credit reaches the producer's domain. -/
  | creditReturn (q : Fin 76)
  /-- QUEUE_PTR_ERR (R156): The two copies of a queue pointer differ, and the queue is reset. -/
  | queuePtrErr (q : Fin 76) (a b : Nat)
  /-- HXQ_CNT_CLR (R157): Writing HXQ_EVT.CNT_CLR clears the crossing counts and HXQ_CNT. -/
  | hxqCntClr (q : Fin 64)
  /-- HXM_MEMERR_CLR (R149): Writing HXM_MEMERR.CLR clears the error counts. -/
  | hxmMemerrClr
  /-- HXM_PART_SRAM_CLR (R134): Writing HXM_PART_SRAM.CLR sets PEAK to HELD. -/
  | hxmPartSramClr (part : Fin 256)
  /-- NOP (R178): The engine executes no operation. -/
  | leNop (e : Fin 2)
  /-- LD (R178): LA takes the bit operand. -/
  | leLd (e : Fin 2) (o : Opnd)
  /-- LDN (R178): LA takes the inverted bit operand. -/
  | leLdn (e : Fin 2) (o : Opnd)
  /-- ST (R178): The operand bit takes LA. -/
  | leSt (e : Fin 2) (o : Opnd)
  /-- STN (R178): The operand bit takes NOT LA. -/
  | leStn (e : Fin 2) (o : Opnd)
  /-- S (R178): The operand bit is set when LA = 1. -/
  | leS (e : Fin 2) (o : Opnd)
  /-- LE_R (R178): The R instruction clears the operand bit when LA = 1. -/
  | leR (e : Fin 2) (o : Opnd)
  /-- AND (R178): LA takes LA AND the operand. -/
  | leAnd (e : Fin 2) (o : Opnd)
  /-- ANDN (R178): LA takes LA AND NOT the operand. -/
  | leAndn (e : Fin 2) (o : Opnd)
  /-- OR (R178): LA takes LA OR the operand. -/
  | leOr (e : Fin 2) (o : Opnd)
  /-- ORN (R178): LA takes LA OR NOT the operand. -/
  | leOrn (e : Fin 2) (o : Opnd)
  /-- XOR (R178): LA takes LA XOR the operand. -/
  | leXor (e : Fin 2) (o : Opnd)
  /-- XORN (R178): LA takes LA XOR NOT the operand. -/
  | leXorn (e : Fin 2) (o : Opnd)
  /-- NOT (R178): LA is inverted. -/
  | leNot (e : Fin 2)
  /-- AND_BRACKET (R179): AND( pushes LA with AND and loads the operand. -/
  | leAndBr (e : Fin 2) (o : Opnd)
  /-- ANDN_BRACKET (R179): ANDN( pushes LA with ANDN and loads the operand. -/
  | leAndnBr (e : Fin 2) (o : Opnd)
  /-- OR_BRACKET (R179): OR( pushes LA with OR and loads the operand. -/
  | leOrBr (e : Fin 2) (o : Opnd)
  /-- ORN_BRACKET (R179): ORN( pushes LA with ORN and loads the operand. -/
  | leOrnBr (e : Fin 2) (o : Opnd)
  /-- XOR_BRACKET (R179): XOR( pushes LA with XOR and loads the operand. -/
  | leXorBr (e : Fin 2) (o : Opnd)
  /-- XORN_BRACKET (R179): XORN( pushes LA with XORN and loads the operand. -/
  | leXornBr (e : Fin 2) (o : Opnd)
  /-- CLOSE_BRACKET (R179): The ) instruction pops the branch stack and combines the saved LA with LA. -/
  | leClose (e : Fin 2)
  /-- EP (R178): EP detects a rising edge against an edge memory. -/
  | leEp (e : Fin 2) (o : Opnd)
  /-- EN (R178): EN detects a falling edge against an edge memory. -/
  | leEn (e : Fin 2) (o : Opnd)
  /-- TON (R182): TON executes an on-delay timer. -/
  | leTon (e : Fin 2) (o : Opnd)
  /-- TOF (R182): TOF executes an off-delay timer. -/
  | leTof (e : Fin 2) (o : Opnd)
  /-- TP (R182): TP executes a pulse timer. -/
  | leTp (e : Fin 2) (o : Opnd)
  /-- TRD (R182): WA takes the timer's elapsed time. -/
  | leTrd (e : Fin 2) (o : Opnd)
  /-- CTU (R183): CTU counts up on a rising LA. -/
  | leCtu (e : Fin 2) (o : Opnd)
  /-- CTD (R183): CTD counts down on a rising LA. -/
  | leCtd (e : Fin 2) (o : Opnd)
  /-- CTLD (R183): CTLD loads CV from WA when LA = 1. -/
  | leCtld (e : Fin 2) (o : Opnd)
  /-- CTRD (R183): WA takes CV. -/
  | leCtrd (e : Fin 2) (o : Opnd)
  /-- LDW (R178): WA takes the word operand. -/
  | leLdw (e : Fin 2) (o : Opnd)
  /-- STW (R178): The word operand takes WA. -/
  | leStw (e : Fin 2) (o : Opnd)
  /-- ADD (R181): Saturating addition into WA. -/
  | leAdd (e : Fin 2) (o : Opnd)
  /-- SUB (R181): Saturating subtraction into WA. -/
  | leSub (e : Fin 2) (o : Opnd)
  /-- MUL (R181): Saturating multiplication into WA. -/
  | leMul (e : Fin 2) (o : Opnd)
  /-- DIV (R181): Truncating division into WA, with the division-by-0 rules. -/
  | leDiv (e : Fin 2) (o : Opnd)
  /-- MOD (R181): Remainder into WA. -/
  | leMod (e : Fin 2) (o : Opnd)
  /-- ANDW (R178): Bitwise AND into WA. -/
  | leAndw (e : Fin 2) (o : Opnd)
  /-- ORW (R178): Bitwise OR into WA. -/
  | leOrw (e : Fin 2) (o : Opnd)
  /-- XORW (R178): Bitwise XOR into WA. -/
  | leXorw (e : Fin 2) (o : Opnd)
  /-- SHL (R178): WA is shifted left. -/
  | leShl (e : Fin 2) (o : Opnd)
  /-- SHR (R178): WA is shifted right, logical. -/
  | leShr (e : Fin 2) (o : Opnd)
  /-- ASR (R178): WA is shifted right, arithmetic. -/
  | leAsr (e : Fin 2) (o : Opnd)
  /-- GTW (R178): LA takes WA > op. -/
  | leGtw (e : Fin 2) (o : Opnd)
  /-- GEW (R178): LA takes WA ≥ op. -/
  | leGew (e : Fin 2) (o : Opnd)
  /-- EQW (R178): LA takes WA = op. -/
  | leEqw (e : Fin 2) (o : Opnd)
  /-- NEW (R178): LA takes WA ≠ op. -/
  | leNew (e : Fin 2) (o : Opnd)
  /-- LTW (R178): LA takes WA < op. -/
  | leLtw (e : Fin 2) (o : Opnd)
  /-- LEW (R178): LA takes WA ≤ op. -/
  | leLew (e : Fin 2) (o : Opnd)
  /-- LDX (R178): XR takes the operand. -/
  | leLdx (e : Fin 2) (o : Opnd)
  /-- JMP (R178): Unconditional jump. -/
  | leJmp (e : Fin 2) (o : Opnd)
  /-- JMPC (R178): Jump when LA = 1. -/
  | leJmpc (e : Fin 2) (o : Opnd)
  /-- JMPCN (R178): Jump when LA = 0. -/
  | leJmpcn (e : Fin 2) (o : Opnd)
  /-- CAL (R180): Call that pushes the return address. -/
  | leCal (e : Fin 2) (o : Opnd)
  /-- CALC (R180): Call when LA = 1. -/
  | leCalc (e : Fin 2) (o : Opnd)
  /-- RET (R180): Return that pops the call stack. -/
  | leRet (e : Fin 2)
  /-- SENDQ (R184): WA is committed to a general queue. -/
  | leSendq (e : Fin 2) (o : Opnd)
  /-- RECVQ (R184): The head item of a queue is taken into WA. -/
  | leRecvq (e : Fin 2) (o : Opnd)
  /-- END (R185): END ends the scan and commits the output region. -/
  | leEnd (e : Fin 2)
  /-- LE_MISMATCH (R166): The engine comparator finds a difference, which takes the module to Dusk. -/
  | leMismatch (e : Fin 2) (grp lane : Nat) (lead trail : Word)
  /-- LE_CMP_SELFTEST (R167): A due engine comparator self-test runs in a qualifying gap. -/
  | leCmpSelftest (e : Fin 2)
  /-- BANK_READY (R188): An engine bank finishes loading and passes its checks. -/
  | bankReady (e : Fin 2)
  /-- LE_LINE_RESTORE (R189): The supervisor restores a bad active-bank line from the image set. -/
  | leLineRestore (e : Fin 2) (line : Nat)
  /-- LE_TRAP_CLR (R186): Writing LE_TRAP.CLR clears the trap count. -/
  | leTrapClr (e : Fin 2)
  /-- PRESENCE_COUNT (R292): At a source's counting instant its miss or rejoin count advances and its presence state may change. -/
  | presenceCount (kind : Fin 8) (src : Nat)
  /-- RETAIN_SAVE_BURST (R203): A granted burst writes a retentive snapshot to eMRAM. -/
  | retainSaveBurst
  /-- CARRY_COPY_OUT (R208): At L_p the values to be carried are copied into the save buffer. -/
  | carryCopyOut (u : Nat) (bad : List Nat)
  /-- CHANGE_SWITCH (R208): At boundary B the image set, schedule and engine banks switch. -/
  | changeSwitch
  /-- CHANGE_SETUP_DONE (R208): At B + C_p the changed partition's windows open again. -/
  | changeSetupDone (u : Nat)
  /-- CHANGE_DONE (R208): At the end of the first major frame after B the change completion is notified. -/
  | changeDone
  /-- RAW_FRAME_RX (R222): A peer RAW frame is received and combined into the agreed bytes. -/
  | rawFrameRx (p : Fin 2) (f : TlFrame)
  /-- DIG_SEND (R222): The agreed image and its digest are complete, or the deadline arrives, and the DIG frame is sent. -/
  | digSend (g : Fin 4)
  /-- DIG_FRAME_RX (R223): A peer DIG frame is received. -/
  | digFrameRx (p : Fin 2) (f : TlFrame)
  /-- AGREEMENT_FIX (R223): At F + t_A the contributor set is fixed and the task cycle is marked. -/
  | agreementFix (g : Fin 4)
  /-- OUT_FRAME_RX (R225): A peer OUT frame with its lease block is received. -/
  | outFrameRx (p : Fin 2) (f : TlFrame)
  /-- VOTE_COMPLETE (R226): At C + t_V each output group's voted value is fixed and lease renewals are recorded or adopted. -/
  | voteComplete (v : VoteRound)
  /-- LEASE_LOST (R233): The TVL copy of a lease lapses without a release. -/
  | leaseLost (k : Fin 16)
  /-- GUARDIAN_LEASE_LAPSE (R233): The guardian copy of a lease lapses on its own timer. -/
  | guardianLeaseLapse (k : Fin 16)
  /-- CLAIM (R231): The successor sends a CLAIM naming OI_c. -/
  | claim (k : Fin 16)
  /-- CLAIM_RX (R231): A member receives a CLAIM and countersigns it if the conditions hold. -/
  | claimRx (p : Fin 2) (f : TlFrame) (k : Fin 16) (oi : Nat)
  /-- CLAIM_CSIGN_RX (R231): The claimant receives a countersignature of its CLAIM. -/
  | claimCsignRx (p : Fin 2) (f : TlFrame) (k : Fin 16) (oi : Nat)
  /-- LEASE_GAINED (R231): At OI_c the claim takes effect if every countersignature arrived in time. -/
  | leaseGained (k : Fin 16)
  /-- REL_FRAME_RX (R232): A received REL frame records the named leases as released. -/
  | relFrameRx (p : Fin 2) (f : TlFrame)
  /-- HANDOVER_PROPOSE (R237): A voting member proposes a planned handover in a CTRL frame. -/
  | handoverPropose (k : Fin 16) (rx : TlRx)
  /-- HANDOVER_ACCEPT (R237): The holder accepts the handover by naming the instant H. -/
  | handoverAccept (k : Fin 16) (rx : TlRx) (h : Nat)
  /-- HANDOVER_INSTANT (R237): At H the lease passes from the holder to the receiver. -/
  | handoverInstant (k : Fin 16)
  /-- HANDOVER_GUARD_START (R237): At H + t_G the receiver's guardian copy becomes valid. -/
  | handoverGuardStart (k : Fin 16)
  /-- LINK_DOWN (R216): A Tri-link port goes down after 10 us without block lock or 16 bad frames. -/
  | linkDown (p : Fin 2)
  /-- LINK_UP (R216): A port is up again after 1 ms of block lock. -/
  | linkUp (p : Fin 2)
  /-- RUN_ENTRY_PROPOSAL (R242): A boundary proposal or acknowledgement for joint Run entry is sent or received. -/
  | runEntryProposal (rx : TlRx) (count : Nat) (ids : PeerIds)
  /-- RUN_BOUNDARY (R242): At the agreed boundary the modules begin together as MEMBER. -/
  | runBoundary
  /-- ACTIVATE_PROPOSAL (R242): A proposal of B with an image-set digest is accepted or rejected by the members. -/
  | activateProposal (rx : TlRx) (v : Vow) (b : Nat) (digest : List Byte)
  /-- FORCE_PROPOSAL (R242): A force change naming its task cycle is acknowledged by the members. -/
  | forceProposal (rx : TlRx) (v : Vow) (mfc cc ident : Nat) (what : ForceWhat)
  /-- SYNC_REQ (R240): A joiner's SYNC_REQ reaches the donor, which plans its sync snapshots. -/
  | syncReq (rx : TlRx) (ids : PeerIds)
  /-- SYNC_FRAME_RX (R240): Sync data arrive at the joiner and start each group once it is complete. -/
  | syncFrameRx (p : Fin 2) (f : TlFrame) (items : List SyncItem) (last : Bool)
  /-- SYNC_FAIL (R239): Synchronisation or probation fails and the module enters EXCLUDED. -/
  | syncFail
  /-- SYNC_DONE (R239): A module that passed probation becomes MEMBER at a major-frame boundary. -/
  | syncDone
  /-- PRESENCE_FRAME_SEND (R231): A duplex supervisor sends a presence frame once per T_G. -/
  | presenceFrameSend
  /-- PRESENCE_FRAME_RX (R231): A peer's presence frame is taken by the TVL. -/
  | presenceFrameRx (port : Fin 2) (pos : Nat)
  /-- TVL_AGRCNT_CLR (R223): Writing TVL_AGRCNT.CLR clears the agreement counts. -/
  | tvlAgrcntClr
  /-- TVL_VOTECNT_CLR (R226): Writing TVL_VOTECNT.CLR clears the vote counts. -/
  | tvlVotecntClr
  /-- TVL_LINKCNT_CLR (R244): Writing TVL_LINKCNT_p.CLR clears the link counts. -/
  | tvlLinkcntClr (p : Fin 2)
  /-- GHEIF_FRAME_RX (R280): A frame on a Gheif channel is checked, then accepted or discarded, and stored by the controller. -/
  | gheifFrameRx (ch : Fin 2) (f : GhFrame)
  /-- GHEIF_SLOT_TX (R257): At an owned static slot's action point the node sends its frame or a null frame. -/
  | gheifSlotTx (ch : Fin 2) (p : Fin 1024)
  /-- DYN_SLOT (R258): A minislot boundary advances the dynamic slot counter and may start a dynamic frame. -/
  | dynSlot (ch : Fin 2)
  /-- GHEIF_TAKE (R294): At the take instant the controller takes queue items for an unbound transmit ID. -/
  | gheifTake (id : Fin 1024)
  /-- CLOCK_CORRECTION (R262): In the cycle idle phase the offset and rate terms are applied and the PASSIVE conditions judged. -/
  | clockCorrection
  /-- GHEIF_SYNC_LOST (R264): After PASSIVE_MAX cycles in PASSIVE the node loses synchronisation. -/
  | gheifSyncLost
  /-- LISTEN_TIMEOUT (R268): The listen timer expires, and a cold-start node may begin a cold start with a CAS. -/
  | listenTimeout (idle : Bool)
  /-- CAS_RX (R268): A heard CAS restarts the listen timer. -/
  | casRx (ch : Fin 2)
  /-- START_FRAME_TX (R270): The cold-start leader sends its start frame in the symbol window of cycle 0. -/
  | startFrameTx
  /-- ECHO_DECISION (R271): At the end of Gheif cycle 1 the leader or follower judges echo consistency. -/
  | echoDecision
  /-- MODE_CHANGE (R274): At the start of cycle X the node switches schedule mode if the proposal was unanimous. -/
  | modeChange
  /-- GUARD_STROBE (R276): The guardian checks a cycle-start strobe against its tolerance. -/
  | guardStrobe (err : Int)
  /-- GUARD_CUT (R277): A guardian window closes and truncates a transmission still running. -/
  | guardCut (ch : Fin 2)
  /-- LINE_ACTIVITY (R282): Line activity that begins no accepted frame is counted as NOISE, SW_ACT or IDLE_ACT. -/
  | lineActivity (ch : Fin 2) (zeros : Nat)
  /-- GHC_BUFSEL (R298): Writing GHC_BUFSEL copies the current item of a slot ID into GHC_BUFDATA. -/
  | ghcBufsel (v : Word)
  /-- GHC_CNTCLR_GHC (R298): Writing GHC_CNTCLR.GHC clears the controller counters. -/
  | ghcCntclrGhc
  /-- GHC_CNTCLR_GRD (R298): Writing GHC_CNTCLR.GRD clears the guardian counters. -/
  | ghcCntclrGrd
  /-- GHC_PREC_CLR (R265): Writing GHC_PREC.CLR clears the largest precision. -/
  | ghcPrecClr
  /-- TMB_CAPTURE (R302): Reading TMB_CAP_FRC_LO latches FRC, the time of day and the stamp into the pair's bank. -/
  | tmbCapture (p : Fin 4)
  /-- TIME_FRAME_RX (R310): An accepted time frame is a measurement of its Gheif source. -/
  | timeFrameRx (b : Bool)
  /-- PTP_MEASUREMENT (R325): The PTP slave port delivers a measurement to the timebase. -/
  | ptpMeasurement (n : Fin 2)
  /-- TMB_ADJ_WRITE (R312): A write to TMB_ADJ is a measurement of source SW. -/
  | tmbAdjWrite (v : Word)
  /-- SLEW_END (R303): PENDING reaches 0 and SLEW becomes 0 with a re-anchoring. -/
  | slewEnd
  /-- SOURCE_CHANGE (R307): The active time source becomes invalid and the timebase falls to the next valid entry. -/
  | sourceChange
  /-- TIME_FRAME_SEND (R309): The supervisor commits one time frame per Gheif cycle. -/
  | timeFrameSend
  /-- RTC_WRITE (R306): The timebase writes its time of day into the real-time clock once per second. -/
  | rtcWrite
  /-- LEAP_FLAG_CLEAR (R313): Leap flags clear after the end of the UTC day they announce. -/
  | leapFlagClear
  /-- LAUNCH (R314): A held transmit entry reaches its launch time, or is judged at the head, and is sent or discarded. -/
  | launch (h : Held)
  /-- TMB_CNT_CLR (R308): Writing TMB_CNT.CLR clears the timebase counts. -/
  | tmbCntClr
  /-- ETH_FRAME_RX (R319): A received Ethernet frame is filtered and classified to PTP, command, process data, a rule queue or discard. -/
  | ethFrameRx (n : Fin 4) (f : EthFrame) (v : PtpVerdict)
  /-- PTP_MESSAGE_TX (R325): The supervisor's PTP instance sends a message, timestamped at egress. -/
  | ptpMessageTx (n : Fin 2) (msg : List Byte) (v : PtpVerdict)
  /-- ETH_TX_ITEM (R321): An item of a software transmit queue is taken and checked. -/
  | ethTxItem (q : Fin 64)
  /-- ETH_FRAME_START (R322): An idle port starts its next frame by class order, subject to the launch guard. -/
  | ethFrameStart (n : Fin 4)
  /-- PD_TAKE (R331): At launch − 2 us the engine takes the newest supply item of an unbound telegram. -/
  | pdTake (t : Fin 512)
  /-- ETH_LINK_CHANGE (R323): An Ethernet link goes up or down. -/
  | ethLinkChange (n : Fin 4) (up : Bool)
  /-- ETH_CNTCLR (R336): Writing ETH_CNTCLR.ALL clears the Ethernet counters. -/
  | ethCntclr
  /-- IXS_PRODUCER_ITEM (R346): An unbound producer's item is stamped, sequenced and committed to its carrier. -/
  | ixsProducerItem (c : Fin 256)
  /-- IXS_MESSAGE_RX (R347): A consumer checks a safe message, then accepts or discards it. -/
  | ixsMessageRx (q : Fin 64)
  /-- IXS_ACK (R349): Writing IXS_ACK clears ACK_PEND of a FAILSAFE connection. -/
  | ixsAck (v : Word)
  /-- IXS_ERR_WINDOW (R350): An error-rate window of ERR_WIN_S seconds ends and its count restarts. -/
  | ixsErrWindow (c : Fin 256)
  /-- IXS_CNTCLR (R355): Writing IXS_CNTCLR.ALL clears the connection counters. -/
  | ixsCntclr
  /-- CAN_FRAME_RX (R364): A CAN FD frame becomes valid and is filtered, latched and queued. -/
  | canFrameRx (n : Fin 6) (f : CanFrame)
  /-- CAN_TXREQ (R368): Writing CAN_TXREQ makes a software-mode buffer pending. -/
  | canTxreq (n : Fin 6) (v : Word)
  /-- CAN_TXCAN (R371): Writing CAN_TXCAN requests cancellation of a buffer. -/
  | canTxcan (n : Fin 6) (v : Word)
  /-- FLUSH (R369): Writing CAN_TXQ.FLUSH releases the unstarted items of the transmit queue. -/
  | canFlush (n : Fin 6)
  /-- RECOVER (R373): Writing CAN_CTRL.RECOVER starts bus-off recovery. -/
  | canRecover (n : Fin 6)
  /-- CAN_MODE_WRITE (R374): Writing CAN_CTRL.MODE selects normal or restricted operation from the next bus idle. -/
  | canModeWrite (n : Fin 6) (v : Word)
  /-- CAN_SUPPLY_ITEM (R368): A supply-mode buffer takes an item from its queue and becomes pending. -/
  | canSupplyItem (n : Fin 6) (b : Fin 32)
  /-- CAN_RXQ_RELEASE (R365): Writing CAN_RXQm_CTRL.RELEASE frees the head slot of a local receive queue. -/
  | canRxqRelease (who : Fin 4) (n : Fin 6) (m : Fin 2) (v : Word)
  /-- CAN_ARBITRATION (R370): At a start-of-frame opportunity the controller starts the winning candidate or withholds it. -/
  | canArbitration (n : Fin 6) (won : Bool) (tdcv : Nat)
  /-- CAN_TX_COMPLETE (R370): A sent frame becomes valid for the transmitter and counts TX_OK. -/
  | canTxComplete (n : Fin 6)
  /-- CAN_ERROR (R372): A detected bus error updates the error counters and state. -/
  | canError (n : Fin 6) (kind : Fin 6) (tx : Bool) (add : Fin 9)
  /-- CAN_BUSOFF_END (R373): 128 recessive sequences complete recovery and the controller becomes error active. -/
  | canBusoffEnd (n : Fin 6)
  /-- FILTER_LINE_RESTORE (R377): The supervisor rewrites a damaged filter line or buffer descriptor. -/
  | filterLineRestore (n : Fin 6) (line : Fin 256)
  /-- CAN_CNT_CLR (R372): Writing CAN_CFG.CNT_CLR clears the CAN counters. -/
  | canCntClr (n : Fin 6)
  /-- RACK_READ (R383): A machine-mode load in the rack-bus window is accepted as an outbound read. -/
  | rackRead (p : Fin 4) (addr : Nat) (size : Fin 4) (d : RackLd)
  /-- RACK_WRITE (R383): A machine-mode store in the rack-bus window is accepted as a non-posted write. -/
  | rackWrite (p : Fin 4) (addr : Nat) (size : Fin 4) (v : DWord) (len : Nat)
  /-- RACK_AMO (R385): An AMO on the rack window becomes a locked read-modify-write. -/
  | rackAmo (p : Fin 4) (addr : Nat) (dbl : Bool) (op : AmoOp) (v : DWord) (d : RackLd)
  /-- LR_W (R386): LR.W reads a rack word and takes the bridge semaphore. -/
  | lrW (p : Fin 4) (addr : Nat) (dbl : Bool) (d : RackLd)
  /-- SC_W (R386): SC.W writes the word only if the semaphore still holds. -/
  | scW (p : Fin 4) (addr : Nat) (dbl : Bool) (v : DWord) (d : RackLd)
  /-- RACK_GRANT (R380): At rack-bus idle the arbiter grants the bus. -/
  | rackGrant (reqs : BitVec 4)
  /-- RACK_ACK (R381): DTACK_N or BERR_N from the target ends a rack cycle. -/
  | rackAck (dtack berr : Bool) (data : Half) (slow lock : Bool)
  /-- LRB_TIMEOUT (R382): An outbound transaction not ended within 10 us is ended with an error. -/
  | lrbTimeout
  /-- RACK_INBOUND (R387): A board-mastered cycle is served in the inbound window or refused. -/
  | rackInbound (c : BoardCyc) (tchk : Bool)
  /-- BOARD_CYCLE_TIMEOUT (R394): A board cycle without acknowledge for 10 us is ended with BERR_N. -/
  | boardCycleTimeout
  /-- LRB_LOCK_HOG (R395): A board holding LOCK_N over 10 us is overridden. -/
  | lrbLockHog
  /-- PREFETCH_AGE (R389): A prefetch buffer expires after PF_AGE and its unconsumed halfwords are discarded. -/
  | prefetchAge (p : Fin 4)
  /-- RACK_READ_LIST (R391): Read-list entries due at START_US run as rack cycles. -/
  | rackReadList (e : Fin 128)
  /-- RACK_WRITE_LIST (R392): The write entries of held groups run after an output instant. -/
  | rackWriteList (k : Fin 16)
  /-- LRB_CNTCLR (R396): Writing LRB_CNTCLR.ALL clears the bridge counters. -/
  | lrbCntclr
  /-- DI_SAMPLE (R402): Channel X samples an input every 10 us and qualifies its state. -/
  | diSample (n : Fin 16) (mv10 : Int)
  /-- Y_STATE (R402): A channel Y state reaches the comparison and updates the combined value. -/
  | yState (n : Fin 16) (v brk : Bool)
  /-- DISCREPANCY (R403): X and Y still differ after DISC_T. -/
  | discrepancy (n : Fin 16)
  /-- Y_LOST (R405): No channel Y state for 200 us fails every input. -/
  | yLost (selfTest : Bool)
  /-- TEST_PULSE (R399): A test-pulse supply switches off for TPW. -/
  | testPulse (k : Fin 4)
  /-- TEST_PULSE_END (R400): At pulse end the supply and its inputs are checked for TP_FAULT and CROSS. -/
  | testPulseEnd (k : Fin 4) (fell rose : Bool) (y : BitVec 16)
  /-- TP_OVERCURRENT (R399): A test supply above 150 mA switches off and reports TP_FAULT. -/
  | tpOvercurrent (k : Fin 4)
  /-- DO_OVERCURRENT (R407): An output above 0.9 A switches its high side off and latches OVERCURRENT. -/
  | doOvercurrent (m : Fin 8)
  /-- DO_READBACK_FAULT (R411): A read-back mismatch persisting 100 us is latched as a fault. -/
  | doReadbackFault (m : Fin 8) (rb : Fin 3)
  /-- DO_RETRY (R411): An output latched for OVERCURRENT with RETRY is switched on again once per second. -/
  | doRetry (m : Fin 8)
  /-- OUTPUT_TEST (R413): A safety-class output ON for a test period is switched off for OTW. -/
  | outputTest (m : Fin 8)
  /-- OUTPUT_TEST_END (R413): At test end the read-back is judged for STUCK_ON. -/
  | outputTestEnd (m : Fin 8) (rb : Fin 3)
  /-- FLT_CLR (R411): Writing SIO_DOSTAT_m.FLT_CLR clears the output fault latch. -/
  | fltClr (m : Fin 8)
  /-- FS_LOW (R415): The field supply below 16.0 V for 100 us clears FS_OK. -/
  | fsLow (mv10 : Nat)
  /-- FS_RESTORED (R415): The field supply at 17.0 V for 10 ms sets FS_OK and switches on the commanded outputs. -/
  | fsRestored (mv10 : Nat)
  /-- SIO_FS_BUDGET (R415): Field current above BUDGET for 10 ms is recorded. -/
  | sioFsBudget (ma : Nat)
  /-- SIO_CNTCLR (R417): Writing SIO_CNTCLR.ALL clears the SIO counters. -/
  | sioCntclr
  /-- DESCRIBE (R460): The command returns identity, capability and image-set data. -/
  | describe (r : Req)
  /-- GET_STATE (R460): The command returns the module state and counters. -/
  | getState (r : Req)
  /-- SET_MODE (R460): The command changes between Stop, Run and Hold. -/
  | setMode (r : Req)
  /-- RESTART (R460): The command starts a warm or cold Dawn sequence. -/
  | restart (r : Req)
  /-- CONFIG_BEGIN (R460): The command opens or abandons a configuration session. -/
  | configBegin (r : Req)
  /-- CONFIG_WRITE (R460): The command writes bytes of the configuration image. -/
  | configWrite (r : Req)
  /-- CONFIG_SEAL (R460): The command checks and seals the configuration. -/
  | configSeal (r : Req)
  /-- LOAD_BEGIN (R460): The command empties an inactive image set and opens a load session. -/
  | loadBegin (r : Req)
  /-- LOAD_BLOCK (R460): The command writes bytes of the image set. -/
  | loadBlock (r : Req)
  /-- LOAD_VERIFY (R460): The command verifies the set and loads the engine banks. -/
  | loadVerify (r : Req)
  /-- ACTIVATE (R460): The command activates an image set at once or at boundary B. -/
  | activate (r : Req)
  /-- FORCE_SET (R460): The command sets a force. -/
  | forceSet (r : Req)
  /-- FORCE_CLEAR (R460): The command clears one force or all. -/
  | forceClear (r : Req)
  /-- FORCE_LIST (R460): The command lists the forces. -/
  | forceList (r : Req)
  /-- READ_VAR (R462): The command reads variables by identity. -/
  | readVar (r : Req)
  /-- WRITE_VAR (R462): The command writes a variable at the next output close. -/
  | writeVar (r : Req)
  /-- REC_READ (R483): The command returns records from the ring. -/
  | recRead (r : Req)
  /-- REC_MARK (R484): The command writes an application mark record. -/
  | recMark (r : Req)
  /-- REC_CONFIG_SET_RATE (R479): REC_CONFIG function 0 sets a code's rate limit. -/
  | recConfigSetRate (r : Req)
  /-- REC_CONFIG_SET_SNAPSHOT (R479): REC_CONFIG function 1 sets a code's snapshot registers. -/
  | recConfigSetSnapshot (r : Req)
  /-- REC_CONFIG_RESTORE (R479): REC_CONFIG function 2 restores default settings. -/
  | recConfigRestore (r : Req)
  /-- REC_CONFIG_READ_CATALOGUE (R479): REC_CONFIG function 3 returns a code's catalogue entry. -/
  | recConfigReadCatalogue (r : Req)
  /-- REC_CONFIG_READ_SETTINGS (R479): REC_CONFIG function 4 returns a code's settings. -/
  | recConfigReadSettings (r : Req)
  /-- TIME_GET (R460): The command returns the time of day and FRC from one capture. -/
  | timeGet (r : Req)
  /-- TIME_SET (R304): The command steps the time of day in the Stop state. -/
  | timeSet (r : Req)
  /-- NET_MODE_REQ (R460): The command asks for a Gheif schedule-mode change. -/
  | netModeReq (r : Req)
  /-- LEASE_STATUS (R460): The command returns the lease records of all output groups. -/
  | leaseStatus (r : Req)
  /-- LEASE_RELEASE (R232): The command releases the named leases. -/
  | leaseRelease (r : Req)
  /-- REINTEGRATE (R239): The command lets an EXCLUDED module return to LISTEN. -/
  | reintegrate (r : Req)
  /-- SELFTEST (R460): The command runs the comparator self-tests. -/
  | selftest (r : Req) (fails : BitVec 6)
  /-- POWER_BUDGET (R499): The command reads or sets the power budget. -/
  | powerBudget (r : Req)
  /-- MIDNIGHT (R500): The command enters Midnight mode with the given wake sources. -/
  | midnight (r : Req)
  /-- SERVICE_ENTER (R434): The command enters the Service state. -/
  | serviceEnter (r : Req)
  /-- SERVICE_EXIT (R434): The command leaves the Service state. -/
  | serviceExit (r : Req)
  /-- HALT (R68): The command halts the named pairs. -/
  | halt (r : Req)
  /-- STEP (R68): The command steps one instruction of a halted pair. -/
  | stepPair (r : Req) (x : PairStep)
  /-- RESUME (R68): The command resumes halted pairs. -/
  | resume (r : Req)
  /-- PEEK (R70): The command reads memory or a pair register. -/
  | peek (r : Req) (trail : Option DWord)
  /-- POKE (R70): The command writes memory or a pair register. -/
  | poke (r : Req)
  /-- TRIGGER (R71): The command sets or clears an instruction-address trigger. -/
  | trigger (r : Req)
  /-- BOOT_UPDATE (R461): The command writes, verifies and installs a supervisor and boot image. -/
  | bootUpdate (r : Req)
  /-- LONG_OP_COMPLETE (R446): A long operation ends and its completion notice is queued. -/
  | longOpComplete
  /-- SCP_FETCH (R441): A fetch frame shifts out the oldest waiting packet. -/
  | scpFetch (full : Bool)
  /-- SUP_MBSUBMIT (R453): Writing SUP_MBSUBMIT submits the packet in a local command port. -/
  | supMbsubmit (part : Bool) (n : Fin 256) (v : Word)
  /-- SESSION_TIMEOUT (R448): A session closes after 600 s without a command from its origin. -/
  | sessionTimeout (load : Bool)
  /-- AUTH_LOCKOUT_END (R452): A 60 s lockout of an IPv4 source ends. -/
  | authLockoutEnd (ip : Nat)
  /-- SVC_DET_CHANGE (R513): A change of SVC_DET moves the SCP between X1 and X5 between frames. -/
  | svcDetChange (level : Bool)
  /-- CLOCK_CHECK (R489): Each 1 ms the reference and guardian clocks are compared and a fault leads to Dusk. -/
  | clockCheck (ppm : Nat)
  /-- PLL_LOCK_LOST (R489): A PLL reports loss of lock outside a granted start, and the module enters Dusk. -/
  | pllLockLost (clock : Nat)
  /-- SUP_SELFCHECK_FAIL (R436): The supervisor's firmware self-check fails and the module enters Dusk. -/
  | supSelfcheckFail
  /-- RST_N_ASSERT (R494): RST_N held low for 10 us holds the module in reset. -/
  | rstNAssert
  /-- RST_N_RELEASE (R494): The release of RST_N begins a Dawn sequence. -/
  | rstNRelease
  /-- POWER_GOOD (R509): MATE and the supply held for 10 ms give power-good and start the Dawn sequence. -/
  | powerGood
  /-- DAWN_END (R493): The Dawn sequence completes into Config, Stop or Run with a READY notice. `tests.fails` and `tests.latch` name the units of
  which a lane's test fails, and of which the injection through the fault path does not set the module fault latch (R62, R167). -/
  | dawnEnd (bootFails : Bool) (tests : DawnTests) (damaged : Bool)
  /-- MATE_OPEN (R509): MATE opening while powered gives the supply-fail warning at once. -/
  | mateOpen
  /-- HOLDUP_ENTER (R492): An intake below 14.0 V for 10 us enters hold-up. -/
  | holdupEnter
  /-- SUPPLY_DIP (R492): The intake returns before the warning and the interruption is ridden through. -/
  | supplyDip
  /-- SUPPLY_FAIL (R492): The hold-up store reaches its last 1 ms and the supply-fail warning is given. -/
  | supplyFail (mv : Nat)
  /-- POWER_GOOD_WITHDRAW (R492): 1 ms after the warning power-good is withdrawn and the module is in Night. -/
  | powerGoodWithdraw
  /-- MIDNIGHT_WAKE (R501): An enabled wake source starts the warm Dawn sequence from Midnight mode. -/
  | midnightWake (src : Fin 4)
  /-- BUDGET_CHECK (R499): Input power averaged over 1 ms above the budget is recorded. -/
  | budgetCheck (avg : Nat)
  /-- NIGHT_CAP_LOW (R503): The Night capacitor falls below 2.0 V while powered. -/
  | nightCapLow (vcap : Nat)
  /-- COUNTER_COPY (R491): The supervisor writes the counter copies every 60 s. -/
  | counterCopy
  /-- OPTIME_READ (R491): Reading PWR_OPTIME_LO latches PWR_OPTIME_HI. -/
  | optimeRead
  /-- PWR_ARBCNT_CLR (R498): Writing PWR_ARBCNT.CLR clears the arbiter counts. -/
  | pwrArbcntClr
  /-- RECORD_EVENT (R474): An event reported to the recorder is rate-judged, snapshotted and placed in the intake queue. -/
  | recordEvent
  /-- REC_RING_WRITE (R475): A granted burst writes intake records into the ring. -/
  | recRingWrite
  /-- TOKEN_REFILL (R476): A code's bucket gains a token and spends it at once on any kept event. -/
  | tokenRefill (c : Fin 1024)
  /-- REC_CNT_CLR (R487): Writing REC_CNT.CLR clears the suppressed and dropped counts. -/
  | recCntClr
  /-- ABSENT_UNIT_ACCESS (R7): An access to an absent unit's window ends in an error response. -/
  | absentUnitAccess (who : Fin 4) (addr : Nat) (store : Bool)
  /-- REGISTER_WRITE (R15): A write to a register without behaviour of its own acts by its fields' access codes. -/
  | registerWrite (who : Fin 4) (off : Nat) (v : Word)
  /-- PAIR_INSTRUCTION (R44): A pair retires an ordinary RV64IMAFDC instruction (load, store, AMO, LR/SC, CSR access, arithmetic) outside the special cases listed. -/
  | pairInstruction (p : Fin 4) (x : RvInsn) (f : InsnFetch)
  /-- CMP_TEST_DUE (R63): 24 h of operating hours after a pair's or engine's last comparator test, the test falls due and PLX_CMPST.DUE or LE_CMPST.DUE sets. -/
  | cmpTestDue (u : Fin 6)
  /-- CMP_SELFTEST_END (R61): A running comparator self-test of a pair (2.5 us) or an engine (1 us) ends, counts a pass or fails, and the unit executes again. -/
  | cmpSelftestEnd (u : Fin 6) (fail : Option Nat)
  /-- LINK_EXCLUDE_END (R236): A member excluded under the link rule finds that its failed link has been up for 1 s and may leave EXCLUDED. -/
  | linkExcludeEnd
  /-- SEMAPHORE_EXPIRY (R386): The bridge semaphore set by LR.W expires 10 us later and LRB_STAT.SEM_VALID clears. -/
  | semaphoreExpiry
  /-- SUPERVISOR_MISMATCH (R432): The supervisor's lock-step comparison finds a difference, sets the module fault latch and takes the module to Dusk from step 4 of R65. -/
  | supervisorMismatch
  /-- POS_CHANGED (R506): The POS0/POS1 contacts change while the module is powered, and the change is ignored and recorded. -/
  | posChanged (pos : Fin 4)
  /-- NIGHT_VALID_CLEAR (R490): Without supply, the Night capacitor falls below 1.6 V, NIGHT_VALID clears and the Night content is lost. -/
  | nightValidClear
  /-- BAD_REQUEST_FRAME (R465): A command request that names no assigned opcode, or fails the busy-port, framing or trailer check, is refused or discarded. -/
  | badRequestFrame (kind : Fin 4) (opc : Nat) (r : Req)
  deriving DecidableEq, Repr

end Sys2Proof
end

