-- ==== Sys2Proof/WellFormed.lean ====
section
/-!
DEFINITION. Well-formedness of a command as syntax: the operand forms of the engine instruction set (R175 to R178) and the field
widths of command requests and received frames. It reads no state.
-/
namespace Sys2Proof

/-- The operand forms of the table of R178. -/
inductive LeForm where
  /-- No operand: SP = 0 and OPND = 0. -/
  | none
  /-- A bit of I, Q, M or K. -/
  | bitB
  /-- A bit of Q or M. -/
  | bitD
  /-- A bit of M. -/
  | bitM
  /-- A timer number. -/
  | timer
  /-- A counter record of M. -/
  | record
  /-- A word of I, Q, M or K. -/
  | wordW
  /-- A word of Q or M. -/
  | wordD
  /-- A word address of the bank. -/
  | target
  /-- A general queue. -/
  | queue
  deriving DecidableEq, Repr

/-- Bytes of an operand space: I, Q and M (R165). -/
def leSpace (sp : Nat) : Nat := if sp = 2 then 0x40000 else 0x8000

/-- The operand is indexed: bit X of spaces I, Q and M. -/
def Opnd.indexed (o : Opnd) : Bool := o.sp != 3 && o.opnd.getLsbD 23
/-- The direct address or the number. -/
def Opnd.addr (o : Opnd) : Nat := o.opnd.toNat % 2 ^ 23

/-- A direct address lies inside its space, aligned; `unit` addresses make up a byte address: 1 or 8. -/
def Opnd.directOk (o : Opnd) (bit : Bool) (align : Nat) : Bool :=
  o.indexed || (if bit then decide (o.addr < leSpace o.sp * 8) else decide (o.addr % align = 0 ∧ o.addr < leSpace o.sp))

/-- The operand has the form (R175, R176, R177). -/
def LeForm.ok (f : LeForm) (o : Opnd) : Bool :=
  match f with
  | .none => decide (o.sp = 0 ∧ o.opnd = 0)
  | .bitB => if o.sp = 3 then decide (o.opnd.toNat < 2) else o.directOk true 1
  | .bitD => decide (o.sp = 1 ∨ o.sp = 2) && o.directOk true 1
  | .bitM => decide (o.sp = 2) && o.directOk true 1
  | .timer => decide (o.sp = 3 ∧ o.opnd.toNat < 4096)
  | .record => decide (o.sp = 2) && o.directOk false 8
  | .wordW => decide (o.sp = 3) || o.directOk false 4
  | .wordD => decide (o.sp = 1 ∨ o.sp = 2) && o.directOk false 4
  | .target => decide (o.sp = 3 ∧ o.opnd.toNat < 0x40000)
  | .queue => decide (o.sp = 3 ∧ o.opnd.toNat < 64)

/-- The operand of an instruction that has none. -/
def Opnd.zero : Opnd := ⟨0, 0⟩

/-- An engine instruction's opcode, engine, operand form and operand (R178). -/
def Instr.le : Instr → Option (Nat × Fin 2 × LeForm × Opnd)
  | .leNop e => some (0x00, e, .none, Opnd.zero)
  | .leLd e o => some (0x01, e, .bitB, o)
  | .leLdn e o => some (0x02, e, .bitB, o)
  | .leSt e o => some (0x03, e, .bitD, o)
  | .leStn e o => some (0x04, e, .bitD, o)
  | .leS e o => some (0x05, e, .bitD, o)
  | .leR e o => some (0x06, e, .bitD, o)
  | .leAnd e o => some (0x07, e, .bitB, o)
  | .leAndn e o => some (0x08, e, .bitB, o)
  | .leOr e o => some (0x09, e, .bitB, o)
  | .leOrn e o => some (0x0A, e, .bitB, o)
  | .leXor e o => some (0x0B, e, .bitB, o)
  | .leXorn e o => some (0x0C, e, .bitB, o)
  | .leNot e => some (0x0D, e, .none, Opnd.zero)
  | .leAndBr e o => some (0x0E, e, .bitB, o)
  | .leAndnBr e o => some (0x0F, e, .bitB, o)
  | .leOrBr e o => some (0x10, e, .bitB, o)
  | .leOrnBr e o => some (0x11, e, .bitB, o)
  | .leXorBr e o => some (0x12, e, .bitB, o)
  | .leXornBr e o => some (0x13, e, .bitB, o)
  | .leClose e => some (0x14, e, .none, Opnd.zero)
  | .leEp e o => some (0x15, e, .bitM, o)
  | .leEn e o => some (0x16, e, .bitM, o)
  | .leTon e o => some (0x17, e, .timer, o)
  | .leTof e o => some (0x18, e, .timer, o)
  | .leTp e o => some (0x19, e, .timer, o)
  | .leTrd e o => some (0x1A, e, .timer, o)
  | .leCtu e o => some (0x1B, e, .record, o)
  | .leCtd e o => some (0x1C, e, .record, o)
  | .leCtld e o => some (0x1D, e, .record, o)
  | .leCtrd e o => some (0x1E, e, .record, o)
  | .leLdw e o => some (0x20, e, .wordW, o)
  | .leStw e o => some (0x21, e, .wordD, o)
  | .leAdd e o => some (0x22, e, .wordW, o)
  | .leSub e o => some (0x23, e, .wordW, o)
  | .leMul e o => some (0x24, e, .wordW, o)
  | .leDiv e o => some (0x25, e, .wordW, o)
  | .leMod e o => some (0x26, e, .wordW, o)
  | .leAndw e o => some (0x27, e, .wordW, o)
  | .leOrw e o => some (0x28, e, .wordW, o)
  | .leXorw e o => some (0x29, e, .wordW, o)
  | .leShl e o => some (0x2A, e, .wordW, o)
  | .leShr e o => some (0x2B, e, .wordW, o)
  | .leAsr e o => some (0x2C, e, .wordW, o)
  | .leGtw e o => some (0x2D, e, .wordW, o)
  | .leGew e o => some (0x2E, e, .wordW, o)
  | .leEqw e o => some (0x2F, e, .wordW, o)
  | .leNew e o => some (0x30, e, .wordW, o)
  | .leLtw e o => some (0x31, e, .wordW, o)
  | .leLew e o => some (0x32, e, .wordW, o)
  | .leLdx e o => some (0x33, e, .wordW, o)
  | .leJmp e o => some (0x34, e, .target, o)
  | .leJmpc e o => some (0x35, e, .target, o)
  | .leJmpcn e o => some (0x36, e, .target, o)
  | .leCal e o => some (0x37, e, .target, o)
  | .leCalc e o => some (0x38, e, .target, o)
  | .leRet e => some (0x39, e, .none, Opnd.zero)
  | .leSendq e o => some (0x3A, e, .queue, o)
  | .leRecvq e o => some (0x3B, e, .queue, o)
  | .leEnd e => some (0x3F, e, .none, Opnd.zero)
  | _ => none

/-- A request as the transports can frame it (R443, R449): field widths and lengths. -/
def Req.wf (r : Req) : Bool :=
  decide (r.seq < 65536 ∧ r.trailer < 2 ^ 32 ∧ r.flags < 256 ∧ r.byte7 < 256 ∧ r.payload.length ≤ 4096) &&
    (match r.tag with | some t => decide (t.1 < 2 ^ 32 ∧ t.2.length = 16) | none => true) &&
    (match r.origin with
     | .scp n => decide (n < 256)
     | .eth n ip udp port mac => decide (n < 256 ∧ ip < 2 ^ 32 ∧ udp < 65536 ∧ port < 4 ∧ mac < 2 ^ 48)
     | .pairPort n => decide (n < 4)
     | .partPort n => decide (n < 256))

/-- The request a command of the supervisor carries. -/
def Instr.req : Instr → Option Req
  | .describe r => some r
  | .getState r => some r
  | .setMode r => some r
  | .restart r => some r
  | .configBegin r => some r
  | .configWrite r => some r
  | .configSeal r => some r
  | .loadBegin r => some r
  | .loadBlock r => some r
  | .loadVerify r => some r
  | .activate r => some r
  | .forceSet r => some r
  | .forceClear r => some r
  | .forceList r => some r
  | .readVar r => some r
  | .writeVar r => some r
  | .recRead r => some r
  | .recMark r => some r
  | .recConfigSetRate r => some r
  | .recConfigSetSnapshot r => some r
  | .recConfigRestore r => some r
  | .recConfigReadCatalogue r => some r
  | .recConfigReadSettings r => some r
  | .timeGet r => some r
  | .timeSet r => some r
  | .netModeReq r => some r
  | .leaseStatus r => some r
  | .leaseRelease r => some r
  | .reintegrate r => some r
  | .selftest r _ => some r
  | .powerBudget r => some r
  | .midnight r => some r
  | .serviceEnter r => some r
  | .serviceExit r => some r
  | .halt r => some r
  | .stepPair r _ => some r
  | .resume r => some r
  | .peek r _ => some r
  | .poke r => some r
  | .trigger r => some r
  | .bootUpdate r => some r
  | .badRequestFrame _ _ r => some r
  | _ => none

/-- An Ethernet frame holds its addresses and its type field at least. -/
def EthFrame.wf (f : EthFrame) : Bool := decide (14 ≤ f.bytes.length)

/-- A CAN frame's identifier fits its format, and its data its DLC (R364). -/
def CanFrame.wf (f : CanFrame) : Bool := decide (f.id < (if f.xtd then 2 ^ 29 else 2 ^ 11) ∧ f.data.length ≤ 64)

/-- A value is the sign extension of its low `n` bits. -/
def fitsBits (n : Nat) (v : DWord) : Bool := (v.setWidth n).signExtend 64 == v

/-- F and D operations by number and rm field (R44). -/
def fpOpOk (n rm : Nat) : Bool :=
  if n < 0x10 then [0x00, 0x01, 0x04, 0x05, 0x08, 0x09, 0x0C, 0x0D].contains n && decide (rm < 8)
  else if n = 0x10 ∨ n = 0x11 then decide (rm < 3)
  else if n = 0x14 ∨ n = 0x15 then decide (rm < 2)
  else decide (rm < 8) && ([0x2C, 0x2D, 0xA0, 0x21].contains n || decide (4096 ≤ n ∧ n < 4112 ∧ n % 4 < 2))

/-- A pair's instruction has an encoding in RV64IMAFD with Zicsr and Zifencei (R44). -/
def RvInsn.wf : RvInsn → Bool
  | .lui _ imm | .auipc _ imm => fitsBits 32 imm && decide (imm.toNat % 4096 = 0)
  | .jal _ ofs => fitsBits 21 ofs && decide (ofs.toNat % 2 = 0)
  | .jalr _ _ ofs => fitsBits 12 ofs
  | .branch _ _ _ ofs => fitsBits 13 ofs && decide (ofs.toNat % 2 = 0)
  | .load wd u _ _ ofs => fitsBits 12 ofs && !(u && wd == .d)
  | .store _ _ _ ofs => fitsBits 12 ofs
  | .opImm o _ _ imm =>
    (match o with
     | .add | .slt | .sltu | .xor | .or | .and => fitsBits 12 imm
     | .sll | .srl | .sra => decide (imm.toNat < 64)
     | _ => false)
  | .opImmW o _ _ imm =>
    (match o with
     | .add => fitsBits 12 imm
     | .sll | .srl | .sra => decide (imm.toNat < 32)
     | _ => false)
  | .op .. => true
  | .opW o _ _ _ => !([AluOp.slt, .sltu, .xor, .or, .and, .mulh, .mulhsu, .mulhu].contains o)
  | .lr .. | .sc .. | .amo .. | .csr .. | .csrImm .. | .fence | .fenceI | .ecall => true
  | .fload _ _ _ ofs | .fstore _ _ _ ofs => fitsBits 12 ofs
  | .fop n rm _ _ _ _ => fpOpOk n rm
  | .fopX n rm _ _ _ =>
    if n = 0x50 ∨ n = 0x51 then decide (rm < 3)
    else if n = 0x70 ∨ n = 0x71 then decide (rm < 2)
    else decide (rm < 8 ∧ n / 128 < 4 ∧ (n % 128 = 0x60 ∨ n % 128 = 0x61))
  | .fopF n rm _ _ =>
    if n = 0x78 ∨ n = 0x79 then decide (rm = 0)
    else decide (rm < 8 ∧ n / 128 < 4 ∧ (n % 128 = 0x68 ∨ n % 128 = 0x69))
  | .illegal _ => true

/-- A symbol of a line's code: 70 stored ones and the five of its address (R147, R148). -/
def LineErr.wf (e : LineErr) : Bool := e.bad.all fun n => decide (n < 75)

/-- A cache of 32 KiB has 512 lines (R43). -/
def PairReads.wf (r : PairReads) : Bool := r.errs.all LineErr.wf && r.cache.all fun c => decide (c.2 < 512)

/-- The lanes of the comparator's groups G0 to G6 (R60): 248 in all. -/
def cmpLanes (g : Nat) : Nat := [48, 64, 8, 24, 40, 16, 48].getD g 0

/-- What a STEP executes has an encoding. -/
def PairStep.wf : PairStep → Bool
  | .insn i _ => i.wf
  | _ => true

/-- A command is well-formed as syntax. -/
def Instr.wf (i : Instr) : Bool :=
  match i.le with
  | some c => c.2.2.1.ok c.2.2.2
  | none =>
    match i.req with
    | some r => r.wf && (match i with | .stepPair _ x => x.wf | _ => true)
    | none =>
      match i with
      | .ethFrameRx _ f _ => f.wf
      | .canFrameRx _ f => f.wf
      | .rackInbound c _ => decide (c.addr < 2 ^ 24)
      | .registerWrite _ off _ => decide (off < 2 ^ 40)
      | .absentUnitAccess _ a _ => decide (a < 2 ^ 40)
      | .pairInstruction _ i f => i.wf && f.reads.wf
      | .pairMismatch _ g lane _ _ => decide (lane < cmpLanes g)
      | .scrubPass _ l => l.all LineErr.wf
      | .memUncorr m a r => LineErr.wf ⟨m, a, r.bad, r.other⟩
      | _ => true

end Sys2Proof
end

