-- ==== Sys2Proof/Decode.lean ====
section
/-!
DEFINITION. The words of the engine instruction set (R175, R178): the decoder, which refuses every reserved opcode, disallowed space,
field that is not 0 and direct address outside its space, and after it the encoder. The opcode table of the block gives its rows no
bits.
-/
namespace Sys2Proof

/-- An instruction word: OPC in bits [31:26], SP in bits [25:24], OPND in bits [23:0] (R175). -/
def leWord (opc : Nat) (o : Opnd) : Word := BitVec.ofNat 32 (opc % 64 * 2 ^ 26 + o.sp.val * 2 ^ 24 + o.opnd.toNat)

/-- The opcode of a word. -/
def leOpc (w : Word) : Nat := w.toNat / 2 ^ 26
/-- The operand fields of a word. -/
def leOpnd (w : Word) : Opnd := ⟨⟨w.toNat / 2 ^ 24 % 4, Nat.mod_lt _ (by decide)⟩, BitVec.ofNat 24 w.toNat⟩

/-- The instruction of an opcode on engine `e`, whatever its operand. -/
def leByOpc (e : Fin 2) (o : Opnd) : Nat → Option Instr
  | 0x00 => some (.leNop e)
  | 0x01 => some (.leLd e o)
  | 0x02 => some (.leLdn e o)
  | 0x03 => some (.leSt e o)
  | 0x04 => some (.leStn e o)
  | 0x05 => some (.leS e o)
  | 0x06 => some (.leR e o)
  | 0x07 => some (.leAnd e o)
  | 0x08 => some (.leAndn e o)
  | 0x09 => some (.leOr e o)
  | 0x0A => some (.leOrn e o)
  | 0x0B => some (.leXor e o)
  | 0x0C => some (.leXorn e o)
  | 0x0D => some (.leNot e)
  | 0x0E => some (.leAndBr e o)
  | 0x0F => some (.leAndnBr e o)
  | 0x10 => some (.leOrBr e o)
  | 0x11 => some (.leOrnBr e o)
  | 0x12 => some (.leXorBr e o)
  | 0x13 => some (.leXornBr e o)
  | 0x14 => some (.leClose e)
  | 0x15 => some (.leEp e o)
  | 0x16 => some (.leEn e o)
  | 0x17 => some (.leTon e o)
  | 0x18 => some (.leTof e o)
  | 0x19 => some (.leTp e o)
  | 0x1A => some (.leTrd e o)
  | 0x1B => some (.leCtu e o)
  | 0x1C => some (.leCtd e o)
  | 0x1D => some (.leCtld e o)
  | 0x1E => some (.leCtrd e o)
  | 0x20 => some (.leLdw e o)
  | 0x21 => some (.leStw e o)
  | 0x22 => some (.leAdd e o)
  | 0x23 => some (.leSub e o)
  | 0x24 => some (.leMul e o)
  | 0x25 => some (.leDiv e o)
  | 0x26 => some (.leMod e o)
  | 0x27 => some (.leAndw e o)
  | 0x28 => some (.leOrw e o)
  | 0x29 => some (.leXorw e o)
  | 0x2A => some (.leShl e o)
  | 0x2B => some (.leShr e o)
  | 0x2C => some (.leAsr e o)
  | 0x2D => some (.leGtw e o)
  | 0x2E => some (.leGew e o)
  | 0x2F => some (.leEqw e o)
  | 0x30 => some (.leNew e o)
  | 0x31 => some (.leLtw e o)
  | 0x32 => some (.leLew e o)
  | 0x33 => some (.leLdx e o)
  | 0x34 => some (.leJmp e o)
  | 0x35 => some (.leJmpc e o)
  | 0x36 => some (.leJmpcn e o)
  | 0x37 => some (.leCal e o)
  | 0x38 => some (.leCalc e o)
  | 0x39 => some (.leRet e)
  | 0x3A => some (.leSendq e o)
  | 0x3B => some (.leRecvq e o)
  | 0x3F => some (.leEnd e)
  | _ => none

/-- The decoder of engine `e`: reserved opcodes and operands that break the form are refused (R177, R178). -/
def decodeLe (e : Fin 2) (w : Word) : Option Instr :=
  match leByOpc e (leOpnd w) (leOpc w) with
  | some i => (match i.le with | some c => if c.2.2.1.ok (leOpnd w) then some i else none | none => none)
  | none => none

/-- The encoder of the engine instructions. -/
def encodeLe (i : Instr) : Option Word := i.le.map fun c => leWord c.1 c.2.2.2

/-- The command a word spells by the bits of the opcode table: its rows have none. -/
def decodeTableWord (_nbits _w : Nat) : Option Instr := none

end Sys2Proof
end

