-- ==== Sys2Proof/Config.lean ====
section
/-!
DEFINITION. What an implementation fixes and the free values: constants without a body, of which nothing can be proved
but that they are what they are. Each is named in the assumption log.
-/
namespace Sys2Proof.Config

/-- The free value taken where the spec leaves one of several allocations open (a frame of the free list, R135). -/
opaque freePick : Nat → Nat
/-- The free value of a result that the spec leaves unstated: the number of the value taken. -/
opaque freeValue : Nat → BitVec 64
/-- Whether a quotient that the spec does not round is taken upward: dividend and divisor (R303, R309, R310). -/
opaque roundUp : Int → Int → Bool
/-- Whether a boot image verifies against the Taroson key of the identity store (R461): the spec gives neither the key nor the image's form. -/
opaque bootVerify : List Byte → Bool
/-- Whether an access of a pair to memory refills a line of its data cache (R43, R48): the spec gives the caches no replacement rule. -/
opaque refill : Nat → Bool
/-- The payload of a CTRL frame (R217), whose kinds and argument layouts the spec does not give: what it says, and its numbers. -/
opaque ctrlBytes : Nat → List Nat → List Byte
/-- The payload of a SYNC frame (R217, R240), whose layout the spec does not give. -/
opaque syncBytes : List SyncItem → List Byte

end Sys2Proof.Config
end

