-- ==== Sys2Proof/Machine/Bytes.lean ====
section
/-!
DEFINITION. Byte strings: little-endian and big-endian numbers, and the cyclic redundancy checks of the spec.
-/
namespace Sys2Proof.Machine

/-- The number whose little-endian bytes are given. -/
def leNat : List Byte → Nat
  | [] => 0
  | b :: r => b.toNat + 256 * leNat r

/-- The `n` little-endian bytes of a number. -/
def leBytes : Nat → Nat → List Byte
  | 0, _ => []
  | n + 1, v => BitVec.ofNat 8 v :: leBytes n (v / 256)

/-- The number whose big-endian bytes are given. -/
def beNat (l : List Byte) : Nat := leNat l.reverse

/-- The `n` big-endian bytes of a number. -/
def beBytes (n v : Nat) : List Byte := (leBytes n v).reverse

/-- `l` cut or padded with zeros to `n` bytes. -/
def padTo (n : Nat) (l : List Byte) : List Byte := (l.take n) ++ List.replicate (n - l.length) 0

/-- The `n` bytes of `l` from offset `o`, zeros beyond its end. -/
def sliceB (l : List Byte) (o n : Nat) : List Byte := padTo n (l.drop o)

/-- A little-endian field of `n` bytes at offset `o`. -/
def fieldLe (l : List Byte) (o n : Nat) : Nat := leNat (sliceB l o n)

/-- A big-endian field of `n` bytes at offset `o`. -/
def fieldBe (l : List Byte) (o n : Nat) : Nat := beNat (sliceB l o n)

/-- Eight steps of a bit-reflected CRC of the reversed polynomial `p`. -/
def crcRefStep (p : Nat) : Nat → Nat → Nat
  | 0, c => c
  | k + 1, c => crcRefStep p k (if c % 2 = 1 then (c / 2) ^^^ p else c / 2)

/-- A bit-reflected CRC over bytes. -/
def crcRef (p : Nat) : List Byte → Nat → Nat
  | [], c => c
  | b :: r, c => crcRef p r (crcRefStep p 8 (c ^^^ b.toNat))

/-- The transit check CRC-32C (R162). -/
def crc32c (l : List Byte) : Nat := crcRef 0x82F63B78 l 0xFFFFFFFF ^^^ 0xFFFFFFFF

/-- `k` steps of an unreflected CRC of width `w` and polynomial `p`. -/
def crcMsbStep (w p : Nat) : Nat → Nat → Nat
  | 0, c => c
  | k + 1, c => crcMsbStep w p k (if c.testBit (w - 1) then ((c * 2) % 2 ^ w) ^^^ p else (c * 2) % 2 ^ w)

/-- An unreflected CRC of width `w`, polynomial `p`, over bytes, most significant bit first. -/
def crcMsb (w p : Nat) : List Byte → Nat → Nat
  | [], c => c
  | b :: r, c => crcMsb w p r (crcMsbStep w p 8 (c ^^^ (b.toNat <<< (w - 8))))

end Sys2Proof.Machine
end

