-- ==== Sys2Proof/Machine/Tbl.lean ====
section
/-!
DEFINITION. Sparse tables: a list of (key, value) pairs in one canonical form, keys strictly rising and no entry
equal to what an unlisted key reads as. Memory, the register store and every numbered group of the module are kept in it.
-/
namespace Sys2Proof.Machine

/-- A sparse table over natural keys. -/
abbrev Tbl (α : Type) := List (Nat × α)

/-- The value at key `k`; `d k` where nothing is listed. -/
def tget {α : Type} (d : Nat → α) : Tbl α → Nat → α
  | [], k => d k
  | (a, v) :: t, k => if a = k then v else tget d t k

/-- The table without key `k`. -/
def terase {α : Type} : Tbl α → Nat → Tbl α
  | [], _ => []
  | (a, v) :: t, k => if a = k then terase t k else (a, v) :: terase t k

/-- `(k, v)` put before the first larger key. -/
def tinsert {α : Type} : Tbl α → Nat → α → Tbl α
  | [], k, v => [(k, v)]
  | (a, w) :: t, k, v => if k < a then (k, v) :: (a, w) :: t else (a, w) :: tinsert t k v

/-- The table after key `k` takes `v`; a value equal to what an unlisted key reads as is not listed. -/
def tput {α : Type} [DecidableEq α] (d : Nat → α) (t : Tbl α) (k : Nat) (v : α) : Tbl α :=
  if v = d k then terase t k else tinsert (terase t k) k v

/-- The keys rise strictly, each above `lo`. -/
def tsorted {α : Type} : Option Nat → Tbl α → Bool
  | _, [] => true
  | none, (a, _) :: t => tsorted (some a) t
  | some lo, (a, _) :: t => decide (lo < a) && tsorted (some a) t

/-- No entry equals what an unlisted key reads as. -/
def tnodef {α : Type} [DecidableEq α] (d : Nat → α) : Tbl α → Bool
  | [] => true
  | (a, v) :: t => decide (v ≠ d a) && tnodef d t

/-- The canonical form. -/
def twf {α : Type} [DecidableEq α] (d : Nat → α) (t : Tbl α) : Bool := tsorted none t && tnodef d t

/-- The keys listed. -/
def tkeys {α : Type} (t : Tbl α) : List Nat := t.map (fun c => c.1)

/-- Several keys put in order. -/
def tputs {α : Type} [DecidableEq α] (d : Nat → α) (t : Tbl α) : List (Nat × α) → Tbl α
  | [] => t
  | (k, v) :: r => tputs d (tput d t k v) r

/-- A list of values put at consecutive keys from `k` on. -/
def tputList {α : Type} [DecidableEq α] (d : Nat → α) (t : Tbl α) (k : Nat) : List α → Tbl α
  | [] => t
  | v :: r => tputList d (tput d t k v) (k + 1) r

/-- The `n` values at consecutive keys from `k` on. -/
def tgetList {α : Type} (d : Nat → α) (t : Tbl α) (k : Nat) : Nat → List α
  | 0 => []
  | n + 1 => tget d t k :: tgetList d t (k + 1) n

end Sys2Proof.Machine
end

