-- ==== Sys2Proof/Machine/Regs.lean ====
section
/-!
DEFINITION. The module registers as the spec's register tables give them: where each field stands (`F.<REGISTER>_<FIELD>`),
and the catalogue of every register with its reset value and the access code of each field (R13).
Offsets count from 0x00_4000_0000 (R12).
-/
namespace Sys2Proof.Machine

/-- A field of a register: the register's offset, the field's lowest bit and its width. -/
structure Field where
  off : Nat
  lo : Nat
  w : Nat
  deriving DecidableEq, Repr

/-- The register access codes of R13. -/
inductive Access where
  | ro
  | rw
  | w1c
  | wo
  | cfg
  deriving DecidableEq, Repr

/-- A field of a register table. -/
structure FieldRow where
  lo : Nat
  w : Nat
  acc : Access
  deriving DecidableEq, Repr

/-- A register of a register table; `dims` gives stride and count of each index of the offset formula. -/
structure RegRow where
  base : Nat
  dims : List (Nat × Nat)
  reset : Nat
  fields : List FieldRow
  deriving DecidableEq, Repr

namespace F

def SYS_ID_PART : Field := ⟨0x0, 16, 16⟩
def SYS_ID_HW_MAJOR : Field := ⟨0x0, 8, 8⟩
def SYS_ID_HW_MINOR : Field := ⟨0x0, 0, 8⟩
def SYS_CAP0_SIO : Field := ⟨0x10, 19, 1⟩
def SYS_CAP0_LRB : Field := ⟨0x10, 18, 1⟩
def SYS_CAP0_ETH_E23 : Field := ⟨0x10, 17, 1⟩
def SYS_CAP0_ETH_E01 : Field := ⟨0x10, 16, 1⟩
def SYS_CAP0_CAN_MAP : Field := ⟨0x10, 10, 6⟩
def SYS_CAP0_IXS : Field := ⟨0x10, 9, 1⟩
def SYS_CAP0_GHC_B : Field := ⟨0x10, 8, 1⟩
def SYS_CAP0_GHC_A : Field := ⟨0x10, 7, 1⟩
def SYS_CAP0_TVL : Field := ⟨0x10, 6, 1⟩
def SYS_CAP0_LE1 : Field := ⟨0x10, 5, 1⟩
def SYS_CAP0_LE0 : Field := ⟨0x10, 4, 1⟩
def SYS_CAP0_PAIR_MAP : Field := ⟨0x10, 0, 4⟩
def SYS_CAP1_DDR_GIB : Field := ⟨0x14, 16, 8⟩
def SYS_CAP1_SRAM_MIB : Field := ⟨0x14, 8, 8⟩
def SYS_CAP1_PSTORE : Field := ⟨0x14, 4, 4⟩
def SYS_CAP1_COATED : Field := ⟨0x14, 0, 1⟩
def VDX_DIAG_CLR : Field := ⟨0x10000, 31, 1⟩
def VDX_DIAG_REFUSED : Field := ⟨0x10000, 0, 16⟩
def VDX_THR_THR (n : Nat) : Field := ⟨0x10100 + n * 0x20, 0, 4⟩
def VDX_ACT_LEVELS (n : Nat) : Field := ⟨0x10104 + n * 0x20, 16, 16⟩
def VDX_ACT_RUN (n : Nat) : Field := ⟨0x10104 + n * 0x20, 12, 4⟩
def VDX_ACT_TOP_VALID (n : Nat) : Field := ⟨0x10104 + n * 0x20, 9, 1⟩
def VDX_ACT_TOP_SRC (n : Nat) : Field := ⟨0x10104 + n * 0x20, 0, 9⟩
def VDX_COMPLETE_SRC (n : Nat) : Field := ⟨0x10108 + n * 0x20, 0, 9⟩
def VDX_STRAY_CLR (n : Nat) : Field := ⟨0x1010C + n * 0x20, 31, 1⟩
def VDX_STRAY_COUNT (n : Nat) : Field := ⟨0x1010C + n * 0x20, 16, 15⟩
def VDX_STRAY_LAST_SRC (n : Nat) : Field := ⟨0x1010C + n * 0x20, 0, 9⟩
def VDX_SWTRIG_SRC : Field := ⟨0x10200, 0, 5⟩
def VDX_MASK_MASK (n : Nat) : Field := ⟨0x10400 + n * 0x4, 0, 32⟩
def VDX_PEND_W (n : Nat) : Field := ⟨0x10800 + n * 0x4, 0, 32⟩
def VDX_ACTIVE_W (n : Nat) : Field := ⟨0x10840 + n * 0x4, 0, 32⟩
def VDX_SRCCFG_FCNT (s : Nat) : Field := ⟨0x11000 + s * 0x4, 24, 8⟩
def VDX_SRCCFG_FCLK (s : Nat) : Field := ⟨0x11000 + s * 0x4, 22, 2⟩
def VDX_SRCCFG_MODE (s : Nat) : Field := ⟨0x11000 + s * 0x4, 20, 2⟩
def VDX_SRCCFG_POL (s : Nat) : Field := ⟨0x11000 + s * 0x4, 19, 1⟩
def VDX_SRCCFG_PAIR (s : Nat) : Field := ⟨0x11000 + s * 0x4, 8, 2⟩
def VDX_SRCCFG_PRIO (s : Nat) : Field := ⟨0x11000 + s * 0x4, 0, 4⟩
def VDX_SRCSTAT_CNT_CLR (s : Nat) : Field := ⟨0x12000 + s * 0x4, 31, 1⟩
def VDX_SRCSTAT_COUNT (s : Nat) : Field := ⟨0x12000 + s * 0x4, 8, 8⟩
def VDX_SRCSTAT_APAIR (s : Nat) : Field := ⟨0x12000 + s * 0x4, 4, 2⟩
def VDX_SRCSTAT_WITHDRAWN (s : Nat) : Field := ⟨0x12000 + s * 0x4, 3, 1⟩
def VDX_SRCSTAT_ACTIVE (s : Nat) : Field := ⟨0x12000 + s * 0x4, 2, 1⟩
def VDX_SRCSTAT_PENDING (s : Nat) : Field := ⟨0x12000 + s * 0x4, 1, 1⟩
def VDX_SRCSTAT_LINE (s : Nat) : Field := ⟨0x12000 + s * 0x4, 0, 1⟩
def VDX_SRCSTAMP_W (s : Nat) (w : Nat) : Field := ⟨0x14000 + s * 0x8 + w * 0x4, 0, 32⟩
def HX_STAT_SWITCH_PEND : Field := ⟨0x20000, 8, 1⟩
def HX_STAT_IMG_SET : Field := ⟨0x20000, 3, 1⟩
def HX_STAT_DISPATCH : Field := ⟨0x20000, 2, 1⟩
def HX_SCHEDID_W : Field := ⟨0x20004, 0, 32⟩
def HX_FRAME_W : Field := ⟨0x20008, 0, 32⟩
def HX_EVT_EVT : Field := ⟨0x20010, 0, 12⟩
def HX_UNIT_STATE (u : Nat) : Field := ⟨0x20100 + u * 0x10, 29, 3⟩
def HX_UNIT_HELD_BANK (u : Nat) : Field := ⟨0x20100 + u * 0x10, 27, 2⟩
def HX_UNIT_HELD_VALID (u : Nat) : Field := ⟨0x20100 + u * 0x10, 26, 1⟩
def HX_UNIT_CUR_TASK (u : Nat) : Field := ⟨0x20100 + u * 0x10, 12, 10⟩
def HX_UNIT_CUR_WIN (u : Nat) : Field := ⟨0x20100 + u * 0x10, 0, 12⟩
def HX_IDLE_ADDR (n : Nat) : Field := ⟨0x20104 + n * 0x10, 2, 30⟩
def HX_PAIRCMD_BANK_REL (n : Nat) : Field := ⟨0x20108 + n * 0x10, 1, 1⟩
def HX_PAIRCMD_ABORT (n : Nat) : Field := ⟨0x20108 + n * 0x10, 0, 1⟩
def HX_PWRPOL_NO_SLEEP (n : Nat) : Field := ⟨0x2010C + n * 0x10, 31, 1⟩
def HX_PWRPOL_PLL_GAP (n : Nat) : Field := ⟨0x2010C + n * 0x10, 0, 24⟩
def HX_TASKSTAT0_OVERRUNS (t : Nat) : Field := ⟨0x21000 + t * 0x10, 16, 16⟩
def HX_TASKSTAT0_ABANDONS (t : Nat) : Field := ⟨0x21000 + t * 0x10, 0, 16⟩
def HX_TASKSTAT1_STAGE_MISS (t : Nat) : Field := ⟨0x21004 + t * 0x10, 16, 16⟩
def HX_TASKSTAT1_ABORTS (t : Nat) : Field := ⟨0x21004 + t * 0x10, 0, 16⟩
def HX_TASKSTAT2_MAX_EXEC (t : Nat) : Field := ⟨0x21008 + t * 0x10, 0, 32⟩
def HX_TASKSTAT3_CLR (t : Nat) : Field := ⟨0x2100C + t * 0x10, 31, 1⟩
def HX_TASKSTAT3_CONT (t : Nat) : Field := ⟨0x2100C + t * 0x10, 4, 2⟩
def HX_TASKSTAT3_STATE (t : Nat) : Field := ⟨0x2100C + t * 0x10, 0, 3⟩
def HX_PARTSTAT_STOPPED (p : Nat) : Field := ⟨0x26000 + p * 0x4, 31, 1⟩
def HX_PARTSTAT_FAULTS (p : Nat) : Field := ⟨0x26000 + p * 0x4, 0, 8⟩
def HXM_LAYOUT_MACH_DDR : Field := ⟨0x30000, 24, 8⟩
def HXM_LAYOUT_MACH_PAGES : Field := ⟨0x30000, 0, 13⟩
def HXM_POOL_RETIRED : Field := ⟨0x30004, 26, 6⟩
def HXM_POOL_FREE : Field := ⟨0x30004, 13, 13⟩
def HXM_POOL_SIZE : Field := ⟨0x30004, 0, 13⟩
def HXM_LOOKAHEAD_LOOKAHEAD : Field := ⟨0x30008, 0, 14⟩
def HXM_EVT_EVT : Field := ⟨0x3000C, 0, 6⟩
def HXM_SCRUB_PSTORE_MIN : Field := ⟨0x30010, 24, 8⟩
def HXM_SCRUB_EMRAM_S : Field := ⟨0x30010, 16, 8⟩
def HXM_SCRUB_DDR_S : Field := ⟨0x30010, 8, 8⟩
def HXM_SCRUB_SRAM_S : Field := ⟨0x30010, 0, 8⟩
def HXM_MEMERR_CLR : Field := ⟨0x30014, 31, 1⟩
def HXM_MEMERR_CORR : Field := ⟨0x30014, 16, 15⟩
def HXM_MEMERR_UNCORR : Field := ⟨0x30014, 8, 8⟩
def HXM_MEMERR_LAST_MEM : Field := ⟨0x30014, 0, 3⟩
def HXM_ERRADDR_W (w : Nat) : Field := ⟨0x30018 + w * 0x4, 0, 32⟩
def HXM_FAULTINFO_CAUSE (n : Nat) : Field := ⟨0x30040 + n * 0x4, 28, 4⟩
def HXM_FAULTINFO_TASK (n : Nat) : Field := ⟨0x30040 + n * 0x4, 0, 10⟩
def HXM_PART_SRAM_CLR (p : Nat) : Field := ⟨0x31000 + p * 0x8, 31, 1⟩
def HXM_PART_SRAM_PEAK (p : Nat) : Field := ⟨0x31000 + p * 0x8, 16, 14⟩
def HXM_PART_SRAM_HELD (p : Nat) : Field := ⟨0x31000 + p * 0x8, 0, 14⟩
def HXM_PART_DDR_RESERVED (p : Nat) : Field := ⟨0x31004 + p * 0x8, 0, 21⟩
def HXQ_CFG_EN (q : Nat) : Field := ⟨0x38000 + q * 0x100, 31, 1⟩
def HXQ_CFG_ESIZE_LOG2 (q : Nat) : Field := ⟨0x38000 + q * 0x100, 27, 4⟩
def HXQ_CFG_DEPTH_LOG2 (q : Nat) : Field := ⟨0x38000 + q * 0x100, 23, 4⟩
def HXQ_CFG_CONS (q : Nat) : Field := ⟨0x38000 + q * 0x100, 9, 9⟩
def HXQ_CFG_PROD (q : Nat) : Field := ⟨0x38000 + q * 0x100, 0, 9⟩
def HXQ_BASE_PAGE (q : Nat) : Field := ⟨0x38004 + q * 0x100, 0, 10⟩
def HXQ_WM_HIGH (q : Nat) : Field := ⟨0x38008 + q * 0x100, 16, 13⟩
def HXQ_WM_LOW (q : Nat) : Field := ⟨0x38008 + q * 0x100, 0, 13⟩
def HXQ_STAT_CREDITS (q : Nat) : Field := ⟨0x3800C + q * 0x100, 16, 13⟩
def HXQ_STAT_LEVEL (q : Nat) : Field := ⟨0x3800C + q * 0x100, 0, 13⟩
def HXQ_IDX_TAIL (q : Nat) : Field := ⟨0x38010 + q * 0x100, 16, 12⟩
def HXQ_IDX_HEAD (q : Nat) : Field := ⟨0x38010 + q * 0x100, 0, 12⟩
def HXQ_CTRL_RELEASE (q : Nat) : Field := ⟨0x38014 + q * 0x100, 31, 1⟩
def HXQ_CTRL_COMMIT (q : Nat) : Field := ⟨0x38014 + q * 0x100, 30, 1⟩
def HXQ_CTRL_LEN (q : Nat) : Field := ⟨0x38014 + q * 0x100, 0, 13⟩
def HXQ_EVT_CNT_CLR (q : Nat) : Field := ⟨0x38018 + q * 0x100, 31, 1⟩
def HXQ_EVT_CROSS_HI (q : Nat) : Field := ⟨0x38018 + q * 0x100, 16, 8⟩
def HXQ_EVT_CROSS_LO (q : Nat) : Field := ⟨0x38018 + q * 0x100, 8, 8⟩
def HXQ_EVT_BELOW_LO (q : Nat) : Field := ⟨0x38018 + q * 0x100, 4, 1⟩
def HXQ_EVT_ABOVE_HI (q : Nat) : Field := ⟨0x38018 + q * 0x100, 3, 1⟩
def HXQ_EVT_PERR (q : Nat) : Field := ⟨0x38018 + q * 0x100, 2, 1⟩
def HXQ_EVT_LO_EVT (q : Nat) : Field := ⟨0x38018 + q * 0x100, 1, 1⟩
def HXQ_EVT_HI_EVT (q : Nat) : Field := ⟨0x38018 + q * 0x100, 0, 1⟩
def HXQ_CNT_DISCARDS (q : Nat) : Field := ⟨0x3801C + q * 0x100, 16, 16⟩
def HXQ_CNT_REFUSED (q : Nat) : Field := ⟨0x3801C + q * 0x100, 8, 8⟩
def HXQ_CNT_RESETS (q : Nat) : Field := ⟨0x3801C + q * 0x100, 4, 4⟩
def HXQ_CNT_STRAY (q : Nat) : Field := ⟨0x3801C + q * 0x100, 0, 4⟩
def LE_STAT_STATE (e : Nat) : Field := ⟨0x40000 + e * 0x8000, 29, 3⟩
def LE_STAT_TASK (e : Nat) : Field := ⟨0x40000 + e * 0x8000, 17, 10⟩
def LE_STAT_CALL_DEPTH (e : Nat) : Field := ⟨0x40000 + e * 0x8000, 8, 4⟩
def LE_STAT_BS_DEPTH (e : Nat) : Field := ⟨0x40000 + e * 0x8000, 3, 5⟩
def LE_STAT_LA (e : Nat) : Field := ⟨0x40000 + e * 0x8000, 0, 1⟩
def LE_BANK_SWITCH_PEND (e : Nat) : Field := ⟨0x40004 + e * 0x8000, 31, 1⟩
def LE_BANK_B1_STATE (e : Nat) : Field := ⟨0x40004 + e * 0x8000, 4, 2⟩
def LE_BANK_B0_STATE (e : Nat) : Field := ⟨0x40004 + e * 0x8000, 2, 2⟩
def LE_BANK_ACTIVE (e : Nat) : Field := ⟨0x40004 + e * 0x8000, 0, 1⟩
def LE_EVT_EVT (e : Nat) : Field := ⟨0x40010 + e * 0x8000, 0, 6⟩
def LE_FLAGS_DIVZ (e : Nat) : Field := ⟨0x40014 + e * 0x8000, 1, 1⟩
def LE_FLAGS_SAT (e : Nat) : Field := ⟨0x40014 + e * 0x8000, 0, 1⟩
def LE_TRAP_CODE (e : Nat) : Field := ⟨0x40020 + e * 0x8000, 28, 4⟩
def LE_TRAP_TASK (e : Nat) : Field := ⟨0x40020 + e * 0x8000, 16, 10⟩
def LE_TRAP_COUNT (e : Nat) : Field := ⟨0x40020 + e * 0x8000, 8, 8⟩
def LE_TRAP_CLR (e : Nat) : Field := ⟨0x40020 + e * 0x8000, 0, 1⟩
def LE_TRAPPC_BANK (e : Nat) : Field := ⟨0x40024 + e * 0x8000, 18, 1⟩
def LE_TRAPPC_WADDR (e : Nat) : Field := ⟨0x40024 + e * 0x8000, 0, 18⟩
def LE_CMPST_PASS_COUNT (e : Nat) : Field := ⟨0x40030 + e * 0x8000, 16, 16⟩
def LE_CMPST_DUE (e : Nat) : Field := ⟨0x40030 + e * 0x8000, 1, 1⟩
def LE_CMPST_DAWN_OK (e : Nat) : Field := ⟨0x40030 + e * 0x8000, 0, 1⟩
def LE_BANKID_W (e : Nat) (b : Nat) : Field := ⟨0x40008 + e * 0x8000 + b * 0x4, 0, 32⟩
def LE_SCAN_W (e : Nat) : Field := ⟨0x40018 + e * 0x8000, 0, 32⟩
def LE_TRAPWORD_W (e : Nat) : Field := ⟨0x40028 + e * 0x8000, 0, 32⟩
def LE_IMAP_EN (e : Nat) (g : Nat) : Field := ⟨0x40040 + e * 0x8000 + g * 0x8, 31, 1⟩
def LE_IMAP_DST (e : Nat) (g : Nat) : Field := ⟨0x40040 + e * 0x8000 + g * 0x8, 17, 9⟩
def LE_IMAP_LEN (e : Nat) (g : Nat) : Field := ⟨0x40040 + e * 0x8000 + g * 0x8, 8, 9⟩
def LE_IMAP_SRC (e : Nat) (g : Nat) : Field := ⟨0x40040 + e * 0x8000 + g * 0x8, 0, 8⟩
def LE_OMAP_EN (e : Nat) (g : Nat) : Field := ⟨0x40044 + e * 0x8000 + g * 0x8, 31, 1⟩
def LE_OMAP_BASE (e : Nat) (g : Nat) : Field := ⟨0x40044 + e * 0x8000 + g * 0x8, 17, 9⟩
def LE_OMAP_LEN (e : Nat) (g : Nat) : Field := ⟨0x40044 + e * 0x8000 + g * 0x8, 8, 9⟩
def LE_OMAP_SRC (e : Nat) (g : Nat) : Field := ⟨0x40044 + e * 0x8000 + g * 0x8, 0, 8⟩
def TVL_STAT_MSTATE : Field := ⟨0x50000, 29, 3⟩
def TVL_STAT_MEMBERS : Field := ⟨0x50000, 26, 3⟩
def TVL_STAT_DONOR : Field := ⟨0x50000, 24, 2⟩
def TVL_STAT_LINK_UP : Field := ⟨0x50000, 18, 2⟩
def TVL_STAT_POS : Field := ⟨0x50000, 16, 2⟩
def TVL_STAT_HELD : Field := ⟨0x50000, 0, 16⟩
def TVL_CFG_AUTO_REINT : Field := ⟨0x50004, 31, 1⟩
def TVL_CFG_COMPARE_LIMIT : Field := ⟨0x50004, 24, 4⟩
def TVL_CFG_VCU : Field := ⟨0x50004, 0, 2⟩
def TVL_MFC_W : Field := ⟨0x50008, 0, 32⟩
def TVL_EVT_EVT : Field := ⟨0x5000C, 0, 15⟩
def TVL_AGRCNT_CLR : Field := ⟨0x50010, 31, 1⟩
def TVL_AGRCNT_ABSTAIN : Field := ⟨0x50010, 16, 15⟩
def TVL_AGRCNT_UNAGREED : Field := ⟨0x50010, 8, 8⟩
def TVL_AGRCNT_NOMAJ_IN : Field := ⟨0x50010, 0, 8⟩
def TVL_VOTECNT_CLR : Field := ⟨0x50014, 31, 1⟩
def TVL_VOTECNT_DISSENT : Field := ⟨0x50014, 16, 15⟩
def TVL_VOTECNT_NOMAJ : Field := ⟨0x50014, 8, 8⟩
def TVL_VOTECNT_CMP_MISMATCH : Field := ⟨0x50014, 0, 8⟩
def TVL_LINKSTAT_UP (p : Nat) : Field := ⟨0x50020 + p * 0x8, 31, 1⟩
def TVL_LINKSTAT_POS_ERR (p : Nat) : Field := ⟨0x50020 + p * 0x8, 30, 1⟩
def TVL_LINKSTAT_PEER_POS (p : Nat) : Field := ⟨0x50020 + p * 0x8, 28, 2⟩
def TVL_LINKSTAT_LATENCY (p : Nat) : Field := ⟨0x50020 + p * 0x8, 0, 8⟩
def TVL_LINKCNT_CLR (p : Nat) : Field := ⟨0x50024 + p * 0x8, 31, 1⟩
def TVL_LINKCNT_CRC_ERR (p : Nat) : Field := ⟨0x50024 + p * 0x8, 16, 15⟩
def TVL_LINKCNT_VIOLATION (p : Nat) : Field := ⟨0x50024 + p * 0x8, 8, 8⟩
def TVL_LINKCNT_DOWN (p : Nat) : Field := ⟨0x50024 + p * 0x8, 0, 8⟩
def TVL_OGRP_EN (k : Nat) : Field := ⟨0x50100 + k * 0x10, 31, 1⟩
def TVL_OGRP_SAFETY (k : Nat) : Field := ⟨0x50100 + k * 0x10, 30, 1⟩
def TVL_OGRP_CGRP (k : Nat) : Field := ⟨0x50100 + k * 0x10, 28, 2⟩
def TVL_OGRP_PREF (k : Nat) : Field := ⟨0x50100 + k * 0x10, 26, 2⟩
def TVL_OGRP_OFS8 (k : Nat) : Field := ⟨0x50100 + k * 0x10, 15, 11⟩
def TVL_OGRP_LEN8 (k : Nat) : Field := ⟨0x50100 + k * 0x10, 3, 12⟩
def TVL_LTIME_GUARD (k : Nat) : Field := ⟨0x50104 + k * 0x10, 28, 4⟩
def TVL_LTIME_TL_MT (k : Nat) : Field := ⟨0x50104 + k * 0x10, 0, 22⟩
def TVL_LSTAT_HOLDER (k : Nat) : Field := ⟨0x50108 + k * 0x10, 30, 2⟩
def TVL_LSTAT_RELEASED (k : Nat) : Field := ⟨0x50108 + k * 0x10, 29, 1⟩
def TVL_LSTAT_GUARDIAN (k : Nat) : Field := ⟨0x50108 + k * 0x10, 28, 1⟩
def TVL_LSTAT_REMAIN (k : Nat) : Field := ⟨0x50108 + k * 0x10, 0, 20⟩
def GHC_STAT_PSTATE : Field := ⟨0x60000, 29, 3⟩
def GHC_STAT_MODE : Field := ⟨0x60000, 26, 3⟩
def GHC_STAT_MODE_PEND : Field := ⟨0x60000, 25, 1⟩
def GHC_STAT_MODE_NEXT : Field := ⟨0x60000, 22, 3⟩
def GHC_STAT_CH : Field := ⟨0x60000, 20, 2⟩
def GHC_STAT_NSYNC : Field := ⟨0x60000, 16, 4⟩
def GHC_STAT_CCOUNT : Field := ⟨0x60000, 8, 8⟩
def GHC_SYNC_OFS : Field := ⟨0x60004, 16, 16⟩
def GHC_SYNC_RATE : Field := ⟨0x60004, 0, 16⟩
def GHC_PREC_CLR : Field := ⟨0x60008, 31, 1⟩
def GHC_PREC_MAX : Field := ⟨0x60008, 16, 15⟩
def GHC_PREC_LAST : Field := ⟨0x60008, 0, 16⟩
def GHC_EVT_EVT : Field := ⟨0x6000C, 0, 20⟩
def GHC_CS_LEADER : Field := ⟨0x60010, 16, 10⟩
def GHC_CS_ATTEMPTS : Field := ⟨0x60010, 8, 5⟩
def GHC_CS_EXHAUSTED : Field := ⟨0x60010, 0, 1⟩
def GHC_CNTCLR_GRD : Field := ⟨0x60014, 1, 1⟩
def GHC_CNTCLR_GHC : Field := ⟨0x60014, 0, 1⟩
def GHC_BUFSEL_VALID : Field := ⟨0x60100, 31, 1⟩
def GHC_BUFSEL_SLOT_ID : Field := ⟨0x60100, 0, 10⟩
def GHC_RXCNT_HI (c : Nat) (i : Nat) : Field := ⟨0x60040 + c * 0x40 + i * 0x4, 16, 16⟩
def GHC_RXCNT_LO (c : Nat) (i : Nat) : Field := ⟨0x60040 + c * 0x40 + i * 0x4, 0, 16⟩
def GHC_TXCNT_HI (i : Nat) : Field := ⟨0x600C0 + i * 0x4, 16, 16⟩
def GHC_TXCNT_LO (i : Nat) : Field := ⟨0x600C0 + i * 0x4, 0, 16⟩
def GHC_BUFDATA_W (w : Nat) : Field := ⟨0x60200 + w * 0x4, 0, 32⟩
def GHC_SLOTSTAT_PRES (id : Nat) : Field := ⟨0x61000 + id * 0x4, 30, 2⟩
def GHC_SLOTSTAT_REJOIN_CNT (id : Nat) : Field := ⟨0x61000 + id * 0x4, 26, 4⟩
def GHC_SLOTSTAT_MISS_CNT (id : Nat) : Field := ⟨0x61000 + id * 0x4, 10, 16⟩
def GHC_SLOTSTAT_LAST_CH (id : Nat) : Field := ⟨0x61000 + id * 0x4, 8, 1⟩
def GHC_SLOTSTAT_LAST_CC (id : Nat) : Field := ⟨0x61000 + id * 0x4, 0, 8⟩
def GRD_STAT_ANCHORED : Field := ⟨0x60400, 31, 1⟩
def GRD_STAT_FAULT_OFF : Field := ⟨0x60400, 30, 1⟩
def GRD_STAT_EN : Field := ⟨0x60400, 28, 2⟩
def GRD_STAT_LEASE : Field := ⟨0x60400, 0, 16⟩
def GRD_CNT_BLOCK : Field := ⟨0x60404, 16, 16⟩
def GRD_CNT_CUT : Field := ⟨0x60404, 8, 8⟩
def GRD_CNT_CYCLE_ERR : Field := ⟨0x60404, 0, 8⟩
def GRD_LREM_REMAIN (k : Nat) : Field := ⟨0x60440 + k * 0x4, 0, 20⟩
def TMB_STAT_ACTIVE : Field := ⟨0x70000, 29, 3⟩
def TMB_STAT_TSET : Field := ⟨0x70000, 28, 1⟩
def TMB_STAT_TRACK : Field := ⟨0x70000, 27, 1⟩
def TMB_STAT_HOLDOVER : Field := ⟨0x70000, 26, 1⟩
def TMB_STAT_SLEWING : Field := ⟨0x70000, 25, 1⟩
def TMB_STAT_ACT_IDX : Field := ⟨0x70000, 0, 2⟩
def TMB_CFG_AUTO_SET : Field := ⟨0x70004, 31, 1⟩
def TMB_CFG_FILT : Field := ⟨0x70004, 16, 8⟩
def TMB_CFG_SLEW_PPM : Field := ⟨0x70004, 0, 10⟩
def TMB_SRC_SRC2 : Field := ⟨0x70008, 8, 4⟩
def TMB_SRC_SRC1 : Field := ⟨0x70008, 4, 4⟩
def TMB_SRC_SRC0 : Field := ⟨0x70008, 0, 4⟩
def TMB_EVT_EVT : Field := ⟨0x7000C, 0, 8⟩
def TMB_UTC_LEAP61 : Field := ⟨0x70020, 17, 1⟩
def TMB_UTC_LEAP59 : Field := ⟨0x70020, 16, 1⟩
def TMB_UTC_UTC_OFS : Field := ⟨0x70020, 0, 16⟩
def TMB_ADJ_ERR : Field := ⟨0x70024, 0, 32⟩
def TMB_GTIME_TX_ID : Field := ⟨0x70028, 20, 10⟩
def TMB_GTIME_ID_A : Field := ⟨0x70028, 10, 10⟩
def TMB_GTIME_ID_B : Field := ⟨0x70028, 0, 10⟩
def TMB_LAUNCH_LATE_MAX : Field := ⟨0x7002C, 0, 16⟩
def TMB_CNT_CLR : Field := ⟨0x70030, 31, 1⟩
def TMB_CNT_TFRAME_REJ : Field := ⟨0x70030, 16, 15⟩
def TMB_CNT_LAUNCH_LATE : Field := ⟨0x70030, 8, 8⟩
def TMB_CNT_LAUNCH_FAR : Field := ⟨0x70030, 0, 8⟩
def TMB_FREQ_W : Field := ⟨0x70010, 0, 32⟩
def TMB_SLEW_W : Field := ⟨0x70014, 0, 32⟩
def TMB_PEND_W : Field := ⟨0x70018, 0, 32⟩
def TMB_LASTERR_W : Field := ⟨0x7001C, 0, 32⟩
def TMB_CAP_W (n : Nat) (w : Nat) : Field := ⟨0x70100 + n * 0x20 + w * 0x4, 0, 32⟩
def ETH_EVT_EVT : Field := ⟨0x80000, 0, 13⟩
def ETH_TOPO_ETB_W : Field := ⟨0x80004, 0, 32⟩
def ETH_TOPO_OPT_W : Field := ⟨0x80008, 0, 32⟩
def ETH_CMDPORT_PORT : Field := ⟨0x8000C, 0, 16⟩
def ETH_PTP_CFG_MODE : Field := ⟨0x80010, 30, 2⟩
def ETH_PTP_CFG_TWO_STEP : Field := ⟨0x80010, 29, 1⟩
def ETH_PTP_CFG_UDP : Field := ⟨0x80010, 28, 1⟩
def ETH_PTP_CFG_SLAVE_ONLY : Field := ⟨0x80010, 27, 1⟩
def ETH_PTP_CFG_DOMAIN : Field := ⟨0x80010, 16, 8⟩
def ETH_PTP_CFG_LOG_SYNC : Field := ⟨0x80010, 12, 4⟩
def ETH_PTP_CFG_LOG_ANN : Field := ⟨0x80010, 8, 4⟩
def ETH_PTP_CFG_PRIO1 : Field := ⟨0x80010, 0, 8⟩
def ETH_PTP_STAT_STATE_E0 : Field := ⟨0x80014, 28, 4⟩
def ETH_PTP_STAT_STATE_E1 : Field := ⟨0x80014, 24, 4⟩
def ETH_PTP_STAT_VIOL : Field := ⟨0x80014, 0, 16⟩
def ETH_PTP_MPD_W : Field := ⟨0x80018, 0, 32⟩
def ETH_CNTCLR_ALL : Field := ⟨0x8001C, 0, 1⟩
def ETH_RULE_EN (r : Nat) : Field := ⟨0x80040 + r * 0x4, 31, 1⟩
def ETH_RULE_PORTS (r : Nat) : Field := ⟨0x80040 + r * 0x4, 27, 4⟩
def ETH_RULE_UDP (r : Nat) : Field := ⟨0x80040 + r * 0x4, 26, 1⟩
def ETH_RULE_QUEUE (r : Nat) : Field := ⟨0x80040 + r * 0x4, 16, 6⟩
def ETH_RULE_VALUE (r : Nat) : Field := ⟨0x80040 + r * 0x4, 0, 16⟩
def ETH_PORT_CFG_EN (n : Nat) : Field := ⟨0x80100 + n * 0x80, 31, 1⟩
def ETH_PORT_CFG_PREFIX (n : Nat) : Field := ⟨0x80100 + n * 0x80, 24, 5⟩
def ETH_PORT_CFG_VID (n : Nat) : Field := ⟨0x80100 + n * 0x80, 0, 12⟩
def ETH_PORT_STAT_LINK (n : Nat) : Field := ⟨0x80104 + n * 0x80, 31, 1⟩
def ETH_PORT_STAT_DOWNS (n : Nat) : Field := ⟨0x80104 + n * 0x80, 0, 8⟩
def ETH_IP_W (n : Nat) : Field := ⟨0x80108 + n * 0x80, 0, 32⟩
def ETH_TXQ_Q3 (n : Nat) : Field := ⟨0x80110 + n * 0x80, 24, 8⟩
def ETH_TXQ_Q2 (n : Nat) : Field := ⟨0x80110 + n * 0x80, 16, 8⟩
def ETH_TXQ_Q1 (n : Nat) : Field := ⟨0x80110 + n * 0x80, 8, 8⟩
def ETH_TXQ_Q0 (n : Nat) : Field := ⟨0x80110 + n * 0x80, 0, 8⟩
def ETH_RXCNT_HI (n : Nat) (i : Nat) : Field := ⟨0x80120 + n * 0x80 + i * 0x4, 16, 16⟩
def ETH_RXCNT_LO (n : Nat) (i : Nat) : Field := ⟨0x80120 + n * 0x80 + i * 0x4, 0, 16⟩
def ETH_TXCNT_HI (n : Nat) (i : Nat) : Field := ⟨0x80150 + n * 0x80 + i * 0x4, 16, 16⟩
def ETH_TXCNT_LO (n : Nat) (i : Nat) : Field := ⟨0x80150 + n * 0x80 + i * 0x4, 0, 16⟩
def ETH_PDSTAT_PRES (t : Nat) : Field := ⟨0x81000 + t * 0x4, 30, 2⟩
def ETH_PDSTAT_REJOIN_CNT (t : Nat) : Field := ⟨0x81000 + t * 0x4, 26, 4⟩
def ETH_PDSTAT_MISS_CNT (t : Nat) : Field := ⟨0x81000 + t * 0x4, 10, 16⟩
def ETH_PDSTAT_LAST_PORT (t : Nat) : Field := ⟨0x81000 + t * 0x4, 8, 2⟩
def ETH_PDSTAT_REJ (t : Nat) : Field := ⟨0x81000 + t * 0x4, 0, 8⟩
def IXS_STAT_NFAIL : Field := ⟨0x90000, 16, 9⟩
def IXS_STAT_NVALID : Field := ⟨0x90000, 0, 9⟩
def IXS_EVT_EVT : Field := ⟨0x90004, 0, 10⟩
def IXS_CNTCLR_ALL : Field := ⟨0x90008, 0, 1⟩
def IXS_ACK_CONN : Field := ⟨0x9000C, 0, 9⟩
def IXS_CSTAT_STATE (c : Nat) : Field := ⟨0x90100 + c * 0x10, 30, 2⟩
def IXS_CSTAT_CAUSE (c : Nat) : Field := ⟨0x90100 + c * 0x10, 27, 3⟩
def IXS_CSTAT_ACK_PEND (c : Nat) : Field := ⟨0x90100 + c * 0x10, 26, 1⟩
def IXS_CSTAT_REJOIN_CNT (c : Nat) : Field := ⟨0x90100 + c * 0x10, 22, 4⟩
def IXS_CSTAT_ERRWIN (c : Nat) : Field := ⟨0x90100 + c * 0x10, 14, 8⟩
def IXS_CSSN_W (c : Nat) : Field := ⟨0x90104 + c * 0x10, 0, 32⟩
def IXS_CERR_CHECK_ERR (c : Nat) : Field := ⟨0x90108 + c * 0x10, 16, 16⟩
def IXS_CERR_SID_ERR (c : Nat) : Field := ⟨0x90108 + c * 0x10, 8, 8⟩
def IXS_CERR_TIME_ERR (c : Nat) : Field := ⟨0x90108 + c * 0x10, 0, 8⟩
def IXS_CCNT_LOST (c : Nat) : Field := ⟨0x9010C + c * 0x10, 16, 16⟩
def IXS_CCNT_SEQ_ERR (c : Nat) : Field := ⟨0x9010C + c * 0x10, 8, 8⟩
def IXS_CCNT_FAILSAFES (c : Nat) : Field := ⟨0x9010C + c * 0x10, 0, 8⟩
def CAN_CTRL_RECOVER (n : Nat) : Field := ⟨0xA0000 + n * 0x1000, 2, 1⟩
def CAN_CTRL_MODE (n : Nat) : Field := ⟨0xA0000 + n * 0x1000, 0, 2⟩
def CAN_STAT_ESTATE (n : Nat) : Field := ⟨0xA0004 + n * 0x1000, 30, 2⟩
def CAN_STAT_RESTRICTED (n : Nat) : Field := ⟨0xA0004 + n * 0x1000, 29, 1⟩
def CAN_STAT_INTEGRATED (n : Nat) : Field := ⟨0xA0004 + n * 0x1000, 28, 1⟩
def CAN_STAT_LEC (n : Nat) : Field := ⟨0xA0004 + n * 0x1000, 16, 4⟩
def CAN_STAT_RECOV_CNT (n : Nat) : Field := ⟨0xA0004 + n * 0x1000, 8, 8⟩
def CAN_NBT_NSJW (n : Nat) : Field := ⟨0xA0008 + n * 0x1000, 25, 7⟩
def CAN_NBT_NTSEG1 (n : Nat) : Field := ⟨0xA0008 + n * 0x1000, 16, 9⟩
def CAN_NBT_NTSEG2 (n : Nat) : Field := ⟨0xA0008 + n * 0x1000, 9, 7⟩
def CAN_NBT_NBRP (n : Nat) : Field := ⟨0xA0008 + n * 0x1000, 4, 5⟩
def CAN_DBT_DSJW (n : Nat) : Field := ⟨0xA000C + n * 0x1000, 28, 4⟩
def CAN_DBT_DTSEG1 (n : Nat) : Field := ⟨0xA000C + n * 0x1000, 23, 5⟩
def CAN_DBT_DTSEG2 (n : Nat) : Field := ⟨0xA000C + n * 0x1000, 19, 4⟩
def CAN_DBT_DBRP (n : Nat) : Field := ⟨0xA000C + n * 0x1000, 16, 3⟩
def CAN_TDC_EN (n : Nat) : Field := ⟨0xA0010 + n * 0x1000, 31, 1⟩
def CAN_TDC_TDCO (n : Nat) : Field := ⟨0xA0010 + n * 0x1000, 16, 7⟩
def CAN_TDC_TDCF (n : Nat) : Field := ⟨0xA0010 + n * 0x1000, 8, 7⟩
def CAN_TDC_TDCV (n : Nat) : Field := ⟨0xA0010 + n * 0x1000, 0, 7⟩
def CAN_ECR_TEC (n : Nat) : Field := ⟨0xA0014 + n * 0x1000, 16, 8⟩
def CAN_ECR_RP (n : Nat) : Field := ⟨0xA0014 + n * 0x1000, 15, 1⟩
def CAN_ECR_REC (n : Nat) : Field := ⟨0xA0014 + n * 0x1000, 8, 7⟩
def CAN_EVT_EVT (n : Nat) : Field := ⟨0xA0018 + n * 0x1000, 0, 8⟩
def CAN_CFG_EN (n : Nat) : Field := ⟨0xA001C + n * 0x1000, 31, 1⟩
def CAN_CFG_AUTO_RECOVER (n : Nat) : Field := ⟨0xA001C + n * 0x1000, 30, 1⟩
def CAN_CFG_WAKE_EN (n : Nat) : Field := ⟨0xA001C + n * 0x1000, 29, 1⟩
def CAN_CFG_CNT_CLR (n : Nat) : Field := ⟨0xA001C + n * 0x1000, 0, 1⟩
def CAN_CNT_HI (n : Nat) (i : Nat) : Field := ⟨0xA0020 + n * 0x1000 + i * 0x4, 16, 16⟩
def CAN_CNT_LO (n : Nat) (i : Nat) : Field := ⟨0xA0020 + n * 0x1000 + i * 0x4, 0, 16⟩
def CAN_RXQ_CFG_EN (n : Nat) (m : Nat) : Field := ⟨0xA0040 + n * 0x1000 + m * 0x20, 31, 1⟩
def CAN_RXQ_CFG_ESIZE_LOG2 (n : Nat) (m : Nat) : Field := ⟨0xA0040 + n * 0x1000 + m * 0x20, 27, 4⟩
def CAN_RXQ_CFG_DEPTH_LOG2 (n : Nat) (m : Nat) : Field := ⟨0xA0040 + n * 0x1000 + m * 0x20, 23, 4⟩
def CAN_RXQ_CFG_PAIR (n : Nat) (m : Nat) : Field := ⟨0xA0040 + n * 0x1000 + m * 0x20, 16, 2⟩
def CAN_RXQ_CFG_BASE (n : Nat) (m : Nat) : Field := ⟨0xA0040 + n * 0x1000 + m * 0x20, 0, 8⟩
def CAN_RXQ_WM_HIGH (n : Nat) (m : Nat) : Field := ⟨0xA0048 + n * 0x1000 + m * 0x20, 16, 13⟩
def CAN_RXQ_WM_LOW (n : Nat) (m : Nat) : Field := ⟨0xA0048 + n * 0x1000 + m * 0x20, 0, 13⟩
def CAN_RXQ_STAT_CREDITS (n : Nat) (m : Nat) : Field := ⟨0xA004C + n * 0x1000 + m * 0x20, 16, 13⟩
def CAN_RXQ_STAT_LEVEL (n : Nat) (m : Nat) : Field := ⟨0xA004C + n * 0x1000 + m * 0x20, 0, 13⟩
def CAN_RXQ_IDX_TAIL (n : Nat) (m : Nat) : Field := ⟨0xA0050 + n * 0x1000 + m * 0x20, 16, 12⟩
def CAN_RXQ_IDX_HEAD (n : Nat) (m : Nat) : Field := ⟨0xA0050 + n * 0x1000 + m * 0x20, 0, 12⟩
def CAN_RXQ_CTRL_RELEASE (n : Nat) (m : Nat) : Field := ⟨0xA0054 + n * 0x1000 + m * 0x20, 31, 1⟩
def CAN_RXQ_CTRL_COMMIT (n : Nat) (m : Nat) : Field := ⟨0xA0054 + n * 0x1000 + m * 0x20, 30, 1⟩
def CAN_RXQ_CTRL_LEN (n : Nat) (m : Nat) : Field := ⟨0xA0054 + n * 0x1000 + m * 0x20, 0, 13⟩
def CAN_RXQ_EVT_CNT_CLR (n : Nat) (m : Nat) : Field := ⟨0xA0058 + n * 0x1000 + m * 0x20, 31, 1⟩
def CAN_RXQ_EVT_CROSS_HI (n : Nat) (m : Nat) : Field := ⟨0xA0058 + n * 0x1000 + m * 0x20, 16, 8⟩
def CAN_RXQ_EVT_CROSS_LO (n : Nat) (m : Nat) : Field := ⟨0xA0058 + n * 0x1000 + m * 0x20, 8, 8⟩
def CAN_RXQ_EVT_BELOW_LO (n : Nat) (m : Nat) : Field := ⟨0xA0058 + n * 0x1000 + m * 0x20, 4, 1⟩
def CAN_RXQ_EVT_ABOVE_HI (n : Nat) (m : Nat) : Field := ⟨0xA0058 + n * 0x1000 + m * 0x20, 3, 1⟩
def CAN_RXQ_EVT_PERR (n : Nat) (m : Nat) : Field := ⟨0xA0058 + n * 0x1000 + m * 0x20, 2, 1⟩
def CAN_RXQ_EVT_LO_EVT (n : Nat) (m : Nat) : Field := ⟨0xA0058 + n * 0x1000 + m * 0x20, 1, 1⟩
def CAN_RXQ_EVT_HI_EVT (n : Nat) (m : Nat) : Field := ⟨0xA0058 + n * 0x1000 + m * 0x20, 0, 1⟩
def CAN_RXQ_CNT_DISCARDS (n : Nat) (m : Nat) : Field := ⟨0xA005C + n * 0x1000 + m * 0x20, 16, 16⟩
def CAN_RXQ_CNT_REFUSED (n : Nat) (m : Nat) : Field := ⟨0xA005C + n * 0x1000 + m * 0x20, 8, 8⟩
def CAN_RXQ_CNT_RESETS (n : Nat) (m : Nat) : Field := ⟨0xA005C + n * 0x1000 + m * 0x20, 4, 4⟩
def CAN_RXQ_CNT_STRAY (n : Nat) (m : Nat) : Field := ⟨0xA005C + n * 0x1000 + m * 0x20, 0, 4⟩
def CAN_TXREQ_W (n : Nat) : Field := ⟨0xA0100 + n * 0x1000, 0, 32⟩
def CAN_TXCAN_W (n : Nat) : Field := ⟨0xA0104 + n * 0x1000, 0, 32⟩
def CAN_TXPEND_W (n : Nat) : Field := ⟨0xA0108 + n * 0x1000, 0, 32⟩
def CAN_TXDONE_W (n : Nat) : Field := ⟨0xA010C + n * 0x1000, 0, 32⟩
def CAN_TXCANC_W (n : Nat) : Field := ⟨0xA0110 + n * 0x1000, 0, 32⟩
def CAN_TXLATE_W (n : Nat) : Field := ⟨0xA0114 + n * 0x1000, 0, 32⟩
def CAN_TXHELD_W (n : Nat) : Field := ⟨0xA0118 + n * 0x1000, 0, 32⟩
def CAN_TXQ_FLUSH (n : Nat) : Field := ⟨0xA011C + n * 0x1000, 31, 1⟩
def CAN_TXQ_QUEUE (n : Nat) : Field := ⟨0xA011C + n * 0x1000, 0, 8⟩
def CAN_TBCFG_MODE (n : Nat) (b : Nat) : Field := ⟨0xA0200 + n * 0x1000 + b * 0x4, 30, 2⟩
def CAN_TBCFG_OGRP (n : Nat) (b : Nat) : Field := ⟨0xA0200 + n * 0x1000 + b * 0x4, 26, 4⟩
def CAN_TBCFG_QUEUE (n : Nat) (b : Nat) : Field := ⟨0xA0200 + n * 0x1000 + b * 0x4, 20, 6⟩
def CAN_TBCFG_SRC_OFS8 (n : Nat) (b : Nat) : Field := ⟨0xA0200 + n * 0x1000 + b * 0x4, 9, 11⟩
def CAN_FSTAT_PRES (n : Nat) (e : Nat) : Field := ⟨0xA0400 + n * 0x1000 + e * 0x4, 30, 2⟩
def CAN_FSTAT_REJOIN_CNT (n : Nat) (e : Nat) : Field := ⟨0xA0400 + n * 0x1000 + e * 0x4, 26, 4⟩
def CAN_FSTAT_MISS_CNT (n : Nat) (e : Nat) : Field := ⟨0xA0400 + n * 0x1000 + e * 0x4, 10, 16⟩
def LRB_STAT_OWNER : Field := ⟨0xB0000, 30, 2⟩
def LRB_STAT_SLOT : Field := ⟨0xB0000, 28, 2⟩
def LRB_STAT_LOCKED : Field := ⟨0xB0000, 27, 1⟩
def LRB_STAT_SEM_VALID : Field := ⟨0xB0000, 26, 1⟩
def LRB_STAT_SEM_PAIR : Field := ⟨0xB0000, 24, 2⟩
def LRB_STAT_YIELDS : Field := ⟨0xB0000, 16, 5⟩
def LRB_CFG_EN : Field := ⟨0xB0004, 31, 1⟩
def LRB_CFG_PF_AGE : Field := ⟨0xB0004, 8, 8⟩
def LRB_EVT_EVT : Field := ⟨0xB0008, 0, 7⟩
def LRB_ERRADDR_OUT : Field := ⟨0xB000C, 31, 1⟩
def LRB_ERRADDR_KIND : Field := ⟨0xB000C, 28, 3⟩
def LRB_ERRADDR_ADDR : Field := ⟨0xB000C, 0, 24⟩
def LRB_INWIN_EN : Field := ⟨0xB0010, 31, 1⟩
def LRB_INWIN_SIZE : Field := ⟨0xB0010, 16, 8⟩
def LRB_INWIN_BASE : Field := ⟨0xB0010, 0, 8⟩
def LRB_INWIN_TGT_TGT : Field := ⟨0xB0014, 0, 24⟩
def LRB_CNTCLR_ALL : Field := ⟨0xB0018, 0, 1⟩
def LRB_CNT_HI (i : Nat) : Field := ⟨0xB0020 + i * 0x4, 16, 16⟩
def LRB_CNT_LO (i : Nat) : Field := ⟨0xB0020 + i * 0x4, 0, 16⟩
def LRB_PFWIN_EN (w : Nat) : Field := ⟨0xB0080 + w * 0x4, 31, 1⟩
def LRB_PFWIN_SIZE_LOG2 (w : Nat) : Field := ⟨0xB0080 + w * 0x4, 24, 5⟩
def LRB_PFWIN_BASE (w : Nat) : Field := ⟨0xB0080 + w * 0x4, 8, 16⟩
def LRB_LSTAT_PRES (e : Nat) : Field := ⟨0xB0100 + e * 0x4, 30, 2⟩
def LRB_LSTAT_REJOIN_CNT (e : Nat) : Field := ⟨0xB0100 + e * 0x4, 26, 4⟩
def LRB_LSTAT_MISS_CNT (e : Nat) : Field := ⟨0xB0100 + e * 0x4, 10, 16⟩
def SIO_STAT_Y_OK : Field := ⟨0xC0000, 31, 1⟩
def SIO_STAT_SW_FS : Field := ⟨0xC0000, 30, 1⟩
def SIO_STAT_FS_OK : Field := ⟨0xC0000, 29, 1⟩
def SIO_STAT_TP_FAULT : Field := ⟨0xC0000, 20, 4⟩
def SIO_STAT_DI_OK : Field := ⟨0xC0000, 0, 16⟩
def SIO_EVT_EVT : Field := ⟨0xC0004, 0, 30⟩
def SIO_FS_I_MA : Field := ⟨0xC0008, 16, 16⟩
def SIO_FS_V_10MV : Field := ⟨0xC0008, 0, 16⟩
def SIO_TPCFG_EN : Field := ⟨0xC000C, 28, 4⟩
def SIO_TPCFG_TPP : Field := ⟨0xC000C, 16, 12⟩
def SIO_TPCFG_TPW : Field := ⟨0xC000C, 0, 10⟩
def SIO_OTCFG_OT_PERIOD_S : Field := ⟨0xC0010, 16, 8⟩
def SIO_OTCFG_OTW : Field := ⟨0xC0010, 0, 10⟩
def SIO_FSCFG_BUDGET : Field := ⟨0xC0014, 0, 16⟩
def SIO_CNTCLR_ALL : Field := ⟨0xC0018, 0, 1⟩
def SIO_DICFG_EN (n : Nat) : Field := ⟨0xC0100 + n * 0x4, 31, 1⟩
def SIO_DICFG_WB_EN (n : Nat) : Field := ⟨0xC0100 + n * 0x4, 30, 1⟩
def SIO_DICFG_TPSEL (n : Nat) : Field := ⟨0xC0100 + n * 0x4, 27, 3⟩
def SIO_DICFG_DISC_T (n : Nat) : Field := ⟨0xC0100 + n * 0x4, 16, 8⟩
def SIO_DICFG_FCNT (n : Nat) : Field := ⟨0xC0100 + n * 0x4, 0, 8⟩
def SIO_DISTAT_BAND (n : Nat) : Field := ⟨0xC0140 + n * 0x4, 30, 2⟩
def SIO_DISTAT_XQ (n : Nat) : Field := ⟨0xC0140 + n * 0x4, 29, 1⟩
def SIO_DISTAT_YQ (n : Nat) : Field := ⟨0xC0140 + n * 0x4, 28, 1⟩
def SIO_DISTAT_VALUE (n : Nat) : Field := ⟨0xC0140 + n * 0x4, 27, 1⟩
def SIO_DISTAT_DIAG_OK (n : Nat) : Field := ⟨0xC0140 + n * 0x4, 26, 1⟩
def SIO_DISTAT_FAULT (n : Nat) : Field := ⟨0xC0140 + n * 0x4, 19, 3⟩
def SIO_DISTAT_DISC_CNT (n : Nat) : Field := ⟨0xC0140 + n * 0x4, 8, 8⟩
def SIO_DISTAT_WB_CNT (n : Nat) : Field := ⟨0xC0140 + n * 0x4, 0, 8⟩
def SIO_DOCFG_EN (m : Nat) : Field := ⟨0xC0200 + m * 0x4, 31, 1⟩
def SIO_DOCFG_TEST_EN (m : Nat) : Field := ⟨0xC0200 + m * 0x4, 30, 1⟩
def SIO_DOCFG_RETRY (m : Nat) : Field := ⟨0xC0200 + m * 0x4, 29, 1⟩
def SIO_DOCFG_OGRP (m : Nat) : Field := ⟨0xC0200 + m * 0x4, 25, 4⟩
def SIO_DOCFG_LOAD (m : Nat) : Field := ⟨0xC0200 + m * 0x4, 21, 4⟩
def SIO_DOCFG_BITADDR (m : Nat) : Field := ⟨0xC0200 + m * 0x4, 0, 17⟩
def SIO_DOSTAT_FLT_CLR (m : Nat) : Field := ⟨0xC0220 + m * 0x4, 31, 1⟩
def SIO_DOSTAT_CMD (m : Nat) : Field := ⟨0xC0220 + m * 0x4, 30, 1⟩
def SIO_DOSTAT_DRIVE (m : Nat) : Field := ⟨0xC0220 + m * 0x4, 29, 1⟩
def SIO_DOSTAT_RB (m : Nat) : Field := ⟨0xC0220 + m * 0x4, 27, 2⟩
def SIO_DOSTAT_FAULT (m : Nat) : Field := ⟨0xC0220 + m * 0x4, 24, 3⟩
def SIO_DOSTAT_FLT_CNT (m : Nat) : Field := ⟨0xC0220 + m * 0x4, 16, 8⟩
def SIO_DOSTAT_I_MA (m : Nat) : Field := ⟨0xC0220 + m * 0x4, 0, 10⟩
def SUP_MBSTAT_BUSY (n : Nat) : Field := ⟨0xD0000 + n * 0x1000, 31, 1⟩
def SUP_MBSTAT_DONE (n : Nat) : Field := ⟨0xD0000 + n * 0x1000, 30, 1⟩
def SUP_MBSTAT_REFUSED (n : Nat) : Field := ⟨0xD0000 + n * 0x1000, 16, 8⟩
def SUP_MBSTAT_RLEN (n : Nat) : Field := ⟨0xD0000 + n * 0x1000, 0, 12⟩
def SUP_MBSUBMIT_LEN (n : Nat) : Field := ⟨0xD0004 + n * 0x1000, 0, 11⟩
def SUP_EVT_PART : Field := ⟨0xD8000, 24, 8⟩
def SUP_EVT_EVT : Field := ⟨0xD8000, 0, 7⟩
def REC_STAT_STATE : Field := ⟨0xE0000, 29, 3⟩
def REC_STAT_LEVEL : Field := ⟨0xE0000, 16, 7⟩
def REC_EVT_EVT : Field := ⟨0xE0004, 0, 5⟩
def REC_NEXTSEQ_W : Field := ⟨0xE0008, 0, 32⟩
def REC_OLDEST_W : Field := ⟨0xE000C, 0, 32⟩
def REC_CNT_CLR : Field := ⟨0xE0010, 31, 1⟩
def REC_CNT_SUPPRESSED : Field := ⟨0xE0010, 16, 15⟩
def REC_CNT_DROPPED : Field := ⟨0xE0010, 8, 8⟩
def REC_CNT_INVALID : Field := ⟨0xE0010, 0, 8⟩
def REC_CODESTAT_KEPT (c : Nat) : Field := ⟨0xE1000 + c * 0x4, 31, 1⟩
def REC_CODESTAT_TOKENS (c : Nat) : Field := ⟨0xE1000 + c * 0x4, 16, 8⟩
def REC_CODESTAT_PENDING (c : Nat) : Field := ⟨0xE1000 + c * 0x4, 0, 16⟩
def PWR_STAT_SUPPLY : Field := ⟨0xF0000, 30, 2⟩
def PWR_STAT_V_INTAKE : Field := ⟨0xF0000, 0, 16⟩
def PWR_EVT_EVT : Field := ⟨0xF0004, 0, 7⟩
def PWR_BUDGET_MEAS : Field := ⟨0xF0008, 16, 16⟩
def PWR_BUDGET_BUDGET : Field := ⟨0xF0008, 0, 8⟩
def PWR_BUDGET_CFG_DEFAULT : Field := ⟨0xF000C, 0, 8⟩
def PWR_NIGHT_VALID : Field := ⟨0xF002C, 31, 1⟩
def PWR_NIGHT_LOST : Field := ⟨0xF002C, 30, 1⟩
def PWR_NIGHT_VCAP : Field := ⟨0xF002C, 0, 9⟩
def PWR_ARBCNT_CLR : Field := ⟨0xF0030, 31, 1⟩
def PWR_ARBCNT_DEFERRED : Field := ⟨0xF0030, 16, 15⟩
def PWR_ARBCNT_LONG_WAIT : Field := ⟨0xF0030, 8, 8⟩
def PWR_ARBCNT_EXCEED : Field := ⟨0xF0030, 0, 8⟩
def PWR_PAIRCLK_STATE (n : Nat) : Field := ⟨0xF0010 + n * 0x4, 30, 2⟩
def PWR_PAIRCLK_STARTS (n : Nat) : Field := ⟨0xF0010 + n * 0x4, 0, 16⟩
def PWR_OPTIME_W (w : Nat) : Field := ⟨0xF0020 + w * 0x4, 0, 32⟩
def PWR_PCC_W : Field := ⟨0xF0028, 0, 32⟩

end F

/-- The registers of the SYS block. -/
def rowsSys : List RegRow := [
  ⟨0x0, [], 0x0, [⟨16, 16, .ro⟩, ⟨8, 8, .ro⟩, ⟨0, 8, .ro⟩]⟩, -- SYS_ID
  ⟨0x10, [], 0x0, [⟨19, 1, .ro⟩, ⟨18, 1, .ro⟩, ⟨17, 1, .ro⟩, ⟨16, 1, .ro⟩, ⟨10, 6, .ro⟩, ⟨9, 1, .ro⟩, ⟨8, 1, .ro⟩, ⟨7, 1, .ro⟩, ⟨6, 1, .ro⟩, ⟨5, 1, .ro⟩, ⟨4, 1, .ro⟩, ⟨0, 4, .ro⟩]⟩, -- SYS_CAP0
  ⟨0x14, [], 0x0, [⟨16, 8, .ro⟩, ⟨8, 8, .ro⟩, ⟨4, 4, .ro⟩, ⟨0, 1, .ro⟩]⟩] -- SYS_CAP1

/-- The registers of the VDX block. -/
def rowsVdx : List RegRow := [
  ⟨0x10000, [], 0x0, [⟨31, 1, .wo⟩, ⟨0, 16, .ro⟩]⟩, -- VDX_DIAG
  ⟨0x10100, [(0x20, 4)], 0x0, [⟨0, 4, .rw⟩]⟩, -- VDX_THR
  ⟨0x10104, [(0x20, 4)], 0x0, [⟨16, 16, .ro⟩, ⟨12, 4, .ro⟩, ⟨9, 1, .ro⟩, ⟨0, 9, .ro⟩]⟩, -- VDX_ACT
  ⟨0x10108, [(0x20, 4)], 0x0, [⟨0, 9, .wo⟩]⟩, -- VDX_COMPLETE
  ⟨0x1010C, [(0x20, 4)], 0x0, [⟨31, 1, .wo⟩, ⟨16, 15, .ro⟩, ⟨0, 9, .ro⟩]⟩, -- VDX_STRAY
  ⟨0x10200, [], 0x0, [⟨0, 5, .wo⟩]⟩, -- VDX_SWTRIG
  ⟨0x10400, [(0x4, 16)], 0xFFFFFFFF, [⟨0, 32, .rw⟩]⟩, -- VDX_MASK
  ⟨0x10800, [(0x4, 16)], 0x0, [⟨0, 32, .ro⟩]⟩, -- VDX_PEND
  ⟨0x10840, [(0x4, 16)], 0x0, [⟨0, 32, .ro⟩]⟩, -- VDX_ACTIVE
  ⟨0x11000, [(0x4, 512)], 0x0, [⟨24, 8, .rw⟩, ⟨22, 2, .rw⟩, ⟨20, 2, .rw⟩, ⟨19, 1, .rw⟩, ⟨8, 2, .rw⟩, ⟨0, 4, .rw⟩]⟩, -- VDX_SRCCFG
  ⟨0x12000, [(0x4, 512)], 0x0, [⟨31, 1, .wo⟩, ⟨8, 8, .ro⟩, ⟨4, 2, .ro⟩, ⟨3, 1, .ro⟩, ⟨2, 1, .ro⟩, ⟨1, 1, .ro⟩, ⟨0, 1, .ro⟩]⟩, -- VDX_SRCSTAT
  ⟨0x14000, [(0x8, 512), (0x4, 2)], 0x0, [⟨0, 32, .ro⟩]⟩] -- VDX_SRCSTAMP

/-- The registers of the HX block. -/
def rowsHx : List RegRow := [
  ⟨0x20000, [], 0x0, [⟨8, 1, .ro⟩, ⟨3, 1, .ro⟩, ⟨2, 1, .ro⟩]⟩, -- HX_STAT
  ⟨0x20004, [], 0x0, [⟨0, 32, .ro⟩]⟩, -- HX_SCHEDID
  ⟨0x20008, [], 0x0, [⟨0, 32, .ro⟩]⟩, -- HX_FRAME
  ⟨0x20010, [], 0x0, [⟨0, 12, .w1c⟩]⟩, -- HX_EVT
  ⟨0x20100, [(0x10, 6)], 0x0, [⟨29, 3, .ro⟩, ⟨27, 2, .ro⟩, ⟨26, 1, .ro⟩, ⟨12, 10, .ro⟩, ⟨0, 12, .ro⟩]⟩, -- HX_UNIT
  ⟨0x20104, [(0x10, 4)], 0x0, [⟨2, 30, .rw⟩]⟩, -- HX_IDLE
  ⟨0x20108, [(0x10, 4)], 0x0, [⟨1, 1, .wo⟩, ⟨0, 1, .wo⟩]⟩, -- HX_PAIRCMD
  ⟨0x2010C, [(0x10, 4)], 0xC350, [⟨31, 1, .cfg⟩, ⟨0, 24, .cfg⟩]⟩, -- HX_PWRPOL
  ⟨0x21000, [(0x10, 1024)], 0x0, [⟨16, 16, .ro⟩, ⟨0, 16, .ro⟩]⟩, -- HX_TASKSTAT0
  ⟨0x21004, [(0x10, 1024)], 0x0, [⟨16, 16, .ro⟩, ⟨0, 16, .ro⟩]⟩, -- HX_TASKSTAT1
  ⟨0x21008, [(0x10, 1024)], 0x0, [⟨0, 32, .ro⟩]⟩, -- HX_TASKSTAT2
  ⟨0x2100C, [(0x10, 1024)], 0x0, [⟨31, 1, .wo⟩, ⟨4, 2, .ro⟩, ⟨0, 3, .ro⟩]⟩, -- HX_TASKSTAT3
  ⟨0x26000, [(0x4, 256)], 0x0, [⟨31, 1, .ro⟩, ⟨0, 8, .ro⟩]⟩] -- HX_PARTSTAT

/-- The registers of the HXM block. -/
def rowsHxm : List RegRow := [
  ⟨0x30000, [], 0x0, [⟨24, 8, .cfg⟩, ⟨0, 13, .cfg⟩]⟩, -- HXM_LAYOUT
  ⟨0x30004, [], 0x0, [⟨26, 6, .ro⟩, ⟨13, 13, .ro⟩, ⟨0, 13, .ro⟩]⟩, -- HXM_POOL
  ⟨0x30008, [], 0x1F4, [⟨0, 14, .cfg⟩]⟩, -- HXM_LOOKAHEAD
  ⟨0x3000C, [], 0x0, [⟨0, 6, .w1c⟩]⟩, -- HXM_EVT
  ⟨0x30010, [], 0xA3C3C01, [⟨24, 8, .cfg⟩, ⟨16, 8, .cfg⟩, ⟨8, 8, .cfg⟩, ⟨0, 8, .cfg⟩]⟩, -- HXM_SCRUB
  ⟨0x30014, [], 0x0, [⟨31, 1, .wo⟩, ⟨16, 15, .ro⟩, ⟨8, 8, .ro⟩, ⟨0, 3, .ro⟩]⟩, -- HXM_MEMERR
  ⟨0x30018, [(0x4, 2)], 0x0, [⟨0, 32, .ro⟩]⟩, -- HXM_ERRADDR
  ⟨0x30040, [(0x4, 4)], 0x0, [⟨28, 4, .ro⟩, ⟨0, 10, .ro⟩]⟩, -- HXM_FAULTINFO
  ⟨0x31000, [(0x8, 256)], 0x0, [⟨31, 1, .wo⟩, ⟨16, 14, .ro⟩, ⟨0, 14, .ro⟩]⟩, -- HXM_PART_SRAM
  ⟨0x31004, [(0x8, 256)], 0x0, [⟨0, 21, .ro⟩]⟩, -- HXM_PART_DDR
  ⟨0x38000, [(0x100, 64)], 0x3FFFF, [⟨31, 1, .cfg⟩, ⟨27, 4, .cfg⟩, ⟨23, 4, .cfg⟩, ⟨9, 9, .cfg⟩, ⟨0, 9, .cfg⟩]⟩, -- HXQ_CFG
  ⟨0x38004, [(0x100, 64)], 0x0, [⟨0, 10, .cfg⟩]⟩, -- HXQ_BASE
  ⟨0x38008, [(0x100, 64)], 0x0, [⟨16, 13, .cfg⟩, ⟨0, 13, .cfg⟩]⟩, -- HXQ_WM
  ⟨0x3800C, [(0x100, 64)], 0x0, [⟨16, 13, .ro⟩, ⟨0, 13, .ro⟩]⟩, -- HXQ_STAT
  ⟨0x38010, [(0x100, 64)], 0x0, [⟨16, 12, .ro⟩, ⟨0, 12, .ro⟩]⟩, -- HXQ_IDX
  ⟨0x38014, [(0x100, 64)], 0x0, [⟨31, 1, .wo⟩, ⟨30, 1, .wo⟩, ⟨0, 13, .wo⟩]⟩, -- HXQ_CTRL
  ⟨0x38018, [(0x100, 64)], 0x18, [⟨31, 1, .wo⟩, ⟨16, 8, .ro⟩, ⟨8, 8, .ro⟩, ⟨4, 1, .ro⟩, ⟨3, 1, .ro⟩, ⟨2, 1, .w1c⟩, ⟨1, 1, .w1c⟩, ⟨0, 1, .w1c⟩]⟩, -- HXQ_EVT
  ⟨0x3801C, [(0x100, 64)], 0x0, [⟨16, 16, .ro⟩, ⟨8, 8, .ro⟩, ⟨4, 4, .ro⟩, ⟨0, 4, .ro⟩]⟩] -- HXQ_CNT

/-- The registers of the LE block. -/
def rowsLe : List RegRow := [
  ⟨0x40000, [(0x8000, 2)], 0x0, [⟨29, 3, .ro⟩, ⟨17, 10, .ro⟩, ⟨8, 4, .ro⟩, ⟨3, 5, .ro⟩, ⟨0, 1, .ro⟩]⟩, -- LE_STAT
  ⟨0x40004, [(0x8000, 2)], 0x0, [⟨31, 1, .ro⟩, ⟨4, 2, .ro⟩, ⟨2, 2, .ro⟩, ⟨0, 1, .ro⟩]⟩, -- LE_BANK
  ⟨0x40010, [(0x8000, 2)], 0x0, [⟨0, 6, .w1c⟩]⟩, -- LE_EVT
  ⟨0x40014, [(0x8000, 2)], 0x0, [⟨1, 1, .w1c⟩, ⟨0, 1, .w1c⟩]⟩, -- LE_FLAGS
  ⟨0x40020, [(0x8000, 2)], 0x0, [⟨28, 4, .ro⟩, ⟨16, 10, .ro⟩, ⟨8, 8, .ro⟩, ⟨0, 1, .wo⟩]⟩, -- LE_TRAP
  ⟨0x40024, [(0x8000, 2)], 0x0, [⟨18, 1, .ro⟩, ⟨0, 18, .ro⟩]⟩, -- LE_TRAPPC
  ⟨0x40030, [(0x8000, 2)], 0x0, [⟨16, 16, .ro⟩, ⟨1, 1, .ro⟩, ⟨0, 1, .ro⟩]⟩, -- LE_CMPST
  ⟨0x40008, [(0x8000, 2), (0x4, 2)], 0x0, [⟨0, 32, .ro⟩]⟩, -- LE_BANKID
  ⟨0x40018, [(0x8000, 2)], 0x0, [⟨0, 32, .ro⟩]⟩, -- LE_SCAN
  ⟨0x40028, [(0x8000, 2)], 0x0, [⟨0, 32, .ro⟩]⟩, -- LE_TRAPWORD
  ⟨0x40040, [(0x8000, 2), (0x8, 4)], 0x0, [⟨31, 1, .cfg⟩, ⟨17, 9, .cfg⟩, ⟨8, 9, .cfg⟩, ⟨0, 8, .cfg⟩]⟩, -- LE_IMAP
  ⟨0x40044, [(0x8000, 2), (0x8, 4)], 0x0, [⟨31, 1, .cfg⟩, ⟨17, 9, .cfg⟩, ⟨8, 9, .cfg⟩, ⟨0, 8, .cfg⟩]⟩] -- LE_OMAP

/-- The registers of the TVL block. -/
def rowsTvl : List RegRow := [
  ⟨0x50000, [], 0x0, [⟨29, 3, .ro⟩, ⟨26, 3, .ro⟩, ⟨24, 2, .ro⟩, ⟨18, 2, .ro⟩, ⟨16, 2, .ro⟩, ⟨0, 16, .ro⟩]⟩, -- TVL_STAT
  ⟨0x50004, [], 0x3000003, [⟨31, 1, .cfg⟩, ⟨24, 4, .cfg⟩, ⟨0, 2, .ro⟩]⟩, -- TVL_CFG
  ⟨0x50008, [], 0x0, [⟨0, 32, .ro⟩]⟩, -- TVL_MFC
  ⟨0x5000C, [], 0x0, [⟨0, 15, .w1c⟩]⟩, -- TVL_EVT
  ⟨0x50010, [], 0x0, [⟨31, 1, .wo⟩, ⟨16, 15, .ro⟩, ⟨8, 8, .ro⟩, ⟨0, 8, .ro⟩]⟩, -- TVL_AGRCNT
  ⟨0x50014, [], 0x0, [⟨31, 1, .wo⟩, ⟨16, 15, .ro⟩, ⟨8, 8, .ro⟩, ⟨0, 8, .ro⟩]⟩, -- TVL_VOTECNT
  ⟨0x50020, [(0x8, 2)], 0x0, [⟨31, 1, .ro⟩, ⟨30, 1, .ro⟩, ⟨28, 2, .ro⟩, ⟨0, 8, .ro⟩]⟩, -- TVL_LINKSTAT
  ⟨0x50024, [(0x8, 2)], 0x0, [⟨31, 1, .wo⟩, ⟨16, 15, .ro⟩, ⟨8, 8, .ro⟩, ⟨0, 8, .ro⟩]⟩, -- TVL_LINKCNT
  ⟨0x50100, [(0x10, 16)], 0x0, [⟨31, 1, .cfg⟩, ⟨30, 1, .cfg⟩, ⟨28, 2, .cfg⟩, ⟨26, 2, .cfg⟩, ⟨15, 11, .cfg⟩, ⟨3, 12, .cfg⟩]⟩, -- TVL_OGRP
  ⟨0x50104, [(0x10, 16)], 0x0, [⟨28, 4, .cfg⟩, ⟨0, 22, .cfg⟩]⟩, -- TVL_LTIME
  ⟨0x50108, [(0x10, 16)], 0x0, [⟨30, 2, .ro⟩, ⟨29, 1, .ro⟩, ⟨28, 1, .ro⟩, ⟨0, 20, .ro⟩]⟩] -- TVL_LSTAT

/-- The registers of the GHC block. -/
def rowsGhc : List RegRow := [
  ⟨0x60000, [], 0x0, [⟨29, 3, .ro⟩, ⟨26, 3, .ro⟩, ⟨25, 1, .ro⟩, ⟨22, 3, .ro⟩, ⟨20, 2, .ro⟩, ⟨16, 4, .ro⟩, ⟨8, 8, .ro⟩]⟩, -- GHC_STAT
  ⟨0x60004, [], 0x0, [⟨16, 16, .ro⟩, ⟨0, 16, .ro⟩]⟩, -- GHC_SYNC
  ⟨0x60008, [], 0x0, [⟨31, 1, .wo⟩, ⟨16, 15, .ro⟩, ⟨0, 16, .ro⟩]⟩, -- GHC_PREC
  ⟨0x6000C, [], 0x0, [⟨0, 20, .w1c⟩]⟩, -- GHC_EVT
  ⟨0x60010, [], 0x0, [⟨16, 10, .ro⟩, ⟨8, 5, .ro⟩, ⟨0, 1, .ro⟩]⟩, -- GHC_CS
  ⟨0x60014, [], 0x0, [⟨1, 1, .wo⟩, ⟨0, 1, .wo⟩]⟩, -- GHC_CNTCLR
  ⟨0x60100, [], 0x0, [⟨31, 1, .ro⟩, ⟨0, 10, .rw⟩]⟩, -- GHC_BUFSEL
  ⟨0x60040, [(0x40, 2), (0x4, 8)], 0x0, [⟨16, 16, .ro⟩, ⟨0, 16, .ro⟩]⟩, -- GHC_RXCNT
  ⟨0x600C0, [(0x4, 5)], 0x0, [⟨16, 16, .ro⟩, ⟨0, 16, .ro⟩]⟩, -- GHC_TXCNT
  ⟨0x60200, [(0x4, 68)], 0x0, [⟨0, 32, .ro⟩]⟩, -- GHC_BUFDATA
  ⟨0x61000, [(0x4, 1024)], 0x0, [⟨30, 2, .ro⟩, ⟨26, 4, .ro⟩, ⟨10, 16, .ro⟩, ⟨8, 1, .ro⟩, ⟨0, 8, .ro⟩]⟩, -- GHC_SLOTSTAT
  ⟨0x60400, [], 0x0, [⟨31, 1, .ro⟩, ⟨30, 1, .ro⟩, ⟨28, 2, .ro⟩, ⟨0, 16, .ro⟩]⟩, -- GRD_STAT
  ⟨0x60404, [], 0x0, [⟨16, 16, .ro⟩, ⟨8, 8, .ro⟩, ⟨0, 8, .ro⟩]⟩, -- GRD_CNT
  ⟨0x60440, [(0x4, 16)], 0x0, [⟨0, 20, .ro⟩]⟩] -- GRD_LREM

/-- The registers of the TMB block. -/
def rowsTmb : List RegRow := [
  ⟨0x70000, [], 0x0, [⟨29, 3, .ro⟩, ⟨28, 1, .ro⟩, ⟨27, 1, .ro⟩, ⟨26, 1, .ro⟩, ⟨25, 1, .ro⟩, ⟨0, 2, .ro⟩]⟩, -- TMB_STAT
  ⟨0x70004, [], 0x80100064, [⟨31, 1, .cfg⟩, ⟨16, 8, .cfg⟩, ⟨0, 10, .cfg⟩]⟩, -- TMB_CFG
  ⟨0x70008, [], 0x1, [⟨8, 4, .cfg⟩, ⟨4, 4, .cfg⟩, ⟨0, 4, .cfg⟩]⟩, -- TMB_SRC
  ⟨0x7000C, [], 0x0, [⟨0, 8, .w1c⟩]⟩, -- TMB_EVT
  ⟨0x70020, [], 0x0, [⟨17, 1, .ro⟩, ⟨16, 1, .ro⟩, ⟨0, 16, .ro⟩]⟩, -- TMB_UTC
  ⟨0x70024, [], 0x0, [⟨0, 32, .wo⟩]⟩, -- TMB_ADJ
  ⟨0x70028, [], 0x0, [⟨20, 10, .cfg⟩, ⟨10, 10, .cfg⟩, ⟨0, 10, .cfg⟩]⟩, -- TMB_GTIME
  ⟨0x7002C, [], 0xA, [⟨0, 16, .cfg⟩]⟩, -- TMB_LAUNCH
  ⟨0x70030, [], 0x0, [⟨31, 1, .wo⟩, ⟨16, 15, .ro⟩, ⟨8, 8, .ro⟩, ⟨0, 8, .ro⟩]⟩, -- TMB_CNT
  ⟨0x70010, [], 0x0, [⟨0, 32, .ro⟩]⟩, -- TMB_FREQ
  ⟨0x70014, [], 0x0, [⟨0, 32, .ro⟩]⟩, -- TMB_SLEW
  ⟨0x70018, [], 0x0, [⟨0, 32, .ro⟩]⟩, -- TMB_PEND
  ⟨0x7001C, [], 0x0, [⟨0, 32, .ro⟩]⟩, -- TMB_LASTERR
  ⟨0x70100, [(0x20, 4), (0x4, 6)], 0x0, [⟨0, 32, .ro⟩]⟩] -- TMB_CAP

/-- The registers of the ETH block. -/
def rowsEth : List RegRow := [
  ⟨0x80000, [], 0x0, [⟨0, 13, .w1c⟩]⟩, -- ETH_EVT
  ⟨0x80004, [], 0x0, [⟨0, 32, .rw⟩]⟩, -- ETH_TOPO_ETB
  ⟨0x80008, [], 0x0, [⟨0, 32, .rw⟩]⟩, -- ETH_TOPO_OPT
  ⟨0x8000C, [], 0x4444, [⟨0, 16, .cfg⟩]⟩, -- ETH_CMDPORT
  ⟨0x80010, [], 0xD080, [⟨30, 2, .cfg⟩, ⟨29, 1, .cfg⟩, ⟨28, 1, .cfg⟩, ⟨27, 1, .cfg⟩, ⟨16, 8, .cfg⟩, ⟨12, 4, .cfg⟩, ⟨8, 4, .cfg⟩, ⟨0, 8, .cfg⟩]⟩, -- ETH_PTP_CFG
  ⟨0x80014, [], 0x0, [⟨28, 4, .ro⟩, ⟨24, 4, .ro⟩, ⟨0, 16, .ro⟩]⟩, -- ETH_PTP_STAT
  ⟨0x80018, [], 0x0, [⟨0, 32, .ro⟩]⟩, -- ETH_PTP_MPD
  ⟨0x8001C, [], 0x0, [⟨0, 1, .wo⟩]⟩, -- ETH_CNTCLR
  ⟨0x80040, [(0x4, 8)], 0x0, [⟨31, 1, .cfg⟩, ⟨27, 4, .cfg⟩, ⟨26, 1, .cfg⟩, ⟨16, 6, .cfg⟩, ⟨0, 16, .cfg⟩]⟩, -- ETH_RULE
  ⟨0x80100, [(0x80, 4)], 0x0, [⟨31, 1, .cfg⟩, ⟨24, 5, .cfg⟩, ⟨0, 12, .cfg⟩]⟩, -- ETH_PORT_CFG
  ⟨0x80104, [(0x80, 4)], 0x0, [⟨31, 1, .ro⟩, ⟨0, 8, .ro⟩]⟩, -- ETH_PORT_STAT
  ⟨0x80108, [(0x80, 4)], 0x0, [⟨0, 32, .cfg⟩]⟩, -- ETH_IP
  ⟨0x80110, [(0x80, 4)], 0xFFFFFFFF, [⟨24, 8, .cfg⟩, ⟨16, 8, .cfg⟩, ⟨8, 8, .cfg⟩, ⟨0, 8, .cfg⟩]⟩, -- ETH_TXQ
  ⟨0x80120, [(0x80, 4), (0x4, 10)], 0x0, [⟨16, 16, .ro⟩, ⟨0, 16, .ro⟩]⟩, -- ETH_RXCNT
  ⟨0x80150, [(0x80, 4), (0x4, 4)], 0x0, [⟨16, 16, .ro⟩, ⟨0, 16, .ro⟩]⟩, -- ETH_TXCNT
  ⟨0x81000, [(0x4, 512)], 0x0, [⟨30, 2, .ro⟩, ⟨26, 4, .ro⟩, ⟨10, 16, .ro⟩, ⟨8, 2, .ro⟩, ⟨0, 8, .ro⟩]⟩] -- ETH_PDSTAT

/-- The registers of the IXS block. -/
def rowsIxs : List RegRow := [
  ⟨0x90000, [], 0x0, [⟨16, 9, .ro⟩, ⟨0, 9, .ro⟩]⟩, -- IXS_STAT
  ⟨0x90004, [], 0x0, [⟨0, 10, .w1c⟩]⟩, -- IXS_EVT
  ⟨0x90008, [], 0x0, [⟨0, 1, .wo⟩]⟩, -- IXS_CNTCLR
  ⟨0x9000C, [], 0x0, [⟨0, 9, .wo⟩]⟩, -- IXS_ACK
  ⟨0x90100, [(0x10, 256)], 0x0, [⟨30, 2, .ro⟩, ⟨27, 3, .ro⟩, ⟨26, 1, .ro⟩, ⟨22, 4, .ro⟩, ⟨14, 8, .ro⟩]⟩, -- IXS_CSTAT
  ⟨0x90104, [(0x10, 256)], 0x0, [⟨0, 32, .ro⟩]⟩, -- IXS_CSSN
  ⟨0x90108, [(0x10, 256)], 0x0, [⟨16, 16, .ro⟩, ⟨8, 8, .ro⟩, ⟨0, 8, .ro⟩]⟩, -- IXS_CERR
  ⟨0x9010C, [(0x10, 256)], 0x0, [⟨16, 16, .ro⟩, ⟨8, 8, .ro⟩, ⟨0, 8, .ro⟩]⟩] -- IXS_CCNT

/-- The registers of the CAN block. -/
def rowsCan : List RegRow := [
  ⟨0xA0000, [(0x1000, 6)], 0x0, [⟨2, 1, .wo⟩, ⟨0, 2, .rw⟩]⟩, -- CAN_CTRL
  ⟨0xA0004, [(0x1000, 6)], 0x0, [⟨30, 2, .ro⟩, ⟨29, 1, .ro⟩, ⟨28, 1, .ro⟩, ⟨16, 4, .ro⟩, ⟨8, 8, .ro⟩]⟩, -- CAN_STAT
  ⟨0xA0008, [(0x1000, 6)], 0x0, [⟨25, 7, .cfg⟩, ⟨16, 9, .cfg⟩, ⟨9, 7, .cfg⟩, ⟨4, 5, .cfg⟩]⟩, -- CAN_NBT
  ⟨0xA000C, [(0x1000, 6)], 0x0, [⟨28, 4, .cfg⟩, ⟨23, 5, .cfg⟩, ⟨19, 4, .cfg⟩, ⟨16, 3, .cfg⟩]⟩, -- CAN_DBT
  ⟨0xA0010, [(0x1000, 6)], 0x0, [⟨31, 1, .cfg⟩, ⟨16, 7, .cfg⟩, ⟨8, 7, .cfg⟩, ⟨0, 7, .ro⟩]⟩, -- CAN_TDC
  ⟨0xA0014, [(0x1000, 6)], 0x0, [⟨16, 8, .ro⟩, ⟨15, 1, .ro⟩, ⟨8, 7, .ro⟩]⟩, -- CAN_ECR
  ⟨0xA0018, [(0x1000, 6)], 0x0, [⟨0, 8, .w1c⟩]⟩, -- CAN_EVT
  ⟨0xA001C, [(0x1000, 6)], 0x0, [⟨31, 1, .cfg⟩, ⟨30, 1, .cfg⟩, ⟨29, 1, .cfg⟩, ⟨0, 1, .wo⟩]⟩, -- CAN_CFG
  ⟨0xA0020, [(0x1000, 6), (0x4, 8)], 0x0, [⟨16, 16, .ro⟩, ⟨0, 16, .ro⟩]⟩, -- CAN_CNT
  ⟨0xA0040, [(0x1000, 6), (0x20, 2)], 0x0, [⟨31, 1, .cfg⟩, ⟨27, 4, .cfg⟩, ⟨23, 4, .cfg⟩, ⟨16, 2, .cfg⟩, ⟨0, 8, .cfg⟩]⟩, -- CAN_RXQ_CFG
  ⟨0xA0048, [(0x1000, 6), (0x20, 2)], 0x0, [⟨16, 13, .cfg⟩, ⟨0, 13, .cfg⟩]⟩, -- CAN_RXQ_WM
  ⟨0xA004C, [(0x1000, 6), (0x20, 2)], 0x0, [⟨16, 13, .ro⟩, ⟨0, 13, .ro⟩]⟩, -- CAN_RXQ_STAT
  ⟨0xA0050, [(0x1000, 6), (0x20, 2)], 0x0, [⟨16, 12, .ro⟩, ⟨0, 12, .ro⟩]⟩, -- CAN_RXQ_IDX
  ⟨0xA0054, [(0x1000, 6), (0x20, 2)], 0x0, [⟨31, 1, .wo⟩, ⟨30, 1, .wo⟩, ⟨0, 13, .wo⟩]⟩, -- CAN_RXQ_CTRL
  ⟨0xA0058, [(0x1000, 6), (0x20, 2)], 0x18, [⟨31, 1, .wo⟩, ⟨16, 8, .ro⟩, ⟨8, 8, .ro⟩, ⟨4, 1, .ro⟩, ⟨3, 1, .ro⟩, ⟨2, 1, .w1c⟩, ⟨1, 1, .w1c⟩, ⟨0, 1, .w1c⟩]⟩, -- CAN_RXQ_EVT
  ⟨0xA005C, [(0x1000, 6), (0x20, 2)], 0x0, [⟨16, 16, .ro⟩, ⟨8, 8, .ro⟩, ⟨4, 4, .ro⟩, ⟨0, 4, .ro⟩]⟩, -- CAN_RXQ_CNT
  ⟨0xA0100, [(0x1000, 6)], 0x0, [⟨0, 32, .wo⟩]⟩, -- CAN_TXREQ
  ⟨0xA0104, [(0x1000, 6)], 0x0, [⟨0, 32, .wo⟩]⟩, -- CAN_TXCAN
  ⟨0xA0108, [(0x1000, 6)], 0x0, [⟨0, 32, .ro⟩]⟩, -- CAN_TXPEND
  ⟨0xA010C, [(0x1000, 6)], 0x0, [⟨0, 32, .w1c⟩]⟩, -- CAN_TXDONE
  ⟨0xA0110, [(0x1000, 6)], 0x0, [⟨0, 32, .w1c⟩]⟩, -- CAN_TXCANC
  ⟨0xA0114, [(0x1000, 6)], 0x0, [⟨0, 32, .w1c⟩]⟩, -- CAN_TXLATE
  ⟨0xA0118, [(0x1000, 6)], 0x0, [⟨0, 32, .ro⟩]⟩, -- CAN_TXHELD
  ⟨0xA011C, [(0x1000, 6)], 0xFF, [⟨31, 1, .wo⟩, ⟨0, 8, .cfg⟩]⟩, -- CAN_TXQ
  ⟨0xA0200, [(0x1000, 6), (0x4, 32)], 0x0, [⟨30, 2, .cfg⟩, ⟨26, 4, .cfg⟩, ⟨20, 6, .cfg⟩, ⟨9, 11, .cfg⟩]⟩, -- CAN_TBCFG
  ⟨0xA0400, [(0x1000, 6), (0x4, 256)], 0x0, [⟨30, 2, .ro⟩, ⟨26, 4, .ro⟩, ⟨10, 16, .ro⟩]⟩] -- CAN_FSTAT

/-- The registers of the LRB block. -/
def rowsLrb : List RegRow := [
  ⟨0xB0000, [], 0x0, [⟨30, 2, .ro⟩, ⟨28, 2, .ro⟩, ⟨27, 1, .ro⟩, ⟨26, 1, .ro⟩, ⟨24, 2, .ro⟩, ⟨16, 5, .ro⟩]⟩, -- LRB_STAT
  ⟨0xB0004, [], 0xA00, [⟨31, 1, .cfg⟩, ⟨8, 8, .cfg⟩]⟩, -- LRB_CFG
  ⟨0xB0008, [], 0x0, [⟨0, 7, .w1c⟩]⟩, -- LRB_EVT
  ⟨0xB000C, [], 0x0, [⟨31, 1, .ro⟩, ⟨28, 3, .ro⟩, ⟨0, 24, .ro⟩]⟩, -- LRB_ERRADDR
  ⟨0xB0010, [], 0x0, [⟨31, 1, .cfg⟩, ⟨16, 8, .cfg⟩, ⟨0, 8, .cfg⟩]⟩, -- LRB_INWIN
  ⟨0xB0014, [], 0x0, [⟨0, 24, .cfg⟩]⟩, -- LRB_INWIN_TGT
  ⟨0xB0018, [], 0x0, [⟨0, 1, .wo⟩]⟩, -- LRB_CNTCLR
  ⟨0xB0020, [(0x4, 8)], 0x0, [⟨16, 16, .ro⟩, ⟨0, 16, .ro⟩]⟩, -- LRB_CNT
  ⟨0xB0080, [(0x4, 8)], 0x0, [⟨31, 1, .cfg⟩, ⟨24, 5, .cfg⟩, ⟨8, 16, .cfg⟩]⟩, -- LRB_PFWIN
  ⟨0xB0100, [(0x4, 128)], 0x0, [⟨30, 2, .ro⟩, ⟨26, 4, .ro⟩, ⟨10, 16, .ro⟩]⟩] -- LRB_LSTAT

/-- The registers of the SIO block. -/
def rowsSio : List RegRow := [
  ⟨0xC0000, [], 0x0, [⟨31, 1, .ro⟩, ⟨30, 1, .ro⟩, ⟨29, 1, .ro⟩, ⟨20, 4, .ro⟩, ⟨0, 16, .ro⟩]⟩, -- SIO_STAT
  ⟨0xC0004, [], 0x0, [⟨0, 30, .w1c⟩]⟩, -- SIO_EVT
  ⟨0xC0008, [], 0x0, [⟨16, 16, .ro⟩, ⟨0, 16, .ro⟩]⟩, -- SIO_FS
  ⟨0xC000C, [], 0x6400C8, [⟨28, 4, .cfg⟩, ⟨16, 12, .cfg⟩, ⟨0, 10, .cfg⟩]⟩, -- SIO_TPCFG
  ⟨0xC0010, [], 0xA00C8, [⟨16, 8, .cfg⟩, ⟨0, 10, .cfg⟩]⟩, -- SIO_OTCFG
  ⟨0xC0014, [], 0x1130, [⟨0, 16, .cfg⟩]⟩, -- SIO_FSCFG
  ⟨0xC0018, [], 0x0, [⟨0, 1, .wo⟩]⟩, -- SIO_CNTCLR
  ⟨0xC0100, [(0x4, 16)], 0x0, [⟨31, 1, .cfg⟩, ⟨30, 1, .cfg⟩, ⟨27, 3, .cfg⟩, ⟨16, 8, .cfg⟩, ⟨0, 8, .cfg⟩]⟩, -- SIO_DICFG
  ⟨0xC0140, [(0x4, 16)], 0x0, [⟨30, 2, .ro⟩, ⟨29, 1, .ro⟩, ⟨28, 1, .ro⟩, ⟨27, 1, .ro⟩, ⟨26, 1, .ro⟩, ⟨19, 3, .ro⟩, ⟨8, 8, .ro⟩, ⟨0, 8, .ro⟩]⟩, -- SIO_DISTAT
  ⟨0xC0200, [(0x4, 8)], 0x0, [⟨31, 1, .cfg⟩, ⟨30, 1, .cfg⟩, ⟨29, 1, .cfg⟩, ⟨25, 4, .cfg⟩, ⟨21, 4, .cfg⟩, ⟨0, 17, .cfg⟩]⟩, -- SIO_DOCFG
  ⟨0xC0220, [(0x4, 8)], 0x0, [⟨31, 1, .wo⟩, ⟨30, 1, .ro⟩, ⟨29, 1, .ro⟩, ⟨27, 2, .ro⟩, ⟨24, 3, .ro⟩, ⟨16, 8, .ro⟩, ⟨0, 10, .ro⟩]⟩] -- SIO_DOSTAT

/-- The registers of the SUP block. -/
def rowsSup : List RegRow := [
  ⟨0xD0000, [(0x1000, 4)], 0x0, [⟨31, 1, .ro⟩, ⟨30, 1, .w1c⟩, ⟨16, 8, .ro⟩, ⟨0, 12, .ro⟩]⟩, -- SUP_MBSTAT
  ⟨0xD0004, [(0x1000, 4)], 0x0, [⟨0, 11, .wo⟩]⟩, -- SUP_MBSUBMIT
  ⟨0xD8000, [], 0x0, [⟨24, 8, .ro⟩, ⟨0, 7, .w1c⟩]⟩] -- SUP_EVT

/-- The registers of the REC block. -/
def rowsRec : List RegRow := [
  ⟨0xE0000, [], 0x0, [⟨29, 3, .ro⟩, ⟨16, 7, .ro⟩]⟩, -- REC_STAT
  ⟨0xE0004, [], 0x0, [⟨0, 5, .w1c⟩]⟩, -- REC_EVT
  ⟨0xE0008, [], 0x0, [⟨0, 32, .ro⟩]⟩, -- REC_NEXTSEQ
  ⟨0xE000C, [], 0x0, [⟨0, 32, .ro⟩]⟩, -- REC_OLDEST
  ⟨0xE0010, [], 0x0, [⟨31, 1, .wo⟩, ⟨16, 15, .ro⟩, ⟨8, 8, .ro⟩, ⟨0, 8, .ro⟩]⟩, -- REC_CNT
  ⟨0xE1000, [(0x4, 1024)], 0x0, [⟨31, 1, .ro⟩, ⟨16, 8, .ro⟩, ⟨0, 16, .ro⟩]⟩] -- REC_CODESTAT

/-- The registers of the PWR block. -/
def rowsPwr : List RegRow := [
  ⟨0xF0000, [], 0x0, [⟨30, 2, .ro⟩, ⟨0, 16, .ro⟩]⟩, -- PWR_STAT
  ⟨0xF0004, [], 0x0, [⟨0, 7, .w1c⟩]⟩, -- PWR_EVT
  ⟨0xF0008, [], 0xC8, [⟨16, 16, .ro⟩, ⟨0, 8, .ro⟩]⟩, -- PWR_BUDGET
  ⟨0xF000C, [], 0xC8, [⟨0, 8, .cfg⟩]⟩, -- PWR_BUDGET_CFG
  ⟨0xF002C, [], 0x0, [⟨31, 1, .ro⟩, ⟨30, 1, .ro⟩, ⟨0, 9, .ro⟩]⟩, -- PWR_NIGHT
  ⟨0xF0030, [], 0x0, [⟨31, 1, .wo⟩, ⟨16, 15, .ro⟩, ⟨8, 8, .ro⟩, ⟨0, 8, .ro⟩]⟩, -- PWR_ARBCNT
  ⟨0xF0010, [(0x4, 4)], 0x0, [⟨30, 2, .ro⟩, ⟨0, 16, .ro⟩]⟩, -- PWR_PAIRCLK
  ⟨0xF0020, [(0x4, 2)], 0x0, [⟨0, 32, .ro⟩]⟩, -- PWR_OPTIME
  ⟨0xF0028, [], 0x0, [⟨0, 32, .ro⟩]⟩] -- PWR_PCC

/-- Whether the register row holds the register at `off`. -/
def rowHas (r : RegRow) (off : Nat) : Bool :=
  if off < r.base then false else
  let d := off - r.base
  match r.dims with
  | [] => d == 0
  | [(s, c)] => d % s == 0 && decide (d / s < c)
  | [(s, c), (t, e)] => decide (d / s < c) && (d % s) % t == 0 && decide ((d % s) / t < e)
  | _ => false

/-- The register rows of the block that holds `off` (R12). -/
def blockRows (off : Nat) : List RegRow :=
  match off / 0x10000 with

  | 0 => rowsSys
  | 1 => rowsVdx
  | 2 => rowsHx
  | 3 => rowsHxm
  | 4 => rowsLe
  | 5 => rowsTvl
  | 6 => rowsGhc
  | 7 => rowsTmb
  | 8 => rowsEth
  | 9 => rowsIxs
  | 10 => rowsCan
  | 11 => rowsLrb
  | 12 => rowsSio
  | 13 => rowsSup
  | 14 => rowsRec
  | 15 => rowsPwr
  | n => if n < 0x100 then [] else (rowsSup.take 2).map (fun r => ⟨r.base - 0xD0000 + 0x1000000, [(0x1000, 256)], r.reset, r.fields⟩)

/-- The row of the register at `off`. -/
def regRow (off : Nat) : Option RegRow := (blockRows off).find? (fun r => rowHas r off)

/-- The reset value of the register at `off`. -/
def regReset (off : Nat) : Word :=
  match regRow off with
  | some r => BitVec.ofNat 32 r.reset
  | none => 0

end Sys2Proof.Machine
end

