-- ==== Sys2Proof/Machine/State.lean ====
section
/-!
DEFINITION. The state of the block as plain data: everything the spec gives the module, the queue of waiting commands,
and the state right after reset.
-/
namespace Sys2Proof.Machine

/-- The variants of the module (R2). -/
inductive Variant where
  | tvm9410
  | tvm9310
  | tvm9210
  deriving DecidableEq, Repr

/-- The module identity store (R1 to R5): fixed while the module is powered. -/
structure Ident where
  variant : Variant
  coated : Bool
  hwMajor : Nat
  hwMinor : Nat
  /-- POS0/POS1 as sampled (R506): 1 to 3; 0 is the invalid coding. -/
  pos : Nat
  /-- Base MAC address, 48 bits (R460 DESCRIBE). -/
  mac : Nat
  serial : Nat
  deriving DecidableEq, Repr

/-- The model's clock. `t` counts microticks of 1.25 ns and is the model's own: every instant of the state is a value of it. -/
structure Clk where
  t : Nat
  /-- FRC counts (R299): from Dawn step 3 until Midnight or loss of supply. -/
  frcOn : Bool
  /-- The value of `t` at which FRC was 0. -/
  frcBase : Nat
  /-- The operating-hours counter counts (R491). -/
  opOn : Bool
  /-- Operating-hours counter, in microticks, up to `opSince`. -/
  opAcc : Nat
  opSince : Nat
  deriving DecidableEq, Repr

/-- An item on its way through the module: its bytes, the transit check it carries (R162), and its origin stamp (R35). -/
structure Item where
  data : List Byte
  chk : Nat
  stamp : Nat
  deriving DecidableEq, Repr

/-- A vector handed over to a pair at a commit (R78). -/
structure Vec where
  src : Nat
  addr : Nat
  prio : Nat
  deriving DecidableEq, Repr

/-- The vector dispatcher's state beside its registers (chapter 3). -/
structure Vdx where
  /-- Raw qualified state of each line, before POL (R74, R75). -/
  raw : Tbl Bool
  /-- Legacy latch of each source (R75 mode 2). -/
  latch : Tbl Bool
  /-- The fabric cycle of each source's latest arrival (R84). -/
  arrived : Tbl (Option Nat)
  /-- Pulses of R529 whose qualified state is still asserted: source and fabric cycle. -/
  pulses : List (Nat × Nat)
  /-- Sources active on each pair with the priority each was committed at, running level first (R78, R79). -/
  stack : Tbl (List (Nat × Nat))
  /-- The vector committed to each pair and not yet entered (R78). -/
  committed : Tbl (Option Vec)
  deriving DecidableEq, Repr

/-- One event reported to the recorder and not yet judged (R474). -/
structure Report where
  code : RCode
  src : Nat
  stamp : Nat
  tset : Bool
  /-- FRC at the origin instant. -/
  frc : Nat
  words : List Word
  deriving DecidableEq, Repr

/-- The REC_MARK request whose reply a record carries once it is written (R484): origin, SEQ, trailer and COUNTER. -/
structure MarkReply where
  origin : Origin
  seq : Nat
  trailer : Nat
  counter : Option Nat
  deriving DecidableEq, Repr

/-- One record waiting in the intake queue (R468, R474). -/
structure RecItem where
  code : Nat
  sev : Nat
  src : Nat
  tunset : Bool
  part : Bool
  late : Bool
  kept : Bool
  pcc : Nat
  optime : Nat
  stamp : Nat
  snap : List Word
  suppr : Nat
  reply : Option MarkReply
  deriving DecidableEq, Repr

/-- The token bucket of a code and its kept event (R476, R477). -/
structure Bucket where
  tokens : Nat
  /-- FRC at which the next token is added; none while the bucket is full. -/
  refill : Option Nat
  kept : Option RecItem
  /-- Events suppressed before the kept one since the code's last written record. -/
  before : Nat
  /-- Events suppressed since the code's last written record. -/
  pending : Nat
  deriving DecidableEq, Repr

/-- REC_CONFIG settings of a code (R479, R480). -/
structure RecSetting where
  rate : Option (Nat × Nat)
  snap : Option (List Nat)
  deriving DecidableEq, Repr

/-- One entry of the firmware's code catalogue (R473). -/
structure CatEntry where
  name : RCode
  num : Nat
  sev : Nat
  always : Bool
  fixedSnap : Bool
  unit : Nat
  burst : Nat
  periodMs : Nat
  snap : List Nat
  deriving DecidableEq, Repr

/-- The event recorder beside its registers and its ring, which lies in memory (chapter 19). -/
structure Rec where
  /-- Events reported and not yet judged, in the order of the reports. -/
  reported : List Report
  /-- The intake queue, oldest first (R474). -/
  intake : List RecItem
  /-- Buckets by code number; unlisted: full at its BURST. -/
  buckets : Tbl (Option Bucket)
  settings : Tbl RecSetting
  /-- Events dropped since the last RECORDER_OVERFLOW record, and the newest dropped code (R474). -/
  droppedSince : Nat
  newestDropped : Nat
  /-- Next sequence number and oldest retained (R467); no record yet: `empty`. -/
  nextSeq : Nat
  empty : Bool
  deriving DecidableEq, Repr

/-- A request waiting at the budget arbiter (R497). `cost` in units of 0.1 W. -/
structure PwrReq where
  rank : Nat
  /-- Pair number, Tri-link port, or 0 recorder and 1 retentive save for rank 4. -/
  unit : Nat
  cost : Nat
  age : Nat
  deriving DecidableEq, Repr

/-- A cost still charged (R497); `till` is the end of the first 5 us of a PLL start. -/
structure Charge where
  rank : Nat
  unit : Nat
  cost : Nat
  till : Option Nat
  deriving DecidableEq, Repr

/-- What MIDNIGHT laid down (R500, R501). -/
structure MidnightReq where
  wake : Nat
  timerS : Nat
  target : Nat
  since : Nat
  deriving DecidableEq, Repr

/-- Power and clocks beside the registers (chapter 20), the Night domain among them. -/
structure Pwr where
  mated : Bool
  /-- Power-good is given (R509). -/
  good : Bool
  rstAsserted : Bool
  holdupSince : Option Nat
  warned : Bool
  /-- The instant of the supply-fail warning (R492). -/
  warnedAt : Nat
  waiting : List PwrReq
  granted : List PwrReq
  charges : List Charge
  budgetNext : Option Nat
  /-- Instant at which a starting pair PLL locks, per pair. -/
  lockAt : Tbl Nat
  /-- Instant at which the clock of a pair runs again after an ungating grant. -/
  awakeAt : Tbl Nat
  /-- The real-time clock as last written, in units of 2^-16 ns of time of day, and the instant of writing (R306). -/
  rtc : Nat
  rtcAt : Nat
  nightValid : Bool
  pcc : Nat
  pccCopy : Nat
  opCopy : Nat
  opHiLatch : Nat
  midnight : Option MidnightReq
  /-- The set digest recorded at entry to Midnight mode (R495 step 9). -/
  midnightDigest : List Byte
  /-- POS0/POS1 as the contacts read; sampled at step 4 of a Dawn sequence (R506). -/
  posPins : Nat
  /-- The instant P or W at which the Dawn sequence began (R493, R495). -/
  dawnAt : Nat
  deriving DecidableEq, Repr

/-- Measurement history of one time source (R303, R307). -/
structure TmbSrc where
  /-- FRC of the previous measurement from this source; none where R303 says there is no previous one. -/
  prev : Option Nat
  /-- FRC of the newest valid measurement. -/
  newest : Option Nat
  /-- Ordinal of the Gheif cycle of the newest frame with VALID = 1, and of the newest frame judged (GHEIF sources). -/
  newestN : Option Nat
  judgedN : Option Nat
  /-- Consecutive valid measurements (R307). -/
  good : Nat
  /-- The latest measurement: e, in units of 2^-16 ns, the reference that it gives for its instant (R304), and the free-running count there. -/
  lastE : Int
  lastRef : Int
  lastAt : Nat
  /-- UTC data that the source has brought: UTC_OFS pattern, LEAP61, LEAP59 (R313). -/
  utc : Option (Nat × Bool × Bool)
  deriving DecidableEq, Repr

/-- A change of rate held for the next Gheif cycle start (R309, R310). -/
structure HeldRate where
  freq : Option Int
  slew : Option Int
  deriving DecidableEq, Repr

/-- The timebase beside its registers (chapter 11). Times of day are in units of 2^-16 ns since the epoch. -/
structure Tmb where
  offset : Nat
  anchor : Nat
  freq : Int
  slew : Int
  /-- PENDING at the free-running count `pendAt`, in units of 2^-16 ns. -/
  pending : Int
  pendAt : Nat
  held : Option HeldRate
  /-- The slew of this cycle takes PENDING to 0 at the next cycle start (R309). -/
  lastCycle : Bool
  /-- Time of day at the start of the running Gheif cycle (R310). -/
  cycTod : Nat
  srcs : Tbl TmbSrc
  /-- Consecutive measurements of the active source within the precision (R310). -/
  trackGood : Nat
  /-- Time of day, in seconds, after which announced leap flags clear (R313). -/
  leapDay : Nat
  /-- Ordinal of the Gheif cycle whose time frame has been committed (R309). -/
  sentN : Option Nat
  deriving DecidableEq, Repr

/-- The content of a register bank, and of a saved context (R52). -/
structure Bank where
  pc : Nat
  /-- x1 to x31. -/
  x : Tbl DWord
  /-- f0 to f31. -/
  f : Tbl DWord
  fcsr : Word
  fs : Nat
  task : Nat
  deriving DecidableEq, Repr

/-- The states of a bank (R100). -/
inductive BankSt where
  | free
  | loading
  | preloaded
  | current
  | saving
  | held
  deriving DecidableEq, Repr

/-- Why a pair waits inside an access (R51, R140, R144). -/
inductive Stall where
  /-- A staged task waits for an absent page of its working set; the value is the user page number. -/
  | stage (page : Nat)
  /-- A background task waits for a demand fill. -/
  | fill (page : Nat)
  /-- A load, or an AMO or SC, waits on the rack bridge; `read`: a load. -/
  | rack (read : Bool)
  deriving DecidableEq, Repr

/-- One lock-step pair (chapter 2). -/
structure Pair where
  banks : Tbl Bank
  bst : Tbl BankSt
  cur : Nat
  curValid : Bool
  /-- The preloaded bank (PLX_BANK.PRE_VALID, PRE_BANK). -/
  pre : Option Nat
  view : Nat
  bankIdx : Nat
  bankErr : Bool
  /-- User mode; otherwise machine mode. -/
  umode : Bool
  /-- Waits in WFI, or in the hardware park when `hwPark`. -/
  wfi : Bool
  /-- The hardware park of R107 is where the pair stands or returns to. -/
  hwPark : Bool
  mstMie : Bool
  mstMpie : Bool
  /-- mstatus.MPP: true for 0b11 (machine), false for 0b00 (user). -/
  mstMpp : Bool
  mtvec : Nat
  mepc : Nat
  mcause : Nat
  mtval : Nat
  mscratch : Nat
  mieCsr : Nat
  mcounteren : Nat
  mcountinhibit : Nat
  mcycle : Nat
  minstret : Nat
  hpm3 : Nat
  hpm4 : Nat
  vbase : Nat
  ven : Bool
  /-- PLX_FENCE classes still waited on (R58). -/
  fence : Nat
  stall : Option Stall
  halted : Bool
  /-- Clocks stopped under R65 and kept for readout. -/
  frozen : Bool
  /-- PEEK found the cores to differ: no further dispatch until RESTART (R70). -/
  diverged : Bool
  /-- Reservation of LR: address of its 64-byte line (R59). -/
  resv : Option Nat
  trig : Tbl (Option Nat)
  /-- Address of the last instruction retired (R66). -/
  lastPc : Nat
  /-- The activation on the pair has ended in machine mode: the switch to the idle entry waits for MRET or WFI (R106, R107). -/
  parkDue : Bool
  /-- First machine-mode address after the last user-mode instruction, and the user pc of that entry (R53). -/
  entryM : Nat
  entryU : Nat
  cmpDawnOk : Bool
  cmpDue : Bool
  cmpPass : Nat
  /-- Operating-hours counter at the last comparator test, and hours already recorded as overdue (R63, R64). -/
  cmpLast : Nat
  cmpOverdue : Nat
  /-- End instant of a running self-test (R61). -/
  testing : Option Nat
  deriving DecidableEq, Repr

/-- A cycle-group descriptor (R20, R95). -/
structure Group where
  k : Nat
  phase : Nat
  frzOfs : Nat
  inBytes : Nat
  outBytes : Nat
  agrDl : Nat
  outClose : Nat
  outInst : Nat
  deriving DecidableEq, Repr

/-- A partition descriptor (R96). -/
structure Part where
  sramQuota : Nat
  ddrQuota : Nat
  unitMask : Nat
  faultLimit : Nat
  pflags : Nat
  deriving DecidableEq, Repr

/-- A task descriptor (R97). -/
structure Task where
  part : Nat
  cls : Nat
  maxSkip : Nat
  unit : Nat
  group : Nat
  outOfs : Nat
  outLen : Nat
  entry : Nat
  sp : Nat
  wsetFirst : Nat
  wsetCount : Nat
  deriving DecidableEq, Repr

/-- A window descriptor (R98). -/
structure Window where
  start : Nat
  budget : Nat
  task : Nat
  wflags : Nat
  deriving DecidableEq, Repr

/-- A working-set entry (R137). -/
structure WsEntry where
  seg : Nat
  count : Nat
  first : Nat
  deriving DecidableEq, Repr

/-- A schedule image (R93 to R98, R137). -/
structure Sched where
  schedId : Nat
  tgMt : Nat
  mfLog2 : Nat
  flags : Nat
  groups : List Group
  parts : List Part
  tasks : List Task
  windows : List Window
  wset : List WsEntry
  deriving DecidableEq, Repr

/-- Where an activation stands (HX_TASKSTAT.STATE; `stopped` is shown by HX_PARTSTAT). -/
inductive ActSt where
  | idle
  | running
  | paused
  | awaiting
  deriving DecidableEq, Repr

/-- What the HX keeps of a task: its saved context and its activation (R100 to R108). -/
structure TaskSt where
  st : ActSt
  cont : Nat
  /-- Execution time of the activation in fabric cycles, up to `since` (R115). -/
  exec : Nat
  since : Option Nat
  ctx : Bank
  /-- Version of each cycle group's agreed image that the activation reads (R111, R131), and its freeze cycle count. -/
  imgVer : List Nat
  frzCount : Nat
  deriving DecidableEq, Repr

/-- What the HX keeps of a unit, P0 to P3, LE0, LE1. -/
structure UnitSt where
  /-- Index of the window whose interval runs. -/
  win : Option Nat
  task : Nat
  /-- Budget end of the interval, as a macrotick of the cycle timer (`State.mt`), and microticks added to it by halts (R69). -/
  endMt : Nat
  ext : Nat
  /-- The instant of the last budget end that has been reached. -/
  endedAt : Option Nat
  /-- The window has opened: the switch has been made and its task may execute. -/
  opened : Bool
  /-- The activation ended in this window, or the window did not open. -/
  ended : Bool
  /-- START of the window. -/
  start : Nat
  /-- START of the most recent window that began, as a macrotick, and its index. -/
  lastStart : Option Nat
  lastWin : Nat
  /-- The start found the pair executing machine-mode code (R53). -/
  mm : Bool
  /-- A stopped task whose context is taken when the pair leaves machine mode (R106). -/
  saveDue : Option Nat
  /-- The running slack activation's task and the end of its quantum (R117). -/
  slack : Option (Nat × Nat)
  /-- Last background task given slack. -/
  slackLast : Nat
  /-- Task and bank of a slack context loading or preloaded. -/
  slackPre : Option (Nat × Nat)
  /-- Window whose context is loading or preloaded. -/
  preWin : Option Nat
  /-- The first instruction of the interval's activation, or of the quantum's, has executed (R115). -/
  began : Bool
  /-- Halted since (R69): moves the budget end on resume. -/
  haltedAt : Option Nat
  /-- Pages outside the working set that the window's task has been found to access (R141). -/
  seen : List Nat
  deriving DecidableEq, Repr

/-- The scheduling half of the executive beside its registers (chapter 4). -/
structure Hx where
  sched : Sched
  hasSched : Bool
  tasks : Tbl TaskSt
  units : Tbl UnitSt
  /-- Start of the running major frame, and whether one has begun since entry to Run or Service. -/
  frameStart : Nat
  /-- The macrotick of the cycle timer at which it began. -/
  frameMt : Nat
  frameOn : Bool
  /-- No major frame before this instant counts as the first one (R34). -/
  notBefore : Nat
  /-- Tasks whose output regions are zeroed at the next output close (R109). -/
  zero : List Nat
  /-- A schedule switch waits for the agreed boundary: image set and Gheif-cycle instant. -/
  switchPend : Option Nat
  deriving DecidableEq, Repr


/-- A segment descriptor of a program image (R128). -/
structure Seg where
  upage : Nat
  pages : Nat
  home : Nat
  rights : Nat
  init : Nat
  deriving DecidableEq, Repr

/-- What the HX page map holds of a user page (R128, R135 to R140, R152). -/
structure PageSt where
  /-- A HOME 3 page has been created; pages of the other homes always exist. -/
  exist : Bool
  /-- The pool frame that holds it. -/
  frame : Option Nat
  /-- DDR home page number. -/
  home : Option Nat
  written : Bool
  poisoned : Bool
  /-- Its frame was released because of an uncorrectable error: the next access counts as a stage miss (R152). -/
  lost : Bool
  pins : Nat
  last : Nat
  deriving DecidableEq, Repr

/-- Why a page transfer is asked for (R138, R142, R144). -/
inductive StageWhy where
  /-- Working set of a window. -/
  | window (w : Nat)
  /-- A staged task of a pair stalls on it (R140); served next. -/
  | miss (pair : Nat)
  /-- Demand fill of a background task of a pair (R144). -/
  | demand (pair : Nat)
  /-- PAGE_PREFETCH (R145). -/
  | prefetch
  /-- PAGE_FLUSH (R145). -/
  | flush
  /-- The scrubber writes a corrected line of a memory back (R138, R149). -/
  | scrub (m line : Nat)
  deriving DecidableEq, Repr

/-- One page waiting in the staging queue: partition and user page; `start` is the macrotick of the window's START. -/
structure StageReq where
  why : StageWhy
  part : Nat
  page : Nat
  start : Nat
  unit : Nat
  deriving DecidableEq, Repr

/-- The page operations of R145 that complete later. -/
inductive PageOpKind where
  | alloc
  | free
  | prefetch
  | flush
  deriving DecidableEq, Repr

/-- An accepted page operation still incomplete (R146). -/
structure PageOp where
  kind : PageOpKind
  part : Nat
  first : Nat
  count : Nat
  deriving DecidableEq, Repr

/-- Placed staging of one window (R139, R140), for its START at a macrotick. -/
structure StagedWin where
  win : Nat
  start : Nat
  part : Nat
  pages : List Nat
  deriving DecidableEq, Repr

/-- The memory half of the executive beside its registers (chapter 5). -/
structure Hxm where
  /-- Page map: key is partition * 2^20 + user page number. -/
  pages : Tbl PageSt
  /-- Free pool frames. -/
  free : List Nat
  /-- Retired-frame list (R151), kept in eMRAM. -/
  retired : List Nat
  /-- Next DDR home page never used yet, and home pages given back. -/
  homeNext : Nat
  homeFree : List Nat
  stq : List StageReq
  staged : List StagedWin
  ops : List PageOp
  /-- Instant at which the latest pass of each memory completed (R150); HXM_MEMERR.LAST_MEM numbering. -/
  passAt : Tbl Nat
  /-- Memories whose pass has completed since the last pass of all. -/
  passed : List Nat
  /-- SRAM frame * 128 + symbol position: consecutive passes that needed a correction there. -/
  sym : Tbl Nat
  /-- Pages poisoned at their home: DDR home page numbers and, from 2^24 on, program-store pages. -/
  homePoison : List Nat
  /-- Erroneous symbols that a read has corrected and not yet written back (R149); key is memory * 2^40 + line. -/
  latent : Tbl (List Nat)
  deriving DecidableEq, Repr

/-- What a credit queue holds beside its registers (R154 to R156). -/
structure QSt where
  /-- Write and read pointers, DEPTH_LOG2 + 1 bits. -/
  wr : Nat
  rd : Nat
  /-- Committed items not yet verified and visible. -/
  unver : Nat
  /-- Released slots whose credit has not returned. -/
  unret : Nat
  /-- Pointers of items discarded in place, which the read pointer passes over (R163). -/
  holes : List Nat
  /-- Origin stamp of the item in each slot (R163). -/
  stamps : Tbl Nat
  /-- The fabric cycle of the last pointer-error reset (R161). -/
  resetAt : Option Nat
  deriving DecidableEq, Repr

/-- The operator saved with LA when a bracket opens (R179). -/
inductive BrOp where
  | and
  | andn
  | or
  | orn
  | xor
  | xorn
  deriving DecidableEq, Repr

/-- A logic engine beside its registers and its memories, which lie in memory at its aperture (chapter 6). -/
structure Engine where
  wa : Word
  xr : Word
  bs : List (Bool × BrOp)
  cs : List Nat
  /-- Word address of the next instruction. -/
  pc : Nat
  /-- Engine cycles of the scan so far. -/
  cost : Nat
  /-- Start of the scan. -/
  start : Nat
  /-- Output-area bytes written in this scan (R173). -/
  shadow : Tbl Byte
  /-- Timer declarations of each bank: (timer, type + 4 * base). -/
  decl : Tbl (Tbl Nat)
  /-- Words of code in each bank. -/
  words : Tbl Nat
  cmpLast : Nat
  cmpOverdue : Nat
  testing : Option Nat
  /-- The engine cycle in which the engine last wrote a byte of its memories, and what the bytes written in it held before (R171); the same of
  the pairs' writes of marker memory. -/
  wrCyc : Nat
  wrOld : Tbl (Option Byte)
  prCyc : Nat
  prOld : Tbl (Option Byte)
  deriving DecidableEq, Repr

/-- A signal-map entry (R197). -/
structure SigEntry where
  kind : Nat
  group : Nat
  srcId : Nat
  imgOfs : Nat
  len : Nat
  qualOfs : Nat
  missLimit : Nat
  subst : Nat
  rejoin : Nat
  patOfs : Nat
  deriving DecidableEq, Repr

/-- An item of an input source: the item, its instant, and the number of Gheif cycle starts at or before it. -/
structure SrcItem where
  it : Item
  tm : Nat
  n : Nat
  deriving DecidableEq, Repr

/-- An input source of the signal map (R199), keyed by kind * 2^16 + source number. -/
structure Source where
  /-- The newest item, and the one before it, which a freeze at the newest item's own instant presents (R23). -/
  cur : Option SrcItem
  prev : Option SrcItem
  /-- Newest item received before the source became ABSENT. -/
  held : Option SrcItem
  /-- A new item has come since the last counting instant. -/
  fresh : Bool
  miss : Nat
  rejoin : Nat
  absent : Bool
  deriving DecidableEq, Repr

/-- A cycle group at work (R20 to R28). -/
structure GroupSt where
  /-- Freeze instant, its macrotick of the cycle timer, and freeze cycle count of the running task cycle; `on` once one has begun. -/
  frz : Nat
  frzMt : Nat
  /-- The module has started the group: it publishes and contributes in this task cycle (R240, R531). -/
  live : Bool
  frzCount : Nat
  on : Bool
  raw : Tbl Byte
  agreed : Tbl Byte
  /-- Number of publications; the newest agreed-image version. -/
  ver : Nat
  /-- Published and still the newest image of this task cycle. -/
  published : Bool
  closed : Bool
  /-- The vote of this task cycle is complete. -/
  voteDone : Bool
  offered : Tbl Byte
  voted : Tbl Byte
  /-- TASK_CYCLES of R201. -/
  taskCycles : Nat
  /-- Sequence number of the task cycle (R330, R345), and the time of day at its freeze. -/
  seq : Nat
  frzTod : Nat
  /-- Task cycle is marked: 0 agreed, 1 abstain, 2 unagreed (R223). -/
  marking : Nat
  contributors : Nat
  /-- The instant at which the group's range in each engine's input area is rewritten to the contributor set finally fixed (R222). -/
  leReady : Tbl Nat
  deriving DecidableEq, Repr

/-- A force (R211). -/
structure Force where
  ident : Nat
  typ : Nat
  space : Nat
  group : Nat
  ofs : Nat
  bit : Nat
  size : Nat
  value : Nat
  applied : Bool
  /-- A FORCE_CLEAR waits for its task cycle (R212). -/
  clearing : Bool
  deriving DecidableEq, Repr

/-- A retentive-block descriptor (R202); `prog` is the program identity it belongs to, `part` its partition. -/
structure RetBlock where
  ident : Nat
  addr : Nat
  len : Nat
  space : Nat
  group : Nat
  interval : Nat
  phase : Nat
  part : Nat
  prog : Nat
  deriving DecidableEq, Repr

/-- A snapshot in the save buffer waiting to be written (R203). -/
structure Snapshot where
  ident : Nat
  prog : Nat
  data : List Byte
  /-- HX_FRAME of the save. -/
  frame : Nat
  closing : Bool
  /-- Lines written so far, the header line among them. -/
  done : Nat
  /-- Where the copy is written, and its sequence number, once it has begun. -/
  place : Nat
  seq : Nat
  deriving DecidableEq, Repr

/-- A variable-table entry (R206); `part` below 256 is a partition, 256 and 257 the engines. -/
structure VarEntry where
  ident : Nat
  typ : Nat
  space : Nat
  group : Nat
  bit : Nat
  addr : Nat
  size : Nat
  part : Nat
  deriving DecidableEq, Repr

/-- A value carried over an online change (R207, R208). -/
structure Carried where
  ident : Nat
  unit : Nat
  data : List Byte
  deriving DecidableEq, Repr

/-- An online change or schedule switch accepted and not finished (R208). -/
structure Change where
  set : Nat
  /-- Agreed major-frame counter of the boundary, and its instant once known. -/
  bMfc : Nat
  /-- Changed partitions, and 256 + engine for changed engines. -/
  changed : List Nat
  copied : List Nat
  carried : List Carried
  /-- Change interval C_p of each changed unit in microticks (R209). -/
  cp : List (Nat × Nat)
  setup : List Nat
  switched : Bool
  bAt : Nat
  /-- Step 7 is done. -/
  notified : Bool
  deriving DecidableEq, Repr

/-- A WRITE_VAR waiting for its output close (R462). -/
structure VarWrite where
  ident : Nat
  ofs : Nat
  data : List Byte
  group : Nat
  deriving DecidableEq, Repr

/-- The cyclic programs (chapters 1 and 7). -/
structure Cyc where
  /-- Cycle count of the running Gheif cycle, its start, and number of cycle starts so far. -/
  count : Nat
  start : Nat
  n : Nat
  running : Bool
  groups : Tbl GroupSt
  /-- Agreed-image versions: key is group * 2^40 + version (R112). -/
  versions : Tbl (Tbl Byte)
  /-- Committed contributions: key is group * 2^16 + output-image offset (R27). -/
  committed : Tbl Byte
  /-- Working buffers: key is task * 2^16 + output-image offset. -/
  working : Tbl Byte
  sources : Tbl Source
  forces : List Force
  /-- Addresses of the copies of retentive blocks in eMRAM, whole or being written (R203). -/
  copies : List Nat
  saves : List Snapshot
  /-- Blocks whose snapshot was moved to a later output close (R203). -/
  savesMoved : List Nat
  change : Option Change
  startKind : Nat
  retInit : Bool
  changeGen : Nat
  /-- Identity of the last Run: CONFIG_ID and every program identity (R196). -/
  lastRun : List Nat
  /-- Stop was entered from Run or Hold and no image has been activated since (R196). -/
  resumeOk : Bool
  varWrites : List VarWrite
  /-- The Run state is being left: the closing save is not done (R205). -/
  leaving : Bool
  deriving DecidableEq, Repr

/-- A peer's DIG frame (R217): contributor mask, port-up bits and digest. -/
structure TlDig where
  mask : Nat
  ports : Nat
  digest : Nat
  deriving DecidableEq, Repr

/-- A peer's OUT frame (R217). -/
structure TlOut where
  abstain : Bool
  req : Nat
  csign : Nat
  hand : Nat
  image : List Byte
  deriving DecidableEq, Repr

/-- A CLAIM in progress (R231): claim instant, members whose countersignature it needs, and those that came in time. -/
structure Claim where
  oi : Nat
  need : List Nat
  got : List Nat
  deriving DecidableEq, Repr

/-- A planned handover (R237): holder, receiver, and the instant H once accepted. -/
structure Handover where
  frm : Nat
  rcv : Nat
  tm : Option Nat
  deriving DecidableEq, Repr

/-- The record of an output group's lease beside TVL_LSTAT and TVL_STAT.HELD (R229 to R237). Instants are of the model's clock. -/
structure Lease where
  /-- Recorded expiry E; none before any holder has been recorded. -/
  expiry : Option Nat
  /-- Own TVL copy: the adopted expiry. -/
  mine : Option Nat
  /-- Held without expiry (simplex). -/
  forever : Bool
  /-- E of the REQ in the OUT frame of the running and of the previous task cycle. -/
  reqNow : Option Nat
  reqPrev : Option Nat
  /-- CSIGN is due in the next OUT frame. -/
  sign : Bool
  /-- Instant at which the REL of the recorded holder came (R231). -/
  relAt : Nat
  claim : Option Claim
  hand : Option Handover
  /-- The module has joined a running VCU and not yet learned the group's holder (R240). -/
  unknown : Bool
  /-- The CLAIM of another member last seen: claimant and instant. -/
  seen : Option (Nat × Nat)
  /-- A peer's REQ for the group was seen in the last vote (R229). -/
  reqSeen : Bool
  deriving DecidableEq, Repr

/-- What the module knows of a peer position. -/
structure TlPeer where
  /-- Instant of the last frame received. -/
  last : Option Nat
  mstate : Nat
  /-- Consecutive agreements in which its RAW frame was missing at every other member (R236). -/
  missed : Nat
  /-- Removed from the member set, and the instant of its last frame then (R231). -/
  removed : Option Nat
  /-- Removed although its frames still say MEMBER: it comes back only after it has left that state (R227, R236). -/
  out : Bool
  /-- The last 16 CTRL, SYNC and REL frames taken (R215). -/
  taken : List TlFrame
  /-- The RAW, DIG and OUT frames taken in the running task cycles. -/
  copies : List TlFrame
  deriving DecidableEq, Repr

/-- Reintegration of a joiner, or service by the donor (R240). -/
structure Sync where
  /-- Groups the joiner has started, and the sync data received for the others. -/
  started : List Nat
  items : Tbl (List SyncItem)
  ready : List Nat
  /-- Donor: joiner position, and per group the earliest start of the major frame of its snapshot. -/
  joiner : Nat
  plan : Tbl (Option Nat)
  /-- Instant of entry to SYNC, or to PROBATION. -/
  since : Nat
  /-- PROBATION: start of the complete major frame, and its end. -/
  probEnd : Option Nat
  deriving DecidableEq, Repr


/-- A force change proposed for a task cycle (R242), and the positions that have acknowledged it. -/
structure ForceProp where
  mfc : Nat
  cc : Nat
  ident : Nat
  what : ForceWhat
  acks : List Nat
  deriving DecidableEq, Repr

/-- The TVL beside its registers (chapter 8). -/
structure Tvl where
  /-- Arbiter rank 3 has powered the lanes (R31). -/
  lanes : Bool
  /-- Peer frames of the running task cycles; key is group * 4 + position. -/
  raws : Tbl (Option (List Byte))
  digs : Tbl (Option TlDig)
  outs : Tbl (Option TlOut)
  /-- Own DIG frame of the running task cycle, per group. -/
  own : Tbl (Option TlDig)
  /-- Own contribution image of the vote has no voter; per group, the previous vote had none (R226). -/
  noVoter : Tbl Bool
  /-- Consecutive task cycles with a comparison mismatch, per group (R228). -/
  mism : Tbl Nat
  leases : Tbl Lease
  peers : Tbl TlPeer
  fseq : Nat
  /-- Consecutive frames of a port that failed their check (R216). -/
  bad : Tbl Nat
  /-- The link has gone down and no agreement has judged it yet (R236). -/
  fresh : Tbl Bool
  upAt : Tbl Nat
  /-- The port whose link excluded this module (R236). -/
  exclPort : Option Nat
  /-- Operating-hours counter at the exclusions (R239). -/
  exclAt : List Nat
  /-- REINTEGRATE has been received while EXCLUDED (R239). -/
  reint : Bool
  /-- The positions whose identities or SYS_CAP0 differ (R239). -/
  differs : List Nat
  /-- Joint Run entry (R242): ordinal of the Gheif cycle start that is the boundary, the instant of sending or
  acknowledging it, and the positions that take part. -/
  boundary : Option (Nat × Nat × List Nat)
  sync : Sync
  /-- Last presence frame of the duplex peer, or last qualifying Gheif frame (R231). -/
  witness : Nat
  /-- Force proposals waiting for acknowledgement (R212, R242): MFC, CCOUNT, identity, value and acknowledgements. -/
  forceProp : List ForceProp
  activateAcks : List Nat
  /-- CTRL and SYNC frames that wait for the end of an agreement or vote interval (R218): type and bytes. -/
  waitTx : List (Nat × List Byte)
  /-- Output groups that this module is to take back from its duplex peer (R241). -/
  takeBack : List Nat
  deriving DecidableEq, Repr

def Lease.none : Lease :=
  { expiry := Option.none, mine := Option.none, forever := false, reqNow := Option.none, reqPrev := Option.none, sign := false, relAt := 0,
    claim := Option.none, hand := Option.none, unknown := false, seen := Option.none, reqSeen := false }
def leaseD (_ : Nat) : Lease := Lease.none
def TlPeer.none : TlPeer := ⟨Option.none, 0, 0, Option.none, false, [], []⟩
def peerD (_ : Nat) : TlPeer := TlPeer.none
def Sync.none : Sync := ⟨[], [], [], 0, [], 0, Option.none⟩
def Tvl.reset : Tvl :=
  { lanes := false, raws := [], digs := [], outs := [], own := [], noVoter := [], mism := [], leases := [], peers := [],
    fseq := 0, bad := [], fresh := [], upAt := [], exclPort := none, exclAt := [], reint := false, differs := [], boundary := none,
    sync := Sync.none, witness := 0, forceProp := [], activateAcks := [], waitTx := [], takeBack := [] }

/-- An agreement-map entry (R219). -/
structure AgrEntry where
  ofs : Nat
  len : Nat
  cls : Nat
  two : Nat
  deriving DecidableEq, Repr


/-- A node block of the Gheif section (R285). -/
structure GhNode where
  syncId : Nat
  flags : Nat
  permit : Nat
  delayA : Nat
  delayB : Nat
  deriving DecidableEq, Repr

/-- A slot descriptor (R287). -/
structure SlotDesc where
  id : Nat
  txPos : Nat
  ogrp : Nat
  plen : Nat
  dchan : Nat
  swap : Nat
  txmode : Nat
  srcOfs : Nat
  queue : Nat
  sflags : Nat
  rxbuf : Nat
  deriving DecidableEq, Repr

/-- The Gheif section of the configuration image (R284 to R287). -/
structure Cluster where
  tg : Nat
  sw : Nat
  nStatic : Nat
  slot : Nat
  ap : Nat
  tail : Nat
  nMini : Nat
  ms : Nat
  msAp : Nat
  dynFirst : Nat
  pi : Nat
  ofsLimit : Nat
  rateLimit : Nat
  syncMin : Nat
  csNodes : Nat
  listen : Nat
  backoff : Nat
  csAttempts : Nat
  passiveReturn : Nat
  passiveMax : Nat
  modeAlign : Nat
  startMode : Nat
  modes : Nat
  nodes : List GhNode
  /-- Slot ID at mode * 4096 + channel * 2048 + position; 0: none. -/
  table : Tbl Nat
  slots : List SlotDesc
  deriving DecidableEq, Repr

/-- The current item of a slot ID (R289). -/
structure GhItem where
  cc : Nat
  ch : Nat
  /-- The position in which the frame came (R281): the static position, or 1,024 and the minislot at which the dynamic slot began. -/
  pos : Nat
  it : Item
  deriving DecidableEq, Repr

/-- The first copy of a slot ID handled in the running Gheif cycle (R290), with the ID's items before it and whether it was a null
frame. -/
structure GhFirst where
  ch : Nat
  tm : Nat
  null : Bool
  data : List Byte
  deriving DecidableEq, Repr

/-- A transmission that the guardian lets through (R277): slot ID, position, start, end, and the instant at which its window closes. -/
structure GhTx where
  id : Nat
  pos : Nat
  start : Nat
  stop : Nat
  close : Nat
  deriving DecidableEq, Repr

/-- What an accepted sync frame of the running cycle said (R252, R260). -/
structure GhSync where
  id : Nat
  ch : Nat
  dev : Int
  startup : Bool
  leader : Nat
  mreq : Bool
  mode : Nat
  modeAt : Nat
  deriving DecidableEq, Repr

/-- The Gheif protocol engine, its controller and its guardian beside their registers (chapters 9 and 10). -/
structure Gh where
  /-- Start and length of the listen timer (R268). -/
  listenAt : Nat
  listenLen : Nat
  /-- Start of the last CAS heard or sent. -/
  casAt : Option Nat
  /-- LEADER of a running cold start; 0 otherwise. -/
  leader : Nat
  /-- Entered from a start frame, as a cold-start follower. -/
  follower : Bool
  /-- Own start frame, and own startup frame of cycle 1, accepted from the own receiver (R272). -/
  ownStart : Bool
  ownOne : Bool
  /-- Consecutive good cycles of an integrating node, and whether a whole cycle has been observed. -/
  integGood : Nat
  integWhole : Bool
  /-- Start and count forced on the next Gheif cycle (R270, R17). -/
  nextCycle : Option (Nat × Nat)
  /-- Start and count of the cluster's running Gheif cycle while the cycle timer still moves toward it in the Run state (R266). -/
  own : Option (Nat × Nat)
  /-- End of the last activity on each channel (R248). -/
  lineAt : Tbl Nat
  /-- The position, plus 1, in which each channel carried the last accepted frame of this cycle; 0: none (R282). -/
  lastPos : Tbl Nat
  /-- Sync frames accepted in this cycle and in the preceding one. -/
  syncs : List GhSync
  prevSyncs : List GhSync
  ownSync : Bool
  prevOwn : Bool
  /-- Offset term of this and of the preceding cycle, and the rate term in force in this cycle. -/
  ofs : Int
  prevOfs : Int
  rate : Int
  rateNow : Int
  corrected : Bool
  /-- R264: a condition held in this cycle, and the offset term's among them (R268); consecutive good and PASSIVE cycles. -/
  passiveNext : Bool
  ofsBad : Bool
  good : Nat
  passive : Nat
  /-- Proposal sent or endorsed (R273): mode, MODE_AT, and whether this node is the proposer; the cycle count at which it was
  made, after which it is sent. -/
  prop : Option (Nat × Nat × Bool)
  propN : Nat
  judged : Bool
  /-- Sync frames of this and of the preceding cycle that failed only the mode check (R275): slot ID and mode. -/
  modeErr : List (Nat × Nat)
  prevModeErr : List (Nat × Nat)
  /-- The node follows a mode and sends nothing in this cycle. -/
  mute : Bool
  /-- Dynamic slot running on each channel: its ID and the macrotick of the cycle at which it began; and the next one's (R258). -/
  dynCur : Tbl (Option (Nat × Nat))
  dynNext : Tbl (Option (Nat × Nat))
  items : Tbl (Option GhItem)
  first : Tbl (Option GhFirst)
  /-- IDs with a new item stored in this Gheif cycle (R292). -/
  fresh : List Nat
  /-- Transmit: single items taken, hold items kept, ranges released for bound IDs (R293, R294). -/
  single : Tbl (Option Item)
  hold : Tbl (Option Item)
  bound : Tbl (Option Item)
  /-- Slot ID * 2 + channel: the item or release held for the ID has been sent on that channel. -/
  sent : List Nat
  /-- Transmission running on a channel. -/
  sending : Tbl (Option GhTx)
  /-- Guardian: consecutive accepted strobes since the drivers were disabled; none while anchored. -/
  gOk : Option Nat
  /-- Guardian: the last cycle-start strobe, from which it expects the next one (R276). -/
  gAt : Option Nat
  bufdata : List Byte
  deriving DecidableEq, Repr

def Gh.reset : Gh :=
  { listenAt := 0, listenLen := 0, casAt := none, leader := 0, follower := false, ownStart := false, ownOne := false, integGood := 0,
    integWhole := false, nextCycle := none, own := none, lineAt := [], lastPos := [], syncs := [], prevSyncs := [], ownSync := false, prevOwn := false, ofs := 0, prevOfs := 0, rate := 0,
    rateNow := 0, corrected := false, passiveNext := false, ofsBad := false, good := 0, passive := 0, prop := none, propN := 0,
    judged := false, modeErr := [], prevModeErr := [], mute := false, dynCur := [], dynNext := [], items := [], first := [], fresh := [], single := [], hold := [],
    bound := [], sent := [], sending := [], gOk := none, gAt := none, bufdata := [] }


/-- A telegram entry of the process-data engine (R327). -/
structure Telegram where
  dir : Nat
  ports : Nat
  ogrp : Nat
  queue : Nat
  comId : Nat
  dstIp : Nat
  srcIp : Nat
  srcMask : Nat
  dstMac : List Byte
  tag : Nat
  dlen : Nat
  srcOfs : Nat
  period : Nat
  phase : Nat
  launchUs : Nat
  swap : Nat
  topo : Nat
  deriving DecidableEq, Repr

/-- A software transmit item taken from its queue and checked (R321): port, frame, launch stamp, and a launch time that has come. -/
structure TxHead where
  port : Nat
  frame : List Byte
  launch : Option Nat
  ready : Bool
  deriving DecidableEq, Repr

/-- A telegram due (R330 to R332): dataset, sequence counter, topography counters, launch instant, ports still to send it on, and
whether its launch instant has come. -/
structure PdDue where
  it : Item
  seq : Nat
  launch : Nat
  ports : Nat
  ready : Bool
  /-- etbTopoCnt and opTrnTopoCnt as they read when the assembly began. -/
  etb : Nat
  opt : Nat
  /-- First copy not yet sent. -/
  unsent : Bool
  deriving DecidableEq, Repr

/-- The current item of a subscribe entry (R334) and its sequence reference (R333). -/
structure PdItem where
  port : Nat
  /-- The instant at which it was accepted, and the 16-byte prefix with the dataset. -/
  tm : Nat
  it : Item
  deriving DecidableEq, Repr

/-- What the supervisor's PTP instance keeps of a port (R325, R326). Times of day in units of 2^-16 ns. -/
structure PtpPort where
  /-- Last Sync: source port identity, sequenceId, ingress time t2, correction, and t1 once known. -/
  sync : Option (List Byte × Nat × Nat × Int × Option Nat)
  /-- A measurement waits to be delivered. -/
  due : Bool
  /-- Egress time t3 and sequenceId of the last Delay_Req sent. -/
  req : Option (Nat × Nat)
  /-- Announce data of the master, once received: currentUtcOffset pattern, LEAP61, LEAP59. -/
  utc : Option (Nat × Bool × Bool)
  /-- Messages of the instance waiting to be sent. -/
  tx : List (List Byte)
  deriving DecidableEq, Repr

/-- The Ethernet block beside its registers (chapter 12). -/
structure Eth where
  /-- End of the frame running on each port. -/
  busy : Tbl Nat
  /-- Entry at the head of each software queue. -/
  heads : Tbl (Option TxHead)
  due : Tbl (Option PdDue)
  /-- Kept dataset and next sequence counter of each unbound telegram (R331). -/
  held : Tbl (Option Item)
  seqs : Tbl Nat
  items : Tbl (Option PdItem)
  refs : Tbl (Option Nat)
  /-- Consecutive telegrams rejected by the order check. -/
  late : Tbl Nat
  ptp : Tbl PtpPort
  /-- Egress time of the last event message of each port. -/
  egress : Tbl Nat
  /-- Frames that have been deferred and counted (R322): port + 4 * (class + 4 * number). -/
  deferred : List Nat
  deriving DecidableEq, Repr

def PtpPort.none : PtpPort := ⟨Option.none, false, Option.none, Option.none, []⟩
def ptpD (_ : Nat) : PtpPort := PtpPort.none
def Eth.reset : Eth := ⟨[], [], [], [], [], [], [], [], [], [], []⟩

/-- A connection descriptor of the Ixsum engine (R341). -/
structure IxsConn where
  connId : Nat
  sid : Nat
  role : Nat
  carrier : Nat
  centry : Nat
  dlen : Nat
  ogrp : Nat
  queue : Nat
  msgOfs : Nat
  seqWin : Nat
  tExpUs : Nat
  futUs : Nat
  rejoinN : Nat
  errMax : Nat
  errWinS : Nat
  ackReq : Bool
  deriving DecidableEq, Repr

/-- A consumer connection beside its registers (R347 to R350). -/
structure IxsCon where
  /-- REF is set, or a message has been sent; IXS_CSSN holds its number. -/
  hasRef : Bool
  /-- TSTAMP and data of the newest accepted message. -/
  tstamp : Nat
  data : List Byte
  /-- The next accepted message is the first since the connection became VALID. -/
  first : Bool
  /-- No message has been accepted since NOT_VALID or FAILSAFE was entered. -/
  entered : Bool
  /-- FRC at which the running error-rate window began, and the check failures counted in it (R350). -/
  win : Nat
  errs : Nat
  /-- The fabric cycle in which ACK_PEND was last set (R353). -/
  ackSet : Option Nat
  deriving DecidableEq, Repr

def IxsCon.reset : IxsCon := ⟨false, 0, [], true, true, 0, 0, none⟩
def ixsD (_ : Nat) : IxsCon := IxsCon.reset

/-- A CAN controller beside its registers and its message RAM, which lies in memory at its aperture (chapter 14). -/
structure Can where
  /-- The transmission running: buffer 0 to 31, or 32 for the head of the transmit queue. -/
  started : Option Nat
  /-- A cancellation of it came too late (R371). -/
  lateCancel : Bool
  tec : Nat
  recv : Nat
  /-- Transit check of a pending buffer (R162, R368). -/
  tchk : Tbl Nat
  /-- Launch instant of a bound buffer's content, on the module's clock. -/
  launch : Tbl (Option Nat)
  /-- Origin stamp of a pending buffer's content (R163). -/
  stamps : Tbl Nat
  /-- Candidates that no launch time holds: pending buffers, and 32 for the head of the transmit queue (R314, R370). -/
  ready : List Nat
  /-- The head of the transmit queue that has been judged under R314: its pointer. -/
  headPtr : Option Nat
  /-- A release that waits until the buffer's frame ends (R376), with its launch instant. -/
  next : Tbl (Option (Item × Option Nat))
  /-- Half of each latch buffer that is current; elements that hold an item. -/
  half : Tbl Bool
  latched : List Nat
  deriving DecidableEq, Repr

def Can.reset : Can := ⟨none, false, 0, 0, [], [], [], [], none, [], [], []⟩
def canD (_ : Nat) : Can := Can.reset

/-- A list entry of the rack bridge (R390). -/
structure RackEntry where
  dir : Nat
  ogrp : Nat
  conv : Nat
  addr : Nat
  len : Nat
  srcOfs : Nat
  startUs : Nat
  deriving DecidableEq, Repr

/-- What an outbound transaction is for (R383 to R386, R391, R392). -/
inductive RackKind where
  | read (d : RackLd)
  | write
  | amo (op : AmoOp) (v : DWord) (d : RackLd)
  | lr (d : RackLd)
  | sc (d : RackLd)
  | readList (e : Nat)
  | writeList (e : Nat)
  deriving DecidableEq, Repr

/-- One rack cycle still to be made: byte address, write, strobes, data, and whether the bus is held into the next one. -/
structure RackCyc where
  addr : Nat
  wr : Bool
  ub : Bool
  lb : Bool
  data : Nat
  hold : Bool
  deriving DecidableEq, Repr

/-- An outbound transaction: its kind, pair, rack address and size, acceptance instant, cycles to come and halfwords read. -/
structure RackTx where
  kind : RackKind
  pair : Nat
  addr : Nat
  size : Nat
  acc : Nat
  cycles : List RackCyc
  got : List Nat
  /-- The load has been abandoned by its pair (R51). -/
  left : Bool
  deriving DecidableEq, Repr

/-- Data held for a pair that abandoned its load (R383). -/
structure RackHeld where
  addr : Nat
  size : Nat
  value : Nat
  tm : Nat
  deriving DecidableEq, Repr

/-- A pair's prefetch buffer (R389): unconsumed and consumed halfwords by address, and the instant it was filled. -/
structure Prefetch where
  halves : List (Nat × Nat)
  fresh : List Nat
  tm : Nat
  deriving DecidableEq, Repr

/-- The rack bridge beside its registers (chapter 15). -/
structure Lrb where
  run : Option RackTx
  /-- The running transaction's cycle is open. -/
  open_ : Bool
  waiting : List RackTx
  /-- List entries due, in the order they run. -/
  lists : List RackTx
  /-- Word and expiry of the semaphore; its pair stands in LRB_STAT. -/
  semAddr : Nat
  semTill : Nat
  held : Tbl (Option RackHeld)
  pf : Tbl (Option Prefetch)
  lastBoard : Nat
  /-- Start of the board's open cycle, and of its lock. -/
  boardAt : Option Nat
  lockAt : Option Nat
  /-- The next tenure waits for an acknowledge still held (R395). -/
  defer : Bool
  deriving DecidableEq, Repr

def Lrb.reset : Lrb := ⟨none, false, [], [], 0, 0, [], [], 3, none, none, false⟩

/-- A local safety input beside its registers (R402, R403). -/
structure Di where
  /-- Channel X's run of consecutive unblanked samples: the state shown and the count. -/
  runSt : Bool
  run : Nat
  /-- Instant of the last sample. -/
  sampled : Option Nat
  /-- Channel X reads a wire break, and channel Y does (R398). -/
  wb : Bool
  wbY : Bool
  cross : Bool
  /-- A sample of the running pulse's checked span read OFF or ON, or TRANSITION. -/
  seen : Bool
  seenTr : Bool
  disc : Bool
  /-- Start of the running discrepancy timer. -/
  discAt : Option Nat
  /-- Origin stamp of the last change of the combined value (R403). -/
  stamp : Nat
  deriving DecidableEq, Repr

/-- A test-pulse supply (R399, R400). -/
structure Tp where
  on : Bool
  /-- Start of the running pulse. -/
  pulse : Option Nat
  /-- End of the last pulse. -/
  ended : Option Nat
  good : Nat
  deriving DecidableEq, Repr

/-- A local safety output beside its registers (R409 to R413). -/
structure Dout where
  /-- Latched fault, as SIO_DOSTAT.FAULT codes it. -/
  latch : Option Nat
  /-- Retries made, and a retry is driving the output in spite of its latch (R411). -/
  retries : Nat
  retrying : Bool
  offAt : Nat
  /-- Instant at which the commanded value reaches the drive (R409, R415). -/
  swAt : Option Nat
  /-- Instant of the last commanded change. -/
  chgAt : Nat
  /-- Instant since which the output is ON without an output test. -/
  onSince : Option Nat
  /-- Start of a running output test. -/
  testAt : Option Nat
  deriving DecidableEq, Repr

/-- The local safety I/O beside its registers (chapter 16). -/
structure Sio where
  dis : Tbl Di
  tps : Tbl Tp
  dos : Tbl Dout
  /-- Start of channel Y's unbroken delivery, and its last state's instant (R405). -/
  ySince : Option Nat
  yLast : Nat
  deriving DecidableEq, Repr

def Di.reset : Di := ⟨false, 0, none, false, false, false, false, false, false, none, 0⟩
def diD (_ : Nat) : Di := Di.reset
def Tp.reset : Tp := ⟨true, none, none, 0⟩
def tpD (_ : Nat) : Tp := Tp.reset
def Dout.reset : Dout := ⟨none, 0, false, 0, none, 0, none, none⟩
def doutD (_ : Nat) : Dout := Dout.reset
def Sio.reset : Sio := ⟨[], [], [], none, 0⟩


/-- The module states of R433. -/
inductive MState where
  | night
  | dawn
  | config
  | stop
  | run
  | hold
  | service
  | dusk
  | midnight
  deriving DecidableEq, Repr

/-- A packet as sent: header fields and payload (R443). -/
structure Packet where
  opc : Nat
  flags : Nat
  seq : Nat
  src : Nat
  status : Nat
  payload : List Byte
  /-- COUNTER of the request for a tagged reply (R450). -/
  counter : Option Nat
  deriving DecidableEq, Repr

/-- What the supervisor keeps of an origin's last request (R445). -/
structure LastReq where
  seq : Nat
  trailer : Nat
  reply : Packet
  deriving DecidableEq, Repr

/-- A long operation in progress (R446, R447): the opcode of the request, its origin and SEQ, and what it waits for. -/
structure LongOp where
  opc : Nat
  origin : Origin
  seq : Nat
  trailer : Nat
  counter : Option Nat
  /-- Outcome once known: status and result data or error block. -/
  outcome : Option (Nat × List Byte)
  /-- Opcode parameter: target state, boundary, image set and the like. -/
  arg : Nat
  arg2 : Nat
  deriving DecidableEq, Repr

/-- A configuration session (R448). -/
structure CfgSession where
  owner : Origin
  imageLen : Nat
  bytes : Tbl Byte
  lastAt : Nat
  deriving DecidableEq, Repr

/-- A load session (R448). -/
structure LoadSession where
  owner : Origin
  set : Nat
  setLen : Nat
  lastAt : Nat
  deriving DecidableEq, Repr

/-- An image set of the program store (R458). -/
structure ImageSet where
  bytes : Tbl Byte
  len : Nat
  verified : Bool
  damaged : Bool
  digest : List Byte
  deriving DecidableEq, Repr

/-- Authentication failures of one IPv4 source (R452). -/
structure AuthFail where
  ip : Nat
  times : List Nat
  lockedTill : Option Nat
  deriving DecidableEq, Repr

/-- The supervisor beside its registers (chapter 18). -/
structure Sup where
  st : MState
  fromDusk : Bool
  faultLatch : Bool
  duskCause : Nat
  /-- Start cause: 0 power, 1 RESTART, 2 RST_N, 3 wake (R446). -/
  startCause : Nat
  wakeBit : Nat
  warm : Bool
  /-- RESTART target: 0 Stop, 1 Run, 2 as the Dawn sequence decides. -/
  target : Nat
  /-- The last request of each origin (R445). -/
  lasts : List (Origin × LastReq)
  /-- Waiting SCP packets, replies before notices is decided at the fetch (R441); true marks an unsolicited notice. -/
  waiting : List (Packet × Bool)
  noticeCount : Nat
  dropped : Nat
  cfgSess : Option CfgSession
  loadSess : Option LoadSession
  longOp : Option LongOp
  activeSet : Option Nat
  sets : Tbl ImageSet
  /-- Provisioned HMAC key (R451): KEY_ID and key. -/
  hmacId : Nat
  hmacKey : List Byte
  counters : Tbl Nat
  authFails : List AuthFail
  scpBusyViol : Nat
  scpPartial : Nat
  scpWakeFrame : Nat
  sready : Bool
  svcDet : Bool
  /-- Firmware: version, staged boot image, and the catalogue of R473. -/
  fwVersion : Nat
  fwStaged : Tbl Byte
  fwNext : Option Nat
  catalogue : List CatEntry
  /-- Last start kind: 0 cold, 1 warm, 2 resume, 0xFF none (R460). -/
  lastStart : Nat
  /-- The stored sealed configuration image, and the identity sealed at the last activation (R9, R196). -/
  cfgImage : Tbl Byte
  cfgLen : Nat
  /-- SCHED_ID of the schedule image that the sealed configuration names, or of the one that ACTIVATE has put in its place since (R93, R118). -/
  schedId : Nat
  /-- Ethernet requests held (R452) and local submissions waiting (R453). -/
  ethHeld : Nat
  portWait : Nat
  deriving DecidableEq, Repr

def Bank.zero : Bank := ⟨0, [], [], 0, 0, 0⟩
def BankSt.at0 (b : Nat) : BankSt := if b = 0 then .current else .free
def bankD (_ : Nat) : Bank := Bank.zero
def dwordD (_ : Nat) : DWord := 0
def wordD (_ : Nat) : Word := 0
def byteD (_ : Nat) : Byte := 0
def natD (_ : Nat) : Nat := 0
def boolD (_ : Nat) : Bool := false
def noneD {α : Type} (_ : Nat) : Option α := none
def nilD {α : Type} (_ : Nat) : List α := []

/-- A pair at the start of a Dawn sequence (R44, R107): in the hardware park, CSRs at their reset values. -/
def Pair.reset : Pair :=
  { banks := [], bst := [], cur := 0, curValid := false, pre := none, view := 0, bankIdx := 0, bankErr := false,
    umode := false, wfi := true, hwPark := true, mstMie := false, mstMpie := false, mstMpp := false, mtvec := 0,
    mepc := 0, mcause := 0, mtval := 0, mscratch := 0, mieCsr := 0, mcounteren := 0, mcountinhibit := 0, mcycle := 0,
    minstret := 0, hpm3 := 0, hpm4 := 0, vbase := 0, ven := false, fence := 0, stall := none, halted := false,
    frozen := false, diverged := false, resv := none, trig := [], lastPc := 0, parkDue := false, entryM := 0, entryU := 0, cmpDawnOk := false,
    cmpDue := false, cmpPass := 0, cmpLast := 0, cmpOverdue := 0, testing := none }
def pairD (_ : Nat) : Pair := Pair.reset

def TaskSt.reset : TaskSt :=
  { st := .idle, cont := 0, exec := 0, since := none, ctx := Bank.zero, imgVer := [], frzCount := 0 }
def taskD (_ : Nat) : TaskSt := TaskSt.reset

def UnitSt.reset : UnitSt :=
  { win := none, task := 0, endMt := 0, ext := 0, endedAt := none, opened := false, ended := true, start := 0, lastStart := none, lastWin := 0, mm := false,
    saveDue := none, slack := none, slackLast := 0x3FF, slackPre := none, preWin := none, began := false, haltedAt := none, seen := [] }
def unitD (_ : Nat) : UnitSt := UnitSt.reset

def Sched.none : Sched := ⟨0, 0, 0, 0, [], [], [], [], []⟩
def PageSt.absent : PageSt := ⟨false, Option.none, Option.none, false, false, false, 0, 0⟩
def pageD (_ : Nat) : PageSt := PageSt.absent
def QSt.zero : QSt := ⟨0, 0, 0, 0, [], [], Option.none⟩
def qD (_ : Nat) : QSt := QSt.zero

def Engine.reset : Engine := ⟨0, 0, [], [], 0, 0, 0, [], [], [], 0, 0, Option.none, 0, [], 0, []⟩
def engineD (_ : Nat) : Engine := Engine.reset

def GroupSt.reset : GroupSt :=
  { frz := 0, frzMt := 0, live := false, frzCount := 0, on := false, raw := [], agreed := [], ver := 0, published := false, closed := false,
    voteDone := false, offered := [], voted := [], taskCycles := 0, seq := 0, frzTod := 0, marking := 0, contributors := 0, leReady := [] }
def groupD (_ : Nat) : GroupSt := GroupSt.reset
def Source.reset : Source := ⟨Option.none, Option.none, Option.none, false, 0, 0, false⟩
def sourceD (_ : Nat) : Source := Source.reset
def TmbSrc.reset : TmbSrc := ⟨Option.none, Option.none, Option.none, Option.none, 0, 0, 0, 0, Option.none⟩
def tmbSrcD (_ : Nat) : TmbSrc := TmbSrc.reset
def settingD (_ : Nat) : RecSetting := ⟨Option.none, Option.none⟩
def ImageSet.empty : ImageSet := ⟨[], 0, false, false, List.replicate 32 0⟩
def imageSetD (_ : Nat) : ImageSet := ImageSet.empty
def Tmb.reset : Tmb :=
  { offset := 0, anchor := 0, freq := 0, slew := 0, pending := 0, pendAt := 0, held := none, lastCycle := false, cycTod := 0, srcs := [],
    trackGood := 0, leapDay := 0, sentN := none }

/-- The interfaces of the module over which something leaves it. -/
inductive Iface where
  | triLink
  | gheif
  | ethernet
  | can
  | rack
  | scp
  | ready
  deriving DecidableEq, Repr

/-- One thing that left the module: interface, unit (port, channel, controller), a number that says what it is, its instant and bytes. -/
structure Emit where
  iface : Iface
  unit : Nat
  kind : Nat
  tm : Nat
  data : List Byte
  deriving DecidableEq, Repr


/-- The sealed configuration as far as it does not stand in registers (R456). -/
structure Cfg where
  /-- TG_MT of the cluster block of the Gheif section; 0 without a cluster (R16). -/
  tgMt : Nat
  /-- Agreement maps by cycle group (R219). -/
  agr : Tbl (List AgrEntry)
  sigs : List SigEntry
  subst : List Byte
  /-- Input pairs of two-channel sensors (R401). -/
  diPairs : List (Nat × Nat)
  cluster : Option Cluster
  /-- Telegram entries by index (R327). -/
  telegrams : Tbl (Option Telegram)
  /-- Connections by number (R341). -/
  conns : Tbl (Option IxsConn)
  /-- What the image holds for the CAN message RAMs: key is controller * 16384 + RAM offset (R361). -/
  canRam : Tbl Byte
  /-- List entries of the rack bridge by number (R390). -/
  rack : Tbl (Option RackEntry)
  deriving DecidableEq, Repr

def Cfg.none : Cfg := ⟨0, [], [], [], [], Option.none, [], [], [], []⟩


/-- The active image set as the executive uses it (R128, R202, R206, R456). -/
structure Progs where
  /-- Image set 0 (A) or 1 (B). -/
  set : Nat
  /-- Segment table of each partition, and the page offset of its program image in the set. -/
  segs : Tbl (List Seg)
  base : Tbl Nat
  blocks : List RetBlock
  vars : List VarEntry
  /-- Program identities: partitions, and 256 + engine. -/
  idents : Tbl Nat
  deriving DecidableEq, Repr

def Progs.none : Progs := ⟨0, [], [], [], [], []⟩


/-- Why a step stops: nothing does. Every command has an effect, if only an error response (R7), and no access ends the machine, so no
constructor is needed. -/
inductive Fault where
  deriving DecidableEq, Repr

/-- Why a command has no meaning. -/
inductive Refusal where
  /-- Raised by the dispatcher's arms for a command that is not modelled. Safe. -/
  | notModelled (mnemonic : String)
  deriving DecidableEq, Repr

/-- The state of the block. -/
structure State where
  ident : Ident
  clk : Clk
  regs : Tbl Word
  mem : Tbl Byte
  /-- 64-byte lines holding an uncorrectable error or poisoned (R152, R189). -/
  poison : List Nat
  pairs : Tbl Pair
  vdx : Vdx
  hx : Hx
  hxm : Hxm
  queues : Tbl QSt
  engines : Tbl Engine
  cyc : Cyc
  cfg : Cfg
  prog : Progs
  tvl : Tvl
  gh : Gh
  tmb : Tmb
  sup : Sup
  rcd : Rec
  pwr : Pwr
  sio : Sio
  eth : Eth
  ixs : Tbl IxsCon
  can : Tbl Can
  lrb : Lrb
  /-- What has left the module, oldest first: the model's own record of frames sent and packets handed over. -/
  out : List Emit
  /-- Counter of free values taken: the model's own. -/
  freeCtr : Nat
  pending : List Instr
  deriving DecidableEq, Repr


/-- A catalogue entry without a default register snapshot: name, number, severity, ALWAYS, FIXED_SNAP, unit, BURST and PERIOD_MS. -/
def catRow (c : RCode) (num sev : Nat) (always fixed : Bool) (unit burst period : Nat) : CatEntry :=
  ⟨c, num, sev, always, fixed, unit, burst, period, []⟩

/-- Part 1 of the catalogue. -/
def catalogue0 : List CatEntry := [
  catRow .POWER_ON 0x001 0 true false 0x00 4 0,
  catRow .SUPPLY_FAIL 0x002 2 true false 0x00 4 0,
  catRow .RECORDER_OVERFLOW 0x003 2 true false 0x00 4 0,
  catRow .STATE_CHANGE 0x020 0 true false 0x10 4 0,
  catRow .DUSK_ENTER 0x021 2 true false 0x10 4 0,
  catRow .CMD_REFUSED 0x022 1 false false 0x10 4 250,
  catRow .CMD_ACCEPTED 0x023 0 false false 0x10 4 0,
  catRow .CFG_WRITE_REFUSED 0x024 1 false false 0x10 4 250,
  catRow .IMAGESET_DAMAGED 0x025 2 false false 0x10 4 0,
  catRow .AUTH_LOCKOUT 0x026 1 false false 0x10 4 0,
  catRow .LOCAL_ORIGIN 0x027 0 false false 0x10 4 0,
  catRow .POS_CHANGED 0x028 1 false false 0x10 4 0,
  catRow .NOT_CONNECTED 0x029 1 false false 0x10 4 0,
  catRow .PAIR_MISMATCH 0x080 2 true true 0x20 4 0,
  catRow .CMP_SELFTEST_FAIL 0x081 2 false false 0x20 4 0,
  catRow .PAIR_DEBUG_DIVERGE 0x082 2 false false 0x20 4 0,
  catRow .MTVEC_UNSET 0x083 1 false false 0x20 4 0,
  catRow .VBASE_REJECT 0x084 1 false false 0x20 4 0,
  catRow .CACHE_CORRECTED 0x085 0 false false 0x20 4 250,
  catRow .STRAY_COMPLETE 0x0A0 1 false false 0x30 4 250,
  catRow .VDX_CFG_REFUSED 0x0A1 1 false false 0x30 4 0,
  catRow .ABSENT_PROBE 0x0A2 0 false false 0x30 4 250,
  catRow .OVERRUN 0x0C0 2 false false 0x40 4 0,
  catRow .TASK_ABANDON 0x0C1 1 false false 0x40 4 0,
  catRow .TASK_ABORT 0x0C2 2 false false 0x40 4 0,
  catRow .PART_STOPPED 0x0C3 2 false false 0x40 4 0]

/-- Part 2 of the catalogue. -/
def catalogue1 : List CatEntry := [
  catRow .WAKE_LATE 0x0C4 1 false false 0x40 4 0,
  catRow .MMODE_OVERRUN 0x0C5 1 false false 0x40 4 0,
  catRow .PRELOAD_LATE 0x0C6 1 false false 0x40 4 0,
  catRow .BANK_RECLAIM 0x0C7 1 false false 0x40 4 0,
  catRow .CMP_TEST_OVERDUE 0x0C8 1 false false 0x40 4 0,
  catRow .CONTEXT_LOST 0x0C9 1 false false 0x40 4 0,
  catRow .DEADLINE_STAGE_FAIL 0x0CA 1 false false 0x40 4 0,
  catRow .IDLE_REJECT 0x0CB 1 false false 0x40 4 250,
  catRow .PAIRCMD_IGNORED 0x0CC 1 false false 0x40 4 250,
  catRow .STAGE_MISS 0x100 1 false false 0x50 4 0,
  catRow .WSET_VIOLATION 0x101 1 false false 0x50 4 0,
  catRow .PAGEOP_REFUSED 0x102 1 false false 0x50 4 250,
  catRow .MEM_CORRECTED 0x103 0 false false 0x50 4 250,
  catRow .MEM_UNCORR 0x104 2 false false 0x50 4 0,
  catRow .HARD_SYMBOL 0x105 2 false false 0x50 4 0,
  catRow .SCRUB_LAG 0x106 1 false false 0x50 4 0,
  catRow .QUEUE_PTR_ERR 0x107 1 false false 0x50 4 0,
  catRow .TRANSIT_FAIL 0x108 1 false false 0x50 4 0,
  catRow .LE_MISMATCH 0x140 2 true true 0x60 4 0,
  catRow .LE_SELFTEST_FAIL 0x141 2 false false 0x60 4 0,
  catRow .LE_TRAP 0x142 2 false false 0x60 4 0,
  catRow .PROGRAM_START 0x160 0 false false 0x10 4 0,
  catRow .STATION_ABSENT 0x161 1 false false 0x10 4 0,
  catRow .STATION_RETURN 0x162 0 false false 0x10 4 0,
  catRow .RETAIN_SAVE_LATE 0x163 1 false false 0x10 4 0,
  catRow .RETAIN_LOST 0x164 2 false false 0x10 4 0]

/-- Part 3 of the catalogue. -/
def catalogue2 : List CatEntry := [
  catRow .CARRY_LOST 0x165 1 false false 0x10 4 0,
  catRow .CHANGE_DONE 0x166 0 false false 0x10 4 0,
  catRow .FORCE_DROPPED 0x167 1 false false 0x10 4 0,
  catRow .FORCES_CLEARED 0x168 1 false false 0x10 4 0,
  catRow .SIO_DI_FAULT 0x2A0 1 false false 0xE0 4 250,
  catRow .SIO_DO_FAULT 0x2A1 2 false false 0xE0 4 0,
  catRow .SIO_Y_LOST 0x2A2 2 false false 0xE0 4 0,
  catRow .SIO_FS_OPEN 0x2A3 2 false false 0xE0 4 0,
  catRow .SIO_FS_BUDGET 0x2A4 1 false false 0xE0 4 0,
  catRow .PEER_DISSENT 0x180 1 false false 0x70 4 0,
  catRow .SELF_DISSENT 0x181 2 false false 0x70 4 0,
  catRow .LEASE_LOST 0x182 2 false false 0x70 4 0,
  catRow .LINK_EXCLUDE 0x183 1 false false 0x70 4 0,
  catRow .MEMBER_CHANGE 0x184 1 false false 0x70 4 0,
  catRow .IDENT_MISMATCH 0x185 1 false false 0x70 4 0,
  catRow .SYNC_FAIL 0x186 2 false false 0x70 4 0,
  catRow .NOMAJ 0x187 2 false false 0x70 4 0,
  catRow .TL_VIOLATION 0x188 1 false false 0x70 4 250,
  catRow .DUPLEX_NO_WITNESS 0x189 1 false false 0x70 4 0,
  catRow .GHEIF_RX_VIOLATION 0x1C0 1 false false 0x80 4 250,
  catRow .GHEIF_LENGTH 0x1C1 1 false false 0x80 4 250,
  catRow .GHEIF_GUARD 0x1C2 2 false false 0x80 4 0,
  catRow .GHEIF_CHANNEL_DIFF 0x1C3 1 false false 0x80 4 0,
  catRow .GHEIF_CS_ABORT 0x1C4 1 false false 0x80 4 0,
  catRow .GHEIF_CS_EXHAUSTED 0x1C5 1 false false 0x80 4 0,
  catRow .GHEIF_SYNC_LOST 0x1C6 1 false false 0x80 4 0]

/-- Part 4 of the catalogue. -/
def catalogue3 : List CatEntry := [
  catRow .GHEIF_POS_INVALID 0x1C7 1 false false 0x80 4 0,
  catRow .MODE_CHANGE 0x1C8 0 false false 0x80 4 0,
  catRow .MODE_CHANGE_FAIL 0x1C9 1 false false 0x80 4 0,
  catRow .MODE_FOLLOW 0x1CA 0 false false 0x80 4 0,
  catRow .MODE_REFUSED 0x1CB 1 false false 0x80 4 0,
  catRow .TIME_STEP 0x200 1 false false 0x90 4 0,
  catRow .SOURCE_CHANGE 0x201 0 false false 0x90 4 0,
  catRow .OFFSET_ALARM 0x202 1 false false 0x90 4 0,
  catRow .LAUNCH_DISCARD 0x203 1 false false 0x90 4 250,
  catRow .PD_REJECT 0x220 1 false false 0xA0 4 250,
  catRow .IXS_FAILSAFE 0x240 1 false false 0xB0 4 0,
  catRow .IXS_VALID 0x241 0 false false 0xB0 4 0,
  catRow .CAN_OVERSIZE 0x260 1 false false 0xC0 4 250,
  catRow .CAN_BUSOFF 0x261 1 false false 0xC0 4 0,
  catRow .CAN_BUSOFF_END 0x262 0 false false 0xC0 4 0,
  catRow .LRB_TIMEOUT 0x280 1 false false 0xD0 4 0,
  catRow .LRB_BERR 0x281 1 false false 0xD0 4 0,
  catRow .LRB_LOCK_PARTIAL 0x282 1 false false 0xD0 4 0,
  catRow .LRB_LOCK_HOG 0x283 1 false false 0xD0 4 0,
  catRow .PREFETCH_DISCARD 0x284 1 false false 0xD0 4 250,
  catRow .CLOCK_FAULT 0x2C0 2 false false 0xF0 4 0,
  catRow .SUPPLY_DIP 0x2C1 1 false false 0xF0 4 0,
  catRow .BUDGET_EXCEED 0x2C2 1 false false 0xF0 4 0,
  catRow .NIGHT_LOST 0x2C3 2 false false 0xF0 4 0,
  catRow .APPLICATION_MARK 0x300 0 false true 0x10 4 250]

/-- The code catalogue of the firmware (R473). The spec fixes the first entries of R473's table; the other numbers, severities and rates are
the model's, inside the ranges of R472 (DESIGN CHOICE, log 10). -/
def codeCatalogue : List CatEntry := catalogue0 ++ catalogue1 ++ catalogue2 ++ catalogue3

/-! ### The state right after reset -/

/-- A module that has never been powered before, at step 1 of its first Dawn sequence (R434, R438): nothing provisioned, no configuration
sealed. Its identity store is the model's choice (log 11). -/
def Ident.reset : Ident := ⟨.tvm9410, false, 1, 0, 1, 0, 0⟩
def Clk.reset : Clk := ⟨0, false, 0, true, 0, 0⟩
def Vdx.reset : Vdx := ⟨[], [], [], [], [], []⟩
def Hx.reset : Hx := ⟨Sched.none, false, [], [], 0, 0, false, 0, [], none⟩
def Hxm.reset : Hxm := ⟨[], [], [], 0, [], [], [], [], [], [], [], [], []⟩
def Cyc.reset : Cyc :=
  { count := 0, start := 0, n := 0, running := false, groups := [], versions := [], committed := [], working := [], sources := [], forces := [],
    copies := [], saves := [], savesMoved := [], change := none, startKind := 0, retInit := false, changeGen := 0, lastRun := [],
    resumeOk := false, varWrites := [], leaving := false }
def Rec.reset : Rec := ⟨[], [], [], [], 0, 0, 0, true⟩
def Pwr.reset : Pwr :=
  { mated := true, good := true, rstAsserted := false, holdupSince := none, warned := false, warnedAt := 0, waiting := [], granted := [], charges := [],
    budgetNext := none, lockAt := [], awakeAt := [], rtc := 0, rtcAt := 0, nightValid := false, pcc := 0, pccCopy := 0, opCopy := 0,
    opHiLatch := 0, midnight := none, midnightDigest := [], posPins := 1, dawnAt := 0 }
def Sup.reset : Sup :=
  { st := .dawn, fromDusk := false, faultLatch := false, duskCause := 0, startCause := 0, wakeBit := 0, warm := false, target := 2, lasts := [],
    waiting := [], noticeCount := 0, dropped := 0, cfgSess := none, loadSess := none, longOp := none, activeSet := none, sets := [],
    hmacId := 0, hmacKey := List.replicate 32 0, counters := [], authFails := [], scpBusyViol := 0, scpPartial := 0, scpWakeFrame := 0,
    sready := false, svcDet := false, fwVersion := 1, fwStaged := [], fwNext := none, catalogue := codeCatalogue, lastStart := 0xFF,
    cfgImage := [], cfgLen := 0, schedId := 0, ethHeld := 0, portWait := 0 }

/-- The machine right after reset. -/
def State.reset : State :=
  { ident := Ident.reset, clk := Clk.reset, regs := [], mem := [], poison := [], pairs := [], vdx := Vdx.reset, hx := Hx.reset,
    hxm := Hxm.reset, queues := [], engines := [], cyc := Cyc.reset, cfg := Cfg.none, prog := Progs.none, tvl := Tvl.reset, gh := Gh.reset,
    tmb := Tmb.reset, sup := Sup.reset, rcd := Rec.reset, pwr := Pwr.reset, sio := Sio.reset, eth := Eth.reset, ixs := [], can := [],
    lrb := Lrb.reset, out := [], freeCtr := 0, pending := [] }

end Sys2Proof.Machine
end

