-- ==== Sys2Proof/Machine/Ops.lean ====
section
/-!
DEFINITION. The named operations every meaning is built from: registers and their fields, memory, the clock and the time of
day, raising a source of the vector dispatcher, and reporting an event to the recorder.
-/
namespace Sys2Proof.Machine

/-! ### Registers -/

/-- The mask of `w` bits from bit `lo` on. -/
def fieldMask (lo w : Nat) : Word := (BitVec.allOnes w).setWidth 32 <<< lo

/-- Field bits read out of a register value. -/
def fieldGet (r : Word) (lo w : Nat) : Nat := ((r >>> lo).setWidth w).toNat

/-- A register value with one field replaced. -/
def fieldSet (r : Word) (lo w v : Nat) : Word :=
  (r &&& ~~~ fieldMask lo w) ||| ((BitVec.ofNat w v).setWidth 32 <<< lo)

/-- The stored value of the register at an offset from 0x00_4000_0000. -/
def State.reg (s : State) (off : Nat) : Word := tget regReset s.regs off

/-- The register at an offset takes a value. -/
def State.setReg (s : State) (off : Nat) (v : Word) : State := { s with regs := tput regReset s.regs off v }

/-- The value of a register field. -/
def State.get (s : State) (f : Field) : Nat := fieldGet (s.reg f.off) f.lo f.w

/-- A register field takes the low bits of a value. -/
def State.set (s : State) (f : Field) (v : Nat) : State := s.setReg f.off (fieldSet (s.reg f.off) f.lo f.w v)

/-- A one-bit register field as a truth value. -/
def State.flag (s : State) (f : Field) : Bool := s.get f == 1

/-- A counter field counts `k` more, saturating at its width. -/
def State.incBy (s : State) (f : Field) (k : Nat) : State := s.set f (satAdd (2 ^ f.w - 1) (s.get f) k)

/-- A counter field counts one more, saturating at its width. -/
def State.inc (s : State) (f : Field) : State := s.incBy f 1

/-- A sealed configuration is in force. -/
def State.sealed (s : State) : Bool := decide (0 < s.sup.cfgLen)

/-! ### Fitted units (R2, R4) -/

/-- SYS_CAP0 of a variant (R4). -/
def cap0 : Variant → Nat
  | .tvm9410 => 0x000FFFFF
  | .tvm9310 => 0x00073FFF
  | .tvm9210 => 0x00010ED3

/-- SYS_CAP1 (R5). -/
def cap1 (i : Ident) : Nat :=
  (match i.variant with | .tvm9210 => 0x00022040 | _ => 0x00042040) + b2n i.coated

/-- SYS_ID (R3). -/
def sysId (i : Ident) : Nat :=
  (match i.variant with | .tvm9410 => 0x9410 | .tvm9310 => 0x9310 | .tvm9210 => 0x9210) * 0x10000
    + (i.hwMajor % 256) * 256 + i.hwMinor % 256

/-- A unit of SYS_CAP0 is fitted. -/
def State.cap (s : State) (bit : Nat) : Bool := (cap0 s.ident.variant).testBit bit
def State.pairFitted (s : State) (p : Nat) : Bool := decide (p < 4) && s.cap p
def State.engineFitted (s : State) (e : Nat) : Bool := decide (e < 2) && s.cap (4 + e)
def State.canFitted (s : State) (n : Nat) : Bool := decide (n < 6) && s.cap (10 + n)
def State.lrbFitted (s : State) : Bool := s.cap 18
def State.sioFitted (s : State) : Bool := s.cap 19
def State.ethFitted (s : State) (n : Nat) : Bool := if n < 2 then s.cap 16 else decide (n < 4) && s.cap 17
def State.chFitted (s : State) (c : Nat) : Bool := if c = 0 then s.cap 7 else s.cap 8
/-- The DDR size in bytes (R122). -/
def State.ddrSize (s : State) : Nat := ((cap1 s.ident / 0x10000) % 256) * 0x40000000
/-- The units P0 to P3, LE0, LE1 of R97. -/
def State.unitFitted (s : State) (u : Nat) : Bool := if u < 4 then s.pairFitted u else s.engineFitted (u - 4)

/-- A dispatcher source is absent or reserved (R72, R73). -/
def State.sourceAbsent (s : State) (n : Nat) : Bool :=
  if n < 64 then decide (44 ≤ n ∧ n ≤ 47) || n == 52 || decide (54 ≤ n ∧ n ≤ 63)
  else if n < 192 then false
  else if n < 208 then !(s.engineFitted ((n - 192) / 8)) || decide (6 ≤ n % 8)
  else if n < 312 then
    n == 223 || (n == 235 && !(s.chFitted 1)) || decide (243 ≤ n ∧ n ≤ 255) || ((n == 266 || n == 267) && !(s.ethFitted (n - 264)))
      || decide (277 ≤ n ∧ n ≤ 295) || decide (306 ≤ n)
  else if n < 360 then !(s.canFitted ((n - 312) / 8))
  else if n < 376 then !s.lrbFitted || n == 367
  else if n < 408 then !s.sioFitted || decide (406 ≤ n)
  else if n = 415 || n = 431 || n = 432 then true
  else if n < 432 then decide (421 ≤ n ∧ n ≤ 423)
  else decide (436 ≤ n)

/-! ### The clock, the free-running count and the time of day -/

/-- Microticks of a macrotick. -/
def mtUt : Nat := 200
/-- Microticks of a microsecond. -/
def usUt : Nat := 800

/-- The running fabric cycle (2.5 ns). -/
def State.fab (s : State) : Nat := s.clk.t / 2

/-- The free-running count FRC (R299), 64 bits. -/
def State.frc (s : State) : Nat := if s.clk.frcOn then (s.clk.t - s.clk.frcBase) % 2 ^ 64 else 0

/-- The time of day at a free-running count, in units of 2^-16 ns (R300). -/
def todAt (b : Tmb) (frc : Nat) : Nat :=
  ((b.offset : Int) + ((frc : Int) - (b.anchor : Int)) * 81920 * ((2 ^ 40 : Nat) + (b.freq + b.slew)) / ((2 ^ 40 : Nat) : Int)).toNat

/-- The time of day now. -/
def State.tod (s : State) : Nat := todAt s.tmb s.frc

/-- The time of day at an instant, by OFFSET, ANCHOR and RATE as they stand. -/
def State.todOn (s : State) (t : Nat) : Nat := if s.clk.frcOn then todAt s.tmb (t - s.clk.frcBase) else s.tod

/-- One second in units of 2^-16 ns. -/
def secUnits : Nat := 1000000000 * 65536

/-- A timebase stamp of a time of day (R301). -/
def stampOf (tod : Nat) : Nat := (tod / secUnits) % 2 ^ 34 * 2 ^ 30 + (tod % secUnits) / 65536

/-- The stamp of this instant. -/
def State.stamp (s : State) : Nat := stampOf s.tod

/-- The operating-hours counter in units of 1/1024 s (R491). -/
def State.optime (s : State) : Nat :=
  ((s.clk.opAcc + if s.clk.opOn then s.clk.t - s.clk.opSince else 0) / 781250) % 2 ^ 48

/-- The seconds of the time of day. -/
def todSec (tod : Nat) : Nat := tod / secUnits
/-- The nanoseconds of the time of day. -/
def todNs (tod : Nat) : Nat := tod % secUnits / 65536

/-! ### Memory -/

/-- One byte of the physical address space (R12, R122, R169). -/
def State.rd8 (s : State) (a : Nat) : Byte := tget byteD s.mem a

/-- One byte of the physical address space takes a value. -/
def State.wr8 (s : State) (a : Nat) (v : Byte) : State := { s with mem := tput byteD s.mem a v }

/-- `n` bytes from `a` on. -/
def State.rdBytes (s : State) (a n : Nat) : List Byte := tgetList byteD s.mem a n

/-- Bytes stored from `a` on. -/
def State.wrBytes (s : State) (a : Nat) (l : List Byte) : State := { s with mem := tputList byteD s.mem a l }

/-- A little-endian number of `n` bytes at `a`. -/
def State.rdLe (s : State) (a n : Nat) : Nat := leNat (s.rdBytes a n)

/-- A little-endian number of `n` bytes stored at `a`. -/
def State.wrLe (s : State) (a n v : Nat) : State := s.wrBytes a (leBytes n v)

/-- The listed bytes from `lo` to below `hi` read as zero again. -/
def memClear : Tbl Byte → Nat → Nat → Tbl Byte
  | [], _, _ => []
  | (a, v) :: t, lo, hi => if lo ≤ a ∧ a < hi then memClear t lo hi else (a, v) :: memClear t lo hi

/-- The `n` bytes from `src` copied to `dst`. -/
def memCopy (m : Tbl Byte) (dst src n : Nat) : Tbl Byte :=
  tputs byteD (memClear m dst (dst + n)) ((m.filter fun c => decide (src ≤ c.1 ∧ c.1 < src + n)).map fun c => (dst + (c.1 - src), c.2))

/-- The `n` bytes of another table from `ofs` on copied to `dst`. -/
def memLoad (m : Tbl Byte) (dst : Nat) (t : Tbl Byte) (ofs n : Nat) : Tbl Byte :=
  tputs byteD (memClear m dst (dst + n)) ((t.filter fun c => decide (ofs ≤ c.1 ∧ c.1 < ofs + n)).map fun c => (dst + (c.1 - ofs), c.2))

/-- The memory holds its canonical form. -/
abbrev Memory.wf (m : Tbl Byte) : Prop := twf byteD m = true

/-- The address lies on a poisoned line. -/
def State.poisoned (s : State) (a : Nat) : Bool := s.poison.contains (a / 64)

/-- Poisoned lines of a range are clean again. -/
def State.unpoison (s : State) (a n : Nat) : State := { s with poison := s.poison.filter fun l => decide (l * 64 + 64 ≤ a ∨ a + n ≤ l * 64) }

/-- A line is poisoned. -/
def State.poisonLine (s : State) (a : Nat) : State := if s.poisoned a then s else { s with poison := (a / 64) :: s.poison }

/-! ### Pairs, banks, tasks and units -/

def State.pair (s : State) (p : Nat) : Pair := tget pairD s.pairs p
def State.setPair (s : State) (p : Nat) (v : Pair) : State := { s with pairs := tput pairD s.pairs p v }
def State.modPair (s : State) (p : Nat) (f : Pair → Pair) : State := s.setPair p (f (s.pair p))
def Pair.bank (q : Pair) (b : Nat) : Bank := tget bankD q.banks b
def Pair.setBank (q : Pair) (b : Nat) (v : Bank) : Pair := { q with banks := tput bankD q.banks b v }
def Pair.bankSt (q : Pair) (b : Nat) : BankSt := tget BankSt.at0 q.bst b
def Pair.setBankSt (q : Pair) (b : Nat) (v : BankSt) : Pair := { q with bst := tput BankSt.at0 q.bst b v }
/-- The bank in use. -/
def Pair.curBank (q : Pair) : Bank := q.bank q.cur
def Pair.setCur (q : Pair) (v : Bank) : Pair := q.setBank q.cur v
/-- Integer register `r` of the bank in use; x0 reads 0. -/
def Pair.x (q : Pair) (r : Nat) : DWord := if r = 0 then 0 else tget dwordD q.curBank.x r
/-- Integer register `r` takes a value; a write of x0 is discarded. -/
def Pair.setX (q : Pair) (r : Nat) (v : DWord) : Pair :=
  if r = 0 then q else q.setCur { q.curBank with x := tput dwordD q.curBank.x r v }
/-- The pair executes nothing. -/
def Pair.idle (q : Pair) : Bool := q.halted || q.frozen || q.testing.isSome
def Pair.pc (q : Pair) : Nat := q.curBank.pc
def Pair.setPc (q : Pair) (v : Nat) : Pair := q.setCur { q.curBank with pc := v % 2 ^ 64 }

/-- Reservations of pairs other than `but` on the lines of `n` bytes at `a` are cleared by another agent's write (R59); 4: of every pair. -/
def State.unreserve (s : State) (but a n : Nat) : State :=
  (List.range 4).foldl (fun (s : State) p =>
    match (s.pair p).resv with
    | some l => if p ≠ but ∧ a / 64 ≤ l ∧ l * 64 < a + n then s.modPair p fun q => { q with resv := none } else s
    | none => s) s

def State.task (s : State) (t : Nat) : TaskSt := tget taskD s.hx.tasks t
def State.setTask (s : State) (t : Nat) (v : TaskSt) : State :=
  { s with hx := { s.hx with tasks := tput taskD s.hx.tasks t v } }
def State.unit (s : State) (u : Nat) : UnitSt := tget unitD s.hx.units u
def State.setUnit (s : State) (u : Nat) (v : UnitSt) : State :=
  { s with hx := { s.hx with units := tput unitD s.hx.units u v } }
def State.eng (s : State) (e : Nat) : Engine := tget engineD s.engines e
def State.setEng (s : State) (e : Nat) (v : Engine) : State := { s with engines := tput engineD s.engines e v }
def State.grp (s : State) (g : Nat) : GroupSt := tget groupD s.cyc.groups g
def State.setGrp (s : State) (g : Nat) (v : GroupSt) : State :=
  { s with cyc := { s.cyc with groups := tput groupD s.cyc.groups g v } }
def State.queue (s : State) (b : Nat) : QSt := tget qD s.queues b
def State.setQueue (s : State) (b : Nat) (v : QSt) : State := { s with queues := tput qD s.queues b v }
/-- The descriptor of a task, of a window, of a group, of a partition of the active schedule. -/
def State.taskD? (s : State) (t : Nat) : Option Task := s.hx.sched.tasks[t]?
def State.window? (s : State) (w : Nat) : Option Window := s.hx.sched.windows[w]?
def State.group? (s : State) (g : Nat) : Option Group := s.hx.sched.groups[g]?
def State.part? (s : State) (p : Nat) : Option Part := s.hx.sched.parts[p]?

/-- A free value's number is taken: the counter advances. -/
def State.free (s : State) : State := { s with freeCtr := s.freeCtr + 1 }

/-! ### Reporting to the recorder (R474) -/

/-- An event is reported: it waits to be judged (R474), with its origin stamp (R35) and the value TSET had there (R469). -/
def State.report (s : State) (code : RCode) (src : Nat) (words : List Nat) : State :=
  { s with rcd := { s.rcd with reported := s.rcd.reported ++
      [⟨code, src, s.stamp, s.flag F.TMB_STAT_TSET, s.frc, words.map (BitVec.ofNat 32)⟩] } }

/-- Something leaves the module. -/
def State.emit (s : State) (i : Iface) (unit kind : Nat) (data : List Byte) : State :=
  { s with out := s.out ++ [⟨i, unit, kind, s.clk.t, data⟩] }

/-! ### Input sources of the signal map (R197, R199) -/

/-- The key of an input source. -/
def srcKey (kind id : Nat) : Nat := kind * 65536 + id

def State.source (s : State) (k : Nat) : Source := tget sourceD s.cyc.sources k
def State.setSource (s : State) (k : Nat) (v : Source) : State :=
  { s with cyc := { s.cyc with sources := tput sourceD s.cyc.sources k v } }

/-- An item enters the module: its transit check is computed over `body`, and it carries this instant's stamp (R35, R162). -/
def State.item (s : State) (data : List Byte) : Item := ⟨data, crc32c data, s.stamp⟩
/-- An item passes its transit check (R162). -/
def Item.ok (i : Item) : Bool := crc32c i.data == i.chk

/-- An item that fails its transit check is discarded: its entry names the unit by `src`, the queue or port, and the item's origin stamp
(R163). -/
def State.transitFail (s : State) (src port stamp : Nat) : State := s.report .TRANSIT_FAIL src [port, stamp % 2 ^ 32, stamp / 2 ^ 32]

/-- A source offers a new item at this instant (R23, R197). -/
def State.offerItem (s : State) (kind id : Nat) (it : Item) : State :=
  let c := s.source (srcKey kind id)
  let older (i : SrcItem) : Bool := decide (i.tm < s.clk.t)
  let prev := if c.cur.any older then c.cur else c.prev
  s.setSource (srcKey kind id) { c with cur := some ⟨it, s.clk.t, s.cyc.n⟩, prev := prev, fresh := true }

/-- A source offers new data, which gets its transit check here (R162). -/
def State.offer (s : State) (kind id : Nat) (data : List Byte) : State := s.offerItem kind id (s.item data)

/-- A source becomes ABSENT: the newest item received so far is the one held (R199). -/
def State.holdSource (s : State) (kind id : Nat) : State :=
  let c := s.source (srcKey kind id)
  s.setSource (srcKey kind id) { c with held := c.cur }

/-- The items of a source are dropped as if none had ever been received (R296). -/
def State.dropSource (s : State) (kind id : Nat) : State :=
  s.setSource (srcKey kind id) { s.source (srcKey kind id) with cur := none, prev := none, held := none }

/-- The register that shows the presence state of a source, for the kinds that have one (R292, R335, R366, R391). -/
def presOff (kind id : Nat) : Option Nat :=
  match kind with
  | 1 => some (0x61000 + 4 * id)
  | 2 => some (0x81000 + 4 * id)
  | 3 => some (0xA0400 + id / 256 * 0x1000 + 4 * (id % 256))
  | 5 => some (0xB0100 + 4 * id)
  | _ => none
def presF (off : Nat) : Field := ⟨off, 30, 2⟩
def rejoinF (off : Nat) : Field := ⟨off, 26, 4⟩
def missF (off : Nat) : Field := ⟨off, 10, 16⟩

/-- A source is named by a signal-map entry (R197). -/
def State.mapped (s : State) (kind id : Nat) : Bool := s.cfg.sigs.any fun e => e.kind == kind && e.srcId == id

/-- A new item is stored: the miss count returns to 0, and NOT_SEEN becomes PRESENT (R292). -/
def State.presNew (s : State) (kind id : Nat) : State :=
  match presOff kind id with
  | some o =>
    if s.mapped kind id then
      let s := s.set (missF o) 0
      if s.get (presF o) = 0 then s.set (presF o) 1 else s
    else s
  | none => s

/-- Registers whose offset is named read as 0 again; each of them is 0 at reset. -/
def State.zeroRegs (s : State) (p : Nat → Bool) : State := { s with regs := s.regs.filter fun c => !p c.1 }

/-- SOURCE bytes of R470. -/
def srcRec : Nat := 0x00
def srcSup (i : Nat) : Nat := 0x10 + i
def srcPair (p : Nat) : Nat := 0x20 + p
def srcVdx : Nat := 0x30
def srcHx : Nat := 0x40
def srcHxm : Nat := 0x50
def srcLe (e : Nat) : Nat := 0x60 + e
def srcTvl : Nat := 0x70
def srcGhc (i : Nat) : Nat := 0x80 + i
def srcTmb : Nat := 0x90
def srcEth (p : Nat) : Nat := 0xA0 + p
def srcIxs : Nat := 0xB0
def srcCan (n : Nat) : Nat := 0xC0 + n
def srcLrb : Nat := 0xD0
def srcSio : Nat := 0xE0
def srcPwr : Nat := 0xF0

/-! ### Raising a source of the dispatcher -/

/-- The event-register bit that the unit of a source sets with it. -/
def evtField (n : Nat) : Option Field :=
  if 32 ≤ n ∧ n < 44 then some { F.HX_EVT_EVT with lo := n - 32, w := 1 }
  else if 48 ≤ n ∧ n < 54 then some { F.HXM_EVT_EVT with lo := n - 48, w := 1 }
  else if 192 ≤ n ∧ n < 208 then some { (F.LE_EVT_EVT ((n - 192) / 8)) with lo := n % 8, w := 1 }
  else if 208 ≤ n ∧ n < 223 then some { F.TVL_EVT_EVT with lo := n - 208, w := 1 }
  else if 224 ≤ n ∧ n < 244 then some { F.GHC_EVT_EVT with lo := n - 224, w := 1 }
  else if 256 ≤ n ∧ n < 264 then some { F.TMB_EVT_EVT with lo := n - 256, w := 1 }
  else if 264 ≤ n ∧ n < 277 then some { F.ETH_EVT_EVT with lo := n - 264, w := 1 }
  else if 296 ≤ n ∧ n < 306 then some { F.IXS_EVT_EVT with lo := n - 296, w := 1 }
  else if 312 ≤ n ∧ n < 360 then some { (F.CAN_EVT_EVT ((n - 312) / 8)) with lo := n % 8, w := 1 }
  else if 360 ≤ n ∧ n < 367 then some { F.LRB_EVT_EVT with lo := n - 360, w := 1 }
  else if 376 ≤ n ∧ n < 406 then some { F.SIO_EVT_EVT with lo := n - 376, w := 1 }
  else if 408 ≤ n ∧ n < 415 then some { F.SUP_EVT_EVT with lo := n - 408, w := 1 }
  else if 416 ≤ n ∧ n < 421 then some { F.REC_EVT_EVT with lo := n - 416, w := 1 }
  else if 424 ≤ n ∧ n < 431 then some { F.PWR_EVT_EVT with lo := n - 424, w := 1 }
  else none

/-- The stamp of a source is stored, low word first (R74). -/
def State.setStamp (s : State) (n st : Nat) : State :=
  (s.set (F.VDX_SRCSTAMP_W n 0) st).set (F.VDX_SRCSTAMP_W n 1) (st / 2 ^ 32)

/-- A qualified assertion of a source takes effect on its count and its pending bit (R75). -/
def State.arrive (s : State) (n : Nat) : State :=
  let s := (s.setStamp n s.stamp).inc (F.VDX_SRCSTAT_COUNT n)
  let s : State := { s with vdx := { s.vdx with arrived := tput noneD s.vdx.arrived n (some s.fab) } }
  match s.get (F.VDX_SRCCFG_MODE n) with
  | 0 => if s.flag (F.VDX_SRCSTAT_ACTIVE n) then s else s.set (F.VDX_SRCSTAT_PENDING n) 1
  | 1 => s.set (F.VDX_SRCSTAT_PENDING n) 1
  | _ => if tget boolD s.vdx.latch n then s
         else { (s.set (F.VDX_SRCSTAT_PENDING n) 1) with vdx := { s.vdx with latch := tput boolD s.vdx.latch n true } }

/-- A unit raises a source as a pulse of one fabric cycle (R529) and sets the source's bit of its event register. The spec does not say what
POL = 1 does to such a source; here it has no effect on it (DESIGN CHOICE, log 122). -/
def State.raise (s : State) (n : Nat) : State :=
  if s.sourceAbsent n then s else
  let s := match evtField n with | some f => s.set f 1 | none => s
  let s := (s.arrive n).set (F.VDX_SRCSTAT_LINE n) 1
  { s with vdx := { s.vdx with pulses := s.vdx.pulses.filter (fun c => c.1 ≠ n) ++ [(n, s.fab)] } }

/-- The qualified state of a level source falls (R75, R85); the sources are 0 to 511 (R72). -/
def State.lineFalls (s : State) (n : Nat) : State :=
  if 512 ≤ n then s else
  let s := s.set (F.VDX_SRCSTAT_LINE n) 0
  if s.get (F.VDX_SRCCFG_MODE n) = 0 then
    let s := if s.flag (F.VDX_SRCSTAT_ACTIVE n) then s.set (F.VDX_SRCSTAT_WITHDRAWN n) 1 else s
    s.set (F.VDX_SRCSTAT_PENDING n) 0
  else s

/-- The qualified states of pulses raised in earlier fabric cycles de-assert (R529). -/
def State.dropPulses (s : State) : State :=
  let gone := s.vdx.pulses.filter (fun c => c.2 < s.fab)
  let s := { s with vdx := { s.vdx with pulses := s.vdx.pulses.filter (fun c => ¬ c.2 < s.fab) } }
  gone.foldl (fun s c => s.lineFalls c.1) s

/-! ### Drives of the local outputs (R407 to R416) -/

def State.dout (s : State) (m : Nat) : Dout := tget doutD s.sio.dos m
def State.setDout (s : State) (m : Nat) (v : Dout) : State := { s with sio := { s.sio with dos := tput doutD s.sio.dos m v } }

/-- The stage of DOm may switch its high side on (R411 to R413, R415). -/
def State.doMay (s : State) (m : Nat) : Bool :=
  let d := s.dout m
  (d.latch == none || d.latch == some 2 || d.retrying) && d.testAt == none && s.flag F.SIO_STAT_FS_OK && s.flag F.SIO_STAT_SW_FS

/-- DRIVE and FAULT of DOm follow its command, its latch and the field supply. -/
def State.doView (s : State) (m : Nat) : State :=
  let d := s.dout m
  let want := if d.swAt.isSome then s.flag (F.SIO_DOSTAT_DRIVE m) else s.flag (F.SIO_DOSTAT_CMD m)
  let drive := want && s.doMay m
  let d := { d with onSince := if drive then (if d.onSince.isSome then d.onSince else some s.clk.t) else none }
  let fault := if s.flag F.SIO_STAT_FS_OK && s.flag F.SIO_STAT_SW_FS then d.latch.getD 0 else 5
  ((s.setDout m d).set (F.SIO_DOSTAT_DRIVE m) (b2n drive)).set (F.SIO_DOSTAT_FAULT m) fault

/-- The switches of outputs whose instants have come (R22 step 8, R409). -/
def State.runSwitches (s : State) : State :=
  (List.range 8).foldl (fun s m =>
    let d := s.dout m
    match d.swAt with
    | some t => if t ≤ s.clk.t then (s.setDout m { d with swAt := none, chgAt := t }).doView m else s
    | none => s) s

/-- mcycle counts core cycles, which are microticks, while the pair's clock runs; mhpmcounter4 those stalled on a fabric read (R48). -/
def Pair.count (q : Pair) (dt : Nat) : Pair :=
  let q := if q.mcountinhibit.testBit 0 then q else { q with mcycle := (q.mcycle + dt) % 2 ^ 64 }
  if q.stall = some (.rack true) ∧ !(q.mcountinhibit.testBit 4) then { q with hpm4 := (q.hpm4 + dt) % 2 ^ 64 } else q

/-- The counters of the pairs whose clock runs follow the clock. -/
def State.countCycles (s : State) (dt : Nat) : State :=
  if !s.clk.frcOn then s else
  (List.range 4).foldl (fun (s : State) p =>
    if s.pairFitted p && s.get (F.PWR_PAIRCLK_STATE p) == 0 && !(s.pair p).frozen then s.modPair p fun q => q.count dt else s) s

/-- The clock moves on to an instant, which is never earlier than now. -/
def State.advance (s : State) (t : Nat) : State :=
  if t ≤ s.clk.t then s
  else State.runSwitches (State.dropPulses { (s.countCycles (t - s.clk.t)) with clk := { s.clk with t := t } })

/-- The clock moves on by a number of microticks. -/
def State.wait (s : State) (dt : Nat) : State := s.advance (s.clk.t + dt)

/-! ### Absent units and accesses to registers -/

/-- An access to the window of an absent unit ends in an error response and writes a recorder entry (R7, R8). -/
def State.absentAccess (s : State) (off : Nat) : State := s.report .ABSENT_PROBE srcVdx [off]

/-- The unit that owns a register offset is fitted (R7, R12). The per-pair registers of HX beside HX_UNITSTAT have no slots 4 and 5, so an access
there is one to an absent pair (DESIGN CHOICE, log 5). -/
def State.offFitted (s : State) (off : Nat) : Bool :=
  match off / 0x10000 with
  | 1 => if 0x10100 ≤ off ∧ off < 0x10180 then s.pairFitted ((off - 0x10100) / 0x20) else true
  | 2 => if 0x20100 ≤ off ∧ off < 0x20160 then
           (if off % 0x10 = 0 then s.unitFitted ((off - 0x20100) / 0x10) else s.pairFitted ((off - 0x20100) / 0x10))
         else true
  | 3 => if 0x30040 ≤ off ∧ off < 0x30050 then s.pairFitted ((off - 0x30040) / 4) else true
  | 4 => s.engineFitted ((off - 0x40000) / 0x8000)
  | 6 => if 0x60080 ≤ off ∧ off < 0x600C0 then s.chFitted 1 else true
  | 7 => if 0x70100 ≤ off ∧ off < 0x70180 then s.pairFitted ((off - 0x70100) / 0x20) else true
  | 8 => if 0x80100 ≤ off ∧ off < 0x80300 then s.ethFitted ((off - 0x80100) / 0x80) else true
  | 10 => s.canFitted ((off - 0xA0000) / 0x1000)
  | 11 => s.lrbFitted
  | 12 => s.sioFitted
  | 13 => if off < 0xD4000 then s.pairFitted ((off - 0xD0000) / 0x1000) else true
  | 15 => if 0xF0010 ≤ off ∧ off < 0xF0020 then s.pairFitted ((off - 0xF0010) / 4) else true
  | _ => true

/-! ### Module state -/

/-- The code of a module state (R433). -/
def MState.code : MState → Nat
  | .night => 0
  | .dawn => 1
  | .config => 2
  | .stop => 3
  | .run => 4
  | .hold => 5
  | .service => 6
  | .dusk => 7
  | .midnight => 8

/-- The module has power and its fabric clock runs: units act. -/
def State.alive (s : State) : Bool :=
  match s.sup.st with
  | .night | .midnight => false
  | _ => true

/-- The Dusk state, and the Service state entered from it: pairs, engines and the executive stay stopped (R65, R435). -/
def State.dusked (s : State) : Bool := s.sup.st == .dusk || (s.sup.st == .service && s.sup.fromDusk)

/-- The Run state, and not being left (R205). -/
def State.inRun (s : State) : Bool := s.sup.st == .run && !s.cyc.leaving

/-! ### Cycle groups (R16 to R22) -/

/-- T_G in microticks (R16). -/
def State.tg (s : State) : Nat := (if s.cfg.tgMt = 0 then s.hx.sched.tgMt else s.cfg.tgMt) * mtUt
/-- M, the major frame in Gheif cycles (R19). -/
def State.mfLen (s : State) : Nat := 2 ^ s.hx.sched.mfLog2
/-- T_C of a cycle group in microticks (R18). -/
def State.tc (s : State) (g : Nat) : Nat := match s.group? g with | some d => 2 ^ d.k * s.tg | none => s.tg
/-- t_A or t_V in microticks: 1.5 us + 0.85 ns per byte, zero in simplex (R22). -/
def State.tlTime (s : State) (bytes : Nat) : Nat :=
  if s.get F.TVL_CFG_VCU = 1 ∨ s.get F.TVL_CFG_VCU = 2 then 1200 + (bytes * 17 + 24) / 25 else 0
/-- The VCU is a duplex, a triplex (PLX_PAIRID.VCU). -/
def State.duplex (s : State) : Bool := s.get F.TVL_CFG_VCU == 1
def State.triplex (s : State) : Bool := s.get F.TVL_CFG_VCU == 2
def State.simplex (s : State) : Bool := !s.duplex && !s.triplex
/-- The bytes of a table from 0 on, as an image of `n` bytes. -/
def image (t : Tbl Byte) (n : Nat) : List Byte := tgetList byteD t 0 n
/-- An image as a table. -/
def ofImage (l : List Byte) : Tbl Byte := tputList byteD [] 0 l

/-! ### The cycle timer (R17, R262, R263, R266) -/

/-- The cluster block when a cluster is configured. -/
def State.clu (s : State) : Option Cluster := s.cfg.cluster
/-- Start of static position `p`, of the dynamic segment, of the idle phase, in macroticks of the cycle (R254, R257, R258). -/
def Cluster.posAt (c : Cluster) (p : Nat) : Nat := c.sw + (p - 1) * c.slot
def Cluster.dynStart (c : Cluster) : Nat := c.sw + c.nStatic * c.slot
def Cluster.idleAt (c : Cluster) : Nat := c.dynStart + c.nMini * c.ms
/-- Macroticks of T_G. -/
def State.tgMt (s : State) : Nat := if s.cfg.tgMt = 0 then s.hx.sched.tgMt else s.cfg.tgMt
/-- The signed distance of two instants on a circle of `n` microticks, in (-n/2, n/2]. -/
def wrapInt (n : Nat) (d : Int) : Int := let r := d % (n : Int); if 2 * r ≤ n then r else r - n
/-- The running Gheif cycle of the protocol engine, as start and count: the cycle timer's, but while that moves toward the cluster's (R266). -/
def State.ghCyc (s : State) : Nat × Nat := s.gh.own.getD (s.cyc.start, s.cyc.count)
/-- The time of day at the start of the protocol engine's running cycle is captured (R310). -/
def State.noteCycTod (s : State) : State := { s with tmb := { s.tmb with cycTod := s.todOn s.ghCyc.1 } }
/-- The distance of the cluster's cycle start from the cycle timer's, in the shorter direction modulo 256 Gheif cycles (R266). -/
def State.drift (s : State) : Int :=
  match s.gh.own with
  | some (a, n) => wrapInt (256 * s.tg) ((a : Int) - (s.cyc.start : Int) + ((s.cyc.count : Int) - (n : Int)) * (s.tg : Int))
  | none => 0

/-- Microticks from the start of a Gheif cycle to its macrotick `m` when the rate term is `r`: the term is spread evenly over the macroticks
before the idle phase (R263), a part of a microtick being dropped (DESIGN CHOICE, log 114). -/
def State.mtOfs (s : State) (r : Int) (m : Nat) : Int :=
  let idle := match s.clu with | some c => c.idleAt | none => 0
  (m * mtUt : Nat) + r * (min m idle : Nat) / (idle : Nat)

/-- The length of the protocol engine's running Gheif cycle in microticks: the rate term, and the offset term in its idle phase (R262, R263). -/
def State.ghLen (s : State) : Nat := (s.mtOfs s.gh.rateNow s.tgMt + (if s.gh.corrected then s.gh.ofs else 0)).toNat

/-- The length of the cycle timer's running Gheif cycle in microticks: the protocol engine's, or, while it moves toward the cluster's timing, that
of the rate term and a step of at most one macrotick (R262, R263, R266). -/
def State.cycleLen (s : State) : Nat :=
  match s.clu with
  | some _ => if s.gh.own.isSome then (s.mtOfs s.gh.rateNow s.tgMt + clampInt (-200) 200 s.drift).toNat else s.ghLen
  | none => s.tg

/-- The instant of macrotick `m` of the protocol engine's running Gheif cycle. -/
def State.ghMt (s : State) (m : Nat) : Nat := s.ghCyc.1 + min (s.mtOfs s.gh.rateNow m).toNat s.ghLen
/-- The macrotick of the protocol engine's cycle in which an offset from its start lies. -/
def State.ghMacro (s : State) (off : Nat) : Nat :=
  let idle := match s.clu with | some c => c.idleAt | none => 0
  let d : Int := (mtUt * idle : Nat) + s.gh.rateNow
  if idle = 0 ∨ d ≤ 0 then off / mtUt else (((off * idle : Nat) : Int) / d).toNat

/-- The instant of macrotick `m` of the running Gheif cycle, which lies within the cycle. -/
def State.mtAt (s : State) (m : Nat) : Nat := s.cyc.start + min (s.mtOfs s.gh.rateNow m).toNat s.cycleLen

/-- The instant of the macrotick `k` of the cycle timer, counted through the Gheif cycles by their ordinal: macrotick `m` of cycle `n` is
`n * TG_MT + m`. Cycles to come keep the rate term as it stands; those past count nominal macroticks (DESIGN CHOICE, log 114). -/
def State.mt (s : State) (k : Nat) : Nat :=
  let g := s.tgMt
  let j := k / g
  if j = s.cyc.n then s.mtAt (k % g)
  else if s.cyc.n < j then
    s.cyc.start + s.cycleLen + (j - s.cyc.n - 1) * (s.mtOfs s.gh.rate g).toNat + (s.mtOfs s.gh.rate (k % g)).toNat
  else s.cyc.start - (s.cyc.n * g - k) * mtUt

/-- The macrotick at which the running Gheif cycle began. -/
def State.cycMt (s : State) : Nat := s.cyc.n * s.tgMt

/-- The instant `ofs` macroticks after the freeze of a group's running task cycle (R20, R22). -/
def State.grpAt (s : State) (g ofs : Nat) : Nat := s.mt ((s.grp g).frzMt + ofs)
/-- Agreement deadline, output close and output instant of a group's running task cycle (R22). -/
def State.agrDl (s : State) (g : Nat) : Nat := s.grpAt g (match s.group? g with | some d => d.agrDl | none => 0)
def State.outCloseAt (s : State) (g : Nat) : Nat := s.grpAt g (match s.group? g with | some d => d.outClose | none => 0)
def State.outInstAt (s : State) (g : Nat) : Nat := s.grpAt g (match s.group? g with | some d => d.outInst | none => 0)

/-- The first output instant of a cycle group at or after an instant (R22 step 7). -/
def State.oiAt (s : State) (g t : Nat) : Nat :=
  match s.group? g with
  | some d =>
    let o := (s.grp g).frzMt + d.outInst
    let tc := 2 ^ d.k * s.tgMt
    let k := (t - s.mt o) / (tc * mtUt)
    match (List.range 4).find? fun i => decide (t ≤ s.mt (o + (k - 1 + i) * tc)) with
    | some i => s.mt (o + (k - 1 + i) * tc)
    | none => s.mt (o + (k + 3) * tc)
  | none => t

/-- START of a window in the running major frame, and the end of a unit's running interval with the halts in it (R69, R98, R108). -/
def State.startAt (s : State) (w : Window) : Nat := s.mt (s.hx.frameMt + w.start)
def State.budgetAt (s : State) (u : Nat) : Nat := s.mt (s.unit u).endMt + (s.unit u).ext

/-! ### What a pair executes (R68 to R71, R115) -/

/-- The open activation on a pair: the task it executes, in user mode. -/
def State.taskOn (s : State) (p : Nat) : Option Nat :=
  let u := s.unit p
  if u.opened && !u.ended && u.win.isSome then some u.task else u.slack.map fun c => c.1

/-- The pair's clock runs (R496). -/
def State.awake (s : State) (p : Nat) : Bool :=
  s.get (F.PWR_PAIRCLK_STATE p) == 0 && decide (tget natD s.pwr.awakeAt p ≤ s.clk.t)

/-- The pair can execute an instruction now. -/
def State.executes (s : State) (p : Nat) : Bool :=
  let q := s.pair p
  s.pairFitted p && s.alive && !s.dusked && !q.idle && !q.wfi && q.stall.isNone && q.fence == 0 && s.awake p
    && (!q.umode || (s.taskOn p).isSome)

/-- Execution time is measured from now on, or up to now (R115). -/
def State.execStart (s : State) (n : Nat) : State := s.setTask n { s.task n with since := some s.clk.t }
def State.execStop (s : State) (n : Nat) : State :=
  match (s.task n).since with
  | some x => s.setTask n { s.task n with since := none, exec := (s.task n).exec + (s.clk.t - x) / 2 }
  | none => s

/-- The first instruction of the activation on a unit begins: its execution time is measured from here (R115). -/
def State.execBegin (s : State) (u : Nat) : State :=
  match s.taskOn u with
  | some n =>
    if (s.unit u).began || (decide (u < 4) && !(s.pair u).umode) then s else (s.execStart n).setUnit u { s.unit u with began := true }
  | none => s

/-- A pair halts: the budget timer of its window is frozen. -/
def State.haltPair (s : State) (p : Nat) : State :=
  let q := s.pair p
  if !s.pairFitted p || q.halted then s else
  let s := match s.taskOn p with | some n => s.execStop n | none => s
  (s.modPair p fun q => { q with halted := true }).setUnit p { s.unit p with haltedAt := some s.clk.t }

/-- The pair's next instruction stands at the address of an enabled trigger; triggers act in the Service state only (R71). -/
def State.trigHit (s : State) (p : Nat) : Bool :=
  s.sup.st == .service && [0, 1, 2, 3].any fun k => tget noneD (s.pair p).trig k == some (s.pair p).pc

/-- A command that is an instruction of a pair: at a trigger the pair halts before it (R71); otherwise it begins, and an activation's
execution time with it (R115). A pair that resumes at a trigger's address halts there again; STEP executes the instruction (DESIGN CHOICE,
log 124). -/
def State.asInsn (s : State) (p : Nat) (f : State → State) : State :=
  if !s.executes p then f s
  else if s.trigHit p then s.haltPair p
  else f (s.execBegin p)

/-! ### Launch times (R314) -/

/-- The units of 2^-16 ns of a stamp (R301). -/
def stampUnits (l : Nat) : Nat := l / 2 ^ 30 * secUnits + l % 2 ^ 30 * 65536

/-- The rows of R314 for a launch time given as time of day: 0 too far ahead, 1 held, 2 sent, 3 too late. -/
def State.launchCase (s : State) (l : Nat) : Nat :=
  let t := s.tod % (2 ^ 34 * secUnits)
  if t + 16 * secUnits < l then 0
  else if t < l then 1
  else if t ≤ l + s.get F.TMB_LAUNCH_LATE_MAX * 1000 * 65536 then 2
  else 3

/-- The rows of R314 for a launch instant of the module's own clock. -/
def State.launchAt (s : State) (t : Nat) : Nat :=
  if s.clk.t + 16 * 800000000 < t then 0
  else if s.clk.t < t then 1
  else if s.clk.t ≤ t + s.get F.TMB_LAUNCH_LATE_MAX * usUt then 2
  else 3

/-- A discard under R314: counted, raised and recorded with L. -/
def State.launchDrop (s : State) (case l : Nat) : State :=
  let s := if case = 0 then s.inc F.TMB_CNT_LAUNCH_FAR else s.inc F.TMB_CNT_LAUNCH_LATE
  (s.raise 261).report .LAUNCH_DISCARD srcTmb [l, l / 2 ^ 32]

end Sys2Proof.Machine
end

