-- ==== Sys2Proof/Machine/Sio.lean ====
section
/-!
DEFINITION. Local safety inputs and outputs (chapter 16): test pulses, sampling, qualification and comparison of the inputs;
faults, tests and the field supply of the outputs.
-/
namespace Sys2Proof.Machine

/-- The SIO is fitted and powered (R407: unpowered in Midnight mode). -/
def State.sioOn (s : State) : Bool := s.sioFitted && s.alive

def State.di (s : State) (n : Nat) : Di := tget diD s.sio.dis n
def State.setDi (s : State) (n : Nat) (v : Di) : State := { s with sio := { s.sio with dis := tput diD s.sio.dis n v } }
def State.tp (s : State) (k : Nat) : Tp := tget tpD s.sio.tps k
def State.setTp (s : State) (k : Nat) (v : Tp) : State := { s with sio := { s.sio with tps := tput tpD s.sio.tps k v } }

/-- Ten microseconds in microticks: the sampling period of R402. -/
def us10 : Nat := 10 * usUt

/-! ### Diagnostics of an input (R404) -/

/-- TPk is marked faulty. -/
def State.tpFault (s : State) (k : Nat) : Bool := (s.get F.SIO_STAT_TP_FAULT).testBit k

/-- Input n is fed by TPk. -/
def State.fedBy (s : State) (n k : Nat) : Bool := s.flag (F.SIO_DICFG_EN n) && s.get (F.SIO_DICFG_TPSEL n) == k

/-- Input n passes its diagnostics (R404). -/
def State.diPasses (s : State) (n : Nat) : Bool :=
  let d := s.di n
  s.flag (F.SIO_DICFG_EN n) && !d.wb && !d.wbY && !d.cross && !d.disc && s.flag F.SIO_STAT_Y_OK
    && !(decide (s.get (F.SIO_DICFG_TPSEL n) < 4) && s.tpFault (s.get (F.SIO_DICFG_TPSEL n)))

/-- DIAG_OK and DI_OK of input n follow its diagnostics. -/
def State.diJudge (s : State) (n : Nat) : State :=
  let ok := s.diPasses n
  (s.set (F.SIO_DISTAT_DIAG_OK n) (b2n ok)).set { F.SIO_STAT_DI_OK with lo := n, w := 1 } (b2n ok)

/-- Input n fails its diagnostics for a cause: source 376 + n and an SIO_DI_FAULT entry (R404). -/
def State.diFault (s : State) (n cause : Nat) : State :=
  (((s.set (F.SIO_DISTAT_FAULT n) cause).diJudge n).raise (376 + n)).report .SIO_DI_FAULT srcSio [n, cause]

/-- The combined value of input n follows X AND Y, and the discrepancy timer runs while they differ (R403). -/
def State.diCombine (s : State) (n : Nat) : State :=
  let x := s.flag (F.SIO_DISTAT_XQ n)
  let y := s.flag (F.SIO_DISTAT_YQ n)
  let d := s.di n
  let d := if x = y then { d with discAt := none, disc := false }
           else if d.discAt.isSome || !(s.flag F.SIO_STAT_Y_OK) then d else { d with discAt := some s.clk.t }
  let d := if (x && y) = s.flag (F.SIO_DISTAT_VALUE n) then d else { d with stamp := s.stamp }
  ((s.setDi n d).set (F.SIO_DISTAT_VALUE n) (b2n (x && y))).diJudge n

/-- An input that passes its diagnostics offers a new item to its KIND 4 entry, which carries the stamp of the value's last change (R403, R404). -/
def State.diOffer (s : State) (n : Nat) : State :=
  if s.diPasses n then s.offerItem 4 n { s.item [BitVec.ofNat 8 (s.get (F.SIO_DISTAT_VALUE n))] with stamp := (s.di n).stamp } else s

/-! ### Sampling (R397, R402) -/

/-- The band of a voltage at the input terminal in units of 10 mV: 0 WIRE_BREAK, 1 OFF, 2 TRANSITION, 3 ON (R397). -/
def diBand (v : Int) : Nat := if v < 140 then 0 else if v < 500 then 1 else if v < 1100 then 2 else 3

/-- Input n is blanked: from the start of its supply's pulse until 50 us after the pulse's end (R402). -/
def State.blanked (s : State) (n : Nat) : Bool :=
  let k := s.get (F.SIO_DICFG_TPSEL n)
  decide (k < 4) && ((s.tp k).pulse.isSome ||
    match (s.tp k).ended with | some e => decide (s.clk.t < e + 50 * usUt) | none => false)

/-- A sample within the checked span of a pulse: what it reads counts for the input check of R400. -/
def State.diPulseSample (s : State) (n band : Nat) : State :=
  let k := s.get (F.SIO_DICFG_TPSEL n)
  match (s.tp k).pulse with
  | some p => if k < 4 ∧ p + 50 * usUt ≤ s.clk.t then
      let d := s.di n
      s.setDi n (if band = 1 ∨ band = 3 then { d with seen := true } else if band = 2 then { d with seenTr := true } else d)
    else s
  | none => s

/-- An unblanked sample of channel X: run, qualification, wire break (R397, R398, R402). -/
def State.diUnblanked (s : State) (n band : Nat) : State :=
  let d := s.di n
  let wbEn := s.flag (F.SIO_DICFG_WB_EN n)
  if band = 2 then s.setDi n { d with run := 0 }
  else if band = 0 ∧ wbEn then
    let s' := s.setDi n { d with run := 0, wb := true }
    if d.wb || d.wbY then s' else (s'.inc (F.SIO_DISTAT_WB_CNT n)).diFault n 1
  else
    let st := decide (band = 3)
    let run := if d.runSt = st then min (d.run + 1) 255 else 1
    let s := s.setDi n { d with runSt := st, run := run, wb := false }
    if s.get (F.SIO_DICFG_FCNT n) ≤ run then s.set (F.SIO_DISTAT_XQ n) (b2n st) else s

/-- The next sampling instant of an input: a multiple of 10 us after its last one (R402). -/
def State.sampleAt (s : State) (n : Nat) : Nat :=
  match (s.di n).sampled with
  | some l => max (roundUp s.clk.t us10) (l + us10)
  | none => roundUp s.clk.t us10

/-- DI_SAMPLE (R397, R398, R400, R402 to R404). -/
def diSample (n : Nat) (v : Int) (s : State) : State :=
  if s.sioOn && s.flag (F.SIO_DICFG_EN n) then
    let s := s.advance (s.sampleAt n)
    let band := diBand v
    let s := (s.setDi n { s.di n with sampled := some s.clk.t }).set (F.SIO_DISTAT_BAND n) band
    let s := if s.blanked n then s.diPulseSample n band else s.diUnblanked n band
    (s.diCombine n).diOffer n
  else s

/-- Channel Y delivers: Y_LOST clears after 10 ms without a gap (R405). -/
def State.yDelivers (s : State) : State :=
  let since := match s.sio.ySince with
    | some t => if s.clk.t ≤ s.sio.yLast + 200 * usUt then t else s.clk.t
    | none => s.clk.t
  let s := { s with sio := { s.sio with ySince := some since, yLast := s.clk.t } }
  if s.flag F.SIO_STAT_Y_OK || decide (s.clk.t < since + 10000 * usUt) then s
  else (List.range 16).foldl (fun s n => s.diCombine n) (s.set F.SIO_STAT_Y_OK 1)

/-- Y_STATE (R402 to R405): channel Y's qualified state of input n; `brk`: channel Y reads a wire break outside a pulse. -/
def yState (n : Nat) (v brk : Bool) (s : State) : State :=
  if s.sioOn && s.flag (F.SIO_DICFG_EN n) then
    let s := (s.yDelivers).set (F.SIO_DISTAT_YQ n) (b2n v)
    let b := brk && s.flag (F.SIO_DICFG_WB_EN n)
    let fresh := b && !(s.di n).wb && !(s.di n).wbY
    let s := s.setDi n { s.di n with wbY := b }
    (if fresh then (s.inc (F.SIO_DISTAT_WB_CNT n)).diFault n 1 else s).diCombine n
  else s

/-- DISCREPANCY (R403): DISC_T after X and Y began to differ. -/
def discrepancy (n : Nat) (s : State) : State :=
  match (s.di n).discAt with
  | some t0 =>
    if s.sioOn && !(s.di n).disc then
      let s := s.advance (t0 + s.get (F.SIO_DICFG_DISC_T n) * 1000 * usUt)
      ((s.setDi n { s.di n with disc := true }).inc (F.SIO_DISTAT_DISC_CNT n)).diFault n 4
    else s
  | none => s

/-- Y_LOST (R405): 200 us without a channel Y state, or at once at channel Y's own self-test failure. -/
def yLost (selfTest : Bool) (s : State) : State :=
  if s.sioOn && s.flag F.SIO_STAT_Y_OK then
    let s := if selfTest then s else s.advance (s.sio.yLast + 200 * usUt)
    let s := { (s.set F.SIO_STAT_Y_OK 0) with sio := { s.sio with ySince := none } }
    let s := (List.range 16).foldl (fun s n =>
      let s := s.setDi n { s.di n with discAt := none }
      if s.flag (F.SIO_DICFG_EN n) then s.diFault n 5 else s) s
    (s.raise 404).report .SIO_Y_LOST srcSio [b2n selfTest]
  else s

/-! ### Test pulses (R399, R400) -/

/-- The next pulse start of TPk: (k / 4) * TPP after a period start of the free-running count (R399). -/
def State.pulseAt (s : State) (k : Nat) : Nat :=
  let tpp := s.get F.SIO_TPCFG_TPP * 1000 * usUt
  let phase := s.clk.frcBase + k * tpp / 4
  phase + roundUp (s.clk.t - phase) tpp

/-- TEST_PULSE (R399). -/
def testPulse (k : Nat) (s : State) : State :=
  if s.sioOn && (s.get F.SIO_TPCFG_EN).testBit k && (s.tp k).pulse.isNone && s.clk.frcOn then
    let s := s.advance (s.pulseAt k)
    let s := s.setTp k { s.tp k with on := false, pulse := some s.clk.t }
    (List.range 16).foldl (fun s n => if s.fedBy n k then s.setDi n { s.di n with seen := false, seenTr := false } else s) s
  else s

/-- TPk has failed its check: TP_FAULT, source 400, and its inputs fail their diagnostics (R400, R404). -/
def State.tpFails (s : State) (k : Nat) : State :=
  let s := s.setTp k { s.tp k with good := 0 }
  if s.tpFault k then s else
  let s := (s.set { F.SIO_STAT_TP_FAULT with lo := 20 + k, w := 1 } 1).raise 400
  (List.range 16).foldl (fun s n => if s.fedBy n k then s.diFault n 3 else s) s

/-- TPk has passed its check: TP_FAULT clears after two consecutive good pulses (R400). -/
def State.tpPasses (s : State) (k : Nat) : State :=
  let s := s.setTp k { s.tp k with good := min 2 ((s.tp k).good + 1) }
  if (s.tp k).good = 2 then
    (List.range 16).foldl (fun s n => s.diJudge n) (s.set { F.SIO_STAT_TP_FAULT with lo := 20 + k, w := 1 } 0)
  else s

/-- The input check of R400 at a pulse's end; `y`: channel Y read OFF or ON in the span. -/
def State.crossCheck (s : State) (n : Nat) (y : Bool) : State :=
  let d := s.di n
  if d.seen || y then (if d.cross then s else (s.setDi n { d with cross := true }).diFault n 2)
  else if d.seenTr then s
  else (s.setDi n { d with cross := false }).diJudge n

/-- TEST_PULSE_END (R400): whether the voltage fell below 2 V and came back in time, and what channel Y read per input. -/
def testPulseEnd (k : Nat) (fell rose : Bool) (y : BitVec 16) (s : State) : State :=
  match (s.tp k).pulse with
  | some p =>
    if s.sioOn then
      let s := s.advance (p + s.get F.SIO_TPCFG_TPW * usUt)
      let s := s.setTp k { s.tp k with on := rose, pulse := none, ended := some s.clk.t }
      if s.flag F.SIO_STAT_FS_OK then
        let s := if fell && rose then s.tpPasses k else s.tpFails k
        (List.range 16).foldl (fun s n => if s.fedBy n k then s.crossCheck n (y.getLsbD n) else s) s
      else s
    else s
  | none => s

/-- TP_OVERCURRENT (R399): the supply switches off and reports TP_FAULT. -/
def tpOvercurrent (k : Nat) (s : State) : State :=
  if s.sioOn && (s.get F.SIO_TPCFG_EN).testBit k && (s.tp k).on then (s.setTp k { s.tp k with on := false }).tpFails k else s

/-! ### Outputs (R407 to R416) -/

/-- An output is safety-class exactly when its group is (R408). -/
def State.doSafety (s : State) (m : Nat) : Bool := s.flag (F.TVL_OGRP_SAFETY (s.get (F.SIO_DOCFG_OGRP m)))
def State.doEn (s : State) (m : Nat) : Bool := s.flag (F.SIO_DOCFG_EN m)

/-- A fold over the eight outputs. -/
def State.eachDo (s : State) (f : State → Nat → State) : State := (List.range 8).foldl f s

/-- DOm is commanded off at once (R409). -/
def State.doOff (s : State) (m : Nat) : State :=
  let s := s.set (F.SIO_DOSTAT_CMD m) 0
  (s.setDout m { s.dout m with swAt := none, testAt := none, chgAt := s.clk.t }).doView m

/-- A pending switch of DOm is cancelled and the output keeps the value it has (R416). -/
def State.doHold (s : State) (m : Nat) : State :=
  if (s.dout m).swAt.isSome then
    (s.set (F.SIO_DOSTAT_CMD m) (s.get (F.SIO_DOSTAT_DRIVE m))).setDout m { s.dout m with swAt := none }
  else s

/-- The safety-class outputs of group `k` go off and the pending switches of its others are cancelled (R232, R234, R416). -/
def State.doGroupOff (s : State) (k : Nat) : State :=
  if s.sioFitted then
    s.eachDo fun s m => if s.doEn m && s.get (F.SIO_DOCFG_OGRP m) == k then (if s.doSafety m then s.doOff m else s.doHold m) else s
  else s

/-- Every safety-class output goes off at once, the pending switches of the others are cancelled (R65, R192, R410, R416). -/
def State.doSafetyOff (s : State) : State :=
  if s.sioFitted then s.eachDo fun s m => if s.doEn m then (if s.doSafety m then s.doOff m else s.doHold m) else s else s

/-- Every output goes off (R407 on loss of the module supply, R410). -/
def State.doAllOff (s : State) : State := if s.sioFitted then s.eachDo (fun s m => s.doOff m) else s

/-- Outputs to be switched get steps of 0.25 us in ascending number from now on (R22 step 8, R409, R415). -/
def State.doStagger (s : State) (sel : List Nat) : State :=
  (sel.foldl (fun (c : State × Nat) m =>
    (c.1.setDout m { c.1.dout m with swAt := some (c.1.clk.t + c.2 * mtUt) }, c.2 + 1)) (s, 1)).1

/-- A running output test ends at an output instant and its result is discarded (R413). -/
def State.dropTest (s : State) (m : Nat) : State :=
  if (s.dout m).testAt.isSome then (s.setDout m { s.dout m with testAt := none, onSince := none }).doView m else s

/-- The output instant of cycle group `g`: the voted values command the outputs of the held groups (R28, R409). -/
def State.doOutGo (s : State) (g : Nat) (held : Nat → Bool) : State :=
  if s.sioFitted then
    let s := s.eachDo fun s m => s.dropTest m
    let mine (m : Nat) : Bool := s.doEn m && s.get (F.TVL_OGRP_CGRP (s.get (F.SIO_DOCFG_OGRP m))) == g && held (s.get (F.SIO_DOCFG_OGRP m))
    let want (m : Nat) : Bool :=
      (tget byteD (s.grp g).voted (s.get (F.SIO_DOCFG_BITADDR m) / 8)).getLsbD (s.get (F.SIO_DOCFG_BITADDR m) % 8)
    let changed := (List.range 8).filter fun m => mine m && want m != s.flag (F.SIO_DOSTAT_CMD m)
    let s := changed.foldl (fun s m => s.set (F.SIO_DOSTAT_CMD m) (1 - s.get (F.SIO_DOSTAT_CMD m))) s
    s.doStagger changed
  else s

/-- The field-supply switch opens: no output is driven (R412). -/
def State.fsOpen (s : State) (m : Nat) : State :=
  if s.flag F.SIO_STAT_SW_FS then
    (((s.set F.SIO_STAT_SW_FS 0).eachDo fun s m => s.doView m).raise 403).report .SIO_FS_OPEN srcSio [m]
  else s

/-- A fault of DOm is latched: source 392 + m, an SIO_DO_FAULT entry, and the second shut-off path where R412 asks it. -/
def State.doFault (s : State) (m code : Nat) : State :=
  let s := (s.setDout m { s.dout m with latch := some code, retrying := false, offAt := s.clk.t }).inc (F.SIO_DOSTAT_FLT_CNT m)
  let s := ((s.doView m).raise (392 + m)).report .SIO_DO_FAULT srcSio [m, code]
  if s.doSafety m && (code == 2 || code == 4) then s.fsOpen m else s

/-- DO_OVERCURRENT (R407, R411). -/
def doOvercurrent (m : Nat) (s : State) : State :=
  if s.sioFitted && s.flag (F.SIO_DOSTAT_DRIVE m) then s.doFault m 1 else s

/-- DO_READBACK_FAULT (R411): a mismatch of the read-back that has persisted for 100 us. -/
def doReadbackFault (m rb : Nat) (s : State) : State :=
  if s.sioOn && s.doEn m && s.flag F.SIO_STAT_FS_OK && s.flag F.SIO_STAT_SW_FS && decide ((s.dout m).chgAt + 150 * usUt ≤ s.clk.t)
      && (s.dout m).testAt.isNone && (s.dout m).latch.isNone then
    let s := s.set (F.SIO_DOSTAT_RB m) rb
    if s.flag (F.SIO_DOSTAT_CMD m) then (if rb = 0 then s.doFault m 3 else s)
    else if rb = 2 then s.doFault m 2 else s
  else s

/-- DO_RETRY (R411): once per second while commanded ON, at most three attempts. -/
def doRetry (m : Nat) (s : State) : State :=
  let d := s.dout m
  if s.sioOn && s.flag (F.SIO_DOCFG_RETRY m) && d.latch == some 1 && !d.retrying && decide (d.retries < 3)
      && s.flag (F.SIO_DOSTAT_CMD m) then
    let s := s.advance (d.offAt + 1000000 * usUt)
    (s.setDout m { s.dout m with retries := d.retries + 1, retrying := true }).doView m
  else s

/-- The output instants near which no output test begins (R413): those of the running task cycles. -/
def State.outInstants (s : State) : List Nat :=
  (List.range 4).filterMap fun g =>
    if (s.grp g).on && (s.group? g).isSome then some (s.outInstAt g) else none

/-- The instant at which the test of DOm begins (R413). -/
def State.outputTestAt (s : State) (m : Nat) : Nat :=
  let t := max s.clk.t ((s.dout m).onSince.getD s.clk.t + s.get F.SIO_OTCFG_OT_PERIOD_S * 1000000 * usUt)
  s.outInstants.foldl (fun t o => if t < o + us10 ∧ o < t + us10 then o + us10 else t) t

/-- OUTPUT_TEST (R413). -/
def outputTest (m : Nat) (s : State) : State :=
  if s.sioOn && s.doEn m && s.doSafety m && s.flag (F.SIO_DOCFG_TEST_EN m) && s.flag (F.SIO_DOSTAT_DRIVE m)
      && (s.dout m).testAt.isNone && (s.dout m).swAt.isNone then
    let s := s.advance (s.outputTestAt m)
    (s.setDout m { s.dout m with testAt := some s.clk.t }).doView m
  else s

/-- OUTPUT_TEST_END (R413): the read-back is judged once, at the end of the pulse. -/
def outputTestEnd (m rb : Nat) (s : State) : State :=
  match (s.dout m).testAt with
  | some t0 =>
    if s.sioOn then
      let s := (s.advance (t0 + s.get F.SIO_OTCFG_OTW * usUt)).set (F.SIO_DOSTAT_RB m) rb
      let s := s.setDout m { s.dout m with testAt := none, onSince := none }
      if rb = 0 then s.doView m else s.doFault m 4
    else s
  | none => s

/-- FLT_CLR (R411). -/
def fltClr (m : Nat) (s : State) : State :=
  if s.sioFitted then
    (s.setDout m { s.dout m with latch := none, retries := 0, retrying := false, chgAt := s.clk.t }).doView m
  else s.absentAccess (F.SIO_DOSTAT_FLT_CLR m).off

/-- What a cold or warm program start does to the outputs: latches clear and the field-supply switch closes unless a
safety-class output reads HIGH (R411, R412). -/
def State.sioProgramStart (s : State) : State :=
  if s.sioFitted then
    let s := s.eachDo fun s m => s.setDout m { s.dout m with latch := none, retries := 0, retrying := false }
    let high := (List.range 8).any fun m => s.doEn m && s.doSafety m && s.get (F.SIO_DOSTAT_RB m) == 2
    (if high then s else s.set F.SIO_STAT_SW_FS 1).eachDo fun s m => s.doView m
  else s

/-! ### Field supply (R415) -/

/-- FS_LOW (R415): below 16.0 V for 100 us. -/
def fsLow (mv10 : Nat) (s : State) : State :=
  if s.sioOn && s.flag F.SIO_STAT_FS_OK && decide (mv10 < 1600) then
    (((s.set F.SIO_STAT_FS_OK 0).set F.SIO_FS_V_10MV mv10).eachDo fun s m => s.doView m).raise 401
  else s

/-- FS_RESTORED (R415): at 17.0 V or above for 10 ms. -/
def fsRestored (mv10 : Nat) (s : State) : State :=
  if s.sioOn && !s.flag F.SIO_STAT_FS_OK && decide (1700 ≤ mv10) then
    let s := (s.set F.SIO_STAT_FS_OK 1).set F.SIO_FS_V_10MV mv10
    let sel := (List.range 8).filter fun m => (s.flag (F.SIO_DOSTAT_CMD m) && s.flag F.SIO_STAT_SW_FS) || (s.dout m).swAt.isSome
    ((s.doStagger sel).eachDo fun s m => s.doView m).raise 402
  else s

/-- SIO_FS_BUDGET (R415): a field current above BUDGET for 10 ms. -/
def sioFsBudget (ma : Nat) (s : State) : State :=
  if s.sioOn && decide (s.get F.SIO_FSCFG_BUDGET < ma) then
    ((s.set F.SIO_FS_I_MA ma).raise 405).report .SIO_FS_BUDGET srcSio [ma]
  else s

/-- SIO_CNTCLR (R417). -/
def sioCntclr (s : State) : State :=
  if s.sioFitted then
    let s := (List.range 16).foldl (fun s n => (s.set (F.SIO_DISTAT_DISC_CNT n) 0).set (F.SIO_DISTAT_WB_CNT n) 0) s
    s.eachDo fun s m => s.set (F.SIO_DOSTAT_FLT_CNT m) 0
  else s.absentAccess F.SIO_CNTCLR_ALL.off

/-! ### The commands -/

/-- DI_SAMPLE. -/
def execDiSample (n : Fin 16) (mv10 : Int) (s : State) : Host.Outcome State Fault Refusal := .next (diSample n mv10 s)
/-- Y_STATE. -/
def execYState (n : Fin 16) (v brk : Bool) (s : State) : Host.Outcome State Fault Refusal := .next (yState n v brk s)
/-- DISCREPANCY. -/
def execDiscrepancy (n : Fin 16) (s : State) : Host.Outcome State Fault Refusal := .next (discrepancy n s)
/-- Y_LOST. -/
def execYLost (selfTest : Bool) (s : State) : Host.Outcome State Fault Refusal := .next (yLost selfTest s)
/-- TEST_PULSE. -/
def execTestPulse (k : Fin 4) (s : State) : Host.Outcome State Fault Refusal := .next (testPulse k s)
/-- TEST_PULSE_END. -/
def execTestPulseEnd (k : Fin 4) (fell rose : Bool) (y : BitVec 16) (s : State) : Host.Outcome State Fault Refusal :=
  .next (testPulseEnd k fell rose y s)
/-- TP_OVERCURRENT. -/
def execTpOvercurrent (k : Fin 4) (s : State) : Host.Outcome State Fault Refusal := .next (tpOvercurrent k s)
/-- DO_OVERCURRENT. -/
def execDoOvercurrent (m : Fin 8) (s : State) : Host.Outcome State Fault Refusal := .next (doOvercurrent m s)
/-- DO_READBACK_FAULT. -/
def execDoReadbackFault (m : Fin 8) (rb : Fin 3) (s : State) : Host.Outcome State Fault Refusal :=
  .next (doReadbackFault m rb s)
/-- DO_RETRY. -/
def execDoRetry (m : Fin 8) (s : State) : Host.Outcome State Fault Refusal := .next (doRetry m s)
/-- OUTPUT_TEST. -/
def execOutputTest (m : Fin 8) (s : State) : Host.Outcome State Fault Refusal := .next (outputTest m s)
/-- OUTPUT_TEST_END. -/
def execOutputTestEnd (m : Fin 8) (rb : Fin 3) (s : State) : Host.Outcome State Fault Refusal := .next (outputTestEnd m rb s)
/-- FLT_CLR. -/
def execFltClr (m : Fin 8) (s : State) : Host.Outcome State Fault Refusal := .next (fltClr m s)
/-- FS_LOW. -/
def execFsLow (mv10 : Nat) (s : State) : Host.Outcome State Fault Refusal := .next (fsLow mv10 s)
/-- FS_RESTORED. -/
def execFsRestored (mv10 : Nat) (s : State) : Host.Outcome State Fault Refusal := .next (fsRestored mv10 s)
/-- SIO_FS_BUDGET. -/
def execSioFsBudget (ma : Nat) (s : State) : Host.Outcome State Fault Refusal := .next (sioFsBudget ma s)
/-- SIO_CNTCLR. -/
def execSioCntclr (s : State) : Host.Outcome State Fault Refusal := .next (sioCntclr s)

end Sys2Proof.Machine
end

