-- ==== Sys2Proof/Machine/Tvl.lean ====
section
/-!
DEFINITION. Tri-link frames, input agreement and the output vote (chapter 8, R215 to R228, R236, R238 to R244).
-/
namespace Sys2Proof.Machine

def State.lease (s : State) (k : Nat) : Lease := tget leaseD s.tvl.leases k
def State.setLease (s : State) (k : Nat) (v : Lease) : State := { s with tvl := { s.tvl with leases := tput leaseD s.tvl.leases k v } }
def State.peer (s : State) (q : Nat) : TlPeer := tget peerD s.tvl.peers q
def State.setPeer (s : State) (q : Nat) (v : TlPeer) : State := { s with tvl := { s.tvl with peers := tput peerD s.tvl.peers q v } }

/-- This module's position (R506). -/
def State.pos (s : State) : Nat := s.ident.pos
def State.mstate (s : State) : Nat := s.get F.TVL_STAT_MSTATE
/-- A position is in this module's member set. -/
def State.isMember (s : State) (q : Nat) : Bool := decide (1 ≤ q) && (s.get F.TVL_STAT_MEMBERS).testBit (q - 1)
/-- The member set as positions. -/
def State.members (s : State) : List Nat := [1, 2, 3].filter s.isMember
/-- The module votes, countersigns and may hold leases (R238). -/
def State.voting (s : State) : Bool := s.mstate == 4 && s.inRun
/-- A peer is MEMBER by its last frame and has not fallen silent since (R239). -/
def State.peerMember (s : State) (q : Nat) : Bool := q != s.pos && (s.peer q).mstate == 4
/-- The module contributes RAW frames of group `g` (R238, R531, R191). -/
def State.contributes (s : State) (g : Nat) : Bool :=
  (s.sup.st == .run || s.sup.st == .hold) &&
    (s.mstate == 4 || s.mstate == 3 || (s.mstate == 2 && s.tvl.sync.started.contains g))

/-- It does so in the running task cycle: the group had been started at its freeze (R240, R531). -/
def State.joined (s : State) (g : Nat) : Bool := s.contributes g && (s.grp g).live

/-- The position cabled to a port (R215). -/
def State.cabled (s : State) (p : Nat) : Nat :=
  if s.duplex then 3 - s.pos
  else if p = 0 then s.pos % 3 + 1 else (s.pos + 1) % 3 + 1

/-! ### Sending (R217) -/

/-- A frame's bytes: header, payload and transit check (R217, R162). -/
def State.tlBytes (s : State) (typ group cc fseq : Nat) (abstain : Bool) (payload : List Byte) : List Byte :=
  let h := [BitVec.ofNat 8 typ, BitVec.ofNat 8 (s.pos % 4 + s.mstate * 4 + b2n abstain * 32), BitVec.ofNat 8 group,
    BitVec.ofNat 8 cc] ++ leBytes 4 (s.get F.TVL_MFC_W) ++ leBytes 2 payload.length ++ leBytes 2 fseq ++ List.replicate 4 0
  h ++ payload ++ leBytes 4 (crc32c (h ++ payload))

/-- A frame leaves on every port that is up. -/
def State.tlOut (s : State) (typ : Nat) (b : List Byte) : State :=
  [0, 1].foldl (fun s p => if s.flag (F.TVL_LINKSTAT_UP p) then s.emit .triLink p typ b else s) s

/-- A RAW, DIG or OUT frame of a group. -/
def State.tlGroupFrame (s : State) (typ g : Nat) (abstain : Bool) (payload : List Byte) : State :=
  s.tlOut typ (s.tlBytes typ g (s.grp g).frzCount 0 abstain payload)

/-- The instant lies in the agreement or the vote interval of a group (R29, R218). -/
def State.tlInterval (s : State) : Bool :=
  [0, 1, 2, 3].any fun g => (s.grp g).on && (s.group? g).isSome && !s.simplex &&
    (decide ((s.grp g).frz ≤ s.clk.t ∧ s.clk.t < s.agrDl g) || decide (s.outCloseAt g ≤ s.clk.t ∧ s.clk.t < s.outInstAt g))

/-- The CTRL and SYNC frames that waited for the end of an interval leave (R218). -/
def State.tlFlush (s : State) : State :=
  if s.tlInterval then s
  else
    let l := s.tvl.waitTx
    l.foldl (fun (s : State) c => s.tlOut c.1 c.2) { s with tvl := { s.tvl with waitTx := [] } }

/-- A CTRL, SYNC or REL frame: FSEQ rises by 1 (R215). A REL frame, and with `now` a frame whose instant a rule fixes, leaves at once; the
others wait for the end of an agreement or vote interval (R218). -/
def State.tlSeq (s : State) (typ group : Nat) (now : Bool) (payload : List Byte) : State :=
  let s := { s with tvl := { s.tvl with fseq := (s.tvl.fseq + 1) % 65536 } }
  let b := s.tlBytes typ group (s.cyc.count) s.tvl.fseq false payload
  if now || !s.tlInterval then s.tlFlush.tlOut typ b else { s with tvl := { s.tvl with waitTx := s.tvl.waitTx ++ [(typ, b)] } }

/-- A CTRL frame. -/
def State.ctrl (s : State) (what : Nat) (args : List Nat) : State := s.tlSeq 4 0xFF false (Config.ctrlBytes what args)
/-- The CTRL frame of a claim or of its countersignature, sent at the instant that R231 fixes. -/
def State.ctrlNow (s : State) (what : Nat) (args : List Nat) : State := s.tlSeq 4 0xFF true (Config.ctrlBytes what args)

/-! ### The member set -/

/-- The member set changes: source 217 and a MEMBER_CHANGE entry (R236). -/
def State.setMembers (s : State) (m : Nat) : State :=
  if s.get F.TVL_STAT_MEMBERS = m % 8 then s
  else ((s.set F.TVL_STAT_MEMBERS m).raise 217).report .MEMBER_CHANGE srcTvl [m % 8]

def State.addMember (s : State) (q : Nat) : State :=
  let s := s.setPeer q { s.peer q with removed := none, missed := 0, out := false }
  s.setMembers (s.get F.TVL_STAT_MEMBERS ||| 2 ^ (q - 1))

/-- A member is removed; the instant of its last frame is kept for the quiet period of R231. -/
def State.removeMember (s : State) (q : Nat) : State :=
  if s.isMember q then
    let s := s.setPeer q { s.peer q with removed := some ((s.peer q).last.getD 0), missed := 0 }
    s.setMembers (s.get F.TVL_STAT_MEMBERS - 2 ^ (q - 1))
  else s

/-- A member is removed by a rule although its frames may still say MEMBER: it stays removed until it has left that state (R227, R236). -/
def State.expel (s : State) (q : Nat) : State :=
  if s.isMember q then (s.setPeer q { s.peer q with out := true }).removeMember q else s

/-! ### Links (R216) -/

/-- A port goes down; a peer that no port reaches any more is not known to be MEMBER. -/
def State.linkFalls (s : State) (p : Nat) : State :=
  if s.flag (F.TVL_LINKSTAT_UP p) then
    let s := ((s.set (F.TVL_LINKSTAT_UP p) 0).set { F.TVL_STAT_LINK_UP with lo := 18 + p, w := 1 } 0).inc (F.TVL_LINKCNT_DOWN p)
    let q := s.cabled p
    let s := if s.duplex && s.flag (F.TVL_LINKSTAT_UP (1 - p)) then s else s.setPeer q { s.peer q with mstate := 0 }
    { s.raise 218 with tvl := { s.tvl with fresh := tput boolD s.tvl.fresh p true, bad := tput natD s.tvl.bad p 0 } }
  else s

/-- LINK_DOWN (R216). -/
def linkDown (p : Nat) (s : State) : State := s.linkFalls p

/-- LINK_UP (R216): the lanes are powered and block lock has been held. -/
def linkUp (p : Nat) (s : State) : State :=
  if s.tvl.lanes && !(s.flag (F.TVL_LINKSTAT_UP p)) && !(s.flag (F.TVL_LINKSTAT_POS_ERR p)) then
    let s := (s.set (F.TVL_LINKSTAT_UP p) 1).set { F.TVL_STAT_LINK_UP with lo := 18 + p, w := 1 } 1
    { s.raise 219 with tvl := { s.tvl with upAt := tput natD s.tvl.upAt p s.clk.t, fresh := tput boolD s.tvl.fresh p false } }
  else s

/-! ### Receiving (R215, R244) -/

/-- A violation of R244 is counted. -/
def State.tlViolation (s : State) (p : Nat) : State := s.inc (F.TVL_LINKCNT_VIOLATION p)

/-- A violation that is also recorded, with source 222. -/
def State.tlViolationRec (s : State) (p typ : Nat) : State :=
  ((s.tlViolation p).raise 222).report .TL_VIOLATION srcTvl [p, typ]

/-- LEN fits TYPE and the group's image size (R217, R244). -/
def State.tlLenOk (s : State) (f : TlFrame) : Bool :=
  f.len == f.payload.length &&
  match f.typ with
  | 1 => (s.group? f.group).map (fun d => d.inBytes) == some f.len
  | 2 => f.len == 8
  | 3 => (s.group? f.group).map (fun d => d.outBytes + 8) == some f.len
  | 4 => decide (4 ≤ f.len ∧ f.len ≤ 64)
  | 5 => decide (f.len ≤ 4096)
  | _ => f.len == 2

/-- Two frames are copies of one (R215): RAW, DIG and OUT frames by TYPE, GROUP, MFC and CCOUNT, the others by TYPE and FSEQ. -/
def tlCopy (a b : TlFrame) : Bool :=
  a.typ == b.typ && (if a.typ ≤ 3 then a.group == b.group && a.mfc == b.mfc && a.cc == b.cc else a.fseq == b.fseq)

/-- A RAW, DIG or OUT frame names another task cycle (R244). -/
def State.tlOther (s : State) (f : TlFrame) : Bool :=
  decide (f.typ ≤ 3) && (f.mfc != s.get F.TVL_MFC_W || f.cc != (s.grp f.group).frzCount || !(s.grp f.group).on)

/-- A frame that has been taken is kept for the comparison of copies: the last 16 CTRL, SYNC and REL frames, and the RAW, DIG and OUT frames
of the running task cycles (R215). -/
def TlPeer.keep (q : TlPeer) (f : TlFrame) : TlPeer :=
  if f.typ ≤ 3 then { q with copies := f :: q.copies } else { q with taken := (f :: q.taken).take 16 }

/-- What a frame that passes its checks says of its sender: position, membership, instant. A peer that says MEMBER joins the member set, but for
one that a rule has removed and that has not left that state since. -/
def State.tlNote (s : State) (p : Nat) (f : TlFrame) : State :=
  let q := s.peer f.sender
  let s := (s.setPeer f.sender ({ q with last := some s.clk.t, mstate := f.mstate, out := q.out && f.mstate == 4 }.keep f)).set
    (F.TVL_LINKSTAT_PEER_POS p) f.sender
  if f.mstate = 4 then
    if decide (1 ≤ s.mstate ∧ s.mstate ≤ 4) && !(s.isMember f.sender) && !q.out && (s.sup.st == .run || s.sup.st == .hold) then s.addMember f.sender else s
  else s.removeMember f.sender

/-- A frame received on a port is checked under R244; `some` is the state in which its content may be used. -/
def State.tlTake (s : State) (p : Nat) (f : TlFrame) (typ : Nat) : State × Bool :=
  if !s.alive || !(s.flag (F.TVL_LINKSTAT_UP p)) then (s, false)
  else if !f.ok then
    let s := (s.inc (F.TVL_LINKCNT_CRC_ERR p)).transitFail srcTvl p s.stamp
    let n := tget natD s.tvl.bad p + 1
    let s := { s with tvl := { s.tvl with bad := tput natD s.tvl.bad p n } }
    (if 16 ≤ n then s.linkFalls p else s, false)
  else
    let s := { s with tvl := { s.tvl with bad := tput natD s.tvl.bad p 0 } }
    if f.typ < 1 ∨ 6 < f.typ ∨ f.rsv ∨ !(s.tlLenOk f) then (s.tlViolationRec p f.typ, false)
    else if f.sender ≠ s.cabled p then
      ((((s.set (F.TVL_LINKSTAT_POS_ERR p) 1).set (F.TVL_LINKSTAT_PEER_POS p) f.sender).linkFalls p), false)
    else if s.tlOther f then (s.tlViolation p, false)
    else if f.typ ≠ typ then (s, false)
    else
      match ((s.peer f.sender).taken ++ (s.peer f.sender).copies).find? (fun c => tlCopy c f) with
      | some c => (if c = f then s else s.tlViolation p, false)
      | none => (s.tlNote p f, true)

/-! ### Combining raw images (R220) -/

/-- The bit-wise class on one byte. -/
def agrBit (two : Nat) : List Byte → Byte
  | [a] => a
  | [a, b] => if two = 0 then a &&& b else a ||| b
  | [a, b, c] => (a &&& b) ||| (a &&& c) ||| (b &&& c)
  | _ => 0

/-- The order key of a value of a median class. -/
def agrKey (cls : Nat) (b : List Byte) : Int :=
  let n := leNat b
  match cls with
  | 1 => toSigned 16 n
  | 2 => toSigned 32 n
  | 3 => n
  | 4 => if 2 ^ 31 ≤ n then -((n - 2 ^ 31 : Nat) : Int) - 1 else n
  | _ => toSigned 64 n

/-- The median of three, the lower or higher of two, by a key. -/
def agrMid {α : Type} (key : α → Int) (two : Nat) (dflt : α) : List α → α
  | [a] => a
  | [a, b] => if (two = 0) = (key a ≤ key b) then a else b
  | [a, b, c] =>
    if (key a ≤ key b ∧ key b ≤ key c) ∨ (key c ≤ key b ∧ key b ≤ key a) then b
    else if (key b ≤ key a ∧ key a ≤ key c) ∨ (key c ≤ key a ∧ key a ≤ key b) then a else c
  | _ => dflt

/-- The value two contributors share; none if no two agree. -/
def agrExact : List (List Byte) → Option (List Byte)
  | [a] => some a
  | [a, b] => if a = b then some a else none
  | [a, b, c] => if a = b ∨ a = c then some a else if b = c then some b else none
  | _ => none

/-- One quality byte (R199): STATE and AGE median, SUBST and FORCED majority; with two, STATE lower, AGE higher, OR. -/
def agrQual (l : List Byte) : Byte :=
  let st := agrMid (fun n : Nat => (n : Int)) 0 0 (l.map fun b => b.toNat % 4)
  let age := agrMid (fun n : Nat => (n : Int)) 1 0 (l.map fun b => b.toNat / 16)
  let fl := (agrBit 1 l).toNat / 4 % 4
  BitVec.ofNat 8 (age * 16 + fl * 4 + st)

/-- The unit of a class in bytes; 0: the whole entry. -/
def agrUnit : Nat → Nat
  | 0 => 1
  | 1 => 2
  | 2 => 4
  | 3 => 4
  | 4 => 4
  | 5 => 8
  | 6 => 0
  | _ => 1

/-- The combined value of one unit. -/
def agrOne (cls two : Nat) (l : List (List Byte)) : List Byte :=
  if cls = 0 then [agrBit two (l.map fun b => b.headD 0)]
  else if cls = 7 then [agrQual (l.map fun b => b.headD 0)]
  else agrMid (agrKey cls) two [] l

/-- The units of an entry from offset `o` on. -/
def agrUnits (cls two u : Nat) (imgs : List (List Byte)) : Nat → Nat → List Byte
  | 0, _ => []
  | n + 1, o => agrOne cls two (imgs.map fun i => sliceB i o u) ++ agrUnits cls two u imgs n (o + u)

/-- The combined bytes of an entry, and whether an EXACT entry ended at 0 for want of agreement. -/
def agrEntry (e : AgrEntry) (imgs : List (List Byte)) : List Byte × Bool :=
  if e.cls = 6 then
    match agrExact (imgs.map fun i => sliceB i e.ofs e.len) with
    | some v => (v, false)
    | none => (List.replicate e.len 0, true)
  else (agrUnits e.cls e.two (agrUnit e.cls) imgs (e.len / agrUnit e.cls) e.ofs, false)

/-- `l` with the bytes from offset `o` on replaced by `v`. -/
def overlay (l : List Byte) (o : Nat) (v : List Byte) : List Byte := l.take o ++ v ++ l.drop (o + v.length)

/-- The agreed image of the contributors' images, and the number of EXACT entries without agreement (R219, R220). -/
def agree (map : List AgrEntry) (n : Nat) (imgs : List (List Byte)) : List Byte × Nat :=
  map.foldl (fun (c : List Byte × Nat) e =>
    let r := agrEntry e imgs
    (overlay c.1 e.ofs r.1, c.2 + b2n r.2)) (agrUnits 0 0 1 imgs n 0, 0)

/-! ### Agreement (R222, R223) -/

def State.inBytes (s : State) (g : Nat) : Nat := match s.group? g with | some d => d.inBytes | none => 0
def State.outBytes (s : State) (g : Nat) : Nat := match s.group? g with | some d => d.outBytes | none => 0
def State.rawOf (s : State) (g q : Nat) : Option (List Byte) := tget noneD s.tvl.raws (g * 4 + q)
def State.digOf (s : State) (g q : Nat) : Option TlDig := tget noneD s.tvl.digs (g * 4 + q)
def State.outOf (s : State) (g q : Nat) : Option TlOut := tget noneD s.tvl.outs (g * 4 + q)
def State.ownDig (s : State) (g : Nat) : Option TlDig := tget noneD s.tvl.own g

/-- The frames of earlier task cycles of a group are dropped; done at its freeze. -/
def State.tlClear (s : State) (g : Nat) : State :=
  let s := [1, 2, 3].foldl (fun (s : State) q => s.setPeer q { s.peer q with copies := (s.peer q).copies.filter fun f => f.group != g }) s
  { s with tvl := { s.tvl with
      raws := s.tvl.raws.filter (fun c => c.1 / 4 ≠ g), digs := s.tvl.digs.filter (fun c => c.1 / 4 ≠ g),
      outs := s.tvl.outs.filter (fun c => c.1 / 4 ≠ g), own := terase s.tvl.own g } }

/-- The contributors' images of the positions of a mask, this module's own among them. -/
def State.rawsOf (s : State) (g mask : Nat) : List (List Byte) :=
  [1, 2, 3].filterMap fun q =>
    if mask.testBit (q - 1) then (if q = s.pos then some (image (s.grp g).raw (s.inBytes g)) else s.rawOf g q) else none

/-- RAW_FRAME_RX (R222): a peer contributes only if its RAW frame came before the DIG frame was sent. -/
def rawFrameRx (p : Nat) (f : TlFrame) (s : State) : State :=
  let (s, ok) := s.tlTake p f 1
  if ok && (s.ownDig f.group).isNone then
    { s with tvl := { s.tvl with raws := tput noneD s.tvl.raws (f.group * 4 + f.sender) (some f.payload) } }
  else s

/-- A peer member's RAW frame of the running task cycle is still missing. -/
def State.rawMissing (s : State) (g : Nat) : Bool :=
  s.members.any fun q => q != s.pos && (s.rawOf g q).isNone

/-- DIG_SEND (R222 step 3): when every RAW frame is there, or 0.9 us before the agreement deadline. -/
def digSend (g : Nat) (s : State) : State :=
  if s.joined g && !s.simplex && (s.grp g).on && (s.ownDig g).isNone && !(s.grp g).published then
    let s := if s.rawMissing g then s.advance (s.agrDl g - 720) else s
    let mask := [1, 2, 3].foldl (fun m q => if q = s.pos ∨ (s.rawOf g q).isSome then m + 2 ^ (q - 1) else m) 0
    let img := (agree (tget nilD s.cfg.agr g) (s.inBytes g) (s.rawsOf g mask)).1
    let d : TlDig := ⟨mask, s.get F.TVL_STAT_LINK_UP, crc32c img⟩
    let s := { s with tvl := { s.tvl with own := tput noneD s.tvl.own g (some d) } }
    s.tlGroupFrame 2 g false ([BitVec.ofNat 8 d.mask, BitVec.ofNat 8 d.ports, 0, 0] ++ leBytes 4 d.digest)
  else s

/-- DIG_FRAME_RX (R222, R223): it counts if received 20 ns before the agreement deadline. -/
def digFrameRx (p : Nat) (f : TlFrame) (s : State) : State :=
  let (s, ok) := s.tlTake p f 2
  if ok && decide (s.clk.t + 16 ≤ s.agrDl f.group) then
    { s with tvl := { s.tvl with digs := tput noneD s.tvl.digs (f.group * 4 + f.sender) (some ⟨fieldLe f.payload 0 1, fieldLe f.payload 1 1, fieldLe f.payload 4 4⟩) } }
  else s

/-- The marking of R223: 0 agreed, 1 ABSTAIN, 2 UNAGREED. -/
def digMarking (own : Nat) (peers : List Nat) : Nat :=
  if peers = [] ∨ peers.contains own then 0
  else match peers with | [a, b] => if a = b then 1 else 2 | _ => 2

/-! ### Leases given up (R232), and exclusion (R239) -/

/-- The TVL and guardian copies of a lease end. -/
def State.leaseClear (s : State) (k : Nat) : State :=
  let s := s.setLease k { s.lease k with mine := none, forever := false, reqNow := none, reqPrev := none, claim := none, hand := none }
  (s.set { F.TVL_STAT_HELD with lo := k, w := 1 } 0).set (F.TVL_LSTAT_GUARDIAN k) 0

/-- Output group `k` is held. -/
def State.holds (s : State) (k : Nat) : Bool := (s.get F.TVL_STAT_HELD).testBit k

/-- R232: TVL copies, guardian copies, safety-class outputs, REL frame. -/
def State.release (s : State) (mask : Nat) : State :=
  let ks := (List.range 16).filter fun k => mask.testBit k && s.holds k
  if ks = [] then s else
  let s := ks.foldl (fun s k => ((s.leaseClear k).set (F.TVL_LSTAT_RELEASED k) 1).doGroupOff k) s
  let s := ks.foldl (fun s k => s.setLease k { s.lease k with relAt := s.clk.t }) s
  let m := ks.foldl (fun m k => m + 2 ^ k) 0
  (if s.simplex then s else s.tlSeq 6 0xFF true (leBytes 2 m)).raise 216

/-- Every lease held is released. -/
def State.releaseAll (s : State) : State := s.release 0xFFFF

/-- The module enters EXCLUDED: its leases are released (R239). -/
def State.exclude (s : State) (port : Option Nat) : State :=
  let s := (s.releaseAll).set F.TVL_STAT_MSTATE 5
  let s := if s.isMember s.pos then s.setMembers (s.get F.TVL_STAT_MEMBERS - 2 ^ (s.pos - 1)) else s
  (([0, 1, 2, 3].foldl (fun s g => s.setGrp g { s.grp g with on := false }) s).set F.TVL_STAT_DONOR 0 |> fun s =>
    { s with tvl := { s.tvl with exclPort := port, exclAt := s.optime :: s.tvl.exclAt, sync := Sync.none } })

/-- Synchronisation or probation fails (R239): SYNC_FAIL, source 221, EXCLUDED. -/
def State.syncFails (s : State) : State := ((s.exclude none).raise 221).report .SYNC_FAIL srcTvl [s.mstate]

/-! ### The link rule and missing RAW frames (R236) -/

/-- The link rule for a port whose link has newly gone down: the third member's DIG frame decides. -/
def State.linkRule (s : State) (g p : Nat) : State :=
  if !(tget boolD s.tvl.fresh p) then s else
  let s := { s with tvl := { s.tvl with fresh := tput boolD s.tvl.fresh p false } }
  let far := s.cabled p
  let third := s.cabled (1 - p)
  if !s.triplex || !(s.isMember far) || !(s.isMember third) then s else
  match s.digOf g third with
  | some d =>
    if d.mask.testBit (s.pos - 1) && d.mask.testBit (far - 1) then
      if far < s.pos then (s.exclude (some p)).report .LINK_EXCLUDE srcTvl [p, far]
      else s.expel far
    else s
  | none => s

/-- A member whose RAW frames are missing at every other member in two consecutive agreements is removed (R236). -/
def State.missRule (s : State) (g q : Nat) : State :=
  if q = s.pos || !(s.isMember q) then s else
  let lacks (d : TlDig) : Bool := !d.mask.testBit (q - 1)
  let own := match s.ownDig g with | some d => lacks d | none => false
  let others := s.members.all fun r => r == s.pos || r == q || (match s.digOf g r with | some d => lacks d | none => true)
  if own && others then
    let n := (s.peer q).missed + 1
    let s := s.setPeer q { s.peer q with missed := n }
    if 2 ≤ n then (s.setPeer q { s.peer q with mstate := 0 }).expel q else s
  else s.setPeer q { s.peer q with missed := 0 }

/-- Engine `e`'s range of a group's input image (R172), as a list of bytes of an image. -/
def State.leRange (s : State) (e g : Nat) (img : List Byte) : List Byte :=
  sliceB img (s.get (F.LE_IMAP_SRC e g) * 64) (s.get (F.LE_IMAP_LEN e g) * 64)

/-- The instant at which an engine's input range shows the set finally fixed: the bytes that differ from the image of all contributors are
rewritten at 16 per fabric cycle from the fixing on (R222). -/
def State.leRewritten (s : State) (e g : Nat) (all fixed : List Byte) : Nat :=
  let d := (((s.leRange e g all).zip (s.leRange e g fixed)).filter fun c => c.1 != c.2).length
  if d = 0 || !(s.flag (F.LE_IMAP_EN e g)) then 0 else s.clk.t + 2 * ((d + 15) / 16)

/-- AGREEMENT_FIX (R222 step 5, R223): the contributor set is fixed and the task cycle marked. -/
def agreementFix (g : Nat) (s : State) : State :=
  match s.ownDig g with
  | some d =>
    if (s.grp g).on && !(s.grp g).published && s.joined g then
      let s := s.advance ((s.grp g).frz + s.tlTime (s.inBytes g))
      let peers := [1, 2, 3].filterMap fun q => if q = s.pos then none else (s.digOf g q).map fun c => c.digest
      let mark := digMarking d.digest peers
      let mask := if peers = [] then 2 ^ (s.pos - 1) else d.mask
      let r := agree (tget nilD s.cfg.agr g) (s.inBytes g) (s.rawsOf g mask)
      let all := (agree (tget nilD s.cfg.agr g) (s.inBytes g) (s.rawsOf g d.mask)).1
      let ready : Tbl Nat := [0, 1].foldl (fun (t : Tbl Nat) e => tput natD t e (s.leRewritten e g all r.1)) []
      let s := s.setGrp g { s.grp g with marking := mark, contributors := mask, agreed := ofImage r.1, leReady := ready }
      let s := s.incBy F.TVL_AGRCNT_NOMAJ_IN r.2
      let s := if mark = 1 then (s.inc F.TVL_AGRCNT_ABSTAIN).raise 208
               else if mark = 2 then (s.inc F.TVL_AGRCNT_UNAGREED).raise 209 else s
      if s.mstate = 4 then
        let s := [0, 1].foldl (fun s p => s.linkRule g p) s
        if s.mstate = 4 then [1, 2, 3].foldl (fun s q => s.missRule g q) s else s
      else s
    else s
  | none => s

/-! ### The vote (R224 to R228) -/

/-- An output group's range in its cycle group's output image, as offset and length in bytes. -/
def State.ogOfs (s : State) (k : Nat) : Nat := s.get (F.TVL_OGRP_OFS8 k) * 8
def State.ogLen (s : State) (k : Nat) : Nat := s.get (F.TVL_OGRP_LEN8 k) * 8
/-- The enabled output groups of a cycle group. -/
def State.ogroups (s : State) (g : Nat) : List Nat :=
  (List.range 16).filter fun k => s.flag (F.TVL_OGRP_EN k) && s.get (F.TVL_OGRP_CGRP k) == g
/-- t_L of an output group in microticks (R235). -/
def State.tL (s : State) (k : Nat) : Nat :=
  if s.get (F.TVL_LTIME_TL_MT k) = 0 then max (3 * s.tc (s.get (F.TVL_OGRP_CGRP k))) (2000 * usUt)
  else s.get (F.TVL_LTIME_TL_MT k) * mtUt
/-- t_G of an output group in microticks (R235). -/
def State.tGuard (s : State) (k : Nat) : Nat := (s.get (F.TVL_LTIME_GUARD k) + 1) * s.tg

/-- What a vote on one group came to (R226). -/
inductive VoteEnd where
  | fine
  | dissent (q : Nat)
  | nomaj
  | mismatch
  deriving DecidableEq, Repr

/-- The table of R226 for one or more voters. -/
def voteValue (duplex : Bool) (holder len : Nat) : List (Nat × List Byte) → List Byte × VoteEnd
  | [a] => (a.2, .fine)
  | [a, b] =>
    if a.2 = b.2 then (a.2, .fine)
    else if duplex then
      ((if a.1 = holder then a.2 else if b.1 = holder then b.2 else List.replicate len 0), .mismatch)
    else (List.replicate len 0, .nomaj)
  | [a, b, c] =>
    if a.2 = b.2 ∧ a.2 = c.2 then (a.2, .fine)
    else if a.2 = b.2 then (a.2, .dissent c.1)
    else if a.2 = c.2 then (a.2, .dissent b.1)
    else if b.2 = c.2 then (b.2, .dissent a.1)
    else (List.replicate len 0, .nomaj)
  | _ => (List.replicate len 0, .fine)

/-- The offset of the first byte at which two byte strings differ. -/
def firstDiff : List Byte → List Byte → Nat
  | a :: r, b :: t => if a = b then firstDiff r t + 1 else 0
  | _, _ => 0

/-- This module's own offer to the vote of a group. -/
def State.offer8 (s : State) (g : Nat) : List Byte := image (s.grp g).offered (s.outBytes g)

/-- The position that holds a group's lease by this module's record; 0 while no member holds it (R226): it has been released, or its expiry has
passed. -/
def State.holderNow (s : State) (k : Nat) : Nat :=
  let h := s.get (F.TVL_LSTAT_HOLDER k)
  if h = s.pos then (if s.holds k then h else 0)
  else if s.flag (F.TVL_LSTAT_RELEASED k) then 0
  else match (s.lease k).expiry with | some e => if s.clk.t < e then h else 0 | none => 0

/-- The voters of a task cycle with their output images (R225). -/
def State.voters (s : State) (g : Nat) : List (Nat × List Byte) :=
  if s.simplex then [(s.pos, s.offer8 g)] else
  [1, 2, 3].filterMap fun q =>
    if q = s.pos then (if s.voting && (s.grp g).marking == 0 then some (q, s.offer8 g) else none)
    else match s.outOf g q with
      | some o => if s.isMember q && !o.abstain then some (q, o.image) else none
      | none => none

/-- OUT_FRAME_RX (R225, R217): it counts if received 40 ns before the output instant. -/
def outFrameRx (p : Nat) (f : TlFrame) (s : State) : State :=
  let (s, ok) := s.tlTake p f 3
  if ok && decide (s.clk.t + 32 ≤ s.outInstAt f.group) then
    { s with tvl := { s.tvl with outs := tput noneD s.tvl.outs (f.group * 4 + f.sender) (some ⟨f.abstain, fieldLe f.payload 0 2, fieldLe f.payload 2 2, fieldLe f.payload 4 2, f.payload.drop 8⟩) } }
  else s

/-- What the module does about the outcome of one group's vote (R226, R227). -/
def State.voteOutcome (s : State) (k : Nat) (v : List Byte) (e : VoteEnd) (vs : List (Nat × List Byte)) : State :=
  match e with
  | .fine => s
  | .nomaj => ((s.inc F.TVL_VOTECNT_NOMAJ).raise 212).report .NOMAJ srcTvl [k]
  | .mismatch => (s.inc F.TVL_VOTECNT_CMP_MISMATCH).raise 213
  | .dissent q =>
    let d := match vs.find? (fun c => c.1 == q) with | some c => firstDiff c.2 v | none => 0
    if q = s.pos then
      if s.mstate = 5 then s else
      (((s.report .SELF_DISSENT srcTvl [k, s.ogOfs k + d]).raise 211).exclude none)
    else ((s.inc F.TVL_VOTECNT_DISSENT).report .PEER_DISSENT srcTvl [k, s.ogOfs k + d, q]).raise 210

/-- The vote on one output group; the result is the state and the outcome. -/
def State.voteGroup (s : State) (g k : Nat) (vs : List (Nat × List Byte)) : State × VoteEnd :=
  let len := s.ogLen k
  let cutTo (l : List Byte) : List Byte := sliceB l (s.ogOfs k) len
  let mine := vs.map fun c => (c.1, cutTo c.2)
  let r := if vs = [] then
      ((if tget boolD s.tvl.noVoter g then List.replicate len 0 else cutTo (image (s.grp g).voted (s.outBytes g))), VoteEnd.fine)
    else voteValue s.duplex (s.holderNow k) len mine
  let s := s.setGrp g { s.grp g with voted := tputList byteD (s.grp g).voted (s.ogOfs k) r.1 }
  (s.voteOutcome k r.1 r.2 mine, r.2)

/-! ### Renewal (R229, R230) -/

/-- The receiver of a planned handover has no valid guardian copy before H + t_G (R237). -/
def State.guardWaits (s : State) (k : Nat) : Bool := match (s.lease k).hand with | some h => h.rcv == s.pos && h.tm.isSome | none => false

/-- The TVL loads the guardian with the remaining time; its copy is valid (R233), but for the first t_G of a planned handover (R237). -/
def State.adopt (s : State) (k e : Nat) : State :=
  let s := s.setLease k { s.lease k with mine := some e, expiry := some e }
  if s.guardWaits k then s else s.set (F.TVL_LSTAT_GUARDIAN k) 1

/-- The port on which a peer's frames come. -/
def State.portOf (s : State) (q : Nat) : Nat := if s.cabled 0 = q then 0 else 1

/-- Renewal by the holder at its vote completion (R229 step 3, R230). -/
def State.renewMine (s : State) (g k : Nat) : State :=
  let l := s.lease k
  let signers := [1, 2, 3].filter fun q => q != s.pos && s.isMember q &&
    (match s.outOf g q with | some o => o.csign.testBit k | none => false)
  let s := match l.reqPrev with
    | some e => if signers = [] then s else s.adopt k e
    | none => signers.foldl (fun s q => s.tlViolationRec (s.portOf q) 3) s
  let s := match l.reqNow with
    | some e => if s.duplex && s.members == [s.pos] then s.adopt k e else s
    | none => s
  s.setLease k { s.lease k with reqPrev := l.reqNow, reqNow := none }

/-- A member's record of a peer's renewal request (R229 step 2, R244). A module that has joined a running VCU learns the holder from the first
one. -/
def State.recordReq (s : State) (g k q : Nat) (e : VoteEnd) : State :=
  match s.outOf g q with
  | some o =>
    if !o.req.testBit k then s
    else if s.get (F.TVL_LSTAT_HOLDER k) ≠ q ∧ !(s.lease k).unknown then s.tlViolationRec (s.portOf q) 3
    else if e = .dissent q then s
    else
      let s := ((s.setLease k { s.lease k with expiry := some (s.outInstAt g + s.tL k), sign := true, unknown := false }).set (F.TVL_LSTAT_HOLDER k) q).set
        (F.TVL_LSTAT_RELEASED k) 0
      if s.tvl.takeBack.contains k then
        let s := { s with tvl := { s.tvl with takeBack := s.tvl.takeBack.filter fun i => i != k } }
        (s.setLease k { s.lease k with hand := some ⟨q, s.pos, none⟩ }).ctrl 3 [k]
      else s
  | none => s

/-- Lease records at the completion of a vote: countersignatures without a REQ seen before are violations (R244). -/
def State.leaseVote (s : State) (g k : Nat) (e : VoteEnd) : State :=
  if s.simplex then s else
  let has (m : TlOut → Nat) (q : Nat) : Bool := q != s.pos && (match s.outOf g q with | some o => (m o).testBit k | none => false)
  let stray := if (s.lease k).mine.isSome || (s.lease k).reqSeen then [] else [1, 2, 3].filter (has (fun o => o.csign))
  let asked := [1, 2, 3].any (has (fun o => o.req))
  let s := stray.foldl (fun (s : State) q => s.tlViolationRec (s.portOf q) 3) s
  let s := if (s.lease k).mine.isSome then s.renewMine g k else s
  let s := if s.mstate = 4 then [1, 2, 3].foldl (fun s q => if q = s.pos then s else s.recordReq g k q e) s else s
  s.setLease k { s.lease k with reqSeen := asked }

/-- The vote of R226 over every enabled group of a cycle group, with its consequences for the leases. -/
def State.voteAll (s : State) (g : Nat) : State × List VoteEnd :=
  let vs := s.voters g
  (s.ogroups g).foldl (fun (c : State × List VoteEnd) k =>
    let r := c.1.voteGroup g k vs
    (r.1.leaseVote g k r.2, r.2 :: c.2)) (s, [])

/-- Consecutive duplex mismatches (R228). -/
def State.compareLimit (s : State) (g : Nat) (ends : List VoteEnd) : State :=
  if !s.duplex then s
  else if ends.contains .mismatch then
    let n := tget natD s.tvl.mism g + 1
    let s := { s with tvl := { s.tvl with mism := tput natD s.tvl.mism g n } }
    if n = s.get F.TVL_CFG_COMPARE_LIMIT then
      let s : State := [0, 1, 2, 3].foldl (fun s p => if s.pairFitted p then s.modPair p (fun q => { q with cmpDue := true }) else s) s
      let s : State := [0, 1].foldl (fun s e => if s.engineFitted e then s.set (F.LE_CMPST_DUE e) 1 else s) s
      if s.get F.TVL_STAT_HELD = 0 then s.exclude none else s
    else s
  else { s with tvl := { s.tvl with mism := tput natD s.tvl.mism g 0 } }

/-- A module in PROBATION compares its OUT images with the voted values (R239). -/
def State.probation (s : State) (g : Nat) : State :=
  if s.mstate = 3 then
    let bad := (s.ogroups g).any fun k =>
      sliceB (s.offer8 g) (s.ogOfs k) (s.ogLen k) != sliceB (image (s.grp g).voted (s.outBytes g)) (s.ogOfs k) (s.ogLen k)
    if bad && !(s.voters g).isEmpty then s.syncFails else s
  else s

/-- The peers that this module saw dissent and that the third member saw dissent as well leave the member set at the end of the vote (R227);
bit q - 1 of `seen` says that the third member saw position q dissent. -/
def State.expelDissent (s : State) (ends : List VoteEnd) (seen : Nat) : State :=
  [1, 2, 3].foldl (fun (s : State) q => if q ≠ s.pos ∧ ends.contains (.dissent q) ∧ seen.testBit (q - 1) then s.expel q else s) s

/-- The vote of a group completes (R225 to R230). -/
def State.voteCompletes (s : State) (g seen : Nat) : State :=
  let s := s.advance (s.outCloseAt g + s.tlTime (s.outBytes g))
  let novoter := (s.voters g).isEmpty
  let s := s.setGrp g { s.grp g with voteDone := true, voted := if novoter then (s.grp g).voted else ofImage (match (s.voters g).find? (fun c => c.1 == s.pos) with | some c => c.2 | none => s.offer8 g) }
  let r := s.voteAll g
  let s := { r.1 with tvl := { r.1.tvl with noVoter := tput boolD r.1.tvl.noVoter g novoter } }
  ((s.expelDissent r.2 seen).compareLimit g r.2).probation g

/-! ### Counter clears -/

/-- TVL_AGRCNT_CLR (R223). -/
def tvlAgrcntClr (s : State) : State := ((s.set F.TVL_AGRCNT_ABSTAIN 0).set F.TVL_AGRCNT_UNAGREED 0).set F.TVL_AGRCNT_NOMAJ_IN 0
/-- TVL_VOTECNT_CLR (R226). -/
def tvlVotecntClr (s : State) : State := ((s.set F.TVL_VOTECNT_DISSENT 0).set F.TVL_VOTECNT_NOMAJ 0).set F.TVL_VOTECNT_CMP_MISMATCH 0
/-- TVL_LINKCNT_CLR (R244). -/
def tvlLinkcntClr (p : Nat) (s : State) : State :=
  ((s.set (F.TVL_LINKCNT_CRC_ERR p) 0).set (F.TVL_LINKCNT_VIOLATION p) 0).set (F.TVL_LINKCNT_DOWN p) 0

/-! ### The commands -/

/-- RAW_FRAME_RX. -/
def execRawFrameRx (p : Fin 2) (f : TlFrame) (s : State) : Host.Outcome State Fault Refusal := .next (rawFrameRx p f s)
/-- DIG_SEND. -/
def execDigSend (g : Fin 4) (s : State) : Host.Outcome State Fault Refusal := .next (digSend g s)
/-- DIG_FRAME_RX. -/
def execDigFrameRx (p : Fin 2) (f : TlFrame) (s : State) : Host.Outcome State Fault Refusal := .next (digFrameRx p f s)
/-- AGREEMENT_FIX. -/
def execAgreementFix (g : Fin 4) (s : State) : Host.Outcome State Fault Refusal := .next (agreementFix g s)
/-- OUT_FRAME_RX. -/
def execOutFrameRx (p : Fin 2) (f : TlFrame) (s : State) : Host.Outcome State Fault Refusal := .next (outFrameRx p f s)
/-- LINK_DOWN. -/
def execLinkDown (p : Fin 2) (s : State) : Host.Outcome State Fault Refusal := .next (linkDown p s)
/-- LINK_UP. -/
def execLinkUp (p : Fin 2) (s : State) : Host.Outcome State Fault Refusal := .next (linkUp p s)
/-- TVL_AGRCNT_CLR. -/
def execTvlAgrcntClr (s : State) : Host.Outcome State Fault Refusal := .next (tvlAgrcntClr s)
/-- TVL_VOTECNT_CLR. -/
def execTvlVotecntClr (s : State) : Host.Outcome State Fault Refusal := .next (tvlVotecntClr s)
/-- TVL_LINKCNT_CLR. -/
def execTvlLinkcntClr (p : Fin 2) (s : State) : Host.Outcome State Fault Refusal := .next (tvlLinkcntClr p s)

end Sys2Proof.Machine
end

