-- ==== Sys2Proof/Machine/Lease.lean ====
section
/-!
DEFINITION. Output-group leases, planned handovers, joint Run entry and reintegration (chapter 8, R229 to R242).
-/
namespace Sys2Proof.Machine

/-- The cycle group of an output group. -/
def State.ogGroup (s : State) (k : Nat) : Nat := s.get (F.TVL_OGRP_CGRP k)

/-- The successor in an output group: the first member in the order PREF, PREF + 1, PREF + 2 other than the holder (R231). -/
def State.successor (s : State) (k : Nat) : Option Nat :=
  let pref := s.get (F.TVL_OGRP_PREF k)
  let order := [pref, pref % 3 + 1, (pref + 1) % 3 + 1]
  order.find? fun q => s.isMember q && q != s.get (F.TVL_LSTAT_HOLDER k)

/-- The quiet period of R231: no member other than the holder has been removed so lately. -/
def State.quiet (s : State) (k oi : Nat) : Bool :=
  s.flag (F.TVL_LSTAT_RELEASED k) ||
  [1, 2, 3].all fun q => q == s.get (F.TVL_LSTAT_HOLDER k) || s.isMember q ||
    match (s.peer q).removed with
    | some t => decide (t + s.tL k + s.tGuard k + s.tc (s.ogGroup k) + 2 * usUt ≤ oi)
    | none => true

/-- OI_c lies at or after the recorded E + t_G, or the lease is released (R231). -/
def State.afterExpiry (s : State) (k oi : Nat) : Bool :=
  s.flag (F.TVL_LSTAT_RELEASED k) || match (s.lease k).expiry with | some e => decide (e + s.tGuard k ≤ oi) | none => true

/-- A position transmits a slot ID that is bound to no output group and to no other position (R231, R287): its frames show life. -/
def State.ghWitness (s : State) (q : Nat) : Bool :=
  match s.clu with | some c => c.slots.any fun d => d.ogrp == 0xFF && d.txPos == 2 ^ (q - 1) | none => false

/-- E0 or E1 is enabled. -/
def State.portsOn (s : State) : Bool := s.flag (F.ETH_PORT_CFG_EN 0) || s.flag (F.ETH_PORT_CFG_EN 1)

/-- In duplex, a member that is alone and is not the holder claims only after its peer's silence outside the Tri-link, where the peer has a
way to show life there (R231). -/
def State.peerSilent (s : State) (k : Nat) : Bool :=
  !(s.duplex && s.members == [s.pos]) || !(s.ghWitness (3 - s.pos) || s.portsOn) ||
    decide (s.tvl.witness + s.tL k + s.tGuard k ≤ s.clk.t)

/-- The claim instant this module's CLAIM names (R231). -/
def State.claimOi (s : State) (k : Nat) : Nat :=
  if s.flag (F.TVL_LSTAT_RELEASED k) then s.oiAt (s.ogGroup k) (max ((s.lease k).relAt + 5 * usUt) s.clk.t)
  else s.oiAt (s.ogGroup k) (max ((match (s.lease k).expiry with | some e => e + s.tGuard k | none => 0)) (s.clk.t + 5 * usUt))

/-- CLAIM (R231, R230). -/
def claim (k : Nat) (s : State) : State :=
  if s.voting && !s.simplex && s.flag (F.TVL_OGRP_EN k) && !(s.holds k) && (s.lease k).claim.isNone && s.successor k == some s.pos
      && !(s.triplex && s.members == [s.pos]) && (s.grp (s.ogGroup k)).on then
    let oi := s.claimOi k
    let s := if s.flag (F.TVL_LSTAT_RELEASED k) then s else s.advance (oi - 5 * usUt)
    if s.afterExpiry k oi && s.quiet k oi && s.peerSilent k then
      let need := s.members.filter fun q => q != s.pos && q != s.get (F.TVL_LSTAT_HOLDER k)
      (s.setLease k { s.lease k with claim := some ⟨oi, need, []⟩, seen := some (s.pos, oi) }).ctrlNow 1 [k, oi]
    else s
  else s

/-- CLAIM_RX (R231, R244): a member countersigns when the conditions hold in its own view. -/
def claimRx (p : Nat) (f : TlFrame) (k oi : Nat) (s : State) : State :=
  let (s, ok) := s.tlTake p f 4
  if !ok then s
  else if s.successor k ≠ some f.sender ∨ !(s.isMember f.sender) then s.tlViolationRec p 4
  else
  let s := s.setLease k { s.lease k with seen := some (f.sender, oi) }
  if s.voting && s.get (F.TVL_LSTAT_HOLDER k) != s.pos && f.mstate == 4 && s.afterExpiry k oi && s.quiet k oi then
    let s := (s.set (F.TVL_LSTAT_HOLDER k) f.sender).set (F.TVL_LSTAT_RELEASED k) 0
    (s.setLease k { s.lease k with expiry := some (oi + s.tL k), unknown := false }).ctrlNow 2 [k, oi]
  else s

/-- CLAIM_CSIGN_RX (R231, R244): a countersignature counts for the own CLAIM if it comes in time; one that matches no CLAIM sent or received
is a violation. -/
def claimCsignRx (p : Nat) (f : TlFrame) (k oi : Nat) (s : State) : State :=
  let (s, ok) := s.tlTake p f 4
  if !ok then s else
  let other (s : State) : State := if (s.lease k).seen.map (fun c => c.2) == some oi then s else s.tlViolationRec p 4
  match (s.lease k).claim with
  | some c =>
    if c.oi = oi ∧ c.need.contains f.sender then
      if s.clk.t + usUt ≤ oi then s.setLease k { s.lease k with claim := some { c with got := f.sender :: c.got } } else s
    else other s
  | none => other s

/-- The IDs bound to an output group have no range to send before its first release (R293). -/
def State.unbind (s : State) (k : Nat) : State :=
  match s.clu with
  | some c => { s with gh := { s.gh with bound := (c.slots.filter fun d => d.ogrp == k).foldl (fun t d => terase t d.id) s.gh.bound } }
  | none => s

/-- The module becomes holder until an instant, its guardian copy valid or not yet (R233, R237). -/
def State.gain (s : State) (k e : Nat) (guardian : Bool) : State :=
  let s := (s.unbind k).setLease k { s.lease k with expiry := some e, mine := some e, forever := false, reqNow := none, reqPrev := none, sign := false, unknown := false }
  let s := ((s.set { F.TVL_STAT_HELD with lo := k, w := 1 } 1).set (F.TVL_LSTAT_HOLDER k) s.pos).set (F.TVL_LSTAT_RELEASED k) 0
  (s.set (F.TVL_LSTAT_GUARDIAN k) (b2n guardian)).raise 214

/-- LEASE_GAINED (R231): at OI_c, if every countersignature came in time. -/
def leaseGained (k : Nat) (s : State) : State :=
  match (s.lease k).claim with
  | some c =>
    let s := (s.advance c.oi).setLease k { s.lease k with claim := none }
    if c.need.all (fun q => c.got.contains q) && s.voting then s.gain k (c.oi + s.tL k) true else s
  | none => s

/-- LEASE_LOST (R233, R234): the TVL copy lapses without a release. -/
def leaseLost (k : Nat) (s : State) : State :=
  match (s.lease k).mine with
  | some e =>
    let s := s.advance e
    let s := s.setLease k { s.lease k with mine := none, reqNow := none, reqPrev := none, hand := none }
    (((s.set { F.TVL_STAT_HELD with lo := k, w := 1 } 0).doGroupOff k).raise 215).report .LEASE_LOST srcTvl [k, 0]
  | none => s

/-- GUARDIAN_LEASE_LAPSE (R233): a copy that lapses while the TVL copy is valid is flagged GUARDIAN_FIRST. -/
def guardianLeaseLapse (k : Nat) (s : State) : State :=
  if s.flag (F.TVL_LSTAT_GUARDIAN k) then
    let s := s.set (F.TVL_LSTAT_GUARDIAN k) 0
    if (s.lease k).mine.isSome || (s.lease k).forever then (s.raise 215).report .LEASE_LOST srcTvl [k, 1] else s
  else s

/-- REL_FRAME_RX (R232, R244). -/
def relFrameRx (p : Nat) (f : TlFrame) (s : State) : State :=
  let (s, ok) := s.tlTake p f 6
  if !ok then s else
  let mask := leNat f.payload
  let named := (List.range 16).filter fun k => mask.testBit k
  let good := named.filter fun k => s.get (F.TVL_LSTAT_HOLDER k) == f.sender
  let s := good.foldl (fun (s : State) k => (s.set (F.TVL_LSTAT_RELEASED k) 1).setLease k { s.lease k with relAt := s.clk.t }) s
  let s := if good = [] then s else s.raise 216
  if good.length = named.length then s else s.tlViolationRec p 6

/-! ### Planned handover (R237, R241) -/

/-- HANDOVER_PROPOSE (R237): by this module as receiver, or received from the receiver. -/
def handoverPropose (k : Nat) (rx : TlRx) (s : State) : State :=
  match rx with
  | none =>
    if s.voting && !(s.holds k) && s.flag (F.TVL_OGRP_EN k) && s.get (F.TVL_LSTAT_HOLDER k) != 0 && (s.lease k).hand.isNone then
      (s.setLease k { s.lease k with hand := some ⟨s.get (F.TVL_LSTAT_HOLDER k), s.pos, none⟩ }).ctrl 3 [k]
    else s
  | some (p, f) =>
    let (s, ok) := s.tlTake p f 4
    if ok && s.isMember f.sender && f.mstate == 4 && s.get (F.TVL_LSTAT_HOLDER k) != f.sender then
      s.setLease k { s.lease k with hand := some ⟨s.get (F.TVL_LSTAT_HOLDER k), f.sender, none⟩ }
    else s

/-- HANDOVER_ACCEPT (R237): the holder names H, the first output instant at least one major frame after acceptance. -/
def handoverAccept (k : Nat) (rx : TlRx) (h : Nat) (s : State) : State :=
  match rx with
  | none =>
    match (s.lease k).hand with
    | some d =>
      if s.voting && s.holds k && d.frm == s.pos && d.tm.isNone && s.isMember d.rcv then
        let t := s.oiAt (s.ogGroup k) (s.clk.t + s.mfLen * s.tg)
        (s.setLease k { s.lease k with hand := some { d with tm := some t } }).ctrl 4 [k, t]
      else s
    | none => s
  | some (p, f) =>
    let (s, ok) := s.tlTake p f 4
    match (s.lease k).hand with
    | some d => if ok && f.sender == d.frm then s.setLease k { s.lease k with hand := some { d with tm := some h } } else s
    | none => s

/-- HANDOVER_INSTANT (R237). -/
def handoverInstant (k : Nat) (s : State) : State :=
  match (s.lease k).hand with
  | some ⟨frm, rcv, some h⟩ =>
    let s := s.advance h
    if frm = s.pos then
      let s := ((s.leaseClear k).doGroupOff k).set (F.TVL_LSTAT_HOLDER k) rcv
      s.setLease k { s.lease k with expiry := some (h + s.tL k), hand := none }
    else if rcv = s.pos then (if (s.lease k).mine.isSome then s else if s.voting then s.gain k (h + s.tL k) false else s.setLease k { s.lease k with hand := none })
    else (s.setLease k { s.lease k with expiry := some (h + s.tL k), hand := none }).set (F.TVL_LSTAT_HOLDER k) rcv
  | _ => s

/-- HANDOVER_GUARD_START (R237): at H + t_G the receiver's guardian copy becomes valid. -/
def handoverGuardStart (k : Nat) (s : State) : State :=
  match (s.lease k).hand with
  | some ⟨_, rcv, some h⟩ =>
    if rcv = s.pos && (s.lease k).mine.isSome then
      let s := s.advance (h + s.tGuard k)
      (s.set (F.TVL_LSTAT_GUARDIAN k) 1).setLease k { s.lease k with hand := none }
    else s
  | _ => s

/-! ### Instants that bind at an output instant -/

/-- Before an output instant is acted on, what falls due at or before it takes effect: a planned handover, a claim, a lapse (R231, R233, R237). -/
def State.leaseDue (s : State) (t k : Nat) : State :=
  let s := match (s.lease k).hand with
    | some ⟨_, _, some h⟩ => if h ≤ t then handoverInstant k s else s
    | _ => s
  let s := match (s.lease k).claim with | some c => if c.oi ≤ t then leaseGained k s else s | none => s
  match (s.lease k).mine with | some e => if e ≤ t then leaseLost k s else s | none => s

/-! ### Major-frame starts to come (R34, R242) -/

/-- The instant at which the Gheif cycle of an ordinal starts. -/
def State.cycleAt (s : State) (j : Nat) : Nat := s.mt (j * s.tgMt)

/-- The first major-frame start at or after an instant, as an ordinal of Gheif cycle starts. -/
def State.frameFrom (s : State) (t : Nat) : Nat :=
  let b := s.cyc.n + (if s.tg = 0 then 0 else (t - s.cyc.start) / s.tg) - 1
  let ok (i : Nat) : Bool := decide (s.cyc.n ≤ b + i ∧ t ≤ s.cycleAt (b + i)) && (s.cyc.count + (b + i - s.cyc.n)) % s.mfLen == 0
  b + ((List.range (2 * s.mfLen + 2)).find? ok).getD 0

/-! ### Reintegration (R239, R240) -/

/-- SYNC_FRAME_RX (R240): sync data of a group arrive at the joiner; `last`: the group's data are complete. -/
def syncFrameRx (p : Nat) (f : TlFrame) (items : List SyncItem) (last : Bool) (s : State) : State :=
  let (s, ok) := s.tlTake p f 5
  if ok && s.mstate == 2 && f.sender == s.get F.TVL_STAT_DONOR && !(s.tvl.sync.ready.contains f.group) then
    let y := s.tvl.sync
    let y := { y with items := tput nilD y.items f.group (tget nilD y.items f.group ++ items) }
    { s with tvl := { s.tvl with sync := if last then { y with ready := f.group :: y.ready } else y } }
  else s

/-- SYNC_FAIL (R239): donor lost, transfer late, or probation failed. -/
def syncFail (s : State) : State := if s.mstate = 2 ∨ s.mstate = 3 then s.syncFails else s

/-- The lease records start anew: no group has a holder (R231). -/
def State.forgetLeases (s : State) : State :=
  let s : State := { s with tvl := { s.tvl with leases := [], takeBack := [] } }
  (List.range 16).foldl (fun (s : State) k => (s.set (F.TVL_LSTAT_HOLDER k) 0).set (F.TVL_LSTAT_RELEASED k) 0) s

/-- A new MEMBER of a running VCU does not know who holds a group: it takes the holder from the first REQ seen, and no claim is due before any
lease that it has not seen renewed has run out (DESIGN CHOICE, log 115). -/
def State.learnHolders (s : State) : State :=
  (List.range 16).foldl (fun (s : State) k =>
    s.setLease k { s.lease k with unknown := true, expiry := some (s.clk.t + s.tL k) }) s

/-- SYNC_DONE (R239, R241): at the major-frame boundary that ends the complete frame of PROBATION. -/
def syncDone (s : State) : State :=
  match s.tvl.sync.probEnd with
  | some t =>
    if s.mstate = 3 then
      let s := ((s.advance t).set F.TVL_STAT_MSTATE 4).set F.TVL_STAT_DONOR 0
      let back := (List.range 16).filter fun k => s.duplex && s.flag (F.TVL_OGRP_EN k) && s.get (F.TVL_OGRP_PREF k) == s.pos
      (({ s with tvl := { s.tvl with sync := Sync.none, takeBack := back } }.learnHolders).addMember s.pos).raise 220
    else s
  | none => s

/-- Every pair's and engine's comparator self-test has passed and none is due or running. -/
def State.allTested (s : State) : Bool :=
  ((List.range 4).all fun p => !(s.pairFitted p) || ((s.pair p).cmpDawnOk && !(s.pair p).cmpDue && (s.pair p).testing.isNone)) &&
  ((List.range 2).all fun e => !(s.engineFitted e) || (s.flag (F.LE_CMPST_DAWN_OK e) && !(s.flag (F.LE_CMPST_DUE e)) && (s.eng e).testing.isNone))

/-- EXCLUDED is left for LISTEN when R239 allows it. -/
def State.leaveExcluded (s : State) : State :=
  let recent := s.tvl.exclAt.filter fun t => decide (s.optime < t + 24 * 3600 * 1024)
  if s.mstate = 5 ∧ s.tvl.exclPort = none ∧ s.allTested ∧ (s.tvl.reint ∨ (s.flag F.TVL_CFG_AUTO_REINT ∧ recent.length < 3)) then
    { (s.forgetLeases.set F.TVL_STAT_MSTATE 1) with tvl := { s.forgetLeases.tvl with reint := false } }
  else s

/-- LINK_EXCLUDE_END (R236): the failed link has been up for 1 s. -/
def linkExcludeEnd (s : State) : State :=
  match s.tvl.exclPort with
  | some p =>
    if s.flag (F.TVL_LINKSTAT_UP p) then
      let s := s.advance (tget natD s.tvl.upAt p + 1000000 * usUt)
      ({ s with tvl := { s.tvl with exclPort := none } }).leaveExcluded
    else s
  | none => s

/-- PRESENCE_FRAME_SEND (R231): a duplex module that no slot ID of a Gheif cluster shows alive, on each enabled port of E0 and E1. -/
def presenceFrameSend (s : State) : State :=
  if s.alive && s.duplex && !(s.ghWitness s.pos) then
    let body (e : Nat) : List Byte := List.replicate 6 0xFF ++ beBytes 6 (s.ident.mac + e) ++ [0x88, 0xB5] ++
      padTo 46 (leBytes 4 (sysId s.ident) ++ [BitVec.ofNat 8 s.pos] ++ leBytes 4 (s.reg F.TVL_STAT_HELD.off).toNat)
    [0, 1].foldl (fun (s : State) e => if s.ethFitted e && s.flag (F.ETH_PORT_CFG_EN e) then s.emit .ethernet e 0x88B5 (body e) else s) s
  else s

/-- PRESENCE_FRAME_RX (R231): the TVL takes a presence frame of the peer. -/
def presenceFrameRx (port pos : Nat) (s : State) : State :=
  if s.alive && s.duplex && !(s.ghWitness (3 - s.pos)) && s.ethFitted port && s.flag (F.ETH_PORT_CFG_EN port) && pos + s.pos == 3 then
    { s with tvl := { s.tvl with witness := s.clk.t } }
  else s

/-! ### The commands -/

/-- LEASE_LOST. -/
def execLeaseLost (k : Fin 16) (s : State) : Host.Outcome State Fault Refusal := .next (leaseLost k s)
/-- GUARDIAN_LEASE_LAPSE. -/
def execGuardianLeaseLapse (k : Fin 16) (s : State) : Host.Outcome State Fault Refusal := .next (guardianLeaseLapse k s)
/-- CLAIM. -/
def execClaim (k : Fin 16) (s : State) : Host.Outcome State Fault Refusal := .next (claim k s)
/-- CLAIM_RX. -/
def execClaimRx (p : Fin 2) (f : TlFrame) (k : Fin 16) (oi : Nat) (s : State) : Host.Outcome State Fault Refusal :=
  .next (claimRx p f k oi s)
/-- CLAIM_CSIGN_RX. -/
def execClaimCsignRx (p : Fin 2) (f : TlFrame) (k : Fin 16) (oi : Nat) (s : State) : Host.Outcome State Fault Refusal :=
  .next (claimCsignRx p f k oi s)
/-- LEASE_GAINED. -/
def execLeaseGained (k : Fin 16) (s : State) : Host.Outcome State Fault Refusal := .next (leaseGained k s)
/-- REL_FRAME_RX. -/
def execRelFrameRx (p : Fin 2) (f : TlFrame) (s : State) : Host.Outcome State Fault Refusal := .next (relFrameRx p f s)
/-- HANDOVER_PROPOSE. -/
def execHandoverPropose (k : Fin 16) (rx : TlRx) (s : State) : Host.Outcome State Fault Refusal :=
  .next (handoverPropose k rx s)
/-- HANDOVER_ACCEPT. -/
def execHandoverAccept (k : Fin 16) (rx : TlRx) (h : Nat) (s : State) : Host.Outcome State Fault Refusal :=
  .next (handoverAccept k rx h s)
/-- HANDOVER_INSTANT. -/
def execHandoverInstant (k : Fin 16) (s : State) : Host.Outcome State Fault Refusal := .next (handoverInstant k s)
/-- HANDOVER_GUARD_START. -/
def execHandoverGuardStart (k : Fin 16) (s : State) : Host.Outcome State Fault Refusal := .next (handoverGuardStart k s)
/-- SYNC_FRAME_RX. -/
def execSyncFrameRx (p : Fin 2) (f : TlFrame) (items : List SyncItem) (last : Bool) (s : State) : Host.Outcome State Fault Refusal :=
  .next (syncFrameRx p f items last s)
/-- SYNC_FAIL. -/
def execSyncFail (s : State) : Host.Outcome State Fault Refusal := .next (syncFail s)
/-- SYNC_DONE. -/
def execSyncDone (s : State) : Host.Outcome State Fault Refusal := .next (syncDone s)
/-- PRESENCE_FRAME_SEND. -/
def execPresenceFrameSend (s : State) : Host.Outcome State Fault Refusal := .next (presenceFrameSend s)
/-- PRESENCE_FRAME_RX. -/
def execPresenceFrameRx (port : Fin 2) (pos : Nat) (s : State) : Host.Outcome State Fault Refusal :=
  .next (presenceFrameRx port pos s)
/-- LINK_EXCLUDE_END. -/
def execLinkExcludeEnd (s : State) : Host.Outcome State Fault Refusal := .next (linkExcludeEnd s)

end Sys2Proof.Machine
end

