-- ==== Sys2Proof/Machine/Queue.lean ====
section
/-!
DEFINITION. Credit queues and the transit check (chapter 5, R153 to R163). Every operation works on a queue's geometry, so
that general queues and the local queues of a unit are one mechanism.
-/
namespace Sys2Proof.Machine

/-- Where a queue's registers and slots lie. -/
structure QGeo where
  /-- Offset of its register group; WM stands at +8. -/
  b : Nat
  depth : Nat
  esize : Nat
  /-- Address of the storage. -/
  addr : Nat
  hiSrc : Nat
  perrSrc : Nat
  /-- The consumer is software: items count once verified (R162). -/
  soft : Bool
  prod : Nat
  cons : Nat
  deriving DecidableEq, Repr

/-- An endpoint code of R158 stands for software: a partition or machine mode. -/
def softCode (c : Nat) : Bool := decide (c < 0x100) || decide (0x108 ≤ c ∧ c < 0x10C)

/-- The geometry of general queue `q` (R153, R158). -/
def State.qgeo (s : State) (q : Nat) : QGeo :=
  { b := 0x38000 + q * 0x100, depth := 2 ^ s.get (F.HXQ_CFG_DEPTH_LOG2 q), esize := 2 ^ s.get (F.HXQ_CFG_ESIZE_LOG2 q),
    addr := 0x11C00000 + s.get (F.HXQ_BASE_PAGE q) * 4096, hiSrc := 64 + 2 * q, perrSrc := 65 + 2 * q,
    soft := softCode (s.get (F.HXQ_CFG_CONS q)), prod := s.get (F.HXQ_CFG_PROD q), cons := s.get (F.HXQ_CFG_CONS q) }

/-- The address of an offset in the message RAM of CAN controller `n` (R361), and the controller's source `i` (R378). -/
def canAddr (n ofs : Nat) : Nat := 0x41800000 + n * 0x10000 + ofs
def canSrc (n k : Nat) : Nat := 312 + 8 * n + k

def State.canst (s : State) (n : Nat) : Can := tget canD s.can n
def State.setCan (s : State) (n : Nat) (v : Can) : State := { s with can := tput canD s.can n v }
/-- The controller operates on its bus (R358). -/
def State.canOn (s : State) (n : Nat) : Bool :=
  s.canFitted n && s.flag (F.CAN_CFG_EN n) && (match s.sup.st with | .stop | .run | .hold | .service | .dusk => true | _ => false)
def State.canBusOff (s : State) (n : Nat) : Bool := decide (2 ≤ s.get (F.CAN_STAT_ESTATE n))

/-- The geometry of local queue RXQm of CAN controller n (R365). -/
def State.rxq (s : State) (n m : Nat) : QGeo :=
  { b := 0xA0040 + n * 0x1000 + m * 0x20, depth := 2 ^ s.get (F.CAN_RXQ_CFG_DEPTH_LOG2 n m), esize := 2 ^ s.get (F.CAN_RXQ_CFG_ESIZE_LOG2 n m),
    addr := canAddr n (s.get (F.CAN_RXQ_CFG_BASE n m) * 64), hiSrc := canSrc n m, perrSrc := canSrc n 6, soft := true,
    prod := 0x130 + n, cons := 0x108 + s.get (F.CAN_RXQ_CFG_PAIR n m) }

/-- Queue number `q` of a queue command: the general queues 0 to 63, then RXQ0 and RXQ1 of each CAN controller. -/
def State.anyQ (s : State) (q : Nat) : QGeo := if q < 64 then s.qgeo q else s.rxq ((q - 64) / 2) ((q - 64) % 2)

/-- The recorder source of the unit that reads a queue's items and so finds a transit-check failure (R163, R470): the queue engine for software
consumers. -/
def QGeo.finder (g : QGeo) : Nat :=
  if g.soft then (if g.b < 0x40000 then srcHxm else srcCan ((g.b - 0xA0000) / 0x1000))
  else match g.cons with
    | 0x100 => srcLe 0
    | 0x101 => srcLe 1
    | 0x110 => srcSup 0
    | 0x111 => srcRec
    | 0x120 => srcGhc 0
    | 0x121 => srcEth 0
    | 0x122 => srcIxs
    | 0x123 => srcLrb
    | 0x124 => srcSio
    | 0x125 => srcTvl
    | c => srcCan (c - 0x130)

namespace QGeo
def LOW (g : QGeo) : Field := ⟨g.b + 0x08, 0, 13⟩
def HIGH (g : QGeo) : Field := ⟨g.b + 0x08, 16, 13⟩
def LEVEL (g : QGeo) : Field := ⟨g.b + 0x0C, 0, 13⟩
def CREDITS (g : QGeo) : Field := ⟨g.b + 0x0C, 16, 13⟩
def HEAD (g : QGeo) : Field := ⟨g.b + 0x10, 0, 12⟩
def TAIL (g : QGeo) : Field := ⟨g.b + 0x10, 16, 12⟩
def HI_EVT (g : QGeo) : Field := ⟨g.b + 0x18, 0, 1⟩
def LO_EVT (g : QGeo) : Field := ⟨g.b + 0x18, 1, 1⟩
def PERR (g : QGeo) : Field := ⟨g.b + 0x18, 2, 1⟩
def ABOVE (g : QGeo) : Field := ⟨g.b + 0x18, 3, 1⟩
def BELOW (g : QGeo) : Field := ⟨g.b + 0x18, 4, 1⟩
def CROSS_LO (g : QGeo) : Field := ⟨g.b + 0x18, 8, 8⟩
def CROSS_HI (g : QGeo) : Field := ⟨g.b + 0x18, 16, 8⟩
def STRAY (g : QGeo) : Field := ⟨g.b + 0x1C, 0, 4⟩
def RESETS (g : QGeo) : Field := ⟨g.b + 0x1C, 4, 4⟩
def REFUSED (g : QGeo) : Field := ⟨g.b + 0x1C, 8, 8⟩
def DISCARDS (g : QGeo) : Field := ⟨g.b + 0x1C, 16, 16⟩
end QGeo

def State.qst (s : State) (g : QGeo) : QSt := s.queue g.b

/-- Slots between the read and the write pointer (R154). -/
def qHeld (g : QGeo) (c : QSt) : Nat := (c.wr + 2 * g.depth - c.rd) % (2 * g.depth)
/-- Items the consumer sees (R154, R162). -/
def qLevel (g : QGeo) (c : QSt) : Nat := qHeld g c - c.unver - c.holes.length
/-- Credits the producer holds (R155). -/
def qCredits (g : QGeo) (c : QSt) : Nat := g.depth - qHeld g c - c.unret

/-- The queue's registers show a pointer state: STAT, IDX and the live comparisons. -/
def State.qShow (s : State) (g : QGeo) (c : QSt) : State :=
  let s := ((s.setQueue g.b c).set g.LEVEL (qLevel g c)).set g.CREDITS (qCredits g c)
  let s := (s.set g.HEAD (c.rd % g.depth)).set g.TAIL (c.wr % g.depth)
  (s.set g.ABOVE (b2n (decide (s.get g.HIGH ≤ qLevel g c)))).set g.BELOW (b2n (decide (qLevel g c ≤ s.get g.LOW)))

/-- The queue takes a new pointer state, with a watermark crossing (R157). -/
def State.qSet (s : State) (g : QGeo) (c : QSt) : State :=
  let old := qLevel g (s.qst g)
  let new := qLevel g c
  let s := s.qShow g c
  if old < s.get g.HIGH ∧ s.get g.HIGH ≤ new then ((s.set g.HI_EVT 1).inc g.CROSS_HI).raise g.hiSrc
  else if s.get g.LOW < old ∧ new ≤ s.get g.LOW then ((s.set g.LO_EVT 1).inc g.CROSS_LO).raise g.hiSrc
  else s

/-- The read pointer passes over discarded items; their credits return with it. -/
def qSkip (g : QGeo) : Nat → QSt → QSt
  | 0, c => c
  | n + 1, c =>
    if c.holes.contains c.rd then
      qSkip g n { c with rd := (c.rd + 1) % (2 * g.depth), holes := c.holes.erase c.rd, unret := c.unret + 1 }
    else c


/-- The address of the slot of a pointer. -/
def qSlot (g : QGeo) (ptr : Nat) : Nat := g.addr + ptr % g.depth * g.esize
/-- The payload in the slot of a pointer. -/
def State.qPayload (s : State) (g : QGeo) (ptr : Nat) : List Byte := s.rdBytes (qSlot g ptr + 8) (s.rdLe (qSlot g ptr) 2)

/-- Bit 0 of TFLAGS of a CAN descriptor, and its LAUNCH (R367). -/
def launchEn (d : List Byte) : Bool := (fieldLe d 13 1).testBit 0
def launchStamp (d : List Byte) : Nat := fieldLe d 4 8

/-- The rows of R314 for a CAN descriptor in software mode or of the transmit queue. -/
def State.descCase (s : State) (d : List Byte) : Nat := if launchEn d then s.launchCase (stampUnits (launchStamp d)) else 2

/-- The controller whose transmit queue is this one (R369). -/
def State.txqOf (s : State) (g : QGeo) : Option Nat :=
  (List.range 6).find? fun n => g.cons == 0x130 + n && g.b == 0x38000 + s.get (F.CAN_TXQ_QUEUE n) * 0x100 && s.get (F.CAN_TXQ_QUEUE n) != 0xFF

/-- An item that has reached the head of a CAN transmit queue is judged (R314): discarded, held, or free to compete. -/
def State.txqJudge (s : State) (g : QGeo) (n : Nat) : Nat → State
  | 0 => s
  | k + 1 =>
    let c := s.canst n
    let q := s.qst g
    let off := c.ready.filter (· ≠ 32)
    if qLevel g q = 0 then s.setCan n { c with headPtr := none, ready := off }
    else if c.headPtr = some q.rd then s
    else
      let d := s.qPayload g q.rd
      let r := s.descCase d
      if r = 0 ∨ r = 3 then
        State.txqJudge ((s.qSet g (qSkip g g.depth { q with rd := (q.rd + 1) % (2 * g.depth), unret := q.unret + 1 })).launchDrop r (launchStamp d)) g n k
      else s.setCan n { c with headPtr := some q.rd, ready := if r = 2 then 32 :: off else off }

/-- What a new head of a queue brings about: a CAN transmit queue's is judged, unless its controller is off or in bus-off (R314, R373). -/
def State.qSettle (s : State) (g : QGeo) : State :=
  match s.txqOf g with
  | some n => if s.canOn n && !(s.canBusOff n) then s.txqJudge g n (2 * g.depth + 1) else s
  | none => s

/-- The queue takes a new pointer state. -/
def State.qPut (s : State) (g : QGeo) (c : QSt) : State := (s.qSet g c).qSettle g

/-- The slot header and the payload of a committed item (R153) with the check it carries and its origin stamp (R162, R163); whole lines of the
slot are good again. -/
def State.qWrite (s : State) (g : QGeo) (ptr flags : Nat) (it : Item) : State :=
  let a := qSlot g ptr
  let s := s.setQueue g.b { s.qst g with stamps := tput natD (s.qst g).stamps (ptr % g.depth) it.stamp }
  (((if 64 ≤ g.esize then s.unpoison a g.esize else s).wrBytes a
    (leBytes 2 it.data.length ++ [BitVec.ofNat 8 flags, BitVec.ofNat 8 g.prod] ++ leBytes 4 it.chk ++ it.data)).unreserve 4 a (it.data.length + 8))

/-- The item in the slot of a pointer passes its transit check, and no line of it is damaged (R152, R162). -/
def State.qItemOk (s : State) (g : QGeo) (ptr : Nat) : Bool :=
  crc32c (s.qPayload g ptr) == s.rdLe (qSlot g ptr + 4) 4 &&
    !((List.range (g.esize / 64 + 1)).any fun i => decide (64 * i < g.esize) && s.poisoned (qSlot g ptr + 64 * i))

/-- An item that has just been put into the tail slot becomes part of the queue. -/
def State.qPush (s : State) (g : QGeo) : State :=
  let c := s.qst g
  s.qPut g { c with wr := (c.wr + 1) % (2 * g.depth), unver := if g.soft then c.unver + 1 else c.unver }

/-- The queue has had a pointer-error reset in this fabric cycle, which discards an item committed in it (R161). -/
def State.qResetNow (s : State) (g : QGeo) : Bool := (s.qst g).resetAt == some s.fab

/-- A hardware producer commits an item with the check it carries; `false`: it holds no credit, and the item is discarded at its entry port
(R155). -/
def State.qCommitItem (s : State) (g : QGeo) (flags : Nat) (it : Item) : State × Bool :=
  if qCredits g (s.qst g) = 0 ∨ g.esize < it.data.length + 8 then (s, false)
  else if s.qResetNow g then (s.inc g.DISCARDS, true)
  else ((s.qWrite g (s.qst g).wr flags it).qPush g, true)

/-- A hardware producer commits an item that enters the module here. -/
def State.qCommitHw (s : State) (g : QGeo) (flags : Nat) (payload : List Byte) : State × Bool := s.qCommitItem g flags (s.item payload)

/-- The head item leaves the queue. -/
def State.qPop (s : State) (g : QGeo) : State :=
  let c := s.qst g
  s.qPut g (qSkip g g.depth { c with rd := (c.rd + 1) % (2 * g.depth), unret := c.unret + 1 })

/-- The item in the slot of a pointer fails its check: it is counted and recorded with its origin stamp (R163). -/
def State.qDiscard (s : State) (g : QGeo) (ptr : Nat) : State :=
  (s.inc g.DISCARDS).transitFail g.finder g.b (tget natD (s.qst g).stamps (ptr % g.depth))

/-- The item in the slot of a pointer, with the check and the stamp it carries (R162, R163). -/
def State.qItem (s : State) (g : QGeo) (ptr : Nat) : Item :=
  ⟨s.qPayload g ptr, s.rdLe (qSlot g ptr + 4) 4, tget natD (s.qst g).stamps (ptr % g.depth)⟩

/-- A hardware consumer takes the head item, which it verifies as it reads it; one that fails is discarded (R162, R163). -/
def State.qTakeHw (s : State) (g : QGeo) : State × Option Item :=
  if qLevel g (s.qst g) = 0 then (s, none)
  else
    let ptr := (s.qst g).rd
    if s.qItemOk g ptr then (s.qPop g, some (s.qItem g ptr)) else ((s.qDiscard g ptr).qPop g, none)

/-- A hardware consumer takes every item; the newest good one is kept. The number of good items is answered with it. -/
def State.qTakeAll (s : State) (g : QGeo) : Nat → State × List Item
  | 0 => (s, [])
  | n + 1 =>
    if qLevel g (s.qst g) = 0 then (s, [])
    else
      let r := s.qTakeHw g
      let t := State.qTakeAll r.1 g n
      (t.1, (match r.2 with | some b => [b] | none => []) ++ t.2)

/-- A write of COMMIT by an endpoint (R159 to R161). -/
def State.qCommitSw (s : State) (g : QGeo) (who len : Nat) : State :=
  if who ≠ g.prod ∨ qCredits g (s.qst g) = 0 ∨ g.esize < len + 8 then s.inc g.REFUSED
  else if s.qResetNow g then s.inc g.DISCARDS
  else
    let ptr := (s.qst g).wr
    (s.qWrite g ptr 0 (s.item (s.rdBytes (qSlot g ptr + 8) len))).qPush g

/-- A write of RELEASE by an endpoint (R159 to R161). -/
def State.qReleaseSw (s : State) (g : QGeo) (who : Nat) : State :=
  if who ≠ g.cons then s.inc g.REFUSED
  else if qLevel g (s.qst g) = 0 then s.inc g.STRAY
  else s.qPop g

/-- A COMMIT and a RELEASE of one queue in the same fabric cycle: both take effect, and no watermark crossing is counted (R161). Where one of
them has no effect of its own, the other stands alone. -/
def State.qBoth (s : State) (g : QGeo) (who len by_ : Nat) : State :=
  let a := s.qCommitSw g who len
  let b := a.qReleaseSw g by_
  if (a.qst g).wr = (s.qst g).wr ∨ (b.qst g).rd = (a.qst g).rd then b
  else
    (s.qWrite g (s.qst g).wr 0 (s.item (s.rdBytes (qSlot g (s.qst g).wr + 8) len))).qShow g (b.qst g)

/-- The oldest item not yet verified passes its check and counts in LEVEL, or is discarded (R162, R163). -/
def State.qVerify (s : State) (g : QGeo) : State :=
  let c := s.qst g
  if c.unver = 0 then s else
  let ptr := (c.wr + 2 * g.depth - c.unver) % (2 * g.depth)
  if s.qItemOk g ptr then s.qPut g { c with unver := c.unver - 1 }
  else (s.qDiscard g ptr).qPut g (qSkip g g.depth { c with unver := c.unver - 1, holes := ptr :: c.holes })

/-- Items already in the queue whose slot lies on a line with an uncorrectable error are discarded (R152). -/
def State.qLose (s : State) (g : QGeo) (line : Nat) : State :=
  let c := s.qst g
  let held := (List.range (qHeld g c - c.unver)).map fun i => (c.rd + i) % (2 * g.depth)
  held.foldl (fun (s : State) ptr =>
    let d := s.qst g
    if d.holes.contains ptr ∨ qSlot g ptr + g.esize ≤ line ∨ line + 64 ≤ qSlot g ptr then s
    else (s.qDiscard g ptr).qPut g (qSkip g g.depth { d with holes := ptr :: d.holes })) s

/-- A credit of a released slot returns to the producer (R154). -/
def State.qReturn (s : State) (g : QGeo) : State :=
  let c := s.qst g
  if c.unret = 0 then s else s.qPut g { c with unret := c.unret - 1 }

/-- A pointer-error reset (R156). -/
def State.qReset (s : State) (g : QGeo) (a b : Nat) : State :=
  let c := s.qst g
  let s := s.incBy g.DISCARDS (qHeld g c - c.holes.length)
  let s := s.qPut g { QSt.zero with resetAt := some s.fab }
  (((s.inc g.RESETS).set g.PERR 1).raise g.perrSrc).report .QUEUE_PTR_ERR srcHxm [g.b, a, b]

/-- The counters of a queue are cleared. -/
def State.qClear (s : State) (g : QGeo) : State :=
  let s := (s.set g.CROSS_HI 0).set g.CROSS_LO 0
  s.setReg (g.b + 0x1C) 0

/-- A queue starts empty when the configuration is sealed. -/
def State.qInit (s : State) (g : QGeo) : State := s.setQueue g.b QSt.zero |>.qPut g QSt.zero

/-- COMMIT (R159 to R161); `rel`: the endpoint that writes RELEASE of the queue in the same fabric cycle. -/
def commit (who q len : Nat) (rel : Option Nat) (s : State) : State :=
  if !s.alive then s
  else match rel with
    | some r => s.qBoth (s.qgeo q) who len r
    | none => s.qCommitSw (s.qgeo q) who len
/-- RELEASE (R159 to R161). -/
def release (who q : Nat) (s : State) : State := if s.alive then s.qReleaseSw (s.qgeo q) who else s
/-- QUEUE_ITEM_VERIFIED (R162, R163). -/
def queueItemVerified (q : Nat) (s : State) : State := s.qVerify (s.anyQ q)
/-- CREDIT_RETURN (R154). -/
def creditReturn (q : Nat) (s : State) : State := s.qReturn (s.anyQ q)
/-- QUEUE_PTR_ERR (R156). -/
def queuePtrErr (q a b : Nat) (s : State) : State := if a = b then s else s.qReset (s.anyQ q) a b
/-- HXQ_CNT_CLR. -/
def hxqCntClr (q : Nat) (s : State) : State := s.qClear (s.qgeo q)

/-! ### The commands -/

/-- COMMIT. -/
def execCommit (who : Nat) (q : Fin 64) (w : TailWrite) (s : State) : Host.Outcome State Fault Refusal :=
  .next (commit who q w.len w.rel s)
/-- RELEASE. -/
def execRelease (who : Nat) (q : Fin 64) (s : State) : Host.Outcome State Fault Refusal := .next (release who q s)
/-- QUEUE_ITEM_VERIFIED. -/
def execQueueItemVerified (q : Fin 76) (s : State) : Host.Outcome State Fault Refusal := .next (queueItemVerified q s)
/-- CREDIT_RETURN. -/
def execCreditReturn (q : Fin 76) (s : State) : Host.Outcome State Fault Refusal := .next (creditReturn q s)
/-- QUEUE_PTR_ERR. -/
def execQueuePtrErr (q : Fin 76) (a b : Nat) (s : State) : Host.Outcome State Fault Refusal := .next (queuePtrErr q a b s)
/-- HXQ_CNT_CLR. -/
def execHxqCntClr (q : Fin 64) (s : State) : Host.Outcome State Fault Refusal := .next (hxqCntClr q s)

end Sys2Proof.Machine
end

