-- ==== Sys2Proof/Machine/Mem.lean ====
section
/-!
DEFINITION. Memory and paging (chapter 5, R122 to R152): frames and homes, quotas, staging, page operations, scrubbing.
-/
namespace Sys2Proof.Machine

/-! ### Address areas (R122 to R126) -/

def sramBase : Nat := 0x10000000
def emramBase : Nat := 0x20000000
def ddrBase : Nat := 0x1000000000
/-- The physical address of an SRAM frame, of a DDR home page. -/
def frameAddr (f : Nat) : Nat := sramBase + f * 4096
def homeAddr (h : Nat) : Nat := ddrBase + h * 4096

/-- Pages of the SRAM machine region; before CONFIG_SEAL all frames below QSTORE (R123). -/
def State.machPages (s : State) : Nat := if s.sealed then s.get F.HXM_LAYOUT_MACH_PAGES else 7168
def inSram (a : Nat) : Bool := decide (sramBase ≤ a ∧ a < 0x12000000)
def inEmram (a : Nat) : Bool := decide (emramBase ≤ a ∧ a < 0x21000000)
def State.inDdr (s : State) (a : Nat) : Bool := decide (ddrBase ≤ a ∧ a < ddrBase + s.ddrSize)
def State.inMachSram (s : State) (a : Nat) : Bool := decide (sramBase ≤ a ∧ a < sramBase + s.machPages * 4096)
def inQstore (a : Nat) : Bool := decide (0x11C00000 ≤ a ∧ a < 0x11F00000)
def State.inMachDdr (s : State) (a : Nat) : Bool := decide (ddrBase ≤ a ∧ a < ddrBase + s.get F.HXM_LAYOUT_MACH_DDR * 0x4000000)

/-! ### The page map -/

def pkey (part up : Nat) : Nat := part * 2 ^ 20 + up
def State.page (s : State) (k : Nat) : PageSt := tget pageD s.hxm.pages k
def State.setPage (s : State) (k : Nat) (v : PageSt) : State := { s with hxm := { s.hxm with pages := tput pageD s.hxm.pages k v } }
def State.modPage (s : State) (k : Nat) (f : PageSt → PageSt) : State := s.setPage k (f (s.page k))

/-- The segment of a partition that holds a user page (R128). -/
def State.segOf (s : State) (part up : Nat) : Option Seg :=
  (tget nilD s.prog.segs part).find? fun g => decide (g.upage ≤ up ∧ up < g.upage + g.pages)

/-- The user pages of a task's working set (R137). -/
def State.wsetOf (s : State) (t : Task) : List Nat :=
  ((s.hx.sched.wset.drop t.wsetFirst).take t.wsetCount).flatMap fun e =>
    match (tget nilD s.prog.segs t.part)[e.seg]? with
    | some g => (List.range e.count).map fun i => g.upage + e.first + i
    | none => []

/-- The STARTs of a window from the running major frame on, as macroticks of the cycle timer. -/
def State.startsOf (s : State) (w : Window) : List Nat := (List.range 3).map fun i => s.hx.frameMt + w.start + i * s.mfLen * s.tgMt

/-- The next START at or after now of a window whose working set declares a page, as a macrotick (R136). -/
def State.nextUse (s : State) (part up : Nat) : Option Nat :=
  (s.hx.sched.windows.filterMap fun w =>
    match s.taskD? w.task with
    | some t => if t.part = part ∧ (s.wsetOf t).contains up then (s.startsOf w).find? fun m => decide (s.clk.t ≤ s.mt m) else none
    | none => none).foldl (fun b x => match b with | none => some x | some y => some (min x y)) none

/-! ### Frames and quotas (R134 to R136) -/

def State.held (s : State) (part : Nat) : Nat := s.get (F.HXM_PART_SRAM_HELD part)
def State.setHeld (s : State) (part n : Nat) : State :=
  let s := s.set (F.HXM_PART_SRAM_HELD part) n
  if s.get (F.HXM_PART_SRAM_PEAK part) < n then s.set (F.HXM_PART_SRAM_PEAK part) n else s

/-- The free list takes a value; HXM_POOL.FREE shows its length. -/
def State.setFree (s : State) (l : List Nat) : State := { s.set F.HXM_POOL_FREE l.length with hxm := { s.hxm with free := l } }

/-- A frame goes back to the free list; a retired one does not (R151). -/
def State.freeFrame (s : State) (f : Nat) : State := if s.hxm.retired.contains f then s else s.setFree (f :: s.hxm.free)

/-- A free frame is allocated: which one the spec leaves open (R135). -/
def State.allocFrame (s : State) : State × Option Nat :=
  match s.hxm.free with
  | [] => (s, none)
  | f0 :: r =>
    let f := (f0 :: r).getD (Config.freePick s.freeCtr % (r.length + 1)) f0
    (((s.free).setFree ((f0 :: r).erase f)), some f)

/-- The listed pages of a partition. -/
def State.pagesOf (s : State) (part : Nat) : List (Nat × PageSt) := s.hxm.pages.filter fun c => c.1 / 2 ^ 20 = part

/-- The page a partition gives up (R136). -/
def State.victim (s : State) (part : Nat) : Option Nat :=
  let cand := (s.pagesOf part).filter fun c => c.2.frame.isSome && decide (c.2.pins = 0) &&
    (match s.segOf part (c.1 % 2 ^ 20) with | some g => g.home != 0 | none => true)
  let idle := cand.filter fun c => (s.nextUse part (c.1 % 2 ^ 20)).isNone
  match idle with
  | c :: r => some ((r.foldl (fun b x => if x.2.last < b.2.last then x else b) c).1)
  | [] => match cand with
    | c :: r =>
      let use (x : Nat × PageSt) : Nat := (s.nextUse part (x.1 % 2 ^ 20)).getD 0
      some ((r.foldl (fun b x => if use b < use x then x else b) c).1)
    | [] => none

/-- A written page is copied to its DDR home. -/
def State.writeBack (s : State) (k : Nat) : State :=
  let p := s.page k
  match p.frame, p.home with
  | some f, some h => ({ s.setPage k { p with written := false } with mem := memCopy s.mem (homeAddr h) (frameAddr f) 4096 } : State).unreserve 4 (homeAddr h) 4096
  | _, _ => s

/-- A page loses its frame. -/
def State.dropFrame (s : State) (k : Nat) : State :=
  match (s.page k).frame with
  | some f =>
    let s := (s.modPage k fun p => { p with frame := none, written := false }).freeFrame f
    s.setHeld (k / 2 ^ 20) (s.held (k / 2 ^ 20) - 1)
  | none => s

/-- A frame can be had for a partition now. -/
def State.frameFor (s : State) (part : Nat) : Bool :=
  (match s.part? part with | some d => decide (s.held part < d.sramQuota) && !s.hxm.free.isEmpty | none => false) || (s.victim part).isSome

/-- A frame for a partition, within its quota (R134) or by giving one up (R136); the time a write-back costs comes with it. -/
def State.takeFrame (s : State) (part : Nat) : State × Option Nat × Nat :=
  let quota := match s.part? part with | some d => d.sramQuota | none => 0
  let (s, cost) :=
    if s.held part < quota then (s, 0)
    else match s.victim part with
      | some k => if (s.page k).written && (s.page k).home.isSome then ((s.writeBack k).dropFrame k, 640) else (s.dropFrame k, 0)
      | none => (s, 0)
  if s.held part < quota then
    let r := s.allocFrame
    match r.2 with
    | some f => (r.1.setHeld part (r.1.held part + 1), some f, cost)
    | none => (r.1, none, cost)
  else (s, none, cost)

/-- The program-store bytes of the active image set. -/
def State.setBytes (s : State) : Tbl Byte := (tget imageSetD s.sup.sets s.prog.set).bytes

/-- How a bad line of an image set is listed among the poisoned homes. -/
def storePoison (set line : Nat) : Nat := 2 ^ 24 + set * 2 ^ 21 + line

/-- Program-store pages are staged only for the segments whose home is the program store; those of HOME 3 exist once created (R128). -/
def State.pageExists (s : State) (part up : Nat) : Bool :=
  match s.segOf part up with | some g => g.home != 3 || (s.page (pkey part up)).exist | none => false

/-- A page of an image set holds a bad line. -/
def State.storePageBad (s : State) (set page : Nat) : Bool :=
  s.hxm.homePoison.any fun x => decide (storePoison set (page * 64) ≤ x ∧ x < storePoison set (page * 64 + 64))

/-- The home of a page holds a bad line: in the program store, or at its DDR home (R152). -/
def State.homeBad (s : State) (part up : Nat) : Bool :=
  match s.segOf part up with
  | some g =>
    if g.home = 2 then s.storePageBad s.prog.set (g.init + (up - g.upage))
    else match (s.page (pkey part up)).home with | some h => s.hxm.homePoison.contains h | none => false
  | none => false

/-- A page is brought into a frame from its home (R128); answered with the time the transfer took, none where it cannot be. -/
def State.fillPage (s : State) (part up : Nat) : State × Nat :=
  let k := pkey part up
  match s.segOf part up with
  | none => (s, 0)
  | some g =>
    let p := s.page k
    let home := p.home.getD 0
    if p.frame.isSome || p.poisoned || !(s.pageExists part up) then (s, 0)
    else if s.homeBad part up then (s.setPage k { p with poisoned := true }, 0)
    else
      let (s, f, cost) := s.takeFrame part
      match f with
      | none => (s, cost)
      | some f =>
        let m := if g.home = 2 then memLoad s.mem (frameAddr f) s.setBytes ((g.init + (up - g.upage)) * 4096) 4096
                 else memCopy s.mem (frameAddr f) (homeAddr home) 4096
        let s := (({ s with mem := m } : State).unpoison (frameAddr f) 4096).unreserve 4 (frameAddr f) 4096
        (s.setPage k { s.page k with frame := some f, last := s.clk.t, written := false, lost := false }, cost + (if g.home = 2 then 8000 else 640))

/-! ### Staging (R138 to R142) -/

/-- A window's tasks and classes. -/
def State.winTask (s : State) (w : Nat) : Option Task := match s.window? w with | some d => s.taskD? d.task | none => none

/-- The placed staging of a window for a START. -/
def State.stagedAt (s : State) (w start : Nat) : Option StagedWin := s.hxm.staged.find? fun c => c.win == w && c.start == start

/-- Every page of a window's placed working set is resident (R140). -/
def State.stagedOk (s : State) (w start : Nat) : Bool :=
  match s.stagedAt w start with
  | some c => c.pages.all fun up => (s.page (pkey c.part up)).frame.isSome
  | none => match s.winTask w with | some t => (s.wsetOf t).isEmpty | none => true

/-- The pins of a placed working set end (R139). -/
def State.unpin (s : State) (c : StagedWin) : State :=
  let s := c.pages.foldl (fun s up => s.modPage (pkey c.part up) fun p => { p with pins := p.pins - 1 }) s
  { s with hxm := { s.hxm with staged := s.hxm.staged.erase c, stq := s.hxm.stq.filter (fun r => !(r.why == .window c.win && r.start == c.start)) } }

/-- The pins of a window's working set end with the budget end of that window (R139). -/
def State.unstage (s : State) (w start : Nat) : State :=
  match s.stagedAt w start with
  | some c => s.unpin c
  | none => s

/-- STAGING_REQUEST (R138, R139): LOOKAHEAD before the next START that no request has been placed for; each page of the working set is
pinned, absent ones are queued. No staging is started in the Dusk state (R65 step 5). -/
def stagingRequest (w : Nat) (s : State) : State :=
  match s.window? w, s.winTask w with
  | some d, some t =>
    match (s.startsOf d).find? fun m => decide (s.clk.t ≤ s.mt m) && (s.stagedAt w m).isNone with
    | some st =>
      if s.alive && !s.dusked && s.hx.frameOn && decide (t.cls < 2) && decide (t.unit < 4) then
        let s := s.advance (s.mt st - s.get F.HXM_LOOKAHEAD_LOOKAHEAD * usUt)
        let pages := (s.wsetOf t).eraseDups
        let s := pages.foldl (fun s up => s.modPage (pkey t.part up) fun p => { p with pins := p.pins + 1 }) s
        let absent := pages.filter fun up => (s.page (pkey t.part up)).frame.isNone && !(s.page (pkey t.part up)).poisoned
        { s with hxm := { s.hxm with staged := s.hxm.staged ++ [⟨w, st, t.part, pages⟩],
                                     stq := s.hxm.stq ++ absent.map fun up => StageReq.mk (.window w) t.part up st t.unit } }
      else s
    | none => s
  | _, _ => s

/-- The rank in which the stager serves a request: stalls, then windows, then background transfers and the scrubber's write-backs (R138, R140). -/
def StageReq.rank (r : StageReq) : Nat :=
  match r.why with
  | .miss _ => 0
  | .window _ => 1
  | _ => 2

/-- The request can be served now: nothing has to be copied, or the partition has a frame or a page to give up. -/
def State.servable (s : State) (r : StageReq) : Bool :=
  match r.why with
  | .flush => true
  | .scrub _ _ => true
  | _ => (s.page (pkey r.part r.page)).frame.isSome || (s.page (pkey r.part r.page)).poisoned || s.frameFor r.part || !(s.pageExists r.part r.page)

/-- The request the stager serves next, of those that can be served: ascending START, between equal START ascending unit (R138). -/
def State.nextStage (s : State) : Option StageReq :=
  match s.hxm.stq.filter s.servable with
  | [] => none
  | r :: l => some (l.foldl (fun b x =>
      if x.rank < b.rank ∨ (x.rank = b.rank ∧ x.rank = 1 ∧ (x.start < b.start ∨ (x.start = b.start ∧ x.unit < b.unit))) then x else b) r)

/-- Pairs stalled on a page go on once it is resident or known to be poisoned (R140, R144). -/
def State.unstall (s : State) (part up : Nat) : State :=
  (List.range 4).foldl (fun s p =>
    let here := match s.taskD? (s.pair p).curBank.task with | some t => t.part == part | none => false
    match (s.pair p).stall with
    | some (.stage u) => if here && u == up then s.modPair p fun q => { q with stall := none } else s
    | some (.fill u) => if here && u == up then s.modPair p fun q => { q with stall := none } else s
    | _ => s) s

/-- The symbols of a line that an earlier read has corrected and that are not yet written back (R149). -/
def latentKey (m line : Nat) : Nat := m * 2 ^ 40 + line
def State.latent (s : State) (m line : Nat) : List Nat := tget nilD s.hxm.latent (latentKey m line)
def State.setLatent (s : State) (m line : Nat) (l : List Nat) : State :=
  { s with hxm := { s.hxm with latent := tput nilD s.hxm.latent (latentKey m line) l } }

/-- The stager ends the transfer it serves next (R138, R140, R144, R145); it stops in the Dusk state (R65 step 5). -/
def State.transferDone (s : State) : State :=
  match s.nextStage with
  | none => s
  | some r =>
    if !s.alive || s.dusked then s else
    let s := { s with hxm := { s.hxm with stq := s.hxm.stq.erase r } }
    match r.why with
    | .flush =>
      let k := pkey r.part r.page
      if (s.page k).written then (s.writeBack k).wait 640 else s
    | .scrub m line => s.setLatent m line []
    | _ =>
      let (s, cost) := s.fillPage r.part r.page
      (s.wait cost).unstall r.part r.page

/-- A page is asked for on behalf of a pair; the pair stalls. -/
def State.askPage (s : State) (p part up : Nat) (why : StageWhy) (st : Stall) : State :=
  let s := s.modPair p fun q => { q with stall := some st }
  if s.hxm.stq.any (fun r => r.why == why && r.page == up && r.part == part) then s
  else { s with hxm := { s.hxm with stq := s.hxm.stq ++ [⟨why, part, up, s.clk.t, p⟩] } }

/-- A stage miss: count, source 48, entry, and the stall (R140). -/
def State.stageMiss (s : State) (p task part up : Nat) : State :=
  let s := ((s.inc (F.HX_TASKSTAT1_STAGE_MISS task)).raise 48).report .STAGE_MISS srcHxm [task, up]
  s.askPage p part up (.miss p) (.stage up)

/-- A working-set violation: source 49 and entry (R141). -/
def State.wsetMark (s : State) (task up : Nat) : State := (s.raise 49).report .WSET_VIOLATION srcHxm [task, up]

/-- A staged-class task of a pair accesses a resident page outside its window's working set (R141): counted as a stage miss, without a stall;
one violation a page in each window (DESIGN CHOICE, log 116). -/
def State.wsetResident (s : State) (p task up : Nat) : State :=
  if (s.unit p).seen.contains up then s
  else
    let s := s.setUnit p { s.unit p with seen := up :: (s.unit p).seen }
    (((s.wsetMark task up).inc (F.HX_TASKSTAT1_STAGE_MISS task)).raise 48).report .STAGE_MISS srcHxm [task, up]

/-! ### Page operations (R145, R146) -/

/-- An executive call returns: a0 takes the status and the instruction retires. -/
def State.callRet (s : State) (p status : Nat) : State :=
  s.modPair p fun q => { (q.setX 10 (BitVec.ofNat 64 status)).setPc (q.pc + 4) with lastPc := q.pc, minstret := if q.mcountinhibit.testBit 2 then q.minstret else (q.minstret + 1) % 2 ^ 64 }

/-- A refused page operation: source 50, entry and status (R146). -/
def State.pageRefused (s : State) (p status : Nat) : State := ((s.raise 50).report .PAGEOP_REFUSED srcHxm [p, status]).callRet p status

def PageOpKind.code : PageOpKind → Nat
  | .alloc => 0
  | .free => 1
  | .prefetch => 2
  | .flush => 3

/-- The status of a page operation over `count` pages from user page `first` (R146). -/
def State.pageStatus (s : State) (kind : PageOpKind) (part addr count : Nat) : Nat :=
  let first := addr / 4096
  match s.segOf part first with
  | none => 1
  | some g =>
    let homeOk := match kind with
      | .alloc => g.home == 3
      | .free => g.home == 3
      | .prefetch => g.home == 1 || g.home == 2
      | .flush => g.home == 1 || g.home == 3
    if addr % 4096 ≠ 0 ∨ count < 1 ∨ 256 < count ∨ g.upage + g.pages < first + count ∨ !homeOk then 1
    else
      let pages := (List.range count).map fun i => s.page (pkey part (first + i))
      let reserved := s.get (F.HXM_PART_DDR_RESERVED part)
      let coming := ((s.hxm.ops.filter fun o => o.part == part && o.kind == .alloc).flatMap fun o =>
        (List.range o.count).map fun i => o.first + i).eraseDups.filter fun u => !(s.page (pkey part u)).exist && !(decide (first ≤ u ∧ u < first + count))
      let busy := (s.hxm.ops.filter fun o => o.part == part).length
      match kind with
      | .alloc => if pages.any (fun p => p.exist) then 4
                  else if (match s.part? part with | some d => d.ddrQuota | none => 0) < reserved + coming.length + count then 2
                  else if 16 ≤ busy then 5 else 0
      | .free => if pages.any (fun p => !p.exist) then 4 else if 16 ≤ busy then 5 else 0
      | .prefetch =>
        let pinned := ((s.pagesOf part).filter fun c => decide (c.2.pins ≠ 0) || (c.2.frame.isSome &&
          (match s.segOf part (c.1 % 2 ^ 20) with | some g => g.home == 0 | none => false))).length
        if (match s.part? part with | some d => d.sramQuota | none => 0) < (pages.filter fun p => p.frame.isNone).length + pinned then 2
        else if 16 ≤ busy then 5 else 0
      | .flush => if 16 ≤ busy then 5 else 0

/-- A page operation called by the task on a pair (R145, R146). -/
def State.pageOp (s : State) (p : Nat) (kind : PageOpKind) : State :=
  match s.taskOn p with
  | some t =>
    match s.taskD? t with
    | some d =>
      let addr := ((s.pair p).x 10).toNat
      let count := ((s.pair p).x 11).toNat
      if !(s.pair p).umode || (s.pair p).idle || (s.pair p).stall.isSome then s
      else if d.cls ≠ 2 then s.pageRefused p 3
      else
        let st := s.pageStatus kind d.part addr count
        if st ≠ 0 then s.pageRefused p st
        else
          let ups := (List.range count).map fun i => addr / 4096 + i
          let s := { s with hxm := { s.hxm with ops := s.hxm.ops ++ [PageOp.mk kind d.part (addr / 4096) count] } }
          let s := match kind with
            | .alloc => s
            | .prefetch => { s with hxm := { s.hxm with stq := s.hxm.stq ++
                (ups.filter fun u => (s.page (pkey d.part u)).frame.isNone).map fun u => StageReq.mk .prefetch d.part u s.clk.t p } }
            | .flush => { s with hxm := { s.hxm with stq := s.hxm.stq ++
                (ups.filter fun u => (s.page (pkey d.part u)).written).map fun u => StageReq.mk .flush d.part u s.clk.t p } }
            | .free => s
          s.callRet p 0
    | none => s
  | none => s

def pageAlloc (p : Nat) (s : State) : State := s.pageOp p .alloc
def pageFree (p : Nat) (s : State) : State := s.pageOp p .free
def pagePrefetch (p : Nat) (s : State) : State := s.pageOp p .prefetch
def pageFlush (p : Nat) (s : State) : State := s.pageOp p .flush

/-- MEM_INFO (R145): a0 frames held, a1 DDR home pages reserved. -/
def memInfo (p : Nat) (s : State) : State :=
  match s.taskOn p with
  | some t =>
    match s.taskD? t with
    | some d =>
      if (s.pair p).umode && !(s.pair p).idle && (s.pair p).stall.isNone then
        (s.modPair p fun q => q.setX 11 (BitVec.ofNat 64 (s.get (F.HXM_PART_DDR_RESERVED d.part)))).callRet p (s.held d.part)
      else s
    | none => s
  | none => s

/-- A DDR home page is taken, zero-filled; which one is the model's. -/
def State.newHome (s : State) : State × Nat :=
  let (s, h) : State × Nat := match s.hxm.homeFree with
    | h :: r => ({ s with hxm := { s.hxm with homeFree := r } }, h)
    | [] => ({ s with hxm := { s.hxm with homeNext := s.hxm.homeNext + 1 } }, s.hxm.homeNext)
  (({ s with mem := memClear s.mem (homeAddr h) (homeAddr h + 4096) } : State).unreserve 4 (homeAddr h) 4096, h)

/-- HXM_PART_DDR.RESERVED of a partition takes a value. -/
def State.setReserved (s : State) (part n : Nat) : State := s.set (F.HXM_PART_DDR_RESERVED part) n

/-- A HOME 3 page comes into existence, its home page reserved, unless it exists; or it ceases to exist, unless it does not (R145). -/
def State.createPage (s : State) (k : Nat) : State :=
  if (s.page k).exist then s
  else
    let (s, h) := s.newHome
    (s.setPage k { PageSt.absent with exist := true, home := some h, last := s.clk.t }).setReserved (k / 2 ^ 20)
      (s.get (F.HXM_PART_DDR_RESERVED (k / 2 ^ 20)) + 1)
def State.destroyPage (s : State) (k : Nat) : State :=
  if !(s.page k).exist then s
  else
    let s := s.dropFrame k
    let s := match (s.page k).home with
      | some h => { s with hxm := { s.hxm with homeFree := h :: s.hxm.homeFree, homePoison := s.hxm.homePoison.erase h } }
      | none => s
    let s := { s with hxm := { s.hxm with stq := s.hxm.stq.filter fun r => pkey r.part r.page != k || (match r.why with | .scrub _ _ => true | _ => false) } }
    (s.setPage k PageSt.absent).setReserved (k / 2 ^ 20) (s.get (F.HXM_PART_DDR_RESERVED (k / 2 ^ 20)) - 1)

/-- A transfer that an operation has asked for is still waiting. -/
def State.opWaits (s : State) (o : PageOp) (why : StageWhy) : Bool :=
  s.hxm.stq.any fun r => r.why == why && r.part == o.part && decide (o.first ≤ r.page ∧ r.page < o.first + o.count)

/-- PAGE_OP_COMPLETE (R145, R146): the oldest incomplete operation of a partition completes. -/
def pageOpComplete (part : Nat) (s : State) : State :=
  match s.hxm.ops.find? (fun o => o.part == part) with
  | none => s
  | some o =>
    let keys := (List.range o.count).map fun i => pkey part (o.first + i)
    let done (s : State) : State := { s with hxm := { s.hxm with ops := s.hxm.ops.erase o } }
    match o.kind with
    | .alloc => done (keys.foldl (fun s k => s.createPage k) s)
    | .free => done (keys.foldl (fun s k => s.destroyPage k) s)
    | .prefetch => if s.opWaits o .prefetch then s else done s
    | .flush => if s.opWaits o .flush then s else done s

/-! ### Scrubbing and retirement (R149 to R151) -/

/-- The period of a memory's pass in microticks (R150). -/
def State.scrubPeriod (s : State) (m : Nat) : Nat :=
  let sec := 1000000 * usUt
  match m with
  | 0 => s.get F.HXM_SCRUB_SRAM_S * sec
  | 1 => s.get F.HXM_SCRUB_EMRAM_S * sec
  | 3 => s.get F.HXM_SCRUB_PSTORE_MIN * 60 * sec
  | _ => s.get F.HXM_SCRUB_DDR_S * sec

/-- The code of R147 with the address symbols of R148: at most three wrong stored symbols are corrected, a correction on a virtual symbol
never. -/
def symCorrectable (bad : List Nat) : Bool := bad.all (fun n => decide (n < 70)) && decide (bad.length ≤ 3)

/-- A read that corrects at least one symbol is counted and recorded, and the line is written back: in eMRAM and the program store only where
two or more symbols were corrected; a line that the scrubber corrects elsewhere waits for the stager (R138, R149, R164). -/
def State.memCorrected (s : State) (m line : Nat) (bad : List Nat) (scrub : Bool) : State :=
  let s := (s.inc F.HXM_MEMERR_CORR).report .MEM_CORRECTED srcHxm [m, line]
  if m = 1 ∨ m = 3 then s.setLatent m line (if 2 ≤ bad.length then [] else bad)
  else if scrub then
    { s.setLatent m line bad with hxm := { (s.setLatent m line bad).hxm with stq := s.hxm.stq ++ [⟨.scrub m line, 0, 0, s.clk.t, 0⟩] } }
  else s.setLatent m line []

/-- The frames of the pool, retired ones excluded. -/
def State.poolSize (s : State) : Nat := s.get F.HXM_POOL_SIZE

/-- A frame with a recurring symbol correction is retired where the pool allows it (R151). -/
def State.hardSymbol (s : State) (frame sym : Nat) : State :=
  if s.hxm.retired.contains frame then s else
  let quotas := s.hx.sched.parts.foldl (fun a d => a + d.sramQuota) 0
  let pool := decide (s.machPages ≤ frame ∧ frame < 7168)
  let ok := decide (quotas + b2n pool ≤ s.poolSize) || !pool
  let s := if ok then
      let s := { s with hxm := { s.hxm with retired := frame :: s.hxm.retired } }
      let s := if pool then (s.setFree (s.hxm.free.erase frame)).set F.HXM_POOL_SIZE (s.poolSize - 1) else s
      s.inc F.HXM_POOL_RETIRED
    else s
  (s.raise 434).report .HARD_SYMBOL srcHxm [frame, sym, b2n (!ok)]

/-- The symbol positions corrected in an SRAM pass, each counted once: those that needed correction in three consecutive passes (R151). -/
def State.countSymbols (s : State) (keys : List Nat) : State :=
  let keys := keys.eraseDups
  let sym := s.hxm.sym.filter fun c => keys.contains c.1
  let s := { s with hxm := { s.hxm with sym := keys.foldl (fun t k => tput natD t k (tget natD t k + 1)) sym } }
  keys.foldl (fun s k => if tget natD s.hxm.sym k = 3 then s.hardSymbol (k / 128) (k % 128) else s) s

/-- A pass of a memory has completed (R150). A memory's first pass begins with the Dawn sequence (DESIGN CHOICE, log 117). -/
def State.passDone (s : State) (m : Nat) : State :=
  let last := max (tget natD s.hxm.passAt m) s.pwr.dawnAt
  let s := if last + 2 * s.scrubPeriod m < s.clk.t then (s.raise 435).report .SCRUB_LAG srcHxm [m] else s
  let passed := if s.hxm.passed.contains m then s.hxm.passed else m :: s.hxm.passed
  let s := { s with hxm := { s.hxm with passAt := tput natD s.hxm.passAt m s.clk.t, passed := passed } }
  if passed.length = 5 then { s.raise 53 with hxm := { s.hxm with passed := [] } } else s

/-- HXM_MEMERR_CLR. -/
def hxmMemerrClr (s : State) : State := (s.set F.HXM_MEMERR_CORR 0).set F.HXM_MEMERR_UNCORR 0
/-- HXM_PART_SRAM_CLR: PEAK takes HELD. -/
def hxmPartSramClr (part : Nat) (s : State) : State := s.set (F.HXM_PART_SRAM_PEAK part) (s.held part)

/-! ### The commands -/

/-- STAGING_REQUEST. -/
def execStagingRequest (w : Nat) (s : State) : Host.Outcome State Fault Refusal := .next (stagingRequest w s)
/-- PAGE_ALLOC. -/
def execPageAlloc (p : Fin 4) (s : State) : Host.Outcome State Fault Refusal := .next (s.asInsn p (pageAlloc p))
/-- PAGE_FREE. -/
def execPageFree (p : Fin 4) (s : State) : Host.Outcome State Fault Refusal := .next (s.asInsn p (pageFree p))
/-- PAGE_PREFETCH. -/
def execPagePrefetch (p : Fin 4) (s : State) : Host.Outcome State Fault Refusal := .next (s.asInsn p (pagePrefetch p))
/-- PAGE_FLUSH. -/
def execPageFlush (p : Fin 4) (s : State) : Host.Outcome State Fault Refusal := .next (s.asInsn p (pageFlush p))
/-- MEM_INFO. -/
def execMemInfo (p : Fin 4) (s : State) : Host.Outcome State Fault Refusal := .next (s.asInsn p (memInfo p))
/-- PAGE_OP_COMPLETE. -/
def execPageOpComplete (part : Fin 256) (s : State) : Host.Outcome State Fault Refusal := .next (pageOpComplete part s)
/-- HXM_MEMERR_CLR. -/
def execHxmMemerrClr (s : State) : Host.Outcome State Fault Refusal := .next (hxmMemerrClr s)
/-- HXM_PART_SRAM_CLR. -/
def execHxmPartSramClr (part : Fin 256) (s : State) : Host.Outcome State Fault Refusal := .next (hxmPartSramClr part s)

end Sys2Proof.Machine
end

