-- ==== Sys2Proof/Machine/Gheif.lean ====
section
/-!
DEFINITION. The Gheif bus: the line, frames and their acceptance, clock synchronisation, start-up, schedule modes, the guardian
(chapter 9), and the controller's buffers (chapter 10).
-/
namespace Sys2Proof.Machine

/-! ### Frames (R249 to R253) -/

def ghCc (h : BitVec 48) : Nat := (h.toNat >>> 40) % 256
def ghSlot (h : BitVec 48) : Nat := (h.toNat >>> 30) % 1024
def ghMode (h : BitVec 48) : Nat := (h.toNat >>> 27) % 8
def ghPlen (h : BitVec 48) : Nat := (h.toNat >>> 20) % 128
def ghRsv (h : BitVec 48) : Bool := h.getLsbD 19
def ghPre (h : BitVec 48) : Bool := h.getLsbD 18
def ghNull (h : BitVec 48) : Bool := h.getLsbD 17
def ghSyncBit (h : BitVec 48) : Bool := h.getLsbD 16
def ghStartup (h : BitVec 48) : Bool := h.getLsbD 15
def ghHcrc (h : BitVec 48) : Nat := (h.toNat >>> 4) % 2048
def ghRsv4 (h : BitVec 48) : Nat := h.toNat % 16

/-- `k` bits of `v`, most significant first, through an unreflected CRC of width `w` (R250). -/
def crcBits (w p v : Nat) : Nat → Nat → Nat
  | 0, c => c
  | k + 1, c =>
    let top := c.testBit (w - 1) != v.testBit k
    crcBits w p v k (if top then ((c * 2) % 2 ^ w) ^^^ p else (c * 2) % 2 ^ w)

/-- The header CRC over bits 47 to 15 (R250). -/
def hcrcOf (h : BitVec 48) : Nat := crcBits 11 0x629 (h.toNat >>> 15) 33 0x2D1

/-- The frame CRC over the channel tag, the header and the payload (R250). -/
def fcrcOf (ch : Nat) (h : BitVec 48) (payload : List Byte) : Nat :=
  crcMsb 32 0x04C11DB7 ((if ch = 0 then 0xA5 else 0x5A) :: (beBytes 6 h.toNat ++ payload)) 0xFFFFFFFF

/-- A header with its CRC. -/
def ghHeader (cc slot mode plen : Nat) (pre null sync startup : Bool) : BitVec 48 :=
  let h : BitVec 48 := BitVec.ofNat 48 ((cc % 256) * 2 ^ 40 + (slot % 1024) * 2 ^ 30 + (mode % 8) * 2 ^ 27 + (plen % 128) * 2 ^ 20
    + b2n pre * 2 ^ 18 + b2n null * 2 ^ 17 + b2n sync * 2 ^ 16 + b2n startup * 2 ^ 15)
  h ||| BitVec.ofNat 48 (hcrcOf h * 16)

/-- A frame's bytes as sent. -/
def ghBytes (ch : Nat) (h : BitVec 48) (payload : List Byte) : List Byte :=
  beBytes 6 h.toNat ++ payload ++ beBytes 4 (fcrcOf ch h payload)

/-- Microticks a frame of payload length `n` takes on the line (R247). -/
def ghTime (n : Nat) : Nat := (10 + n) * 80

/-! ### The line (R247, R248) -/

/-- The bits of a frame on the line: every byte is led by a 0 and a 1, and goes most significant bit first. -/
def ghLed (bytes : List Byte) : List Bool :=
  bytes.flatMap fun b => [false, true] ++ (List.range 8).map fun i => b.getLsbD (7 - i)
/-- Those bits as a receiver samples them, eight times per bit. -/
def ghSampled (bytes : List Byte) : List Bool := (ghLed bytes).flatMap fun b => List.replicate 8 b

/-- Line bits eight to a byte, the first bit most significant; the rest of the last byte is the idle line, which reads 1. -/
def packBits : Nat → List Bool → List Byte
  | 0, _ => []
  | n + 1, l => if l.isEmpty then [] else
      BitVec.ofNat 8 ((List.range 8).foldl (fun a i => 2 * a + b2n (l.getD i true)) 0) :: packBits n (l.drop 8)
/-- What a frame leaves on the line. -/
def ghWire (bytes : List Byte) : List Byte := packBits (10 * bytes.length) (ghLed bytes)
/-- Line bits cut after the first `k` of them: the line returns to 1. -/
def cutBits (k : Nat) (l : List Byte) : List Byte :=
  if k % 8 = 0 then l.take (k / 8)
  else l.take (k / 8) ++ ((l.drop (k / 8)).take 1).map fun b => b ||| BitVec.ofNat 8 (2 ^ (8 - k % 8) - 1)

/-- The bit that begins with the first sample: its value at sample 5, if samples 4 and 6 hold the same value. -/
def lineBit (l : List Bool) : Option Bool :=
  let v := l.getD 4 true
  if l.getD 3 true = v ∧ l.getD 5 true = v then some v else none

/-- The two lead bits of a byte: the bit grid is realigned on the rising edge between them. Answered with what follows, and the samples used. -/
def lineLead (l : List Bool) : Option (List Bool × Nat) :=
  if lineBit l = some false then
    match (List.range 6).find? fun k => !(l.getD (k + 5) true) && l.getD (k + 6) true with
    | some k => if lineBit (l.drop (k + 6)) = some true then some (l.drop (k + 14), k + 14) else none
    | none => none
  else none

/-- `n` data bits, most significant first. -/
def lineData : Nat → Nat → List Bool → Option Nat
  | 0, a, _ => some a
  | n + 1, a, l => match lineBit l with | some b => lineData n (2 * a + b2n b) (l.drop 8) | none => none

/-- `n` led bytes; none on a coding error. Answered with what follows, and the samples used. -/
def lineBytes : Nat → List Bool → Option (List Byte × List Bool × Nat)
  | 0, l => some ([], l, 0)
  | n + 1, l =>
    match lineLead l with
    | some (d, u) =>
      match lineData 8 0 d, lineBytes n (d.drop 64) with
      | some v, some (b, r, m) => some (BitVec.ofNat 8 v :: b, r, u + 64 + m)
      | _, _ => none
    | none => none

/-- The longest run of 0 in samples. -/
def zeroRun (l : List Bool) : Nat := (l.foldl (fun (c : Nat × Nat) b => if b then (c.1, 0) else (max c.1 (c.2 + 1), c.2 + 1)) (0, 0)).1

/-- A frame as a receiver reads it: check 2 of R280, the header if its six bytes could be read, payload and trailer by PLEN, the samples up to
the end of the last bit, and whether the line shows activity after it. -/
structure GhRead where
  coded : Bool
  head : Bool
  hdr : BitVec 48
  payload : List Byte
  fcrc : Nat
  last : Nat
  more : Bool
  deriving DecidableEq, Repr

/-- A frame is read from the line (R247, R248). -/
def ghRead (f : GhFrame) : GhRead :=
  match lineBytes 6 f.samples with
  | none => ⟨false, false, 0, [], 0, f.samples.length, false⟩
  | some (h, r, n) =>
    let hdr := BitVec.ofNat 48 (beNat h)
    match lineBytes (2 * ghPlen hdr + 4) r with
    | none => ⟨false, true, hdr, [], 0, f.samples.length, false⟩
    | some (b, r2, m) =>
      ⟨decide (zeroRun (f.samples.take (n + m)) ≤ 72), true, hdr, b.take (2 * ghPlen hdr), beNat (b.drop (2 * ghPlen hdr)), n + m, r2.any fun x => !x⟩

/-! ### The cluster and this node -/

def State.pstate (s : State) : Nat := s.get F.GHC_STAT_PSTATE

/-- This module's node block. -/
def State.ghMe (s : State) (c : Cluster) : GhNode := c.nodes.getD (s.pos - 1) ⟨0, 0, 0, 0, 0⟩
def ghColdstart (n : GhNode) : Bool := n.flags.testBit 0
/-- A channel is fitted and attached. -/
def State.ghAttached (s : State) (ch : Nat) : Bool := (s.get F.GHC_STAT_CH).testBit ch
def Cluster.desc (c : Cluster) (id : Nat) : Option SlotDesc := c.slots.find? fun d => d.id == id
def Cluster.isSync (c : Cluster) (id : Nat) : Bool := match c.desc id with | some d => d.sflags.testBit 0 | none => false
def Cluster.isCold (c : Cluster) (id : Nat) : Bool := match c.desc id with | some d => d.sflags.testBit 1 | none => false
/-- The slot ID of a static position in a mode on a channel (R255, R286). -/
def Cluster.at_ (c : Cluster) (mode ch p : Nat) : Nat := tget natD c.table (mode * 4096 + ch * 2048 + p)
/-- This module transmits a slot ID. -/
def State.ghOwns (s : State) (d : SlotDesc) : Bool := d.txPos.testBit (s.pos - 1)
/-- Data capacity of a slot (R287). -/
def SlotDesc.cap (d : SlotDesc) : Nat := if d.sflags.testBit 0 then 2 * d.plen - 4 else 2 * d.plen
/-- A bound ID (R287). -/
def SlotDesc.isBound (d : SlotDesc) : Bool := d.ogrp != 0xFF

/-- The delay compensation of a channel. -/
def GhNode.delay (n : GhNode) (ch : Nat) : Nat := if ch = 0 then n.delayA else n.delayB

def State.modGh (s : State) (f : Gh → Gh) : State := { s with gh := f s.gh }

/-- The protocol engine changes its state: source 225 (R267, R297). -/
def State.setPs (s : State) (n : Nat) : State := if s.pstate = n then s else (s.set F.GHC_STAT_PSTATE n).raise 225

/-- A transmission on a channel is truncated at an instant: GUARD_CUT (R277, R279). -/
def State.cutTx (s : State) (ch x : Nat) : State :=
  match tget noneD s.gh.sending ch with
  | some tx =>
    let s := s.modGh fun g => { g with sending := terase g.sending ch }
    if x < tx.stop then
      let hit (e : Emit) : Bool := e.iface == .gheif && e.unit == ch && e.tm == tx.start
      let s := (((s.inc F.GRD_CNT_CUT).raise 240).report .GHEIF_GUARD (srcGhc ch) [ch, tx.pos])
      { s with out := s.out.map fun e => if hit e then { e with data := cutBits ((x - tx.start) / 8) e.data } else e }
    else s
  | none => s

/-- The drivers of both channels are disabled. -/
def State.cutBoth (s : State) : State := (s.cutTx 0 s.clk.t).cutTx 1 s.clk.t

/-- The guardian has no anchor: the next strobe is its first one (R278). -/
def State.ghUnanchor (s : State) : State := (s.set F.GRD_STAT_ANCHORED 0).modGh fun g => { g with gOk := none, gAt := none }

/-- LISTEN is entered with a listen timer (R268). -/
def State.ghListen (s : State) (extended : Bool) : State :=
  match s.clu with
  | some c =>
    let len := c.listen + (if extended then (s.ghMe c).syncId * c.backoff else 0)
    (s.cutBoth.setPs 1).ghUnanchor.modGh fun g =>
        { g with
          listenAt := s.clk.t, listenLen := len * mtUt, leader := 0, follower := false, casAt := none, ownStart := false, ownOne := false,
          integGood := 0, integWhole := false, passiveNext := false, ofsBad := false, good := 0, passive := 0, prop := none, own := none,
          nextCycle := none }
  | none => s

/-- The protocol engine leaves OFF when the module enters the Stop state with a sealed configuration (R267, R256). -/
def State.ghStart (s : State) : State :=
  match s.clu with
  | some c =>
    if s.pos = 0 then s.report .GHEIF_POS_INVALID (srcGhc 0) []
    else if s.pstate ≠ 0 then s
    else
      let n := s.ghMe c
      let ch := b2n (n.flags.testBit 1) + 2 * b2n (n.flags.testBit 2 && s.chFitted 1)
      ((s.set F.GHC_STAT_CH ch).set F.GHC_STAT_MODE c.startMode).ghListen false
  | none => s

/-- The protocol engine goes OFF: Config, Dusk and Midnight (R267); the guardian withdraws the driver enables (R65 step 6). -/
def State.ghStop (s : State) : State :=
  if s.pstate = 0 then s
  else ((s.cutBoth.setPs 0).ghUnanchor.set F.GHC_STAT_MODE_PEND 0).modGh fun g =>
    { g with leader := 0, follower := false, prop := none, own := none, nextCycle := none, rate := 0, rateNow := 0 }

/-- The engine is in a state that transmits, and what it may send there (R267): 0 nothing, 1 startup frames, 2 all owned slots. -/
def State.ghMaySend (s : State) : Nat :=
  if s.gh.mute then 0
  else if s.pstate = 4 then 2
  else if s.pstate = 2 then 1
  else if s.pstate = 3 ∧ s.gh.follower ∧ 1 ≤ s.ghCyc.2 then 1
  else 0

/-! ### Counters (R280, R298) -/

/-- Counter `i` of a channel's receive counters. -/
def State.rxCount (s : State) (ch i : Nat) : State := if i % 2 = 0 then s.inc (F.GHC_RXCNT_LO ch (i / 2)) else s.inc (F.GHC_RXCNT_HI ch (i / 2))
/-- Counter `i` of the transmit counters: FRAMES_A, FRAMES_B, NULL_SENT, TX_LEN_ERR, TX_TCHK_FAIL, TX_WITHHELD, TX_REPLACED,
CHANNEL_DIFF, DUP, RX_NOCREDIT. -/
def State.txCount (s : State) (i : Nat) : State := if i % 2 = 0 then s.inc (F.GHC_TXCNT_LO (i / 2)) else s.inc (F.GHC_TXCNT_HI (i / 2))

/-- A frame is rejected by a check: its count, source 234 or 235, and an entry (R280). -/
def State.ghReject (s : State) (ch check slot : Nat) : State :=
  ((s.rxCount ch check).raise (234 + ch)).report .GHEIF_RX_VIOLATION (srcGhc ch) [ch, check, slot]

/-! ### Acceptance (R280) -/

/-- Where a frame's first falling edge, compensated and relative to the cycle start, lies: expected action point in microticks,
slot ID that the place carries (0: none), whether it is the symbol window, the declared length and whether it is exact, the latest end of the last
bit, and the position as `GhItem.pos` numbers it. -/
structure GhPlace where
  ap : Nat
  id : Nat
  symbol : Bool
  exact : Bool
  plen : Nat
  lastEnd : Nat
  pos : Nat
  deriving DecidableEq, Repr

/-- The dynamic slot of a channel in which a macrotick of the cycle lies: its ID and the macrotick at which it began. A slot in which no frame
has started lasts one minislot (R258). -/
def State.dynAt (s : State) (c : Cluster) (ch m : Nat) : Option (Nat × Nat) :=
  match tget noneD s.gh.dynNext ch with
  | some (id, t) => if t ≤ m then some (id + (m - t) / c.ms, t + (m - t) / c.ms * c.ms) else tget noneD s.gh.dynCur ch
  | none => tget noneD s.gh.dynCur ch

/-- The position of a dynamic slot that begins at a macrotick. -/
def Cluster.dynPos (c : Cluster) (m : Nat) : Nat := 1024 + (m - c.dynStart) / c.ms

/-- Microticks from the start of the protocol engine's cycle to a macrotick. -/
def State.ghOfs (s : State) (m : Nat) : Nat := (s.mtOfs s.gh.rateNow m).toNat

/-- The place of the cycle in which an offset (microticks after the cycle start) lies (R254, R257, R258). -/
def State.ghPlace (s : State) (c : Cluster) (ch off : Nat) : Option GhPlace :=
  let m := s.ghMacro off
  let len (id : Nat) : Nat := match c.desc id with | some d => d.plen | none => 0
  if m < c.sw then some ⟨s.ghOfs c.ap, 0, true, true, 2, s.ghOfs c.sw, 0⟩
  else if m < c.dynStart then
    let p := (m - c.sw) / c.slot + 1
    let id := c.at_ (s.get F.GHC_STAT_MODE) ch p
    some ⟨s.ghOfs (c.posAt p + c.ap), id, false, true, len id, s.ghOfs (c.posAt p + c.slot - c.tail) + c.pi, p⟩
  else if m < c.idleAt then
    match s.dynAt c ch m with
    | some (id, t) => some ⟨s.ghOfs (t + c.msAp), id, false, false, len id, s.ghOfs c.idleAt, c.dynPos t⟩
    | none => none
  else none

/-- The place in which a frame of a channel began. -/
def State.ghPlaceOf (s : State) (c : Cluster) (ch : Nat) (f : GhFrame) : Option GhPlace :=
  let a := s.ghCyc.1 + (s.ghMe c).delay ch
  if f.sof < a then none else s.ghPlace c ch (f.sof - a)

/-- The deviation of a frame from the action point of a place (R260). -/
def State.ghDev (s : State) (c : Cluster) (ch : Nat) (f : GhFrame) (pl : GhPlace) : Int :=
  ((f.sof : Int) - ((s.ghMe c).delay ch : Int)) - ((s.ghCyc.1 + pl.ap : Nat) : Int)

/-- The header-content rules of R251. -/
def Cluster.hdrOk (c : Cluster) (h : BitVec 48) : Bool :=
  !ghRsv h && ghRsv4 h == 0 && (!ghSyncBit h || (c.isSync (ghSlot h) && ghPre h && decide (2 ≤ ghPlen h)))
    && (!ghStartup h || (ghSyncBit h && c.isCold (ghSlot h))) && (!(ghSyncBit h && c.isCold (ghSlot h)) || ghStartup h)
    && (!ghPre h || ghSyncBit h)

/-- The number of the first check of R280 that a frame fails, numbered as the counters of R298; 0 where it passes all.
`skipMode` leaves out check 6 (R275). -/
def State.ghCheck (s : State) (c : Cluster) (ch : Nat) (f : GhFrame) (r : GhRead) (skipMode : Bool) : Nat :=
  match s.ghPlaceOf c ch f with
  | none => 1
  | some pl =>
    if c.pi < (s.ghDev c ch f pl).natAbs then 1
    else if !r.coded then 2
    else if ghHcrc r.hdr ≠ hcrcOf r.hdr then 3
    else if !(c.hdrOk r.hdr) then 4
    else if pl.symbol && !(s.pstate == 2 && ghSlot r.hdr == (s.ghMe c).syncId) then 5
    else if !pl.symbol && (ghSlot r.hdr ≠ pl.id || pl.id == 0) then 5
    else if ghMode r.hdr ≠ s.get F.GHC_STAT_MODE ∧ !skipMode then 6
    else if ghCc r.hdr ≠ s.ghCyc.2 then 7
    else if (if pl.exact then ghPlen r.hdr != pl.plen else decide (pl.plen < ghPlen r.hdr)) then 8
    else if s.ghCyc.1 + (s.ghMe c).delay ch + pl.lastEnd < f.sof + r.last then 9
    else if r.fcrc ≠ fcrcOf ch r.hdr r.payload then 10
    else 0

/-! ### What an accepted frame does -/

/-- The LEADER field of a sync preamble (R252). -/
def preLeader (p : List Byte) : Nat := fieldBe p 2 2 % 1024

/-- A proposal of R273 seen in a sync frame is endorsed, refused or let be. -/
def State.ghEndorse (s : State) (c : Cluster) (m x : Nat) : State :=
  let n := s.ghMe c
  let dist (y : Nat) : Nat := (y + 256 - s.ghCyc.2) % 256
  if n.syncId = 0 ∨ s.gh.leader ≠ 0 then s
  else if !(n.permit.testBit m) then
    (if s.gh.prop = some (m, x, false) then s else s.report .MODE_REFUSED (srcGhc 0) [m, x])
  else
    let take := match s.gh.prop with
      | none => true
      | some (m', x', _) => !(m' == m && x' == x) && !(decide (dist x' < dist x) || (x' == x && decide (m' < m)))
    if take then ((s.set F.GHC_STAT_MODE_PEND 1).set F.GHC_STAT_MODE_NEXT m).modGh fun g => { g with prop := some (m, x, false), propN := s.ghCyc.2 }
    else s

/-- A sync frame enters the clock synchronisation, the start-up and the mode logic (R260, R265, R271, R272, R274). The own start frame is none of
the static positions. -/
def State.ghSync (s : State) (c : Cluster) (ch : Nat) (f : GhFrame) (r : GhRead) (pl : GhPlace) : State :=
  let id := ghSlot r.hdr
  let b0 := fieldLe r.payload 0 1
  let e : GhSync := ⟨id, ch, s.ghDev c ch f pl, ghStartup r.hdr, preLeader r.payload, b0.testBit 7, b0 % 8, fieldLe r.payload 1 1⟩
  let own := id == (s.ghMe c).syncId
  if pl.symbol then s.modGh fun g => { g with ownStart := true }
  else
    let s := s.modGh fun g => { g with syncs := e :: g.syncs, ownOne := g.ownOne || (own && s.ghCyc.2 == 1) }
    if e.mreq && !own && decide (3 ≤ s.pstate) then s.ghEndorse c e.mode e.modeAt else s

/-- The item of a slot ID with its 16-byte prefix, its transit check computed over both (R289 step 5). -/
def State.ghItem (s : State) (d : SlotDesc) (ch : Nat) (data : List Byte) : Item :=
  s.item (leBytes 2 d.id ++ [BitVec.ofNat 8 s.ghCyc.2, BitVec.ofNat 8 ch] ++ leBytes 8 s.stamp ++ List.replicate 4 0 ++ data)

/-- The item is the current one of its ID, and a new item of it (R289 step 5, R292). -/
def State.ghCurrent (s : State) (c : Cluster) (d : SlotDesc) (ch pos : Nat) (it : Item) : State :=
  let s := s.modGh fun g => { g with items := tput noneD g.items d.id (some ⟨s.ghCyc.2, ch, pos, it⟩) }
  let s := (s.set (F.GHC_SLOTSTAT_LAST_CH d.id) ch).set (F.GHC_SLOTSTAT_LAST_CC d.id) s.ghCyc.2
  let s := if c.dynFirst ≤ d.id then s
    else
      let s := s.modGh fun g => { g with fresh := if g.fresh.contains d.id then g.fresh else d.id :: g.fresh }
      let s := s.set (F.GHC_SLOTSTAT_MISS_CNT d.id) 0
      if s.get (F.GHC_SLOTSTAT_PRES d.id) = 0 then s.set (F.GHC_SLOTSTAT_PRES d.id) 1 else s
  s.offerItem 1 d.id it

/-- An item is stored in an ID's double buffer and committed to its queue (R289 steps 5, 6). -/
def State.ghStore (s : State) (c : Cluster) (d : SlotDesc) (ch pos : Nat) (data : List Byte) : State :=
  let it := s.ghItem d ch data
  let s := s.ghCurrent c d ch pos it
  if d.queue = 0xFF then s else
  let r := s.qCommitItem (s.qgeo d.queue) 0 it
  if r.2 then r.1 else r.1.txCount 9

/-- Of two copies with equal stamps, the one on channel A is the item that is kept, also where channel B's was handled first (R290). -/
def State.ghSwap (s : State) (c : Cluster) (d : SlotDesc) (ch pos : Nat) (data : List Byte) : State :=
  match tget noneD s.gh.items d.id with
  | some b =>
    let it := s.ghItem d ch data
    let s := s.ghCurrent c d ch pos it
    if d.queue = 0xFF then s else
    let g := s.qgeo d.queue
    let ptr := ((s.qst g).wr + 2 * g.depth - 1) % (2 * g.depth)
    if s.qPayload g ptr == b.it.data then s.qWrite g ptr 0 it else s
  | none => s

/-- A copy that is not the first of its cycle: counted, and nothing else (R290). -/
def State.ghOther (s : State) (d : SlotDesc) (ch : Nat) (same : Bool) : State :=
  if same then s.txCount 8 else ((s.txCount 7).raise 237).report .GHEIF_CHANNEL_DIFF (srcGhc ch) [d.id, s.ghCyc.2]

/-- An accepted data frame is handled by the controller (R289, R290). -/
def State.ghHandle (s : State) (c : Cluster) (d : SlotDesc) (ch pos : Nat) (null : Bool) (data : List Byte) : State :=
  let mark (s : State) : State := s.modGh fun g => { g with first := tput noneD g.first d.id (some ⟨ch, s.clk.t, null, data⟩) }
  match tget noneD s.gh.first d.id with
  | some a =>
    if a.ch = ch then s
    else
      let s := if a.tm = s.clk.t ∧ ch < a.ch ∧ !null ∧ !a.null ∧ d.rxbuf ≠ 0 ∧ data.length ≤ d.rxbuf then mark (s.ghSwap c d ch pos data) else s
      s.ghOther d ch (a.data == data)
  | none =>
    if null then mark (s.rxCount ch 15)
    else if d.rxbuf = 0 then mark s
    else if d.rxbuf < data.length then ((s.rxCount ch 14).raise 236).report .GHEIF_LENGTH (srcGhc ch) [ch, d.id, data.length]
    else mark (s.ghStore c d ch pos data)

/-- A frame with the ID of a dynamic slot, started at its action point, fixes where the slot ends: with the minislot that follows the one
containing the last bit, at `last` microticks after the cycle start (R258). -/
def State.ghDynEnd (s : State) (c : Cluster) (ch id pos last : Nat) : State :=
  let at_ := c.dynStart + (pos - 1024) * c.ms
  let next := c.dynStart + ((s.ghMacro (last - 1) - c.dynStart) / c.ms + 2) * c.ms
  s.modGh fun g => { g with dynCur := tput noneD g.dynCur ch (some (id, at_)), dynNext := tput noneD g.dynNext ch (some (id + 1, next)) }

/-- A frame received fixes the end of a dynamic slot, whatever checks it fails later, if its header could be read and names the slot. -/
def State.ghDynSeen (s : State) (c : Cluster) (ch : Nat) (f : GhFrame) (r : GhRead) : State :=
  match s.ghPlaceOf c ch f with
  | some pl =>
    if 1024 ≤ pl.pos ∧ (s.ghDev c ch f pl).natAbs ≤ c.pi ∧ r.head ∧ ghHcrc r.hdr = hcrcOf r.hdr ∧ ghSlot r.hdr = pl.id then
      s.ghDynEnd c ch pl.id pl.pos (f.sof + r.last - (s.ghMe c).delay ch - s.ghCyc.1)
    else s
  | none => s

/-- An accepted frame (R281, R289, R231). -/
def State.ghAccept (s : State) (c : Cluster) (ch : Nat) (f : GhFrame) (r : GhRead) : State :=
  match s.ghPlaceOf c ch f with
  | none => s
  | some pl =>
    let s := (s.rxCount ch 0).modGh fun g => { g with lastPos := tput natD g.lastPos ch (pl.pos + 1) }
    let s := if ghSyncBit r.hdr then s.ghSync c ch f r pl else s
    let s := if r.more then s.rxCount ch 11 else s
    match c.desc (ghSlot r.hdr) with
    | some d =>
      let s := if s.duplex && d.ogrp == 0xFF && d.txPos == 2 ^ (3 - s.pos - 1) then { s with tvl := { s.tvl with witness := s.clk.t } } else s
      if pl.symbol then s else s.ghHandle c d ch pl.pos (ghNull r.hdr) (if d.sflags.testBit 0 then r.payload.drop 4 else r.payload)
    | none => s

/-! ### Reception in LISTEN (R268, R269) -/

/-- The checks that need no timing (R269). -/
def Cluster.bare (c : Cluster) (ch : Nat) (r : GhRead) : Bool :=
  r.coded && ghHcrc r.hdr == hcrcOf r.hdr && c.hdrOk r.hdr && r.fcrc == fcrcOf ch r.hdr r.payload

/-- The dynamic slots of the cycle that begins: none before the second minislot (R258). -/
def Cluster.dynFresh (c : Cluster) : Tbl (Option (Nat × Nat)) :=
  if c.nMini = 0 then [] else [(0, some (c.dynFirst, c.dynStart + c.ms)), (1, some (c.dynFirst, c.dynStart + c.ms))]

/-- The cycle timer takes a start and a count. -/
def State.setCyc (s : State) (start count : Nat) : State :=
  ({ s with cyc := { s.cyc with start := start, count := count, n := s.cyc.n + 1, running := true } }).set F.GHC_STAT_CCOUNT count

/-- The cluster's timing is taken: at once, but in the Run state the cycle timer only moves toward it (R17, R266, R268). -/
def State.takeTiming (s : State) (c : Cluster) (start count : Nat) : State :=
  let s := s.modGh fun g => { g with
    syncs := [], ownSync := false, prevSyncs := [], prevOwn := false, integGood := 0, integWhole := false, corrected := false, first := [], lastPos := [],
    dynCur := [], dynNext := c.dynFresh }
  State.noteCycTod (if s.sup.st = .run then s.modGh fun g => { g with own := some (start, count) }
    else (s.setCyc start count).modGh fun g => { g with own := none, nextCycle := none })

/-- A frame heard in LISTEN. -/
def State.ghHear (s : State) (c : Cluster) (ch : Nat) (f : GhFrame) (r : GhRead) : State :=
  let n := s.ghMe c
  let id := ghSlot r.hdr
  let sof := f.sof - n.delay ch
  if !(c.bare ch r) then s
  else
    let lead := preLeader r.payload
    let startF := ghSyncBit r.hdr && ghStartup r.hdr && ghPre r.hdr && ghPlen r.hdr == 2 && ghCc r.hdr == 0 && id == lead && c.isCold id
      && ghMode r.hdr == c.startMode &&
      (match s.gh.casAt with
       | some t =>
         let want := t + 800 + c.ap * mtUt
         decide (want ≤ f.sof + c.pi) && decide (f.sof ≤ want + c.pi)
       | none => false)
    if startF then
      let s := (s.setPs 3).modGh fun g => { g with leader := id, follower := ghColdstart n }
      ((s.set F.GHC_CS_LEADER id).set F.GHC_STAT_MODE c.startMode).takeTiming c (sof - c.ap * mtUt) 0
    else if ghStartup r.hdr && lead == 0 && c.isCold id && c.modes.testBit (ghMode r.hdr) && n.permit.testBit (ghMode r.hdr) then
      match (List.range c.nStatic).find? (fun p => c.at_ (ghMode r.hdr) ch (p + 1) == id), c.desc id with
      | some p, some d =>
        if d.plen ≠ ghPlen r.hdr then s else
        let s := (s.setPs 3).modGh fun g => { g with leader := 0, follower := false }
        (s.set F.GHC_STAT_MODE (ghMode r.hdr)).takeTiming c (sof - (c.posAt (p + 1) + c.ap) * mtUt) (ghCc r.hdr)
      | _, _ => s
    else s

/-- GHEIF_FRAME_RX (R247, R269, R280, R281, R289, R290). -/
def gheifFrameRx (ch : Nat) (f : GhFrame) (s : State) : State :=
  match s.clu with
  | some c =>
    if !s.alive || s.pstate == 0 || !(s.ghAttached ch) then s
    else
      let r := ghRead f
      let s := s.advance (f.sof + r.last)
      let s := s.modGh fun g => { g with lineAt := tput natD g.lineAt ch (f.sof + f.samples.length) }
      if s.pstate = 1 then s.ghHear c ch f r
      else
        let k := s.ghCheck c ch f r false
        let t := if k = 0 then s.ghAccept c ch f r
          else
            let s := if k = 6 ∧ ghSyncBit r.hdr ∧ s.ghCheck c ch f r true = 0 then
                s.modGh fun g => { g with modeErr := (ghSlot r.hdr, ghMode r.hdr) :: g.modeErr } else s
            s.ghReject ch k (ghSlot r.hdr)
        { t with gh := { t.gh with dynCur := (s.ghDynSeen c ch f r).gh.dynCur, dynNext := (s.ghDynSeen c ch f r).gh.dynNext } }
  | none => s

/-! ### The guardian (R276 to R279) -/

/-- The guardian's margin at `t` microticks after the anchor (R276). -/
def guardMargin (t : Nat) : Nat := t * 101 / 1000000 + 40
/-- The guardian's tolerance on a strobe in microticks (R276). -/
def Cluster.strobeTol (c : Cluster) : Nat := c.tg * 200 * 102 / 1000000 + c.ofsLimit + 80

/-- This module may drive the slots of an ID by the guardian's own lease copy (R279). -/
def State.guardOwns (s : State) (d : SlotDesc) : Bool := s.ghOwns d && (!d.isBound || s.flag (F.TVL_LSTAT_GUARDIAN d.ogrp))

/-- The window that the guardian opens on a channel about this instant: its opening and closing instants (R277, R278). It counts macroticks from
its anchor, the cycle-start strobe, and it finds the slot for itself: the position's ID in the current mode, or the dynamic slot (its slot counter
runs as the engine's does, from the same line). -/
def State.guardWindow (s : State) (c : Cluster) (ch : Nat) : Option (Nat × Nat) :=
  let t := s.clk.t
  let cas := match s.gh.casAt with | some a => decide (s.pstate = 2 ∧ a ≤ t ∧ t ≤ a + 296) | none => false
  if !(s.ghAttached ch) || s.sup.faultLatch || !(s.pstate == 2 || s.pstate == 3 || s.pstate == 4) then none
  else if cas then s.gh.casAt.map fun a => (a, a + 296)
  else
    match s.gh.gAt with
    | some a =>
      if !(s.flag F.GRD_STAT_ANCHORED) || decide (t < a) then none
      else
        let m := (t - a) / mtUt
        let opens (ap : Nat) : Nat := a + ap * mtUt - c.pi - guardMargin (ap * mtUt)
        if m < c.sw then
          if s.pstate = 2 ∧ s.ghCyc.2 = 0 then some (opens c.ap, a + c.ap * mtUt + 1120 + guardMargin (c.ap * mtUt)) else none
        else if m < c.dynStart then
          let p := (m - c.sw) / c.slot + 1
          match c.desc (c.at_ (s.get F.GHC_STAT_MODE) ch p) with
          | some d =>
            if s.guardOwns d then
              some (opens (c.posAt p + c.ap), a + (c.posAt p + c.slot - c.tail) * mtUt + guardMargin ((c.posAt p + c.slot) * mtUt))
            else none
          | none => none
        else if m < c.idleAt then
          match s.dynAt c ch m with
          | some (id, st) =>
            match c.desc id with
            | some d =>
              let ap := (st + c.msAp) * mtUt
              if s.guardOwns d && d.dchan.testBit ch then
                some (opens (st + c.msAp), min (a + ap + ghTime (2 * d.plen) + guardMargin ap) (a + c.idleAt * mtUt))
              else none
            | none => none
          | none => none
        else none
    | none => none

/-- The guardian enables a channel's driver at this instant, and the instant at which it will withdraw it. -/
def State.guardOpen (s : State) (ch : Nat) : Option Nat :=
  match s.clu with
  | some c => match s.guardWindow c ch with | some (o, e) => if o ≤ s.clk.t ∧ s.clk.t ≤ e then some e else none | none => none
  | none => none

/-- A request to transmit in a position meets the guardian, which enables the driver or blocks it (R277 to R279). -/
def State.ghDrive (s : State) (ch id pos kind : Nat) (data : List Byte) (dur : Nat) : State × Bool :=
  match s.guardOpen ch with
  | some e =>
    ((s.emit .gheif ch kind data).modGh fun g =>
      { g with sending := tput noneD g.sending ch (some ⟨id, pos, s.clk.t, s.clk.t + dur, e⟩), lineAt := tput natD g.lineAt ch (s.clk.t + dur) }, true)
  | none => (((s.inc F.GRD_CNT_BLOCK).raise 239).report .GHEIF_GUARD (srcGhc ch) [ch, pos], false)

/-- GUARD_STROBE (R276, R278): the cycle-start strobe against the instant the guardian expects from the previous one, `err` microticks being
what its own oscillator is off by. A first anchor is taken without the check. -/
def guardStrobe (err : Int) (s : State) : State :=
  match s.clu with
  | some c =>
    let z := s.ghCyc.1
    if !s.alive || decide (s.pstate < 2) || s.gh.gAt == some z then s
    else
      let ok := match s.gh.gAt with
        | some a => decide (((z : Int) - (a : Int) - ((c.tg * mtUt : Nat) : Int) + err).natAbs ≤ c.strobeTol)
        | none => true
      let s := s.modGh fun g => { g with gAt := some z }
      if !ok then
        ((((s.cutBoth.set F.GRD_STAT_ANCHORED 0).inc F.GRD_CNT_CYCLE_ERR).raise 241).modGh fun g => { g with gOk := some 0 })
      else if s.flag F.GRD_STAT_ANCHORED then s
      else match s.gh.gOk with
        | some 0 => s.modGh fun g => { g with gOk := some 1 }
        | _ => (s.set F.GRD_STAT_ANCHORED 1).modGh fun g => { g with gOk := none }
  | none => s

/-- GUARD_CUT (R277, R279): a window closes, or the guardian stops enabling, on a transmission still running. -/
def guardCut (ch : Nat) (s : State) : State :=
  match tget noneD s.gh.sending ch with
  | some tx =>
    if !s.alive then s
    else if tx.close < tx.stop then (s.advance tx.close).cutTx ch tx.close
    else if s.clk.t < tx.stop ∧ s.guardOpen ch = none then s.cutTx ch s.clk.t
    else s
  | none => s

/-! ### Sending (R257, R258, R293 to R295) -/

/-- The sync preamble this node sends: a proposal goes out from the cycle after the one in which it was made (R252, R273). -/
def State.ghPreamble (s : State) : List Byte :=
  let (r, m, x) : Nat × Nat × Nat := match s.gh.prop with
    | some (m, x, _) => if s.gh.propN = s.ghCyc.2 then (0, 0, 0) else (1, m, x)
    | none => (0, 0, 0)
  [BitVec.ofNat 8 (r * 128 + m), BitVec.ofNat 8 x] ++ beBytes 2 s.gh.leader

/-- What is held for an ID to send is given up. -/
def Gh.forget (g : Gh) (id : Nat) : Gh :=
  { g with single := terase g.single id, hold := terase g.hold id, bound := terase g.bound id, sent := g.sent.filter fun k => k / 2 != id }

/-- An ID's item has gone out on a channel; a dynamic one that has gone out on all its channels is done with. -/
def State.ghMark (s : State) (c : Cluster) (d : SlotDesc) (ch : Nat) : State :=
  let s := s.modGh fun g => { g with sent := (2 * d.id + ch) :: g.sent.filter fun k => k != 2 * d.id + ch }
  let rest := [0, 1].any fun i => d.dchan.testBit i && s.ghAttached i && !(s.gh.sent.contains (2 * d.id + i))
  if c.dynFirst ≤ d.id ∧ !rest then s.modGh fun g => g.forget d.id else s

/-- A frame with data, or a null frame, starts at the action point. -/
def State.ghFrame (s : State) (c : Cluster) (ch : Nat) (d : SlotDesc) (pos : Nat) (data : Option (List Byte)) : State × Bool :=
  let isSync := d.sflags.testBit 0
  let body : List Byte := match data with
    | some b => if d.id < c.dynFirst then padTo d.cap b else (if b.length % 2 = 1 then b ++ [0] else b)
    | none => List.replicate d.cap 0
  let payload := if isSync then s.ghPreamble ++ body else body
  let h := ghHeader s.ghCyc.2 d.id (s.get F.GHC_STAT_MODE) (payload.length / 2) isSync data.isNone isSync (isSync && ghColdstart (s.ghMe c))
  let r := s.ghDrive ch d.id pos 0 (ghWire (ghBytes ch h payload)) (ghTime payload.length)
  if r.2 then
    let s := r.1.txCount ch
    let s := if data.isNone then s.txCount 2 else s.ghMark c d ch
    (s.modGh fun g => { g with ownSync := g.ownSync || isSync }, true)
  else r

/-- An ID's frame is sent, its transit check verified before the first bit; where it fails, a static position carries a null frame (R295). -/
def State.ghSend (s : State) (c : Cluster) (ch : Nat) (d : SlotDesc) (pos : Nat) (it : Option Item) : State × Bool :=
  match it with
  | some i =>
    if i.ok then s.ghFrame c ch d pos (some i.data)
    else
      let s := (((s.txCount 4).raise 238).transitFail (srcGhc ch) ch i.stamp).modGh fun g => g.forget d.id
      if d.id < c.dynFirst then s.ghFrame c ch d pos none else (s, false)
  | none => if d.id < c.dynFirst then s.ghFrame c ch d pos none else (s, false)

/-- The item an ID has ready, or none for a null frame (R293, R294). -/
def State.ghReady (s : State) (d : SlotDesc) : Option Item :=
  if d.isBound then tget noneD s.gh.bound d.id
  else if d.txmode = 1 then tget noneD s.gh.hold d.id
  else tget noneD s.gh.single d.id

/-- The lease of a bound ID's group stands in the TVL and in the guardian (R295). -/
def State.ghLeased (s : State) (d : SlotDesc) : Bool := !d.isBound || (s.holds d.ogrp && s.flag (F.TVL_LSTAT_GUARDIAN d.ogrp))

/-- GHEIF_SLOT_TX (R257, R295): the action point of static position `p`. -/
def gheifSlotTx (ch p : Nat) (s : State) : State :=
  match s.clu with
  | some c =>
    let t := s.ghMt (c.posAt p + c.ap)
    if !s.alive || !(s.ghAttached ch) || !s.cyc.running || p == 0 || decide (c.nStatic < p) || decide (t < s.clk.t) then s
    else
      let s := s.advance t
      match c.desc (c.at_ (s.get F.GHC_STAT_MODE) ch p) with
      | some d =>
        let may := s.ghMaySend
        if !(s.ghOwns d) || may == 0 || (may == 1 && !(d.id == (s.ghMe c).syncId)) then s
        else if !(s.ghLeased d) then s.txCount 5
        else (s.ghSend c ch d p (s.ghReady d)).1
      | none => s
  | none => s

/-- The next dynamic slot of a channel that has not begun yet, minislots that have passed in silence left out (R258). -/
def State.dynUpcoming (s : State) (c : Cluster) (ch : Nat) : Option (Nat × Nat) :=
  (tget noneD s.gh.dynNext ch).map fun n =>
    let late := s.ghMacro (s.clk.t - s.ghCyc.1) - n.2
    (n.1 + (late + c.ms - 1) / c.ms, n.2 + (late + c.ms - 1) / c.ms * c.ms)

/-- DYN_SLOT (R258): a minislot boundary opens the next dynamic slot and may start a frame, which lengthens the slot. -/
def dynSlot (ch : Nat) (s : State) : State :=
  match s.clu with
  | some c =>
    match s.dynUpcoming c ch with
    | some (id, m) =>
      if !s.alive || !(s.ghAttached ch) || s.pstate == 0 || decide (c.idleAt ≤ m) then s
      else
        let s := s.advance (s.ghMt m)
        let s := s.modGh fun g =>
            { g with dynCur := tput noneD g.dynCur ch (some (id, m)), dynNext := tput noneD g.dynNext ch (some (id + 1, m + c.ms)) }
        match c.desc id with
        | some d =>
          match s.ghReady d with
          | some i =>
            let last := s.ghMt (m + c.msAp) + ghTime (i.data.length + i.data.length % 2)
            if s.ghOwns d && d.dchan.testBit ch && s.ghMaySend == 2 && !(s.gh.sent.contains (2 * id + ch)) && decide (last + c.ms * mtUt ≤ s.ghMt c.idleAt) then
              if !(s.ghLeased d) then s.txCount 5
              else
                let r := (s.advance (s.ghMt (m + c.msAp))).ghSend c ch d (c.dynPos m) (some i)
                if r.2 then r.1.ghDynEnd c ch id (c.dynPos m) (last - s.ghCyc.1) else r.1
            else s
          | none => s
        | none => s
    | none => s
  | none => s

/-- The take instant of an ID: 2 us before its action point or its dynamic segment (R294). -/
def State.takeAt (s : State) (c : Cluster) (d : SlotDesc) : Nat :=
  if c.dynFirst ≤ d.id then s.ghMt c.dynStart - 2 * usUt
  else
    let mode := s.get F.GHC_STAT_MODE
    let ps := (List.range c.nStatic).filter fun p => c.at_ mode 0 (p + 1) == d.id || c.at_ mode 1 (p + 1) == d.id
    match ps with | p :: _ => s.ghMt (c.posAt (p + 1) + c.ap) - 2 * usUt | [] => s.clk.t

/-- Whether the running mode places a static ID anywhere (R296). -/
def State.ghPlaced (s : State) (c : Cluster) (id : Nat) : Bool :=
  decide (c.dynFirst ≤ id) || (List.range c.nStatic).any fun p =>
    c.at_ (s.get F.GHC_STAT_MODE) 0 (p + 1) == id || c.at_ (s.get F.GHC_STAT_MODE) 1 (p + 1) == id

/-- A counter of the transmit counters counts `n` times. -/
def State.txCountBy (s : State) (i n : Nat) : State := (List.range n).foldl (fun (s : State) _ => s.txCount i) s

/-- An item of the wrong length is discarded (R294). -/
def State.ghFits (s : State) (d : SlotDesc) (i : Item) : State × Bool :=
  if d.cap < i.data.length then ((s.txCount 3).raise 238, false) else (s, true)

/-- GHEIF_TAKE (R294): each item whose check fails counts TX_TCHK_FAIL (R163). -/
def gheifTake (id : Nat) (s : State) : State :=
  match s.clu with
  | some c =>
    match c.desc id with
    | some d =>
      if !s.alive || s.pstate != 4 || !(s.ghOwns d) || d.isBound || d.queue == 0xFF || !(s.ghPlaced c id) then s
      else
        let s := s.advance (s.takeAt c d)
        let g := s.qgeo d.queue
        let n := if d.txmode = 1 then qLevel g (s.qst g) else if (tget noneD s.gh.single id).isSome then 0 else min 1 (qLevel g (s.qst g))
        let r := s.qTakeAll g n
        let s := if r.2.length < n then (r.1.txCountBy 4 (n - r.2.length)).raise 238 else r.1
        let (s, ok) := r.2.foldl (fun (a : State × List Item) i =>
          let t := a.1.ghFits d i
          (t.1, if t.2 then a.2 ++ [i] else a.2)) (s, [])
        let s := s.txCountBy 6 (ok.length - 1)
        match ok.getLast? with
        | some i => s.modGh fun g =>
            if d.txmode = 1 then { g with hold := tput noneD g.hold id (some i) }
            else { g with single := tput noneD g.single id (some i), sent := g.sent.filter fun k => k / 2 != id }
        | none => s
    | none => s
  | none => s

/-- The output instant of cycle group `g` releases the ranges of the held groups to their IDs, with the transit check of each (R293). -/
def State.ghRelease (s : State) (g : Nat) : State :=
  match s.clu with
  | some c =>
    c.slots.foldl (fun (s : State) d =>
      if d.isBound && s.ghOwns d && s.get (F.TVL_OGRP_CGRP d.ogrp) == g && s.holds d.ogrp then
        let it := s.item (sliceB (image (s.grp g).voted (s.outBytes g)) d.srcOfs (2 * d.plen))
        let s := if decide (c.dynFirst ≤ d.id) && (tget noneD s.gh.bound d.id).isSome then s.txCount 6 else s
        s.modGh fun h => { h with bound := tput noneD h.bound d.id (some it), sent := h.sent.filter fun k => k / 2 != d.id }
      else s) s
  | none => s

/-! ### Clock synchronisation (R260 to R265) -/

/-- Integer division by two, rounded toward zero. -/
def half0 (i : Int) : Int := i.tdiv 2

/-- The fault-tolerant midpoint of R261; none with fewer than SYNC_MIN values. -/
def midpoint (syncMin : Nat) (v : List Int) : Option Int :=
  let k := v.length
  if k < syncMin ∨ k = 0 then none
  else
    let sorted := v.mergeSort (fun a b => decide (a ≤ b))
    let d := if 7 ≤ k then 2 else if 3 ≤ k then 1 else 0
    some (half0 (sorted.getD d 0 + sorted.getD (k - 1 - d) 0))

/-- A sync node's value: the mean of its two channels' deviations (R260). -/
def nodeDev (l : List GhSync) (id : Nat) : Option Int :=
  match (l.filter fun e => e.id == id).map (fun e => e.dev) with
  | [] => none
  | [a] => some a
  | a :: b :: _ => some (half0 (a + b))

/-- The sync frames of other nodes than the one whose sync slot ID is named. -/
def syncOthers (me : Nat) (l : List GhSync) : List GhSync := l.filter fun e => e.id != me

/-- The values of a cycle from the other nodes' sync frames, and 0 where the node sent its own (R260). -/
def syncValues (l : List GhSync) (own : Bool) : List Int :=
  ((l.map fun e => e.id).eraseDups.filterMap fun id => nodeDev l id) ++ (if own then [0] else [])

/-- The deltas of R263. -/
def rateValues (odd even : List GhSync) (ownOdd ownEven : Bool) (o : Int) : List Int :=
  ((odd.map fun e => e.id).eraseDups.filterMap fun id =>
    match nodeDev odd id, nodeDev even id with | some a, some b => some (a - b + o) | _, _ => none)
    ++ (if ownOdd && ownEven then [0] else [])

/-- The rate limit in microticks per Gheif cycle (R264). -/
def Cluster.rateMax (c : Cluster) : Int := (c.rateLimit * c.tg * 200 / 1000000 : Nat)

/-- CLOCK_CORRECTION (R261 to R265): in the cycle idle phase. -/
def clockCorrection (s : State) : State :=
  match s.clu with
  | some c =>
    if !s.alive || decide (s.pstate < 2) || !s.cyc.running || s.gh.corrected then s
    else
      let s := s.advance (s.ghMt c.idleAt)
      let g := s.gh
      let me := (s.ghMe c).syncId
      let v := syncValues (syncOthers me g.syncs) g.ownSync
      let cold := decide (g.leader ≠ 0 ∧ s.ghCyc.2 < 2)
      let o := if cold then none else midpoint c.syncMin v
      let odd := s.ghCyc.2 % 2 == 1
      let r := if odd && !cold then
          midpoint c.syncMin (rateValues (syncOthers me g.syncs) (syncOthers me g.prevSyncs) g.ownSync g.prevOwn g.ofs) else none
      let rate := g.rate + r.getD 0
      let lim : Int := c.ofsLimit
      let ofsBad := decide (lim < (o.getD 0).natAbs)
      let bad := ofsBad || decide (c.rateMax < rate.natAbs) || (!cold && decide (v.length < c.syncMin))
      let oC := clampInt (-lim) lim (o.getD 0)
      let rC := clampInt (-c.rateMax) c.rateMax rate
      let prec := g.syncs.foldl (fun m e => max m e.dev.natAbs) 0
      let s := ((s.set F.GHC_SYNC_OFS (ofSigned 16 oC)).set F.GHC_SYNC_RATE (ofSigned 16 rC)).set F.GHC_STAT_NSYNC (min v.length 15)
      let s := s.set F.GHC_PREC_LAST prec
      let s := if s.get F.GHC_PREC_MAX < prec then s.set F.GHC_PREC_MAX prec else s
      s.modGh fun g => { g with prevOfs := g.ofs, ofs := oC, rate := rC, corrected := true, passiveNext := bad, ofsBad := ofsBad }
  | none => s

/-! ### State changes at a Gheif cycle start (R264, R266, R268, R270, R275) -/

/-- The cycle timer's cycle start lies within OFS_LIMIT_UT of the cluster's, and its cycle count agrees (R266). -/
def State.ghAligned (s : State) (c : Cluster) : Bool := decide (s.drift.natAbs ≤ c.ofsLimit)

/-- A cold start or an integration succeeds: LEADER 0; ACTIVE, where the attempts return to 0 and cold starts are possible again (R270 step 8,
R272), or PASSIVE while the cycle timer has not yet come to the cluster's timing (R266). -/
def State.ghActive (s : State) (c : Cluster) : State :=
  let s := s.modGh fun g => { g with leader := 0, follower := false, good := 0, passive := 0 }
  if s.ghAligned c then ((s.set F.GHC_CS_ATTEMPTS 0).set F.GHC_CS_EXHAUSTED 0).setPs 4 else (s.setPs 5).raise 226

/-- A cycle an integrating node has just seen was good (R268). -/
def State.ghIntegGood (s : State) (c : Cluster) (l : List GhSync) : Bool :=
  let ids := ((l.filter fun e => e.startup && e.leader == 0).map fun e => e.id).eraseDups
  decide (max c.syncMin (min 2 c.csNodes) ≤ ids.length) && !s.gh.ofsBad

/-- The protocol engine at a cycle start; `l` are the sync frames of the cycle that ended. -/
def State.ghStep (s : State) (c : Cluster) (l : List GhSync) : State :=
  match s.pstate with
  | 2 => if s.ghCyc.2 = 4 then s.ghActive c else s
  | 3 =>
    if s.gh.leader ≠ 0 then
      (if s.ghCyc.2 = 4 then (if s.gh.follower then s.ghActive c else s.modGh fun g => { g with leader := 0, integGood := 0 }) else s)
    else if s.ghIntegGood c l then
      let n := s.gh.integGood + 1
      if 2 ≤ n then s.ghActive c else s.modGh fun g => { g with integGood := n, integWhole := true }
    else if s.gh.integWhole then s.ghListen false
    else s.modGh fun g => { g with integWhole := true }
  | 4 => if s.gh.passiveNext then ((s.setPs 5).raise 226).modGh fun g => { g with good := 0, passive := 0 } else s
  | 5 =>
    let n := if s.ghAligned c then s.gh.passive + 1 else s.gh.passive
    if s.gh.passiveNext then s.modGh fun g => { g with good := 0, passive := n }
    else if c.passiveReturn ≤ s.gh.good + 1 ∧ s.ghAligned c then s.ghActive c
    else s.modGh fun g => { g with good := g.good + 1, passive := n }
  | _ => s

/-- MODE_FOLLOW (R275): two cycles of sync frames that failed only the mode check and carried one other mode. -/
def State.ghFollow (s : State) (c : Cluster) : State :=
  let g := s.gh
  let ids := (g.modeErr.map fun e => e.1).eraseDups
  match g.modeErr with
  | e :: _ =>
    if decide (c.syncMin ≤ ids.length) && decide (c.syncMin ≤ (g.prevModeErr.map fun e => e.1).eraseDups.length)
        && g.modeErr.all (fun x => x.2 == e.2) && g.prevModeErr.all (fun x => x.2 == e.2) && e.2 != s.get F.GHC_STAT_MODE then
      (((s.set F.GHC_STAT_MODE e.2).raise 231).report .MODE_FOLLOW (srcGhc 0) [e.2]).modGh fun g => { g with mute := true, modeErr := [], prevModeErr := [] }
    else s
  | [] => s

/-- What the protocol engine and the controller do at the start of a Gheif cycle; the cycle count has just advanced. -/
def State.ghCycleStart (s : State) : State :=
  match s.clu with
  | some c =>
    if s.pstate = 0 then s else
    let l := s.gh.syncs
    let s := (s.modGh fun g => { g with mute := false }).ghFollow c
    let s := s.ghStep c l
    let static (k : Nat) : Bool := decide (k / 2 < c.dynFirst)
    s.modGh fun g =>
      { g with
        prevSyncs := g.syncs, syncs := [], prevOwn := g.ownSync, ownSync := false, rateNow := g.rate, corrected := false,
        passiveNext := false, ofsBad := false, judged := false, prevModeErr := g.modeErr, modeErr := [], first := [], lastPos := [], nextCycle := none,
        dynCur := [], dynNext := c.dynFresh,
        single := g.single.filter (fun e => !(g.sent.any fun k => static k && k / 2 == e.1)), sent := g.sent.filter fun k => !static k }
  | none => s

/-- The protocol engine's own cycle ends before the cycle timer's while that still moves toward the cluster's timing (R266). -/
def State.engineFirst (s : State) : Bool := s.gh.own.isSome && decide (s.ghCyc.1 + s.ghLen < s.cyc.start + s.cycleLen)

/-- The protocol engine's own cycle starts. -/
def State.engineCycle (s : State) : State :=
  let next := (s.ghCyc.1 + s.ghLen, (s.ghCyc.2 + 1) % 256)
  (s.modGh fun g => { g with own := some next }).noteCycTod.ghCycleStart

/-- The cycle timer has started a cycle: with the protocol engine's, unless that has a cycle of its own. Once the two starts lie within
OFS_LIMIT_UT and the counts agree, the engine's cycle is the cycle timer's again (R266). -/
def State.timerCycle (s : State) : State :=
  match s.gh.own, s.clu with
  | some o, some c =>
    if s.ghAligned c then
      let t := s.modGh fun g => { g with own := none }
      if o.2 = s.cyc.count then t else t.ghCycleStart
    else s
  | _, _ => s.ghCycleStart

/-- GHEIF_SYNC_LOST (R264): after PASSIVE_MAX consecutive Gheif cycles in PASSIVE. -/
def gheifSyncLost (s : State) : State :=
  match s.clu with
  | some c => if s.pstate = 5 ∧ c.passiveMax ≤ s.gh.passive then ((s.ghListen false).raise 224).report .GHEIF_SYNC_LOST (srcGhc 0) [] else s
  | none => s

/-! ### Start-up (R268 to R272) -/

/-- A channel has been idle for the preceding 16 bit times, as far as the frames and the activity on it show (R248). -/
def State.lineIdle (s : State) (ch : Nat) : Bool := !(s.ghAttached ch) || decide (tget natD s.gh.lineAt ch + 128 ≤ s.clk.t)

/-- The leader's Gheif cycle 0 begins at an instant to come (R270 step 2); in the Run state the cycle timer does not step (R266). -/
def State.leadCycle (s : State) (t : Nat) : State :=
  if s.sup.st = .run then s.modGh fun g => { g with own := some (t - s.ghLen, 255) }
  else s.modGh fun g => { g with nextCycle := some (t, 0) }

/-- LISTEN_TIMEOUT (R268, R270 step 1): `idle`: the attached channels have been idle for the preceding 16 bit times, no activity below a
frame or a symbol included. The CAS goes through the guardian (R278). -/
def listenTimeout (idle : Bool) (s : State) : State :=
  match s.clu with
  | some c =>
    if !s.alive || s.pstate != 1 then s
    else
      let s := s.advance (s.gh.listenAt + s.gh.listenLen)
      let n := s.ghMe c
      if ghColdstart n && !(s.flag F.GHC_CS_EXHAUSTED) && decide (s.get F.GHC_CS_ATTEMPTS < c.csAttempts) && idle && s.lineIdle 0 && s.lineIdle 1 then
        let t := s.clk.t
        let s := ((s.setPs 2).set F.GHC_CS_LEADER n.syncId).set F.GHC_STAT_MODE c.startMode
        let s := s.modGh fun g =>
            { g with leader := n.syncId, follower := false, casAt := some t, ownStart := false, ownOne := false, syncs := [], ownSync := false }
        let s := [0, 1].foldl (fun (s : State) ch => if s.ghAttached ch then (s.ghDrive ch n.syncId 0 1 (List.replicate 4 0) 256).1 else s) s
        s.leadCycle (t + 800)
      else s.modGh fun g => { g with listenAt := s.clk.t }
  | none => s

/-- Activity of a channel that begins no frame: a run of 0 of so many microticks that ends now (R248, R282). -/
def State.ghActivity (s : State) (c : Cluster) (ch zeros : Nat) : State :=
  let s := s.modGh fun g => { g with lineAt := tput natD g.lineAt ch s.clk.t }
  if s.pstate < 2 then s
  else if 72 < zeros ∧ zeros < 256 then s.rxCount ch 2
  else if s.clk.t < s.ghCyc.1 then s
  else
    let off := s.clk.t - s.ghCyc.1 - zeros
    if c.idleAt ≤ s.ghMacro off then s.rxCount ch 13
    else match s.ghPlace c ch off with
      | some pl =>
        if pl.symbol then (if s.gh.leader = 0 then s.rxCount ch 12 else s)
        else if tget natD s.gh.lastPos ch = pl.pos + 1 then s.rxCount ch 11 else s
      | none => s

/-- CAS_RX (R268, R282): heard at the end of its 320 ns. -/
def casRx (ch : Nat) (s : State) : State :=
  match s.clu with
  | some c =>
    if !s.alive || !(s.ghAttached ch) then s
    else
      let s := s.ghActivity c ch 256
      if s.pstate = 1 then s.modGh fun g => { g with listenAt := s.clk.t, casAt := some (s.clk.t - 256) } else s
  | none => s

/-- LINE_ACTIVITY (R248, R282). -/
def lineActivity (ch zeros : Nat) (s : State) : State :=
  match s.clu with
  | some c => if s.alive && s.ghAttached ch then s.ghActivity c ch zeros else s
  | none => s

/-- START_FRAME_TX (R270 step 3). -/
def startFrameTx (s : State) : State :=
  match s.clu with
  | some c =>
    if s.alive && s.pstate == 2 && s.ghCyc.2 == 0 && s.gh.nextCycle.isNone && decide (s.clk.t ≤ s.ghMt c.ap) then
      let s := s.advance (s.ghMt c.ap)
      let n := s.ghMe c
      let h := ghHeader 0 n.syncId c.startMode 2 true false true true
      [0, 1].foldl (fun (s : State) ch =>
        if s.ghAttached ch then (s.ghDrive ch n.syncId 0 2 (ghWire (ghBytes ch h ([0, 0] ++ beBytes 2 n.syncId))) (ghTime 4)).1 else s) s
    else s
  | none => s

/-- A cold start is aborted (R271, R272). -/
def State.ghAbort (s : State) (c : Cluster) : State :=
  let s := ((s.inc F.GHC_CS_ATTEMPTS).raise 227).report .GHEIF_CS_ABORT (srcGhc 0) [s.gh.leader]
  let s := if c.csAttempts ≤ s.get F.GHC_CS_ATTEMPTS ∧ !(s.flag F.GHC_CS_EXHAUSTED) then
      ((s.set F.GHC_CS_EXHAUSTED 1).raise 228).report .GHEIF_CS_EXHAUSTED (srcGhc 0) [] else s
  s.ghListen true

/-- ECHO_DECISION (R271, R272): at the end of Gheif cycle 1. -/
def echoDecision (s : State) : State :=
  match s.clu with
  | some c =>
    if s.alive && s.ghCyc.2 == 1 && s.gh.leader != 0 && (s.pstate == 2 || (s.pstate == 3 && s.gh.follower)) && !s.gh.judged then
      let s := (s.advance (s.ghCyc.1 + s.ghLen - 1)).modGh fun g => { g with judged := true }
      let g := s.gh
      let me := (s.ghMe c).syncId
      let seen := (g.syncs ++ g.prevSyncs).filter fun e => e.startup
      let other := seen.any fun e => e.leader != g.leader
      let echo := (syncOthers me g.syncs).any fun e => e.startup && e.leader == g.leader
      let ok := if s.pstate = 2 then (if c.csNodes = 1 then g.ownStart && g.ownOne else echo) && !other else !other
      if ok then s else s.ghAbort c
    else s
  | none => s

/-! ### Schedule modes (R273, R274) -/

/-- A change to mode `m` is proposed; `none` where this node cannot propose it (R273). -/
def State.ghPropose (s : State) (m : Nat) : Option State :=
  match s.clu with
  | some c =>
    if (s.ghMe c).syncId = 0 ∨ s.gh.leader ≠ 0 ∨ s.pstate ≠ 4 ∨ !(c.modes.testBit m) ∨ s.gh.prop ≠ none then none
    else
      let x := (List.range 256).find? fun k => 4 ≤ k && (s.ghCyc.2 + k) % 256 % c.modeAlign == 0
      let at_ := (s.ghCyc.2 + x.getD 4) % 256
      some (((s.set F.GHC_STAT_MODE_PEND 1).set F.GHC_STAT_MODE_NEXT m).modGh fun g => { g with prop := some (m, at_, true), propN := s.ghCyc.2 })
  | none => none

/-- A proposal ends. -/
def State.ghDropProp (s : State) : State :=
  ((s.set F.GHC_STAT_MODE_PEND 0).set F.GHC_STAT_MODE_NEXT 0).modGh fun g => { g with prop := none, judged := true }

/-- MODE_CHANGE (R274): judged at the start of cycle X from the sync frames of cycle X - 1. -/
def modeChange (s : State) : State :=
  match s.clu with
  | some c =>
    let l := s.gh.prevSyncs
    if !s.alive || decide (s.pstate < 3) || s.gh.judged || s.clk.t != s.ghCyc.1 then s
    else
      let ids := (l.map fun e => e.id).eraseDups
      match l with
      | e :: _ =>
        if e.mreq && e.modeAt == s.ghCyc.2 && decide (c.syncMin ≤ ids.length)
            && l.all (fun x => x.mreq && x.mode == e.mode && x.modeAt == e.modeAt) then
          (((s.set F.GHC_STAT_MODE e.mode).raise 229).report .MODE_CHANGE (srcGhc 0) [e.mode]).ghDropProp
        else match s.gh.prop with
          | some (m, x, mine) =>
            if x = s.ghCyc.2 then (if mine then ((s.raise 230).report .MODE_CHANGE_FAIL (srcGhc 0) [m]).ghDropProp else s.ghDropProp) else s
          | none => s
      | [] => match s.gh.prop with
        | some (m, x, mine) =>
          if x = s.ghCyc.2 then (if mine then ((s.raise 230).report .MODE_CHANGE_FAIL (srcGhc 0) [m]).ghDropProp else s.ghDropProp) else s
        | none => s
  | none => s

/-! ### Windows and clears (R298) -/

/-- GHC_BUFSEL (R298). -/
def ghcBufsel (v : Word) (s : State) : State :=
  let id := v.toNat % 1024
  let s := s.set F.GHC_BUFSEL_SLOT_ID id
  match tget noneD s.gh.items id with
  | some it => (s.set F.GHC_BUFSEL_VALID 1).modGh fun g => { g with bufdata := it.it.data }
  | none => s.set F.GHC_BUFSEL_VALID 0

/-- GHC_CNTCLR_GHC. -/
def ghcCntclrGhc (s : State) : State :=
  let s := (List.range 8).foldl (fun (s : State) i => (s.setReg (0x60040 + i * 4) 0).setReg (0x60080 + i * 4) 0) s
  (List.range 5).foldl (fun (s : State) i => s.setReg (0x600C0 + i * 4) 0) s
/-- GHC_CNTCLR_GRD. -/
def ghcCntclrGrd (s : State) : State := s.setReg 0x60404 0
/-- GHC_PREC_CLR. -/
def ghcPrecClr (s : State) : State := s.set F.GHC_PREC_MAX 0

/-! ### The commands -/

/-- GHEIF_FRAME_RX. -/
def execGheifFrameRx (ch : Fin 2) (f : GhFrame) (s : State) : Host.Outcome State Fault Refusal := .next (gheifFrameRx ch f s)
/-- GHEIF_SLOT_TX. -/
def execGheifSlotTx (ch : Fin 2) (p : Fin 1024) (s : State) : Host.Outcome State Fault Refusal := .next (gheifSlotTx ch p s)
/-- DYN_SLOT. -/
def execDynSlot (ch : Fin 2) (s : State) : Host.Outcome State Fault Refusal := .next (dynSlot ch s)
/-- GHEIF_TAKE. -/
def execGheifTake (id : Fin 1024) (s : State) : Host.Outcome State Fault Refusal := .next (gheifTake id s)
/-- CLOCK_CORRECTION. -/
def execClockCorrection (s : State) : Host.Outcome State Fault Refusal := .next (clockCorrection s)
/-- GHEIF_SYNC_LOST. -/
def execGheifSyncLost (s : State) : Host.Outcome State Fault Refusal := .next (gheifSyncLost s)
/-- LISTEN_TIMEOUT. -/
def execListenTimeout (idle : Bool) (s : State) : Host.Outcome State Fault Refusal := .next (listenTimeout idle s)
/-- CAS_RX. -/
def execCasRx (ch : Fin 2) (s : State) : Host.Outcome State Fault Refusal := .next (casRx ch s)
/-- START_FRAME_TX. -/
def execStartFrameTx (s : State) : Host.Outcome State Fault Refusal := .next (startFrameTx s)
/-- ECHO_DECISION. -/
def execEchoDecision (s : State) : Host.Outcome State Fault Refusal := .next (echoDecision s)
/-- MODE_CHANGE. -/
def execModeChange (s : State) : Host.Outcome State Fault Refusal := .next (modeChange s)
/-- GUARD_STROBE. -/
def execGuardStrobe (err : Int) (s : State) : Host.Outcome State Fault Refusal := .next (guardStrobe err s)
/-- GUARD_CUT. -/
def execGuardCut (ch : Fin 2) (s : State) : Host.Outcome State Fault Refusal := .next (guardCut ch s)
/-- LINE_ACTIVITY. -/
def execLineActivity (ch : Fin 2) (zeros : Nat) (s : State) : Host.Outcome State Fault Refusal := .next (lineActivity ch zeros s)
/-- GHC_BUFSEL. -/
def execGhcBufsel (v : Word) (s : State) : Host.Outcome State Fault Refusal := .next (ghcBufsel v s)
/-- GHC_CNTCLR_GHC. -/
def execGhcCntclrGhc (s : State) : Host.Outcome State Fault Refusal := .next (ghcCntclrGhc s)
/-- GHC_CNTCLR_GRD. -/
def execGhcCntclrGrd (s : State) : Host.Outcome State Fault Refusal := .next (ghcCntclrGrd s)
/-- GHC_PREC_CLR. -/
def execGhcPrecClr (s : State) : Host.Outcome State Fault Refusal := .next (ghcPrecClr s)

end Sys2Proof.Machine
end

