-- ==== Sys2Proof/Machine/Tmb.lean ====
section
/-!
DEFINITION. The timebase (chapter 11): the time of day, its correction by slew, its sources, time frames and launch times.
-/
namespace Sys2Proof.Machine

/-! ### The time of day (R299 to R302) -/

/-- A quotient whose rounding the spec leaves open: the floor, or one more where the division leaves a remainder. -/
def divFree (a b : Int) : Int := a / b + (if a % b ≠ 0 ∧ Config.roundUp a b then 1 else 0)

/-- One in 2^40 parts of `n` ppm, rounded down. -/
def ppm (n : Nat) : Int := ((n * 2 ^ 40 / 1000000 : Nat) : Int)

/-- What a rate adds over a number of microticks, in units of 2^-16 ns (R300). -/
def rateGain (slew : Int) (dt : Nat) : Int := ((dt : Int) * 81920 * slew).tdiv (2 ^ 40 : Nat)

/-- PENDING now (R303). Where a slew ends at a cycle start only (R309), a slew still in force after a new measurement may take it past 0. -/
def State.tmbPending (s : State) : Int :=
  let b := s.tmb
  let left := b.pending - rateGain b.slew (s.frc - b.pendAt)
  if s.get F.TMB_GTIME_TX_ID = 0 ∧ ((0 < b.pending ∧ left < 0) ∨ (b.pending < 0 ∧ 0 < left)) then 0 else left

/-- A signed number held in a 32-bit register, saturating. -/
def sat32 (i : Int) : Nat := ofSigned 32 (clampInt (-2147483648) 2147483647 i)

/-- FREQ and SLEW change, with the re-anchoring of R300. -/
def State.setRates (s : State) (freq slew : Int) : State :=
  let b := s.tmb
  let s := { s with tmb := { b with offset := s.tod, anchor := s.frc, pending := s.tmbPending, pendAt := s.frc, freq := freq, slew := slew } }
  ((s.set F.TMB_FREQ_W (sat32 freq)).set F.TMB_SLEW_W (sat32 slew)).set F.TMB_STAT_SLEWING (b2n (decide (slew ≠ 0)))

/-- PENDING takes a value at this instant, which replaces any remainder (R303). -/
def State.setPending (s : State) (p : Int) : State := { s with tmb := { s.tmb with pending := p, pendAt := s.frc, lastCycle := false } }

/-- The free-running count at which the time of day reaches a value. -/
def frcFor (b : Tmb) (tod : Nat) : Nat :=
  let need : Int := (tod : Int) - b.offset
  let per : Int := 81920 * ((2 ^ 40 : Nat) + (b.freq + b.slew))
  b.anchor + (if need ≤ 0 then 0 else ((need * (2 ^ 40 : Nat) + per - 1) / per).toNat)

/-- The clock moves on to the instant at which the time of day reaches a value. -/
def State.advanceTod (s : State) (tod : Nat) : State := if s.clk.frcOn then s.advance (s.clk.frcBase + frcFor s.tmb tod) else s

/-- TMB_CAPTURE (R302). -/
def tmbCapture (p : Nat) (s : State) : State :=
  if !(s.pairFitted p) || !s.alive then s else
  let t := s.tod
  let gen := (s.get ⟨0x70100 + p * 0x20 + 20, 0, 8⟩ + 1) % 256
  let w (s : State) (i v : Nat) : State := s.set (F.TMB_CAP_W p i) v
  w (w (w (w (w (w s 0 s.frc) 1 (s.frc / 2 ^ 32)) 2 (todNs t)) 3 (todSec t)) 4 (todSec t / 2 ^ 32)) 5 (t % 65536 * 65536 + gen)

/-! ### UTC (R313) -/

/-- TMB_UTC takes UTC data, and the end of the UTC day that leap flags announce is noted. -/
def State.setUtc (s : State) (u : Nat × Bool × Bool) : State :=
  let s := ((s.set F.TMB_UTC_UTC_OFS u.1).set F.TMB_UTC_LEAP61 (b2n u.2.1)).set F.TMB_UTC_LEAP59 (b2n u.2.2)
  let ofs := toSigned 16 u.1
  let day := ((todSec s.tod : Int) - ofs) / 86400 + 1
  { s with tmb := { s.tmb with leapDay := (day * 86400 + ofs + (if u.2.1 then 1 else 0) - (if u.2.2 then 1 else 0)).toNat } }

/-- LEAP_FLAG_CLEAR (R313). -/
def leapFlagClear (s : State) : State :=
  if !s.alive || !(s.flag F.TMB_UTC_LEAP61 || s.flag F.TMB_UTC_LEAP59) then s
  else ((s.advanceTod (s.tmb.leapDay * secUnits)).set F.TMB_UTC_LEAP61 0).set F.TMB_UTC_LEAP59 0

/-! ### Sources (R307) -/

def State.tsrc (s : State) (c : Nat) : TmbSrc := tget tmbSrcD s.tmb.srcs c
def State.setTsrc (s : State) (c : Nat) (v : TmbSrc) : State := { s with tmb := { s.tmb with srcs := tput tmbSrcD s.tmb.srcs c v } }

/-- The sources listed in TMB_SRC, in order of rank; 0 ends the list. -/
def State.tmbList (s : State) : List Nat := [s.get F.TMB_SRC_SRC0, s.get F.TMB_SRC_SRC1, s.get F.TMB_SRC_SRC2].takeWhile (· ≠ 0)

/-- One sync interval, 2^LOG_SYNC s, in microticks. -/
def State.syncInterval (s : State) : Nat := 800000000 / 2 ^ ((16 - s.get F.ETH_PTP_CFG_LOG_SYNC) % 16)

/-- A PTP port is in the slave state (portState 9 of IEEE 1588-2019). -/
def State.ptpSlave (s : State) : Bool := s.get F.ETH_PTP_STAT_STATE_E0 == 9 || s.get F.ETH_PTP_STAT_STATE_E1 == 9

/-- How long a measurement keeps its source valid, for the sources that a time limits. -/
def State.validFor (s : State) (c : Nat) : Nat := if c = 4 then 4 * s.syncInterval else 4 * 800000000

/-- A source is valid (R307). -/
def State.srcValid (s : State) (c : Nat) : Bool :=
  match c with
  | 1 => true
  | 2 | 3 => match (s.tsrc c).newestN with | some n => decide (s.cyc.n < n + 4) | none => false
  | 4 => s.ptpSlave && (match (s.tsrc 4).newest with | some f => decide (s.frc ≤ f + s.validFor 4) | none => false)
  | 5 => match (s.tsrc 5).newest with | some f => decide (s.frc ≤ f + s.validFor 5) | none => false
  | _ => false

/-- The interval T of a measurement without a previous one (R303). -/
def State.nominalT (s : State) (c : Nat) : Nat := if c = 2 ∨ c = 3 then s.tg else if c = 4 then s.syncInterval else 800000000

/-- HOLDOVER follows the active source (R307). -/
def State.holdover (s : State) : State :=
  let h := s.get F.TMB_STAT_ACTIVE == 1 && decide (0 < s.get F.TMB_STAT_ACT_IDX)
  let was := s.flag F.TMB_STAT_HOLDOVER
  let s := s.set F.TMB_STAT_HOLDOVER (b2n h)
  if h && !was then s.raise 258 else s

/-- A source becomes the active one (R307). -/
def State.activate (s : State) (c idx : Nat) : State :=
  let old := s.get F.TMB_STAT_ACTIVE
  let s := s.setTsrc c { s.tsrc c with prev := none }
  let s := s.setTsrc old { s.tsrc old with good := 0 }
  let s := { s with tmb := { s.tmb with trackGood := 0 } }
  let s := (s.set F.TMB_STAT_ACTIVE c).set F.TMB_STAT_ACT_IDX idx
  let s := match (s.tsrc c).utc with | some u => s.setUtc u | none => s
  ((s.raise 257).report .SOURCE_CHANGE srcTmb [old, c]).holdover

/-- The first valid source of a list, with its rank. -/
def State.firstValid (s : State) : List Nat → Nat → Nat × Nat
  | [], i => (1, i)
  | c :: r, i => if s.srcValid c then (c, i) else s.firstValid r (i + 1)

/-- The sources as they stand when their list takes effect: the highest-ranked valid one is active. -/
def State.tmbStart (s : State) : State :=
  let r := s.firstValid s.tmbList 0
  ((s.set F.TMB_STAT_ACTIVE r.1).set F.TMB_STAT_ACT_IDX r.2).holdover

/-- A higher-ranked source has delivered 16 consecutive valid measurements (R307). -/
def State.riseTo (s : State) (c : Nat) : State :=
  match s.tmbList.findIdx? (· == c) with
  | some i => if i < s.get F.TMB_STAT_ACT_IDX ∧ 16 ≤ (s.tsrc c).good then s.activate c i else s
  | none => s

/-- The instant until which the active source stays valid without a further measurement, where a time limits it. -/
def State.validTill (s : State) (c : Nat) : Option Nat :=
  if (c = 4 ∨ c = 5) ∧ s.srcValid c then (s.tsrc c).newest.map fun f => s.clk.frcBase + f + s.validFor c + 1 else none

/-- SOURCE_CHANGE (R307). -/
def sourceChange (s : State) : State :=
  if !s.alive then s else
  let c := s.get F.TMB_STAT_ACTIVE
  let s := match s.validTill c with | some t => s.advance t | none => s
  if s.srcValid c then s
  else
    let i := s.get F.TMB_STAT_ACT_IDX
    let r := s.firstValid (s.tmbList.drop (i + 1)) (i + 1)
    s.activate r.1 r.2

/-! ### Correction (R303, R309, R310) -/

/-- New rates take effect at once, or at the next Gheif cycle start (R309, R310). -/
def State.takeRates (s : State) (freq : Int) (deferFreq : Bool) (slew : Int) : State :=
  if s.get F.TMB_GTIME_TX_ID ≠ 0 then { s with tmb := { s.tmb with held := some ⟨some freq, some slew⟩ } }
  else if deferFreq then
    let s := s.setRates s.tmb.freq slew
    { s with tmb := { s.tmb with held := some ⟨some freq, none⟩ } }
  else s.setRates freq slew

/-- TRACK follows a measurement of the active source (R310). -/
def State.track (s : State) (e : Int) : State :=
  let pi : Nat := match s.clu with | some c => c.pi * 81920 | none => 0
  if e.natAbs ≤ pi then
    let n := satAdd 8 s.tmb.trackGood 1
    let s := { s with tmb := { s.tmb with trackGood := n } }
    if n = 8 ∧ !(s.flag F.TMB_STAT_TRACK) then (s.set F.TMB_STAT_TRACK 1).raise 260 else s
  else
    let s := { s with tmb := { s.tmb with trackGood := 0 } }
    if s.flag F.TMB_STAT_TRACK then (s.set F.TMB_STAT_TRACK 0).raise 259 else s

/-- The correction of R303 from a measurement of the active source: `e` in units of 2^-16 ns; `given` is the FREQ that a time
frame brings (R310). -/
def State.correct (s : State) (c : Nat) (e : Int) (given : Option Int) : State :=
  let src := s.tsrc c
  let dt : Nat := max 1 (match src.prev with | some p => s.frc - p | none => s.nominalT c)
  let s := s.set F.TMB_LASTERR_W (sat32 (e / 65536))
  let s := s.setPending (-e)
  let freq : Int := match given with
    | some f => clampInt (- ppm 200) (ppm 200) f
    | none =>
      if e.natAbs < 10000 * 65536 ∧ src.prev.isSome then
        clampInt (- ppm 200) (ppm 200) (s.tmb.freq - divFree (e * (2 ^ 40 : Nat)) (((s.get F.TMB_CFG_FILT * dt * 81920 : Nat) : Int)))
      else s.tmb.freq
  let half := s.get F.TMB_GTIME_TX_ID ≠ 0 ∧ c ≠ 2 ∧ c ≠ 3
  let l := if half then ppm (s.get F.TMB_CFG_SLEW_PPM) / 2 else ppm (s.get F.TMB_CFG_SLEW_PPM)
  let slew := clampInt (-l) l (divFree (-e * (2 ^ 40 : Nat)) ((4 * dt * 81920 : Nat) : Int))
  let s := s.takeRates freq given.isSome slew
  let s := if secUnits < e.natAbs then (s.raise 262).report .OFFSET_ALARM srcTmb [sat32 (e / 65536)] else s
  s.track e

/-- A measurement of a source (R303, R307): it counts toward the return to a higher rank, and corrects the time of day while its
source is the active one. -/
def State.measure (s : State) (c : Nat) (e : Int) (given : Option Int) (utc : Option (Nat × Bool × Bool)) : State :=
  let active := s.get F.TMB_STAT_ACTIVE == c
  let src := s.tsrc c
  let good := if s.srcValid c ∨ src.good = 0 then satAdd 16 src.good 1 else 1
  let s' := if active then s.correct c e given else s
  let s' := match active, utc with | true, some u => s'.setUtc u | _, _ => s'
  (s'.setTsrc c { src with prev := some s.frc, newest := some s.frc, newestN := some s.cyc.n, judgedN := some s.cyc.n, good := good,
                           lastE := e, lastRef := (s.tod : Int) - e, lastAt := s.frc, utc := utc.or src.utc }).riseTo c

/-- The rate of the cluster's sender seen with this node's own rate term (R310, R263). -/
def State.ownRate (s : State) (rate : Int) : Int :=
  match s.clu with
  | some c => rate - divFree (s.gh.rateNow * (2 ^ 40 : Nat)) ((c.tg * 200 : Nat) : Int)
  | none => rate

/-- TIME_FRAME_RX (R308, R310). `b` tells GHEIF_B from GHEIF_A. -/
def timeFrameRx (b : Bool) (s : State) : State :=
  let id := if b then s.get F.TMB_GTIME_ID_B else s.get F.TMB_GTIME_ID_A
  let c := 2 + b2n b
  if !s.alive || id == 0 then s else
  match tget noneD s.gh.items id with
  | none => s
  | some it =>
    let src := s.tsrc c
    if it.cc ≠ s.ghCyc.2 ∨ src.judgedN = some s.cyc.n then s else
    let d := it.it.data.drop 16
    let ns := fieldBe d 8 4
    let flags := fieldBe d 18 1
    let mark (s : State) : State := s.setTsrc c { src with judgedN := some s.cyc.n, good := 0 }
    if 1000000000 ≤ ns ∨ fieldBe d 19 1 ≠ it.cc ∨ 16 ≤ flags then mark ((s.inc F.TMB_CNT_TFRAME_REJ).raise 263)
    else if flags % 2 = 0 then mark s
    else
      let e : Int := (s.tmb.cycTod : Int) - ((fieldBe d 0 8 * secUnits + ns * 65536 : Nat) : Int)
      s.measure c e (some (s.ownRate (toSigned 32 (fieldBe d 12 4)))) (some (fieldBe d 16 2, flags.testBit 2, flags.testBit 3))

/-- TMB_ADJ_WRITE (R312). -/
def tmbAdjWrite (v : Word) (s : State) : State :=
  if !s.alive then s
  else if s.tmbList.contains 5 then s.measure 5 (toSigned 32 v.toNat * 65536) none none
  else s.inc F.TMB_CNT_TFRAME_REJ

/-- Microticks until the running slew has taken PENDING to 0. -/
def State.slewLeft (s : State) : Nat :=
  let b := s.tmb
  let p := b.pending.natAbs
  let w := 81920 * b.slew.natAbs
  if w = 0 then 0 else (p * 2 ^ 40 + w - 1) / w

/-- The slew is over: PENDING and SLEW are 0. -/
def State.endSlew (s : State) : State := (s.setRates s.tmb.freq 0).setPending 0

/-- SLEW_END (R303, R309). -/
def slewEnd (s : State) : State :=
  if !s.alive || s.tmb.slew == 0 then s
  else if s.get F.TMB_GTIME_TX_ID ≠ 0 then (if s.tmb.lastCycle ∧ s.tmbPending = 0 ∧ s.clk.t = s.cyc.start then s.endSlew else s)
  else (s.advance (s.clk.frcBase + s.tmb.pendAt + s.slewLeft)).endSlew

/-- The timebase at the start of a Gheif cycle of `len` microticks (R309, R310). -/
def State.tmbCycle (s : State) (len : Nat) : State :=
  let s := if s.gh.own.isNone then s.noteCycTod else s
  let s := if s.tmb.lastCycle then s.endSlew else s
  let s : State := match s.tmb.held with
    | some h => let t := s.setRates (h.freq.getD s.tmb.freq) (h.slew.getD s.tmb.slew)
                { t with tmb := { t.tmb with held := none } }
    | none => s
  if s.get F.TMB_GTIME_TX_ID ≠ 0 ∧ s.tmb.slew ≠ 0 ∧ s.tmbPending.natAbs ≤ (rateGain s.tmb.slew len).natAbs then
    let s := s.setRates s.tmb.freq (divFree (s.tmbPending * (2 ^ 40 : Nat)) ((max 1 len * 81920 : Nat) : Int))
    { s with tmb := { s.tmb with lastCycle := true } }
  else s

/-- The reference of a source's latest measurement, which has run on since then with the count and FREQ (R304; DESIGN CHOICE, log 119). -/
def State.reference (s : State) (c : Nat) : Nat :=
  let src := s.tsrc c
  (src.lastRef + ((s.frc - src.lastAt) * 81920 : Nat) + rateGain s.tmb.freq (s.frc - src.lastAt)).toNat

/-- TIME_SET steps the time of day (R304). -/
def State.stepTod (s : State) (new : Nat) : State :=
  let old := s.tod
  let s := s.endSlew
  let srcs := (s.tmb.srcs.map fun (c : Nat × TmbSrc) => (c.1, { c.2 with prev := none })).filter fun c => decide (c.2 ≠ TmbSrc.reset)
  let held := s.tmb.held.map fun (h : HeldRate) => { h with slew := none }
  let s := { s with tmb := { s.tmb with offset := new, anchor := s.frc, lastCycle := false, held := held, srcs := srcs } }
  ((s.set F.TMB_STAT_TSET 1).raise 256).report .TIME_STEP srcTmb
    [stampOf old, stampOf old / 2 ^ 32, stampOf new, stampOf new / 2 ^ 32]

/-- TIME_FRAME_SEND (R308, R309). -/
def timeFrameSend (s : State) : State :=
  let id := s.get F.TMB_GTIME_TX_ID
  match s.clu with
  | some c =>
    match c.desc id with
    | some d =>
      if !s.alive || id == 0 || s.tmb.sentN == some s.cyc.n || !(s.cyc.running) then s else
      let act := s.get F.TMB_STAT_ACTIVE
      let flags := s.get F.TMB_STAT_TSET + 2 * b2n ((act == 4 || act == 5) && s.flag F.TMB_STAT_TRACK) + 4 * s.get F.TMB_UTC_LEAP61
        + 8 * s.get F.TMB_UTC_LEAP59
      let t := s.tmb.cycTod
      let frame := beBytes 8 (todSec t) ++ beBytes 4 (todNs t) ++ beBytes 4 (ofSigned 32 (s.tmb.freq + s.tmb.slew))
        ++ beBytes 2 (s.get F.TMB_UTC_UTC_OFS) ++ [BitVec.ofNat 8 flags, BitVec.ofNat 8 s.ghCyc.2]
      let s := (s.qCommitHw (s.qgeo d.queue) 0 frame).1
      { s with tmb := { s.tmb with sentN := some s.cyc.n } }
    | none => s
  | none => s

/-- The real-time clock takes the time of day: seconds and a fraction of 2^-15 s (R490). -/
def State.writeRtc (s : State) : State :=
  let v := s.tod * 32768 / secUnits % 2 ^ 55 * secUnits / 32768
  { (s.set F.PWR_NIGHT_VALID 1) with pwr := { s.pwr with rtc := v, rtcAt := s.clk.t, nightValid := true } }

/-- RTC_WRITE (R306). -/
def rtcWrite (s : State) : State := if s.alive && s.clk.frcOn then (s.advance (s.pwr.rtcAt + 800000000)).writeRtc else s

/-- TMB_CNT_CLR. -/
def tmbCntClr (s : State) : State := s.setReg F.TMB_CNT_CLR.off 0

/-! ### The commands -/

/-- TMB_CAPTURE. -/
def execTmbCapture (p : Fin 4) (s : State) : Host.Outcome State Fault Refusal := .next (tmbCapture p s)
/-- TIME_FRAME_RX. -/
def execTimeFrameRx (b : Bool) (s : State) : Host.Outcome State Fault Refusal := .next (timeFrameRx b s)
/-- TMB_ADJ_WRITE. -/
def execTmbAdjWrite (v : Word) (s : State) : Host.Outcome State Fault Refusal := .next (tmbAdjWrite v s)
/-- SLEW_END. -/
def execSlewEnd (s : State) : Host.Outcome State Fault Refusal := .next (slewEnd s)
/-- SOURCE_CHANGE. -/
def execSourceChange (s : State) : Host.Outcome State Fault Refusal := .next (sourceChange s)
/-- TIME_FRAME_SEND. -/
def execTimeFrameSend (s : State) : Host.Outcome State Fault Refusal := .next (timeFrameSend s)
/-- RTC_WRITE. -/
def execRtcWrite (s : State) : Host.Outcome State Fault Refusal := .next (rtcWrite s)
/-- LEAP_FLAG_CLEAR. -/
def execLeapFlagClear (s : State) : Host.Outcome State Fault Refusal := .next (leapFlagClear s)
/-- TMB_CNT_CLR. -/
def execTmbCntClr (s : State) : Host.Outcome State Fault Refusal := .next (tmbCntClr s)

end Sys2Proof.Machine
end

