-- ==== Sys2Proof/Machine/Eth.lean ====
section
/-!
DEFINITION. The Ethernet block (chapter 12): reception and classification, software transmission, the PTP unit, and the
process-data engine.
-/
namespace Sys2Proof.Machine

/-! ### Ports and counters (R317, R336) -/

def State.ethOn (s : State) (n : Nat) : Bool := s.ethFitted n && s.alive && s.flag (F.ETH_PORT_CFG_EN n)
def State.rxc (s : State) (n i : Nat) : State := if i % 2 = 0 then s.inc (F.ETH_RXCNT_LO n (i / 2)) else s.inc (F.ETH_RXCNT_HI n (i / 2))
def State.txc (s : State) (n i : Nat) : State := if i % 2 = 0 then s.inc (F.ETH_TXCNT_LO n (i / 2)) else s.inc (F.ETH_TXCNT_HI n (i / 2))
/-- A counter of every port named in a mask. -/
def State.txcAll (s : State) (ports i : Nat) : State :=
  (List.range 4).foldl (fun (s : State) n => if ports.testBit n then s.txc n i else s) s
def State.modEth (s : State) (f : Eth → Eth) : State := { s with eth := f s.eth }
/-- The port's own MAC address (R318). -/
def State.ownMac (s : State) (n : Nat) : List Byte := beBytes 6 (s.ident.mac + n)
/-- Microticks of one byte on the line: 8 ns on E0 and E1, 80 ns on E2 and E3, times five. -/
def byteTime (n : Nat) : Nat := if n < 2 then 32 else 320
/-- Microticks of a frame of `len` bytes, FCS included, with its 8-byte preamble. -/
def frameTime (n len : Nat) : Nat := ((len + 8) * byteTime n + 4) / 5
/-- The port is a PTP port (R325). -/
def State.ptpOn (s : State) (n : Nat) : Bool :=
  match s.get F.ETH_PTP_CFG_MODE with
  | 1 => n == 0
  | 2 => n == 1
  | 3 => decide (n < 2)
  | _ => false
def State.telegram (s : State) (t : Nat) : Option Telegram := tget noneD s.cfg.telegrams t
/-- The indices of the telegram table, ascending. -/
def State.telegramIds (s : State) : List Nat := s.cfg.telegrams.map fun c => c.1

/-! ### Frames -/

/-- The one's-complement sum of big-endian halfwords, folded to 16 bits. -/
def sum16 (l : List Byte) : Nat :=
  let n := (List.range ((l.length + 1) / 2)).foldl (fun a i => a + fieldBe l (2 * i) 2) 0
  let n := n % 65536 + n / 65536
  n % 65536 + n / 65536

/-- Where a frame's payload begins: after the addresses, one tag and the EtherType. -/
def ethHdr (b : List Byte) : Nat := if fieldBe b 12 2 = 0x8100 then 18 else 14
def ethType (b : List Byte) : Nat := fieldBe b (ethHdr b - 2) 2
def ethTag (b : List Byte) : Option Nat := if fieldBe b 12 2 = 0x8100 then some (fieldBe b 14 2) else none
/-- An S-tag or two tags (R324). -/
def ethStag (b : List Byte) : Bool :=
  fieldBe b 12 2 == 0x88A8 || (fieldBe b 12 2 == 0x8100 && (fieldBe b 16 2 == 0x8100 || fieldBe b 16 2 == 0x88A8))

/-- The IPv4/UDP datagram of a frame, from whatever header length it states: source and destination address, destination and
source port, UDP payload, and whether the frame is a fragment. -/
structure Udp where
  src : Nat
  dst : Nat
  dport : Nat
  sport : Nat
  frag : Bool
  payload : List Byte
  deriving DecidableEq, Repr

def udpOf (b : List Byte) : Option Udp :=
  let h := ethHdr b
  let l := h + 4 * (fieldBe b h 1 % 16)
  if ethType b = 0x0800 ∧ fieldBe b (h + 9) 1 = 17 then
    some { src := fieldBe b (h + 12) 4, dst := fieldBe b (h + 16) 4, dport := fieldBe b (l + 2) 2, sport := fieldBe b l 2,
           frag := decide (fieldBe b (h + 6) 2 % 16384 ≠ 0), payload := (b.drop (l + 8)).take (fieldBe b (l + 4) 2 - 8) }
  else none

/-- The tests of R319 on the IPv4 header: 0 passed, 1 IP_ERR, 2 UDP_ERR. -/
def ipTest (b : List Byte) : Nat :=
  let h := ethHdr b
  let tl := fieldBe b (h + 2) 2
  if fieldBe b h 1 ≠ 0x45 ∨ sum16 (sliceB b h 20) ≠ 0xFFFF ∨ tl < 28 ∨ b.length < h + tl then 1
  else
    let ul := fieldBe b (h + 24) 2
    if ul ≠ tl - 20 then 2
    else if fieldBe b (h + 26) 2 = 0 then 0
    else
      let pseudo := sliceB b (h + 12) 8 ++ beBytes 2 17 ++ beBytes 2 ul
      if sum16 (pseudo ++ sliceB b (h + 20) ul) = 0xFFFF then 0 else 2

/-- A one's-complement checksum field over bytes whose own field is 0. -/
def csum (l : List Byte) : Nat := 0xFFFF - sum16 l

/-- An IPv4/UDP datagram (R329): TTL 64; the UDP checksum is computed, or 0 for PTP (R325). -/
def ipUdp (src dst sport dport dscp : Nat) (zero : Bool) (payload : List Byte) : List Byte :=
  let ul := payload.length + 8
  let head (ck : Nat) : List Byte := beBytes 1 0x45 ++ beBytes 1 (dscp * 4) ++ beBytes 2 (ul + 20) ++ beBytes 4 0 ++ beBytes 2 0x4011
    ++ beBytes 2 ck ++ beBytes 4 src ++ beBytes 4 dst
  let udp (ck : Nat) : List Byte := beBytes 2 sport ++ beBytes 2 dport ++ beBytes 2 ul ++ beBytes 2 ck ++ payload
  let ck := csum (beBytes 4 src ++ beBytes 4 dst ++ beBytes 2 17 ++ beBytes 2 ul ++ udp 0)
  head (csum (head 0)) ++ udp (if zero then 0 else if ck = 0 then 0xFFFF else ck)

/-- The multicast MAC address of an IPv4 group under RFC 1112. -/
def mac1112 (ip : Nat) : List Byte := beBytes 3 0x01005E ++ beBytes 3 (ip % 2 ^ 23)

/-- A frame with addresses, an optional tag and an EtherType, padded to 60 bytes. -/
def ethFrame (dst src : List Byte) (tag : Option Nat) (typ : Nat) (payload : List Byte) : List Byte :=
  let f := dst ++ src ++ (match tag with | some t => beBytes 2 0x8100 ++ beBytes 2 t | none => []) ++ beBytes 2 typ ++ payload
  f ++ List.replicate (60 - f.length) 0

/-- The CRC-32 of IEEE 802.3, which IEC 61375-2-3 uses as the header FCS. -/
def crc32 (l : List Byte) : Nat := crcRef 0xEDB88320 l 0xFFFFFFFF ^^^ 0xFFFFFFFF

/-- The 40-byte process-data header of IEC 61375-2-3 (R329). -/
def pdHeader (seq comId etb opt len : Nat) : List Byte :=
  let h := beBytes 4 seq ++ beBytes 2 0x0100 ++ beBytes 2 0x5064 ++ beBytes 4 comId ++ beBytes 4 etb ++ beBytes 4 opt ++ beBytes 4 len
    ++ beBytes 4 0 ++ beBytes 4 0 ++ beBytes 4 0
  h ++ leBytes 4 (crc32 h)

/-! ### Acceptance (R318) -/

/-- The destination address is one the port accepts. -/
def State.macOk (s : State) (n : Nat) (b : List Byte) : Bool :=
  let d := sliceB b 0 6
  d == s.ownMac n || d == beBytes 6 0xFFFFFFFFFFFF
    || (s.telegramIds.any fun t => match s.telegram t with
        | some e => e.dir == 2 && e.ports.testBit n && decide (0xE0000000 ≤ e.dstIp ∧ e.dstIp < 0xF0000000) && d == mac1112 e.dstIp
        | none => false)
    || (s.ptpOn n && (d == beBytes 6 0x011B19000000 || d == beBytes 6 0x0180C200000E || d == mac1112 0xE0000181 || d == mac1112 0xE000006B))

/-- The VLAN identifier is one the port accepts. -/
def State.vidOk (s : State) (n : Nat) (b : List Byte) : Bool :=
  match ethTag b with
  | none => true
  | some t =>
    let v := t % 4096
    v == 0 || v == s.get (F.ETH_PORT_CFG_VID n) || s.telegramIds.any fun t => match s.telegram t with
      | some e => e.dir != 0 && e.ports.testBit n && e.tag % 4096 == v
      | none => false

/-! ### PTP (R325, R326) -/

def State.ptpPort (s : State) (n : Nat) : PtpPort := tget ptpD s.eth.ptp n
def State.setPtp (s : State) (n : Nat) (v : PtpPort) : State := s.modEth fun e => { e with ptp := tput ptpD e.ptp n v }

/-- The port states follow the instance's decision. -/
def State.ptpStates (s : State) (v : PtpVerdict) : State :=
  let a := if s.ptpOn 0 then v.e0.val else 0
  let b := if s.ptpOn 1 then v.e1.val else 0
  if s.get F.ETH_PTP_STAT_STATE_E0 = a ∧ s.get F.ETH_PTP_STAT_STATE_E1 = b then s
  else ((s.set F.ETH_PTP_STAT_STATE_E0 a).set F.ETH_PTP_STAT_STATE_E1 b).raise 268

/-- The least messageLength of a message type (IEEE 1588-2019). -/
def ptpMin (t : Nat) : Nat := match t with | 2 | 3 | 10 | 9 => 54 | 11 => 64 | 13 => 48 | _ => 44

/-- The time of day a number of units of 2^-16 ns of the free-running count from now. -/
def State.todFrom (s : State) (dt : Int) : Nat :=
  ((s.tod : Int) + dt * ((2 ^ 40 : Nat) + (s.tmb.freq + s.tmb.slew)) / ((2 ^ 40 : Nat) : Int)).toNat
/-- The time of day a number of microticks ago. -/
def State.todAgo (s : State) (dt : Nat) : Nat := s.todFrom (-((dt : Int) * 81920))
/-- The time of day at the message timestamp point of IEEE 1588-2019, so many bytes on the line of a port from now (R312, R319). -/
def State.todPoint (s : State) (n : Nat) (bytes : Int) : Nat := s.todFrom (bytes * (byteTime n * 16384 : Nat))

def State.ptpViol (s : State) (n : Nat) : State := ((s.inc F.ETH_PTP_STAT_VIOL).rxc n 19).raise 269

/-- A time of day in a PTP message: seconds in six bytes, nanoseconds in four. -/
def ptpTime (m : List Byte) (o : Nat) : Nat := fieldBe m o 6 * secUnits + fieldBe m (o + 6) 4 * 65536

/-- PTP_MESSAGE_RX (R325, R326). `len` is the frame's length, FCS included. -/
def State.ptpRx (s : State) (n : Nat) (m : List Byte) (len : Nat) (v : PtpVerdict) : State :=
  let typ := fieldBe m 0 1 % 16
  let c := s.ptpPort n
  let who := sliceB m 20 10
  let seq := fieldBe m 30 2
  let corr := toSigned 64 (fieldBe m 8 8)
  let badFollow := typ == 8 && !(match c.sync with | some (w, q, _) => w == who && q == seq | none => false)
  if fieldBe m 4 1 ≠ s.get F.ETH_PTP_CFG_DOMAIN ∨ fieldBe m 0 1 / 16 ≠ 0 ∨ fieldBe m 1 1 % 16 ≠ 2 ∨ fieldBe m 2 2 < ptpMin typ
      ∨ m.length < fieldBe m 2 2 ∨ typ = 2 ∨ typ = 3 ∨ typ = 10 ∨ badFollow ∨ !v.expected then s.ptpViol n
  else
    let t2 := s.todPoint n (-(len : Int))
    let s := if typ = 0 ∨ typ = 1 then s.modEth fun e => { e with egress := tput natD e.egress (4 + n) t2 } else s
    let s := match typ with
      | 0 =>
        let two := (fieldBe m 6 1).testBit 1
        s.setPtp n { c with sync := some (who, seq, t2, corr, if two then none else some (ptpTime m 34)), due := !two }
      | 8 => match c.sync with
        | some (w, q, t, k, _) => s.setPtp n { c with sync := some (w, q, t, k + corr, some (ptpTime m 34)), due := true }
        | none => s
      | 9 => match c.sync, c.req with
        | some (_, _, t, k, some t1), some (t3, q) =>
          if q = seq then
            let mpd : Int := (((t : Int) - t1 - k) + ((ptpTime m 34 : Int) - corr - t3)) / 2
            s.set F.ETH_PTP_MPD_W (sat32 (mpd / 65536))
          else s
        | _, _ => s
      | 11 => s.setPtp n { c with utc := some (fieldBe m 44 2, (fieldBe m 7 1).testBit 0, (fieldBe m 7 1).testBit 1) }
      | _ => s
    s.ptpStates v

/-- PTP_MEASUREMENT (R325). -/
def ptpMeasurement (n : Nat) (s : State) : State :=
  let c := s.ptpPort n
  let slave := (if n = 0 then s.get F.ETH_PTP_STAT_STATE_E0 else s.get F.ETH_PTP_STAT_STATE_E1) == 9
  match c.sync with
  | some (_, _, t2, k, some t1) =>
    if !s.alive || !slave || !c.due then s
    else
      let e : Int := ((t2 : Int) - t1 - k) - toSigned 32 (s.get F.ETH_PTP_MPD_W) * 65536
      (s.setPtp n { c with due := false }).measure 4 e none c.utc
  | _ => s

/-- PTP_MESSAGE_TX (R325): the instance hands a message over; it leaves in the order of R322. -/
def ptpMessageTx (n : Nat) (msg : List Byte) (v : PtpVerdict) (s : State) : State :=
  if !(s.ethOn n) || !(s.ptpOn n) || s.sup.st == .dusk then s
  else
    let s := s.ptpStates v
    s.setPtp n { s.ptpPort n with tx := (s.ptpPort n).tx ++ [msg] }

/-! ### Process data received (R333, R334) -/

/-- A subscribe entry matches a telegram. -/
def Telegram.hears (e : Telegram) (n comId src dst : Nat) : Bool :=
  e.dir == 2 && e.ports.testBit n && e.comId == comId && (e.dstIp == 0 || e.dstIp == dst) && (src &&& e.srcMask) == (e.srcIp &&& e.srcMask)

/-- The matching subscribe entry of the lowest index. -/
def State.pdEntry (s : State) (n comId src dst : Nat) : Option Nat :=
  s.telegramIds.find? fun t => match s.telegram t with | some e => e.hears n comId src dst | none => false

/-- Consecutive telegrams of an entry that the order check rejects. -/
def State.setLate (s : State) (t k : Nat) : State := s.modEth fun h => { h with late := tput natD h.late t k }

/-- PD_REJECT (R333). -/
def State.pdReject (s : State) (n t counter check : Nat) : State :=
  ((((s.setLate t (if check = 5 then tget natD s.eth.late t + 1 else 0)).rxc n counter).inc (F.ETH_PDSTAT_REJ t)).raise 270).report .PD_REJECT (srcEth n) [n, t, check]

/-- The item of a telegram: a 16-byte prefix and the dataset (R334). -/
def State.pdItem (s : State) (n t : Nat) (data : List Byte) : Item :=
  s.item (leBytes 2 t ++ leBytes 2 data.length ++ leBytes 8 s.stamp ++ [BitVec.ofNat 8 n, 0, 0, 0] ++ data)

/-- An item becomes the current one of its entry. -/
def State.pdCurrent (s : State) (n t : Nat) (it : Item) : State :=
  ((s.modEth fun h => { h with items := tput noneD h.items t (some ⟨n, s.clk.t, it⟩) }).set (F.ETH_PDSTAT_LAST_PORT t) n).offerItem 2 t it

/-- A telegram accepted (R334). -/
def State.pdAccept (s : State) (n t seq : Nat) (e : Telegram) (data : List Byte) : State :=
  let it := s.pdItem n t data
  let s := ((s.modEth fun h => { h with refs := tput noneD h.refs t (some seq) }).setLate t 0).presNew 2 t
  let s := s.pdCurrent n t it
  if e.queue = 0xFF then s else
  let r := s.qCommitItem (s.qgeo e.queue) 0 it
  if r.2 then r.1 else (r.1.rxc n 18).raise 276

/-- A telegram with the reference's counter: a copy from the other port. Of two copies of one fabric cycle, that of the lower port number is
handled first (R337), so it takes the place of one handled earlier in that cycle. -/
def State.pdDup (s : State) (n t : Nat) (e : Telegram) (data : List Byte) : State :=
  let s := s.setLate t 0
  match tget noneD s.eth.items t with
  | some b =>
    if n < b.port ∧ b.tm / 2 = s.fab then
      let it := s.pdItem n t data
      let s := s.pdCurrent n t it
      let g := s.qgeo e.queue
      let ptr := ((s.qst g).wr + 2 * g.depth - 1) % (2 * g.depth)
      (if e.queue ≠ 0xFF ∧ s.qPayload g ptr = b.it.data then s.qWrite g ptr 0 it else s).rxc b.port 15
    else s.rxc n 15
  | none => s.rxc n 15

/-- PD_TELEGRAM_RX (R333): `p` is the UDP payload. -/
def State.pdRx (s : State) (n t : Nat) (e : Telegram) (p : List Byte) : State :=
  let len := fieldBe p 20 4
  let seq := fieldBe p 0 4
  let etb := fieldBe p 12 4
  let opt := fieldBe p 16 4
  if fieldLe p 36 4 ≠ crc32 (sliceB p 0 36) ∨ fieldBe p 4 1 ≠ 1 ∨ len + 40 ≠ p.length then s.pdReject n t 11 1
  else if (e.topo.testBit 0 ∧ etb ≠ 0 ∧ etb ≠ s.get F.ETH_TOPO_ETB_W) ∨ (e.topo.testBit 1 ∧ opt ≠ 0 ∧ opt ≠ s.get F.ETH_TOPO_OPT_W) then
    s.pdReject n t 13 2
  else if e.dlen < len then (s.pdReject n t 14 3).raise 271
  else
    let lost := s.mapped 2 t && s.get (F.ETH_PDSTAT_PRES t) != 1
    match tget noneD s.eth.refs t with
    | some r =>
      let d := (seq + 2 ^ 32 - r) % 2 ^ 32
      if lost then s.pdAccept n t seq e (sliceB p 40 len)
      else if d = 0 then s.pdDup n t e (sliceB p 40 len)
      else if 2 ^ 31 ≤ d ∧ tget natD s.eth.late t < 2 then s.pdReject n t 16 5
      else s.pdAccept n t seq e (sliceB p 40 len)
    | none => s.pdAccept n t seq e (sliceB p 40 len)

/-! ### Reception (R318 to R320, R336) -/

/-- A command datagram reaches the supervisor, which holds up to 8 requests (R319, R452); one from a locked-out address is
discarded. -/
def State.cmdRx (s : State) (ip : Nat) : State :=
  let locked := s.sup.authFails.any fun a => a.ip == ip && (match a.lockedTill with | some t => decide (s.clk.t < t) | none => false)
  if locked then s else { s with sup := { s.sup with ethHeld := s.sup.ethHeld + 1 } }

/-- The first enabled rule that matches (R319 case 4). -/
def State.ruleFor (s : State) (n : Nat) (b : List Byte) : Option Nat :=
  (List.range 8).find? fun r =>
    s.flag (F.ETH_RULE_EN r) && (s.get (F.ETH_RULE_PORTS r)).testBit n &&
      (if s.flag (F.ETH_RULE_UDP r) then
        (match udpOf b with | some u => !u.frag && u.dport == s.get (F.ETH_RULE_VALUE r) | none => false)
       else ethType b == s.get (F.ETH_RULE_VALUE r))

/-- Cases 4 and 5 of R319. -/
def State.ethRules (s : State) (n : Nat) (b : List Byte) (pd : Bool) : State :=
  match s.ruleFor n b with
  | some r =>
    let item := [BitVec.ofNat 8 n, BitVec.ofNat 8 r] ++ leBytes 2 b.length ++ leBytes 8 s.stamp ++ leBytes 4 0 ++ b
    let q := s.qCommitHw (s.qgeo (s.get (F.ETH_RULE_QUEUE r))) 0 item
    if q.2 then q.1 else (q.1.rxc n 18).raise 276
  | none => s.rxc n (if pd then 12 else 17)

/-- What a datagram of cases 1 to 3 of R319 would be: 1 PTP, 2 command, 3 process data with its entry, 0 none of them. -/
def State.udpCase (s : State) (n : Nat) (u : Udp) : Nat × Nat :=
  if s.ptpOn n ∧ s.flag F.ETH_PTP_CFG_UDP ∧ (u.dport = 319 ∨ u.dport = 320) then (1, 0)
  else if u.dst = s.get (F.ETH_IP_W n) ∧ s.get F.ETH_CMDPORT_PORT ≠ 0 ∧ u.dport = s.get F.ETH_CMDPORT_PORT ∧ !u.frag then (2, 0)
  else if u.dport = 17224 ∧ !u.frag ∧ fieldBe u.payload 6 2 = 0x5064 then
    match s.pdEntry n (fieldBe u.payload 8 4) u.src u.dst with
    | some t => (3, t)
    | none => (4, 0)
  else (0, 0)

/-- A frame that passed R318 is classified (R319). -/
def State.ethClassify (s : State) (n : Nat) (b : List Byte) (v : PtpVerdict) : State :=
  if s.ptpOn n && !(s.flag F.ETH_PTP_CFG_UDP) && ethType b == 0x88F7 then s.ptpRx n (b.drop (ethHdr b)) (b.length + 4) v
  else match udpOf b with
  | none => s.ethRules n b false
  | some u =>
    match s.udpCase n u with
    | (0, _) => s.ethRules n b false
    | (4, _) => s.ethRules n b true
    | (k, t) =>
      match ipTest b with
      | 1 => (s.rxc n 9).raise 275
      | 2 => (s.rxc n 10).raise 275
      | _ =>
        if k = 1 then s.ptpRx n u.payload (b.length + 4) v
        else if k = 2 then s.cmdRx u.src
        else match s.telegram t with | some e => s.pdRx n t e u.payload | none => s

/-- ETH_FRAME_RX (R318, R319, R336). -/
def ethFrameRx (n : Nat) (f : EthFrame) (v : PtpVerdict) (s : State) : State :=
  if !(s.ethOn n) || !(s.flag (F.ETH_PORT_STAT_LINK n)) then s else
  let b := f.bytes
  let bad (i : Nat) : State := (s.rxc n i).raise 275
  if f.code then bad 4
  else if !f.fcs then bad 1
  else if b.length + 4 < 64 then bad 2
  else if 1522 < b.length + 4 then bad 3
  else if ethType b = 0x8808 ∧ fieldBe b (ethHdr b) 2 = 1 then s.rxc n 5
  else if ethStag b then s.rxc n 6
  else if !(s.vidOk n b) then s.rxc n 7
  else if !(s.macOk n b) then s.rxc n 8
  else (s.rxc n 0).ethClassify n b v

/-! ### Transmission (R321 to R323) -/

def State.head (s : State) (q : Nat) : Option TxHead := tget noneD s.eth.heads q
/-- A frame of a port as `Eth.deferred` numbers it. -/
def txKey (n : Nat) (c : Nat × Nat) : Nat := n + 4 * (c.1 + 4 * c.2)
def State.setHead (s : State) (q : Nat) (h : Option TxHead) : State :=
  s.modEth fun e => { e with heads := tput noneD e.heads q h, deferred := if h.isSome then e.deferred else e.deferred.filter fun k => k / 4 != 3 + 4 * q }
def State.pdDue (s : State) (t : Nat) : Option PdDue := tget noneD s.eth.due t
def State.setDue (s : State) (t : Nat) (d : Option PdDue) : State :=
  let still (n : Nat) : Bool := match d with | some d => d.ports.testBit n | none => false
  s.modEth fun e => { e with due := tput noneD e.due t d, deferred := e.deferred.filter fun k => k / 4 != 2 + 4 * t || still (k % 4) }

/-- The software queues of a port in the order Q0 to Q3. -/
def State.txQueues (s : State) (n : Nat) : List Nat :=
  [s.get (F.ETH_TXQ_Q0 n), s.get (F.ETH_TXQ_Q1 n), s.get (F.ETH_TXQ_Q2 n), s.get (F.ETH_TXQ_Q3 n)].filter (· ≠ 0xFF)
/-- The ports a software queue serves. -/
def State.qPorts (s : State) (q : Nat) : List Nat := (List.range 4).filter fun n => s.ethFitted n && (s.txQueues n).contains q

/-- The item at a queue's head is judged under R314. -/
def State.headJudge (s : State) (q : Nat) : State :=
  match s.head q with
  | some h =>
    match h.launch with
    | some l =>
      match s.launchCase (stampUnits l) with
      | 1 => s
      | 2 => s.setHead q (some { h with ready := true })
      | k => (s.setHead q none).launchDrop k l
    | none => s
  | none => s

/-- ETH_TX_ITEM (R321, R323). -/
def ethTxItem (q : Nat) (s : State) : State :=
  match s.qPorts q with
  | [] => s
  | n0 :: _ =>
    if !s.alive || (s.head q).isSome || qLevel (s.qgeo q) (s.qst (s.qgeo q)) == 0 then s else
    let r := s.qTakeHw (s.qgeo q)
    match r.2 with
    | none => (r.1.txc n0 5).raise 274
    | some it =>
      let s := r.1
      let b := it.data
      let port := fieldLe b 0 1
      let tf := fieldLe b 1 1
      let raw := b.drop 16
      let mine := if port < 4 ∧ (s.qPorts q).contains port then port else n0
      let frame := raw.take 6 ++ s.ownMac mine ++ (if tf.testBit 1 then beBytes 2 0x8100 ++ beBytes 2 (fieldLe b 2 2) else []) ++ raw.drop 12
      let frame := frame ++ List.replicate (60 - frame.length) 0
      if 4 ≤ tf ∨ fieldLe b 4 4 ≠ 0 ∨ !((s.qPorts q).contains port) ∨ 1518 < frame.length then (s.txc mine 4).raise 274
      else if !(s.ethOn port && s.flag (F.ETH_PORT_STAT_LINK port)) then (s.txc port 6).raise 274
      else
        let l := if tf.testBit 0 then some (fieldLe b 8 8) else none
        (s.setHead q (some ⟨port, frame, l, l.isNone⟩)).headJudge q

/-- The earliest launch instant for which a port must be free (R322). -/
def State.guardAt (s : State) (n : Nat) : Option Nat :=
  let a := (s.txQueues n).filterMap fun q => match s.head q with
    | some h => if h.port = n ∧ !h.ready then h.launch.map fun l => s.clk.frcBase + frcFor s.tmb (stampUnits l) else none
    | none => none
  let b := s.telegramIds.filterMap fun t => match s.pdDue t with
    | some d => if d.ports.testBit n ∧ !d.ready then some d.launch else none
    | none => none
  (a ++ b).min?

/-- The next frame of a port in the order of R322: 1 PTP, 2 a telegram, 3 a software queue; with its number. -/
def State.nextFrame (s : State) (n : Nat) : Option (Nat × Nat) :=
  if (s.ptpPort n).tx ≠ [] then some (1, 0)
  else match s.telegramIds.find? fun t => match s.pdDue t with | some d => d.ready && d.ports.testBit n | none => false with
  | some t => some (2, t)
  | none =>
    ((s.txQueues n).find? fun q => match s.head q with | some h => h.ready && h.port == n | none => false).map fun q => (3, q)

/-- A PTP message as it leaves: a one-step Sync carries its egress time as originTimestamp (R325). -/
def State.ptpFrame (s : State) (n : Nat) (m : List Byte) : List Byte :=
  let t := s.todPoint n 8
  let m := if fieldBe m 0 1 % 16 = 0 ∧ !((fieldBe m 6 1).testBit 1) then m.take 34 ++ beBytes 6 (todSec t) ++ beBytes 4 (todNs t) ++ m.drop 44 else m
  if s.flag F.ETH_PTP_CFG_UDP then
    let port := if fieldBe m 0 1 % 16 < 4 then 319 else 320
    ethFrame (mac1112 0xE0000181) (s.ownMac n) none 0x0800 (ipUdp (s.get (F.ETH_IP_W n)) 0xE0000181 port port 0 true m)
  else ethFrame (beBytes 6 0x011B19000000) (s.ownMac n) none 0x88F7 m

/-- A telegram's frame on a port (R329). -/
def State.pdFrame (s : State) (n : Nat) (e : Telegram) (d : PdDue) : List Byte :=
  let mac := if 0xE0000000 ≤ e.dstIp ∧ e.dstIp < 0xF0000000 then mac1112 e.dstIp else e.dstMac
  let tag := if e.tag % 4096 = 0 then none else some e.tag
  ethFrame mac (s.ownMac n) tag 0x0800
    (ipUdp (s.get (F.ETH_IP_W n)) e.dstIp 17224 17224 (e.tag / 8192 * 8) false (pdHeader d.seq e.comId d.etb d.opt e.dlen ++ d.it.data))

/-- A frame leaves a port. -/
def State.ethSend (s : State) (n kind : Nat) (f : List Byte) : State :=
  let s := (s.emit .ethernet n kind f).txc n 0
  s.modEth fun e => { e with busy := tput natD e.busy n (s.clk.t + frameTime n (f.length + 4)), deferred := e.deferred.filter (· ≠ txKey n (1, 0)) }

/-- A chosen frame starts. -/
def State.ethGo (s : State) (n : Nat) (c : Nat × Nat) : State :=
  match c with
  | (1, _) =>
    match (s.ptpPort n).tx with
    | m :: r =>
      let p := { s.ptpPort n with tx := r, req := if fieldBe m 0 1 % 16 = 1 then some (s.todPoint n 8, fieldBe m 30 2) else (s.ptpPort n).req }
      let f := s.ptpFrame n m
      ((s.setPtp n p).modEth fun e => { e with egress := tput natD e.egress n (s.todPoint n 8) }).ethSend n 1 f
    | [] => s
  | (2, t) =>
    match s.pdDue t, s.telegram t with
    | some d, some e =>
      if !d.it.ok then (((s.setDue t none).txcAll d.ports 5).raise 274).transitFail (srcEth n) n d.it.stamp else
      let left := d.ports &&& (15 ^^^ 2 ^ n)
      let s' := s.setDue t (if left = 0 then none else some { d with ports := left, unsent := false })
      let s' := if d.unsent ∧ e.ogrp = 0xFF then s'.modEth fun h => { h with seqs := tput natD h.seqs t ((d.seq + 1) % 2 ^ 32) } else s'
      (s'.ethSend n 2 (s.pdFrame n e d)).txc n 1
    | _, _ => s
  | (_, q) =>
    match s.head q with
    | some h => (s.setHead q none).ethSend n 3 h.frame
    | none => s

/-- Frames whose launch time has passed by more than LATE_MAX before they could start are discarded (R314, R332). -/
def State.dropLate (s : State) (n : Nat) : State :=
  let s := s.telegramIds.foldl (fun (s : State) t => match s.pdDue t with
    | some d => if d.ready && d.ports.testBit n && s.launchAt d.launch == 3 then
        let left := d.ports &&& (15 ^^^ 2 ^ n)
        let l := stampOf (s.todAgo (s.clk.t - d.launch))
        (s.setDue t (if left = 0 then none else some { d with ports := left })).launchDrop 3 l
      else s
    | none => s) s
  (s.txQueues n).foldl (fun (s : State) q => match s.head q with
    | some h => if h.ready && h.port == n then s.headJudge q else s
    | none => s) s

/-- The port may start a frame now. -/
def State.ethFree (s : State) (n : Nat) : Bool :=
  s.ethOn n && s.flag (F.ETH_PORT_STAT_LINK n) && s.sup.st != .dusk && decide (tget natD s.eth.busy n ≤ s.clk.t)

/-- The length in bytes of a chosen frame, FCS included. -/
def State.frameLen (s : State) (n : Nat) (c : Nat × Nat) : Nat :=
  match c with
  | (1, _) => match (s.ptpPort n).tx with | m :: _ => (s.ptpFrame n m).length + 4 | [] => 0
  | (2, t) => match s.pdDue t, s.telegram t with | some d, some e => (s.pdFrame n e d).length + 4 | _, _ => 0
  | (_, q) => match s.head q with | some h => h.frame.length + 4 | none => 0

/-- ETH_FRAME_START (R322, R323). -/
def ethFrameStart (n : Nat) (s : State) : State :=
  if !(s.ethFree n) then s else
  let s := s.dropLate n
  match s.nextFrame n with
  | none => s
  | some c =>
    let stop := s.clk.t + frameTime n (s.frameLen n c)
    match s.guardAt n with
    | some g =>
      if g < stop + 80 then
        if s.eth.deferred.contains (txKey n c) then s else (s.txc n 7).modEth fun e => { e with deferred := txKey n c :: e.deferred }
      else s.ethGo n c
    | none => s.ethGo n c

/-- ETH_LINK_CHANGE (R317, R323). -/
def ethLinkChange (n : Nat) (up : Bool) (s : State) : State :=
  if !(s.ethOn n) || s.flag (F.ETH_PORT_STAT_LINK n) == up then s
  else
    let s := (s.set (F.ETH_PORT_STAT_LINK n) (b2n up)).raise (264 + n)
    if up then s else
    let s := s.inc (F.ETH_PORT_STAT_DOWNS n)
    let s := (s.txQueues n).foldl (fun (s : State) q => match s.head q with
      | some h => if h.port = n then ((s.setHead q none).txc n 6).raise 274 else s
      | none => s) s
    s.telegramIds.foldl (fun (s : State) t => match s.pdDue t with
      | some d => if d.ports.testBit n then
          let left := d.ports &&& (15 ^^^ 2 ^ n)
          s.setDue t (if left = 0 then none else some { d with ports := left })
        else s
      | none => s) s

/-! ### Publishing (R329 to R332) -/

/-- A telegram becomes due; one still held for launch is replaced (R332). -/
def State.pdSet (s : State) (t : Nat) (e : Telegram) (it : Item) (seq launch : Nat) : State :=
  let s := match s.pdDue t with | some d => s.txcAll d.ports 3 | none => s
  let ports := (List.range 4).foldl (fun a n => if e.ports.testBit n && s.ethOn n && s.flag (F.ETH_PORT_STAT_LINK n) then a + 2 ^ n else a) 0
  s.setDue t (if ports = 0 then none else some ⟨it, seq, launch, ports, false, s.get F.ETH_TOPO_ETB_W, s.get F.ETH_TOPO_OPT_W, true⟩)

/-- The output instant of cycle group `g` releases the bound telegrams of its output groups (R330). -/
def State.ethRelease (s : State) (g : Nat) : State :=
  s.telegramIds.foldl (fun (s : State) t => match s.telegram t with
    | some e =>
      if e.dir = 1 ∧ e.ogrp < 16 ∧ s.flag (F.TVL_OGRP_EN e.ogrp) ∧ s.get (F.TVL_OGRP_CGRP e.ogrp) = g then
        s.pdSet t e (s.item (sliceB (image (s.grp g).voted (s.outBytes g)) e.srcOfs e.dlen)) (s.grp g).seq (s.clk.t + e.launchUs * usUt)
      else s
    | none => s) s

/-- PD_TAKE (R331): for the running Gheif cycle, or for the next one where the take comes before its start. -/
def pdTake (t : Nat) (s : State) : State :=
  match s.telegram t with
  | some e =>
    let st := s.sup.st
    let may := st == .run || st == .hold || st == .stop || st == .service
    let next := decide (e.launchUs < 2)
    let cc := if next then (s.cyc.count + 1) % 256 else s.cyc.count
    if e.dir ≠ 1 ∨ e.ogrp ≠ 0xFF ∨ !may ∨ e.period = 0 ∨ cc % e.period ≠ e.phase then s else
    let go := s.cyc.start + (if next then s.cycleLen else 0) + e.launchUs * usUt
    let s := s.advance (go - 2 * usUt)
    let g := s.qgeo e.queue
    let n := qLevel g (s.qst g)
    let r := s.qTakeAll g n
    let s := (List.range (n - r.2.length)).foldl (fun (s : State) _ => (s.txcAll e.ports 5).raise 274) r.1
    let good := r.2.filter fun b => b.data.length == e.dlen
    let s := (List.range (r.2.length - good.length)).foldl (fun (s : State) _ => (s.txcAll e.ports 4).raise 274) s
    let s := (List.range (good.length - 1)).foldl (fun (s : State) _ => s.txcAll e.ports 3) s
    let s := match good.getLast? with
      | some b => s.modEth fun h => { h with held := tput noneD h.held t (some b) }
      | none => s
    match tget noneD s.eth.held t with
    | some b => s.pdSet t e b (tget natD s.eth.seqs t) go
    | none => s
  | none => s

/-- A telegram's launch instant comes: it is sent, or withheld without the lease (R330). -/
def State.pdLaunch (s : State) (t : Nat) : State :=
  match s.pdDue t, s.telegram t with
  | some d, some e =>
    if d.ready then s else
    let s := s.advance d.launch
    if e.ogrp < 16 ∧ !(s.holds e.ogrp) then (s.setDue t none).txcAll d.ports 2
    else if s.launchAt d.launch = 3 then (s.setDue t none).launchDrop 3 (stampOf (s.todAgo (s.clk.t - d.launch)))
    else
      let s := s.setDue t (some { d with ready := true })
      (List.range 4).foldl (fun (s : State) n => if d.ports.testBit n then ethFrameStart n s else s) s
  | _, _ => s

/-- A held software entry's launch time comes (R314). -/
def State.headLaunch (s : State) (q : Nat) : State :=
  match s.head q with
  | some h =>
    match h.launch with
    | some l =>
      if h.ready then s else
      let s := (s.advanceTod (stampUnits l)).headJudge q
      ethFrameStart h.port s
    | none => s
  | none => s

/-- A program start resets the sequence counters and the presence of the engine's sources (R331, R335). -/
def State.ethProgramStart (s : State) : State :=
  (s.modEth fun e => { e with seqs := [] })

/-- ETH_CNTCLR (R336). -/
def ethCntclr (s : State) : State :=
  let s := s.zeroRegs fun o => decide (0x80120 ≤ o ∧ o < 0x80300) && decide (0x20 ≤ (o - 0x80100) % 0x80 ∧ (o - 0x80100) % 0x80 < 0x60)
  let s := s.set F.ETH_PTP_STAT_VIOL 0
  (List.range 512).foldl (fun (s : State) t => s.set (F.ETH_PDSTAT_REJ t) 0) s

/-! ### The commands -/

/-- PTP_MEASUREMENT. -/
def execPtpMeasurement (n : Fin 2) (s : State) : Host.Outcome State Fault Refusal := .next (ptpMeasurement n s)
/-- ETH_FRAME_RX. -/
def execEthFrameRx (n : Fin 4) (f : EthFrame) (v : PtpVerdict) (s : State) : Host.Outcome State Fault Refusal :=
  .next (ethFrameRx n f v s)
/-- PTP_MESSAGE_TX. -/
def execPtpMessageTx (n : Fin 2) (msg : List Byte) (v : PtpVerdict) (s : State) : Host.Outcome State Fault Refusal :=
  .next (ptpMessageTx n msg v s)
/-- ETH_TX_ITEM. -/
def execEthTxItem (q : Fin 64) (s : State) : Host.Outcome State Fault Refusal := .next (ethTxItem q s)
/-- ETH_FRAME_START. -/
def execEthFrameStart (n : Fin 4) (s : State) : Host.Outcome State Fault Refusal := .next (ethFrameStart n s)
/-- PD_TAKE. -/
def execPdTake (t : Fin 512) (s : State) : Host.Outcome State Fault Refusal := .next (pdTake t s)
/-- ETH_LINK_CHANGE. -/
def execEthLinkChange (n : Fin 4) (up : Bool) (s : State) : Host.Outcome State Fault Refusal := .next (ethLinkChange n up s)
/-- ETH_CNTCLR. -/
def execEthCntclr (s : State) : Host.Outcome State Fault Refusal := .next (ethCntclr s)

end Sys2Proof.Machine
end

