-- ==== Sys2Proof/Machine/Ixs.lean ====
section
/-!
DEFINITION. The Ixsum safety layer (chapter 13): the safe message, producers, consumers and their monitoring.
-/
namespace Sys2Proof.Machine

/-! ### The safe message (R343, R344) -/

/-- The Ixsum check value over the bytes of a message without its check, seeded with CONN_ID (R344). -/
def ixCheck (connId : Nat) (l : List Byte) : Nat := crcMsb 32 0x741B8CD7 l connId ^^^ 0xFFFFFFFF

/-- A safe message (R343): `tstamp` in the stamp format. -/
def ixMessage (c : IxsConn) (ssn tstamp : Nat) (data : List Byte) : List Byte :=
  let m := beBytes 4 ssn ++ beBytes 4 c.sid ++ beBytes 8 tstamp ++ data
  m ++ beBytes 4 (ixCheck c.connId m)

def ixSsn (m : List Byte) : Nat := fieldBe m 0 4
def ixSid (m : List Byte) : Nat := fieldBe m 4 4
def ixStamp (m : List Byte) : Nat := fieldBe m 8 8

/-! ### Connections -/

def State.conn (s : State) (c : Nat) : Option IxsConn := tget noneD s.cfg.conns c
def State.connIds (s : State) : List Nat := s.cfg.conns.map fun e => e.1
def State.con (s : State) (c : Nat) : IxsCon := tget ixsD s.ixs c
def State.setCon (s : State) (c : Nat) (v : IxsCon) : State := { s with ixs := tput ixsD s.ixs c v }
/-- The engine is fitted and consumes (R339). -/
def State.ixsOn (s : State) : Bool :=
  s.cap 9 && (match s.sup.st with | .stop | .run | .hold | .service | .dusk => true | _ => false)

/-- States of a consumer connection (R349): 1 NOT_VALID, 2 VALID, 3 FAILSAFE. -/
def State.ixState (s : State) (c : Nat) : Nat := s.get (F.IXS_CSTAT_STATE c)

/-- A consumer connection changes its state, and the totals of IXS_STAT with it. -/
def State.setIxState (s : State) (c st : Nat) : State :=
  let old := s.ixState c
  let adj (s : State) (f : Field) (k : Nat) : State :=
    if old = k ∧ st ≠ k then s.set f (s.get f - 1) else if old ≠ k ∧ st = k then s.set f (s.get f + 1) else s
  (adj (adj s F.IXS_STAT_NVALID 2) F.IXS_STAT_NFAIL 3).set (F.IXS_CSTAT_STATE c) st

/-- An item with FLAGS bits is committed to a consumer's delivery queue (R352). -/
def State.ixDeliver (s : State) (c : Nat) (d : IxsConn) (flags tstamp ssn : Nat) (data : List Byte) : State :=
  if d.queue = 0xFF then s
  else (s.qCommitHw (s.qgeo d.queue) flags (leBytes 2 c ++ leBytes 2 d.dlen ++ leBytes 8 tstamp ++ leBytes 4 ssn ++ data)).1

/-- FAILSAFE is entered with a cause (R349): 1 TIMEOUT, 2 SID_ERR, 3 ERR_RATE, 4 TIME_UNSET. -/
def State.ixFail (s : State) (c : Nat) (d : IxsConn) (cause : Nat) : State :=
  let k := s.con c
  let ssn := s.get (F.IXS_CSSN_W c)
  let s := (((s.setIxState c 3).set (F.IXS_CSTAT_CAUSE c) cause).set (F.IXS_CSTAT_REJOIN_CNT c) 0).inc (F.IXS_CCNT_FAILSAFES c)
  let ack := decide (d.ackReq ∨ cause = 3)
  let s := if ack then s.set (F.IXS_CSTAT_ACK_PEND c) 1 else s
  let s := (s.raise 296).report .IXS_FAILSAFE srcIxs [c, cause, ssn, k.tstamp, k.tstamp / 2 ^ 32]
  let s := if cause = 4 then s.raise 305 else s
  let s := s.setCon c { k with entered := true, ackSet := if ack then some s.fab else k.ackSet }
  s.ixDeliver c d 1 k.tstamp ssn []

/-- VALID is entered when the rejoin count has come to REJOIN_N and no acknowledgement is owed (R349). -/
def State.ixRejoin (s : State) (c : Nat) (d : IxsConn) : State :=
  if s.ixState c ≠ 2 ∧ d.rejoinN ≤ s.get (F.IXS_CSTAT_REJOIN_CNT c) ∧ !(s.flag (F.IXS_CSTAT_ACK_PEND c)) then
    let s := s.setCon c { s.con c with first := true }
    ((s.setIxState c 2).raise 297).report .IXS_VALID srcIxs [c]
  else s

/-- What any rejection but a repetition does outside VALID. -/
def State.ixReject (s : State) (c : Nat) : State :=
  if s.ixState c = 2 then s else s.set (F.IXS_CSTAT_REJOIN_CNT c) 0

/-- A failed length or check value feeds the error-rate monitor (R350). -/
def State.ixCheckErr (s : State) (c : Nat) (d : IxsConn) : State :=
  let s := (((s.inc (F.IXS_CERR_CHECK_ERR c)).raise 298).inc (F.IXS_CSTAT_ERRWIN c)).ixReject c
  let s := s.setCon c { s.con c with errs := (s.con c).errs + 1 }
  if d.errMax < (s.con c).errs ∧ s.ixState c ≠ 3 then (s.raise 303).ixFail c d 3 else s

/-- The age of a stamp in nanoseconds; negative for one ahead of the own time of day. -/
def State.ixAge (s : State) (tstamp : Nat) : Int :=
  ((s.tod / 65536 % (2 ^ 34 * 1000000000) : Nat) : Int) - ((stampUnits tstamp / 65536 : Nat) : Int)

/-- A message passes every check (R347, R349, R352). -/
def State.ixAccept (s : State) (c : Nat) (d : IxsConn) (m : List Byte) : State :=
  let k := s.con c
  let dd := (ixSsn m + 2 ^ 32 - s.get (F.IXS_CSSN_W c)) % 2 ^ 32
  let data := sliceB m 16 d.dlen
  let valid := s.ixState c == 2
  let s := if valid then s.incBy (F.IXS_CCNT_LOST c) (dd - 1) else s
  let near := !k.hasRef || k.entered || decide (dd ≤ d.seqWin)
  let s := s.set (F.IXS_CSSN_W c) (ixSsn m)
  let s := s.setCon c { k with hasRef := true, tstamp := ixStamp m, data := data, first := false, entered := false }
  let s := s.offer 6 c data
  let s := if valid then s
    else (if near then s.inc (F.IXS_CSTAT_REJOIN_CNT c) else s).ixRejoin c d
  let first := valid && k.first || (!valid && s.ixState c == 2)
  let s := if s.ixState c = 2 then s.setCon c { s.con c with first := false } else s
  s.ixDeliver c d ((if dd > 1 ∧ k.hasRef then 2 else 0) + (if first then 4 else 0)) (ixStamp m) (ixSsn m) data

/-- A message of this length passes as the connection's own: its check value under the seed CONN_ID and its SID, and nothing else, tell one
connection's messages from another's (R340). -/
def IxsConn.seeded (d : IxsConn) (m : List Byte) : Bool := fieldBe m (16 + d.dlen) 4 == ixCheck d.connId (m.take (16 + d.dlen))
def IxsConn.named (d : IxsConn) (m : List Byte) : Bool := ixSid m == d.sid

/-- A consumer checks a message (R347). -/
def State.ixCheckMsg (s : State) (c : Nat) (d : IxsConn) (m : List Byte) : State :=
  let k := s.con c
  let dd := (ixSsn m + 2 ^ 32 - s.get (F.IXS_CSSN_W c)) % 2 ^ 32
  let valid := s.ixState c == 2
  if m.length ≠ 20 + d.dlen then s.ixCheckErr c d
  else if !(d.seeded m) then s.ixCheckErr c d
  else if !(d.named m) then
    let s := ((s.inc (F.IXS_CERR_SID_ERR c)).raise 299).ixReject c
    if valid then s.ixFail c d 2 else s
  else if k.hasRef ∧ dd = 0 then s
  else if valid ∧ (2 ^ 31 ≤ dd ∨ d.seqWin < dd) then (s.inc (F.IXS_CCNT_SEQ_ERR c)).raise 300
  else if (d.tExpUs * 1000 : Nat) < s.ixAge (ixStamp m) then ((s.inc (F.IXS_CERR_TIME_ERR c)).raise 301).ixReject c
  else if s.ixAge (ixStamp m) < - ((d.futUs * 1000 : Nat) : Int) then ((s.inc (F.IXS_CERR_TIME_ERR c)).raise 302).ixReject c
  else if !(s.flag F.TMB_STAT_TSET) then ((s.inc (F.IXS_CERR_TIME_ERR c)).raise 305).ixReject c
  else s.ixAccept c d m

/-- The consumer connection of a carrier entry. -/
def State.ixConsumer (s : State) (carrier centry : Nat) : Option Nat :=
  s.connIds.find? fun c => match s.conn c with | some d => d.role == 2 && d.carrier == carrier && d.centry == centry | none => false

/-- IXS_MESSAGE_RX (R347): the head item of a carrier's delivery queue, whose prefix names the carrier entry. -/
def ixsMessageRx (q : Nat) (s : State) : State :=
  let g := s.qgeo q
  if !s.ixsOn || g.cons != 0x122 then s else
  let r := s.qTakeHw g
  match r.2 with
  | none => r.1
  | some it =>
    let b := it.data
    let key : Nat × Nat :=
      if g.prod = 0x120 then (1, fieldLe b 0 2)
      else if g.prod = 0x121 then (2, fieldLe b 0 2)
      else (3, fieldLe b 15 1 * 256 + fieldLe b 14 1)
    match r.1.ixConsumer key.1 key.2 with
    | some c => match r.1.conn c with | some d => r.1.ixCheckMsg c d (b.drop 16) | none => r.1
    | none => r.1

/-- IXS_TIME_CHECK (R348). -/
def State.ixTime (s : State) (c : Nat) : State :=
  match s.conn c with
  | some d =>
    if d.role ≠ 2 ∨ !s.ixsOn then s else
    let k := s.con c
    let unset := !(s.flag F.TMB_STAT_TSET)
    let old := k.hasRef && decide (((d.tExpUs * 1000 : Nat) : Int) < s.ixAge k.tstamp)
    if !unset && !old then s
    else if s.ixState c = 2 then s.ixFail c d (if old then 1 else 4)
    else s.ixReject c
  | none => s

/-- The time check of every consumer, at a Gheif cycle start. -/
def State.ixTimeAll (s : State) : State := s.connIds.foldl (fun (s : State) c => s.ixTime c) s

/-- The time check of the consumers that a group's signal map names, at its freeze. -/
def State.ixTimeGroup (s : State) (g : Nat) : State :=
  s.connIds.foldl (fun (s : State) c => if s.cfg.sigs.any fun e => e.kind == 6 && e.srcId == c && e.group == g then s.ixTime c else s) s

/-- A cold or warm program start (R349, R350). -/
def State.ixProgramStart (s : State) : State :=
  s.connIds.foldl (fun (s : State) c => match s.conn c with
    | some d =>
      if d.role = 2 then
        let s := s.setIxState c 1
        let s := ((s.set (F.IXS_CSTAT_REJOIN_CNT c) 0).set (F.IXS_CSTAT_ERRWIN c) 0).set (F.IXS_CSSN_W c) 0
        s.setCon c { IxsCon.reset with win := s.frc }
      else if d.role = 1 then s.set (F.IXS_CSTAT_STATE c) 1
      else s
    | none => s) s

/-- The connections of a configuration that takes effect: consumers are NOT_VALID, producers idle. -/
def State.ixInit (s : State) : State :=
  s.connIds.foldl (fun (s : State) c => match s.conn c with
    | some d => if d.role = 0 then s else s.setIxState c 1
    | none => s) s

/-- Outside the Run state no producer produces (R339). -/
def State.ixFollow (s : State) : State :=
  if s.inRun then s else
  s.connIds.foldl (fun (s : State) c => match s.conn c with
    | some d => if d.role = 1 ∧ s.ixState c = 2 then s.set (F.IXS_CSTAT_STATE c) 1 else s
    | none => s) s

/-- IXS_ACK (R349): in the fabric cycle of an entry to FAILSAFE it does not clear the ACK_PEND of that entry (R353). -/
def ixsAck (v : Word) (s : State) : State :=
  let c := v.toNat % 512
  match s.conn c with
  | some d =>
    if d.role ≠ 2 ∨ !s.ixsOn ∨ !(s.flag (F.IXS_CSTAT_ACK_PEND c)) ∨ (s.con c).ackSet = some s.fab then s
    else (s.set (F.IXS_CSTAT_ACK_PEND c) 0).ixRejoin c d
  | none => s

/-- IXS_ERR_WINDOW (R350). -/
def ixsErrWindow (c : Nat) (s : State) : State :=
  match s.conn c with
  | some d =>
    if d.role ≠ 2 ∨ !s.ixsOn ∨ !s.clk.frcOn then s
    else
      let w := (s.con c).win + d.errWinS * 800000000
      let s := s.advance (s.clk.frcBase + w)
      (s.setCon c { s.con c with win := w, errs := 0 }).set (F.IXS_CSTAT_ERRWIN c) 0
  | none => s

/-- IXS_CNTCLR. -/
def ixsCntclr (s : State) : State := s.zeroRegs fun o => decide (0x90100 ≤ o ∧ o < 0x91100) && decide (8 ≤ o % 16)

/-! ### Producing (R345, R346) -/

/-- The supply queue of a connection's carrier entry. -/
def State.ixSupply (s : State) (d : IxsConn) : Nat :=
  match d.carrier with
  | 1 => match s.clu with | some c => (match c.desc d.centry with | some e => e.queue | none => 0xFF) | none => 0xFF
  | 2 => match s.telegram d.centry with | some e => e.queue | none => 0xFF
  | _ => s.get (F.CAN_TBCFG_QUEUE (d.centry / 256) (d.centry % 256))

/-- A discarded producer item or message. -/
def State.ixLost (s : State) (c : Nat) : State := (s.inc (F.IXS_CCNT_LOST c)).raise 304

/-- IXS_PRODUCER_ITEM (R346). -/
def ixsProducerItem (c : Nat) (s : State) : State :=
  match s.conn c with
  | some d =>
    if d.role ≠ 1 ∨ d.ogrp ≠ 0xFF ∨ !s.ixsOn ∨ !s.inRun ∨ qLevel (s.qgeo d.queue) (s.qst (s.qgeo d.queue)) = 0 then s else
    let r := s.qTakeHw (s.qgeo d.queue)
    match r.2 with
    | none => r.1.ixLost c
    | some it =>
      let b := it.data
      if b.length ≠ d.dlen then r.1.ixLost c
      else
        let k := r.1.con c
        let ssn := (if k.hasRef then r.1.get (F.IXS_CSSN_W c) + 1 else r.1.pwr.pcc * 65536) % 2 ^ 32
        let s := ((r.1.set (F.IXS_CSSN_W c) ssn).set (F.IXS_CSTAT_STATE c) 2).setCon c { k with hasRef := true }
        let q := s.ixSupply d
        if q = 0xFF then s.ixLost c
        else
          let t := s.qCommitHw (s.qgeo q) 0 (ixMessage d ssn s.stamp b)
          if t.2 then t.1 else t.1.ixLost c
  | none => s

/-- IXS_BOUND_COMPLETE (R345): the bound messages of a cycle group's released output groups are completed in the voted image. -/
def State.ixBound (s : State) (g : Nat) : State :=
  s.connIds.foldl (fun (s : State) c => match s.conn c with
    | some d =>
      if d.role = 1 ∧ d.ogrp < 16 ∧ s.ixsOn ∧ s.inRun ∧ s.flag (F.TVL_OGRP_EN d.ogrp) ∧ s.get (F.TVL_OGRP_CGRP d.ogrp) = g then
        let gs := s.grp g
        let data := tgetList byteD gs.voted (d.msgOfs + 16) d.dlen
        let m := ixMessage d gs.seq (stampOf gs.frzTod) data
        let s := s.setGrp g { gs with voted := tputList byteD gs.voted d.msgOfs m }
        (s.set (F.IXS_CSSN_W c) gs.seq).set (F.IXS_CSTAT_STATE c) 2
      else s
    | none => s) s

/-! ### The commands -/

/-- IXS_PRODUCER_ITEM. -/
def execIxsProducerItem (c : Fin 256) (s : State) : Host.Outcome State Fault Refusal := .next (ixsProducerItem c s)
/-- IXS_MESSAGE_RX. -/
def execIxsMessageRx (q : Fin 64) (s : State) : Host.Outcome State Fault Refusal := .next (ixsMessageRx q s)
/-- IXS_ACK. -/
def execIxsAck (v : Word) (s : State) : Host.Outcome State Fault Refusal := .next (ixsAck v s)
/-- IXS_ERR_WINDOW. -/
def execIxsErrWindow (c : Fin 256) (s : State) : Host.Outcome State Fault Refusal := .next (ixsErrWindow c s)
/-- IXS_CNTCLR. -/
def execIxsCntclr (s : State) : Host.Outcome State Fault Refusal := .next (ixsCntclr s)

end Sys2Proof.Machine
end

