-- ==== Sys2Proof/Machine/Can.lean ====
section
/-!
DEFINITION. The CAN FD controllers (chapter 14), and the launch of held transmit entries (R314).
-/
namespace Sys2Proof.Machine

/-! ### The controller and its message RAM (R356 to R361) -/

/-- Address of a transmit buffer. -/
def tbAddr (n b : Nat) : Nat := canAddr n (0xC00 + b * 80)
/-- Counter `i` of a controller. -/
def State.canc (s : State) (n i : Nat) : State := if i % 2 = 0 then s.inc (F.CAN_CNT_LO n (i / 2)) else s.inc (F.CAN_CNT_HI n (i / 2))
def State.canBit (s : State) (f : Field) (b : Nat) : Bool := (s.get f).testBit b
def State.setBit (s : State) (f : Field) (b : Nat) : State := s.set f (s.get f ||| 2 ^ b)
def State.clrBit (s : State) (f : Field) (b : Nat) : State := if (s.get f).testBit b then s.set f (s.get f - 2 ^ b) else s

/-- Data length of a DLC (ISO 11898-1). -/
def dlcLen (fdf : Bool) (dlc : Nat) : Nat :=
  if dlc ≤ 8 then dlc
  else if !fdf then 8
  else match dlc with | 9 => 12 | 10 => 16 | 11 => 20 | 12 => 24 | 13 => 32 | 14 => 48 | _ => 64

/-! ### Transmit buffers and launch times (R314, R367, R368) -/

def State.tbMode (s : State) (n b : Nat) : Nat := s.get (F.CAN_TBCFG_MODE n b)
def State.tbDesc (s : State) (n b : Nat) : List Byte := s.rdBytes (tbAddr n b) 16
def State.tbLen (s : State) (n b : Nat) : Nat := fieldLe (s.tbDesc n b) 12 1
/-- Descriptor and data of a buffer. -/
def State.tbBytes (s : State) (n b : Nat) : List Byte := s.rdBytes (tbAddr n b) (16 + s.tbLen n b)
def State.tbPending (s : State) (n b : Nat) : Bool := s.canBit (F.CAN_TXPEND_W n) b

/-- A candidate is free to compete, or held to its launch time; 32 is the queue head. -/
def State.canFree (s : State) (n b : Nat) (free : Bool) : State :=
  let c := s.canst n
  s.setCan n { c with ready := if free then b :: c.ready.filter (· ≠ b) else c.ready.filter (· ≠ b) }

/-- A buffer ceases to be pending. -/
def State.tbDrop (s : State) (n b : Nat) : State := ((s.clrBit (F.CAN_TXPEND_W n) b).clrBit (F.CAN_TXHELD_W n) b).canFree n b false

/-- How a pending buffer's launch stands, by R314: 0 too far ahead, 1 held, 2 free to start, 3 too late; with the launch time as a stamp. -/
def State.tbLaunch (s : State) (n b : Nat) : Nat × Nat :=
  let d := s.tbDesc n b
  if s.tbMode n b ≠ 2 then (s.descCase d, launchStamp d)
  else match tget noneD (s.canst n).launch b with
    | some t => (s.launchAt t, stampOf (s.todAgo (s.clk.t - t)))
    | none => (2, 0)

/-- A pending buffer is judged under R314. -/
def State.tbJudge (s : State) (n b : Nat) : State :=
  if !(s.tbPending n b) then s else
  let r := s.tbLaunch n b
  if r.1 = 0 ∨ r.1 = 3 then (s.tbDrop n b).launchDrop r.1 r.2 else s.canFree n b (r.1 == 2)

/-- A buffer becomes pending with the content it now holds, under the transit check and the stamp given; in bus-off it is held (R368, R373). -/
def State.tbPend (s : State) (n b : Nat) (launch : Option Nat) (chk stamp : Nat) : State :=
  let c := s.canst n
  let s := s.setCan n { c with
    tchk := tput natD c.tchk b chk, stamps := tput natD c.stamps b stamp, launch := tput noneD c.launch b launch }
  let s := s.setBit (F.CAN_TXPEND_W n) b
  if s.canBusOff n then s.setBit (F.CAN_TXHELD_W n) b else s.tbJudge n b

/-- The geometry of the transmit queue, where there is one. -/
def State.txq (s : State) (n : Nat) : Option QGeo :=
  if s.get (F.CAN_TXQ_QUEUE n) = 0xFF then none else some (s.qgeo (s.get (F.CAN_TXQ_QUEUE n)))

/-- The queue head is judged under R314. -/
def State.headJudgeCan (s : State) (n : Nat) : State :=
  match s.txq n with
  | some g => (s.setCan n { s.canst n with headPtr := none }).txqJudge g n (2 * g.depth + 1)
  | none => s

/-- Candidates that a launch time holds, or that have not been judged, are judged (R314, R315). -/
def State.canJudgeHeld (s : State) (n : Nat) : State :=
  let s := (List.range 32).foldl (fun (s : State) b => if (s.canst n).ready.contains b then s else s.tbJudge n b) s
  if (s.canst n).ready.contains 32 then s else s.headJudgeCan n

/-- Every candidate is judged again: after bus-off, after restricted operation, (R373, R374). -/
def State.canJudge (s : State) (n : Nat) : State :=
  ((List.range 32).foldl (fun (s : State) b => if (s.canst n).started = some b then s else s.tbJudge n b) s).headJudgeCan n

/-- The bus is idle: the operation mode asked for takes effect (R374). -/
def State.canIdle (s : State) (n : Nat) : State :=
  let was := s.flag (F.CAN_STAT_RESTRICTED n)
  let now := s.get (F.CAN_CTRL_MODE n) == 1 || s.sup.st == .dusk
  let s := (s.set (F.CAN_STAT_RESTRICTED n) (b2n now)).set (F.CAN_STAT_INTEGRATED n) 1
  if was && !now then s.canJudge n else s

/-! ### Reception (R362 to R366) -/

/-- A filter element's three words. -/
def State.filterWord (s : State) (n e i : Nat) : Nat := s.rdLe (canAddr n (12 * e + 4 * i)) 4
/-- A damaged line of the filter list disables its elements (R377). -/
def State.filterOk (s : State) (n e : Nat) : Bool := !(s.poisoned (canAddr n (12 * e))) && !(s.poisoned (canAddr n (12 * e + 11)))

/-- An element matches an identifier (R363). -/
def State.filterHit (s : State) (n e id : Nat) (xtd : Bool) : Bool :=
  let w0 := s.filterWord n e 0
  let w1 := s.filterWord n e 1
  let m := if xtd then 2 ^ 29 else 2 ^ 11
  let a := w0 % m
  let b := w1 % m
  let i := id % m
  s.filterOk n e && w0.testBit 29 == xtd &&
    (match w0 / 2 ^ 30 with
     | 1 => decide (a ≤ i ∧ i ≤ b)
     | 2 => i == a || i == b
     | 3 => (i &&& b) == (a &&& b)
     | _ => false)

/-- The first element that matches. -/
def State.filterFor (s : State) (n id : Nat) (xtd : Bool) : Option Nat := (List.range 256).find? fun e => s.filterHit n e id xtd

/-- The address of an element's latch buffer: 160 bytes each from the top of the RAM downward (R361). -/
def State.latchAddr (s : State) (n e : Nat) : Nat :=
  let k := ((List.range e).filter fun i => (s.filterWord n i 2).testBit 23).length
  canAddr n (0x4000 - 160 * (k + 1))

/-- The item is written into the shadow half, which becomes current (R366). -/
def State.canLatch (s : State) (n e : Nat) (it : Item) : State :=
  let c := s.canst n
  let h := !(tget boolD c.half e)
  let s := s.wrBytes (s.latchAddr n e + (if h then 80 else 0)) (padTo 80 it.data)
  let s := s.setCan n { c with half := tput boolD c.half e h, latched := if c.latched.contains e then c.latched else e :: c.latched }
  (s.presNew 3 (n * 256 + e)).offerItem 3 (n * 256 + e) it

/-- CAN_FRAME_RX (R357, R363, R364). -/
def canFrameRx (n : Nat) (f : CanFrame) (s : State) : State :=
  if !(s.canOn n) || s.canBusOff n then s else
  let s := s.canIdle n
  let c := s.canst n
  let r := if c.recv = 0 then 0 else if c.recv ≤ 127 then c.recv - 1 else 119 + Config.freePick s.freeCtr % 9
  let s := if s.flag (F.CAN_STAT_RESTRICTED n) then s else
    let s := if 127 < c.recv then s.free else s
    let s := ((s.setCan n { c with recv := r }).set (F.CAN_ECR_REC n) r).set (F.CAN_ECR_RP n) 0
    if 127 < c.recv ∧ c.tec ≤ 127 ∧ s.get (F.CAN_STAT_ESTATE n) = 1 then (s.set (F.CAN_STAT_ESTATE n) 0).raise (canSrc n 4) else s
  if f.rtr then s.canc n 4 else
  let s := s.canc n 0
  match s.filterFor n f.id f.xtd with
  | none => s.canc n 1
  | some e =>
    let w1 := s.filterWord n e 1
    let w2 := s.filterWord n e 2
    let act := w1 / 2 ^ 29
    if act = 0 then s else
    let len := dlcLen f.fdf f.dlc
    let idw := f.id % 2 ^ (if f.xtd then 29 else 11) + b2n f.xtd * 2 ^ 29 + b2n f.fdf * 2 ^ 30 + b2n f.brs * 2 ^ 31
    let it := s.item (leBytes 4 idw ++ leBytes 8 s.stamp ++ [BitVec.ofNat 8 len, BitVec.ofNat 8 (b2n f.esi), BitVec.ofNat 8 e, BitVec.ofNat 8 n]
      ++ padTo len f.data)
    let s := if w2.testBit 23 then s.canLatch n e it else s
    if act = 1 ∨ act = 2 ∨ act = 3 then
      let g := if act = 3 then s.qgeo (w2 / 2 ^ 24) else s.rxq n (act - 1)
      if g.esize < len + 24 then ((s.canc n 2).raise (canSrc n 6)).report .CAN_OVERSIZE (srcCan n) [n, e, idw]
      else
        let q := s.qCommitItem g 0 it
        if q.2 then q.1 else (q.1.canc n 3).raise (canSrc n 6)
    else s

/-- CAN_RXQ_RELEASE (R365): a write of CAN_RXQm_CTRL by a pair. -/
def canRxqRelease (who n m : Nat) (v : Word) (s : State) : State :=
  if !(s.canFitted n) || !s.alive then s else
  let g := s.rxq n m
  let bit (f : Field) : Bool := fieldGet v f.lo f.w == 1
  let s := if bit (F.CAN_RXQ_CTRL_COMMIT n m) then s.inc g.REFUSED else s
  if bit (F.CAN_RXQ_CTRL_RELEASE n m) then s.qReleaseSw g (0x108 + who) else s

/-! ### Transmit buffers (R367, R368) -/

/-- A descriptor obeys R367. -/
def descOk (d : List Byte) : Bool :=
  let idw := fieldLe d 0 4
  let len := fieldLe d 12 1
  let fdf := idw.testBit 30
  (!(idw.testBit 31) || fdf) && (decide (len ≤ 8) || (fdf && [12, 16, 20, 24, 32, 48, 64].contains len))
    && decide (fieldLe d 13 1 < 2) && fieldLe d 14 2 == 0

/-- CAN_TXREQ (R368). -/
def canTxreq (n : Nat) (v : Word) (s : State) : State :=
  if !(s.canOn n) then s else
  (List.range 32).foldl (fun (s : State) b =>
    if v.getLsbD b && s.tbMode n b == 0 && !(s.tbPending n b) then
      if descOk (s.tbDesc n b) then s.tbPend n b none (crc32c (s.tbBytes n b)) s.stamp else (s.canc n 8).raise (canSrc n 7)
    else s) s

/-- A supply-mode or bound-mode buffer takes data, with the check and the stamp they carry; content not yet started is replaced (R368). -/
def State.tbLoad (s : State) (n b : Nat) (it : Item) (launch : Option Nat) : State :=
  let s := if s.tbPending n b then s.canc n 6 else s
  (s.wrBytes (tbAddr n b + 16) it.data).tbPend n b launch it.chk it.stamp

/-- CAN_SUPPLY_ITEM (R368). -/
def canSupplyItem (n b : Nat) (s : State) : State :=
  let g := s.qgeo (s.get (F.CAN_TBCFG_QUEUE n b))
  if !(s.canOn n) || s.tbMode n b != 1 || (s.canst n).started == some b || qLevel g (s.qst g) == 0 then s else
  let r := s.qTakeHw g
  match r.2 with
  | none => (r.1.canc n 9).raise (canSrc n 7)
  | some it => if it.data.length ≠ r.1.tbLen n b then (r.1.canc n 8).raise (canSrc n 7) else r.1.tbLoad n b it none

/-- A release reaches a bound buffer (R368, R376). -/
def State.tbRelease (s : State) (n b : Nat) (it : Item) (launch : Option Nat) : State :=
  let c := s.canst n
  if c.started = some b then s.setCan n { c with next := tput noneD c.next b (some (it, launch)) } else s.tbLoad n b it launch

/-- The output instant of cycle group `g` releases the bound buffers of its output groups (R368). -/
def State.canRelease (s : State) (g : Nat) : State :=
  (List.range 6).foldl (fun (s : State) n =>
    if !(s.canOn n) then s else
    (List.range 32).foldl (fun (s : State) b =>
      let k := s.get (F.CAN_TBCFG_OGRP n b)
      if s.tbMode n b = 2 ∧ s.flag (F.TVL_OGRP_EN k) ∧ s.get (F.TVL_OGRP_CGRP k) = g then
        let d := s.tbDesc n b
        let data := sliceB (image (s.grp g).voted (s.outBytes g)) (s.get (F.CAN_TBCFG_SRC_OFS8 n b) * 8) (s.tbLen n b)
        s.tbRelease n b (s.item data) (if launchEn d then some (s.clk.t + fieldLe d 4 4 * usUt) else none)
      else s) s) s

/-! ### Arbitration (R369, R370, R314) -/

/-- The head item of the transmit queue, and whether its transit check passes. -/
def State.txqHead (s : State) (n : Nat) : Option (List Byte × Bool) :=
  match s.txq n with
  | some g => if qLevel g (s.qst g) = 0 then none else some (s.qPayload g (s.qst g).rd, s.qItemOk g (s.qst g).rd)
  | none => none

/-- The head item of the transmit queue is released. -/
def State.txqPop (s : State) (n : Nat) : State := match s.txq n with | some g => s.qPop g | none => s

/-- A candidate's descriptor. -/
def State.candDesc (s : State) (n b : Nat) : List Byte :=
  if b < 32 then s.tbDesc n b else match s.txqHead n with | some (d, _) => d.take 16 | none => []

/-- A candidate is dropped: its buffer ceases to be pending, or its item is released. -/
def State.candDrop (s : State) (n b : Nat) : State := if b < 32 then s.tbDrop n b else s.txqPop n

/-- The pending buffers and the queue head. -/
def State.cands (s : State) (n : Nat) : List Nat :=
  (List.range 32).filter (fun b => s.tbPending n b) ++ (if (s.txqHead n).isSome then [32] else [])

/-- The candidates of R370: those that no launch time holds. -/
def State.rivals (s : State) (n : Nat) : List Nat := (s.cands n).filter fun b => (s.canst n).ready.contains b

/-- The order of R370, as a number: base identifier, format, extension, buffer. -/
def State.candKey (s : State) (n b : Nat) : Nat :=
  let idw := fieldLe (s.candDesc n b) 0 4
  let x := idw.testBit 29
  let id := idw % 2 ^ 29
  (((if x then id / 2 ^ 18 else id % 2048) * 2 + b2n x) * 2 ^ 18 + (if x then id % 2 ^ 18 else 0)) * 64 + b

/-- The smallest candidate of a list under a key. -/
def minBy (f : Nat → Nat) : List Nat → Option Nat
  | [] => none
  | a :: r => match minBy f r with
    | some b => if f b < f a then some b else some a
    | none => some a

/-- A candidate passes its transit check (R163, R370): over descriptor and data in software mode, over the data as they came otherwise. -/
def State.candOk (s : State) (n b : Nat) : Bool :=
  if b < 32 then crc32c ((s.tbBytes n b).drop (if s.tbMode n b = 0 then 0 else 16)) == tget natD (s.canst n).tchk b
  else match s.txqHead n with | some (_, ok) => ok | none => false

/-- A candidate's descriptor obeys R367, and the item has the data it names. -/
def State.candDescOk (s : State) (n b : Nat) : Bool :=
  descOk (s.candDesc n b) &&
    (decide (b < 32) || (match s.txqHead n with | some (d, _) => decide (16 + fieldLe d 12 1 ≤ d.length) | none => false))

/-- A candidate whose transit check fails is released (R163, R370). -/
def State.candFail (s : State) (n b : Nat) : State :=
  let s := if b < 32 then (s.tbDrop n b).transitFail (srcCan n) b (tget natD (s.canst n).stamps b)
    else match s.txq n with | some g => (s.qDiscard g (s.qst g).rd).qPop g | none => s
  (s.canc n 9).raise (canSrc n 7)

/-- The winning candidate is found; those that may not start are dropped (R370). -/
def State.canPick (s : State) (n : Nat) : Nat → State × Option Nat
  | 0 => (s, none)
  | k + 1 =>
    match minBy (s.candKey n) (s.rivals n) with
    | none => (s, none)
    | some b =>
      if !(s.candOk n b) then State.canPick (s.candFail n b) n k
      else if !(s.candDescOk n b) then State.canPick (((s.candDrop n b).canc n 8).raise (canSrc n 7)) n k
      else if b < 32 ∧ s.tbMode n b = 2 ∧ !(s.holds (s.get (F.CAN_TBCFG_OGRP n b))) then State.canPick ((s.candDrop n b).canc n 7) n k
      else (s, some b)

/-- The content that waited for the buffer's frame to end makes the buffer pending (R376). -/
def State.tbNext (s : State) (n b : Nat) : State :=
  let c := s.canst n
  match tget noneD c.next b with
  | some (it, l) => (s.setCan n { c with next := tput noneD c.next b none }).tbLoad n b it l
  | none => s

/-- A transmission ends without success: retried, or reported cancelled after a late request (R371). -/
def State.canFails (s : State) (n : Nat) : State :=
  let c := s.canst n
  match c.started with
  | some b =>
    let s := s.setCan n { c with started := none, lateCancel := false }
    let s := if c.lateCancel ∧ b < 32 then ((s.tbDrop n b).setBit (F.CAN_TXCANC_W n) b).raise (canSrc n 3) else s
    if b < 32 then s.tbNext n b else s
  | none => s

/-- CAN_ARBITRATION (R360, R370, R371): a start-of-frame opportunity; or, with `won` false while a frame runs, its loss. -/
def canArbitration (n : Nat) (won : Bool) (tdcv : Nat) (s : State) : State :=
  if !(s.canOn n) || s.canBusOff n then s
  else if (s.canst n).started.isSome then (if won then s else s.canFails n)
  else
    let s := s.canIdle n
    if s.flag (F.CAN_STAT_RESTRICTED n) || s.sup.st == .dusk then s else
    let r := s.canPick n 4200
    match r.2 with
    | none => r.1
    | some b =>
      let s := r.1
      if !won then s else
      let idw := fieldLe (s.candDesc n b) 0 4
      let s := s.setCan n { s.canst n with started := some b, lateCancel := false }
      if idw.testBit 31 ∧ s.flag (F.CAN_TDC_EN n) then
        let s := s.set (F.CAN_TDC_TDCV n) tdcv
        if 127 < tdcv % 128 + s.get (F.CAN_TDC_TDCO n) then s.canc n 15 else s
      else s

/-- CAN_TX_COMPLETE (R370). -/
def canTxComplete (n : Nat) (s : State) : State :=
  let c := s.canst n
  match c.started with
  | some b =>
    if !(s.canOn n) then s else
    let bytes := if b < 32 then s.tbBytes n b else match s.txqHead n with | some (d, _) => d.take (16 + fieldLe d 12 1) | none => []
    let s := ((s.emit .can n b bytes).canc n 5).raise (canSrc n 2)
    let t := c.tec - 1
    let s := (s.setCan n { c with started := none, lateCancel := false, tec := t }).set (F.CAN_ECR_TEC n) t
    let s := if 127 < c.tec ∧ t ≤ 127 ∧ c.recv ≤ 127 ∧ s.get (F.CAN_STAT_ESTATE n) = 1 then
        (s.set (F.CAN_STAT_ESTATE n) 0).raise (canSrc n 4) else s
    let s := if b < 32 then
        let s := (s.tbDrop n b).setBit (F.CAN_TXDONE_W n) b
        let s := if c.lateCancel then s.setBit (F.CAN_TXLATE_W n) b else s
        s.tbNext n b
      else s.txqPop n
    s.canIdle n
  | none => s

/-- CAN_TXCAN (R371). -/
def canTxcan (n : Nat) (v : Word) (s : State) : State :=
  if !(s.canOn n) then s else
  (List.range 32).foldl (fun (s : State) b =>
    if v.getLsbD b && s.tbPending n b then
      if (s.canst n).started = some b then s.setCan n { s.canst n with lateCancel := true }
      else ((s.tbDrop n b).setBit (F.CAN_TXCANC_W n) b).raise (canSrc n 3)
    else s) s

/-- The pointers of a queue's items behind its first `k`. -/
def qBehind (g : QGeo) (c : QSt) (k : Nat) : List Nat :=
  ((List.range (qHeld g c)).map fun i => (c.rd + i) % (2 * g.depth)).filter (fun p => !(c.holes.contains p)) |>.drop k

/-- FLUSH (R369). -/
def canFlush (n : Nat) (s : State) : State :=
  match s.txq n with
  | some g =>
    if !(s.canFitted n) || !s.alive then s else
    let c := s.qst g
    let gone := qBehind g c (if (s.canst n).started = some 32 then 1 else 0)
    let s := gone.foldl (fun (s : State) _ => s.canc n 6) s
    s.qPut g (qSkip g (2 * g.depth) { c with holes := gone ++ c.holes })
  | none => s

/-! ### Errors, bus-off, restricted operation (R372 to R374) -/

/-- Bus-off is entered (R373). -/
def State.canGoOff (s : State) (n : Nat) : State :=
  let c := s.canst n
  let s := s.set (F.CAN_TXHELD_W n) (s.get (F.CAN_TXPEND_W n))
  let top := minBy (s.candKey n) (s.rivals n)
  let idw := match top with | some b => fieldLe (s.candDesc n b) 0 4 | none => 0
  let s := s.report .CAN_BUSOFF (srcCan n) [n, c.tec, c.recv, idw, top.getD 0xFFFFFFFF]
  let s := (s.set (F.CAN_STAT_ESTATE n) 2).set (F.CAN_STAT_RECOV_CNT n) 0
  if s.flag (F.CAN_CFG_AUTO_RECOVER n) then s.set (F.CAN_STAT_ESTATE n) 3 else s

/-- CAN_ERROR (R372 to R374). `kind` + 1 is the code of CAN_STAT.LEC; `add` is what ISO 11898-1 adds to the counter concerned. -/
def canError (n kind : Nat) (tx : Bool) (add : Nat) (s : State) : State :=
  if !(s.canOn n) || s.canBusOff n then s else
  let s := s.set (F.CAN_STAT_LEC n) (kind + 1)
  let s := s.canc n (match kind with | 0 => 11 | 1 => 12 | 2 => 13 | 5 => 14 | _ => 10)
  if s.flag (F.CAN_STAT_RESTRICTED n) then (s.set (F.CAN_STAT_INTEGRATED n) 0).canFails n
  else
    let c := s.canst n
    let c := if tx then { c with tec := c.tec + add } else { c with recv := min 255 (c.recv + add) }
    let s := s.setCan n c
    let s := ((s.set (F.CAN_ECR_TEC n) c.tec).set (F.CAN_ECR_REC n) (c.recv % 128)).set (F.CAN_ECR_RP n) (b2n (decide (128 ≤ c.recv)))
    let s := if tx then s.canFails n else s
    if 255 < c.tec then ((s.canFails n).canGoOff n).raise (canSrc n 4)
    else if (127 < c.tec ∨ 127 < c.recv) ∧ s.get (F.CAN_STAT_ESTATE n) = 0 then (s.set (F.CAN_STAT_ESTATE n) 1).raise (canSrc n 4)
    else s

/-- RECOVER (R373). -/
def canRecover (n : Nat) (s : State) : State :=
  if s.canOn n && s.get (F.CAN_STAT_ESTATE n) == 2 then s.set (F.CAN_STAT_ESTATE n) 3 else s

/-- CAN_BUSOFF_END (R373). -/
def canBusoffEnd (n : Nat) (s : State) : State :=
  if !(s.canOn n) || s.get (F.CAN_STAT_ESTATE n) != 3 then s else
  let s := s.setCan n { s.canst n with tec := 0, recv := 0 }
  let s := ((s.set (F.CAN_ECR_TEC n) 0).set (F.CAN_ECR_REC n) 0).set (F.CAN_ECR_RP n) 0
  let s := ((s.set (F.CAN_STAT_ESTATE n) 0).set (F.CAN_STAT_RECOV_CNT n) 128).set (F.CAN_TXHELD_W n) 0
  (((s.raise (canSrc n 4)).raise (canSrc n 5)).report .CAN_BUSOFF_END (srcCan n) [n]).canJudge n

/-- CAN_MODE_WRITE (R374): the mode written takes effect at the next bus idle. -/
def canModeWrite (n : Nat) (v : Word) (s : State) : State :=
  let m := v.toNat % 4
  if !(s.canFitted n) || !s.alive || decide (2 ≤ m) then s else s.set (F.CAN_CTRL_MODE n) m

/-- FILTER_LINE_RESTORE (R377): 64-byte line `line` of the message RAM. -/
def filterLineRestore (n line : Nat) (s : State) : State :=
  let a := canAddr n (64 * line)
  if !(s.canFitted n) || !s.alive || !(s.poison.contains (a / 64)) || decide (0x1600 ≤ 64 * line) then s else
  let desc (o : Nat) : Bool := decide (o < 0xC00) || (decide ((o - 0xC00) % 80 < 16) && s.tbMode n ((o - 0xC00) / 80) != 0)
  let s := (List.range 64).foldl (fun (s : State) i =>
    let o := 64 * line + i
    if desc o then s.wr8 (canAddr n o) (tget byteD s.cfg.canRam (n * 16384 + o)) else s) s
  { s with poison := s.poison.filter (· ≠ a / 64) }

/-- CAN_CNT_CLR. -/
def canCntClr (n : Nat) (s : State) : State := s.zeroRegs fun o => decide (0xA0020 + n * 0x1000 ≤ o ∧ o < 0xA0040 + n * 0x1000)

/-- The controllers follow a change of the module state (R358): off in Config and Midnight, restricted in Dusk; so do the safety layer's
producers (R339). -/
def State.canFollow (s : State) : State :=
  State.ixFollow <| (List.range 6).foldl (fun (s : State) n =>
    if !(s.canFitted n) then s
    else if s.sup.st = .dusk then s.set (F.CAN_STAT_RESTRICTED n) 1
    else if s.canOn n then (if s.canBusOff n then s else s.canJudgeHeld n)
    else (s.setCan n { s.canst n with started := none, lateCancel := false }).set (F.CAN_STAT_INTEGRATED n) 0) s

/-! ### Launch (R314, R315) -/

/-- A held CAN entry's launch time comes: judged, it competes at the next opportunity. -/
def State.canLaunch (s : State) (n b : Nat) : State :=
  if !(s.canOn n) || s.canBusOff n || !((s.cands n).contains b) || (s.canst n).ready.contains b then s
  else if b < 32 ∧ s.tbMode n b = 2 then
    match tget noneD (s.canst n).launch b with | some t => (s.advance t).tbJudge n b | none => s
  else
    let s := s.advanceTod (stampUnits (launchStamp (s.candDesc n b)))
    if b < 32 then s.tbJudge n b else s.headJudgeCan n

/-- LAUNCH (R314). -/
def launch (h : Held) (s : State) : State :=
  if !s.alive || s.sup.st == .dusk then s else
  match h with
  | .ethQueue q => s.headLaunch q
  | .telegram t => s.pdLaunch t
  | .canBuffer n b => s.canLaunch n b
  | .canQueue n => s.canLaunch n 32

/-- Every held entry is judged again against a new time of day (R315). -/
def State.rejudge (s : State) : State :=
  let s := (List.range 64).foldl (fun (s : State) q => match s.head q with | some h => if h.ready then s else s.headJudge q | none => s) s
  (List.range 6).foldl (fun (s : State) n =>
    if s.canOn n && !(s.canBusOff n) then s.canJudgeHeld n else s) s

/-- The time of day is stepped, and held entries follow (R304, R315). -/
def State.setTod (s : State) (new : Nat) : State := (s.stepTod new).rejudge

/-! ### The commands -/

/-- LAUNCH. -/
def execLaunch (h : Held) (s : State) : Host.Outcome State Fault Refusal := .next (launch h s)
/-- CAN_FRAME_RX. -/
def execCanFrameRx (n : Fin 6) (f : CanFrame) (s : State) : Host.Outcome State Fault Refusal := .next (canFrameRx n f s)
/-- CAN_TXREQ. -/
def execCanTxreq (n : Fin 6) (v : Word) (s : State) : Host.Outcome State Fault Refusal := .next (canTxreq n v s)
/-- CAN_TXCAN. -/
def execCanTxcan (n : Fin 6) (v : Word) (s : State) : Host.Outcome State Fault Refusal := .next (canTxcan n v s)
/-- FLUSH. -/
def execCanFlush (n : Fin 6) (s : State) : Host.Outcome State Fault Refusal := .next (canFlush n s)
/-- RECOVER. -/
def execCanRecover (n : Fin 6) (s : State) : Host.Outcome State Fault Refusal := .next (canRecover n s)
/-- CAN_MODE_WRITE. -/
def execCanModeWrite (n : Fin 6) (v : Word) (s : State) : Host.Outcome State Fault Refusal := .next (canModeWrite n v s)
/-- CAN_SUPPLY_ITEM. -/
def execCanSupplyItem (n : Fin 6) (b : Fin 32) (s : State) : Host.Outcome State Fault Refusal := .next (canSupplyItem n b s)
/-- CAN_RXQ_RELEASE. -/
def execCanRxqRelease (who : Fin 4) (n : Fin 6) (m : Fin 2) (v : Word) (s : State) : Host.Outcome State Fault Refusal :=
  .next (canRxqRelease who n m v s)
/-- CAN_ARBITRATION. -/
def execCanArbitration (n : Fin 6) (won : Bool) (tdcv : Nat) (s : State) : Host.Outcome State Fault Refusal :=
  .next (canArbitration n won tdcv s)
/-- CAN_TX_COMPLETE. -/
def execCanTxComplete (n : Fin 6) (s : State) : Host.Outcome State Fault Refusal := .next (canTxComplete n s)
/-- CAN_ERROR. -/
def execCanError (n : Fin 6) (kind : Fin 6) (tx : Bool) (add : Fin 9) (s : State) : Host.Outcome State Fault Refusal :=
  .next (canError n kind tx add s)
/-- CAN_BUSOFF_END. -/
def execCanBusoffEnd (n : Fin 6) (s : State) : Host.Outcome State Fault Refusal := .next (canBusoffEnd n s)
/-- FILTER_LINE_RESTORE. -/
def execFilterLineRestore (n : Fin 6) (line : Fin 256) (s : State) : Host.Outcome State Fault Refusal :=
  .next (filterLineRestore n line s)
/-- CAN_CNT_CLR. -/
def execCanCntClr (n : Fin 6) (s : State) : Host.Outcome State Fault Refusal := .next (canCntClr n s)

end Sys2Proof.Machine
end

