-- ==== Sys2Proof/Machine/Crypto.lean ====
section
/-!
DEFINITION. The cryptographic functions that the spec names (R450, R458): SHA-256 and SHA-512 of FIPS 180-4, HMAC of RFC 2104, and Ed25519
verification of RFC 8032, from general knowledge of those standards (PRESUMED, log 15).
-/
namespace Sys2Proof.Machine

/-! ### The SHA-2 family (FIPS 180-4) -/

/-- Round constants of FIPS 180-4: the fractions of the cube roots of the first primes, 64 bits each. -/
def shaK0 : List Nat :=
  [0x428a2f98d728ae22, 0x7137449123ef65cd, 0xb5c0fbcfec4d3b2f, 0xe9b5dba58189dbbc,
   0x3956c25bf348b538, 0x59f111f1b605d019, 0x923f82a4af194f9b, 0xab1c5ed5da6d8118,
   0xd807aa98a3030242, 0x12835b0145706fbe, 0x243185be4ee4b28c, 0x550c7dc3d5ffb4e2,
   0x72be5d74f27b896f, 0x80deb1fe3b1696b1, 0x9bdc06a725c71235, 0xc19bf174cf692694,
   0xe49b69c19ef14ad2, 0xefbe4786384f25e3, 0x0fc19dc68b8cd5b5, 0x240ca1cc77ac9c65,
   0x2de92c6f592b0275, 0x4a7484aa6ea6e483, 0x5cb0a9dcbd41fbd4, 0x76f988da831153b5,
   0x983e5152ee66dfab, 0xa831c66d2db43210, 0xb00327c898fb213f, 0xbf597fc7beef0ee4,
   0xc6e00bf33da88fc2, 0xd5a79147930aa725, 0x06ca6351e003826f, 0x142929670a0e6e70,
   0x27b70a8546d22ffc, 0x2e1b21385c26c926, 0x4d2c6dfc5ac42aed, 0x53380d139d95b3df,
   0x650a73548baf63de, 0x766a0abb3c77b2a8, 0x81c2c92e47edaee6, 0x92722c851482353b]

/-- Round constants of FIPS 180-4: the fractions of the cube roots of the first primes, 64 bits each. -/
def shaK1 : List Nat :=
  [0xa2bfe8a14cf10364, 0xa81a664bbc423001, 0xc24b8b70d0f89791, 0xc76c51a30654be30,
   0xd192e819d6ef5218, 0xd69906245565a910, 0xf40e35855771202a, 0x106aa07032bbd1b8,
   0x19a4c116b8d2d0c8, 0x1e376c085141ab53, 0x2748774cdf8eeb99, 0x34b0bcb5e19b48a8,
   0x391c0cb3c5c95a63, 0x4ed8aa4ae3418acb, 0x5b9cca4f7763e373, 0x682e6ff3d6b2b8a3,
   0x748f82ee5defb2fc, 0x78a5636f43172f60, 0x84c87814a1f0ab72, 0x8cc702081a6439ec,
   0x90befffa23631e28, 0xa4506cebde82bde9, 0xbef9a3f7b2c67915, 0xc67178f2e372532b,
   0xca273eceea26619c, 0xd186b8c721c0c207, 0xeada7dd6cde0eb1e, 0xf57d4f7fee6ed178,
   0x06f067aa72176fba, 0x0a637dc5a2c898a6, 0x113f9804bef90dae, 0x1b710b35131c471b,
   0x28db77f523047d84, 0x32caab7b40c72493, 0x3c9ebe0a15c9bebc, 0x431d67c49c100d4c,
   0x4cc5d4becb3e42b6, 0x597f299cfc657e2a, 0x5fcb6fab3ad6faec, 0x6c44198c4a475817]

/-- Initial hash value: the fractions of the square roots of the first primes, 64 bits each. -/
def shaH : List Nat :=
  [0x6a09e667f3bcc908, 0xbb67ae8584caa73b, 0x3c6ef372fe94f82b, 0xa54ff53a5f1d36f1,
   0x510e527fade682d1, 0x9b05688c2b3e6c1f, 0x1f83d9abfb41bd6b, 0x5be0cd19137e2179]


/-- A member of the family: bits of a word, the round constants, and the rotations of its four functions; the third number of a small one is a
shift. -/
structure Sha where
  w : Nat
  ks : List Nat
  big0 : Nat × Nat × Nat
  big1 : Nat × Nat × Nat
  small0 : Nat × Nat × Nat
  small1 : Nat × Nat × Nat
  deriving DecidableEq, Repr

/-- SHA-256 takes the first 64 constants, cut to 32 bits, and SHA-512 all of them. -/
def sha256Fam : Sha := ⟨32, ((shaK0 ++ shaK1).take 64).map (· / 2 ^ 32), (2, 13, 22), (6, 11, 25), (7, 18, 3), (17, 19, 10)⟩
def sha512Fam : Sha := ⟨64, shaK0 ++ shaK1, (28, 34, 39), (14, 18, 41), (1, 8, 7), (19, 61, 6)⟩

/-- Rotation right in words of `w` bits. -/
def rotr (w n x : Nat) : Nat := x / 2 ^ n + x % 2 ^ n * 2 ^ (w - n)
/-- Three rotations, or two and a shift. -/
def Sha.rots (f : Sha) (r : Nat × Nat × Nat) (x : Nat) : Nat := rotr f.w r.1 x ^^^ rotr f.w r.2.1 x ^^^ rotr f.w r.2.2 x
def Sha.shifts (f : Sha) (r : Nat × Nat × Nat) (x : Nat) : Nat := rotr f.w r.1 x ^^^ rotr f.w r.2.1 x ^^^ x / 2 ^ r.2.2

/-- The rounds over the constants: the next 16 words of the schedule, and the working variables a to h. -/
def Sha.rounds (f : Sha) : List Nat → List Nat → List Nat → List Nat
  | k :: ks, w0 :: ws, [a, b, c, d, e, g, h, i] =>
    let m := 2 ^ f.w
    let t := i + f.rots f.big1 e + ((e &&& g) ^^^ ((m - 1 - e) &&& h)) + k + w0
    let u := f.rots f.big0 a + ((a &&& b) ^^^ (a &&& c) ^^^ (b &&& c))
    let next := (f.shifts f.small1 (ws.getD 13 0) + ws.getD 8 0 + f.shifts f.small0 (ws.getD 0 0) + w0) % m
    f.rounds ks (ws ++ [next]) [(t + u) % m, a, b, c, (d + t) % m, e, g, h]
  | _, _, v => v

/-- A block of 16 words is compressed into the hash value. -/
def Sha.block (f : Sha) (v : List Nat) (b : List Byte) : List Nat :=
  let ws := (List.range 16).map fun i => fieldBe b (i * (f.w / 8)) (f.w / 8)
  (v.zip (f.rounds f.ks ws v)).map fun c => (c.1 + c.2) % 2 ^ f.w

/-- The message with its padding: a 1 bit, zeros, and its length in bits in two words. -/
def Sha.padded (f : Sha) (m : List Byte) : List Byte :=
  let b := 2 * f.w
  let n := m.length + 1 + f.w / 4
  m ++ [0x80] ++ List.replicate ((b - n % b) % b) 0 ++ beBytes (f.w / 4) (8 * m.length)

/-- The hash of a message. -/
def Sha.hash (f : Sha) (m : List Byte) : List Byte :=
  let b := 2 * f.w
  let p := f.padded m
  let v := (List.range (p.length / b)).foldl (fun v i => f.block v ((p.drop (i * b)).take b)) (shaH.map (· / 2 ^ (64 - f.w)))
  v.flatMap fun x => beBytes (f.w / 8) x

def sha256 (m : List Byte) : List Byte := sha256Fam.hash m
def sha512 (m : List Byte) : List Byte := sha512Fam.hash m

/-- HMAC-SHA-256 (RFC 2104). -/
def hmac (key msg : List Byte) : List Byte :=
  let k := padTo 64 (if 64 < key.length then sha256 key else key)
  sha256 ((k.map (· ^^^ 0x5C)) ++ sha256 ((k.map (· ^^^ 0x36)) ++ msg))

/-! ### Ed25519 (RFC 8032) -/

/-- The field's prime, the order of the base point, and the curve's constant. -/
def edP : Nat := 2 ^ 255 - 19
def edL : Nat := 2 ^ 252 + 27742317777372353535851937790883648493
def edD : Nat := 37095705934669439343138083508754565189542113879843219016388785533085940283555

/-- The bits of a number below 2^256, the highest first. -/
def edBits (n : Nat) : List Bool := (List.range 256).reverse.map n.testBit

/-- A power modulo the prime. -/
def edPow (x e : Nat) : Nat := (edBits e).foldl (fun a b => if b then a * a % edP * x % edP else a * a % edP) 1

/-- A point in extended coordinates: X, Y, Z and T, with x = X/Z, y = Y/Z and xy = T/Z. -/
structure EdPoint where
  x : Nat
  y : Nat
  z : Nat
  t : Nat
  deriving DecidableEq, Repr

def EdPoint.zero : EdPoint := ⟨0, 1, 1, 0⟩

/-- The sum of two points. -/
def EdPoint.add (p q : EdPoint) : EdPoint :=
  let a := (p.y + edP - p.x) * (q.y + edP - q.x) % edP
  let b := (p.y + p.x) * (q.y + q.x) % edP
  let c := 2 * p.t * q.t % edP * edD % edP
  let d := 2 * p.z * q.z % edP
  let e := b + edP - a
  let f := d + edP - c
  let g := d + c
  let h := b + a
  ⟨e * f % edP, g * h % edP, f * g % edP, e * h % edP⟩

def EdPoint.neg (p : EdPoint) : EdPoint := ⟨edP - p.x, p.y, p.z, edP - p.t⟩

/-- The multiple of a point. -/
def EdPoint.mul (n : Nat) (p : EdPoint) : EdPoint :=
  (edBits n).foldl (fun q b => if b then (q.add q).add p else q.add q) EdPoint.zero

/-- The point that 32 bytes encode: y, and the lowest bit of x. -/
def edPoint (b : List Byte) : Option EdPoint :=
  let n := leNat b
  let y := n % 2 ^ 255
  let u := (y * y + edP - 1) % edP
  let v := (edD * y % edP * y + 1) % edP
  let w := u * (v * v % edP * v % edP) % edP
  let x := w * edPow (w * (v * v % edP * v % edP * v) % edP) ((edP - 5) / 8) % edP
  let r := v * x % edP * x % edP
  let root := if r = u then some x else if (r + u) % edP = 0 then some (x * edPow 2 ((edP - 1) / 4) % edP) else none
  match root with
  | some x =>
    let odd := decide (2 ^ 255 ≤ n)
    if edP ≤ y ∨ (x = 0 ∧ odd) then none
    else
      let x := if (x % 2 = 1) = odd then x else edP - x
      some ⟨x, y, 1, x * y % edP⟩
  | none => none

/-- The base point: y = 4/5, x even. -/
def edBase : EdPoint :=
  let x := 15112221349535400772501151409588531511454012693041857206046113283949847762202
  let y := 46316835694926478169428394003475163141307993866256225615783033603165251855960
  ⟨x, y, 1, x * y % edP⟩

/-- Verification of RFC 8032 5.1.7, with the group equation that it states: 8 S B = 8 R + 8 k A. -/
def ed25519 (key msg sig : List Byte) : Bool :=
  let rb := sig.take 32
  let sv := leNat (sig.drop 32)
  key.length == 32 && sig.length == 64 && decide (sv < edL) &&
    match edPoint key, edPoint rb with
    | some a, some r =>
      let k := leNat (sha512 (rb ++ key ++ msg)) % edL
      let q := ((EdPoint.mul sv edBase).add ((EdPoint.mul k a).neg)).add r.neg
      let o := EdPoint.mul 8 q
      o.x % edP == 0 && o.y % edP == o.z % edP
    | _, _ => false

end Sys2Proof.Machine
end

