-- ==== Sys2Proof/Machine/Mode.lean ====
section
/-!
DEFINITION. Module states (R433 to R436), packets leaving the supervisor (R441 to R446), and the entry to the Dusk state by
the hardware path of R65.
-/
namespace Sys2Proof.Machine

/-! ### State reports (R433) -/

/-- The active image set is marked damaged (R437). -/
def State.imgDamaged (s : State) : Bool :=
  match s.sup.activeSet with
  | some n => (tget imageSetD s.sup.sets n).damaged
  | none => false


/-- FAULT_N is asserted (R494, R507): without power, during a Dawn sequence, and while the module fault latch is set. -/
def State.faultN (s : State) : Bool := s.sup.faultLatch || s.sup.st == .dawn || s.sup.st == .night

/-- The state-flags byte. -/
def State.sflags (s : State) : Nat :=
  b2n s.sup.faultLatch + 2 * b2n s.sealed + 4 * b2n s.sup.fromDusk + 8 * b2n s.imgDamaged + 16 * b2n (!s.cyc.forces.isEmpty)
    + 32 * b2n s.sup.cfgSess.isSome + 64 * b2n s.sup.longOp.isSome

/-! ### Packets (R443, R449, R450) -/

/-- A packet's bytes: header, payload, authentication block of a tagged reply, trailer. -/
def State.packetBytes (s : State) (k : Packet) : List Byte :=
  let head := [BitVec.ofNat 8 k.opc, BitVec.ofNat 8 k.flags] ++ leBytes 2 k.seq ++ leBytes 2 k.payload.length
    ++ [BitVec.ofNat 8 k.src, BitVec.ofNat 8 k.status]
  let body := head ++ k.payload
  let body := match k.counter with
    | some c => body ++ leBytes 4 c ++ (hmac s.sup.hmacKey (body ++ leBytes 4 c)).take 16
    | none => body
  body ++ leBytes 4 (crc32c body)

/-- SREADY announces a packet that has become waiting (R440): 1 us low, then high. -/
def State.announce (s : State) : State :=
  if s.sup.sready then s.emit .ready 0 1 [] else s

/-- A packet waits at the SCP (R441): beyond 16 the oldest unsolicited notice is dropped and counted. -/
def State.scpQueue (s : State) (k : Packet) (unsol : Bool) : State :=
  let w := s.sup.waiting ++ [(k, unsol)]
  let s : State := if w.length ≤ 16 then { s with sup := { s.sup with waiting := w } }
    else match w.find? (fun c => c.2) with
      | some d => { s with sup := { s.sup with waiting := w.erase d, dropped := s.sup.dropped + 1 } }
      | none => { s with sup := { s.sup with waiting := w } }
  s.announce

/-- An unsolicited notice (R446). -/
def State.notice (s : State) (code : Nat) (data : List Byte) : State :=
  let k : Packet := ⟨0, 2, s.sup.noticeCount % 65536, 0, 0, leBytes 2 code ++ [BitVec.ofNat 8 s.sup.st.code, BitVec.ofNat 8 s.sflags] ++ data, none⟩
  ({ s with sup := { s.sup with noticeCount := s.sup.noticeCount + 1 } }).scpQueue k true

/-- The register group of a local command port: pair Pn's, or the partition's (R453). -/
def originPort : Origin → Nat
  | .pairPort n => n
  | .partPort n => 0xF30 + n
  | _ => 0
/-- The physical address of a pair's local command port; that of a partition's port is the model's own, outside the physical map (R130). -/
def portAddr (n : Nat) : Nat := if n < 4 then 0x400D0000 + n * 0x1000 else 0x7000000000 + (n - 0xF30) * 0x1000

/-- A reply longer than one datagram leaves as fragments (R449). -/
def fragments : Nat → List Byte → List (List Byte)
  | 0, l => [l]
  | n + 1, l => if l.length ≤ 1472 then [l] else l.take 1472 :: fragments n (l.drop 1472)

/-- A final reply or notice goes to its origin (R446, R449, R453). -/
def State.deliver (s : State) (o : Origin) (k : Packet) : State :=
  match o with
  | .scp _ => s.scpQueue k false
  | .eth _ ip udp port mac =>
    (fragments 4 (s.packetBytes k)).foldl (fun (s : State) d =>
      s.emit .ethernet port 0x4444 (ethFrame (beBytes 6 mac) (s.ownMac port) none 0x0800
        (ipUdp (s.get (F.ETH_IP_W port)) ip (s.get F.ETH_CMDPORT_PORT) udp 0 false d))) s
  | .pairPort _ | .partPort _ =>
    let n := originPort o
    let b := (s.packetBytes k).take 2048
    let s := s.wrBytes (portAddr n + 0x800) b
    let s := ((s.set (F.SUP_MBSTAT_BUSY n) 0).set (F.SUP_MBSTAT_DONE n) 1).set (F.SUP_MBSTAT_RLEN n) b.length
    let s : State := { s with sup := { s.sup with portWait := s.sup.portWait - 1 } }
    match o with
    | .partPort p => (s.set F.SUP_EVT_PART p).raise 412
    | _ => s.raise (408 + n)

/-- The last request of an origin and its stored reply (R445). -/
def State.lastReq (s : State) (o : Origin) : Option LastReq := (s.sup.lasts.find? fun c => c.1 == o).map fun c => c.2
def State.setLast (s : State) (o : Origin) (l : LastReq) : State :=
  { s with sup := { s.sup with lasts := s.sup.lasts.filter (fun c => c.1 ≠ o) ++ [(o, l)] } }

/-- The SRC byte of an origin. -/
def originSrc : Origin → Nat
  | .scp n => n
  | .eth n _ _ _ _ => n
  | .pairPort n => 0xF0 + n
  | .partPort n => n
/-- The instance of R470 for an origin. -/
def originInst : Origin → Nat
  | .scp _ => 0
  | .eth _ _ _ _ _ => 1
  | _ => 2
/-- The SRC value an origin is known by: Ethernet hosts by SRC alone (R445). -/
def originKey : Origin → Origin
  | .eth n _ _ _ _ => .eth n 0 0 0 0
  | o => o

/-- The 12-byte error block (R444). -/
def State.errBlock (s : State) (section_ check index : Nat) : List Byte :=
  [BitVec.ofNat 8 s.sup.st.code, BitVec.ofNat 8 s.sflags] ++ leBytes 2 0 ++ leBytes 2 section_ ++ leBytes 2 check ++ leBytes 4 index
/-- The error block that names nothing. -/
def State.errNone (s : State) : List Byte := s.errBlock 0 0 0xFFFFFFFF

/-- The completion notice of the long operation in progress (R446), stored as its reply (R445). -/
def State.longEnd (s : State) (status : Nat) (payload : List Byte) : State :=
  match s.sup.longOp with
  | some o =>
    let s : State := { s with sup := { s.sup with longOp := none } }
    let k : Packet := ⟨o.opc, 2 + (if o.counter.isSome then 4 else 0), o.seq, originSrc o.origin, status, payload, o.counter⟩
    (s.setLast (originKey o.origin) ⟨o.seq, o.trailer, k⟩).deliver o.origin k
  | none => s

/-! ### Changes of state (R434, R239, R267) -/

/-- A transition is recorded and raised (R434, R455); `inst` tells the cause's origin, 3 for the supervisor itself. -/
def State.stateChange (s : State) (new : MState) (cause src inst : Nat) : State :=
  let old := s.sup.st
  let s : State := { s with sup := { s.sup with st := new } }
  let s := (s.report .STATE_CHANGE (srcSup inst) [old.code, new.code, cause, src]).raise 413
  if inst = 0 ∨ (new = .dusk ∧ inst = 3) ∨ new = .dawn ∨ old = .dawn then s else s.notice 2 [BitVec.ofNat 8 old.code]

/-- The TVL leaves the member set on leaving Run and Hold (R239). -/
def State.tlOff (s : State) : State :=
  if s.mstate = 0 then s else
  let s := ((s.set F.TVL_STAT_MSTATE 0).set F.TVL_STAT_DONOR 0).setMembers 0
  { s with tvl := { s.tvl with lanes := false, boundary := none, sync := Sync.none, reint := false } }

/-- Outputs and leases on leaving the Run state (R192). -/
def State.outputsRelease (s : State) : State := s.releaseAll.doSafetyOff

/-- Every pair's clocks stop (R65 steps 3 and 5). -/
def State.freezePairs (s : State) : State :=
  (List.range 4).foldl (fun (s : State) p => if s.pairFitted p then s.modPair p fun q => { q with frozen := true } else s) s

/-- A pair's prefetch buffer of the rack bridge is discarded: each unconsumed halfword counts, raises source 362 and is recorded (R389). -/
def State.pfDiscard (s : State) (p : Nat) : State :=
  match tget noneD s.lrb.pf p with
  | some b =>
    let s := b.fresh.foldl (fun (s : State) a => ((s.inc (F.LRB_CNT_LO 4)).raise 362).report .PREFETCH_DISCARD srcLrb [a]) s
    { s with lrb := { s.lrb with pf := tput noneD s.lrb.pf p none } }
  | none => s

/-- The rack bridge on entry to the Dusk state (R389, R394): no outbound transaction starts, LOCK_N is released, the semaphore cleared. -/
def State.lrbDusk (s : State) : State :=
  let s := [0, 1, 2, 3].foldl (fun (s : State) p => s.pfDiscard p) s
  let s := (s.set F.LRB_STAT_LOCKED 0).set F.LRB_STAT_SEM_VALID 0
  { s with lrb := { s.lrb with waiting := [], lists := [], lockAt := none, run := if s.lrb.open_ then s.lrb.run else none } }

/-- The hardware path of R65 from step 4 on, and the supervisor in the Dusk state with its cause (R436). The change whose boundary has
passed keeps its steps as far as the HX stop allows; the notice carries FAULT (R466). -/
def State.enterDusk (s : State) (cause : Nat) : State :=
  match s.sup.st with
  | .night | .midnight | .dusk => s
  | old =>
    let s : State := { s with
      sup := { s.sup with faultLatch := true, duskCause := cause, fromDusk := false }
      cyc := { s.cyc with leaving := false }
      hx := { s.hx with frameOn := false } }
    let s := ((s.freezePairs.ghStop).doSafetyOff).releaseAll.tlOff.lrbDusk
    let s := s.report .DUSK_ENTER (srcSup 3) [cause, old.code]
    let s := s.stateChange .dusk (0x100 + cause) 0 3
    let s := s.longEnd 0x40 s.errNone
    (s.notice 3 (leBytes 2 cause)).canFollow

end Sys2Proof.Machine
end

