-- ==== Sys2Proof/Machine/Vdx.lean ====
section
/-!
DEFINITION. The vector dispatcher (chapter 3): qualification, selection and commit, completion, masking and configuration.
-/
namespace Sys2Proof.Machine

/-- The active sources of a pair with their commit priorities, running level first. -/
def State.stack (s : State) (p : Nat) : List (Nat × Nat) := tget nilD s.vdx.stack p
def State.setStack (s : State) (p : Nat) (l : List (Nat × Nat)) : State :=
  { s with vdx := { s.vdx with stack := tput nilD s.vdx.stack p l } }

/-- The running level of a pair: the priority of its highest active source, 0 with none (R77). -/
def State.runLevel (s : State) (p : Nat) : Nat := match s.stack p with | [] => 0 | c :: _ => c.2

/-- The vector committed to a pair and not yet entered (R78). -/
def State.committed (s : State) (p : Nat) : Option Vec := tget noneD s.vdx.committed p
def State.setCommitted (s : State) (p : Nat) (v : Option Vec) : State :=
  { s with vdx := { s.vdx with committed := tput noneD s.vdx.committed p v } }

/-- Source `n` is masked (R86). -/
def State.masked (s : State) (n : Nat) : Bool := (s.get (F.VDX_MASK_MASK (n / 32))).testBit (n % 32)

/-- The pair accepts vectors as its mode stands (R77, third condition, and R49 for the park of R107). -/
def Pair.accepts (q : Pair) : Bool := (q.umode || (q.hwPark && q.wfi) || q.mstMie) && q.ven && !q.halted && !q.frozen

/-- Source `n` is eligible for pair `p` (R77). -/
def State.eligible (s : State) (p n : Nat) : Bool :=
  s.flag (F.VDX_SRCSTAT_PENDING n) && !s.masked n && s.get (F.VDX_SRCCFG_PAIR n) == p
    && !(s.flag (F.VDX_SRCSTAT_ACTIVE n))
    && decide (s.runLevel p < s.get (F.VDX_SRCCFG_PRIO n)) && decide (s.get (F.VDX_THR_THR p) < s.get (F.VDX_SRCCFG_PRIO n))
    && (s.pair p).accepts

/-- The sources whose status register is listed, ascending: only they can be pending. -/
def State.srcListed (s : State) : List Nat :=
  (tkeys s.regs).filterMap (fun k => if 0x12000 ≤ k ∧ k < 0x12800 then some ((k - 0x12000) / 4) else none)

/-- The dispatcher's selection for a pair: the highest PRIO, between equal PRIO the lowest source number (R77). -/
def State.selection (s : State) (p : Nat) : Option Nat :=
  (s.srcListed.filter (s.eligible p)).foldl (fun best n =>
    match best with
    | none => some n
    | some b => if s.get (F.VDX_SRCCFG_PRIO b) < s.get (F.VDX_SRCCFG_PRIO n) then some n else some b) none

/-- A commit or the HX wakes a sleeping pair: a gated clock runs 10 ns later, a stopped PLL locks 20 us later (R79, R496). -/
def State.wakePair (s : State) (p rank : Nat) : State :=
  let charge (s : State) : State := { s with pwr := { s.pwr with charges := s.pwr.charges ++ [⟨rank, p, 10, none⟩] } }
  match s.get (F.PWR_PAIRCLK_STATE p) with
  | 1 => { (charge s).set (F.PWR_PAIRCLK_STATE p) 0 with pwr := { (charge s).pwr with awakeAt := tput natD s.pwr.awakeAt p (s.clk.t + 8) } }
  | 2 =>
    let s := (charge s).set (F.PWR_PAIRCLK_STATE p) 3
    { (s.inc (F.PWR_PAIRCLK_STARTS p)) with pwr := { s.pwr with lockAt := tput natD s.pwr.lockAt p (s.clk.t + 20 * usUt) } }
  | _ => s

/-- The dispatcher may commit to pair `p` now (R78, R79; nothing in the Dusk state). -/
def State.canCommit (s : State) (p : Nat) : Bool :=
  s.pairFitted p && s.alive && s.sup.st != .dusk && (s.committed p).isNone

/-- The source becomes active on the pair, its pending bit clears under R75, and the running level rises (R78). -/
def State.commitSource (s : State) (p n : Nat) : State :=
  let prio := s.get (F.VDX_SRCCFG_PRIO n)
  let v : Vec := ⟨n, (s.pair p).vbase + n * 64, prio⟩
  let s := ((s.set (F.VDX_SRCSTAT_ACTIVE n) 1).set (F.VDX_SRCSTAT_APAIR n) p).set (F.VDX_SRCSTAT_WITHDRAWN n) 0
  let s := if s.get (F.VDX_SRCCFG_MODE n) = 2 then s else s.set (F.VDX_SRCSTAT_PENDING n) 0
  let s := (s.setStack p ((n, prio) :: s.stack p)).setCommitted p (some v)
  s.wakePair p 0

/-- R75 is applied again to a source that has left the active state (R81). -/
def State.reapply (s : State) (n : Nat) : State :=
  match s.get (F.VDX_SRCCFG_MODE n) with
  | 0 => s.set (F.VDX_SRCSTAT_PENDING n) (s.get (F.VDX_SRCSTAT_LINE n))
  | 1 => s
  | _ => { (s.set (F.VDX_SRCSTAT_PENDING n) 0) with vdx := { s.vdx with latch := tput boolD s.vdx.latch n false } }

/-- A completion of source `n` by pair `p`; one that names no source active on the pair is stray (R81, R82). APAIR keeps the last pair: the
spec gives it no value after the completion (DESIGN CHOICE, log 122). -/
def State.completeSource (s : State) (p n : Nat) : State :=
  if (s.stack p).any (fun c => c.1 == n) then
    let s := (s.setStack p ((s.stack p).filter (fun c => c.1 ≠ n))).set (F.VDX_SRCSTAT_ACTIVE n) 0
    s.reapply n
  else
    ((s.inc (F.VDX_STRAY_COUNT p)).set (F.VDX_STRAY_LAST_SRC p) n).report .STRAY_COMPLETE srcVdx [p, n]

/-- SOURCE_QUALIFIED (R74, R75, R85, R88): the line of LIn changes its qualified level. -/
def sourceQualified (li : Fin 8) (level : Bool) (s : State) : State :=
  let n := 368 + li.val
  if !s.lrbFitted || !s.alive || tget boolD s.vdx.raw n == level then s else
  let s := { s with vdx := { s.vdx with raw := tput boolD s.vdx.raw n level } }
  let asserted := if s.get (F.VDX_SRCCFG_MODE n) = 2 then level else level != s.flag (F.VDX_SRCCFG_POL n)
  if asserted then (s.arrive n).set (F.VDX_SRCSTAT_LINE n) 1 else s.lineFalls n

/-- VECTOR_COMMIT (R77 to R79). -/
def vectorCommit (p : Nat) (s : State) : State :=
  if s.canCommit p then
    match s.selection p with
    | some n => s.commitSource p n
    | none => s
  else s

/-- VDX_COMPLETE (R81, R82). -/
def vdxComplete (p : Nat) (v : Word) (s : State) : State :=
  if s.pairFitted p then s.completeSource p (v.toNat % 512) else s.absentAccess (F.VDX_COMPLETE_SRC p).off

/-- VDX_SWTRIG: a source number from 0 to 31 is a qualified assertion; above 31 the write is counted as refused (R529). -/
def vdxSwtrig (v : Word) (s : State) : State :=
  if v.toNat < 32 then s.raise v.toNat else s.inc F.VDX_DIAG_REFUSED

/-- The fields of VDX_SRCCFG that a write may set. -/
def srccfgMask : Word := 0xFFF8030F

/-- A permitted write of VDX_SRCCFG acts on the qualified state at once (R87). The spec does not say what becomes of a set PENDING bit when
MODE changes to 1 or 2, nor of the legacy latch when MODE leaves 2: the bit stays, and the latch clears (DESIGN CHOICE, log 122). -/
def State.srccfgApply (s : State) (n : Nat) (v : Word) : State :=
  let s := s.setReg (0x11000 + n * 4) (v &&& srccfgMask)
  let mode := s.get (F.VDX_SRCCFG_MODE n)
  let line := if 368 ≤ n ∧ n < 376 then
      b2n (if mode = 2 then tget boolD s.vdx.raw n else tget boolD s.vdx.raw n != s.flag (F.VDX_SRCCFG_POL n))
    else s.get (F.VDX_SRCSTAT_LINE n)
  let s := s.set (F.VDX_SRCSTAT_LINE n) line
  let s := if mode = 0 then s.set (F.VDX_SRCSTAT_PENDING n) line else s
  if mode = 2 then s else { s with vdx := { s.vdx with latch := tput boolD s.vdx.latch n false } }

/-- VDX_SRCCFG_WRITE (R73, R75, R76, R87). -/
def vdxSrccfgWrite (n : Nat) (v : Word) (s : State) : State :=
  let mode := fieldGet v 20 2
  if s.sourceAbsent n then s.inc F.VDX_DIAG_REFUSED
  else if !s.masked n || s.flag (F.VDX_SRCSTAT_ACTIVE n) || mode == 3
      || (mode == 2 && (!(decide (368 ≤ n ∧ n < 376)) || v.getLsbD 19)) then
    (s.inc F.VDX_DIAG_REFUSED).report .VDX_CFG_REFUSED srcVdx [n, v.toNat]
  else s.srccfgApply n v

/-- VDX_MASK_WRITE (R86). -/
def vdxMaskWrite (n : Nat) (v : Word) (s : State) : State := s.set (F.VDX_MASK_MASK n) v.toNat

/-- CNT_CLR: COUNT is cleared, pending and active stay; an arrival of the same fabric cycle is counted after the clear (R84). -/
def cntClr (n : Nat) (s : State) : State :=
  s.set (F.VDX_SRCSTAT_COUNT n) (if tget noneD s.vdx.arrived n = some s.fab then 1 else 0)

/-- VDX_STRAY_CLR: the stray-completion count is cleared. -/
def vdxStrayClr (p : Nat) (s : State) : State :=
  if s.pairFitted p then s.set (F.VDX_STRAY_COUNT p) 0 else s.absentAccess (F.VDX_STRAY_COUNT p).off

/-- VDX_DIAG_CLR: the refused-write count is cleared. -/
def vdxDiagClr (s : State) : State := s.set F.VDX_DIAG_REFUSED 0

/-- VDX_ACT_Pn as software reads it (R79). -/
def State.actView (s : State) (p : Nat) : Nat :=
  let st := s.stack p
  let levels := st.foldl (fun a c => a ||| 2 ^ c.2) 0
  levels * 0x10000 + s.runLevel p * 0x1000 +
    (match st with | [] => 0 | c :: _ => 0x200 + c.1)

/-- VDX_PENDn or VDX_ACTIVEn as software reads it: bit b stands for source 32 n + b. -/
def State.srcBitmap (s : State) (bit n : Nat) : Nat :=
  (List.range 32).foldl (fun a b => if (s.reg (0x12000 + (32 * n + b) * 4)).getLsbD bit then a + 2 ^ b else a) 0

/-! ### The commands -/

/-- SOURCE_QUALIFIED. -/
def execSourceQualified (li : Fin 8) (level : Bool) (s : State) : Host.Outcome State Fault Refusal :=
  .next (sourceQualified li level s)
/-- VECTOR_COMMIT. -/
def execVectorCommit (p : Fin 4) (s : State) : Host.Outcome State Fault Refusal := .next (vectorCommit p s)
/-- VDX_COMPLETE. -/
def execVdxComplete (p : Fin 4) (v : Word) (s : State) : Host.Outcome State Fault Refusal := .next (vdxComplete p v s)
/-- VDX_SWTRIG. -/
def execVdxSwtrig (v : Word) (s : State) : Host.Outcome State Fault Refusal := .next (vdxSwtrig v s)
/-- VDX_SRCCFG_WRITE. -/
def execVdxSrccfgWrite (n : Fin 512) (v : Word) (s : State) : Host.Outcome State Fault Refusal := .next (vdxSrccfgWrite n v s)
/-- VDX_MASK_WRITE. -/
def execVdxMaskWrite (n : Fin 16) (v : Word) (s : State) : Host.Outcome State Fault Refusal := .next (vdxMaskWrite n v s)
/-- CNT_CLR. -/
def execCntClr (n : Fin 512) (s : State) : Host.Outcome State Fault Refusal := .next (cntClr n s)
/-- VDX_STRAY_CLR. -/
def execVdxStrayClr (p : Fin 4) (s : State) : Host.Outcome State Fault Refusal := .next (vdxStrayClr p s)
/-- VDX_DIAG_CLR. -/
def execVdxDiagClr (s : State) : Host.Outcome State Fault Refusal := .next (vdxDiagClr s)

end Sys2Proof.Machine
end

