-- ==== Sys2Proof/Machine/Hx.lean ====
section
/-!
DEFINITION. The scheduling half of the hardware executive (chapter 4): windows, banks, activations, overruns, partitions, slack
and sleep.
-/
namespace Sys2Proof.Machine

/-! ### Which windows open (R34, R109, R119, R191, R209, R531) -/

def State.partStopped (s : State) (p : Nat) : Bool := s.flag (F.HX_PARTSTAT_STOPPED p)

/-- Windows are being opened (R119): HX_STAT.DISPATCH. -/
def State.dispatching (s : State) : Bool :=
  s.hx.frameOn && (match s.sup.st with
    | .run | .hold => true
    | .service => !s.sup.fromDusk
    | _ => false)

/-- The partition or engine a task belongs to for online changes: a partition number, or 256 + engine. -/
def Task.owner (t : Task) : Nat := if t.unit < 4 then t.part else 256 + (t.unit - 4)

/-- Windows of a changed partition or engine stay closed until its set-up is done (R208, R209). -/
def State.changeSkips (s : State) (t : Task) : Bool :=
  match s.cyc.change with
  | some c => c.switched && c.setup.contains t.owner
  | none => false

/-- The group's windows open: its task cycle began inside the major frames of R34 and the module has started it (R531). -/
def State.groupLive (s : State) (g : Nat) : Bool :=
  (s.grp g).on && decide (s.hx.notBefore ≤ (s.grp g).frz) && (s.simplex || s.sup.st == .service || s.joined g)

/-- A window of the task opens if it starts now. -/
def State.taskRuns (s : State) (t : Task) : Bool :=
  s.dispatching && s.unitFitted t.unit && !s.partStopped t.part && !s.changeSkips t && !(s.pair t.unit).diverged &&
    (t.cls == 2 || (s.sup.st != .hold && !s.cyc.leaving && s.groupLive t.group))

/-- The start of the running major frame or, before the first one, of the first (R34), as a macrotick of the cycle timer. -/
def State.frameBase (s : State) : Option Nat :=
  if s.hx.frameOn then some s.hx.frameMt
  else if s.cyc.running && (match s.sup.st with | .run | .hold => s.simplex || s.mstate == 4 | .service => !s.sup.fromDusk | _ => false) then
    some (s.frameFrom (max s.hx.notBefore s.clk.t) * s.tgMt)
  else none

/-- The next START of a window at or after now, as a macrotick. -/
def State.winAt (s : State) (base : Nat) (w : Window) : Nat :=
  let m := base + w.start
  if s.mt m < s.clk.t then m + s.mfLen * s.tgMt else m

/-- The next window of a unit and the instant of its START. -/
def State.nextWin (s : State) (u : Nat) : Option (Nat × Nat) :=
  match s.frameBase with
  | none => none
  | some base =>
    let l := ((List.range s.hx.sched.windows.length).zip s.hx.sched.windows).filterMap fun c =>
      match s.taskD? c.2.task with
      | some t => if t.unit = u ∧ !s.partStopped t.part ∧ ((s.sup.st ≠ .hold ∧ !s.cyc.leaving) ∨ t.cls = 2)
          ∧ ¬ ((s.unit u).lastStart = some (s.winAt base c.2)) then some (c.1, s.winAt base c.2) else none
      | none => none
    (l.foldl (fun b c => match b with | none => some c | some d => if c.2 < d.2 then some c else some d) (none : Option (Nat × Nat))).map
      fun c => (c.1, s.mt c.2)

/-- The window whose context the pair needs next: one that has begun and not opened, else the next one. -/
def State.wantWin (s : State) (u : Nat) : Option (Nat × Nat) :=
  let x := s.unit u
  match x.win with
  | some w => if x.opened || x.ended then s.nextWin u else some (w, x.start)
  | none => s.nextWin u

/-! ### Contexts and banks (R52, R100, R101) -/

/-- The initial context of a task (R101). -/
def initCtx (n : Nat) (t : Task) : Bank :=
  { Bank.zero with pc := t.entry, x := tput dwordD [] 2 (BitVec.ofNat 64 t.sp), fs := 1, task := n }

/-- The context a window of task `n` would dispatch: saved or initial. -/
def State.ctxOf (s : State) (n : Nat) : Bank :=
  let c := s.task n
  match s.taskD? n with
  | some t => if c.st = .idle then initCtx n t else { c.ctx with task := n }
  | none => c.ctx

def Pair.freeBank (q : Pair) : Option Nat := [0, 1, 2, 3].find? fun b => q.bankSt b == .free
def Pair.heldBank (q : Pair) : Option Nat := [0, 1, 2, 3].find? fun b => q.bankSt b == .held

/-- A user-mode activation's context is taken from the bank in use. -/
def State.saveCtx (s : State) (p n : Nat) : State :=
  s.setTask n { s.task n with ctx := { (s.pair p).curBank with task := n } }

/-- Another bank comes into use: the outgoing one is saved or stays held, reservation and stall end (R53, R59, R100). -/
def Pair.switchTo (q : Pair) (b : Nat) (c : Bank) : Pair :=
  let q := if q.bankSt q.cur = .current then q.setBankSt q.cur .saving else q
  let q := (q.setBank b c).setBankSt b .current
  { q with cur := b, curValid := true, umode := true, wfi := false, hwPark := false, parkDue := false, resv := none, stall := none, fence := 0 }

/-- The pair goes to the idle entry or to the hardware park (R107). -/
def State.toIdle (s : State) (p : Nat) : State :=
  let a := s.get (F.HX_IDLE_ADDR p) * 4
  s.modPair p fun q =>
    let q := { q with curValid := false, umode := false, parkDue := false, resv := none, stall := none, fence := 0 }
    if a = 0 then { q with hwPark := true, wfi := true } else ({ q with hwPark := false, wfi := false, entryM := a, entryU := 0 }).setPc a

/-! ### Opening a window (R32, R53, R101, R113) -/

/-- A stopped task's context is taken as the pair leaves machine mode (R106). -/
def State.takeSave (s : State) (p : Nat) (pc : Nat) : State :=
  match (s.unit p).saveDue with
  | some n => (s.setTask n { s.task n with ctx := { (s.pair p).curBank with pc := pc, task := n } }).setUnit p { s.unit p with saveDue := none }
  | none => s

/-- An engine begins a scan (R185), late where its input range is still being rewritten (R222). -/
def State.scanStart (s : State) (e n : Nat) (t : Task) : State :=
  let s := s.setEng e { s.eng e with
    wa := 0, xr := 0, bs := [], cs := [], pc := t.entry, cost := 0, start := max s.clk.t (tget natD (s.grp t.group).leReady e), shadow := [] }
  ((s.set (F.LE_STAT_STATE e) 1).set (F.LE_STAT_TASK e) n).set (F.LE_STAT_LA e) 0

/-- A window that has begun opens once its unit can take it; late openings are recorded. -/
def State.tryOpen (s : State) (u : Nat) : State :=
  let x := s.unit u
  match x.win with
  | none => s
  | some w =>
    if x.opened || x.ended then s
    else if 4 ≤ u then
      match s.taskD? x.task with
      | some t => if (s.eng (u - 4)).testing.isSome then s else
          (s.setUnit u { x with opened := true, began := false }).scanStart (u - 4) x.task t
      | none => s
    else
      let q := s.pair u
      match q.pre with
      | some b =>
        if x.preWin = some w ∧ s.awake u ∧ (q.umode ∨ q.wfi) ∧ !q.idle ∧ !q.diverged then
          let s := s.takeSave u q.mepc
          let s := s.modPair u fun q => { q.switchTo b (s.ctxOf x.task) with pre := none }
          let s := s.setUnit u { s.unit u with opened := true, began := false, preWin := none }
          let s := s.setTask x.task { s.task x.task with st := .running }
          let s := if x.start < tget natD s.pwr.awakeAt u then
              (s.raise 36).report .WAKE_LATE srcHx [u, (s.clk.t - x.start) / 2] else s
          if x.mm then (s.raise 37).report .MMODE_OVERRUN srcHx
              [u, (s.clk.t - x.start) / 2, q.entryM, q.entryM / 2 ^ 32, q.entryU, q.entryU / 2 ^ 32] else s
        else s
      | none => s

/-! ### Faults of activations and partitions (R92, R105, R108, R109) -/

/-- A partition is stopped (R109). -/
def State.partStop (s : State) (p : Nat) : State :=
  let s := ((s.set (F.HX_PARTSTAT_STOPPED p) 1).raise 35).report .PART_STOPPED srcHx [p]
  let z := (List.range s.hx.sched.tasks.length).filter fun n => match s.taskD? n with | some t => t.part == p | none => false
  let s : State := { s with hx := { s.hx with zero := s.hx.zero ++ z } }
  match s.part? p with
  | some d => if d.pflags.testBit 0 then s.enterDusk 3 else s
  | none => s

/-- A faulted activation is counted toward FAULT_LIMIT (R109). -/
def State.faulted (s : State) (p : Nat) : State :=
  let s := s.inc (F.HX_PARTSTAT_FAULTS p)
  match s.part? p with
  | some d => if d.faultLimit ≠ 0 ∧ d.faultLimit ≤ s.get (F.HX_PARTSTAT_FAULTS p) ∧ !s.partStopped p then s.partStop p else s
  | none => s

/-- Why an activation is abandoned; the numbers are the model's. -/
inductive Abandon where
  | overrun
  | schedSwitch
  | modeChange
  | stageFail
  | contextLost
  deriving DecidableEq, Repr

def Abandon.code : Abandon → Nat
  | .overrun => 0
  | .schedSwitch => 1
  | .modeChange => 2
  | .stageFail => 3
  | .contextLost => 4

/-- An activation is gone: the task's next one is fresh. -/
def State.taskIdle (s : State) (n : Nat) : State := s.setTask n { s.task n with st := .idle, cont := 0, exec := 0, since := none }

/-- An abandonment: entry, source 33, count (R108); the reasons that are faults count toward FAULT_LIMIT. -/
def State.abandon (s : State) (n : Nat) (why : Abandon) : State :=
  let s := (((s.inc (F.HX_TASKSTAT0_ABANDONS n)).raise 33).report .TASK_ABANDON srcHx [n, why.code]).taskIdle n
  match s.taskD? n with
  | some t => if why = .schedSwitch ∨ why = .modeChange then s else s.faulted t.part
  | none => s

/-- The output region of a task in its working or committed buffer: keys of `Cyc.working`, `Cyc.committed`. -/
def workKey (n o : Nat) : Nat := n * 65536 + o
def commitKey (g o : Nat) : Nat := g * 65536 + o

/-- The working buffer takes the committed contribution (R27). -/
def State.freshWork (s : State) (n : Nat) (t : Task) : State :=
  { s with cyc := { s.cyc with working :=
      (tputList byteD s.cyc.working (workKey n t.outOfs) (tgetList byteD s.cyc.committed (commitKey t.group t.outOfs) t.outLen)) } }

/-- The contribution of a completed activation is committed (R27). -/
def State.commitWork (s : State) (n : Nat) (t : Task) : State :=
  { s with cyc := { s.cyc with committed :=
      (tputList byteD s.cyc.committed (commitKey t.group t.outOfs) (tgetList byteD s.cyc.working (workKey n t.outOfs) t.outLen)) } }

/-- A completed activation: longest execution, fault count, and the task is idle (R109, R115). -/
def State.completed (s : State) (n : Nat) : State :=
  let s := s.execStop n
  let s := if s.get (F.HX_TASKSTAT2_MAX_EXEC n) < (s.task n).exec then s.set (F.HX_TASKSTAT2_MAX_EXEC n) (min (s.task n).exec 0xFFFFFFFF) else s
  let s := s.taskIdle n
  match s.taskD? n with
  | some t => s.set (F.HX_PARTSTAT_FAULTS t.part) 0
  | none => s

/-! ### Sleep and slack (R116, R117, R496) -/

/-- A task may take slack on a pair (R117). -/
def State.slackMay (s : State) (p n : Nat) : Bool :=
  s.hx.sched.flags.testBit 0 && s.dispatching && !(s.pair p).diverged &&
    match s.taskD? n with
    | some t => t.cls == 2 && t.unit == p && !s.partStopped t.part && !s.changeSkips t
    | none => false

/-- The next background task that takes slack on a pair, in ascending number in turn. -/
def State.slackTask (s : State) (p : Nat) : Option Nat :=
  let l := (List.range s.hx.sched.tasks.length).filter fun n => s.slackMay p n
  match l.find? fun n => decide ((s.unit p).slackLast < n) with
  | some n => some n
  | none => l.head?

/-- The pair is parked and no window or quantum runs on it. -/
def State.parked (s : State) (p : Nat) : Bool :=
  let x := s.unit p
  x.slack.isNone && (x.win.isNone || x.ended) && x.saveDue.isNone && !(s.pair p).umode

/-- Nothing starts on the pair for at least `gap` microticks. -/
def State.gapAtLeast (s : State) (p gap : Nat) : Bool :=
  match s.nextWin p with
  | some c => decide (s.clk.t + gap ≤ c.2)
  | none => true

/-- A comparator self-test of the pair is due or runs. -/
def Pair.testPending (q : Pair) : Bool := q.cmpDue || q.testing.isSome

/-- Slack is to be given to the parked pair (R117); a pair with NO_SLEEP set has it too, which the spec leaves open (DESIGN CHOICE, log 123). -/
def State.slackDue (s : State) (p : Nat) : Bool :=
  s.parked p && (s.stack p).isEmpty && !(s.pair p).testPending && s.gapAtLeast p 3200 && (s.slackTask p).isSome

/-- A parked pair with nothing to do is gated, or its PLL stopped (R116, R496). -/
def State.sleep (s : State) (p : Nat) : State :=
  let q := s.pair p
  if s.parked p && q.wfi && s.awake p && !q.idle && !s.flag (F.HX_PWRPOL_NO_SLEEP p) && (s.stack p).isEmpty && (s.committed p).isNone
      && !q.testPending && !s.slackDue p && (s.alive && s.sup.st != .dusk) then
    if s.gapAtLeast p ((s.get (F.HX_PWRPOL_PLL_GAP p) * 4 + 4) / 5) then s.set (F.PWR_PAIRCLK_STATE p) 2
    else if s.gapAtLeast p 3200 then s.set (F.PWR_PAIRCLK_STATE p) 1 else s
  else s

/-- A slack context that may not start any more gives its bank back: its task may take no slack, or a self-test is due first (R117). -/
def State.slackDrop (s : State) (p : Nat) : State :=
  match (s.unit p).slackPre with
  | some (n, b) =>
    if s.slackMay p n && !(s.pair p).testPending then s
    else (s.modPair p fun q => q.setBankSt b .free).setUnit p { s.unit p with slackPre := none }
  | none => s

/-- A slack quantum of 100 us starts once its context is preloaded and the pair parked (R117). -/
def State.slackStart (s : State) (p : Nat) : State :=
  let s := s.slackDrop p
  let x := s.unit p
  let q := s.pair p
  match x.slackPre with
  | some (n, b) =>
    if q.bankSt b = .preloaded ∧ s.parked p ∧ q.wfi ∧ !q.idle ∧ s.awake p ∧ (s.stack p).isEmpty then
      let fresh : Bool := (s.task n).st == .idle
      let s := s.modPair p fun q => q.switchTo b (s.ctxOf n)
      let s := s.setUnit p { x with slack := some (n, s.clk.t + 100 * usUt), slackLast := n, slackPre := none, began := false }
      let c := if fresh then { s.task n with cont := 0, exec := 0, imgVer := (List.range 4).map fun g => (s.grp g).ver } else s.task n
      s.setTask n { c with st := .running }
    else s
  | none => s

/-- What follows on a pair when its activation has ended: the window that has begun, slack, the idle entry, sleep (R107, R113, R117).
A window that starts at this very instant is left to its own start. -/
def State.settle (s : State) (u : Nat) : State :=
  if 4 ≤ u then s else
  let s := s.tryOpen u
  let x := s.unit u
  if (x.opened && !x.ended) || x.slack.isSome then s
  else if (s.pair u).umode || ((s.pair u).parkDue && (s.pair u).wfi) then
    (match s.nextWin u with
     | some c => if c.2 = s.clk.t ∧ !x.opened ∧ x.win.isNone then s else ((s.toIdle u).slackStart u).sleep u
     | none => ((s.toIdle u).slackStart u).sleep u)
  else (s.slackStart u).sleep u

/-! ### Stopping an activation (R104, R106, R108) -/

/-- A pair's task is stopped: its context is taken now in user mode, else when the pair leaves machine mode; `keep`: it is needed. -/
def State.stopPair (s : State) (p n : Nat) (keep : Bool) : State :=
  let q := s.pair p
  if 4 ≤ p ∨ !keep then s
  else if q.umode then s.saveCtx p n
  else if q.curValid then
    let s := s.setUnit p { s.unit p with saveDue := some n }
    if q.wfi then s.takeSave p q.mepc else s
  else s

/-- The activation on a pair is over while its machine-mode code runs: the pair parks at MRET or WFI (R106, R107). -/
def State.parkLater (s : State) (p : Nat) : State :=
  if 4 ≤ p ∨ (s.pair p).umode then s else s.modPair p fun q => { q with parkDue := true }

/-- A slack activation is paused (R117). -/
def State.slackPause (s : State) (p : Nat) : State :=
  match (s.unit p).slack with
  | some (n, _) =>
    let s := ((s.execStop n).stopPair p n true).parkLater p
    (s.setTask n { s.task n with st := .paused }).setUnit p { s.unit p with slack := none }
  | none => s

/-- An engine's scan stops: the shadow is discarded (R187). -/
def State.scanStop (s : State) (e : Nat) : State := (s.setEng e { s.eng e with shadow := [] }).set (F.LE_STAT_STATE e) 0

/-- The budget end of the window on a unit: completed, paused, or overrun (R104, R108). -/
def State.budgetOver (s : State) (u : Nat) : State :=
  let x := s.unit u
  match x.win with
  | none => s
  | some w =>
    let s := s.unstage w (x.lastStart.getD 0)
    let s := s.setUnit u { s.unit u with win := none, ended := true, opened := false, mm := false, endedAt := some s.clk.t }
    if x.ended then s else
    let n := x.task
    let s := s.execStop n
    let s := if x.opened then s.parkLater u else s
    match s.taskD? n, s.window? w with
    | some t, some d =>
      if t.cls = 2 ∨ !(d.wflags.testBit 1) then
        (s.setTask n { s.task n with st := .paused }) |> fun s => if x.opened then s.stopPair u n true else s
      else
        let c := (s.task n).cont
        let s := ((s.inc (F.HX_TASKSTAT0_OVERRUNS n)).report .OVERRUN srcHx [n, w, c]).raise 32
        let s := if 4 ≤ u then s.scanStop (u - 4) else s
        if c < t.maxSkip then
          (s.setTask n { s.task n with st := .awaiting }) |> fun s => if x.opened then s.stopPair u n true else s
        else s.abandon n .overrun
    | _, _ => s

/-! ### Starting a window (R92, R102, R108, R113) -/

/-- The activation a window dispatches: fresh, a continuation, or a paused one going on; none where there is nothing to dispatch. -/
def State.dispatch (s : State) (n : Nat) (t : Task) (d : Window) : Option State :=
  let c := s.task n
  let fresh : State :=
    let s := s.setTask n { c with st := .running, cont := 0, exec := 0, since := none, ctx := initCtx n t,
                                  imgVer := (List.range 4).map fun g => (s.grp g).ver, frzCount := (s.grp t.group).frzCount }
    if t.cls = 2 ∨ 4 ≤ t.unit then s else s.freshWork n t
  if t.cls = 2 then some (if c.st = .idle then fresh else s.setTask n { c with st := .running })
  else if d.wflags.testBit 0 then some (if c.st = .awaiting then s.setTask n { c with st := .running, cont := c.cont + 1 } else fresh)
  else if c.st = .paused then some (s.setTask n { c with st := .running })
  else none

/-- The budget timer of the unit's window is frozen: the pair was halted while its interval ran (R69). -/
def State.timerFrozen (s : State) (u : Nat) : Bool :=
  let x := s.unit u
  match x.haltedAt with
  | some h => x.win.isSome && !x.ended && decide (x.start ≤ h)
  | none => false

/-- An abutting window of the same task that continues the open one without a switch (R102). The spec does not say whether R92 looks at the
staging of such a window, nor whether an activation that overruns in the earlier window goes on in the later one: here the staging is not
looked at, and a window that carries LAST is not joined (DESIGN CHOICE, log 123). -/
def State.joins (s : State) (u m : Nat) (d : Window) : Bool :=
  let x := s.unit u
  x.opened && !x.ended && x.task == d.task && x.endMt == m
    && !(match x.win.bind s.window? with | some e => e.wflags.testBit 1 | none => true)

/-- A window's interval begins on its unit at macrotick `m`. -/
def State.beginWin (s : State) (w m : Nat) (d : Window) (u : Nat) (opened ended : Bool) : State :=
  s.setUnit u { s.unit u with
    win := some w, task := d.task, endMt := m + d.budget, ext := 0, opened := opened, ended := ended, start := s.mt m,
    lastStart := some m, lastWin := w, mm := decide (u < 4) && !((s.pair u).umode || (s.pair u).wfi), seen := [] }

/-- WINDOW_START (R113, R92, R102, R108, R117). While a halt freezes the window open on the pair, and until the budget end that the halt has
moved, the next window does not begin (R69, R114). -/
def windowStart (w : Nat) (s : State) : State :=
  match s.window? w with
  | none => s
  | some d =>
    match s.taskD? d.task with
    | none => s
    | some t =>
      let m := s.hx.frameMt + d.start
      let u := t.unit
      let x := s.unit u
      let st := if x.win.isSome && !x.ended && x.ext != 0 && !(s.joins u m d) then max (s.startAt d) (s.budgetAt u) else s.startAt d
      if !s.dispatching || decide (s.mt (m + d.budget) ≤ max st s.clk.t) || x.lastStart == some m || !s.unitFitted u || s.timerFrozen u then s else
      let s := s.advance st
      if s.joins u m d && s.taskRuns t then
        (match x.win with | some v => (s.unstage v (x.lastStart.getD 0)).beginWin w m d u true false | none => s)
      else
        let s := (s.budgetOver u).slackPause u
        if !s.taskRuns t then (s.beginWin w m d u false true).settle u
        else if t.cls = 0 ∧ u < 4 ∧ !s.stagedOk w m then
          let miss := match s.stagedAt w m with
            | some c => (c.pages.find? fun up => (s.page (pkey c.part up)).frame.isNone).getD 0
            | none => (s.wsetOf t).headD 0
          let s := ((s.beginWin w m d u false true).raise 43).report .DEADLINE_STAGE_FAIL srcHx [d.task, miss]
          (s.abandon d.task .stageFail).settle u
        else
          match s.dispatch d.task t d with
          | some s1 => if 4 ≤ u then (s1.beginWin w m d u false false).tryOpen u else (s1.beginWin w m d u false false).settle u
          | none => (s.beginWin w m d u false true).settle u

/-- BUDGET_END (R104, R106, R108, R114, R139): not while the window's timer is frozen (R69). -/
def budgetEnd (u : Nat) (s : State) : State :=
  if (s.unit u).win.isSome && !(s.timerFrozen u) && s.dispatching then ((s.advance (s.budgetAt u)).budgetOver u).settle u else s

/-- SLACK_QUANTUM_END (R117). -/
def slackQuantumEnd (p : Nat) (s : State) : State :=
  match (s.unit p).slack with
  | some (_, t) => if (s.unit p).haltedAt.isSome then s else ((s.advance t).slackPause p).settle p
  | none => s

/-! ### Preloads and saves (R100, R101) -/

/-- A stale preload gives its bank back. -/
def State.dropPreload (s : State) (p : Nat) : State :=
  let x := s.unit p
  let s := s.modPair p fun q =>
    let q := match q.pre with | some b => { q.setBankSt b .free with pre := none } | none => q
    match [0, 1, 2, 3].find? fun b => q.bankSt b == .loading && (x.slackPre.map fun c => c.2) != some b with
    | some b => q.setBankSt b .free
    | none => q
  s.setUnit p { x with preWin := none }

/-- The held bank is reclaimed at the latest start of a preload (R101). Whether one that is still the bank in use is reclaimed too is not
said; here it is not (DESIGN CHOICE, log 123). -/
def State.reclaim (s : State) (p : Nat) : State :=
  let q := s.pair p
  match q.heldBank with
  | some b => if b = q.cur then s else
      ((s.modPair p fun q => q.setBankSt b .free).raise 39).report .BANK_RECLAIM srcHx [p, (q.bank b).task]
  | none => s

/-- The context of a window begins to load, where a bank is FREE. -/
def State.loadWin (s : State) (p w : Nat) : State :=
  match (s.pair p).freeBank with
  | some b => (s.modPair p fun q => (q.setBankSt b .loading).setBank b { q.bank b with task := ((s.window? w).map fun d => d.task).getD 0 }).setUnit p
      { s.unit p with preWin := some w }
  | none => s

/-- The next slack context begins to load, where slack is due and a bank is FREE (R117). -/
def State.loadSlack (s : State) (p : Nat) : State :=
  let s := s.slackDrop p
  if (s.unit p).slackPre.isSome || !(s.slackDue p) then s else
  match s.slackTask p, (s.pair p).freeBank with
  | some n, some b => (s.modPair p fun q => (q.setBankSt b .loading).setBank b { q.bank b with task := n }).setUnit p
      { s.unit p with slackPre := some (n, b) }
  | _, _ => s

/-- PRELOAD_START (R100, R101, R117): the next window's context, else the next slack context, begins to load into a FREE bank. -/
def preloadStart (p : Nat) (s : State) : State :=
  if !s.pairFitted p || !s.alive || (s.pair p).frozen then s else
  match s.wantWin p with
  | some (w, st) =>
    if (s.unit p).preWin = some w then s.loadSlack p
    else
      let s := if (s.unit p).preWin.isSome then s.dropPreload p else s
      if (s.pair p).freeBank.isSome then s.loadWin p w else ((s.advance (st - usUt)).reclaim p).loadWin p w
  | none => s.loadSlack p

/-- PRELOAD_DONE (R100, R101, R117): a copy completes; a late window opens, or a slack quantum starts. -/
def preloadDone (p : Nat) (s : State) : State :=
  let q := s.pair p
  let x := s.unit p
  let sb := x.slackPre.map fun c => c.2
  if q.frozen then s else
  match [0, 1, 2, 3].find? fun b => q.bankSt b == .loading && sb != some b with
  | some b =>
    match x.preWin.bind s.window? with
    | some d =>
      let s := s.modPair p fun q => { (q.setBank b (s.ctxOf d.task)).setBankSt b .preloaded with pre := some b }
      let late : Bool := x.win == x.preWin && !x.opened && !x.ended && decide (x.start < s.clk.t)
      let s := if late then (s.raise 38).report .PRELOAD_LATE srcHx [p, (s.clk.t - x.start) / 2] else s
      s.tryOpen p
    | none => s.dropPreload p
  | none =>
    match x.slackPre with
    | some (n, b) => if q.bankSt b = .loading then
        (s.modPair p fun q => (q.setBank b (s.ctxOf n)).setBankSt b .preloaded).slackStart p else s
    | none => s

/-- SAVE_DONE (R100): the copy to context memory is complete. -/
def saveDone (p b : Nat) (s : State) : State :=
  if (s.pair p).bankSt b = .saving then s.modPair p fun q => q.setBankSt b .free else s

/-- BANK_SWITCH (R53): the pending switch of a pair that has come to user mode or WFI, once its clock runs. -/
def bankSwitch (p : Nat) (s : State) : State :=
  let x := s.unit p
  if s.pairFitted p && x.win.isSome && !x.opened && !x.ended && s.get (F.PWR_PAIRCLK_STATE p) == 0 then
    (s.advance (tget natD s.pwr.awakeAt p)).tryOpen p
  else s.slackStart p

/-! ### Executive calls (R103, R104) -/

/-- The window's or quantum's activation on a pair ends; the pair parks or goes on. -/
def State.endHere (s : State) (p : Nat) : State :=
  let x := s.unit p
  (if x.slack.isSome then s.setUnit p { x with slack := none } else s.setUnit p { x with ended := true }).settle p

/-- The executive call retires. -/
def State.retire (s : State) (p : Nat) : State :=
  s.modPair p fun q => { q with lastPc := q.pc, minstret := if q.mcountinhibit.testBit 2 then q.minstret else (q.minstret + 1) % 2 ^ 64 }

/-- DONE (R103, R104, R27): not after the budget end. -/
def done (p : Nat) (s : State) : State :=
  match s.taskOn p with
  | some n =>
    let x := s.unit p
    let inTime : Bool := match x.slack with | some (_, t) => decide (s.clk.t ≤ t) | none => decide (s.clk.t ≤ s.budgetAt p)
    if !(s.pair p).umode || (s.pair p).stall.isSome || (s.pair p).idle || x.ended && x.slack.isNone || !inTime then s else
    let s := s.retire p
    let s := match s.taskD? n with
      | some t => if t.cls = 2 then s else s.commitWork n t
      | none => s
    (s.completed n).endHere p
  | none => s

/-- CYCLE_INFO (R103, R214): a0 the freeze's cycle count, a1 the continuations; a background task has no group, and its a0 is unstated. -/
def cycleInfo (p : Nat) (s : State) : State :=
  match s.taskOn p with
  | some n =>
    if !(s.pair p).umode || (s.pair p).idle || (s.pair p).stall.isSome then s else
    let c := s.task n
    let bg : Bool := match s.taskD? n with | some t => t.cls == 2 | none => false
    let a0 := if bg then (Config.freeValue s.freeCtr).toNat else c.frzCount
    let s := if bg then s.free else s
    (s.modPair p fun q => { q.setX 11 (BitVec.ofNat 64 c.cont) with lastPc := q.pc }).callRet p a0
  | none => s

/-! ### HX_PAIRCMD, HX_IDLE, HX_TASKSTAT (R105, R107) -/

/-- The effects of ABORT on the activation of a pair (R105). -/
def State.abortAct (s : State) (p n : Nat) : State :=
  let s := s.execStop n
  let s := ((s.inc (F.HX_TASKSTAT1_ABORTS n)).raise 34).report .TASK_ABORT srcHx [n]
  let x := s.unit p
  let s := if x.slack.isSome then s.setUnit p { x with slack := none } else s.setUnit p { x with ended := true }
  let s := (s.taskIdle n).modPair p fun q =>
    let q := match q.heldBank with | some b => q.setBankSt b .free | none => q
    { q.setBankSt q.cur .held with curValid := false, parkDue := true }
  match s.taskD? n with
  | some t => s.faulted t.part
  | none => s

/-- ABORT (R105). Whether it ends a slack activation is not said; with no task window open it is ignored and recorded (DESIGN CHOICE, log 123). -/
def abort (writer p : Nat) (s : State) : State :=
  if !s.pairFitted p then s.absentAccess (F.HX_PAIRCMD_ABORT p).off else
  let x := s.unit p
  if writer ≠ p ∨ !x.opened ∨ x.ended then s.report .PAIRCMD_IGNORED srcHx [writer, p, 1]
  else s.abortAct p x.task

/-- BANK_REL (R105). -/
def bankRel (writer p : Nat) (s : State) : State :=
  if !s.pairFitted p then s.absentAccess (F.HX_PAIRCMD_BANK_REL p).off else
  if writer ≠ p then s.report .PAIRCMD_IGNORED srcHx [writer, p, 2]
  else match (s.pair p).heldBank with
    | some b => s.modPair p fun q => q.setBankSt b (if b = q.cur then .current else .free)
    | none => s

/-- HX_IDLE_WRITE (R107): 0 and addresses in SRAM are taken; any other is rejected and recorded. -/
def hxIdleWrite (p : Nat) (v : Word) (s : State) : State :=
  if !s.pairFitted p then s.absentAccess (F.HX_IDLE_ADDR p).off else
  let a := v.toNat / 4
  if a = 0 ∨ inSram (a * 4) then s.set (F.HX_IDLE_ADDR p) a else s.report .IDLE_REJECT srcHx [p, v.toNat]

/-- HX_TASKSTAT_CLR. -/
def hxTaskstatClr (t : Nat) (s : State) : State := ((s.setReg (0x21000 + t * 16) 0).setReg (0x21004 + t * 16) 0).setReg (0x21008 + t * 16) 0

/-! ### Leaving cyclic execution (R119, R193) -/

/-- The activations of group and engine tasks, and with `bg` those of background tasks too, are stopped. -/
def State.stopTasks (s : State) (bg : Bool) : State :=
  let isBg (s : State) (n : Nat) : Bool := match s.taskD? n with | some t => t.cls == 2 | none => false
  let s := (List.range 6).foldl (fun (s : State) u =>
    let x := s.unit u
    let s := if bg then s.slackPause u else s
    if x.win.isSome && !x.ended then
      (if isBg s x.task then
        (if bg then
          let s := (s.execStop x.task).stopPair u x.task x.opened
          (s.setTask x.task { s.task x.task with st := .paused }).setUnit u { s.unit u with win := none, ended := true, opened := false }
        else s)
      else
        let s := s.taskIdle x.task
        let s := if 4 ≤ u then s.scanStop (u - 4) else s
        s.setUnit u { s.unit u with win := none, ended := true, opened := false })
    else s) s
  let s := (List.range s.hx.sched.tasks.length).foldl (fun (s : State) n =>
    if (s.task n).st = .awaiting then s.abandon n .modeChange
    else if (s.task n).st = .paused ∧ !isBg s n then s.taskIdle n else s) s
  [0, 1, 2, 3].foldl (fun (s : State) p => if (s.pair p).umode && (s.taskOn p).isNone then s.settle p else s) s

/-! ### The commands -/

/-- BANK_SWITCH. -/
def execBankSwitch (p : Fin 4) (s : State) : Host.Outcome State Fault Refusal := .next (bankSwitch p s)
/-- WINDOW_START. -/
def execWindowStart (w : Nat) (s : State) : Host.Outcome State Fault Refusal := .next (windowStart w s)
/-- PRELOAD_START. -/
def execPreloadStart (p : Fin 4) (s : State) : Host.Outcome State Fault Refusal := .next (preloadStart p s)
/-- PRELOAD_DONE. -/
def execPreloadDone (p : Fin 4) (s : State) : Host.Outcome State Fault Refusal := .next (preloadDone p s)
/-- SAVE_DONE. -/
def execSaveDone (p : Fin 4) (b : Fin 4) (s : State) : Host.Outcome State Fault Refusal := .next (saveDone p b s)
/-- DONE. -/
def execDone (p : Fin 4) (s : State) : Host.Outcome State Fault Refusal := .next (s.asInsn p (done p))
/-- CYCLE_INFO. -/
def execCycleInfo (p : Fin 4) (s : State) : Host.Outcome State Fault Refusal := .next (s.asInsn p (cycleInfo p))
/-- BUDGET_END. -/
def execBudgetEnd (u : Fin 6) (s : State) : Host.Outcome State Fault Refusal := .next (budgetEnd u s)
/-- ABORT. -/
def execAbort (writer p : Fin 4) (s : State) : Host.Outcome State Fault Refusal := .next (abort writer p s)
/-- BANK_REL. -/
def execBankRel (writer p : Fin 4) (s : State) : Host.Outcome State Fault Refusal := .next (bankRel writer p s)
/-- HX_IDLE_WRITE. -/
def execHxIdleWrite (p : Fin 4) (v : Word) (s : State) : Host.Outcome State Fault Refusal := .next (hxIdleWrite p v s)
/-- HX_TASKSTAT_CLR. -/
def execHxTaskstatClr (t : Fin 1024) (s : State) : Host.Outcome State Fault Refusal := .next (hxTaskstatClr t s)
/-- SLACK_QUANTUM_END. -/
def execSlackQuantumEnd (p : Fin 4) (s : State) : Host.Outcome State Fault Refusal := .next (slackQuantumEnd p s)

end Sys2Proof.Machine
end

