-- ==== Sys2Proof/Machine/Pwr.lean ====
section
/-!
DEFINITION. Power and clocks (chapter 20): wake requests, the budget arbiter, the pair clocks, supply and counters.
-/
namespace Sys2Proof.Machine

def State.modPwr (s : State) (f : Pwr → Pwr) : State := { s with pwr := f s.pwr }

/-! ### Wake requests (R30) -/

/-- A request waits at the budget arbiter; one of the same rank and unit is not doubled. -/
def State.request (s : State) (rank unit cost : Nat) : State :=
  if s.pwr.waiting.any (fun r => r.rank == rank && r.unit == unit) then s
  else s.modPwr fun w => { w with waiting := w.waiting ++ [⟨rank, unit, cost, 0⟩] }

/-- UNGATE_REQUEST (R30): 2 us before the next window of a gated pair. -/
def ungateRequest (p : Nat) (s : State) : State :=
  if s.pairFitted p && s.get (F.PWR_PAIRCLK_STATE p) == 1 then
    match s.wantWin p with
    | some (_, st) => (s.advance (st - 2 * usUt)).request 1 p 10
    | none => s
  else s

/-- The instants of the PLL restarts of stopped pairs: 22 us before the window, at least 5 us apart, the earlier one moved earlier. -/
def pllSpace : List (Nat × Nat) → List (Nat × Nat)
  | [] => []
  | (p, t) :: r =>
    match pllSpace r with
    | [] => [(p, t)]
    | (q, u) :: l => (p, if u < t + 5 * usUt then u - 5 * usUt else t) :: (q, u) :: l

/-- A pair with its instant put in rising order of instants. -/
def pllInsert (c : Nat × Nat) : List (Nat × Nat) → List (Nat × Nat)
  | [] => [c]
  | d :: r => if c.2 < d.2 then c :: d :: r else d :: pllInsert c r

/-- PLL_RESTART_REQUEST (R30). -/
def pllRestartRequest (p : Nat) (s : State) : State :=
  let l := ((List.range 4).filter fun q => s.pairFitted q && s.get (F.PWR_PAIRCLK_STATE q) == 2).filterMap fun q =>
    (s.wantWin q).map fun c => (q, c.2 - 22 * usUt)
  match (pllSpace (l.foldl (fun a c => pllInsert c a) [])).find? fun c => c.1 == p with
  | some (_, t) => (s.advance t).request 2 p 5
  | none => s

/-! ### The budget arbiter (R31, R497, R498) -/

/-- Requests in the order in which they are judged: rank, then unit. -/
def reqInsert (r : PwrReq) : List PwrReq → List PwrReq
  | [] => [r]
  | x :: l => if r.rank < x.rank ∨ (r.rank = x.rank ∧ r.unit < x.unit) then r :: x :: l else x :: reqInsert r l

/-- A granted request takes effect and its cost is charged (R496, R497). -/
def State.grant (s : State) (r : PwrReq) : State :=
  let s := s.modPwr fun w => { w with
    waiting := w.waiting.filter (fun x => !(x.rank == r.rank && x.unit == r.unit)),
    charges := w.charges ++ [⟨r.rank, r.unit, r.cost, if r.rank = 2 then some (s.clk.t + 5 * usUt) else none⟩] }
  match r.rank with
  | 1 => if s.get (F.PWR_PAIRCLK_STATE r.unit) = 1 then
      (s.set (F.PWR_PAIRCLK_STATE r.unit) 0).modPwr fun w => { w with awakeAt := tput natD w.awakeAt r.unit (s.clk.t + 8) } else s
  | 2 => if s.get (F.PWR_PAIRCLK_STATE r.unit) = 2 then
      (((s.set (F.PWR_PAIRCLK_STATE r.unit) 3).inc (F.PWR_PAIRCLK_STARTS r.unit)).modPwr fun w =>
        { w with lockAt := tput natD w.lockAt r.unit (s.clk.t + 20 * usUt) }) else s
  | 3 => { s with tvl := { s.tvl with lanes := true } }
  | _ => s.modPwr fun w => { w with granted := w.granted ++ [r] }

/-- The judgement of R498 over the waiting requests in order; `avail` in units of 0.1 W. -/
def State.judge (s : State) (avail : Int) : List PwrReq → State
  | [] => s
  | r :: l =>
    if r.rank = 1 then (s.grant r).judge (avail - r.cost) l
    else if r.rank = 2 ∧ s.pwr.charges.any (fun c => c.rank == 2 && (match c.till with | some t => decide (s.clk.t < t) | none => false)) then s
    else if (r.cost : Int) ≤ avail then (s.grant r).judge (avail - r.cost) l
    else s

/-- ARBITRATION_WINDOW (R31, R498, R499): the boundary at the next whole microsecond of FRC; `measured` in units of 0.1 W, `settled` the
charges (rank and unit) that now appear in the measurement. -/
def arbitrationWindow (measured : Nat) (settled : List (Nat × Nat)) (s : State) : State :=
  if !s.alive || !s.clk.frcOn then s else
  let s := s.advance (s.clk.frcBase + roundUp (s.clk.t - s.clk.frcBase) usUt)
  let s := match s.pwr.budgetNext with
    | some b => (s.set F.PWR_BUDGET_BUDGET b).modPwr fun w => { w with budgetNext := none }
    | none => s
  let s := s.modPwr fun w => { w with charges := w.charges.filter fun c =>
    match c.till with
    | some t => decide (s.clk.t < t)
    | none => !(settled.contains (c.rank, c.unit)) || c.rank == 4 }
  let unsettled := s.pwr.charges.foldl (fun a c => a + c.cost) 0
  let s := s.judge ((s.get F.PWR_BUDGET_BUDGET : Int) - measured - unsettled) (s.pwr.waiting.foldl (fun l r => reqInsert r l) [])
  let s : State := if s.pwr.waiting.isEmpty then s else s.inc F.PWR_ARBCNT_DEFERRED
  let s := s.modPwr fun w => { w with waiting := w.waiting.map fun r => { r with age := r.age + 1 } }
  (s.pwr.waiting.filter fun r => r.age == 10).foldl (fun (s : State) _ => (s.inc F.PWR_ARBCNT_LONG_WAIT).raise 428) s

/-- A burst of rank 4 ends: its charge goes (R497). -/
def State.burstEnd (s : State) (unit : Nat) : State :=
  s.modPwr fun w => { w with granted := w.granted.filter (fun r => !(r.rank == 4 && r.unit == unit)),
                             charges := w.charges.filter fun c => !(c.rank == 4 && c.unit == unit) }

/-- PLL_LOCKED (R496, R32, R79): a starting pair runs; its window opens late or its vector goes on. -/
def pllLocked (p : Nat) (s : State) : State :=
  if s.get (F.PWR_PAIRCLK_STATE p) = 3 then
    let s := s.advance (tget natD s.pwr.lockAt p)
    let s := (s.set (F.PWR_PAIRCLK_STATE p) 0).modPwr fun w =>
      { w with awakeAt := tput natD w.awakeAt p s.clk.t, charges := w.charges ++ [⟨1, p, 10, none⟩] }
    s.tryOpen p
  else s

/-! ### Clocks (R489), measured power (R499) -/

/-- A clock fault (R489): source 430, entry naming the clock, Dusk with cause 5. -/
def State.clockFault (s : State) (clock : Nat) : State := ((s.raise 430).report .CLOCK_FAULT srcPwr [clock]).enterDusk 5

/-- CLOCK_CHECK (R489): the difference found over 1 ms, in ppm. -/
def clockCheck (ppm : Nat) (s : State) : State := if s.alive && s.clk.frcOn && decide (300 < ppm) then s.clockFault 0 else s

/-- PLL_LOCK_LOST (R489); clocks 8 to 11 are the pairs', whose PLL must not be in a granted start nor off. -/
def pllLockLost (clock : Nat) (s : State) : State :=
  let pairPll : Bool := decide (8 ≤ clock ∧ clock < 12)
  if s.alive && s.clk.frcOn && !(pairPll && (!(s.pairFitted (clock - 8)) || decide (2 ≤ s.get (F.PWR_PAIRCLK_STATE (clock - 8))))) then
    s.clockFault clock
  else s

/-- SUP_SELFCHECK_FAIL (R436). -/
def supSelfcheckFail (s : State) : State := if s.alive then s.enterDusk 5 else s

/-- SUPERVISOR_MISMATCH (R432): the fault latch sets and R65 runs from its step 4. -/
def supervisorMismatch (s : State) : State := if s.alive then s.enterDusk 5 else s

/-- BUDGET_CHECK (R499): input power averaged over 1 ms, in units of 0.1 W. -/
def budgetCheck (avg : Nat) (s : State) : State :=
  if !s.alive then s else
  let s := s.set F.PWR_BUDGET_MEAS (min avg 0xFFFF)
  if s.get F.PWR_BUDGET_BUDGET < avg then ((s.inc F.PWR_ARBCNT_EXCEED).raise 427).report .BUDGET_EXCEED srcPwr [avg] else s

/-- NIGHT_CAP_LOW (R503): the capacitor reads below 2.0 V while powered; in units of 10 mV. -/
def nightCapLow (vcap : Nat) (s : State) : State :=
  if s.alive then
    let s := s.set F.PWR_NIGHT_VCAP vcap
    if vcap < 200 then s.raise 429 else s
  else s

/-- PWR_ARBCNT_CLR. -/
def pwrArbcntClr (s : State) : State := s.setReg F.PWR_ARBCNT_CLR.off 0

/-! ### Counters of the Night domain (R490, R491) -/

/-- The supervisor's copies of the two counters are written (R491). -/
def State.copyCounters (s : State) : State := s.modPwr fun w => { w with pccCopy := w.pcc, opCopy := s.optime }

/-- COUNTER_COPY (R491). -/
def counterCopy (s : State) : State := if s.alive then s.copyCounters else s

/-- OPTIME_READ (R491): reading PWR_OPTIME_LO latches PWR_OPTIME_HI. -/
def optimeRead (s : State) : State := s.modPwr fun w => { w with opHiLatch := s.optime / 2 ^ 32 }

/-- NIGHT_VALID_CLEAR (R490): without supply, the capacitor below 1.6 V. -/
def nightValidClear (s : State) : State :=
  if s.sup.st = .night then
    { s with pwr := { s.pwr with nightValid := false, rtc := 0, rtcAt := 0 }, clk := { s.clk with opAcc := 0, opOn := false } }
  else s

/-! ### Supply (R492, R509) -/

/-- HOLDUP_ENTER (R492 step 1). -/
def holdupEnter (s : State) : State :=
  if s.pwr.good && s.pwr.holdupSince.isNone then
    ((s.set F.PWR_STAT_SUPPLY 1).raise 424).modPwr fun w => { w with holdupSince := some s.clk.t }
  else s

/-- SUPPLY_DIP (R492 step 2): the duration in microseconds. -/
def supplyDip (s : State) : State :=
  match s.pwr.holdupSince with
  | some t =>
    if s.pwr.warned then s
    else (((s.set F.PWR_STAT_SUPPLY 0).raise 425).report .SUPPLY_DIP srcPwr [(s.clk.t - t) / usUt]).modPwr fun w => { w with holdupSince := none }
  | none => s

/-- POS_CHANGED (R506): a change while powered is ignored and recorded; the contacts are sampled again in the next Dawn sequence. -/
def posChanged (pos : Nat) (s : State) : State :=
  (if s.pwr.good && pos != s.ident.pos then s.report .POS_CHANGED (srcSup 3) [s.ident.pos, pos] else s).modPwr fun w => { w with posPins := pos }

/-! ### The commands -/

/-- UNGATE_REQUEST. -/
def execUngateRequest (p : Fin 4) (s : State) : Host.Outcome State Fault Refusal := .next (ungateRequest p s)
/-- PLL_RESTART_REQUEST. -/
def execPllRestartRequest (p : Fin 4) (s : State) : Host.Outcome State Fault Refusal := .next (pllRestartRequest p s)
/-- ARBITRATION_WINDOW. -/
def execArbitrationWindow (measured : Nat) (settled : List (Nat × Nat)) (s : State) : Host.Outcome State Fault Refusal :=
  .next (arbitrationWindow measured settled s)
/-- PLL_LOCKED. -/
def execPllLocked (p : Fin 4) (s : State) : Host.Outcome State Fault Refusal := .next (pllLocked p s)
/-- CLOCK_CHECK. -/
def execClockCheck (ppm : Nat) (s : State) : Host.Outcome State Fault Refusal := .next (clockCheck ppm s)
/-- PLL_LOCK_LOST. -/
def execPllLockLost (clock : Nat) (s : State) : Host.Outcome State Fault Refusal := .next (pllLockLost clock s)
/-- SUP_SELFCHECK_FAIL. -/
def execSupSelfcheckFail (s : State) : Host.Outcome State Fault Refusal := .next (supSelfcheckFail s)
/-- SUPERVISOR_MISMATCH. -/
def execSupervisorMismatch (s : State) : Host.Outcome State Fault Refusal := .next (supervisorMismatch s)
/-- HOLDUP_ENTER. -/
def execHoldupEnter (s : State) : Host.Outcome State Fault Refusal := .next (holdupEnter s)
/-- SUPPLY_DIP. -/
def execSupplyDip (s : State) : Host.Outcome State Fault Refusal := .next (supplyDip s)
/-- BUDGET_CHECK. -/
def execBudgetCheck (avg : Nat) (s : State) : Host.Outcome State Fault Refusal := .next (budgetCheck avg s)
/-- NIGHT_CAP_LOW. -/
def execNightCapLow (vcap : Nat) (s : State) : Host.Outcome State Fault Refusal := .next (nightCapLow vcap s)
/-- COUNTER_COPY. -/
def execCounterCopy (s : State) : Host.Outcome State Fault Refusal := .next (counterCopy s)
/-- OPTIME_READ. -/
def execOptimeRead (s : State) : Host.Outcome State Fault Refusal := .next (optimeRead s)
/-- PWR_ARBCNT_CLR. -/
def execPwrArbcntClr (s : State) : Host.Outcome State Fault Refusal := .next (pwrArbcntClr s)
/-- NIGHT_VALID_CLEAR. -/
def execNightValidClear (s : State) : Host.Outcome State Fault Refusal := .next (nightValidClear s)
/-- POS_CHANGED. -/
def execPosChanged (pos : Fin 4) (s : State) : Host.Outcome State Fault Refusal := .next (posChanged pos s)

end Sys2Proof.Machine
end

