-- ==== Sys2Proof/Machine/Pair.lean ====
section
/-!
DEFINITION. The lock-step pairs (chapter 2): taking an exception and a vector, returning, waiting, control registers, fences,
register banks, and the translation of user-mode addresses (R128 to R133).
-/
namespace Sys2Proof.Machine

/-! ### Taking an exception (R50, R530) and returning (R106, R107) -/

/-- Loads of a pair on the rack bridge are abandoned (R51, R383). -/
def State.leaveRack (s : State) (p : Nat) : State :=
  let mark (x : RackTx) : RackTx := if x.pair = p then (match x.kind with
    | .read _ | .lr _ => { x with left := true }
    | _ => x) else x
  { s with lrb := { s.lrb with run := s.lrb.run.map mark, waiting := s.lrb.waiting.map mark } }

/-- The pair waits on an AMO or SC of the rack window, which completes before an interrupt is taken (R51). -/
def State.rackHolds (s : State) (p : Nat) : Bool :=
  (s.lrb.waiting ++ s.lrb.run.toList).any fun x => x.pair == p && (match x.kind with | .amo _ _ _ | .sc _ => true | _ => false)

/-- What every entry to machine mode does (R55, R59): saved pc and status, no reservation, stalls abandoned (R51). -/
def Pair.enter (q : Pair) (mepc : Nat) (cause : Nat) (tval : Nat) (first : Nat) : Pair :=
  let outer := q.umode || (q.wfi && (q.hwPark || !q.curValid))
  { q with
    mepc := mepc, mcause := cause, mtval := tval, mstMpie := q.mstMie, mstMie := false, mstMpp := !q.umode,
    entryM := if outer then first else q.entryM, entryU := if outer then (if q.umode then q.pc else 0) else q.entryU,
    umode := false, wfi := false, resv := none, stall := none, fence := 0 }

/-- Every source active on a pair is completed (R530). -/
def State.completeAll (s : State) (p : Nat) : State := (s.stack p).foldl (fun (s : State) c => s.completeSource p c.1) s

/-- The pair abandons what it executes and parks; the user context of an activation still open is kept (R530). -/
def State.abandonAndPark (s : State) (p : Nat) : State :=
  let s := match s.taskOn p with
    | some n => s.setTask n { s.task n with ctx := { (s.pair p).curBank with pc := (s.pair p).entryU, task := n } }
    | none => s
  (s.toIdle p).settle p

/-- An exception (R50): the saved registers are set; with mtvec.BASE 0 it is recorded and ended under R530. -/
def State.trap (s : State) (p cause tval : Nat) : State :=
  let q := s.pair p
  let user := q.umode
  let pc := q.pc
  let s := (s.modPair p fun q => q.enter pc cause tval q.mtvec).leaveRack p
  if q.mtvec ≠ 0 then s.modPair p fun q => q.setPc q.mtvec
  else
    let s := s.report .MTVEC_UNSET (srcPair p) [pc, pc / 2 ^ 32, cause, tval, tval / 2 ^ 32]
    match user, s.taskOn p with
    | true, some n => ((s.abortAct p n).toIdle p).settle p
    | _, _ => (s.completeAll p).abandonAndPark p

/-- An executed instruction retires: the next pc, the retired one, minstret (R48). -/
def Pair.retireTo (q : Pair) (pc : Nat) : Pair :=
  let q := { q with lastPc := q.pc, minstret := if q.mcountinhibit.testBit 2 then q.minstret else (q.minstret + 1) % 2 ^ 64 }
  q.setPc pc

/-- The return from machine mode. -/
def State.mretGo (s : State) (p : Nat) : State :=
  let q := s.pair p
  let pop (q : Pair) : Pair := { q with mstMie := q.mstMpie, mstMpie := true, mstMpp := false }
  if q.hwPark then (s.modPair p fun q => { pop (q.retireTo q.pc) with wfi := true, umode := false }).settle p
  else if q.mstMpp then s.modPair p fun q => pop (q.retireTo q.mepc)
  else
    let s := (s.modPair p fun q => { pop (q.retireTo q.mepc) with umode := true }).takeSave p q.mepc
    if (s.taskOn p).isSome then s else s.settle p

/-- MRET (R106, R107); in user mode an illegal instruction. -/
def mret (p : Nat) (s : State) : State :=
  if !s.executes p then s
  else if (s.pair p).umode then s.trap p 2 0x30200073
  else s.mretGo p

/-- WFI (R49, R53, R106, R107); in user mode an illegal instruction (mstatus.TW reads 1). -/
def wfi (p : Nat) (s : State) : State :=
  if !s.executes p then s
  else if (s.pair p).umode then s.trap p 2 0x10500073
  else
    let q := s.pair p
    let s := (s.modPair p fun q => { q.retireTo (q.pc + 4) with wfi := true }).takeSave p q.mepc
    if (s.taskOn p).isSome then s
    else if s.get (F.HX_IDLE_ADDR p) = 0 ∨ q.parkDue then (s.toIdle p).settle p
    else s.settle p

/-- VECTOR_ENTRY (R55, R78, R107): the committed vector is entered at an instruction boundary at which the pair accepts vectors. -/
def vectorEntry (p : Nat) (s : State) : State :=
  match s.committed p with
  | none => s
  | some v =>
    let s := if s.get (F.PWR_PAIRCLK_STATE p) = 0 then s.advance (tget natD s.pwr.awakeAt p) else s
    let q := s.pair p
    if !s.pairFitted p || !s.alive || s.sup.st == .dusk || q.idle || !q.accepts || !s.awake p || s.rackHolds p then s else
    let parked := q.hwPark && q.wfi
    let mepc := if parked then (Config.freeValue s.freeCtr).toNat else q.pc
    let s := if parked then s.free else s
    ((s.modPair p fun q => (q.enter mepc 0x800000000000000B 0 v.addr).setPc v.addr).leaveRack p).setCommitted p none

/-! ### Halting (R68, R69, R71) -/

/-- A halted pair goes on: the budget end of a frozen window, and a quantum's end, move by the time halted (R69, R114). -/
def State.thaw (s : State) (p : Nat) : State :=
  let x := s.unit p
  let dt := match x.haltedAt with | some t => s.clk.t - t | none => 0
  let s := (s.modPair p fun q => { q with halted := false }).setUnit p
    { x with haltedAt := none, ext := x.ext + (if s.timerFrozen p then dt else 0), slack := x.slack.map fun c => (c.1, c.2 + dt) }
  match s.taskOn p with
  | some n => if x.began then s.execStart n else s
  | none => s

/-- A pair resumes; deferred switches are made (R69). -/
def State.resumePair (s : State) (p : Nat) : State :=
  if !(s.pair p).halted then s else
  let s := s.thaw p
  if (s.taskOn p).isSome then s else s.settle p

/-- EBREAK (R71). -/
def ebreak (p : Nat) (s : State) : State :=
  if !s.executes p then s
  else if s.sup.st = .service ∧ !(s.pair p).umode then s.haltPair p
  else s.trap p 3 (s.pair p).pc

/-- TRIGGER_HIT (R71): in the Service state, before the instruction at a trigger's address executes. -/
def triggerHit (p : Nat) (s : State) : State :=
  if s.executes p && s.trigHit p then s.haltPair p else s

/-! ### Control and status registers (R44, R45, R48, R54 to R56, R58) -/

/-- The bank that PLX_BANK shows as preloaded: that of the next window, else one preloaded for slack (R54, R100, R117). Which of two is shown
the spec does not say (DESIGN CHOICE, log 123). -/
def State.preBank (s : State) (p : Nat) : Option Nat :=
  match (s.pair p).pre with
  | some b => some b
  | none => ((s.unit p).slackPre.map fun c => c.2).filter fun b => (s.pair p).bankSt b == .preloaded

/-- PLX_BANK. -/
def State.plxBank (s : State) (p : Nat) : Nat :=
  let q := s.pair p
  let pre := s.preBank p
  let preTask := match pre with | some b => (q.bank b).task | none => 0
  b2n pre.isSome * 2 ^ 31 + pre.getD 0 * 2 ^ 28 + preTask % 1024 * 2 ^ 18 + b2n q.curValid * 2 ^ 17 + q.cur * 2 ^ 14
    + q.curBank.task % 1024 * 16 + q.view

/-- A register of a bank by the index of PLX_BANKIDX. -/
def Bank.reg (b : Bank) (i : Nat) : DWord :=
  if i = 0 then BitVec.ofNat 64 b.pc
  else if i < 32 then tget dwordD b.x i
  else if i < 64 then tget dwordD b.f (i - 32)
  else if i = 64 then b.fcsr.setWidth 64
  else if i = 65 then BitVec.ofNat 64 b.fs
  else 0

/-- A register of a bank takes a value; indexes above 65 ignore it. -/
def Bank.setReg (b : Bank) (i : Nat) (v : DWord) : Bank :=
  if i = 0 then { b with pc := v.toNat }
  else if i < 32 then { b with x := tput dwordD b.x i v }
  else if i < 64 then { b with f := tput dwordD b.f (i - 32) v }
  else if i = 64 then { b with fcsr := v.setWidth 32 &&& 0xFF }
  else if i = 65 then { b with fs := v.toNat % 4 }
  else b

/-- A write through PLX_BANKDAT (R54). -/
def Pair.bankdat (q : Pair) (v : DWord) : Pair :=
  if q.bankSt q.view = .loading ∨ q.bankSt q.view = .preloaded then { q with bankErr := true }
  else q.setBank q.view ((q.bank q.view).setReg q.bankIdx v)

/-- A write of PLX_VBASE (R56). -/
def State.writeVbase (s : State) (p : Nat) (v : DWord) : State :=
  let base := v.toNat % 2 ^ 40 / 2 ^ 15 * 2 ^ 15
  if inSram base then s.modPair p fun q => { q with vbase := base, ven := v.getLsbD 0 }
  else (s.modPair p fun q => { q with ven := false }).report .VBASE_REJECT (srcPair p) [v.toNat, v.toNat / 2 ^ 32]

/-- mstatus: SD, UXL = 2, TW = 1, FS of the bank in use, MPP, MPIE, MIE. -/
def Pair.mstatus (q : Pair) : Nat :=
  b2n (q.curBank.fs == 3) * 2 ^ 63 + 2 * 2 ^ 32 + 2 ^ 21 + q.curBank.fs % 4 * 2 ^ 13 + (if q.mstMpp then 3 else 0) * 2 ^ 11
    + b2n q.mstMpie * 2 ^ 7 + b2n q.mstMie * 8

/-- A CSR as it reads: none where there is no such CSR (R45). The spec names no event selector of counters 3 and 4; they read 0 and ignore
writes, as those of the other counters do (DESIGN CHOICE, log 124). -/
def State.csrRead (s : State) (p csr : Nat) : Option Nat :=
  let q := s.pair p
  if (0xB05 ≤ csr ∧ csr < 0xB20) ∨ (0xC05 ≤ csr ∧ csr < 0xC20) ∨ (0x323 ≤ csr ∧ csr < 0x340) then some 0 else
  match csr with
  | 0x001 => some (q.curBank.fcsr.toNat % 32)
  | 0x002 => some (q.curBank.fcsr.toNat / 32 % 8)
  | 0x003 => some (q.curBank.fcsr.toNat % 256)
  | 0x300 => some q.mstatus
  | 0x301 => some 0x800000000010112D
  | 0x304 => some q.mieCsr
  | 0x305 => some q.mtvec
  | 0x306 => some q.mcounteren
  | 0x320 => some q.mcountinhibit
  | 0x340 => some q.mscratch
  | 0x341 => some q.mepc
  | 0x342 => some q.mcause
  | 0x343 => some q.mtval
  | 0x344 => some 0
  | 0xB00 => some q.mcycle
  | 0xB02 => some q.minstret
  | 0xB03 => some q.hpm3
  | 0xB04 => some q.hpm4
  | 0xC00 => some q.mcycle
  | 0xC01 => some s.frc
  | 0xC02 => some q.minstret
  | 0xC03 => some q.hpm3
  | 0xC04 => some q.hpm4
  | 0xF11 => some 0
  | 0xF12 => some 0
  | 0xF13 => some (sysId s.ident)
  | 0xF14 => some p
  | 0xF15 => some 0
  | 0x7C0 => some (s.plxBank p)
  | 0x7C1 => some (q.vbase + b2n q.ven)
  | 0x7C3 => some (b2n q.bankErr * 2 ^ 31 + q.bankIdx)
  | 0x7C4 => some ((q.bank q.view).reg q.bankIdx).toNat
  | 0x8C0 => some 0
  | 0xFC0 => some ((if s.sealed then s.get F.TVL_CFG_VCU else 3) * 64 + s.ident.pos % 4 * 16 + p)
  | 0xFC2 => some (q.cmpPass * 65536 + 2 * b2n q.cmpDue + b2n q.cmpDawnOk)
  | _ => none

/-- A write of a CSR that has no step of its own; others are unchanged. -/
def State.csrWrite (s : State) (p csr : Nat) (v : DWord) : State :=
  let n := v.toNat
  let fc (q : Pair) (w : Word) : Pair := q.setCur { q.curBank with fcsr := w, fs := 3 }
  match csr with
  | 0x001 => s.modPair p fun q => fc q ((q.curBank.fcsr &&& ~~~(0x1F : Word)) ||| BitVec.ofNat 32 (n % 32))
  | 0x002 => s.modPair p fun q => fc q ((q.curBank.fcsr &&& ~~~(0xE0 : Word)) ||| BitVec.ofNat 32 (n % 8 * 32))
  | 0x003 => s.modPair p fun q => fc q (BitVec.ofNat 32 (n % 256))
  | 0x300 => s.modPair p fun q => { q.setCur { q.curBank with fs := n / 2 ^ 13 % 4 } with
      mstMie := n.testBit 3, mstMpie := n.testBit 7, mstMpp := n / 2 ^ 11 % 4 == 3 }
  | 0x304 => s.modPair p fun q => { q with mieCsr := n &&& 0x888 }
  | 0x305 => s.modPair p fun q => { q with mtvec := n / 4 * 4 }
  | 0x306 => s.modPair p fun q => { q with mcounteren := n % 32 }
  | 0x320 => s.modPair p fun q => { q with mcountinhibit := n &&& 0x1D }
  | 0x340 => s.modPair p fun q => { q with mscratch := n }
  | 0x341 => s.modPair p fun q => { q with mepc := n / 2 * 2 }
  | 0x342 => s.modPair p fun q => { q with mcause := n }
  | 0x343 => s.modPair p fun q => { q with mtval := n }
  | 0xB00 => s.modPair p fun q => { q with mcycle := n }
  | 0xB02 => s.modPair p fun q => { q with minstret := n }
  | 0xB03 => s.modPair p fun q => { q with hpm3 := n }
  | 0xB04 => s.modPair p fun q => { q with hpm4 := n }
  | 0x7C0 => s.modPair p fun q => { q with view := n % 4 }
  | 0x7C1 => s.writeVbase p v
  | 0x7C3 => s.modPair p fun q => { q with bankIdx := n % 128, bankErr := q.bankErr && !(n.testBit 31) }
  | 0x7C4 => s.modPair p fun q => q.bankdat v
  | _ => s

/-- The CSR exists and the mode may access it (R45, R48, R58): privilege in bits [9:8], read-only from bits [11:10] = 3. -/
def State.csrOk (s : State) (p csr : Nat) (write : Bool) : Bool :=
  let q := s.pair p
  (s.csrRead p csr).isSome && !(write && decide (0xC00 ≤ csr)) &&
    (!q.umode || decide (csr / 256 % 4 = 0)) &&
    !(q.umode && decide (0xC00 ≤ csr ∧ csr < 0xC20) && !(q.mcounteren.testBit (csr - 0xC00))) &&
    !(decide (csr = 1 ∨ csr = 2 ∨ csr = 3) && q.curBank.fs == 0)

/-- BANKDAT_WRITE (R54): csrw plx_bankdat. -/
def bankdatWrite (p : Nat) (v : DWord) (s : State) : State :=
  if !s.executes p then s
  else if (s.pair p).umode then s.trap p 2 0
  else s.modPair p fun q => (q.retireTo (q.pc + 4)).bankdat v

/-- VBASE_WRITE (R56): csrw plx_vbase. -/
def vbaseWrite (p : Nat) (v : DWord) (s : State) : State :=
  if !s.executes p then s
  else if (s.pair p).umode then s.trap p 2 0
  else (s.modPair p fun q => q.retireTo (q.pc + 4)).writeVbase p v

/-! ### PLX_FENCE (R57, R58) -/

/-- A write of PLX_FENCE: the pair stalls on the classes named; 0 has no effect. -/
def State.fenceWrite (s : State) (p mask : Nat) : State :=
  if mask % 16 = 0 then s.modPair p fun q => q.retireTo (q.pc + 4) else s.modPair p fun q => { q with fence := mask % 16 }

def plxFenceDev (p : Nat) (s : State) : State := if s.executes p then s.fenceWrite p 1 else s
def plxFenceLe (p : Nat) (s : State) : State := if s.executes p then s.fenceWrite p 2 else s
def plxFenceQ (p : Nat) (s : State) : State := if s.executes p then s.fenceWrite p 4 else s
def plxFenceHx (p : Nat) (s : State) : State := if s.executes p then s.fenceWrite p 8 else s

/-- The endpoint code of what the pair executes: its partition, or its machine mode (R158). -/
def State.endpoint (s : State) (p : Nat) : Nat :=
  match (s.pair p).umode, (s.taskOn p).bind s.taskD? with
  | true, some t => t.part
  | _, _ => 0x108 + p

/-- Every class the pair waits for is complete (R58). -/
def State.fenceDone (s : State) (p : Nat) : Bool :=
  let f := (s.pair p).fence
  let rackWrites : Bool := (s.lrb.waiting ++ s.lrb.run.toList).any fun x => x.pair == p && x.kind == .write
  let unseen : Bool := (List.range 64).any fun q => s.get (F.HXQ_CFG_PROD q) == s.endpoint p && (s.queue (0x38000 + q * 0x100)).unver != 0
  let pageOps : Bool := match (s.taskOn p).bind s.taskD? with | some t => s.hxm.ops.any fun o => o.part == t.part | none => false
  !(f.testBit 0 && rackWrites) && !(f.testBit 2 && unseen) && !(f.testBit 3 && pageOps)

/-- FENCE_COMPLETE (R58). -/
def fenceComplete (p : Nat) (s : State) : State :=
  let q := s.pair p
  if q.fence ≠ 0 ∧ !q.idle ∧ s.fenceDone p then s.modPair p fun q => { q.retireTo (q.pc + 4) with fence := 0 } else s

/-! ### Translation of user-mode addresses (R128 to R133, R140, R141, R144) -/

/-- Kinds of access. -/
inductive Acc where
  | read
  | write
  | exec
  deriving DecidableEq, Repr

/-- What a user-mode address stands for. -/
inductive UMap where
  /-- A byte of memory; the page map's key where it is a page of the partition. -/
  | mem (pa : Nat) (key : Option Nat)
  /-- Offset in an agreed image of the activation. -/
  | agreed (g o : Nat)
  /-- Offset in the task's output region. -/
  | output (n o : Nat)
  /-- Offset in the register group of a queue. -/
  | qreg (q o : Nat)
  /-- A page fault with the cause HXM_FAULTINFO shows. -/
  | fault (cause : Nat)
  /-- A deadline task outside its working set (R141). -/
  | violation (up : Nat)
  /-- The page is absent: an access that counts as a stage miss; `out`: outside the working set. -/
  | miss (up : Nat) (out : Bool)
  /-- The page is absent: background access to a page whose frame no error has taken. -/
  | fill (up : Nat)
  deriving DecidableEq, Repr

/-- A private address (R128, R140, R141, R144, R152). -/
def State.mapPage (s : State) (t : Task) (va : Nat) (a : Acc) : UMap :=
  let up := va / 4096
  match s.segOf t.part up with
  | none => .fault 1
  | some g =>
    let need := match a with | .read => 0 | .write => 1 | .exec => 2
    let k := pkey t.part up
    let c := s.page k
    let inSet := (s.wsetOf t).contains up
    if !(g.rights.testBit need) then .fault 2
    else if g.home = 3 ∧ !c.exist then .fault 6
    else if c.poisoned then .fault 5
    else if t.cls = 0 ∧ !inSet then .violation up
    else match c.frame with
      | some f => .mem (frameAddr f + va % 4096) (some k)
      | none => if t.cls = 2 ∧ !c.lost then .fill up else .miss up (t.cls != 2 && !inSet)

/-- The user address map (R130, R131) for `n` bytes at `va`. -/
def State.umap (s : State) (tn va n : Nat) (a : Acc) : UMap :=
  match s.taskD? tn with
  | none => .fault 1
  | some t =>
    if va < 0x10000 ∨ 0x80000000 ≤ va then .fault 1
    else if va < 0x40000000 then s.mapPage t va a
    else
      let g := va / 0x1000000 % 16
      let o := va % 0x1000000
      let code := t.part
      if va < 0x44000000 then
        (if s.inBytes g < o + n ∨ !(s.hx.sched.tasks.any fun x => x.part == t.part && x.group == g) then .fault 1
         else if a = .read then .agreed g o else .fault 2)
      else if 0x50000000 ≤ va ∧ va < 0x54000000 then
        (if s.outBytes g < o + n then .fault 1
         else if a = .exec then .fault 2
         else if t.cls ≠ 2 ∧ t.group = g ∧ t.outOfs ≤ o ∧ o + n ≤ t.outOfs + t.outLen then .output tn o else .fault 3)
      else if 0x70000000 ≤ va ∧ va < 0x70040000 then
        (let q := va % 0x40000 / 0x1000
         if 0x20 < va % 0x1000 + n ∨ !(s.get (F.HXQ_CFG_PROD q) == code || s.get (F.HXQ_CFG_CONS q) == code) ∨ !(s.flag (F.HXQ_CFG_EN q)) then .fault 1
         else if a = .exec then .fault 2 else .qreg q (va % 0x1000))
      else if 0x71000000 ≤ va ∧ va < 0x75000000 then
        (let q := (va - 0x71000000) / 0x100000
         let ge := s.qgeo q
         let o := va % 0x100000
         if !(s.flag (F.HXQ_CFG_EN q)) ∨ ge.depth * ge.esize < o + n ∨ !(ge.prod == code || ge.cons == code) then .fault 1
         else if a = .exec ∨ (a = .write ∧ ge.prod ≠ code) then .fault 2 else .mem (ge.addr + o) none)
      else if 0x7F000000 ≤ va ∧ va < 0x7F001000 then
        (match s.part? t.part with
         | some d => if d.pflags.testBit 1 then (if a = .exec then .fault 2 else .mem (portAddr (0xF30 + t.part) + va % 0x1000) none) else .fault 1
         | none => .fault 1)
      else .fault 1

/-- The page-fault exception of an access kind. -/
def Acc.pageFault : Acc → Nat
  | .read => 13
  | .write => 15
  | .exec => 12
/-- The access-fault exception of an access kind. -/
def Acc.accessFault : Acc → Nat
  | .read => 5
  | .write => 7
  | .exec => 1

/-- A page-fault exception with its cause recorded (R133). -/
def State.pageFault (s : State) (p tn va cause : Nat) (a : Acc) : State :=
  ((s.set (F.HXM_FAULTINFO_CAUSE p) cause).set (F.HXM_FAULTINFO_TASK p) tn).trap p a.pageFault va

/-- A private page outside the working set of a staged-class task's window (R141). -/
def State.outside (s : State) (tn va : Nat) : Bool :=
  match s.taskD? tn with
  | some t => t.cls == 1 && !((s.wsetOf t).contains (va / 4096))
  | none => false

/-- An access to a resident page: outside the working set it is a violation and a stage miss without a stall (R141). -/
def State.resident (s : State) (p tn va : Nat) (key : Option Nat) : State :=
  if key.isSome && s.outside tn va then s.wsetResident p tn (va / 4096) else s

/-- The outcome of a refused or waiting translation: exception, or stall (R133, R140, R141, R144). -/
def State.mapStop (s : State) (p tn va : Nat) (a : Acc) (m : UMap) : State :=
  match s.taskD? tn with
  | none => s
  | some t =>
    match m with
    | .fault c => s.pageFault p tn va c a
    | .violation up => (s.wsetMark tn up).pageFault p tn va 4 a
    | .miss up out => (if out then s.wsetMark tn up else s).stageMiss p tn t.part up
    | .fill up => s.askPage p t.part up (.demand p) (.fill up)
    | .mem _ key => s.resident p tn va key
    | _ => s

/-- A user access that is one of the stopping cases: the pair in user mode, executing task `tn`. -/
def State.userAccess (s : State) (p va : Nat) (a : Acc) (sel : UMap → Bool) : State :=
  match s.taskOn p with
  | some tn =>
    let m := s.umap tn va 1 a
    if s.executes p && (s.pair p).umode && sel m then s.mapStop p tn va a m else s
  | none => s

/-- STAGE_MISS (R140): a staged task reads a page still absent. -/
def stageMiss (p va : Nat) (s : State) : State := s.userAccess p va .read fun m => match m with | .miss _ o => !o | _ => false
/-- WSET_VIOLATION (R141). -/
def wsetViolation (p va : Nat) (s : State) : State :=
  s.userAccess p va .read fun m => match m with
    | .violation _ => true
    | .miss _ o => o
    | .mem _ key => key.isSome && (match s.taskOn p with | some tn => s.outside tn va | none => false)
    | _ => false
/-- DEMAND_FILL (R144). -/
def demandFill (p va : Nat) (s : State) : State := s.userAccess p va .read fun m => match m with | .fill _ => true | _ => false

/-! ### Executive calls that may trap (R103) -/

/-- YIELD (R103): a background task gives up the window or quantum; from any other class an ordinary ECALL. -/
def yield (p : Nat) (s : State) : State :=
  match s.taskOn p with
  | some n =>
    if !s.executes p || !(s.pair p).umode then s else
    match s.taskD? n with
    | some t => if t.cls = 2 then (((s.retire p).execStop n).taskIdle n).endHere p else s.trap p 8 0
    | none => s
  | none => s

/-- EXCEPTION_TRAP (R50, R45, R46, R124): an exception by its cause; page faults only where translation refuses the access. -/
def exceptionTrap (p cause : Nat) (tval : DWord) (s : State) : State :=
  if !s.executes p then s else
  let user := (s.pair p).umode
  let va := tval.toNat
  let page (a : Acc) : State := if user then s.userAccess p va a (fun m => match m with | .fault _ => true | .violation _ => true | _ => false) else s
  match cause with
  | 12 => page .exec
  | 13 => page .read
  | 15 => page .write
  | 8 => if user then s.trap p 8 va else s
  | 11 => if user then s else s.trap p 11 va
  | 0 | 1 | 2 | 3 | 4 | 5 | 6 | 7 => s.trap p cause va
  | _ => s

/-! ### The commands -/

/-- EXCEPTION_TRAP. -/
def execExceptionTrap (p : Fin 4) (cause : Fin 16) (tval : DWord) (s : State) : Host.Outcome State Fault Refusal :=
  .next (s.asInsn p (exceptionTrap p cause tval))
/-- VECTOR_ENTRY. -/
def execVectorEntry (p : Fin 4) (s : State) : Host.Outcome State Fault Refusal := .next (vectorEntry p s)
/-- WFI. -/
def execWfi (p : Fin 4) (s : State) : Host.Outcome State Fault Refusal := .next (s.asInsn p (wfi p))
/-- MRET. -/
def execMret (p : Fin 4) (s : State) : Host.Outcome State Fault Refusal := .next (s.asInsn p (mret p))
/-- EBREAK. -/
def execEbreak (p : Fin 4) (s : State) : Host.Outcome State Fault Refusal := .next (s.asInsn p (ebreak p))
/-- TRIGGER_HIT. -/
def execTriggerHit (p : Fin 4) (s : State) : Host.Outcome State Fault Refusal := .next (triggerHit p s)
/-- BANKDAT_WRITE. -/
def execBankdatWrite (p : Fin 4) (v : DWord) (s : State) : Host.Outcome State Fault Refusal := .next (s.asInsn p (bankdatWrite p v))
/-- VBASE_WRITE. -/
def execVbaseWrite (p : Fin 4) (v : DWord) (s : State) : Host.Outcome State Fault Refusal := .next (s.asInsn p (vbaseWrite p v))
/-- PLX_FENCE_DEV. -/
def execPlxFenceDev (p : Fin 4) (s : State) : Host.Outcome State Fault Refusal := .next (s.asInsn p (plxFenceDev p))
/-- PLX_FENCE_Q. -/
def execPlxFenceQ (p : Fin 4) (s : State) : Host.Outcome State Fault Refusal := .next (s.asInsn p (plxFenceQ p))
/-- PLX_FENCE_LE. -/
def execPlxFenceLe (p : Fin 4) (s : State) : Host.Outcome State Fault Refusal := .next (s.asInsn p (plxFenceLe p))
/-- PLX_FENCE_HX. -/
def execPlxFenceHx (p : Fin 4) (s : State) : Host.Outcome State Fault Refusal := .next (s.asInsn p (plxFenceHx p))
/-- FENCE_COMPLETE. -/
def execFenceComplete (p : Fin 4) (s : State) : Host.Outcome State Fault Refusal := .next (fenceComplete p s)
/-- YIELD. -/
def execYield (p : Fin 4) (s : State) : Host.Outcome State Fault Refusal := .next (s.asInsn p (yield p))
/-- STAGE_MISS. -/
def execStageMiss (p : Fin 4) (va : Nat) (s : State) : Host.Outcome State Fault Refusal := .next (s.asInsn p (stageMiss p va))
/-- WSET_VIOLATION. -/
def execWsetViolation (p : Fin 4) (va : Nat) (s : State) : Host.Outcome State Fault Refusal := .next (s.asInsn p (wsetViolation p va))
/-- DEMAND_FILL. -/
def execDemandFill (p : Fin 4) (va : Nat) (s : State) : Host.Outcome State Fault Refusal := .next (s.asInsn p (demandFill p va))

end Sys2Proof.Machine
end

