-- ==== Sys2Proof/Machine/Lrb.lean ====
section
/-!
DEFINITION. The legacy rack bridge (chapter 15): arbitration, outbound cycles of the pairs and of the lists, locked cycles and the
semaphore, inbound cycles, prefetch and violations.
-/
namespace Sys2Proof.Machine

def State.modLrb (s : State) (f : Lrb → Lrb) : State := { s with lrb := f s.lrb }

/-- Counter `i` of R396 counts one more. -/
def State.lrbCount (s : State) (i : Nat) : State := s.inc (if i % 2 = 0 then F.LRB_CNT_LO (i / 2) else F.LRB_CNT_HI (i / 2))

/-- The bridge is in use (R394): its lines are not released. -/
def State.lrbOn (s : State) : Bool :=
  s.lrbFitted && s.flag F.LRB_CFG_EN && (match s.sup.st with | .stop | .run | .hold | .service | .dusk => true | _ => false)
/-- It may start outbound transactions. -/
def State.lrbOut (s : State) : Bool := s.lrbOn && !s.dusked

/-- The physical address of the rack window. -/
def rackBase : Nat := 0x60000000

/-- LRB_ERRADDR takes an error: outbound or inbound, kind, rack address. -/
def State.lrbErr (s : State) (out : Bool) (kind addr : Nat) : State :=
  ((s.set F.LRB_ERRADDR_OUT (b2n out)).set F.LRB_ERRADDR_KIND kind).set F.LRB_ERRADDR_ADDR addr

/-- The rack address lies inside the enabled inbound window (R384, R387). -/
def State.inWin (s : State) (addr : Nat) : Bool :=
  s.flag F.LRB_INWIN_EN && decide (s.get F.LRB_INWIN_BASE * 65536 ≤ addr ∧ addr < (s.get F.LRB_INWIN_BASE + s.get F.LRB_INWIN_SIZE) * 65536)

/-! ### The cycles of a transaction (R384, R385, R389, R391, R392) -/

/-- The cycles of an access of `2 ^ size` bytes (R384). -/
def rackCycles (addr size : Nat) (wr : Bool) (v : Nat) : List RackCyc :=
  match size with
  | 0 => if addr % 2 = 0 then [⟨addr, wr, true, false, v % 256 * 256, false⟩] else [⟨addr, wr, false, true, v % 256, false⟩]
  | 1 => [⟨addr, wr, true, true, v % 65536, false⟩]
  | _ => [⟨addr, wr, true, true, v / 65536 % 65536, true⟩, ⟨addr + 2, wr, true, true, v % 65536, false⟩]

/-- The value of the halves read, by size (R384). -/
def rackValue (addr size : Nat) (got : List Nat) : Nat :=
  let h := got.getD 0 0
  match size with
  | 0 => if addr % 2 = 0 then h / 256 else h % 256
  | 1 => h
  | _ => h * 65536 + got.getD 1 0

/-- The halfword addresses after an access up to the next 16-byte boundary (R389). -/
def pfAddrs (addr size : Nat) : List Nat :=
  let first := (addr + 2 ^ size + 1) / 2 * 2
  let stop := (addr / 16 + 1) * 16
  (List.range ((stop - first) / 2)).map fun i => first + 2 * i

/-- The address lies in a window marked for prefetch. -/
def State.prefetchable (s : State) (addr : Nat) : Bool :=
  (List.range 8).any fun w =>
    let n := 2 ^ s.get (F.LRB_PFWIN_SIZE_LOG2 w)
    s.flag (F.LRB_PFWIN_EN w) && decide (s.get (F.LRB_PFWIN_BASE w) * 256 ≤ addr ∧ addr < s.get (F.LRB_PFWIN_BASE w) * 256 + n)

/-- A list entry's item from the halves read (R390 CONV). -/
def rackItem (conv : Nat) : List Nat → List Byte
  | [] => []
  | h :: r =>
    match conv with
    | 0 => leBytes 2 h ++ rackItem conv r
    | 1 => beBytes 2 h ++ rackItem conv r
    | _ => match r with
      | l :: t => leBytes 2 l ++ leBytes 2 h ++ rackItem conv t
      | [] => leBytes 2 h

/-- The halves of an item for the rack. -/
def rackHalves (conv : Nat) : List Byte → List Nat
  | a :: b :: r =>
    match conv with
    | 0 => leNat [a, b] :: rackHalves conv r
    | 1 => beNat [a, b] :: rackHalves conv r
    | _ => match r with
      | c :: d :: t => leNat [c, d] :: leNat [a, b] :: rackHalves conv t
      | _ => [leNat [a, b]]
  | _ => []

/-- The cycles of a list entry: halfword cycles, or word pairs for CONV 2 (R391). -/
def listCycles (t : RackEntry) (wr : Bool) (vals : List Nat) : List RackCyc :=
  (List.range (t.len / 2)).map fun i => ⟨t.addr + 2 * i, wr, true, true, vals.getD i 0, t.conv == 2 && i % 2 == 0⟩

/-! ### The semaphore (R386) -/

/-- The semaphore is valid: SEM_VALID, not expired, and the pair's reservation not cleared (R59, R386). -/
def State.semLive (s : State) : Bool :=
  s.flag F.LRB_STAT_SEM_VALID && decide (s.clk.t ≤ s.lrb.semTill) &&
    (s.pair (s.get F.LRB_STAT_SEM_PAIR)).resv == some ((rackBase + s.lrb.semAddr) / 64)

/-- A write cycle by a pair touches the word. -/
def State.semTouch (s : State) (p addr : Nat) : State :=
  if s.flag F.LRB_STAT_SEM_VALID ∧ s.get F.LRB_STAT_SEM_PAIR ≠ p ∧ addr / 4 = s.lrb.semAddr / 4 then s.set F.LRB_STAT_SEM_VALID 0 else s

/-- Prefetch buffers that a write of `n` bytes overlaps are discarded (R389). -/
def State.pfOverlap (s : State) (addr n : Nat) : State :=
  [0, 1, 2, 3].foldl (fun (s : State) p =>
    match tget noneD s.lrb.pf p with
    | some b => if b.halves.any fun c => decide (c.1 < addr + n ∧ addr < c.1 + 2) then s.pfDiscard p else s
    | none => s) s

/-! ### Starting transactions -/

/-- A load, AMO, LR or SC of a pair ends with a value in a register; the pair goes on. What returns to a frozen pair is discarded (R65). -/
def State.rackReturn (s : State) (p : Nat) (d : RackLd) (v : Nat) : State :=
  let put (q : Pair) : Pair :=
    if d.fp then q.setCur { q.curBank with f := tput dwordD q.curBank.f d.rd (BitVec.ofNat 64 (0xFFFFFFFF00000000 + v % 2 ^ 32)), fs := 3 }
    else q.setX d.rd (BitVec.ofNat 64 v)
  s.modPair p fun q => if q.frozen then q else { (put q).retireTo (q.pc + d.len) with stall := none }

/-- A value of `2 ^ size` bytes, extended to 64 bits. -/
def rackExt (size : Nat) (unsigned : Bool) (v : Nat) : Nat := if unsigned then v else ofSigned 64 (toSigned (8 * 2 ^ size) v)

/-- Whether SC.W may write (R386). -/
def State.scOk (s : State) (x : RackTx) : Bool := s.semLive && s.get F.LRB_STAT_SEM_PAIR == x.pair && s.lrb.semAddr == x.addr

/-- The bridge takes its next transaction, list entries first; an SC.W that may not write, and a write entry whose lease copy is not
valid, end at once. -/
def State.lrbNext (s : State) : Nat → State
  | 0 => s
  | n + 1 =>
    if s.lrb.run.isSome then s else
    match s.lrb.lists with
    | x :: r => s.modLrb fun l => { l with run := some { x with acc := s.clk.t }, lists := r }
    | [] =>
      match s.lrb.waiting with
      | [] => s
      | x :: r =>
        let s := s.modLrb fun l => { l with waiting := r }
        match x.kind with
        | .sc d =>
          if s.scOk x then (s.set F.LRB_STAT_SEM_VALID 0).modLrb fun l => { l with run := some { x with acc := s.clk.t } }
          else (((s.set F.LRB_STAT_SEM_VALID 0).lrbCount 5).rackReturn x.pair d 1).lrbNext n
        | _ => s.modLrb fun l => { l with run := some { x with acc := s.clk.t } }

/-- Transactions that can follow at once. -/
def State.lrbGo (s : State) : State := s.lrbNext (s.lrb.waiting.length + s.lrb.lists.length + 1)

/-- A pair's access enters the fabric port of the bridge. -/
def State.rackAccept (s : State) (x : RackTx) : State := (s.modLrb fun l => { l with waiting := l.waiting ++ [x] }).lrbGo

/-- The exception of an access that ends in an error: load, or store and AMO. -/
def rackCause : RackKind → Nat
  | .read _ => 5
  | .lr _ => 5
  | _ => 7

/-- An access that ends under R384: ACCESS_ERR and source 364. -/
def State.rackRefuse (s : State) (addr : Nat) : State := ((s.lrbCount 3).raise 364).lrbErr true 3 addr

/-- A pair in machine mode makes an access to the window; data held for it is discarded unless this load takes it (R383). `e` is what the
error response of a refused access does: no fault for a store (R383). -/
def State.rackAccess (s : State) (p addr size : Nat) (cause : Nat) (read : Bool) (e k : State → State) : State :=
  if !s.executes p || (s.pair p).umode then s
  else if !s.lrbFitted then (s.absentAccess (0x20000000 + addr)).trap p cause (rackBase + addr)
  else if size = 3 ∨ addr % 2 ^ size ≠ 0 ∨ s.inWin addr then e (s.rackRefuse addr)
  else
    match tget noneD s.lrb.held p with
    | some h =>
      if read ∧ h.addr = addr ∧ h.size = size ∧ s.clk.t ≤ h.tm + 10 * usUt then k s
      else k ((s.lrbCount 9).modLrb fun l => { l with held := tput noneD l.held p none })
    | none => k s

/-- The pair waits for its access. -/
def State.rackStall (s : State) (p : Nat) (read : Bool) : State := s.modPair p fun q => { q with stall := some (.rack read) }

/-- A refused access of a pair that waits for its answer ends in an access fault. -/
def rackTrap (p addr cause : Nat) (s : State) : State := s.trap p cause (rackBase + addr)

/-- A read of an LR or AMO outside the pair's prefetch buffer discards it (R389). -/
def State.pfOutside (s : State) (p addr : Nat) : State :=
  match tget noneD s.lrb.pf p with
  | some b => if [addr, addr + 2].all fun a => b.halves.any fun c => c.1 == a then s else s.pfDiscard p
  | none => s

/-- RACK_READ (R383, R384, R389): from held data, from the prefetch buffer, or as an outbound transaction. -/
def rackRead (p addr size : Nat) (d : RackLd) (s : State) : State :=
  s.rackAccess p addr size 5 true (rackTrap p addr 5) fun s =>
    match tget noneD s.lrb.held p with
    | some h => (s.modLrb fun l => { l with held := tput noneD l.held p none }).rackReturn p d (rackExt size d.unsigned h.value)
    | none =>
      let hit (b : Prefetch) : Option (List Nat) :=
        ((List.range (if size = 2 then 2 else 1)).map fun i => addr / 2 * 2 + 2 * i).mapM fun a => (b.halves.find? fun c => c.1 == a).map fun c => c.2
      match (tget noneD s.lrb.pf p).bind fun b => (hit b).map fun g => (b, g) with
      | some (b, g) =>
        let b := { b with fresh := b.fresh.filter fun a => decide (a + 2 ≤ addr ∨ addr + 2 ^ size ≤ a) }
        (s.modLrb fun l => { l with pf := tput noneD l.pf p (some b) }).rackReturn p d (rackExt size d.unsigned (rackValue addr size g))
      | none =>
        let s := s.pfDiscard p
        let more := if s.prefetchable addr then (pfAddrs addr size).map fun a => RackCyc.mk a false true true 0 false else []
        (s.rackStall p true).rackAccept ⟨.read d, p, addr, size, s.clk.t, rackCycles addr size false 0 ++ more, [], false⟩

/-- RACK_WRITE (R383, R384): the store retires, and its rack cycle follows. -/
def rackWrite (p addr size : Nat) (v : DWord) (len : Nat) (s : State) : State :=
  let next (s : State) : State := s.modPair p fun q => q.retireTo (q.pc + len)
  s.rackAccess p addr size 7 false next fun s =>
    (next s).rackAccept ⟨.write, p, addr, size, s.clk.t, rackCycles addr size true v.toNat, [], false⟩

/-- RACK_AMO (R385): two reads, then two writes, under LOCK_N. -/
def rackAmo (p addr : Nat) (dbl : Bool) (op : AmoOp) (v : DWord) (d : RackLd) (s : State) : State :=
  s.rackAccess p addr (if dbl then 3 else 2) 7 false (rackTrap p addr 7) fun s =>
    ((s.pfOutside p addr).rackStall p false).rackAccept ⟨.amo op v d, p, addr, 2, s.clk.t, (rackCycles addr 2 false 0).map fun c => { c with hold := true }, [], false⟩

/-- LR_W (R386). -/
def lrW (p addr : Nat) (dbl : Bool) (d : RackLd) (s : State) : State :=
  s.rackAccess p addr (if dbl then 3 else 2) 5 false (rackTrap p addr 5) fun s =>
    ((s.pfOutside p addr).rackStall p true).rackAccept ⟨.lr d, p, addr, 2, s.clk.t, rackCycles addr 2 false 0, [], false⟩

/-- SC_W (R386). -/
def scW (p addr : Nat) (dbl : Bool) (v : DWord) (d : RackLd) (s : State) : State :=
  s.rackAccess p addr (if dbl then 3 else 2) 7 false (rackTrap p addr 7) fun s =>
    (s.rackStall p false).rackAccept ⟨.sc d, p, addr, 2, s.clk.t, rackCycles addr 2 true v.toNat, [], false⟩

/-! ### Arbitration (R380, R388) -/

/-- A write entry at its first cycle without a valid lease copy is withheld (R392). -/
def State.lrbWithhold (s : State) : State :=
  match s.lrb.run with
  | some x =>
    match x.kind with
    | .writeList e =>
      let k := match tget noneD s.cfg.rack e with | some t => t.ogrp | none => 16
      if x.got.isEmpty ∧ x.size = 0 ∧ !s.holds k then (((s.lrbCount 14).modLrb fun l => { l with run := none }).lrbGo) else s
    | _ => s
  | none => s

/-- Withheld entries are passed over. -/
def State.lrbHead (s : State) : Nat → State
  | 0 => s
  | n + 1 => let t := s.lrbWithhold; if t.lrb.run = s.lrb.run then s else t.lrbHead n

/-- The board granted next: rotating from the slot after the last one. -/
def nextBoard (last reqs : Nat) : Option Nat := [1, 2, 3, 4].findSome? fun i => if reqs.testBit ((last + i) % 4) then some ((last + i) % 4) else none

/-- The bridge opens the next cycle of its transaction: what goes out on the bus. -/
def State.openCycle (s : State) : State :=
  match s.lrb.run with
  | some x =>
    match x.cycles with
    | c :: _ =>
      let s := match x.kind with
        | .amo _ _ _ => if s.flag F.LRB_STAT_LOCKED then s else (s.set F.LRB_STAT_LOCKED 1).lrbCount 4
        | _ => s
      (s.modLrb fun l => { l with open_ := true, run := some { x with size := match x.kind with | .writeList _ => 1 | _ => x.size } }).emit .rack 1 (b2n c.wr)
        (beBytes 3 c.addr ++ [BitVec.ofNat 8 (2 * b2n c.ub + b2n c.lb)] ++ (if c.wr then beBytes 2 c.data else []))
    | [] => s
  | none => s

/-- A board is granted. -/
def State.grantBoard (s : State) (b : Nat) : State :=
  ((s.set F.LRB_STAT_OWNER 2).set F.LRB_STAT_SLOT b).modLrb fun l => { l with lastBoard := b, defer := false }

/-- RACK_GRANT (R380, R388): bus idle, with the requests of the four master slots. -/
def rackGrant (reqs : BitVec 4) (s : State) : State :=
  if !s.lrbOn || s.get F.LRB_STAT_OWNER != 0 then s else
  let s := s.lrbHead (s.lrb.lists.length + 1)
  let board := nextBoard s.lrb.lastBoard reqs.toNat
  if s.flag F.LRB_STAT_LOCKED then
    (if reqs.getLsbD (s.get F.LRB_STAT_SLOT) then s.grantBoard (s.get F.LRB_STAT_SLOT) else s)
  else if s.lrb.run.isSome && s.lrbOut then
    match board with
    | some b =>
      if s.get F.LRB_STAT_YIELDS < 16 then
        ((s.lrbCount 6).set F.LRB_STAT_YIELDS (s.get F.LRB_STAT_YIELDS + 1)).grantBoard b
      else
        (((((s.lrbCount 7).raise 363).set F.LRB_STAT_YIELDS 0).set F.LRB_STAT_OWNER 1).modLrb fun l => { l with defer := false }).openCycle
    | none => (((s.set F.LRB_STAT_YIELDS 0).set F.LRB_STAT_OWNER 1).modLrb fun l => { l with defer := false }).openCycle
  else
    match board with
    | some b => s.grantBoard b
    | none => s

/-! ### The end of a cycle and of a transaction (R381 to R386, R391, R392) -/

/-- The bus is idle again. -/
def State.lrbIdle (s : State) : State := ((s.set F.LRB_STAT_OWNER 0).set F.LRB_STAT_LOCKED 0).modLrb fun l => { l with open_ := false }

/-- The result of an AMO on 32-bit values. -/
def amoWord (op : AmoOp) (a b : Nat) : Nat :=
  let sa := toSigned 32 a
  let sb := toSigned 32 b
  match op with
  | .swap => b
  | .add => (a + b) % 2 ^ 32
  | .xor => a ^^^ b
  | .and => a &&& b
  | .or => a ||| b
  | .min => if sa ≤ sb then a else b
  | .max => if sa ≤ sb then b else a
  | .minu => min a b
  | .maxu => max a b

/-- A read list entry whose cycles all completed is a new item (R391). -/
def State.listItem (s : State) (e : Nat) (got : List Nat) : State :=
  match tget noneD s.cfg.rack e with
  | some t => ((s.lrbCount 15).offer 5 e (rackItem t.conv got)).presNew 5 e
  | none => s

/-- A transaction whose cycles have all completed. -/
def State.rackDone (s : State) (x : RackTx) : State :=
  let v := rackValue x.addr x.size x.got
  match x.kind with
  | .read d =>
    let n := if x.size = 2 then 2 else 1
    let rest := (pfAddrs x.addr x.size).zip (x.got.drop n)
    let s := if rest.isEmpty then s else s.modLrb fun l => { l with pf := tput noneD l.pf x.pair (some ⟨rest, rest.map fun c => c.1, s.clk.t⟩) }
    if x.left then s.modLrb fun l => { l with held := tput noneD l.held x.pair (some ⟨x.addr, x.size, v, s.clk.t⟩) }
    else s.rackReturn x.pair d (rackExt x.size d.unsigned v)
  | .lr d =>
    if x.left then s.modLrb fun l => { l with held := tput noneD l.held x.pair (some ⟨x.addr, x.size, v, s.clk.t⟩) }
    else
      let s := ((s.set F.LRB_STAT_SEM_VALID 1).set F.LRB_STAT_SEM_PAIR x.pair).modLrb fun l => { l with semAddr := x.addr, semTill := s.clk.t + 10 * usUt }
      (s.rackReturn x.pair d (rackExt 2 false v)).modPair x.pair fun q => { q with resv := some ((rackBase + x.addr) / 64) }
  | .amo _ _ d => s.rackReturn x.pair d (rackExt 2 false v)
  | .sc d => s.rackReturn x.pair d 0
  | .write => s
  | .readList e => s.listItem e x.got
  | .writeList _ => s

/-- A transaction that ends in an error: `kind` 1 BERR, 2 timeout (R382, R383, R385, R391, R392). -/
def State.rackError (s : State) (x : RackTx) (kind addr : Nat) : State :=
  let done := match x.kind with
    | .write | .sc _ => (if x.size = 2 then 2 else 1) - x.cycles.length
    | .amo _ _ _ => if x.got.length = 2 then 2 - x.cycles.length else 0
    | _ => 0
  let s := ((s.lrbCount (if kind = 1 then 1 else 2)).raise (if kind = 1 then 361 else 360)).lrbErr true kind addr
  let s := s.report (if kind = 1 then .LRB_BERR else .LRB_TIMEOUT) srcLrb [addr, done]
  let s := match x.kind with
    | .amo _ _ _ => if x.got.length = 2 then s.report .LRB_LOCK_PARTIAL srcLrb [addr] else s
    | .readList _ => (s.lrbCount 13).raise 365
    | .writeList _ => (s.lrbCount 13).raise 366
    | _ => s
  match x.kind with
  | .write | .readList _ | .writeList _ => s
  | k => if x.left || (s.pair x.pair).frozen then s else s.trap x.pair (rackCause k) (rackBase + x.addr)

/-- The transaction is over: bus idle, the next one taken. -/
def State.rackOver (s : State) : State := (s.lrbIdle.modLrb fun l => { l with run := none }).lrbGo

/-- A cycle of the bridge ends well. -/
def State.cycleOk (s : State) (x : RackTx) (c : RackCyc) (data : Nat) : State :=
  let s := s.lrbCount 0
  let s := if c.wr then (match x.kind with | .writeList _ => s | _ => s.semTouch x.pair c.addr).pfOverlap (c.addr / 2 * 2) 2 else s
  let x := { x with cycles := x.cycles.drop 1, got := if c.wr then x.got else x.got ++ [data],
                    acc := match x.kind with | .readList _ | .writeList _ => s.clk.t | _ => x.acc }
  let x := match x.kind with
    | .amo op v _ => if x.cycles.isEmpty && !c.wr then
        { x with cycles := (rackCycles x.addr 2 true (amoWord op (rackValue x.addr 2 x.got) (v.toNat % 2 ^ 32))).map fun c => { c with hold := true } } else x
    | _ => x
  if x.cycles.isEmpty then (s.rackDone x).rackOver
  else
    let s := s.modLrb fun l => { l with run := some x }
    if c.hold then s.openCycle else s.lrbIdle

/-- A cycle of the bridge ends in an error. A prefetched halfword that fails leaves the load its data. -/
def State.cycleErr (s : State) (x : RackTx) (kind addr : Nat) : State :=
  match x.kind with
  | .read _ => if (if x.size = 2 then 2 else 1) ≤ x.got.length then (s.rackDone x).rackOver else (s.rackError x kind addr).rackOver
  | _ => (s.rackError x kind addr).rackOver

/-- A violation of a board: IN_VIOL, source 364 (R395). -/
def State.boardViol (s : State) : State := (s.lrbCount 11).raise 364

/-- The bridge answers a board's cycle with BERR_N. -/
def State.boardBerr (s : State) : State := s.emit .rack 2 2 []

/-- A board's cycle has ended; it keeps the bus while it asserts LOCK_N. -/
def State.boardEnd (s : State) (lock : Bool) : State :=
  let s := s.modLrb fun l => { l with boardAt := none, lockAt := if lock then (if l.lockAt.isSome then l.lockAt else some s.clk.t) else none }
  (s.set F.LRB_STAT_LOCKED (b2n lock)).set F.LRB_STAT_OWNER (if lock then 2 else 0)

/-- RACK_ACK (R381, R382, R384, R395). -/
def rackAck (dtack berr : Bool) (data : Half) (slow lock : Bool) (s : State) : State :=
  if !s.lrbOn || !(dtack || berr) then s else
  let s := if slow then s.boardViol.modLrb fun l => { l with defer := true } else s
  match s.lrb.open_, s.lrb.run with
  | true, some x =>
    match x.cycles with
    | c :: _ =>
      if berr then s.cycleErr x 1 c.addr else s.cycleOk x c data.toNat
    | [] => s
  | _, _ => if s.lrb.boardAt.isSome then s.boardEnd lock else s.boardViol

/-- LRB_TIMEOUT (R382): 10 us after the bridge accepted the transaction. -/
def lrbTimeout (s : State) : State :=
  match s.lrb.run with
  | some x =>
    if s.alive then
      let s := s.advance (x.acc + 10 * usUt)
      let a := match x.cycles with | c :: _ => c.addr | [] => x.addr
      let own := s.get F.LRB_STAT_OWNER
      let t := s.cycleErr x 2 a
      if own = 2 then t.set F.LRB_STAT_OWNER 2 else t
    else s
  | none => s

/-! ### Inbound cycles (R387, R394, R395) -/

/-- The physical address of a rack address in the inbound window. -/
def State.inTarget (s : State) (addr : Nat) : Nat := s.get F.LRB_INWIN_TGT_TGT * 65536 + (addr - s.get F.LRB_INWIN_BASE * 65536)

/-- RACK_INBOUND (R387): a cycle of the board that owns the bus; `tchk`: a write's transit check holds. -/
def rackInbound (c : BoardCyc) (tchk : Bool) (s : State) : State :=
  if !s.lrbOn || s.get F.LRB_STAT_OWNER != 2 || s.lrb.boardAt.isSome then s else
  if s.sup.st = .dusk then s.boardBerr.boardEnd c.lock
  else if !s.flag F.LRB_INWIN_EN then s.modLrb fun l => { l with boardAt := some s.clk.t }
  else if !s.inWin c.addr || !(c.ub || c.lb) then ((s.boardViol.lrbErr false 4 c.addr).boardBerr).boardEnd c.lock
  else
    let a := s.inTarget (c.addr / 2 * 2)
    let s := s.lrbCount 10
    if c.wr then
      if !tchk then ((((s.lrbCount 12).raise 364).lrbErr false 5 c.addr).boardBerr).boardEnd c.lock
      else
        let v := c.data.toNat
        let s := if c.ub && c.lb then s.wrBytes a (leBytes 2 v)
          else if c.ub then s.wr8 a (BitVec.ofNat 8 (v / 256)) else s.wr8 (a + 1) (BitVec.ofNat 8 v)
        ((s.unreserve 4 a 2).pfOverlap (c.addr / 2 * 2) 2).boardEnd c.lock
    else
      let v := if c.ub && c.lb then s.rdLe a 2 else if c.ub then (s.rd8 a).toNat * 256 else (s.rd8 (a + 1)).toNat
      (s.emit .rack 2 0 (beBytes 2 v)).boardEnd c.lock

/-- BOARD_CYCLE_TIMEOUT (R394, R395): 10 us after the AS_N of a board's cycle. -/
def boardCycleTimeout (s : State) : State :=
  match s.lrb.boardAt with
  | some t => if s.lrbOn then ((s.advance (t + 10 * usUt)).boardViol.boardBerr).boardEnd false else s
  | none => s

/-- LRB_LOCK_HOG (R395). -/
def lrbLockHog (s : State) : State :=
  match s.lrb.lockAt with
  | some t => if s.lrbOn then ((s.advance (t + 10 * usUt)).boardViol.boardBerr.report .LRB_LOCK_HOG srcLrb [s.get F.LRB_STAT_SLOT]).boardEnd false else s
  | none => s

/-- PREFETCH_AGE (R389). -/
def prefetchAge (p : Nat) (s : State) : State :=
  match tget noneD s.lrb.pf p with
  | some b => (s.advance (b.tm + max 1 (s.get F.LRB_CFG_PF_AGE) * usUt)).pfDiscard p
  | none => s

/-! ### The lists (R391, R392) -/

/-- The entry number of a list transaction. -/
def RackTx.entry (x : RackTx) : Nat := match x.kind with | .readList e => e | .writeList e => e | _ => 0

/-- A list transaction waits behind those due before it, in ascending entry order among those due at one instant. -/
def State.listDue (s : State) (x : RackTx) : State :=
  let before (y : RackTx) : Bool := decide (y.acc < x.acc ∨ y.entry ≤ x.entry)
  (s.modLrb fun l => { l with lists := l.lists.takeWhile before ++ [x] ++ l.lists.dropWhile before }).lrbGo

/-- RACK_READ_LIST (R391): the entry is due START_US after the start of the running Gheif cycle. -/
def rackReadList (e : Nat) (s : State) : State :=
  match tget noneD s.cfg.rack e with
  | some t =>
    if s.lrbOut && s.cyc.running && t.dir == 1 then
      let s := s.advance (s.cyc.start + t.startUs * usUt)
      s.listDue ⟨.readList e, 0, t.addr, 0, s.clk.t, listCycles t false [], [], false⟩
    else s
  | none => s

/-- RACK_WRITE_LIST (R392): the write entries of output group `k`, in ascending entry order, with the voted bytes. -/
def rackWriteList (k : Nat) (s : State) : State :=
  if s.lrbOut && s.flag (F.TVL_OGRP_EN k) then
    (List.range 128).foldl (fun (s : State) e =>
      match tget noneD s.cfg.rack e with
      | some t => if t.dir = 2 ∧ t.ogrp = k then
          s.listDue ⟨.writeList e, 0, t.addr, 0, s.clk.t,
            listCycles t true (rackHalves t.conv (tgetList byteD (s.grp (s.ogGroup k)).voted t.srcOfs t.len)), [], false⟩ else s
      | none => s) s
  else s

/-- LRB_CNTCLR. -/
def lrbCntclr (s : State) : State :=
  if s.lrbFitted then s.zeroRegs fun o => decide (0xB0020 ≤ o ∧ o < 0xB0040) else s.absentAccess F.LRB_CNTCLR_ALL.off

/-- SEMAPHORE_EXPIRY (R386): 10 us after the LR.W. -/
def semaphoreExpiry (s : State) : State :=
  if s.flag F.LRB_STAT_SEM_VALID then (s.advance s.lrb.semTill).set F.LRB_STAT_SEM_VALID 0 else s

/-! ### The commands -/

/-- RACK_READ. -/
def execRackRead (p : Fin 4) (addr : Nat) (size : Fin 4) (d : RackLd) (s : State) : Host.Outcome State Fault Refusal :=
  .next (s.asInsn p (rackRead p addr size d))
/-- RACK_WRITE. -/
def execRackWrite (p : Fin 4) (addr : Nat) (size : Fin 4) (v : DWord) (len : Nat) (s : State) : Host.Outcome State Fault Refusal :=
  .next (s.asInsn p (rackWrite p addr size v len))
/-- RACK_AMO. -/
def execRackAmo (p : Fin 4) (addr : Nat) (dbl : Bool) (op : AmoOp) (v : DWord) (d : RackLd) (s : State) : Host.Outcome State Fault Refusal :=
  .next (s.asInsn p (rackAmo p addr dbl op v d))
/-- LR_W. -/
def execLrW (p : Fin 4) (addr : Nat) (dbl : Bool) (d : RackLd) (s : State) : Host.Outcome State Fault Refusal :=
  .next (s.asInsn p (lrW p addr dbl d))
/-- SC_W. -/
def execScW (p : Fin 4) (addr : Nat) (dbl : Bool) (v : DWord) (d : RackLd) (s : State) : Host.Outcome State Fault Refusal :=
  .next (s.asInsn p (scW p addr dbl v d))
/-- RACK_GRANT. -/
def execRackGrant (reqs : BitVec 4) (s : State) : Host.Outcome State Fault Refusal := .next (rackGrant reqs s)
/-- RACK_ACK. -/
def execRackAck (dtack berr : Bool) (data : Half) (slow lock : Bool) (s : State) : Host.Outcome State Fault Refusal :=
  .next (rackAck dtack berr data slow lock s)
/-- LRB_TIMEOUT. -/
def execLrbTimeout (s : State) : Host.Outcome State Fault Refusal := .next (lrbTimeout s)
/-- RACK_INBOUND. -/
def execRackInbound (c : BoardCyc) (tchk : Bool) (s : State) : Host.Outcome State Fault Refusal := .next (rackInbound c tchk s)
/-- BOARD_CYCLE_TIMEOUT. -/
def execBoardCycleTimeout (s : State) : Host.Outcome State Fault Refusal := .next (boardCycleTimeout s)
/-- LRB_LOCK_HOG. -/
def execLrbLockHog (s : State) : Host.Outcome State Fault Refusal := .next (lrbLockHog s)
/-- PREFETCH_AGE. -/
def execPrefetchAge (p : Fin 4) (s : State) : Host.Outcome State Fault Refusal := .next (prefetchAge p s)
/-- RACK_READ_LIST. -/
def execRackReadList (e : Fin 128) (s : State) : Host.Outcome State Fault Refusal := .next (rackReadList e s)
/-- RACK_WRITE_LIST. -/
def execRackWriteList (k : Fin 16) (s : State) : Host.Outcome State Fault Refusal := .next (rackWriteList k s)
/-- LRB_CNTCLR. -/
def execLrbCntclr (s : State) : Host.Outcome State Fault Refusal := .next (lrbCntclr s)
/-- SEMAPHORE_EXPIRY. -/
def execSemaphoreExpiry (s : State) : Host.Outcome State Fault Refusal := .next (semaphoreExpiry s)

end Sys2Proof.Machine
end

