-- ==== Sys2Proof/Machine/Img.lean ====
section
/-!
DEFINITION. Image sets: the manifest (R458), schedule images (R93 to R98, R137), program images with their segment, retentive,
variable and timer tables (R128, R202, R206, R459).
-/
namespace Sys2Proof.Machine

/-- A little-endian number of `n` bytes at `a` of an image. -/
def imgLe (b : Tbl Byte) (a n : Nat) : Nat := leNat (tgetList byteD b a n)

/-- The bytes of image set `n`. -/
def State.setTbl (s : State) (n : Nat) : Tbl Byte := (tget imageSetD s.sup.sets n).bytes

/-- A manifest entry (R458). -/
structure Man where
  kind : Nat
  target : Nat
  ofs : Nat
  len : Nat
  pid : Nat
  hash : List Byte
  deriving DecidableEq, Repr

/-- The manifest entries of a set. -/
def manifest (b : Tbl Byte) : List Man :=
  (List.range (imgLe b 6 2)).map fun i =>
    let a := 32 + 48 * i
    ⟨imgLe b a 1, imgLe b (a + 1) 1, imgLe b (a + 4) 4, imgLe b (a + 8) 4, imgLe b (a + 12) 4, tgetList byteD b (a + 16) 32⟩

/-- The set digest: SHA-256 of header, entries and signature (R458). -/
def setDigest (b : Tbl Byte) : List Byte :=
  sha256 (tgetList byteD b 0 (32 + 48 * imgLe b 6 2 + 64))

/-- The image of a kind for a target. -/
def imgOf (b : Tbl Byte) (kind target : Nat) : Option Man := (manifest b).find? fun m => m.kind == kind && m.target == target

/-! ### The schedule image -/

/-- The entries of a table of `n` entries of `sz` bytes. -/
def tableAt {α : Type} (base n sz : Nat) (f : Nat → α) : List α := (List.range n).map fun i => f (base + i * sz)

/-- The schedule image at byte `o` of a set (R94 to R98, R137). -/
def parseSched (b : Tbl Byte) (o : Nat) : Sched :=
  let h (a n : Nat) : Nat := imgLe b (o + a) n
  { schedId := h 0x0C 4, tgMt := h 0x10 4, mfLog2 := h 0x14 1, flags := h 0x34 2,
    groups := tableAt (o + h 0x1C 4) (h 0x15 1) 32 fun a =>
      ⟨imgLe b a 1, imgLe b (a + 1) 1, imgLe b (a + 4) 4, imgLe b (a + 8) 2, imgLe b (a + 10) 2, imgLe b (a + 12) 4,
       imgLe b (a + 16) 4, imgLe b (a + 20) 4⟩
    parts := tableAt (o + h 0x20 4) (h 0x16 2) 16 fun a =>
      ⟨imgLe b a 2, imgLe b (a + 4) 4, imgLe b (a + 8) 1, imgLe b (a + 9) 1, imgLe b (a + 10) 1⟩
    tasks := tableAt (o + h 0x24 4) (h 0x18 2) 32 fun a =>
      ⟨imgLe b a 1, imgLe b (a + 1) 1 % 4, imgLe b (a + 1) 1 / 16 % 4, imgLe b (a + 2) 1, imgLe b (a + 3) 1, imgLe b (a + 4) 2,
       imgLe b (a + 6) 2, imgLe b (a + 8) 8, imgLe b (a + 16) 8, imgLe b (a + 24) 2, imgLe b (a + 26) 2⟩
    windows := tableAt (o + h 0x28 4) (h 0x1A 2) 16 fun a =>
      ⟨imgLe b a 4, imgLe b (a + 4) 4, imgLe b (a + 8) 2, imgLe b (a + 10) 1⟩
    wset := tableAt (o + h 0x2C 4) (h 0x30 4 / 8) 8 fun a => ⟨imgLe b a 1, imgLe b (a + 2) 2, imgLe b (a + 4) 4⟩ }

/-- The schedule image of a set. -/
def setSched (b : Tbl Byte) : Sched := match imgOf b 1 0 with | some m => parseSched b m.ofs | none => Sched.none

/-! ### Program images -/

/-- The segment table of a program image at `o` (R128, R459). -/
def progSegs (b : Tbl Byte) (o : Nat) : List Seg :=
  tableAt (o + imgLe b (o + 0x10) 4) (imgLe b (o + 0x0C) 2) 16 fun a =>
    ⟨imgLe b a 4, imgLe b (a + 4) 4, imgLe b (a + 8) 1, imgLe b (a + 9) 1, imgLe b (a + 12) 4⟩

/-- The retentive table of a program image (R202); `part` is the partition, or 256 + engine. -/
def progBlocks (b : Tbl Byte) (o part : Nat) : List RetBlock :=
  tableAt (o + imgLe b (o + 0x18) 4) (imgLe b (o + 0x14) 2) 16 fun a =>
    ⟨imgLe b a 4, imgLe b (a + 4) 4, imgLe b (a + 8) 4, imgLe b (a + 12) 1, imgLe b (a + 13) 1, imgLe b (a + 14) 1,
     imgLe b (a + 15) 1, part, imgLe b (o + 8) 4⟩

/-- The variable table of a program image (R206). -/
def progVars (b : Tbl Byte) (o part : Nat) : List VarEntry :=
  tableAt (o + imgLe b (o + 0x20) 4) (imgLe b (o + 0x1C) 2) 16 fun a =>
    ⟨imgLe b a 4, imgLe b (a + 4) 1, imgLe b (a + 5) 1, imgLe b (a + 6) 1, imgLe b (a + 7) 1, imgLe b (a + 8) 4, imgLe b (a + 12) 4, part⟩

/-- The timer declarations of an engine program image (R459): timer number, and type + 4 * base. -/
def progTimers (b : Tbl Byte) (o : Nat) : List (Nat × Nat) :=
  tableAt (o + imgLe b (o + 0x28) 4) (imgLe b (o + 0x24) 2) 4 fun a => (imgLe b a 4 % 4096, imgLe b a 4 / 4096 % 16)

/-- The owner number of a manifest entry: a partition, or 256 + engine. -/
def Man.owner (m : Man) : Nat := if m.kind = 3 then 256 + m.target else m.target

/-- What the executive uses of image set `n` (R128, R202, R206). -/
def loadProgs (n : Nat) (b : Tbl Byte) : Progs :=
  let ms := (manifest b).filter fun m => m.kind == 2 || m.kind == 3
  let ps := ms.filter fun m => m.kind == 2
  { set := n
    segs := tputs nilD [] (ps.map fun m => (m.target, progSegs b m.ofs))
    base := tputs natD [] (ms.map fun m => (m.owner, m.ofs / 4096))
    blocks := ms.flatMap fun m => progBlocks b m.ofs m.owner
    vars := ms.flatMap fun m => progVars b m.ofs m.owner
    idents := tputs natD [] (ms.map fun m => (m.owner, m.pid)) }

/-! ### Engine banks (R169, R188) -/

/-- The physical address of an engine's aperture. -/
def leBase (e : Nat) : Nat := 0x41000000 + e * 0x400000
/-- The physical address of a program bank. -/
def leBankAddr (e b : Nat) : Nat := leBase e + b * 0x100000
/-- The physical address of a timer's state. -/
def leTimerAddr (e n : Nat) : Nat := leBase e + 0x340000 + n * 16

/-- The state field of a bank in LE_BANK. -/
def leBankF (e b : Nat) : Field := if b = 0 then F.LE_BANK_B0_STATE e else F.LE_BANK_B1_STATE e

/-- A bank takes the code and the timer declarations of the engine program of a set (R188). -/
def State.loadBank (s : State) (e b : Nat) (t : Tbl Byte) : State :=
  match imgOf t 3 e with
  | none => s
  | some m =>
    let n := imgLe t (m.ofs + 0x2C) 4
    let code := imgLe t (m.ofs + 0x30) 4
    let s : State := { (s.unpoison (leBankAddr e b) 0x100000) with mem :=
      (memLoad (memClear s.mem (leBankAddr e b) (leBankAddr e b + 0x100000)) (leBankAddr e b) t (m.ofs + code) (4 * n)) }
    let g := s.eng e
    (s.setEng e { g with words := tput natD g.words b n, decl := tput nilD g.decl b (tputs natD [] (progTimers t m.ofs)) }).set
      (F.LE_BANKID_W e b) m.pid

/-- A timer's declared type and base take effect; RUNNING and Q are cleared where they change, or the timer is not kept. -/
def State.declareTimer (s : State) (e n d : Nat) : State :=
  let w := s.rdLe (leTimerAddr e n) 4
  if w % 16 = d then s else s.wrBytes (leTimerAddr e n) (leBytes 4 d ++ List.replicate 12 0)

/-- A READY bank becomes ACTIVE (R188): the code and the timer declarations change together; the former one becomes READY. -/
def State.activateBank (s : State) (e b : Nat) : State :=
  let old := s.get (F.LE_BANK_ACTIVE e)
  let s := if s.get (leBankF e old) = 3 then s.set (leBankF e old) 2 else s
  let s := ((s.set (leBankF e b) 3).set (F.LE_BANK_ACTIVE e) b).set (F.LE_BANK_SWITCH_PEND e) 0
  let d := tget nilD (s.eng e).decl b
  let listed := (s.mem.filter fun c => decide (leTimerAddr e 0 ≤ c.1 ∧ c.1 < leTimerAddr e 4096)).map fun c => (c.1 - leTimerAddr e 0) / 16
  let s := ((d.map fun c => c.1) ++ listed).eraseDups.foldl (fun (s : State) n => s.declareTimer e n (tget natD d n)) s
  s.raise (194 + 8 * e)

/-- The bank of an engine that holds a program identity and is READY or ACTIVE. -/
def State.bankWith (s : State) (e pid : Nat) : Option Nat :=
  [0, 1].find? fun b => (s.get (leBankF e b) == 2 || s.get (leBankF e b) == 3) && s.get (F.LE_BANKID_W e b) == pid

/-- The inactive bank of an engine. -/
def State.otherBank (s : State) (e : Nat) : Nat := if s.get (leBankF e 0) = 3 ∨ (s.get (leBankF e 1) ≠ 3 ∧ s.get (leBankF e 0) = 2) then 1 else 0

end Sys2Proof.Machine
end

