-- ==== Sys2Proof/Machine/Operands.lean ====
section
/-!
DEFINITION. Every operand form of the engine instructions (R165, R173, R175, R176, R186, R189): effective addresses, bits, words,
counter records, and the scan shadow of space Q.
-/
namespace Sys2Proof.Machine

/-- How an engine instruction ends: at the following word, at another word, or in a trap with its code and the effective address
or PT (R186); a trap MEMERR comes with the physical address of the line too (R189). -/
inductive LeOut where
  | next (s : State)
  | goto (s : State) (pc : Nat)
  | trap (s : State) (code ea : Nat)
  | memErr (s : State) (ea a : Nat)
  | done (s : State)

/-- The effective address (R176), formed in 32 bits when indexed. -/
def State.leEa (s : State) (e : Nat) (o : Opnd) : Nat :=
  if o.indexed then (o.addr + (s.eng e).xr.toNat) % 2 ^ 32 else o.addr

/-- The physical address of a byte of space I, Q or M (R169). -/
def leAddr (e sp a : Nat) : Nat := leBase e + (if sp = 0 then 0x200000 else if sp = 1 then 0x208000 else 0x300000) + a

/-- The output region of the executing task in the output area: start and length (R173). -/
def State.leRegion (s : State) (e : Nat) : Nat × Nat :=
  match s.taskD? (s.unit (4 + e)).task with
  | some t => (s.get (F.LE_OMAP_BASE e t.group) * 64 + t.outOfs - s.get (F.LE_OMAP_SRC e t.group) * 64, t.outLen)
  | none => (0, 0)

/-! ### The two ports of an engine's memories (R171) -/

/-- What a byte that the engine has written in the running engine cycle held before. -/
def State.engOld (s : State) (e a : Nat) : Option Byte := if (s.eng e).wrCyc = s.fab then tget noneD (s.eng e).wrOld a else none
/-- What a byte that a pair has written in the running engine cycle held before. -/
def State.pairOld (s : State) (e a : Nat) : Option Byte := if (s.eng e).prCyc = s.fab then tget noneD (s.eng e).prOld a else none

/-- The engine writes a byte: its value remains, whatever a pair writes in this cycle. -/
def State.engPut (s : State) (e a : Nat) (v : Byte) : State :=
  let g := s.eng e
  let old := if g.wrCyc = s.fab then g.wrOld else []
  (s.setEng e { g with wrCyc := s.fab, wrOld := tput noneD old a (some ((s.engOld e a).getD ((s.pairOld e a).getD (s.rd8 a)))) }).wr8 a v

/-- The engine reads a byte: in the cycle in which a pair writes it, its previous value. -/
def State.engRead (s : State) (e a : Nat) : Byte := if (s.engOld e a).isSome then s.rd8 a else (s.pairOld e a).getD (s.rd8 a)

/-- A pair writes a byte; one that the engine writes in the same cycle keeps the engine's value. -/
def State.pairPut (s : State) (e a : Nat) (v : Byte) : State :=
  if (s.engOld e a).isSome then s
  else
    let g := s.eng e
    let old := if g.prCyc = s.fab then g.prOld else []
    (s.setEng e { g with prCyc := s.fab, prOld := tput noneD old a (some ((s.pairOld e a).getD (s.rd8 a))) }).wr8 a v

/-- A pair reads a byte: in the cycle in which the engine writes it, its previous value. -/
def State.pairRead (s : State) (e a : Nat) : Byte := (s.engOld e a).getD (s.rd8 a)

/-- Consecutive bytes written through one of the ports. -/
def State.engPuts (s : State) (e : Nat) : Nat → List Byte → State
  | _, [] => s
  | a, v :: l => (s.engPut e a v).engPuts e (a + 1) l
def State.pairPuts (s : State) (e : Nat) : Nat → List Byte → State
  | _, [] => s
  | a, v :: l => (s.pairPut e a v).pairPuts e (a + 1) l

/-! ### Reading and writing operands -/

/-- Bytes of a space as the engine reads them: of Q, those written earlier in the scan come first (R173). -/
def State.leRead (s : State) (e sp a n : Nat) : List Byte :=
  (List.range n).map fun i =>
    if sp = 1 then (match (s.eng e).shadow.find? (fun c => c.1 == a + i) with | some c => c.2 | none => s.rd8 (leAddr e sp (a + i)))
    else s.engRead e (leAddr e sp (a + i))

/-- Bytes take values: of Q, in the shadow. -/
def State.leWrite (s : State) (e sp a : Nat) (l : List Byte) : State :=
  if sp = 1 then
    let g := s.eng e
    s.setEng e { g with shadow := ((List.range l.length).zip l).foldl (fun (t : Tbl Byte) c => tinsert (terase t (a + c.1)) (a + c.1) c.2) g.shadow }
  else s.engPuts e (leAddr e sp a) l

/-- The `n` bytes at `a` lie inside the space, aligned; of Q written to, inside the task's output region. -/
def State.leInside (s : State) (e sp a n align : Nat) (write : Bool) : Bool :=
  decide (a % align = 0 ∧ a + n ≤ leSpace sp) &&
    !(write && sp == 1 && !(decide ((s.leRegion e).1 ≤ a ∧ a + n ≤ (s.leRegion e).1 + (s.leRegion e).2)))

/-- An uncorrectable error hits the bytes (R189). The shadow has no address of its own: an error in it is reported at the line's address in the
output area (DESIGN CHOICE, log 125). -/
def State.leBad (s : State) (e sp a n : Nat) : Bool := (List.range n).any fun i => s.poisoned (leAddr e sp (a + i))

/-- The bytes an operand names, once its checks pass: the operation goes on with their address. -/
def State.leAt (s : State) (e : Nat) (o : Opnd) (a n align : Nat) (write : Bool) (ea : Nat) (k : Nat → LeOut) : LeOut :=
  if !s.leInside e o.sp a n align write then .trap s 1 ea
  else if s.leBad e o.sp a n then .memErr s ea (leAddr e o.sp a)
  else k a

/-- The value of a bit operand of space B. -/
def State.leBit (s : State) (e : Nat) (o : Opnd) (k : Bool → LeOut) : LeOut :=
  if o.sp = 3 then k (o.opnd.getLsbD 0)
  else
    let ea := s.leEa e o
    s.leAt e o (ea / 8) 1 1 false ea fun a => k ((s.leRead e o.sp a 1).headD 0 |>.getLsbD (ea % 8))

/-- A bit operand of space D takes a value where `v` names one; its address is checked all the same (R186). -/
def State.lePutBit (s : State) (e : Nat) (o : Opnd) (v : Option Bool) : LeOut :=
  let ea := s.leEa e o
  s.leAt e o (ea / 8) 1 1 true ea fun a =>
    match v with
    | some b =>
      let old := (s.leRead e o.sp a 1).headD 0
      .next (s.leWrite e o.sp a [if b then old ||| BitVec.ofNat 8 (2 ^ (ea % 8)) else old &&& ~~~ BitVec.ofNat 8 (2 ^ (ea % 8))])
    | none => .next s

/-- The value of a word operand of space W; a constant is 24 bits, sign-extended. -/
def State.leWordOp (s : State) (e : Nat) (o : Opnd) (k : Word → LeOut) : LeOut :=
  if o.sp = 3 then k (o.opnd.signExtend 32)
  else
    let ea := s.leEa e o
    s.leAt e o ea 4 4 false ea fun a => k (BitVec.ofNat 32 (leNat (s.leRead e o.sp a 4)))

/-- A word operand of space D takes a value. -/
def State.lePutWord (s : State) (e : Nat) (o : Opnd) (v : Word) : LeOut :=
  let ea := s.leEa e o
  s.leAt e o ea 4 4 true ea fun a => .next (s.leWrite e o.sp a (leBytes 4 v.toNat))

/-- A counter record of M (R183): its address. -/
def State.leRecord (s : State) (e : Nat) (o : Opnd) (k : Nat → LeOut) : LeOut :=
  let ea := s.leEa e o
  s.leAt e o ea 8 8 false ea k

/-- LA and WA of an engine. -/
def State.la (s : State) (e : Nat) : Bool := s.flag (F.LE_STAT_LA e)
def State.setLa (s : State) (e : Nat) (v : Bool) : State := s.set (F.LE_STAT_LA e) (b2n v)
def State.wa (s : State) (e : Nat) : Word := (s.eng e).wa
def State.setWa (s : State) (e : Nat) (v : Word) : State := s.setEng e { s.eng e with wa := v }

end Sys2Proof.Machine
end

