-- ==== Sys2Proof/Machine/Flags.lean ====
section
/-!
DEFINITION. The flags of the engines (R181): saturating signed arithmetic, division by 0, and the FLAG source raised when SAT or
DIVZ changes from 0 to 1.
-/
namespace Sys2Proof.Machine

/-- A flag of LE_FLAGS is set; its change from 0 to 1 raises the engine's FLAG source. -/
def State.setLeFlag (s : State) (e : Nat) (f : Field) : State :=
  if s.flag f then s else (s.set f 1).raise (197 + 8 * e)

/-- A signed result held to 32 bits. -/
def leSat (i : Int) : Word := BitVec.ofInt 32 (clampInt (-0x80000000) 0x7FFFFFFF i)

/-- The result lies outside 32 bits and saturates. -/
def saturates (i : Int) : Bool := decide (i < -0x80000000 ∨ 0x7FFFFFFF < i)

/-- WA takes a result, saturated; SAT is set where it saturates. -/
def State.waSat (s : State) (e : Nat) (i : Int) : State :=
  (if saturates i then s.setLeFlag e (F.LE_FLAGS_SAT e) else s).setWa e (leSat i)

/-- DIV: truncated toward zero; by 0 the extremes, with DIVZ. -/
def State.waDiv (s : State) (e : Nat) (op : Word) : State :=
  let a := (s.wa e).toInt
  if op = 0 then
    (s.setLeFlag e (F.LE_FLAGS_DIVZ e)).setWa e (if 0 < a then 0x7FFFFFFF else if a < 0 then 0x80000000 else 0)
  else s.waSat e (a.tdiv op.toInt)

/-- MOD: the remainder with the sign of WA; by 0 it is 0, with DIVZ. -/
def State.waMod (s : State) (e : Nat) (op : Word) : State :=
  if op = 0 then (s.setLeFlag e (F.LE_FLAGS_DIVZ e)).setWa e 0
  else s.setWa e (BitVec.ofInt 32 ((s.wa e).toInt.tmod op.toInt))

end Sys2Proof.Machine
end

