-- ==== Sys2Proof/Machine/Le.lean ====
section
/-!
DEFINITION. The logic engines at work (chapter 6): fetch and issue, every instruction, traps, END, and the program banks.
-/
namespace Sys2Proof.Machine

/-! ### Traps (R186, R189) -/

/-- What an uncorrectable error leaves in each region (R189): the output area's line is rewritten from the committed contribution, a
timer's entry cleared; a marker line stays poisoned, an input line until the next publication, a program line until it is restored. -/
def State.leMemErr (s : State) (e a : Nat) : State :=
  let o := a - leBase e
  if 0x208000 ≤ o ∧ o < 0x210000 then
    match s.taskD? (s.unit (4 + e)).task with
    | some t =>
      let line := (a / 64 * 64 - (leBase e + 0x208000))
      let ofs := line + s.get (F.LE_OMAP_SRC e t.group) * 64 - s.get (F.LE_OMAP_BASE e t.group) * 64
      (s.wrBytes (a / 64 * 64) (tgetList byteD s.cyc.committed (commitKey t.group ofs) 64)).unpoison (a / 64 * 64) 64
    | none => s
  else if 0x340000 ≤ o then (s.wrBytes (a / 16 * 16) [s.rd8 (a / 16 * 16) &&& 0x0F]).unpoison (a / 64 * 64) 64
  else s

/-- A trap (R186): the scan stops, nothing of it is committed, and the activation is aborted; `ea` is the eighth word of its snapshot, 0 where
the instruction has neither an effective address nor a PT (DESIGN CHOICE, log 125). -/
def State.leTrap (s : State) (e code ea : Nat) : State :=
  let g := s.eng e
  let n := (s.unit (4 + e)).task
  let b := s.get (F.LE_BANK_ACTIVE e)
  let w := s.rdLe (leBankAddr e b + 4 * g.pc) 4
  let s := (s.set (F.LE_TRAP_CODE e) code).set (F.LE_TRAP_TASK e) n |>.inc (F.LE_TRAP_COUNT e)
  let s := ((s.set (F.LE_TRAPPC_BANK e) b).set (F.LE_TRAPPC_WADDR e) g.pc).set (F.LE_TRAPWORD_W e) w
  let s := (s.raise (192 + 8 * e)).report .LE_TRAP (srcLe e)
    [e * 256 + code, n, b * 2 ^ 18 + g.pc, w, g.cs.length * 256 + g.bs.length * 8 + b2n (s.la e), g.wa.toNat, g.xr.toNat, ea]
  let s := (s.execStop n).scanStop e
  let s := ((s.inc (F.HX_TASKSTAT1_ABORTS n)).raise 34).report .TASK_ABORT srcHx [n]
  let s := (s.setUnit (4 + e) { s.unit (4 + e) with ended := true }).taskIdle n
  match s.taskD? n with
  | some t => s.faulted t.part
  | none => s

/-! ### Fetch and issue (R185) -/

/-- The engine is in a scan and may issue its next instruction. -/
def State.scanning (s : State) (e : Nat) : Bool :=
  s.get (F.LE_STAT_STATE e) == 1 && (s.eng e).testing.isNone && s.alive && !s.dusked

/-- The instant at which the next instruction issues: the first word 2.5 ns after the start, each engine cycle 2.5 ns. -/
def State.issueAt (s : State) (e : Nat) : Nat := (s.eng e).start + 2 + 2 * (s.eng e).cost

/-- The depths shown in LE_STAT. -/
def State.leDepths (s : State) (e : Nat) : State :=
  (s.set (F.LE_STAT_BS_DEPTH e) (s.eng e).bs.length).set (F.LE_STAT_CALL_DEPTH e) (s.eng e).cs.length

/-- An instruction's outcome is carried out: cost, next word, or trap. -/
def State.leFinish (e cost : Nat) (r : LeOut) : State :=
  match r with
  | .next s => (s.setEng e { s.eng e with pc := (s.eng e).pc + 1, cost := (s.eng e).cost + cost }).leDepths e
  | .goto s pc => (s.setEng e { s.eng e with pc := pc, cost := (s.eng e).cost + cost }).leDepths e
  | .trap s code ea => s.leTrap e code ea
  | .memErr s ea a => (s.leTrap e 8 ea).leMemErr e a
  | .done s => s

/-- The instruction at the engine's next word, if it is this one, issues before the window's budget end (R185, R187). -/
def State.leRun (s : State) (e : Nat) (opc : Nat) (o : Opnd) (cost : Nat) (f : State → LeOut) : State :=
  let t := s.issueAt e
  let a := leBankAddr e (s.get (F.LE_BANK_ACTIVE e)) + 4 * (s.eng e).pc
  if s.scanning e && decide (t < s.budgetAt (4 + e)) then
    if s.poisoned a then (s.advance t).leTrap e 8 0
    else if s.rdLe a 4 = (leWord opc o).toNat then State.leFinish e (cost + b2n o.indexed) (f (s.advance t))
    else s
  else s

/-! ### Bit operations, brackets, edges (R178, R179) -/

/-- LA takes an operation of LA and a bit operand. -/
def State.leBitOp (s : State) (e opc : Nat) (o : Opnd) (f : Bool → Bool → Bool) : State :=
  s.leRun e opc o 1 fun s => s.leBit e o fun b => .next (s.setLa e (f (s.la e) b))

/-- A bracket opens (R179). -/
def State.leOpen (s : State) (e opc : Nat) (o : Opnd) (op : BrOp) : State :=
  s.leRun e opc o 1 fun s => s.leBit e o fun b =>
    let g := s.eng e
    if 16 ≤ g.bs.length then .trap s 2 (s.leEa e o)
    else .next ((s.setEng e { g with bs := (s.la e, op) :: g.bs }).setLa e b)

/-- The saved LA joined with LA by the saved operator. -/
def BrOp.apply : BrOp → Bool → Bool → Bool
  | .and, a, b => a && b
  | .andn, a, b => a && !b
  | .or, a, b => a || b
  | .orn, a, b => a || !b
  | .xor, a, b => a != b
  | .xorn, a, b => a != !b

/-- EP and EN: the old value of the edge bit and the new LA. -/
def State.leEdge (s : State) (e opc : Nat) (o : Opnd) (f : Bool → Bool → Bool) : State :=
  s.leRun e opc o 2 fun s => s.leBit e o fun b =>
    let v := s.la e
    match s.lePutBit e o (some v) with
    | .next s => .next (s.setLa e (f v b))
    | r => r

def leNop (e : Nat) (s : State) : State := s.leRun e 0x00 Opnd.zero 1 fun s => .next s
def leLd (e : Nat) (o : Opnd) (s : State) : State := s.leBitOp e 0x01 o fun _ b => b
def leLdn (e : Nat) (o : Opnd) (s : State) : State := s.leBitOp e 0x02 o fun _ b => !b
def leSt (e : Nat) (o : Opnd) (s : State) : State := s.leRun e 0x03 o 1 fun s => s.lePutBit e o (some (s.la e))
def leStn (e : Nat) (o : Opnd) (s : State) : State := s.leRun e 0x04 o 1 fun s => s.lePutBit e o (some (!s.la e))
def leS (e : Nat) (o : Opnd) (s : State) : State := s.leRun e 0x05 o 1 fun s => s.lePutBit e o (if s.la e then some true else none)
def leR (e : Nat) (o : Opnd) (s : State) : State := s.leRun e 0x06 o 1 fun s => s.lePutBit e o (if s.la e then some false else none)
def leAnd (e : Nat) (o : Opnd) (s : State) : State := s.leBitOp e 0x07 o fun a b => a && b
def leAndn (e : Nat) (o : Opnd) (s : State) : State := s.leBitOp e 0x08 o fun a b => a && !b
def leOr (e : Nat) (o : Opnd) (s : State) : State := s.leBitOp e 0x09 o fun a b => a || b
def leOrn (e : Nat) (o : Opnd) (s : State) : State := s.leBitOp e 0x0A o fun a b => a || !b
def leXor (e : Nat) (o : Opnd) (s : State) : State := s.leBitOp e 0x0B o fun a b => a != b
def leXorn (e : Nat) (o : Opnd) (s : State) : State := s.leBitOp e 0x0C o fun a b => a != !b
def leNot (e : Nat) (s : State) : State := s.leRun e 0x0D Opnd.zero 1 fun s => .next (s.setLa e (!s.la e))
def leAndBr (e : Nat) (o : Opnd) (s : State) : State := s.leOpen e 0x0E o .and
def leAndnBr (e : Nat) (o : Opnd) (s : State) : State := s.leOpen e 0x0F o .andn
def leOrBr (e : Nat) (o : Opnd) (s : State) : State := s.leOpen e 0x10 o .or
def leOrnBr (e : Nat) (o : Opnd) (s : State) : State := s.leOpen e 0x11 o .orn
def leXorBr (e : Nat) (o : Opnd) (s : State) : State := s.leOpen e 0x12 o .xor
def leXornBr (e : Nat) (o : Opnd) (s : State) : State := s.leOpen e 0x13 o .xorn
def leClose (e : Nat) (s : State) : State :=
  s.leRun e 0x14 Opnd.zero 1 fun s =>
    match (s.eng e).bs with
    | (v, op) :: r => .next ((s.setEng e { s.eng e with bs := r }).setLa e (op.apply v (s.la e)))
    | [] => .trap s 3 0
def leEp (e : Nat) (o : Opnd) (s : State) : State := s.leEdge e 0x15 o fun v b => v && !b
def leEn (e : Nat) (o : Opnd) (s : State) : State := s.leEdge e 0x16 o fun v b => b && !v

/-! ### Timers (R182) -/

/-- A timer's running state: RUNNING, Q, previous IN, PT, and the start count. -/
structure LeTimer where
  run : Bool
  q : Bool
  prev : Bool
  pt : Nat
  start : Nat
  deriving DecidableEq, Repr

/-- A timer's state as it stands in its entry (R171). -/
def State.leTimer (s : State) (a : Nat) : LeTimer :=
  let w := s.rdLe a 4
  ⟨w.testBit 4, w.testBit 5, w.testBit 6, s.rdLe (a + 4) 4, s.rdLe (a + 8) 8⟩

/-- The entry takes a state; its declaration stays. -/
def State.setLeTimer (s : State) (e a : Nat) (t : LeTimer) : State :=
  s.engPuts e a (leBytes 4 (s.rdLe a 4 % 16 + 16 * b2n t.run + 32 * b2n t.q + 64 * b2n t.prev) ++ leBytes 4 t.pt ++ leBytes 8 t.start)

/-- Microticks of a time base: 1 ms, 10 ms, 100 ms. -/
def leBaseUt (b : Nat) : Nat := if b = 1 then 8000000 else if b = 2 then 80000000 else 800000

/-- The time since a start count: counts are 64 bits wide. -/
def elapsedUt (now start : Nat) : Nat := (now + 2 ^ 64 - start % 2 ^ 64) % 2 ^ 64

/-- The rows of R182 from top to bottom at count `now`, for a type, base, IN and PT. -/
def LeTimer.exec (t : LeTimer) (typ base now : Nat) (inp : Bool) (pt : Nat) : LeTimer :=
  let t := { t with pt := pt }
  let up (t : LeTimer) : Bool := decide (pt * base ≤ elapsedUt now t.start)
  let t := match typ with
    | 1 =>
      let t := if inp && !t.run && !t.q then { t with start := now, run := true } else t
      let t := if inp && t.run && up t then { t with q := true, run := false } else t
      if inp then t else { t with run := false, q := false }
    | 2 =>
      let t := if inp then { t with q := true, run := false } else t
      let t := if !inp && t.prev then { t with start := now, run := true } else t
      if !inp && t.run && up t then { t with q := false, run := false } else t
    | _ =>
      let t := if inp && !t.prev && !t.run then { t with start := now, run := true, q := true } else t
      if t.run && up t then { t with q := false, run := false } else t
  { t with prev := inp }

/-- TON, TOF, TP. -/
def State.leTime (s : State) (e opc typ : Nat) (o : Opnd) : State :=
  s.leRun e opc o 2 fun s =>
    let a := leTimerAddr e o.opnd.toNat
    let pt := (s.wa e).toNat
    if s.poisoned a then .memErr s pt a
    else if 0x00FFFFFF < pt then .trap s 7 pt
    else
      let t := (s.leTimer a).exec typ (leBaseUt (s.rdLe a 4 / 4 % 4)) s.frc (s.la e) pt
      .next ((s.setLeTimer e a t).setLa e t.q)

/-- ET as TRD returns it. -/
def State.leEt (s : State) (a : Nat) : Nat :=
  let t := s.leTimer a
  let w := s.rdLe a 4
  if t.run then min (elapsedUt s.frc t.start / leBaseUt (w / 4 % 4)) t.pt
  else if t.q && w % 4 == 1 then t.pt else 0

def leTon (e : Nat) (o : Opnd) (s : State) : State := s.leTime e 0x17 1 o
def leTof (e : Nat) (o : Opnd) (s : State) : State := s.leTime e 0x18 2 o
def leTp (e : Nat) (o : Opnd) (s : State) : State := s.leTime e 0x19 3 o
def leTrd (e : Nat) (o : Opnd) (s : State) : State :=
  s.leRun e 0x1A o 2 fun s =>
    let a := leTimerAddr e o.opnd.toNat
    if s.poisoned a then .memErr s (s.leTimer a).pt a else .next (s.setWa e (BitVec.ofNat 32 (s.leEt a)))

/-! ### Counters (R183) -/

/-- CV of a record. -/
def State.leCv (s : State) (e a : Nat) : Int := toSigned 32 (leNat (s.leRead e 2 a 4))
/-- CV takes a value. -/
def State.setCv (s : State) (e a : Nat) (v : Int) : State := s.leWrite e 2 a (leBytes 4 (ofSigned 32 v))
/-- An edge bit of a record takes a value. -/
def State.setEdge (s : State) (e a : Nat) (bit : Byte) (v : Bool) : State :=
  let b := s.engRead e (leAddr e 2 (a + 4))
  s.leWrite e 2 (a + 4) [if v then b ||| bit else b &&& ~~~bit]

/-- CTU and CTD: a count at the rising LA, saturating, then the edge bit and LA. -/
def State.leCount (s : State) (e opc : Nat) (o : Opnd) (bit : Byte) (d : Int) (q : Int → Int → Bool) : State :=
  s.leRun e opc o 2 fun s => s.leRecord e o fun a =>
    let v := s.la e
    let old := s.engRead e (leAddr e 2 (a + 4)) &&& bit != 0
    let cv := if v && !old then clampInt (-0x80000000) 0x7FFFFFFF (s.leCv e a + d) else s.leCv e a
    .next (((s.setCv e a cv).setEdge e a bit v).setLa e (q cv (s.wa e).toInt))

def leCtu (e : Nat) (o : Opnd) (s : State) : State := s.leCount e 0x1B o 1 1 fun cv w => decide (w ≤ cv)
def leCtd (e : Nat) (o : Opnd) (s : State) : State := s.leCount e 0x1C o 2 (-1) fun cv _ => decide (cv ≤ 0)
def leCtld (e : Nat) (o : Opnd) (s : State) : State :=
  s.leRun e 0x1D o 2 fun s => s.leRecord e o fun a => .next (if s.la e then s.setCv e a (s.wa e).toInt else s)
def leCtrd (e : Nat) (o : Opnd) (s : State) : State :=
  s.leRun e 0x1E o 1 fun s => s.leRecord e o fun a => .next (s.setWa e (BitVec.ofInt 32 (s.leCv e a)))

/-! ### Word operations (R178, R181) -/

/-- An operation on a word operand. -/
def State.leWordRun (s : State) (e opc cost : Nat) (o : Opnd) (f : State → Word → State) : State :=
  s.leRun e opc o cost fun s => s.leWordOp e o fun w => .next (f s w)

def leLdw (e : Nat) (o : Opnd) (s : State) : State := s.leWordRun e 0x20 1 o fun s w => s.setWa e w
def leStw (e : Nat) (o : Opnd) (s : State) : State := s.leRun e 0x21 o 1 fun s => s.lePutWord e o (s.wa e)
def leAdd (e : Nat) (o : Opnd) (s : State) : State := s.leWordRun e 0x22 1 o fun s w => s.waSat e ((s.wa e).toInt + w.toInt)
def leSub (e : Nat) (o : Opnd) (s : State) : State := s.leWordRun e 0x23 1 o fun s w => s.waSat e ((s.wa e).toInt - w.toInt)
def leMul (e : Nat) (o : Opnd) (s : State) : State := s.leWordRun e 0x24 2 o fun s w => s.waSat e ((s.wa e).toInt * w.toInt)
def leDiv (e : Nat) (o : Opnd) (s : State) : State := s.leWordRun e 0x25 18 o fun s w => s.waDiv e w
def leMod (e : Nat) (o : Opnd) (s : State) : State := s.leWordRun e 0x26 18 o fun s w => s.waMod e w
def leAndw (e : Nat) (o : Opnd) (s : State) : State := s.leWordRun e 0x27 1 o fun s w => s.setWa e (s.wa e &&& w)
def leOrw (e : Nat) (o : Opnd) (s : State) : State := s.leWordRun e 0x28 1 o fun s w => s.setWa e (s.wa e ||| w)
def leXorw (e : Nat) (o : Opnd) (s : State) : State := s.leWordRun e 0x29 1 o fun s w => s.setWa e (s.wa e ^^^ w)
def leShl (e : Nat) (o : Opnd) (s : State) : State := s.leWordRun e 0x2A 1 o fun s w => s.setWa e (s.wa e <<< (w.toNat % 32))
def leShr (e : Nat) (o : Opnd) (s : State) : State := s.leWordRun e 0x2B 1 o fun s w => s.setWa e (s.wa e >>> (w.toNat % 32))
def leAsr (e : Nat) (o : Opnd) (s : State) : State := s.leWordRun e 0x2C 1 o fun s w => s.setWa e ((s.wa e).sshiftRight (w.toNat % 32))
def leGtw (e : Nat) (o : Opnd) (s : State) : State := s.leWordRun e 0x2D 1 o fun s w => s.setLa e (decide (w.toInt < (s.wa e).toInt))
def leGew (e : Nat) (o : Opnd) (s : State) : State := s.leWordRun e 0x2E 1 o fun s w => s.setLa e (decide (w.toInt ≤ (s.wa e).toInt))
def leEqw (e : Nat) (o : Opnd) (s : State) : State := s.leWordRun e 0x2F 1 o fun s w => s.setLa e (s.wa e == w)
def leNew (e : Nat) (o : Opnd) (s : State) : State := s.leWordRun e 0x30 1 o fun s w => s.setLa e (s.wa e != w)
def leLtw (e : Nat) (o : Opnd) (s : State) : State := s.leWordRun e 0x31 1 o fun s w => s.setLa e (decide ((s.wa e).toInt < w.toInt))
def leLew (e : Nat) (o : Opnd) (s : State) : State := s.leWordRun e 0x32 1 o fun s w => s.setLa e (decide ((s.wa e).toInt ≤ w.toInt))
def leLdx (e : Nat) (o : Opnd) (s : State) : State := s.leWordRun e 0x33 1 o fun s w => s.setEng e { s.eng e with xr := w }

/-! ### Jumps and calls (R178, R180) -/

/-- A call pushes the address of the following word. -/
def State.leCallTo (s : State) (e : Nat) (o : Opnd) : LeOut :=
  let g := s.eng e
  if 8 ≤ g.cs.length then .trap s 4 o.opnd.toNat
  else .goto (s.setEng e { g with cs := (g.pc + 1) :: g.cs }) o.opnd.toNat

def leJmp (e : Nat) (o : Opnd) (s : State) : State := s.leRun e 0x34 o 2 fun s => .goto s o.opnd.toNat
def leJmpc (e : Nat) (o : Opnd) (s : State) : State := s.leRun e 0x35 o 2 fun s => if s.la e then .goto s o.opnd.toNat else .next s
def leJmpcn (e : Nat) (o : Opnd) (s : State) : State := s.leRun e 0x36 o 2 fun s => if s.la e then .next s else .goto s o.opnd.toNat
def leCal (e : Nat) (o : Opnd) (s : State) : State := s.leRun e 0x37 o 2 fun s => s.leCallTo e o
def leCalc (e : Nat) (o : Opnd) (s : State) : State := s.leRun e 0x38 o 2 fun s => if s.la e then s.leCallTo e o else .next s
def leRet (e : Nat) (s : State) : State :=
  s.leRun e 0x39 Opnd.zero 2 fun s =>
    match (s.eng e).cs with
    | a :: r => .goto (s.setEng e { s.eng e with cs := r }) a
    | [] => .trap s 5 0

/-! ### Queues (R184) -/

def leSendq (e : Nat) (o : Opnd) (s : State) : State :=
  s.leRun e 0x3A o 4 fun s =>
    let r := s.qCommitHw (s.qgeo o.opnd.toNat) 0 (leBytes 4 (s.wa e).toNat)
    .next (r.1.setLa e r.2)

def leRecvq (e : Nat) (o : Opnd) (s : State) : State :=
  s.leRun e 0x3B o 12 fun s =>
    let g := s.qgeo o.opnd.toNat
    if qLevel g (s.qst g) = 0 then .next (s.setLa e false)
    else
      let r := s.qTakeHw g
      match r.2 with
      | some b => .next ((r.1.setWa e (BitVec.ofNat 32 (leNat (b.data.take 4)))).setLa e true)
      | none => .next ((r.1.raise (196 + 8 * e)).setLa e false)

/-! ### END (R173, R180, R185, R187) -/

/-- The shadow becomes committed: in the output area and in the task's output buffer. -/
def State.leCommit (s : State) (e : Nat) (t : Task) : State :=
  (s.eng e).shadow.foldl (fun (s : State) c =>
    let o := c.1 + s.get (F.LE_OMAP_SRC e t.group) * 64 - s.get (F.LE_OMAP_BASE e t.group) * 64
    let s : State := { s with cyc := { s.cyc with committed := tput byteD s.cyc.committed (commitKey t.group o) c.2 } }
    s.engPut e (leAddr e 1 c.1) c.2) s

/-- END: a scan whose last engine cycle ends by the budget end completes; else it is left to the budget end. -/
def leEnd (e : Nat) (s : State) : State :=
  s.leRun e 0x3F Opnd.zero 0 fun s1 =>
    let g := s1.eng e
    let n := (s1.unit (4 + e)).task
    match s1.taskD? n with
    | none => .done s
    | some t =>
      if !g.bs.isEmpty || !g.cs.isEmpty then .trap s1 6 0
      else
        let cost := g.cost + 8 + (t.outLen + 15) / 16
        let fin := g.start + 2 + 2 * cost
        if s1.budgetAt (4 + e) < fin then .done s
        else
          let s2 := (s1.advance fin).leCommit e t
          let s2 := (s2.setEng e { s2.eng e with shadow := [], cost := cost }).set (F.LE_SCAN_W e) (min cost 0xFFFFFFFF)
          let s2 := ((s2.set (F.LE_STAT_STATE e) 0).setTask n { s2.task n with exec := cost, since := none }).completed n
          .done ((s2.setUnit (4 + e) { s2.unit (4 + e) with ended := true }).raise (193 + 8 * e))

/-! ### Banks (R188, R189) and LE_TRAP -/

/-- BANK_READY: the bank that loads within LOAD_VERIFY passes R177 and is READY. -/
def bankReady (e : Nat) (s : State) : State :=
  match [0, 1].find? fun b => s.get (leBankF e b) == 1 with
  | some b =>
    match s.sup.longOp with
    | some o => ((s.loadBank e b (s.setTbl o.arg)).set (leBankF e b) 2).raise (195 + 8 * e)
    | none => s
  | none => s

/-- LE_LINE_RESTORE (R189): the supervisor restores a line of the active bank, unless the program-store line is bad too. -/
def leLineRestore (e line : Nat) (s : State) : State :=
  let b := s.get (F.LE_BANK_ACTIVE e)
  let a := leBankAddr e b + line % 16384 * 64
  match s.sup.activeSet with
  | some n =>
    match imgOf (s.setTbl n) 3 e with
    | some m =>
      let src := m.ofs + imgLe (s.setTbl n) (m.ofs + 0x30) 4 + line % 16384 * 64
      if s.poisoned a && !s.hxm.homePoison.contains (storePoison n (src / 64)) then
        ({ s with mem := memLoad s.mem a (s.setTbl n) src 64 } : State).unpoison a 64
      else s
    | none => s
  | none => s

/-- LE_TRAP_CLR: COUNT is cleared. -/
def leTrapClr (e : Nat) (s : State) : State :=
  if s.engineFitted e then s.set (F.LE_TRAP_COUNT e) 0 else s.absentAccess (F.LE_TRAP_COUNT e).off

/-! ### The commands -/

/-- NOP. -/
def execLeNop (e : Fin 2) (s : State) : Host.Outcome State Fault Refusal := .next (leNop e s)
/-- LD. -/
def execLeLd (e : Fin 2) (o : Opnd) (s : State) : Host.Outcome State Fault Refusal := .next (leLd e o s)
/-- LDN. -/
def execLeLdn (e : Fin 2) (o : Opnd) (s : State) : Host.Outcome State Fault Refusal := .next (leLdn e o s)
/-- ST. -/
def execLeSt (e : Fin 2) (o : Opnd) (s : State) : Host.Outcome State Fault Refusal := .next (leSt e o s)
/-- STN. -/
def execLeStn (e : Fin 2) (o : Opnd) (s : State) : Host.Outcome State Fault Refusal := .next (leStn e o s)
/-- S. -/
def execLeS (e : Fin 2) (o : Opnd) (s : State) : Host.Outcome State Fault Refusal := .next (leS e o s)
/-- LE_R. -/
def execLeR (e : Fin 2) (o : Opnd) (s : State) : Host.Outcome State Fault Refusal := .next (leR e o s)
/-- AND. -/
def execLeAnd (e : Fin 2) (o : Opnd) (s : State) : Host.Outcome State Fault Refusal := .next (leAnd e o s)
/-- ANDN. -/
def execLeAndn (e : Fin 2) (o : Opnd) (s : State) : Host.Outcome State Fault Refusal := .next (leAndn e o s)
/-- OR. -/
def execLeOr (e : Fin 2) (o : Opnd) (s : State) : Host.Outcome State Fault Refusal := .next (leOr e o s)
/-- ORN. -/
def execLeOrn (e : Fin 2) (o : Opnd) (s : State) : Host.Outcome State Fault Refusal := .next (leOrn e o s)
/-- XOR. -/
def execLeXor (e : Fin 2) (o : Opnd) (s : State) : Host.Outcome State Fault Refusal := .next (leXor e o s)
/-- XORN. -/
def execLeXorn (e : Fin 2) (o : Opnd) (s : State) : Host.Outcome State Fault Refusal := .next (leXorn e o s)
/-- NOT. -/
def execLeNot (e : Fin 2) (s : State) : Host.Outcome State Fault Refusal := .next (leNot e s)
/-- AND_BRACKET. -/
def execLeAndBr (e : Fin 2) (o : Opnd) (s : State) : Host.Outcome State Fault Refusal := .next (leAndBr e o s)
/-- ANDN_BRACKET. -/
def execLeAndnBr (e : Fin 2) (o : Opnd) (s : State) : Host.Outcome State Fault Refusal := .next (leAndnBr e o s)
/-- OR_BRACKET. -/
def execLeOrBr (e : Fin 2) (o : Opnd) (s : State) : Host.Outcome State Fault Refusal := .next (leOrBr e o s)
/-- ORN_BRACKET. -/
def execLeOrnBr (e : Fin 2) (o : Opnd) (s : State) : Host.Outcome State Fault Refusal := .next (leOrnBr e o s)
/-- XOR_BRACKET. -/
def execLeXorBr (e : Fin 2) (o : Opnd) (s : State) : Host.Outcome State Fault Refusal := .next (leXorBr e o s)
/-- XORN_BRACKET. -/
def execLeXornBr (e : Fin 2) (o : Opnd) (s : State) : Host.Outcome State Fault Refusal := .next (leXornBr e o s)
/-- CLOSE_BRACKET. -/
def execLeClose (e : Fin 2) (s : State) : Host.Outcome State Fault Refusal := .next (leClose e s)
/-- EP. -/
def execLeEp (e : Fin 2) (o : Opnd) (s : State) : Host.Outcome State Fault Refusal := .next (leEp e o s)
/-- EN. -/
def execLeEn (e : Fin 2) (o : Opnd) (s : State) : Host.Outcome State Fault Refusal := .next (leEn e o s)
/-- TON. -/
def execLeTon (e : Fin 2) (o : Opnd) (s : State) : Host.Outcome State Fault Refusal := .next (leTon e o s)
/-- TOF. -/
def execLeTof (e : Fin 2) (o : Opnd) (s : State) : Host.Outcome State Fault Refusal := .next (leTof e o s)
/-- TP. -/
def execLeTp (e : Fin 2) (o : Opnd) (s : State) : Host.Outcome State Fault Refusal := .next (leTp e o s)
/-- TRD. -/
def execLeTrd (e : Fin 2) (o : Opnd) (s : State) : Host.Outcome State Fault Refusal := .next (leTrd e o s)
/-- CTU. -/
def execLeCtu (e : Fin 2) (o : Opnd) (s : State) : Host.Outcome State Fault Refusal := .next (leCtu e o s)
/-- CTD. -/
def execLeCtd (e : Fin 2) (o : Opnd) (s : State) : Host.Outcome State Fault Refusal := .next (leCtd e o s)
/-- CTLD. -/
def execLeCtld (e : Fin 2) (o : Opnd) (s : State) : Host.Outcome State Fault Refusal := .next (leCtld e o s)
/-- CTRD. -/
def execLeCtrd (e : Fin 2) (o : Opnd) (s : State) : Host.Outcome State Fault Refusal := .next (leCtrd e o s)
/-- LDW. -/
def execLeLdw (e : Fin 2) (o : Opnd) (s : State) : Host.Outcome State Fault Refusal := .next (leLdw e o s)
/-- STW. -/
def execLeStw (e : Fin 2) (o : Opnd) (s : State) : Host.Outcome State Fault Refusal := .next (leStw e o s)
/-- ADD. -/
def execLeAdd (e : Fin 2) (o : Opnd) (s : State) : Host.Outcome State Fault Refusal := .next (leAdd e o s)
/-- SUB. -/
def execLeSub (e : Fin 2) (o : Opnd) (s : State) : Host.Outcome State Fault Refusal := .next (leSub e o s)
/-- MUL. -/
def execLeMul (e : Fin 2) (o : Opnd) (s : State) : Host.Outcome State Fault Refusal := .next (leMul e o s)
/-- DIV. -/
def execLeDiv (e : Fin 2) (o : Opnd) (s : State) : Host.Outcome State Fault Refusal := .next (leDiv e o s)
/-- MOD. -/
def execLeMod (e : Fin 2) (o : Opnd) (s : State) : Host.Outcome State Fault Refusal := .next (leMod e o s)
/-- ANDW. -/
def execLeAndw (e : Fin 2) (o : Opnd) (s : State) : Host.Outcome State Fault Refusal := .next (leAndw e o s)
/-- ORW. -/
def execLeOrw (e : Fin 2) (o : Opnd) (s : State) : Host.Outcome State Fault Refusal := .next (leOrw e o s)
/-- XORW. -/
def execLeXorw (e : Fin 2) (o : Opnd) (s : State) : Host.Outcome State Fault Refusal := .next (leXorw e o s)
/-- SHL. -/
def execLeShl (e : Fin 2) (o : Opnd) (s : State) : Host.Outcome State Fault Refusal := .next (leShl e o s)
/-- SHR. -/
def execLeShr (e : Fin 2) (o : Opnd) (s : State) : Host.Outcome State Fault Refusal := .next (leShr e o s)
/-- ASR. -/
def execLeAsr (e : Fin 2) (o : Opnd) (s : State) : Host.Outcome State Fault Refusal := .next (leAsr e o s)
/-- GTW. -/
def execLeGtw (e : Fin 2) (o : Opnd) (s : State) : Host.Outcome State Fault Refusal := .next (leGtw e o s)
/-- GEW. -/
def execLeGew (e : Fin 2) (o : Opnd) (s : State) : Host.Outcome State Fault Refusal := .next (leGew e o s)
/-- EQW. -/
def execLeEqw (e : Fin 2) (o : Opnd) (s : State) : Host.Outcome State Fault Refusal := .next (leEqw e o s)
/-- NEW. -/
def execLeNew (e : Fin 2) (o : Opnd) (s : State) : Host.Outcome State Fault Refusal := .next (leNew e o s)
/-- LTW. -/
def execLeLtw (e : Fin 2) (o : Opnd) (s : State) : Host.Outcome State Fault Refusal := .next (leLtw e o s)
/-- LEW. -/
def execLeLew (e : Fin 2) (o : Opnd) (s : State) : Host.Outcome State Fault Refusal := .next (leLew e o s)
/-- LDX. -/
def execLeLdx (e : Fin 2) (o : Opnd) (s : State) : Host.Outcome State Fault Refusal := .next (leLdx e o s)
/-- JMP. -/
def execLeJmp (e : Fin 2) (o : Opnd) (s : State) : Host.Outcome State Fault Refusal := .next (leJmp e o s)
/-- JMPC. -/
def execLeJmpc (e : Fin 2) (o : Opnd) (s : State) : Host.Outcome State Fault Refusal := .next (leJmpc e o s)
/-- JMPCN. -/
def execLeJmpcn (e : Fin 2) (o : Opnd) (s : State) : Host.Outcome State Fault Refusal := .next (leJmpcn e o s)
/-- CAL. -/
def execLeCal (e : Fin 2) (o : Opnd) (s : State) : Host.Outcome State Fault Refusal := .next (leCal e o s)
/-- CALC. -/
def execLeCalc (e : Fin 2) (o : Opnd) (s : State) : Host.Outcome State Fault Refusal := .next (leCalc e o s)
/-- RET. -/
def execLeRet (e : Fin 2) (s : State) : Host.Outcome State Fault Refusal := .next (leRet e s)
/-- SENDQ. -/
def execLeSendq (e : Fin 2) (o : Opnd) (s : State) : Host.Outcome State Fault Refusal := .next (leSendq e o s)
/-- RECVQ. -/
def execLeRecvq (e : Fin 2) (o : Opnd) (s : State) : Host.Outcome State Fault Refusal := .next (leRecvq e o s)
/-- END. -/
def execLeEnd (e : Fin 2) (s : State) : Host.Outcome State Fault Refusal := .next (leEnd e s)
/-- BANK_READY. -/
def execBankReady (e : Fin 2) (s : State) : Host.Outcome State Fault Refusal := .next (bankReady e s)
/-- LE_LINE_RESTORE. -/
def execLeLineRestore (e : Fin 2) (line : Nat) (s : State) : Host.Outcome State Fault Refusal := .next (leLineRestore e line s)
/-- LE_TRAP_CLR. -/
def execLeTrapClr (e : Fin 2) (s : State) : Host.Outcome State Fault Refusal := .next (leTrapClr e s)

end Sys2Proof.Machine
end

