-- ==== Sys2Proof/Machine/Cmp.lean ====
section
/-!
DEFINITION. The comparators (R60 to R66, R166, R167): mismatches of pairs and engines, and their self-tests.
-/
namespace Sys2Proof.Machine

/-- 24 hours and one hour in units of the operating-hours counter. -/
def dayUnits : Nat := 88473600
def hourUnits : Nat := 3686400

/-! ### Mismatches (R65, R66, R166) -/

/-- The eight words of a PAIR_MISMATCH snapshot (R66). The module state stands in the reserved bits 30, 16, 3 and 2 of PLX_BANK. -/
def State.pairSnap (s : State) (p grp lane lead trail : Nat) : List Nat :=
  let q := s.pair p
  let st := s.sup.st.code
  [p * 256 + grp, lane, lead, trail, q.lastPc, q.lastPc / 2 ^ 32 % 65536 * 65536 + q.curBank.task % 1024, q.mcycle,
   (s.plxBank p % 2 ^ 32) + (st / 8 % 2) * 2 ^ 30 + (st / 4 % 2) * 2 ^ 16 + (st % 4) * 4]

/-- A pair mismatch or a failed pair self-test takes the module through R65. -/
def State.pairFails (s : State) (p : Nat) (code : RCode) (words : List Nat) : State :=
  let s := s.modPair p fun q => { q with frozen := true, testing := none }
  (s.report code (srcPair p) words).enterDusk 1

/-- PAIR_MISMATCH (R60, R65, R66); during a self-test it fails the test (R61). -/
def pairMismatch (p grp lane : Nat) (lead trail : Word) (s : State) : State :=
  let q := s.pair p
  if s.pairFitted p && s.alive && s.sup.st != .dusk && !q.frozen && s.get (F.PWR_PAIRCLK_STATE p) == 0 && decide (lane < cmpLanes grp) then
    s.pairFails p (if q.testing.isSome then .CMP_SELFTEST_FAIL else .PAIR_MISMATCH) (s.pairSnap p grp lane lead.toNat trail.toNat)
  else s

/-- An engine mismatch or a failed engine self-test (R166, R167). -/
def State.leFails (s : State) (e : Nat) (code : RCode) (words : List Nat) : State :=
  ((s.setEng e { s.eng e with testing := none, shadow := [] }).report code (srcLe e) words).enterDusk 2

/-- LE_MISMATCH (R166). -/
def leMismatch (e grp lane : Nat) (lead trail : Word) (s : State) : State :=
  if s.engineFitted e && s.alive && s.sup.st != .dusk then
    let g := s.eng e
    let words := [e * 256 + grp, lane, lead.toNat, trail.toNat, s.get (F.LE_BANK_ACTIVE e) * 2 ^ 18 + g.pc, (s.unit (4 + e)).task]
    s.leFails e (if g.testing.isSome then .LE_SELFTEST_FAIL else .LE_MISMATCH) words
  else s

/-! ### Self-tests (R61, R63, R64, R167) -/

/-- The last test of a unit, whether it is due, and hours overdue already recorded. -/
def State.cmpLast (s : State) (u : Nat) : Nat := if u < 4 then (s.pair u).cmpLast else (s.eng (u - 4)).cmpLast
def State.cmpDue (s : State) (u : Nat) : Bool := if u < 4 then (s.pair u).cmpDue else s.flag (F.LE_CMPST_DUE (u - 4))
def State.cmpOverdue (s : State) (u : Nat) : Nat := if u < 4 then (s.pair u).cmpOverdue else (s.eng (u - 4)).cmpOverdue

/-- The states in which the daily tests are due (R63). -/
def State.testState (s : State) : Bool :=
  match s.sup.st with
  | .config | .stop | .run | .hold => true
  | _ => false

/-- The instant at which the operating-hours counter reaches a value. -/
def State.opAt (s : State) (units : Nat) : Nat := s.clk.opSince + (units * 781250 - s.clk.opAcc)

/-- CMP_TEST_DUE (R63, R167): 24 h of operation after the last test. -/
def cmpTestDue (u : Nat) (s : State) : State :=
  if s.unitFitted u && s.alive && s.clk.opOn && !s.cmpDue u then
    let s := s.advance (s.opAt (s.cmpLast u + dayUnits))
    if u < 4 then s.modPair u fun q => { q with cmpDue := true } else s.set (F.LE_CMPST_DUE (u - 4)) 1
  else s

/-- CMP_TEST_OVERDUE (R64, R168): one hour after the test fell due, and each hour from then on. -/
def cmpTestOverdue (u : Nat) (s : State) : State :=
  if s.unitFitted u && s.alive && s.clk.opOn && s.cmpDue u && s.testState then
    let n := s.cmpOverdue u + 1
    let s := ((s.advance (s.opAt (s.cmpLast u + dayUnits + n * hourUnits))).raise 41).report .CMP_TEST_OVERDUE srcHx [u, n]
    if u < 4 then s.modPair u fun q => { q with cmpOverdue := n } else s.setEng (u - 4) { s.eng (u - 4) with cmpOverdue := n }
  else s

/-- The unit stands in a gap of at least `gap` microticks between a budget end, at most 0.25 us ago, and its next START; or it carries no
windows (R63, R167). -/
def State.testGap (s : State) (u gap : Nat) : Bool :=
  let x := s.unit u
  x.win.isNone && match s.nextWin u, x.endedAt with
    | none, _ => true
    | some c, some b => decide (s.clk.t ≤ b + 200 ∧ b + gap ≤ c.2)
    | some _, none => false

/-- A pair's self-test begins: 2.5 us in which it executes nothing. -/
def State.pairTest (s : State) (p : Nat) : State := s.modPair p fun q => { q with testing := some (s.clk.t + 2000) }
/-- An engine's self-test begins: 1 us. -/
def State.leTest (s : State) (e : Nat) : State := (s.setEng e { s.eng e with testing := some (s.clk.t + 800) }).set (F.LE_STAT_STATE e) 2

/-- CMP_SELFTEST (R63): one pair at a time, in ascending number. -/
def cmpSelftest (p : Nat) (s : State) : State :=
  let q := s.pair p
  let others := (List.range 4).any fun n => (s.pair n).testing.isSome || (decide (n < p) && s.pairFitted n && (s.pair n).cmpDue)
  if s.pairFitted p && s.testState && q.cmpDue && !q.frozen && !q.halted && !others && s.testGap p 2400 then s.pairTest p else s

/-- LE_CMP_SELFTEST (R167). -/
def leCmpSelftest (e : Nat) (s : State) : State :=
  if s.engineFitted e && s.testState && s.cmpDue (4 + e) && (s.eng e).testing.isNone && s.testGap (4 + e) 1600 then s.leTest e else s

/-- A passed self-test counts, and the next one is due a day later. -/
def State.testPassed (s : State) (u : Nat) : State :=
  if u < 4 then s.modPair u fun q => { q with testing := none, cmpDue := false, cmpPass := min (q.cmpPass + 1) 65535, cmpLast := s.optime, cmpOverdue := 0 }
  else
    let e := u - 4
    let s := s.setEng e { s.eng e with testing := none, cmpLast := s.optime, cmpOverdue := 0 }
    ((s.set (F.LE_CMPST_DUE e) 0).inc (F.LE_CMPST_PASS_COUNT e)).set (F.LE_STAT_STATE e) 0

/-- CMP_SELFTEST_END (R61, R167): the test of unit `u` ends; `fail` names the failing lane. -/
def cmpSelftestEnd (u : Nat) (fail : Option Nat) (s : State) : State :=
  match (if u < 4 then (s.pair u).testing else (s.eng (u - 4)).testing) with
  | none => s
  | some t =>
    let s := s.advance t
    match fail with
    | some lane => if u < 4 then s.pairFails u .CMP_SELFTEST_FAIL [u, lane] else s.leFails (u - 4) .LE_SELFTEST_FAIL [u - 4, lane]
    | none => (((s.testPassed u).leaveExcluded).tryOpen u).settle u

/-! ### The commands -/

/-- PAIR_MISMATCH. -/
def execPairMismatch (p : Fin 4) (grp : Fin 7) (lane : Nat) (lead trail : Word) (s : State) : Host.Outcome State Fault Refusal :=
  .next (pairMismatch p grp lane lead trail s)
/-- CMP_SELFTEST. -/
def execCmpSelftest (p : Fin 4) (s : State) : Host.Outcome State Fault Refusal := .next (cmpSelftest p s)
/-- CMP_TEST_OVERDUE. -/
def execCmpTestOverdue (u : Fin 6) (s : State) : Host.Outcome State Fault Refusal := .next (cmpTestOverdue u s)
/-- LE_MISMATCH. -/
def execLeMismatch (e : Fin 2) (grp lane : Nat) (lead trail : Word) (s : State) : Host.Outcome State Fault Refusal :=
  .next (leMismatch e grp lane lead trail s)
/-- LE_CMP_SELFTEST. -/
def execLeCmpSelftest (e : Fin 2) (s : State) : Host.Outcome State Fault Refusal := .next (leCmpSelftest e s)
/-- CMP_TEST_DUE. -/
def execCmpTestDue (u : Fin 6) (s : State) : Host.Outcome State Fault Refusal := .next (cmpTestDue u s)
/-- CMP_SELFTEST_END. -/
def execCmpSelftestEnd (u : Fin 6) (fail : Option Nat) (s : State) : Host.Outcome State Fault Refusal :=
  .next (cmpSelftestEnd u fail s)

end Sys2Proof.Machine
end

