-- ==== Sys2Proof/Machine/Vars.lean ====
section
/-!
DEFINITION. The data of programs from outside them: partition memory and marker memory, variables (R206), forces (R211, R212), writes
of variables (R462), retentive blocks and timers as a sync set carries them (R202, R240).
-/
namespace Sys2Proof.Machine

/-! ### Partition memory and variables -/

/-- The physical address of a byte of a partition's private page: in its frame or at its DDR home. -/
def State.pageAddr (s : State) (part va : Nat) : Option Nat :=
  let p := s.page (pkey part (va / 4096))
  match p.frame, p.home with
  | some f, _ => some (frameAddr f + va % 4096)
  | none, some h => some (homeAddr h + va % 4096)
  | none, none => none

/-- Bytes of partition memory; a byte of no page reads 0. -/
def State.userRead (s : State) (part va n : Nat) : List Byte :=
  (List.range n).map fun i => match s.pageAddr part (va + i) with | some a => s.rd8 a | none => 0

/-- One byte of partition memory takes a value. -/
def State.userPut (s : State) (part va : Nat) (b : Byte) : State :=
  match s.pageAddr part va with
  | some a => ((s.wr8 a b).unreserve 4 a 1).modPage (pkey part (va / 4096)) fun p => { p with written := p.written || p.frame.isSome }
  | none => s

/-- Bytes of partition memory take values. -/
def State.userWrite (s : State) (part va : Nat) : List Byte → State
  | [] => s
  | b :: r => (s.userPut part va b).userWrite part (va + 1) r

/-- A page is POISONED: where it is, or at its home while no frame holds it (R152). -/
def State.pageBad (s : State) (part up : Nat) : Bool :=
  let p := s.page (pkey part up)
  p.poisoned || (p.frame.isNone && s.homeBad part up)

/-- A page or line of partition memory holds an uncorrectable error. -/
def State.userBad (s : State) (part va n : Nat) : Bool :=
  (List.range n).any fun i => s.pageBad part ((va + i) / 4096) ||
    (match s.pageAddr part (va + i) with | some a => s.poisoned a | none => false)

/-- The variable of an identity in a table. -/
def varOf (l : List VarEntry) (ident : Nat) : Option VarEntry := l.find? fun v => v.ident == ident
def State.var? (s : State) (ident : Nat) : Option VarEntry := varOf s.prog.vars ident

/-- A bit of a byte as a BOOL, and a byte with one bit replaced. -/
def boolByte (b : Byte) (bit : Nat) : Byte := if b.getLsbD bit then 1 else 0
def putBit (b : Byte) (bit : Nat) (v : Bool) : Byte :=
  if v then b ||| BitVec.ofNat 8 (2 ^ bit) else b &&& ~~~ BitVec.ofNat 8 (2 ^ bit)

/-- The bytes behind a variable: of its image, of memory, of its timer entry. -/
def State.varRaw (s : State) (v : VarEntry) (ofs n : Nat) : List Byte :=
  match v.space with
  | 0 => s.userRead v.part (v.addr + ofs) n
  | 1 => tgetList byteD (s.grp v.group).agreed (v.addr + ofs) n
  | 2 => tgetList byteD (s.grp v.group).offered (v.addr + ofs) n
  | 3 => s.rdBytes (leAddr (v.part - 256) 2 (v.addr + ofs)) n
  | _ => s.rdBytes (leTimerAddr (v.part - 256) v.addr + ofs) n

/-- The value of a variable, or of `n` bytes of it (R462). -/
def State.varBytes (s : State) (v : VarEntry) (ofs n : Nat) : List Byte :=
  if v.typ = 1 then (s.varRaw v ofs n).map fun b => boolByte b v.bit else s.varRaw v ofs n

/-- A variable holds an uncorrectable error. -/
def State.varBad (s : State) (v : VarEntry) : Bool :=
  match v.space with
  | 0 => s.userBad v.part v.addr v.size
  | 3 => (List.range v.size).any fun i => s.poisoned (leAddr (v.part - 256) 2 (v.addr + i))
  | _ => (List.range v.size).any fun i => s.poisoned (leTimerAddr (v.part - 256) v.addr + i)

/-- Bytes of a variable of partition memory, marker memory or a timer take values (R207, R462). -/
def State.putVar (s : State) (v : VarEntry) (ofs : Nat) (data : List Byte) : State :=
  let d := if v.typ = 1 then [putBit ((s.varRaw v 0 1).headD 0) v.bit ((data.headD 0).getLsbD 0)] else data
  match v.space with
  | 0 => s.userWrite v.part (v.addr + ofs) d
  | 3 => s.wrBytes (leAddr (v.part - 256) 2 (v.addr + ofs)) d
  | 4 => s.wrBytes (leTimerAddr (v.part - 256) v.addr + ofs) d
  | _ => s

/-- The cycle group at whose instants a variable is forced or written (R212, R462): its own, or that of the lowest-numbered task that
is not a background task of its partition or engine. -/
def State.varGroup (s : State) (v : VarEntry) : Nat :=
  if v.space = 1 ∨ v.space = 2 then v.group
  else match s.hx.sched.tasks.find? fun t => t.owner == v.part && t.cls != 2 with
    | some t => t.group
    | none => 0

/-! ### Long operations end (R446, R447) -/

/-- The long operation in progress has its outcome if it is one of the opcode. -/
def State.longDone (s : State) (opc status : Nat) (data : List Byte) : State :=
  match s.sup.longOp with
  | some o => if o.opc = opc ∧ o.outcome = none then { s with sup := { s.sup with longOp := some { o with outcome := some (status, data) } } } else s
  | none => s

/-- TVL_MFC and the cycle count of a task cycle, as the notices of R460 carry them. -/
def State.cycleTag (s : State) (g : Nat) : List Byte := leBytes 4 (s.get F.TVL_MFC_W) ++ [BitVec.ofNat 8 (s.grp g).frzCount]

/-! ### Forces (R211, R212) -/

/-- The force laid over an image. -/
def Force.over (f : Force) (img : Tbl Byte) : Tbl Byte :=
  if f.typ = 1 then tput byteD img f.ofs (putBit (tget byteD img f.ofs) f.bit (f.value.testBit 0))
  else tputList byteD img f.ofs (leBytes f.size f.value)

/-- The force covers data of a signal-map entry. -/
def Force.covers (f : Force) (e : SigEntry) : Bool :=
  e.group == f.group && decide (e.imgOfs < f.ofs + max 1 f.size ∧ f.ofs < e.imgOfs + e.len)

/-- The forces in effect on the images of a space of a group. -/
def State.forcesOn (s : State) (space g : Nat) : List Force :=
  s.cyc.forces.filter fun f => f.applied && f.space == space && f.group == g

/-- The forces waiting for this instant take effect, those being cleared end (R212). -/
def State.applyForces (s : State) (space g : Nat) : State :=
  let mine (f : Force) : Bool := f.space == space && f.group == g
  let new := s.cyc.forces.any fun f => mine f && !f.applied
  let gone := s.cyc.forces.any fun f => mine f && f.clearing
  let l := (s.cyc.forces.filter fun f => !(mine f && f.clearing)).map fun f => if mine f then { f with applied := true } else f
  let s : State := { s with cyc := { s.cyc with forces := l } }
  let s := if new then s.longDone 0x18 0 (s.cycleTag g) else s
  if gone && !(l.any fun f => f.clearing) then s.longDone 0x19 0 (s.cycleTag g) else s

/-- A force is laid down for its next instant; one on the same identity ends there. -/
def State.layForce (s : State) (v : VarEntry) (value : Nat) : State :=
  let old := (s.cyc.forces.filter fun f => !(f.ident == v.ident && !f.applied)).map fun f => if f.ident = v.ident then { f with clearing := true } else f
  { s with cyc := { s.cyc with forces := old ++ [⟨v.ident, v.typ, v.space, v.group, v.addr, v.bit, v.size, value, false, false⟩] } }

/-- A force ends at its next instant; identity 0xFFFF_FFFF names all (R460). -/
def State.liftForce (s : State) (ident : Nat) : State :=
  { s with cyc := { s.cyc with forces := s.cyc.forces.map fun f => if f.ident = ident ∨ ident = 0xFFFFFFFF then { f with clearing := true } else f } }

/-- A write of a variable waits for the next output close of its group (R462). -/
def State.layWrite (s : State) (v : VarEntry) (ofs : Nat) (data : List Byte) : State :=
  { s with cyc := { s.cyc with varWrites := s.cyc.varWrites ++ [⟨v.ident, ofs, data, s.varGroup v⟩] } }

/-- What a force change does where it is applied. -/
def State.layChange (s : State) (ident : Nat) (w : ForceWhat) : State :=
  match w with
  | .force value => (match s.var? ident with | some v => s.layForce v value | none => s)
  | .clear => s.liftForce ident
  | .write ofs data => (match s.var? ident with | some v => s.layWrite v ofs data | none => s)

/-- The opcode of the command behind a force change. -/
def whatOpc : ForceWhat → Nat
  | .force _ => 0x18
  | .clear => 0x19
  | .write _ _ => 0x21

/-- The force changes agreed for the task cycle that begins (R242): applied if every member has acknowledged, else dropped. -/
def State.takeProps (s : State) (g : Nat) : State :=
  let mine (p : ForceProp) : Bool :=
    p.mfc == s.get F.TVL_MFC_W && p.cc == (s.grp g).frzCount && (match s.var? p.ident with | some v => s.varGroup v == g | none => true)
  let now := s.tvl.forceProp.filter mine
  let s : State := { s with tvl := { s.tvl with forceProp := s.tvl.forceProp.filter fun p => !mine p } }
  now.foldl (fun (s : State) p =>
    if s.members.all fun q => p.acks.contains q then s.layChange p.ident p.what
    else s.longDone (whatOpc p.what) 0x20 s.errNone) s

/-! ### Retentive blocks and timers (R202, R240) -/

/-- The bytes of a retentive block. -/
def State.blockData (s : State) (b : RetBlock) : List Byte :=
  if b.space = 0 then s.userRead b.part b.addr b.len else s.rdBytes (leAddr (b.space - 1) 2 b.addr) b.len
/-- A retentive block holds an uncorrectable error. -/
def State.blockBad (s : State) (b : RetBlock) : Bool :=
  if b.space = 0 then s.userBad b.part b.addr b.len
  else (List.range b.len).any fun i => s.poisoned (leAddr (b.space - 1) 2 (b.addr + i))
/-- A retentive block takes bytes. -/
def State.putBlock (s : State) (b : RetBlock) (l : List Byte) : State :=
  if b.space = 0 then s.userWrite b.part b.addr l else s.wrBytes (leAddr (b.space - 1) 2 b.addr) l

/-- The words an engine instruction can lead to. -/
def leSucc (w : Word) (pc : Nat) : List Nat :=
  let t := (leOpnd w).opnd.toNat
  match leOpc w with
  | 0x34 => [t]
  | 0x35 | 0x36 | 0x37 | 0x38 => [pc + 1, t]
  | 0x39 | 0x3F => []
  | _ => [pc + 1]

/-- The words reachable from a worklist. -/
def leReach (word : Nat → Word) (n : Nat) : Nat → List Nat → List Nat → List Nat
  | 0, _, seen => seen
  | _ + 1, [], seen => seen
  | k + 1, pc :: r, seen =>
    if n ≤ pc ∨ seen.contains pc then leReach word n k r seen
    else leReach word n k (leSucc (word pc) pc ++ r) (pc :: seen)

/-- The timers that the engine tasks of a group execute, as engine and timer number (R240). -/
def State.groupTimers (s : State) (g : Nat) : List (Nat × Nat) :=
  (s.hx.sched.tasks.filter fun t => t.group == g && t.cls != 2 && decide (4 ≤ t.unit)).flatMap fun t =>
    let e := t.unit - 4
    let b := s.get (F.LE_BANK_ACTIVE e)
    let n := tget natD (s.eng e).words b
    let word (pc : Nat) : Word := BitVec.ofNat 32 (s.rdLe (leBankAddr e b + 4 * pc) 4)
    let pcs := leReach word n (3 * n + 3) [t.entry] []
    ((pcs.filter fun pc => [0x17, 0x18, 0x19, 0x1A].contains (leOpc (word pc))).map fun pc => (e, (leOpnd (word pc)).opnd.toNat)).eraseDups

/-- The sync set of a group as the donor sends it (R240). -/
def State.syncSet (s : State) (g : Nat) : List SyncItem :=
  (s.prog.blocks.filter fun b => b.group == g).map (fun b => SyncItem.block b.ident (s.blockData b)) ++
  (s.groupTimers g).map (fun c =>
    let t := s.leTimer (leTimerAddr c.1 c.2)
    SyncItem.timer c.1 c.2 t.run t.q (if t.run then elapsedUt s.frc t.start else 0)) ++
  [.status s.cyc.changeGen s.cyc.startKind s.cyc.retInit (s.grp g).taskCycles (s.get F.TVL_MFC_W)]

/-- The joiner writes an item of a group's sync set (R240). -/
def State.putSync (s : State) (g : Nat) : SyncItem → State
  | .block ident data => (match s.prog.blocks.find? fun b => b.ident == ident && b.group == g with | some b => s.putBlock b (padTo b.len data) | none => s)
  | .timer e n run q elapsed =>
    let a := leTimerAddr e n
    s.setLeTimer e a { s.leTimer a with run := run, q := q, start := (s.frc + 2 ^ 64 - elapsed) % 2 ^ 64 }
  | .status cg sk ri tc mfc =>
    let s := (s.setGrp g { s.grp g with taskCycles := tc }).set F.TVL_MFC_W mfc
    { s with cyc := { s.cyc with changeGen := cg, startKind := sk, retInit := ri } }

end Sys2Proof.Machine
end

