-- ==== Sys2Proof/Machine/Cycle.lean ====
section
/-!
DEFINITION. The control cycle: Gheif cycles and major frames, freeze with quality and substitution, publication, output close, vote
and output instant (chapter 1, R191, R197 to R203, R211, R212, R240), and the presence of stations (R292).
-/
namespace Sys2Proof.Machine

/-! ### Gheif cycles and major frames (R17, R19, R34) -/

/-- The cycle timer runs: a cycle length is laid down. -/
def State.ticking (s : State) : Bool :=
  s.cyc.running && decide (0 < s.tg) && (match s.sup.st with | .run | .hold | .stop | .service | .dusk => true | _ => false)

/-- The cycle instants of the groups occur: in the states of R191. -/
def State.cycling (s : State) : Bool := s.ticking && s.sup.st != .dusk

/-- The cycle timer starts, and with it the protocol engine (R17, R267): on entry to the Stop state with a sealed configuration. -/
def State.startCycles (s : State) : State :=
  if s.cyc.running || !s.sealed then s else (s.setCyc s.clk.t 0).noteCycTod.ghStart

/-- Cycles end: Config, Dusk and Midnight (R267). -/
def State.stopCycles (s : State) : State := ({ s with cyc := { s.cyc with running := false } }).ghStop

/-- Saves of the frame that ends and are not finished, or were moved out of it, are late and given up (R203). -/
def State.lateSaves (s : State) : State :=
  let late := ((s.cyc.saves.filter fun x => !x.closing).map fun x => x.ident) ++ s.cyc.savesMoved
  let s := late.foldl (fun (s : State) i => s.report .RETAIN_SAVE_LATE srcHx [i]) s
  { s with cyc := { s.cyc with saves := s.cyc.saves.filter fun x => x.closing, savesMoved := [] } }

/-- A major frame begins (R19, R34): HX_FRAME and TVL_MFC count; a joiner's complete frame of PROBATION begins (R239). -/
def State.frameBegin (s : State) : State :=
  let t := s.cyc.start
  let s := s.lateSaves
  let service := s.sup.st == .service && !s.sup.fromDusk
  let counting := s.sup.st == .run || service
  let s :=
    if s.hx.frameOn then
      let s : State := { s with hx := { s.hx with frameStart := t, frameMt := s.cycMt } }
      let s := if counting then s.set F.HX_FRAME_W (s.get F.HX_FRAME_W + 1) else s
      if s.simplex || decide (2 ≤ s.mstate) then s.set F.TVL_MFC_W (s.get F.TVL_MFC_W + 1) else s
    else if counting && s.hx.hasSched && decide (s.hx.notBefore ≤ t) && (s.simplex || service || s.mstate != 1) then
      let s : State := { s with hx := { s.hx with frameStart := t, frameMt := s.cycMt, frameOn := true, notBefore := t } }
      let s := s.set F.HX_FRAME_W 0
      let s := if s.simplex || s.mstate == 4 then s.set F.TVL_MFC_W 0 else s
      if s.sup.st = .run then s.longDone 0x03 0 [] else s
    else s
  match s.tvl.sync.probEnd with
  | none => if s.mstate = 3 then { s with tvl := { s.tvl with sync := { s.tvl.sync with probEnd := some (s.mt (s.cycMt + s.mfLen * s.tgMt)) } } } else s
  | some _ => s

/-- A Gheif cycle start at the very stamp of an item is counted with those at or before it (R199). -/
def Source.startAt (t n : Nat) (c : Source) : Source :=
  { c with cur := c.cur.map fun i => if i.tm = t then { i with n := n } else i }
def State.startSources (s : State) : State :=
  { s with cyc := { s.cyc with sources := s.cyc.sources.map fun c => (c.1, c.2.startAt s.cyc.start s.cyc.n) } }

/-- The next cycle of the cycle timer begins (R17, R297). -/
def State.timerStart (s : State) (start count : Nat) : State :=
  let s := ((s.advance start).setCyc start count).startSources.timerCycle
  let s := ((s.tmbCycle s.cycleLen).raise 242).ixTimeAll
  if s.cyc.count % s.mfLen = 0 then s.frameBegin else s

/-- GHEIF_CYCLE_START (R17, R19): the next Gheif cycle begins, that of the protocol engine where it has one of its own (R266). -/
def gheifCycleStart (s : State) : State :=
  if !s.ticking then s
  else match s.gh.nextCycle with
    | some c => s.timerStart c.1 c.2
    | none =>
      if s.engineFirst then (s.advance (s.ghCyc.1 + s.ghLen)).engineCycle
      else s.timerStart (s.cyc.start + s.cycleLen) ((s.cyc.count + 1) % 256)

/-! ### The freeze (R22, R23, R197 to R201) -/

/-- The bytes of each whole unit of `n` reversed; a last partial unit stays (R291). -/
def swapUnits (n : Nat) : Nat → List Byte → List Byte
  | 0, l => l
  | k + 1, l => if n = 0 ∨ l.length < n then l else (l.take n).reverse ++ swapUnits n k (l.drop n)

/-- SWAP of a source (R291, R334, R366). -/
def State.swapOf (s : State) (kind id : Nat) : Nat :=
  match kind with
  | 1 => match s.clu with | some c => (match c.desc id with | some d => d.swap | none => 0) | none => 0
  | 2 => match s.telegram id with | some e => e.swap | none => 0
  | 3 => s.filterWord (id / 256) (id % 256) 2 / 256 % 256
  | _ => 0

/-- The recorder source of a kind of input. -/
def kindRec (kind id : Nat) : Nat :=
  match kind with
  | 1 => srcGhc 0
  | 2 => srcEth 0
  | 3 => srcCan (id / 256)
  | 4 => srcSio
  | 6 => srcIxs
  | _ => srcLrb

/-- The data of an item of a kind: those of Gheif, process data and CAN stand behind a prefix of 16 bytes (R289, R334, R365). -/
def kindData (kind : Nat) (l : List Byte) : List Byte := if kind = 1 ∨ kind = 2 ∨ kind = 3 then l.drop 16 else l

/-- The items of a source that fail their transit check as the freeze reads them are discarded (R162, R163). -/
def State.verifySource (s : State) (kind id : Nat) : State :=
  let c := s.source (srcKey kind id)
  let good (i : Option SrcItem) : Option SrcItem := i.filter fun x => x.it.ok
  let bad := [c.cur, c.prev, c.held].filterMap fun i => i.filter fun x => !x.it.ok
  match bad with
  | [] => s
  | _ => (bad.eraseDups.foldl (fun (s : State) x => s.transitFail (kindRec kind id) id x.it.stamp) s).setSource (srcKey kind id)
      { c with cur := good c.cur, prev := good c.prev, held := good c.held }

/-- The items that a group's freeze reads are verified. -/
def State.verifyGroup (s : State) (g : Nat) : State :=
  ((s.cfg.sigs.filter fun e => e.group == g && e.kind != 0 && e.kind != 7).map fun e => (e.kind, e.srcId)).eraseDups.foldl
    (fun (s : State) c => s.verifySource c.1 c.2) s

/-- The presence state of a source is ABSENT at this instant (R199, R292, R351). -/
def State.srcAbsent (s : State) (kind id : Nat) : Bool :=
  match kind with
  | 6 => s.ixState id != 2
  | _ => match presOff kind id with
    | some o => s.get (presF o) == 2
    | none => (s.source (srcKey kind id)).absent

/-- The newest item stamped before the freeze (R23). -/
def Source.before (c : Source) (t : Nat) : Option SrcItem :=
  let early (i : Option SrcItem) : Option SrcItem := i.filter fun x => decide (x.tm < t)
  (early c.cur).or (early c.prev)

/-- The quality byte (R199). -/
def qualByte (age : Nat) (subst : Bool) (state : Nat) : Byte := BitVec.ofNat 8 (min age 15 * 16 + 4 * b2n subst + state)

/-- The module-status entry (R201). -/
def State.modStatus (s : State) (g : Nat) : List Byte :=
  let forced := s.cyc.forces.any fun f => f.applied && f.group == g
  [BitVec.ofNat 8 (s.cyc.startKind % 128 + 128 * b2n s.cyc.retInit), BitVec.ofNat 8 (b2n forced), 0, 0] ++ leBytes 4 s.cyc.changeGen
    ++ leBytes 4 (s.grp g).taskCycles ++ List.replicate 4 0

/-- What an entry presents at a freeze at `t` with `n` Gheif cycle starts strictly before it: data and quality (R199). -/
def State.latchEntry (s : State) (e : SigEntry) (t n : Nat) : List Byte × Byte :=
  if e.kind = 7 then (padTo e.len (s.modStatus e.group), qualByte 0 false 3)
  else
    let c := s.source (srcKey e.kind e.srcId)
    let data (i : SrcItem) : List Byte := swapUnits (s.swapOf e.kind e.srcId) e.len (padTo e.len (kindData e.kind i.it.data))
    let subst (held : Option SrcItem) : List Byte × Byte :=
      match e.subst, held with
      | 1, some i => (data i, qualByte (n - i.n) true 0)
      | 2, _ => (sliceB s.cfg.subst e.patOfs e.len, qualByte 15 true 0)
      | _, _ => (List.replicate e.len 0, qualByte 15 true 0)
    if s.srcAbsent e.kind e.srcId then subst c.held
    else match c.before t with
      | some i => (data i, if n ≤ i.n then qualByte 0 false 3 else qualByte (n - i.n) false 1)
      | none => subst none

/-- The raw image of a group's freeze. -/
def State.rawImage (s : State) (g t n : Nat) : Tbl Byte :=
  (s.cfg.sigs.filter fun e => e.group == g && e.kind != 0).foldl (fun (img : Tbl Byte) e =>
    let r := s.latchEntry e t n
    let img := tputList byteD img e.imgOfs r.1
    if e.qualOfs = 0xFFFF then img else tput byteD img e.qualOfs r.2) []

/-- The sequence number of a task cycle (R330, R345). -/
def State.taskSeq (s : State) (d : Group) (count : Nat) : Nat :=
  let mfc := if s.simplex then s.get F.HX_FRAME_W else s.get F.TVL_MFC_W
  (mfc * (s.mfLen / 2 ^ d.k) + count % s.mfLen / 2 ^ d.k) % 2 ^ 32

/-- FREEZE (R22 step 1): a group's freeze instant in the running Gheif cycle. -/
def freeze (g : Nat) (s : State) : State :=
  match s.group? g with
  | none => s
  | some d =>
    let m := s.cycMt + d.frzOfs
    if !s.cycling || s.cyc.count % 2 ^ d.k != d.phase || ((s.grp g).on && (s.grp g).frzMt == m) then s
    else
      let t := s.mt m
      let s := ((s.advance t).ixTimeGroup g).verifyGroup g
      let s := s.setGrp g { s.grp g with
        frz := t, frzMt := m, live := s.contributes g, frzCount := s.cyc.count, on := true, published := false, closed := false, voteDone := false
        marking := 0, contributors := 0, leReady := [], frzTod := s.tod, seq := s.taskSeq d s.cyc.count }
      let s := (s.takeProps g).applyForces 1 g
      let s := if s.inRun && s.hx.frameOn && s.groupLive g then s.setGrp g { s.grp g with taskCycles := ((s.grp g).taskCycles + 1) % 2 ^ 32 } else s
      let n := if s.cyc.start < t then s.cyc.n else s.cyc.n - 1
      let s := s.setGrp g { s.grp g with raw := s.rawImage g t n }
      let s := s.tlClear g
      if s.joined g && !s.simplex then s.tlGroupFrame 1 g false (image (s.grp g).raw d.inBytes) else s

/-! ### Publication (R22 step 3, R25, R172, R191, R211, R531) -/

/-- The key of an agreed-image version. -/
def verKey (g v : Nat) : Nat := g * 2 ^ 40 + v

/-- Versions that no open activation reads any more are given up (R111, R131). -/
def State.pruneVersions (s : State) : State :=
  let used (k : Nat) : Bool :=
    let g := k / 2 ^ 40
    decide (k % 2 ^ 40 = (s.grp g).ver) || s.hx.tasks.any fun c => c.2.st != .idle && c.2.imgVer[g]? == some (k % 2 ^ 40)
  { s with cyc := { s.cyc with versions := s.cyc.versions.filter fun c => used c.1 } }

/-- An engine's input area takes the range that LE_IMAP_g names (R172). -/
def State.leInput (s : State) (e g : Nat) : State :=
  if s.engineFitted e && s.flag (F.LE_IMAP_EN e g) then
    let dst := leAddr e 0 (s.get (F.LE_IMAP_DST e g) * 64)
    let n := s.get (F.LE_IMAP_LEN e g) * 64
    let l := tgetList byteD (s.grp g).agreed (s.get (F.LE_IMAP_SRC e g) * 64) n
    (s.unpoison dst n).wrBytes dst l
  else s

/-- The agreed image takes the input forces, with FORCED in the quality bytes of the entries they cover (R211). -/
def State.forcedImage (s : State) (g : Nat) (img : Tbl Byte) : Tbl Byte :=
  (s.forcesOn 1 g).foldl (fun (img : Tbl Byte) f =>
    (s.cfg.sigs.filter fun e => f.covers e && e.qualOfs != 0xFFFF).foldl (fun (img : Tbl Byte) e =>
      tput byteD img e.qualOfs (tget byteD img e.qualOfs ||| 8)) (f.over img)) img

/-- The agreed image of a group is published. -/
def State.publish (s : State) (g : Nat) (img : Tbl Byte) : State :=
  let img := s.forcedImage g img
  let v := (s.grp g).ver + 1
  let s := s.setGrp g { s.grp g with agreed := img, ver := v, published := true }
  let s : State := { s with cyc := { s.cyc with versions := tput nilD s.cyc.versions (verKey g v) img } }
  ((s.leInput 0 g).leInput 1 g).pruneVersions

/-- AGR_PUB (R22 step 3): at F in simplex, else at F + AGR_DL; not where R531 withholds it. -/
def agrPub (g : Nat) (s : State) : State :=
  let x := s.grp g
  if !s.cycling || !x.on || x.published || (s.group? g).isNone then s
  else
    let s := s.advance (if s.simplex then x.frz else s.agrDl g)
    let joint := !s.simplex && (s.sup.st == .run || s.sup.st == .hold)
    let s := s.tlFlush
    if joint && !s.joined g then s
    else if joint && (s.ownDig g).isSome && x.contributors != 0 then s.publish g x.agreed
    else s.publish g x.raw

/-! ### Output close (R22 step 5, R27, R203, R211, R229, R240, R462) -/

/-- A task of the group awaits continuation. -/
def State.groupWaits (s : State) (g : Nat) : Bool :=
  (List.range s.hx.sched.tasks.length).any fun n =>
    match s.taskD? n with | some t => t.group == g && t.cls != 2 && (s.task n).st == .awaiting | none => false

/-- The output regions of tasks of stopped partitions are zeroed (R109). -/
def State.zeroRegions (s : State) (g : Nat) : State :=
  let mine (n : Nat) : Bool := match s.taskD? n with | some t => t.group == g | none => true
  let s := (s.hx.zero.filter mine).foldl (fun (s : State) n =>
    match s.taskD? n with
    | some t => { s with cyc := { s.cyc with committed := tputList byteD s.cyc.committed (commitKey g t.outOfs) (List.replicate t.outLen 0) } }
    | none => s) s
  { s with hx := { s.hx with zero := s.hx.zero.filter fun n => !mine n } }

/-- The writes of variables waiting for this output close take effect (R462). -/
def State.doWrites (s : State) (g : Nat) : State :=
  let now := s.cyc.varWrites.filter fun w => w.group == g
  let s : State := { s with cyc := { s.cyc with varWrites := s.cyc.varWrites.filter fun w => w.group != g } }
  now.foldl (fun (s : State) w =>
    match s.var? w.ident with | some v => (s.putVar v w.ofs w.data).longDone 0x21 0 [] | none => s.longDone 0x21 0x40 s.errNone) s

/-- The running output close is the first of its group in its major frame. -/
def State.firstClose (s : State) (g : Nat) : Bool := s.hx.frameOn && decide (s.clk.t < s.hx.frameStart + s.tc g)

/-- Retentive saves pause between the copying out of carried values and the end of the last change interval (R208 steps 3 and 6). -/
def State.savesPaused (s : State) : Bool :=
  match s.cyc.change with | some c => (!c.switched && !c.copied.isEmpty) || !c.setup.isEmpty | none => false

/-- A block is due at this output close of its group (R203). -/
def State.blockDue (s : State) (b : RetBlock) : Bool :=
  s.cyc.savesMoved.contains b.ident ||
    (s.firstClose b.group && b.interval != 0 && s.get F.HX_FRAME_W % b.interval == b.phase)

/-- The snapshots of a group's output close (R203): moved to the next one where a task awaits continuation. -/
def State.snapshots (s : State) (g : Nat) : State :=
  if !s.inRun || s.savesPaused || !s.hx.frameOn then s else
  let due := s.prog.blocks.filter fun b => b.group == g && s.blockDue b
  if s.groupWaits g then
    { s with cyc := { s.cyc with savesMoved := s.cyc.savesMoved ++ ((due.map fun b => b.ident).filter fun i => !s.cyc.savesMoved.contains i) } }
  else
    let new := due.map fun b => (⟨b.ident, b.prog, s.blockData b, s.get F.HX_FRAME_W, false, 0, 0, 0⟩ : Snapshot)
    let s := if new.isEmpty then s else s.request 4 1 3
    { s with cyc := { s.cyc with
        saves := (s.cyc.saves.filter fun x => !(due.any fun b => b.ident == x.ident)) ++ new
        savesMoved := s.cyc.savesMoved.filter fun i => !(due.any fun b => b.ident == i) } }

/-- Pieces of at most `n` bytes. -/
def pieces (n : Nat) (l : List Byte) : List (List Byte) := (List.range (max 1 ((l.length + n - 1) / n))).map fun i => (l.drop (i * n)).take n

/-- The donor takes a group's sync set at its first output close in J and streams it in SYNC frames of at most 4,096 bytes, after the vote
interval (R216, R218, R240); J moves on where a task awaits continuation. -/
def State.donate (s : State) (g : Nat) : State :=
  match tget noneD s.tvl.sync.plan g with
  | some j =>
    if s.voting && s.tvl.sync.joiner != 0 && s.firstClose g && decide (j ≤ s.hx.frameStart + s.tg / 2) then
      if s.groupWaits g then
        { s with tvl := { s.tvl with sync := { s.tvl.sync with plan := tput noneD s.tvl.sync.plan g (some (s.hx.frameStart + s.mfLen * s.tg)) } } }
      else
        let y := s.syncSet g
        let s : State := { s with tvl := { s.tvl with sync := { s.tvl.sync with plan := tput noneD s.tvl.sync.plan g none } } }
        (pieces 4096 (Config.syncBytes y)).foldl (fun (s : State) l => s.tlSeq 5 g false l) s
    else s
  | none => s

/-- The joiner takes over a group's sync data at its own output close and starts the group; the last one brings PROBATION (R239, R240). -/
def State.join (s : State) (g : Nat) : State :=
  let y := s.tvl.sync
  if s.mstate = 2 ∧ y.ready.contains g ∧ !y.started.contains g then
    let s := (tget nilD y.items g).foldl (fun (s : State) i => s.putSync g i) s
    let y := { y with started := g :: y.started }
    let s : State := { s with tvl := { s.tvl with sync := y } }
    if (List.range s.hx.sched.groups.length).all fun h => y.started.contains h then
      { (s.set F.TVL_STAT_MSTATE 3) with tvl := { s.tvl with sync := { y with since := s.clk.t, probEnd := none } } }
    else s
  else s

/-- A mask of output groups. -/
def maskOf (l : List Nat) : Nat := l.foldl (fun m k => m ||| 2 ^ k) 0

/-- The OUT frame with its lease block (R217, R225, R229, R230). -/
def State.sendOut (s : State) (g : Nat) : State :=
  let ks := s.ogroups g
  let oi := s.outInstAt g
  let alone := s.triplex && s.members == [s.pos]
  let req := if s.voting && !alone then ks.filter fun k => s.holds k && (s.lease k).mine.isSome else []
  let sign := if s.voting then ks.filter fun k => (s.lease k).sign else []
  let hand := ks.filter fun k => match (s.lease k).hand with | some h => h.frm == s.pos && h.tm.isSome | none => false
  let s := req.foldl (fun (s : State) k => s.setLease k { s.lease k with reqNow := some (oi + s.tL k) }) s
  let s := sign.foldl (fun (s : State) k => s.setLease k { s.lease k with sign := false }) s
  s.tlGroupFrame 3 g (!s.voting || (s.grp g).marking != 0)
    (leBytes 2 (maskOf req) ++ leBytes 2 (maskOf sign) ++ leBytes 2 (maskOf hand) ++ [0, 0] ++ s.offer8 g)

/-- OUT_LATCH (R22 step 5): the committed contributions with the output forces are offered to the vote. A group that a joiner starts here takes part
from its next task cycle on (R240). -/
def outLatch (g : Nat) (s : State) : State :=
  match s.group? g with
  | none => s
  | some d =>
    let x := s.grp g
    if !s.cycling || !x.on || x.closed then s
    else
      let s := s.advance (s.outCloseAt g)
      let s := ((s.zeroRegions g).doWrites g).applyForces 2 g
      let own := ofImage (tgetList byteD s.cyc.committed (commitKey g 0) d.outBytes)
      let off := (s.forcesOn 2 g).foldl (fun (img : Tbl Byte) f => f.over img) own
      let s := s.setGrp g { s.grp g with offered := off, closed := true }
      let s := s.snapshots g
      let s := if !s.simplex && s.inRun && s.joined g then s.sendOut g else s
      (s.donate g).join g

/-! ### The vote and the output instant (R22 steps 6 and 7, R28) -/

/-- VOTE_COMPLETE (R225 to R230): at F + OUT_CLOSE + t_V, by a module that takes part or compares. -/
def voteComplete (g seen : Nat) (s : State) : State :=
  let x := s.grp g
  if s.cycling && x.on && x.closed && !x.voteDone && s.inRun && (s.simplex || s.joined g) then s.voteCompletes g seen else s

/-- In simplex every enabled group is held from its first output instant in the Run state on, without expiry (R229). -/
def State.holdAll (s : State) (g : Nat) : State :=
  if !s.simplex then s else
  (s.ogroups g).foldl (fun (s : State) k =>
    if s.holds k then s else
    let s := s.setLease k { s.lease k with forever := true }
    let s := ((s.set { F.TVL_STAT_HELD with lo := k, w := 1 } 1).set (F.TVL_LSTAT_HOLDER k) s.pos).set (F.TVL_LSTAT_RELEASED k) 0
    (s.set (F.TVL_LSTAT_GUARDIAN k) 1).raise 214) s

/-- OUT_GO (R22 step 7, R28): the outputs of the groups held are driven and released; what falls due for their leases at this very instant comes
first (R230, R237). -/
def outGo (g : Nat) (s : State) : State :=
  match s.group? g with
  | none => s
  | some _ =>
    let x := s.grp g
    if !s.cycling || !x.on || !x.voteDone || !s.inRun then s
    else
      let s := s.advance (s.outInstAt g)
      let s := (s.ogroups g).foldl (fun (s : State) k => s.leaseDue s.clk.t k) s.tlFlush
      let s := (s.holdAll g).ixBound g
      let s := s.doOutGo g fun k => s.holds k
      ((s.ghRelease g).ethRelease g).canRelease g

/-! ### Presence (R199, R292, R335, R366, R391, R404) -/

/-- The counting instant of a source in the running Gheif cycle; none where the cycle's mode places its ID nowhere. -/
def State.countAt (s : State) (kind id : Nat) : Option Nat :=
  if kind = 1 then
    match s.clu with
    | some c =>
      let at_ (p : Nat) : Bool := [0, 1].any fun ch => c.at_ (s.get F.GHC_STAT_MODE) ch p == id
      ((List.range (c.nStatic + 1)).filter fun p => p != 0 && at_ p).getLast?.map fun p => s.mtAt (c.posAt p + c.slot)
    | none => none
  else some (s.cyc.start + s.cycleLen)

/-- MISS_LIMIT and REJOIN of a source (R197, R292). -/
def State.limits (s : State) (kind id : Nat) : Nat × Nat :=
  match s.cfg.sigs.find? fun e => e.kind == kind && e.srcId == id with
  | some e => (e.missLimit, e.rejoin)
  | none => (3, 2)

/-- Presence is kept for the source: a static ID with RXBUF, or a source named by an entry of another kind that keeps one. -/
def State.keepsPresence (s : State) (kind id : Nat) : Bool :=
  match kind with
  | 1 => match s.clu with
    | some c => (match c.desc id with | some d => d.rxbuf != 0 && decide (id < c.dynFirst) | none => false)
    | none => false
  | 2 | 3 | 4 | 5 => s.mapped kind id
  | _ => false

/-- Presence, miss count and rejoin count of a source: state 0 NOT_SEEN, 1 PRESENT, 2 ABSENT. -/
def State.presence (s : State) (kind id : Nat) : Nat × Nat × Nat :=
  match presOff kind id with
  | some o => (s.get (presF o), s.get (missF o), s.get (rejoinF o))
  | none =>
    let c := s.source (srcKey kind id)
    (if c.absent then 2 else 1, c.miss, c.rejoin)

def State.setPresence (s : State) (kind id st miss rejoin : Nat) : State :=
  let k := srcKey kind id
  let s := match presOff kind id with
    | some o => ((s.set (presF o) st).set (missF o) miss).set (rejoinF o) rejoin
    | none => s.setSource k { s.source k with miss := miss, rejoin := rejoin }
  s.setSource k { s.source k with absent := st == 2, fresh := false }

/-- A source becomes ABSENT or present again: entry, and source 232 or 233 (Gheif), 272 or 273 (process data). -/
def State.stationEvent (s : State) (kind id : Nat) (back : Bool) : State :=
  let s := s.report (if back then .STATION_RETURN else .STATION_ABSENT) (kindRec kind id) [kind, id]
  match kind with
  | 1 => s.raise (if back then 233 else 232)
  | 2 => s.raise (if back then 273 else 272)
  | _ => s

/-- The rows of R292 at a counting instant. -/
def State.presCount (s : State) (kind id : Nat) (new : Bool) : State :=
  let (st, miss, rejoin) := s.presence kind id
  let lim := s.limits kind id
  if new then
    if st = 2 then
      if lim.2 ≤ rejoin + 1 then
        (s.setPresence kind id 1 0 0).stationEvent kind id true
      else s.setPresence kind id 2 miss (rejoin + 1)
    else s.setPresence kind id st 0 rejoin
  else
    let miss := min 65535 (miss + 1)
    if st = 2 then s.setPresence kind id 2 miss 0
    else if lim.1 ≤ miss then ((s.holdSource kind id).setPresence kind id 2 miss 0).stationEvent kind id false
    else s.setPresence kind id st miss rejoin

/-- PRESENCE_COUNT (R292, R199). -/
def presenceCount (kind src : Nat) (s : State) : State :=
  match s.countAt kind src with
  | some t =>
    if s.cycling && s.keepsPresence kind src then
      let s := s.advance t
      if kind = 1 then
        let new := s.gh.fresh.contains src
        (s.modGh fun h => { h with fresh := h.fresh.filter fun i => i != src }).presCount kind src new
      else s.presCount kind src (s.source (srcKey kind src)).fresh
    else s
  | none => s

/-! ### The commands -/

/-- GHEIF_CYCLE_START. -/
def execGheifCycleStart (s : State) : Host.Outcome State Fault Refusal := .next (gheifCycleStart s)
/-- FREEZE. -/
def execFreeze (g : Fin 4) (s : State) : Host.Outcome State Fault Refusal := .next (freeze g s)
/-- AGR_PUB. -/
def execAgrPub (g : Fin 4) (s : State) : Host.Outcome State Fault Refusal := .next (agrPub g s)
/-- OUT_LATCH. -/
def execOutLatch (g : Fin 4) (s : State) : Host.Outcome State Fault Refusal := .next (outLatch g s)
/-- OUT_GO. -/
def execOutGo (g : Fin 4) (s : State) : Host.Outcome State Fault Refusal := .next (outGo g s)
/-- PRESENCE_COUNT. -/
def execPresenceCount (kind : Fin 8) (src : Nat) (s : State) : Host.Outcome State Fault Refusal :=
  .next (presenceCount kind src s)
/-- VOTE_COMPLETE. -/
def execVoteComplete (v : VoteRound) (s : State) : Host.Outcome State Fault Refusal := .next (voteComplete v.g v.seen.toNat s)

end Sys2Proof.Machine
end

