-- ==== Sys2Proof/Machine/View.lean ====
section
/-!
DEFINITION. Registers as they read: most hold what was stored; those that show state kept elsewhere are computed here (R13). Also
the firmware's code catalogue (R473) and the settings of REC_CONFIG (R479, R480) as the recorder looks them up.
-/
namespace Sys2Proof.Machine

/-! ### The code catalogue (R473) and the settings -/

/-- The catalogue entry of a code by its name. -/
def State.catOf (s : State) (c : RCode) : Option CatEntry := s.sup.catalogue.find? fun e => e.name == c

/-- The catalogue entry of a code number; the application marks share the last entry (R472, R484). -/
def State.catNum (s : State) (n : Nat) : Option CatEntry :=
  if 0x300 ≤ n ∧ n < 0x380 then (s.catOf .APPLICATION_MARK).map fun e => { e with num := n }
  else s.sup.catalogue.find? fun e => e.num == n && e.name != .APPLICATION_MARK

/-- The REC_CONFIG settings of a code number. -/
def State.recSetting (s : State) (n : Nat) : RecSetting := tget settingD s.rcd.settings n

/-- BURST and PERIOD_MS of a code in force (R476). -/
def State.rateOf (s : State) (e : CatEntry) : Nat × Nat := ((s.recSetting e.num).rate).getD (e.burst, e.periodMs)

/-- Registers whose values make up the snapshot of a code (R478). -/
def State.snapOf (s : State) (e : CatEntry) : List Nat := ((s.recSetting e.num).snap).getD e.snap

/-- The token bucket of a code; not listed: full. -/
def State.bucket (s : State) (e : CatEntry) : Bucket :=
  match tget noneD s.rcd.buckets e.num with
  | some b => b
  | none => ⟨(s.rateOf e).1, none, none, 0, 0⟩
def State.setBucket (s : State) (n : Nat) (b : Bucket) : State :=
  { s with rcd := { s.rcd with buckets := tput noneD s.rcd.buckets n (some b) } }

/-! ### Registers computed on reading -/

/-- Whole microseconds, up to a bound. -/
def usOf (max ut : Nat) : Nat := min max (ut / usUt)

/-- The time of an instant that is still to come, in microticks. -/
def State.until_ (s : State) (t : Option Nat) : Nat := match t with | some e => e - s.clk.t | none => 0

/-- HX_UNIT_u.STATE: 0 parked, 1 window open, 2 slack, 3 gated, 4 PLL stopped, 5 halted, 6 self-test, 7 stopped by Dusk. -/
def State.unitState (s : State) (u : Nat) : Nat :=
  let x := s.unit u
  let clk := if u < 4 then s.get (F.PWR_PAIRCLK_STATE u) else 0
  let testing := if u < 4 then (s.pair u).testing.isSome else (s.eng (u - 4)).testing.isSome
  if s.sup.st == .dusk || (s.sup.st == .service && s.sup.fromDusk) then 7
  else if decide (u < 4) && (s.pair u).halted then 5
  else if testing then 6
  else if x.win.isSome && x.opened && !x.ended then 1
  else if x.slack.isSome then 2
  else if clk = 1 then 3
  else if 2 ≤ clk then 4
  else 0

/-- HX_UNIT_u. -/
def State.unitView (s : State) (u : Nat) : Word :=
  let x := s.unit u
  let held := if u < 4 then (s.pair u).heldBank else none
  let task := match x.slack with | some c => c.1 | none => if x.win.isSome && x.opened && !x.ended then x.task else 0
  let r := fieldSet 0 29 3 (s.unitState u)
  let r := match held with | some b => fieldSet (fieldSet r 27 2 b) 26 1 1 | none => r
  fieldSet (fieldSet r 12 10 task) 0 12 x.lastWin

/-- HX_TASKSTAT word 3: continuations and state of the task's activation. -/
def State.taskView (s : State) (t : Nat) : Word :=
  let c := s.task t
  let stopped := match s.taskD? t with | some d => s.partStopped d.part | none => false
  let st := if stopped then 4 else match c.st with | .idle => 0 | .running => 1 | .paused => 2 | .awaiting => 3
  fieldSet (fieldSet 0 4 2 c.cont) 0 3 st

/-- LE_STAT: depths, and the state that the Dusk state gives. -/
def State.leView (s : State) (e : Nat) : Word :=
  let g := s.eng e
  let r := fieldSet (fieldSet (s.reg (0x40000 + e * 0x8000)) 8 4 g.cs.length) 3 5 g.bs.length
  if s.sup.st == .dusk || (s.sup.st == .service && s.sup.fromDusk) then fieldSet r 29 3 3 else r

/-- TVL_LSTAT_k.REMAIN in whole microseconds to the recorded expiry (R229). -/
def State.leaseRemain (s : State) (k : Nat) : Nat :=
  if (s.lease k).forever then 0xFFFFF else usOf 0xFFFFE (s.until_ (s.lease k).expiry)

/-- GRD_LREM_k.REMAIN: the guardian's copy at its nominal clock, scaled by 1 + 100 ppm (R233). -/
def State.guardRemain (s : State) (k : Nat) : Nat :=
  if !(s.flag (F.TVL_LSTAT_GUARDIAN k)) then 0
  else if (s.lease k).forever then 0xFFFFF else usOf 0xFFFFE (s.until_ (s.lease k).mine * 10001 / 10000)

/-- GRD_STAT.LEASE: the guardian's valid copies. -/
def State.guardMask (s : State) : Nat := maskOf ((List.range 16).filter fun k => s.flag (F.TVL_LSTAT_GUARDIAN k))

/-- GRD_STAT: the module fault latch, the live driver enables and the valid lease copies (R279, R277, R233). -/
def State.grdView (s : State) (r : Word) : Word :=
  fieldSet (fieldSet (fieldSet r 30 1 (b2n s.sup.faultLatch)) 28 2 (b2n (s.guardOpen 0).isSome + 2 * b2n (s.guardOpen 1).isSome)) 0 16 s.guardMask

/-- REC_STAT: off in Night and Midnight, restoring until the ring is restored, the supply-fail burst, running. -/
def State.recState (s : State) : Nat :=
  match s.sup.st with
  | .night | .midnight => 3
  | _ => if s.pwr.warned then 2 else s.get F.REC_STAT_STATE

/-- REC_CODESTAT_c. -/
def State.codeView (s : State) (c : Nat) : Word :=
  match s.catNum c with
  | some e =>
    let b := s.bucket e
    fieldSet (fieldSet (fieldSet 0 31 1 (b2n b.kept.isSome)) 16 8 b.tokens) 0 16 (min b.pending 0xFFFF)
  | none => 0

/-- A register as it reads at an offset from 0x00_4000_0000. PWR_STAT.V_INTAKE is measured, so it reads as a free value. -/
def State.readReg (s : State) (off : Nat) : Word :=
  let r := s.reg off
  let w (n : Nat) : Word := BitVec.ofNat 32 n
  match off / 0x10000 with
  | 0 => if off = 0 then w (sysId s.ident) else if off = 0x10 then w (cap0 s.ident.variant) else if off = 0x14 then w (cap1 s.ident) else r
  | 1 =>
    if 0x10100 ≤ off ∧ off < 0x10180 ∧ off % 0x20 = 4 then w (s.actView ((off - 0x10104) / 0x20))
    else if 0x10800 ≤ off ∧ off < 0x10840 then w (s.srcBitmap (F.VDX_SRCSTAT_PENDING 0).lo ((off - 0x10800) / 4))
    else if 0x10840 ≤ off ∧ off < 0x10880 then w (s.srcBitmap (F.VDX_SRCSTAT_ACTIVE 0).lo ((off - 0x10840) / 4))
    else r
  | 2 =>
    if off = 0x20000 then fieldSet (fieldSet (fieldSet r 2 1 (b2n s.dispatching)) 3 1 s.prog.set) 8 1 (b2n s.hx.switchPend.isSome)
    else if 0x20100 ≤ off ∧ off < 0x20160 ∧ off % 0x10 = 0 then s.unitView ((off - 0x20100) / 0x10)
    else if 0x21000 ≤ off ∧ off < 0x25000 ∧ off % 0x10 = 0xC then s.taskView ((off - 0x21000) / 0x10)
    else r
  | 4 => if (off - 0x40000) % 0x8000 = 0 then s.leView ((off - 0x40000) / 0x8000) else r
  | 5 => if 0x50100 ≤ off ∧ off < 0x50200 ∧ off % 0x10 = 8 then fieldSet r 0 20 (s.leaseRemain ((off - 0x50100) / 0x10)) else r
  | 6 =>
    if 0x60200 ≤ off ∧ off < 0x60310 then w (fieldLe s.gh.bufdata (off - 0x60200) 4)
    else if off = 0x60400 then s.grdView r
    else if 0x60440 ≤ off ∧ off < 0x60480 then fieldSet r 0 20 (s.guardRemain ((off - 0x60440) / 4))
    else r
  | 7 => if off = 0x70018 then w (sat32 (s.tmbPending.tdiv 65536000)) else r
  | 11 => if off = 0xB0000 then fieldSet r 26 1 (b2n s.semLive) else r
  | 14 =>
    if off = 0xE0000 then fieldSet (fieldSet r 29 3 s.recState) 16 7 s.rcd.intake.length
    else if off = 0xE0008 then w s.rcd.nextSeq
    else if off = 0xE000C then w (if s.rcd.empty then 0 else if s.rcd.nextSeq < 65536 then 0 else s.rcd.nextSeq - 65536)
    else if 0xE1000 ≤ off ∧ off < 0xE2000 then s.codeView ((off - 0xE1000) / 4)
    else r
  | 15 =>
    if off = 0xF0000 then fieldSet r 0 16 (Config.freeValue s.freeCtr).toNat
    else if off = 0xF0020 then w s.optime else if off = 0xF0024 then w s.pwr.opHiLatch
    else if off = 0xF0028 then w s.pwr.pcc
    else if off = 0xF002C then fieldSet r 31 1 (b2n s.pwr.nightValid)
    else r
  | _ => r

end Sys2Proof.Machine
end

