-- ==== Sys2Proof/Machine/Rec.lean ====
section
/-!
DEFINITION. The event recorder (chapter 19): judging reports, token buckets, snapshots, the intake queue, the ring and its restore.
-/
namespace Sys2Proof.Machine

/-! ### The order of events (R36, R474) -/

/-- The key of a queue's pointer error: a general queue's (R159), else that of the CAN controller whose RXQ it is (R378). -/
def perrKey (b : Nat) : Nat := if b < 0xA0000 then 65 + 2 * ((b - 0x38000) / 0x100) else canSrc ((b - 0xA0000) / 0x1000) 6

/-- The ordering key of a report (R36): the dispatcher source raised with it, else 0x200 and its SOURCE byte. A guardian's blocking and its
cutting share one code; both are ordered by the source of the blocking. -/
def evKey (r : Report) : Nat :=
  let w0 := (r.words.headD 0).toNat
  match r.code with
  | .OVERRUN => 32
  | .TASK_ABANDON => 33
  | .TASK_ABORT => 34
  | .PART_STOPPED => 35
  | .WAKE_LATE => 36
  | .MMODE_OVERRUN => 37
  | .PRELOAD_LATE => 38
  | .BANK_RECLAIM => 39
  | .CMP_TEST_OVERDUE => 41
  | .CONTEXT_LOST => 42
  | .DEADLINE_STAGE_FAIL => 43
  | .STAGE_MISS => 48
  | .WSET_VIOLATION => 49
  | .PAGEOP_REFUSED => 50
  | .QUEUE_PTR_ERR => perrKey w0
  | .LE_TRAP => 192 + 8 * (r.src % 16)
  | .PEER_DISSENT => 210
  | .SELF_DISSENT => 211
  | .NOMAJ => 212
  | .LEASE_LOST => 215
  | .MEMBER_CHANGE => 217
  | .SYNC_FAIL => 221
  | .TL_VIOLATION => 222
  | .GHEIF_SYNC_LOST => 224
  | .GHEIF_CS_ABORT => 227
  | .GHEIF_CS_EXHAUSTED => 228
  | .MODE_CHANGE => 229
  | .MODE_CHANGE_FAIL => 230
  | .MODE_FOLLOW => 231
  | .STATION_ABSENT => if w0 = 1 then 232 else if w0 = 2 then 272 else 0x200 + r.src
  | .STATION_RETURN => if w0 = 1 then 233 else if w0 = 2 then 273 else 0x200 + r.src
  | .GHEIF_RX_VIOLATION => 234 + w0 % 2
  | .GHEIF_LENGTH => 236
  | .GHEIF_CHANNEL_DIFF => 237
  | .GHEIF_GUARD => 239
  | .TIME_STEP => 256
  | .SOURCE_CHANGE => 257
  | .LAUNCH_DISCARD => 261
  | .OFFSET_ALARM => 262
  | .PD_REJECT => 270
  | .IXS_FAILSAFE => 296
  | .IXS_VALID => 297
  | .CAN_BUSOFF => canSrc (r.src % 16) 4
  | .CAN_BUSOFF_END => canSrc (r.src % 16) 5
  | .CAN_OVERSIZE => canSrc (r.src % 16) 6
  | .LRB_TIMEOUT => 360
  | .LRB_BERR => 361
  | .PREFETCH_DISCARD => 362
  | .SIO_DI_FAULT => 376 + w0 % 16
  | .SIO_DO_FAULT => 392 + w0 % 8
  | .SIO_FS_OPEN => 403
  | .SIO_Y_LOST => 404
  | .SIO_FS_BUDGET => 405
  | .STATE_CHANGE => 413
  | .CMD_ACCEPTED => 414
  | .SUPPLY_DIP => 425
  | .SUPPLY_FAIL => 426
  | .BUDGET_EXCEED => 427
  | .CLOCK_FAULT => 430
  | .MEM_UNCORR => 433
  | .HARD_SYMBOL => 434
  | .SCRUB_LAG => 435
  | _ => 0x200 + r.src

/-- The report judged next: the earliest stamp, then the lower key (R36, R476). -/
def nextReport : List Report → Option Report
  | [] => none
  | r :: l =>
    match nextReport l with
    | none => some r
    | some m => if m.stamp < r.stamp ∨ (m.stamp = r.stamp ∧ evKey m < evKey r) then some m else some r

/-! ### The intake queue (R474) -/

/-- The recorder writes: in every state but Night, Midnight and the Dawn sequence before the restore (R481, R482). -/
def State.recRuns (s : State) : Bool := match s.sup.st with | .night | .midnight | .dawn => false | _ => true

/-- A code may take a place: eight of the 64 are reserved for ALWAYS codes. -/
def State.recRoom (s : State) (always : Bool) : Bool := decide (s.rcd.intake.length < (if always then 64 else 56))

/-- A record is placed, or the event is dropped. -/
def State.recPlace (s : State) (always : Bool) (x : RecItem) : State :=
  if s.recRoom always then
    let s : State := { s with rcd := { s.rcd with intake := s.rcd.intake ++ [x] } }
    let s := if s.rcd.intake.length = 48 then s.raise 416 else s
    if s.recRuns && !s.pwr.warned then s.request 4 0 3 else s
  else
    ({ s with rcd := { s.rcd with droppedSince := s.rcd.droppedSince + 1, newestDropped := x.code } }.inc F.REC_CNT_DROPPED).raise 417

/-- The snapshot of a code (R478): the words its chapter names, or the registers that REC_CONFIG set; and whether one could not be read. -/
def State.takeSnap (s : State) (e : CatEntry) (words : List Word) : List Word × Bool :=
  let offs := s.snapOf e
  if e.fixedSnap || offs.isEmpty then ((words ++ List.replicate 8 0).take 8, false)
  else (((offs.map fun o => if s.offFitted o then s.readReg o else 0) ++ List.replicate 8 0).take 8, offs.any fun o => !s.offFitted o)

/-- The record of an event as the recorder accepts it (R468 to R471). -/
def State.recItem (s : State) (e : CatEntry) (src stamp : Nat) (tset : Bool) (frc : Nat) (words : List Word) : RecItem :=
  let snap := s.takeSnap e words
  { code := e.num, sev := e.sev, src := src, tunset := !tset, part := snap.2, late := decide (frc + 8000 < s.frc), kept := false
    pcc := (s.pwr.pcc + b2n (s.sup.st == .dawn)) % 2 ^ 32, optime := s.optime, stamp := stamp, snap := snap.1, suppr := 0, reply := none }

/-! ### Token buckets (R476, R477) -/

/-- FRC at which the next token comes, `ms` after a count. -/
def refillAt (frc ms : Nat) : Nat := frc + ms * 800000

/-- A token is taken from a bucket; its timer starts where it was full. -/
def State.takeToken (s : State) (e : CatEntry) : State :=
  let b := s.bucket e
  let r := s.rateOf e
  if r.2 = 0 then s
  else s.setBucket e.num { b with tokens := b.tokens - 1, refill := if b.refill.isNone then some (refillAt s.frc r.2) else b.refill }

/-- The code of an event holds a token, or has no limit. -/
def State.hasToken (s : State) (e : CatEntry) : Bool := (s.rateOf e).2 == 0 || decide (0 < (s.bucket e).tokens)

/-- A record that is written takes the events suppressed before it. -/
def State.takeSuppr (s : State) (e : CatEntry) (always : Bool) (x : RecItem) : State :=
  let b := s.bucket e
  let s := if s.recRoom always && b.pending != 0 then s.setBucket e.num { b with pending := 0 } else s
  s.recPlace always { x with suppr := min b.pending 65535 }

/-- An event without a token is suppressed and becomes the kept one. -/
def State.suppress (s : State) (e : CatEntry) (x : RecItem) : State :=
  let b := s.bucket e
  let s := s.inc F.REC_CNT_SUPPRESSED
  let s := if b.pending = 0 then s.raise 418 else s
  s.setBucket e.num { b with kept := some x, before := b.pending, pending := b.pending + 1 }

/-- The kept event of a code is placed with KEPT set; `b` is the bucket once its token is spent. -/
def State.placeKept (s : State) (e : CatEntry) (b : Bucket) : State :=
  match b.kept with
  | some x => (s.setBucket e.num { b with kept := none, before := 0, pending := 0 }).recPlace e.always { x with kept := true, suppr := min b.before 65535 }
  | none => s.setBucket e.num b

/-- An event is judged (R474). -/
def State.judgeReport (s : State) (e : CatEntry) (x : RecItem) : State :=
  if s.hasToken e then (s.takeToken e).takeSuppr e e.always x else s.suppress e x

/-- RECORD_EVENT (R474): the next report is judged, its snapshot taken, and its record placed. -/
def recordEvent (s : State) : State :=
  match nextReport s.rcd.reported with
  | some r =>
    let s : State := { s with rcd := { s.rcd with reported := s.rcd.reported.erase r } }
    (match s.sup.st with
     | .night | .midnight => s
     | _ => match s.catOf r.code with
       | some e => s.judgeReport e (s.recItem e r.src r.stamp r.tset r.frc r.words)
       | none => s)
  | none => s

/-- Every report waiting is judged. -/
def State.judgeAll (s : State) : Nat → State
  | 0 => s
  | n + 1 => if s.rcd.reported.isEmpty then s else State.judgeAll (recordEvent s) n

/-- TOKEN_REFILL (R476, R477, R486): the bucket's next token comes and is spent on a kept event. -/
def tokenRefill (c : Nat) (s : State) : State :=
  match s.catNum c with
  | some e =>
    let b := s.bucket e
    (match b.refill with
     | some f =>
       let s := s.advance (s.clk.frcBase + f)
       let r := s.rateOf e
       let b := if b.kept.isSome then b else { b with tokens := b.tokens + 1 }
       let b := { b with refill := if b.tokens < r.1 then some (refillAt f r.2) else none }
       s.placeKept e b
     | none => s)
  | none => s

/-! ### The ring (R467, R468, R475) -/

def ringBase : Nat := 0x20800000
def slotAddr (seq : Nat) : Nat := ringBase + seq % 65536 * 64

/-- The 64 bytes of a record. -/
def recBytes (x : RecItem) (seq : Nat) (burst : Bool) : List Byte :=
  let flags := x.sev % 4 * 64 + 32 * b2n burst + 16 * b2n x.tunset + 4 * b2n x.part + 2 * b2n x.late + b2n x.kept
  let b := leBytes 2 x.code ++ [BitVec.ofNat 8 flags, BitVec.ofNat 8 x.src] ++ leBytes 4 x.pcc ++ leBytes 6 x.optime ++ leBytes 8 x.stamp
    ++ leBytes 4 seq ++ (((x.snap ++ List.replicate 8 0).take 8).flatMap fun (w : Word) => leBytes 4 w.toNat) ++ leBytes 2 x.suppr
  b ++ leBytes 4 (crc32c b)

/-- One record is written as the next of the ring; a REC_MARK has its reply (R484). -/
def State.writeRec (s : State) (x : RecItem) (burst : Bool) : State :=
  let n := s.rcd.nextSeq
  let s : State := { (s.unpoison (slotAddr n) 64).wrBytes (slotAddr n) (recBytes x n burst) with rcd := { s.rcd with nextSeq := (n + 1) % 2 ^ 32, empty := false } }
  let s := if 2 ≤ x.sev then s.raise 419 else s
  match x.reply with
  | some m =>
    let k : Packet := ⟨0x29, 1 + (if m.counter.isSome then 4 else 0), m.seq, originSrc m.origin, 0, leBytes 4 n, m.counter⟩
    (s.setLast (originKey m.origin) ⟨m.seq, m.trailer, k⟩).deliver m.origin k
  | none => s

/-- The RECORDER_OVERFLOW record that goes before any further one (R474). -/
def State.overflowRec (s : State) (burst : Bool) : State :=
  match s.catOf .RECORDER_OVERFLOW with
  | some e =>
    if s.rcd.droppedSince = 0 then s else
    let x := s.recItem e srcRec s.stamp (s.flag F.TMB_STAT_TSET) s.frc [BitVec.ofNat 32 s.rcd.droppedSince, BitVec.ofNat 32 s.rcd.newestDropped]
    ({ s with rcd := { s.rcd with droppedSince := 0, newestDropped := 0 } }).writeRec x burst
  | none => s

/-- The first `n` records of the intake queue are written in arrival order. -/
def State.writeIntake (s : State) (burst : Bool) (n : Nat) : State :=
  if s.rcd.intake.isEmpty then s else
  let l := s.rcd.intake.take n
  let s : State := { s with rcd := { s.rcd with intake := s.rcd.intake.drop n } }
  l.foldl (fun (s : State) x => s.writeRec x burst) (s.overflowRec burst)

/-- The whole intake queue is written (R475, R482). -/
def State.flushIntake (s : State) (burst : Bool) : State := s.writeIntake burst s.rcd.intake.length

/-- REC_RING_WRITE (R475): a granted burst of up to 64 lines; after the supply-fail warning no grant is needed. -/
def recRingWrite (s : State) : State :=
  if !s.recRuns then s
  else if s.pwr.warned then s.flushIntake true
  else if s.pwr.granted.any (fun r => r.rank == 4 && r.unit == 0) then
    let s := (s.burstEnd 0).writeIntake false (if s.rcd.droppedSince = 0 then 64 else 63)
    if s.rcd.intake.isEmpty then s else s.request 4 0 3
  else s

/-- REC_CNT_CLR. -/
def recCntClr (s : State) : State := (s.set F.REC_CNT_SUPPRESSED 0).set F.REC_CNT_DROPPED 0

/-! ### The restore (R481) -/

/-- The slots that hold anything. -/
def State.ringSlots (s : State) : List Nat :=
  ((s.mem.filter fun c => decide (ringBase ≤ c.1 ∧ c.1 < ringBase + 65536 * 64)).map fun c => (c.1 - ringBase) / 64).eraseDups

/-- The sequence number in a slot, if the slot is valid (R468). -/
def State.slotSeq (s : State) (i : Nat) : Option Nat :=
  let b := s.rdBytes (slotAddr i) 64
  let q := fieldLe b 0x16 4
  if q % 65536 = i ∧ fieldLe b 0x3C 4 = crc32c (b.take 60) ∧ !(s.poisoned (slotAddr i)) then some q else none

/-- The newest of two sequence numbers modulo 2^32. -/
def newerSeq (a b : Nat) : Nat := if (b + 2 ^ 32 - a) % 2 ^ 32 < 2 ^ 31 then b else a

/-- The ring is restored: next sequence number, newest record before, and invalid slots found. -/
def State.restoreRing (s : State) : State × Option Nat × Nat :=
  let valid := s.ringSlots.filterMap fun i => (s.slotSeq i).map fun q => (i, q)
  match valid with
  | [] =>
    let s : State := { s with rcd := { s.rcd with nextSeq := 0, empty := true } }
    ((s.set F.REC_CNT_INVALID 255).raise 420, none, 65536)
  | c :: l =>
    let newest := l.foldl (fun a d => newerSeq a d.2) c.2
    let total := min (newest + 1) 65536
    let bad := total - (valid.filter fun d => decide (65535 ≤ newest ∨ d.1 ≤ newest)).length
    let s : State := { s with rcd := { s.rcd with nextSeq := (newest + 1) % 2 ^ 32, empty := false } }
    let s := s.set F.REC_CNT_INVALID (min bad 255)
    (if bad = 0 then s else s.raise 420, some newest, bad)

/-- The recorder's restore in the Dawn sequence (R481): POWER_ON goes ahead of the events that wait. -/
def State.recRestore (s : State) : State :=
  let (s, newest, bad) := s.restoreRing
  let s := s.set F.REC_STAT_STATE 1
  match s.catOf .POWER_ON with
  | some e =>
    let words := [newest.getD 0xFFFFFFFF, bad, s.sup.startCause, b2n (s.flag F.TMB_STAT_TSET),
      if s.sup.startCause = 3 then s.sup.wakeBit else 0xFFFFFFFF].map (BitVec.ofNat 32)
    let x := { s.recItem e srcRec s.stamp (s.flag F.TMB_STAT_TSET) s.frc words with pcc := s.pwr.pcc }
    { s with rcd := { s.rcd with intake := x :: s.rcd.intake } }
  | none => s

/-! ### The commands -/

/-- RECORD_EVENT. -/
def execRecordEvent (s : State) : Host.Outcome State Fault Refusal := .next (recordEvent s)
/-- REC_RING_WRITE. -/
def execRecRingWrite (s : State) : Host.Outcome State Fault Refusal := .next (recRingWrite s)
/-- TOKEN_REFILL. -/
def execTokenRefill (c : Fin 1024) (s : State) : Host.Outcome State Fault Refusal := .next (tokenRefill c s)
/-- REC_CNT_CLR. -/
def execRecCntClr (s : State) : Host.Outcome State Fault Refusal := .next (recCntClr s)

end Sys2Proof.Machine
end

