-- ==== Sys2Proof/Machine/Start.lean ====
section
/-!
DEFINITION. Program starts (R194 to R196): partitions and engines initialised, retentive blocks restored (R203), and the kind of start.
-/
namespace Sys2Proof.Machine

/-! ### Partitions and engines initialised (R128, R194) -/

/-- A page of the program image behind a user page, or none for zero-fill. -/
def initPage (base init i : Nat) : Option Nat := if init = 0xFFFFFFFF then none else some (base + init + i)

/-- The content of a page: of the image set, or zeros. -/
def State.pageContent (s : State) (dst : Nat) (src : Option Nat) : State :=
  let s := (s.unpoison dst 4096).unreserve 4 dst 4096
  match src with
  | some p => { s with mem := memLoad s.mem dst s.setBytes (p * 4096) 4096 }
  | none => { s with mem := memClear s.mem dst (dst + 4096) }

/-- A page of a HOME 0 or HOME 1 segment with its initial content (R128). -/
def State.setUpPage (s : State) (part up home : Nat) (src : Option Nat) : State :=
  if home = 0 then
    let r := s.takeFrame part
    match r.2.1 with
    | some f => (r.1.pageContent (frameAddr f) src).setPage (pkey part up) { PageSt.absent with exist := true, frame := some f, last := s.clk.t }
    | none => r.1
  else
    let r := s.newHome
    (r.1.pageContent (homeAddr r.2) src).setPage (pkey part up) { PageSt.absent with exist := true, home := some r.2, last := s.clk.t }

/-- Every page of a partition is given back. -/
def State.clearPart (s : State) (part : Nat) : State :=
  ((s.pagesOf part).foldl (fun (s : State) c => s.destroyPage c.1) s).set (F.HXM_PART_DDR_RESERVED part) 0

/-- The segments of a partition take their initial content. -/
def State.initPart (s : State) (part : Nat) : State :=
  let segs := tget nilD s.prog.segs part
  let base := tget natD s.prog.base part
  let s := s.clearPart part
  let s := segs.foldl (fun (s : State) (g : Seg) =>
    if g.home = 0 ∨ g.home = 1 then
      (List.range g.pages).foldl (fun (s : State) i => s.setUpPage part (g.upage + i) g.home (initPage base g.init i)) s
    else s) s
  s.set (F.HXM_PART_DDR_RESERVED part) (segs.foldl (fun n (g : Seg) => if g.home = 1 then n + g.pages else n) 0)

/-- An engine's marker memory takes 0, its timers RUNNING = 0 and Q = 0 with the type and base declared (R194). A marker line stays POISONED until
a cold restart (R189). -/
def State.initEngine (s : State) (e : Nat) (cold : Bool) : State :=
  let m := leAddr e 2 0
  let s := (if cold then s.unpoison m 0x40000 else s).unpoison (leTimerAddr e 0) 0x10000
  let s : State := { s with mem := memClear (memClear s.mem m (m + 0x40000)) (leTimerAddr e 0) (leTimerAddr e 4096) }
  let d := tget nilD (s.eng e).decl (s.get (F.LE_BANK_ACTIVE e))
  d.foldl (fun (s : State) (c : Nat × Nat) => s.wrBytes (leTimerAddr e c.1) (leBytes 4 c.2)) s

/-- The partitions and fitted engines of the configuration: partition numbers, and 256 + engine. -/
def State.owners (s : State) : List Nat :=
  (List.range s.hx.sched.parts.length) ++ (([0, 1].filter fun e => s.engineFitted e).map fun e => 256 + e)

def State.initOwner (s : State) (u : Nat) (cold : Bool) : State := if u < 256 then s.initPart u else s.initEngine (u - 256) cold

/-- A partition holds a POISONED page, an engine's marker memory a POISONED line (R195). -/
def State.ownerPoisoned (s : State) (u : Nat) : Bool :=
  if u < 256 then (s.pagesOf u).any fun c => s.pageBad u (c.1 % 2 ^ 20)
  else s.poison.any fun l => decide (leAddr (u - 256) 2 0 ≤ l * 64 ∧ l * 64 < leAddr (u - 256) 2 0 + 0x40000)

/-! ### Retentive blocks (R203) -/

/-- A copy in eMRAM: a header line that holds IDENT, LEN, the sequence number and the program identity, in this order, and ends with CRC-32C over
the rest of it and the data; then the data (R203; the places of the first four, DESIGN CHOICE, log 22). -/
def retImage (ident seq prog : Nat) (data : List Byte) : List Byte :=
  let h := leBytes 4 ident ++ leBytes 4 data.length ++ leBytes 4 seq ++ leBytes 4 prog ++ List.replicate 44 0
  h ++ leBytes 4 (crc32c (h ++ data)) ++ data

/-- The fields of the copy at an address. -/
def State.copyIdent (s : State) (a : Nat) : Nat := s.rdLe a 4
def State.copyLen (s : State) (a : Nat) : Nat := s.rdLe (a + 4) 4
def State.copySeq (s : State) (a : Nat) : Nat := s.rdLe (a + 8) 4
def State.copyData (s : State) (a : Nat) : List Byte := s.rdBytes (a + 64) (s.copyLen a)

/-- A copy is sound: no line of it is uncorrectable and its CRC matches. -/
def State.copySound (s : State) (a : Nat) : Bool :=
  !((List.range (1 + (s.copyLen a + 63) / 64)).any fun i => s.poisoned (a + 64 * i)) && s.rdLe (a + 60) 4 == crc32c (s.rdBytes a 60 ++ s.copyData a)

/-- The later of two sequence numbers of 32 bits. -/
def seqAfter (a b : Nat) : Bool := decide ((b + 2 ^ 32 - a) % 2 ^ 32 < 2 ^ 31)
def State.newerCopy (s : State) (a b : Nat) : Nat := if seqAfter (s.copySeq a) (s.copySeq b) then b else a

/-- The copy a block is restored from: of those whose CRC, IDENT and LEN match, the one with the higher sequence number. -/
def State.validCopy (s : State) (b : RetBlock) : Option Nat :=
  match s.cyc.copies.filter fun a => s.copyIdent a == b.ident && s.copyLen a == b.len && s.copySound a with
  | [] => none
  | c :: l => some (l.foldl s.newerCopy c)

/-- A block is restored, or initialised and recorded as lost. -/
def State.restoreBlock (s : State) (b : RetBlock) : State :=
  match s.validCopy b with
  | some a => s.putBlock b (padTo b.len (s.copyData a))
  | none =>
    let s : State := { s with cyc := { s.cyc with retInit := true } }
    s.report .RETAIN_LOST (srcSup 3) [b.ident]

/-- A place in the retentive region stands for a copy no more: its header line is cleared. -/
def State.freeCopy (s : State) (a : Nat) : State :=
  { s with mem := memClear s.mem a (a + 64), cyc := { s.cyc with copies := s.cyc.copies.erase a } }

/-- The blocks of an owner lose their copies. -/
def State.discardCopies (s : State) (u : Nat) : State :=
  let ids := (s.prog.blocks.filter fun b => b.part == u).map fun b => b.ident
  (s.cyc.copies.filter fun a => ids.contains (s.copyIdent a)).foldl (fun (s : State) a => s.freeCopy a) s

/-! ### Starts (R194 to R196) -/

/-- CONFIG_ID of the sealed configuration. -/
def State.configId (s : State) : Nat := imgLe s.sup.cfgImage 0x0C 4
/-- CFLAGS of the sealed configuration. -/
def State.cflag (s : State) (b : Nat) : Bool := (imgLe s.sup.cfgImage 0x15 1).testBit b

/-- The configuration identity and every program identity (R196). -/
def State.identities (s : State) : List Nat := s.configId :: s.prog.idents.flatMap fun c => [c.1, c.2]

/-- The kind of a start that no RESTART decides (R196): 0 cold, 1 warm, 2 resume. -/
def State.startKind? (s : State) : Nat :=
  if s.cyc.resumeOk then 2
  else if s.cyc.lastRun == s.identities && s.prog.blocks.all fun b => (s.validCopy b).isSome then 1
  else 0

/-- One partition or engine starts cold or warm; a joiner takes its retentive data from the donor (R240). -/
def State.startOwner (s : State) (kind u : Nat) (stream : Bool) : State :=
  let forced := kind == 1 && s.ownerPoisoned u
  let s := if forced then s.report .PROGRAM_START (srcSup 3) [0, u, 1] else s
  let cold : Bool := kind == 0 || forced
  let s := s.initOwner u cold
  if cold then s.discardCopies u
  else if stream then s
  else (s.prog.blocks.filter fun b => b.part == u).foldl (fun (s : State) b => s.restoreBlock b) s

/-- The presence registers of the stations are NOT_SEEN again, their counts 0 (R292). -/
def State.noPresence (s : State) : State :=
  let pres (o : Nat) : Bool := decide (0x61000 ≤ o ∧ o < 0x62000) || decide (0x81000 ≤ o ∧ o < 0x82000) || decide (0xB0100 ≤ o ∧ o < 0xB0300) ||
    (decide (0xA0000 ≤ o ∧ o < 0xB0000) && decide (0x400 ≤ o % 0x1000 ∧ o % 0x1000 < 0x800))
  (s.regs.filter fun c => pres c.1).foldl (fun (s : State) c => s.setReg c.1 (c.2 &&& 0x3FF)) s

/-- What a cold or warm start does beside the partitions' and engines' memory. -/
def State.startRest (s : State) (kind : Nat) : State :=
  let s := [0, 1].foldl (fun (s : State) e => { s with mem := memClear s.mem (leAddr e 1 0) (leAddr e 1 0x8000) }) s
  let s : State := { s with
    cyc := { s.cyc with
      committed := [], working := [], versions := [], sources := [], varWrites := []
      forces := if kind = 0 then [] else s.cyc.forces
      changeGen := if kind = 0 then 0 else s.cyc.changeGen }
    hx := { s.hx with tasks := [], zero := [] }
    hxm := { s.hxm with stq := [], staged := [], ops := [] } }
  let s := [0, 1, 2, 3].foldl (fun (s : State) g => s.setGrp g { s.grp g with
    offered := [], voted := [], agreed := [], taskCycles := 0, on := false, published := false, closed := false, voteDone := false }) s
  let s := (s.zeroRegs fun o => decide (0x26000 ≤ o ∧ o < 0x26400)).noPresence
  (s.ethProgramStart.ixProgramStart).sioProgramStart

/-- A program start (R194, R196): 0 cold, 1 warm, 2 resume. -/
def State.programStart (s : State) (kind : Nat) (stream : Bool) : State :=
  let s := s.report .PROGRAM_START (srcSup 3) [kind, 0xFFFFFFFF, 0]
  let s : State := { s with
    sup := { s.sup with lastStart := kind }, cyc := { s.cyc with startKind := kind, lastRun := s.identities, resumeOk := false, saves := [], savesMoved := [] } }
  if kind = 2 then s
  else
    let s : State := { s with cyc := { s.cyc with retInit := false } }
    (s.owners.foldl (fun (s : State) u => s.startOwner kind u stream) (s.startRest kind))

end Sys2Proof.Machine
end

