-- ==== Sys2Proof/Machine/Change.lean ====
section
/-!
DEFINITION. Online change and schedule switch (R118, R207, R208, R210, R213), the proposals by which the modules of a VCU agree on them and
on forces (R242), and the joiner's SYNC_REQ (R239, R240).
-/
namespace Sys2Proof.Machine

/-! ### What a change carries (R206, R207) -/

/-- The program tables of an image set. -/
def State.progsOf (s : State) (set : Nat) : Progs := loadProgs set (s.setTbl set)

/-- The partitions and engines whose program identity differs in another set (R207). -/
def State.changedOwners (s : State) (n : Progs) : List Nat :=
  ((tkeys s.prog.idents ++ tkeys n.idents).eraseDups).filter fun u => tget natD s.prog.idents u != tget natD n.idents u

/-- The declared type and base of a timer in the bank of an engine that holds a program. -/
def State.timerDecl (s : State) (e pid n : Nat) : Nat :=
  match s.bankWith e pid with
  | some b => tget natD (tget nilD (s.eng e).decl b) n
  | none => 0

/-- Two entries match (R206). -/
def State.varsMatch (s : State) (o : VarEntry) (op : Nat) (v : VarEntry) (np : Nat) : Bool :=
  o.ident == v.ident && o.typ == v.typ && o.size == v.size &&
    (v.typ != 0x10 || s.timerDecl (o.part - 256) op o.addr == s.timerDecl (v.part - 256) np v.addr)

/-- The variables of a changed owner that are carried: new entry and old entry. -/
def State.carriedVars (s : State) (n : Progs) (u : Nat) : List (VarEntry × VarEntry) :=
  let mem (v : VarEntry) : Bool := v.part == u && (v.space == 0 || v.space == 3 || v.space == 4)
  (n.vars.filter mem).filterMap fun v =>
    (s.prog.vars.find? fun o => mem o && s.varsMatch o (tget natD s.prog.idents u) v (tget natD n.idents u)).map fun o => (v, o)

/-- The retentive blocks of a changed owner that are carried: new descriptor and old descriptor. -/
def State.carriedBlocks (s : State) (n : Progs) (u : Nat) : List (RetBlock × RetBlock) :=
  (n.blocks.filter fun b => b.part == u).filterMap fun b =>
    (s.prog.blocks.find? fun o => o.part == u && o.ident == b.ident && o.len == b.len).map fun o => (b, o)

/-- How a carried retentive block is told from a variable of the same identity. -/
def blockIdent (i : Nat) : Nat := 2 ^ 32 + i

/-- The values of a changed owner are copied into the save buffer (R208 step 3); one with an uncorrectable error is lost (R210). -/
def State.copyOut (s : State) (c : Change) (u : Nat) (bad : List Nat) : State :=
  let n := s.progsOf c.set
  let vars := (s.carriedVars n u).map fun x => (x, bad.contains x.1.ident || s.varBad x.2)
  let blocks := (s.carriedBlocks n u).map fun x => (x, bad.contains x.1.ident || s.blockBad x.2)
  let lost := (vars.filter fun x => x.2).map (fun x => x.1.1.ident) ++ (blocks.filter fun x => x.2).map (fun x => x.1.1.ident)
  let s := lost.foldl (fun (s : State) i => s.report .CARRY_LOST (srcSup 3) [i]) s
  let vals := (vars.filter fun x => !x.2).map fun x => (⟨x.1.1.ident, u, s.varBytes x.1.2 0 x.1.2.size⟩ : Carried)
  let blks := (blocks.filter fun x => !x.2).map fun x => (⟨blockIdent x.1.1.ident, u, s.blockData x.1.2⟩ : Carried)
  { s with cyc := { s.cyc with change := some { c with copied := u :: c.copied, carried := c.carried ++ vals ++ blks } } }

/-! ### The switch at B (R118, R208 step 4) -/

/-- A new schedule image takes effect (R118): every pending continuation and every paused activation is abandoned. -/
def State.switchSched (s : State) (set : Nat) : State :=
  let n := s.hx.sched.tasks.length
  let s := [0, 1, 2, 3].foldl (fun (s : State) p => s.slackPause p) s
  let s := (List.range n).foldl (fun (s : State) t =>
    if (s.task t).st == .awaiting || (s.task t).st == .paused then s.abandon t .schedSwitch else s) s
  let s := s.hxm.staged.foldl (fun (s : State) c => s.unstage c.win c.start) s
  let s := [0, 1, 2, 3].foldl (fun (s : State) p =>
    let s := s.dropPreload p
    (s.modPair p fun q => match q.heldBank with | some b => q.setBankSt b (if b = q.cur then .current else .free) | none => q).setUnit p
      { s.unit p with slackPre := none }) s
  let d := setSched (s.setTbl set)
  let s : State := { s with hx := { s.hx with sched := d, hasSched := true, tasks := [], zero := [], switchPend := none } }
  (s.set F.HX_SCHEDID_W d.schedId).raise 40

/-- The bank of an engine that is to become ACTIVE with a set (R188). -/
def State.bankSwitch (s : State) (n : Progs) (e : Nat) : Option Nat :=
  if s.engineFitted e then (s.bankWith e (tget natD n.idents (256 + e))).filter fun b => s.get (leBankF e b) != 3 else none

/-- The set's engine programs become active in their banks (R188). -/
def State.switchBanks (s : State) (n : Progs) : State :=
  [0, 1].foldl (fun (s : State) e => match s.bankSwitch n e with | some b => s.activateBank e b | none => s) s

/-- LE_BANK.SWITCH_PEND: a bank switch is agreed, or no longer (R188). -/
def State.pendBanks (s : State) (n : Progs) : State :=
  [0, 1].foldl (fun (s : State) e => if (s.bankSwitch n e).isSome then s.set (F.LE_BANK_SWITCH_PEND e) 1 else s) s
def State.unpendBanks (s : State) : State := [0, 1].foldl (fun (s : State) e => s.set (F.LE_BANK_SWITCH_PEND e) 0) s

/-- The variable of a new set that a force survives by (R213). -/
def Progs.forceVar (n : Progs) (f : Force) : Option VarEntry :=
  n.vars.find? fun v => v.ident == f.ident && v.typ == f.typ && v.size == f.size && (v.space == 1 || v.space == 2)

/-- The identities of the forces that a set drops (R213). -/
def State.droppedForces (s : State) (n : Progs) : List Nat := (s.cyc.forces.filter fun f => (n.forceVar f).isNone).map fun f => f.ident

/-- Forces are rebound to a new set; those without a match are dropped and recorded (R213). -/
def State.rebindForces (s : State) (n : Progs) : State :=
  let s := (s.droppedForces n).foldl (fun (s : State) i => s.report .FORCE_DROPPED (srcSup 3) [i]) s
  { s with cyc := { s.cyc with forces := (s.cyc.forces.filterMap fun f =>
      (n.forceVar f).map fun v => ({ f with space := v.space, group := v.group, ofs := v.addr, bit := v.bit } : Force)) } }

/-- The image set takes effect: program tables, active set, engine banks and forces; in the Run state its identities become those of the last Run
(R196). -/
def State.takeSet (s : State) (set : Nat) : State :=
  let n := s.progsOf set
  let s := ((s.rebindForces n).switchBanks n).unpendBanks
  let s : State := { s with prog := n, sup := { s.sup with activeSet := some set, schedId := imgLe (s.setTbl set) 0x0C 4 } }
  if s.sup.st == .run then { s with cyc := { s.cyc with lastRun := s.identities } } else s

/-- The change instant: the major frame that B names has begun. -/
def State.atB (s : State) (c : Change) : Bool := s.hx.frameOn && s.get F.TVL_MFC_W == c.bMfc

/-- Step 4 of R208. -/
def State.switchSet (s : State) (c : Change) : State :=
  let s := (c.changed.filter fun u => !(c.copied.contains u)).foldl (fun (s : State) u =>
    match s.cyc.change with | some d => s.copyOut d u [] | none => s) s
  let s := if s.hx.switchPend.isSome then s.switchSched c.set else s
  let s := (s.takeSet c.set)
  let s := (c.changed.filter fun u => decide (u < 256)).foldl (fun (s : State) u => s.clearPart u) s
  match s.cyc.change with
  | some d =>
    let s : State := { s with cyc := { s.cyc with change := some { d with switched := true, bAt := s.clk.t, setup := d.changed } } }
    if c.changed.isEmpty then { s with cyc := { s.cyc with changeGen := (s.cyc.changeGen + 1) % 2 ^ 32 } } else s
  | none => s

/-! ### Set-up and completion (R207, R208 steps 5 to 7) -/

/-- A changed owner takes its initial content and the carried values; its blocks' copies are rebound (R207). -/
def State.setUpOwner (s : State) (c : Change) (u : Nat) : State :=
  let s := s.initOwner u false
  let mine := c.carried.filter fun x => x.unit == u
  let s := mine.foldl (fun (s : State) x =>
    match s.prog.vars.find? fun v => v.part == u && v.ident == x.ident with
    | some v => s.putVar v 0 x.data
    | none => (match s.prog.blocks.find? fun b => b.part == u && blockIdent b.ident == x.ident with
      | some b => s.putBlock b x.data
      | none => s)) s
  let pid := tget natD s.prog.idents u
  (s.cyc.copies.filter fun a => mine.any fun x => x.ident == blockIdent (s.copyIdent a)).foldl (fun (s : State) a =>
    if s.copySound a then s.wrBytes a ((retImage (s.copyIdent a) (s.copySeq a) pid (s.copyData a)).take 64) else s) s

/-- The change is over once every set-up is done and step 7 has been taken. -/
def State.changeOver (s : State) : State :=
  match s.cyc.change with
  | some c => if c.setup.isEmpty && c.notified then { s with cyc := { s.cyc with change := none } } else s
  | none => s

/-- A changed owner's set-up is done; with the last one CHANGE_GEN counts (R208 step 6). -/
def State.ownerReady (s : State) (c : Change) (u : Nat) : State :=
  let s := s.setUpOwner c u
  let rest := c.setup.filter fun x => x != u
  let s : State := { s with cyc := { s.cyc with change := some { c with setup := rest } } }
  (if rest.isEmpty then { s with cyc := { s.cyc with changeGen := (s.cyc.changeGen + 1) % 2 ^ 32 } } else s).changeOver

/-- Step 7 of R208. -/
def State.changeNotify (s : State) (c : Change) : State :=
  let s := (s.report .CHANGE_DONE (srcSup 3) [c.set, s.cyc.changeGen]).longDone 0x13 0 []
  ({ s with cyc := { s.cyc with change := some { c with notified := true } } }).changeOver

/-- Every step of a change is carried out at once: on leaving the Run state (R466). -/
def State.switchNow (s : State) : State :=
  match s.cyc.change with
  | some c =>
    let s := if c.switched then s else s.switchSet c
    let s := (match s.cyc.change with | some d => d.setup | none => []).foldl (fun (s : State) u =>
      match s.cyc.change with | some d => s.ownerReady d u | none => s) s
    (match s.cyc.change with
     | some d => if d.notified then s else s.changeNotify d
     | none => s)
  | none => s

/-! ### The commands of a change -/

/-- SCHED_SWITCH (R118): the schedule image of the change takes effect at the agreed boundary. -/
def schedSwitch (s : State) : State :=
  match s.hx.switchPend, s.cyc.change with
  | some n, some c => if s.atB c && !c.switched then s.switchSched n else s
  | _, _ => s

/-- L_p (R208): the budget end of the last window of an owner's tasks in the running major frame; its start where it has none. -/
def State.lastEnd (s : State) (u : Nat) : Nat :=
  s.hx.sched.windows.foldl (fun a w =>
    match s.taskD? w.task with
    | some t => if t.owner = u then max a (s.mt (s.hx.frameMt + w.start + w.budget)) else a
    | none => a) s.hx.frameStart

/-- CARRY_COPY_OUT (R208 step 3, R210): in the last major frame before B. -/
def carryCopyOut (u : Nat) (bad : List Nat) (s : State) : State :=
  match s.cyc.change with
  | some c =>
    if c.changed.contains u && !(c.copied.contains u) && !c.switched && s.hx.frameOn && (s.get F.TVL_MFC_W + 1) % 2 ^ 32 == c.bMfc then
      (s.advance (s.lastEnd u)).copyOut c u bad
    else s
  | none => s

/-- CHANGE_SWITCH (R208 step 4): at B. -/
def changeSwitch (s : State) : State :=
  match s.cyc.change with
  | some c => if s.atB c && !c.switched then s.switchSet c else s
  | none => s

/-- CHANGE_SETUP_DONE (R208 steps 5 and 6): at B + C_p. -/
def changeSetupDone (u : Nat) (s : State) : State :=
  match s.cyc.change with
  | some c =>
    if c.switched && c.setup.contains u && s.sup.st != .dusk then
      (s.advance (c.bAt + ((c.cp.find? fun x => x.1 == u).map fun x => x.2).getD 0)).ownerReady c u
    else s
  | none => s

/-- CHANGE_DONE (R208 step 7): at the end of the first major frame after B. -/
def changeDone (s : State) : State :=
  match s.cyc.change with
  | some c => if c.switched && !c.notified && decide (c.bAt < s.hx.frameStart) && s.hx.frameOn then s.changeNotify c else s
  | none => s

/-! ### Proposals (R242) -/

/-- The reply that a long operation gives at once (R446), stored as its origin's last reply. -/
def State.longReply (s : State) (status : Nat) (payload : List Byte) : State :=
  match s.sup.longOp with
  | some o =>
    let k : Packet := ⟨o.opc, 1 + (if o.counter.isSome then 4 else 0), o.seq, originSrc o.origin, status, payload, o.counter⟩
    (s.setLast (originKey o.origin) ⟨o.seq, o.trailer, k⟩).deliver o.origin k
  | none => s

/-- The result data of ACTIVATE (R460). -/
def activateData (b : Nat) (dropped : List Nat) : List Byte :=
  leBytes 4 b ++ leBytes 2 dropped.length ++ [0, 0] ++ dropped.flatMap fun i => leBytes 4 i

/-- ACTIVATE is answered ACCEPTED once every member has accepted B (R208 step 2, R242). -/
def State.activateAnswer (s : State) : State :=
  match s.cyc.change, s.sup.longOp with
  | some c, some o =>
    if o.opc = 0x13 ∧ o.arg2 = 1 ∧ s.members.all fun q => s.tvl.activateAcks.contains q then
      let s := s.longReply 1 (activateData c.bMfc (s.droppedForces (s.progsOf c.set)))
      { s with sup := { s.sup with longOp := some { o with arg2 := 0 } } }
    else s
  | _, _ => s

/-- A proposed change is dropped; an ACTIVATE not yet answered is answered STATE (R209, R242). -/
def State.dropChange (s : State) : State :=
  let s : State := s.unpendBanks
  let s : State := { s with
    cyc := { s.cyc with change := none }, hx := { s.hx with switchPend := none }, tvl := { s.tvl with activateAcks := [] } }
  match s.sup.longOp with
  | some o =>
    if o.opc = 0x13 ∧ o.arg2 = 1 then
      let s := s.longReply 0x20 s.errNone
      { s with sup := { s.sup with longOp := none } }
    else s.longDone 0x13 0x20 s.errNone
  | none => s

/-- A change to an image set at B, as every module lays it down; C_p as ACTIVATE has computed it. -/
def State.layChangeTo (s : State) (set b : Nat) (cp : List (Nat × Nat)) : State :=
  let n := s.progsOf set
  let c : Change :=
    { set := set, bMfc := b, changed := s.changedOwners n, copied := [], carried := [], cp := cp, setup := [], switched := false, bAt := 0,
      notified := false }
  ({ s with cyc := { s.cyc with change := some c }, hx := { s.hx with switchPend := some set } } : State).pendBanks n

/-! ### C_p (R209) -/

/-- Worst-case cost of a page of a working set by its home (R142), in microticks. -/
def pageCost (home : Nat) : Nat := if home = 0 then 0 else if home = 2 then 8640 else 1280

/-- The stager's requests in the order served: arrival, class, START, window and cost, for the windows of two major frames (R142). -/
def stagePlan (d : Sched) (segs : Tbl (List Seg)) (look tg : Nat) : List (Int × Nat × Int × Nat × Nat) :=
  let frame := 2 ^ d.mfLog2 * tg
  let one (k : Nat) : List (Int × Nat × Int × Nat × Nat) :=
    ((List.range d.windows.length).zip d.windows).filterMap fun c =>
      match d.tasks[c.2.task]? with
      | some t =>
        if t.cls = 2 ∨ 4 ≤ t.unit then none else
        let cost := ((d.wset.drop t.wsetFirst).take t.wsetCount).foldl (fun a e =>
          match (tget nilD segs t.part)[e.seg]? with | some g => a + e.count * pageCost g.home | none => a) 0
        let st : Int := ((k * frame + c.2.start * mtUt : Nat) : Int)
        some (st - (look * 800 : Nat), t.cls, st, c.1, cost)
      | none => none
  one 0 ++ one 1

/-- The simulation of R142: begin and end of the service of each request, and the window that finishes after its START. -/
def stageSim : Int → List (Int × Nat × Int × Nat × Nat) → List (Int × Int) × Option Nat
  | _, [] => ([], none)
  | busy, (arr, cls, st, w, cost) :: r =>
    let begin_ := (if busy ≤ arr then arr + 8640 else busy)
    let stop := begin_ + (cost : Int)
    let rest := stageSim stop r
    ((arr, stop) :: rest.1, if cls = 0 ∧ st < stop then some w else rest.2)

/-- Work of one piece at background priority starts where no request is open. -/
def stageGap (open_ : List (Int × Int)) : Nat → Int → Int
  | 0, t => t
  | n + 1, t => match open_.find? fun c => decide (c.1 ≤ t ∧ t < c.2) with
    | some c => stageGap open_ n c.2
    | none => t

/-- C_p of each changed owner: the copying in of carried values and the fills of new HOME 0 pages, in microticks after B (R209). -/
def State.changeIntervals (s : State) (set : Nat) : List (Nat × Nat) :=
  let n := s.progsOf set
  let d := setSched (s.setTbl set)
  let frame : Int := ((2 ^ d.mfLog2 * s.tg : Nat) : Int)
  let open_ := (stageSim 0 (stagePlan d n.segs (s.get F.HXM_LOOKAHEAD_LOOKAHEAD) s.tg)).1.map fun c => (c.1 - frame, c.2 - frame)
  let work (u : Nat) : List Nat :=
    ((s.carriedVars n u).map fun x => 16 + 2 * ((x.1.size + 15) / 16)) ++ ((s.carriedBlocks n u).map fun x => 16 + 2 * (x.1.len / 16)) ++
      (if u < 256 then List.replicate ((tget nilD n.segs u).foldl (fun a g => if g.home = 0 then a + g.pages else a) 0) 8640 else [])
  ((s.changedOwners n).foldl (fun (a : List (Nat × Nat) × Int) u =>
    let t := (work u).foldl (fun (t : Int) w => stageGap open_ open_.length t + (w : Int)) a.2
    (a.1 ++ [(u, t.toNat)], t)) ([], 0)).1

/-! ### The proposals received and sent -/

/-- The inactive image set that is verified and has a digest (R242). -/
def State.setWith (s : State) (digest : List Byte) : Option Nat :=
  [0, 1].find? fun n =>
    let x := tget imageSetD s.sup.sets n
    s.sup.activeSet != some n && x.verified && !x.damaged && x.digest == digest

/-- ACTIVATE_PROPOSAL (R242): sent by the module that has accepted ACTIVATE, or received from it, and the answers to it. -/
def activateProposal (rx : TlRx) (v : Vow) (b : Nat) (digest : List Byte) (s : State) : State :=
  match rx with
  | none =>
    (match s.cyc.change with
     | some c =>
       if v == .propose && s.tvl.activateAcks.isEmpty && !c.switched && (match s.sup.longOp with | some o => o.opc == 0x13 | none => false) then
         let s : State := { s with tvl := { s.tvl with activateAcks := [s.pos] } }
         (s.ctrl 7 (c.bMfc :: (tget imageSetD s.sup.sets c.set).digest.map fun x => x.toNat)).activateAnswer
       else s
     | none => s)
  | some (p, f) =>
    let (s, ok) := s.tlTake p f 4
    if !ok || s.mstate != 4 then s else
    (match v with
     | .propose =>
       (match s.setWith digest with
        | some n => if s.cyc.change.isNone && s.inRun then (s.layChangeTo n b (s.changeIntervals n)).ctrl 8 [b] else s.ctrl 9 [b]
        | none => s.ctrl 9 [b])
     | .accept =>
       (match s.cyc.change with
        | some c => if c.bMfc = b then ({ s with tvl := { s.tvl with activateAcks := f.sender :: s.tvl.activateAcks } }).activateAnswer else s
        | none => s)
     | .reject =>
       (match s.cyc.change with
        | some c => if c.bMfc = b ∧ !c.switched then s.dropChange else s
        | none => s))

/-- FORCE_PROPOSAL (R242, R212, R462): a force change named by its task cycle, sent or received, and the answers to it. -/
def forceProposal (rx : TlRx) (v : Vow) (mfc cc ident : Nat) (what : ForceWhat) (s : State) : State :=
  let same (x : ForceProp) : Bool := x.mfc == mfc && x.cc == cc && x.ident == ident
  match rx with
  | none =>
    if v == .propose && s.tvl.forceProp.any fun x => same x && x.what == what && x.acks.isEmpty then
      ({ s with tvl := { s.tvl with forceProp := (s.tvl.forceProp.map fun x => if same x && x.what == what then { x with acks := [s.pos] } else x) } }).ctrl
        10 [mfc, cc, ident, whatOpc what]
    else s
  | some (p, f) =>
    let (s, ok) := s.tlTake p f 4
    if !ok || s.mstate != 4 then s else
    (match v with
     | .propose =>
       if (s.var? ident).isSome || (what == .clear && ident == 0xFFFFFFFF) then
         ({ s with tvl := { s.tvl with forceProp := s.tvl.forceProp ++ [(⟨mfc, cc, ident, what, [s.pos, f.sender]⟩ : ForceProp)] } }).ctrl 11 [mfc, cc, ident]
       else s.ctrl 12 [mfc, cc, ident]
     | .accept =>
       { s with tvl := { s.tvl with forceProp := (s.tvl.forceProp.map fun x => if same x then { x with acks := f.sender :: x.acks } else x) } }
     | .reject =>
       if s.tvl.forceProp.any same then
         ({ s with tvl := { s.tvl with forceProp := s.tvl.forceProp.filter (fun x => !same x) } }).longDone (whatOpc what) 0x20 s.errNone
       else s)

/-! ### Joint start (R11, R239, R242) -/

/-- What this module's peers compare (R239): configuration, program and image-set identities, and SYS_CAP0. -/
def State.ownIds (s : State) : PeerIds :=
  ⟨s.configId, s.prog.idents.flatMap fun c => [c.1, c.2],
    match s.sup.activeSet with | some n => (tget imageSetD s.sup.sets n).digest | none => [], cap0 s.ident.variant⟩

/-- The identities as a CTRL frame carries them. -/
def idWords (i : PeerIds) : List Nat := i.config :: i.cap0 :: (i.set.map fun x => x.toNat) ++ i.progs

/-- What differs: bit 0 the configuration, bit 1 a program, bit 2 the image set, bit 3 SYS_CAP0 (DESIGN CHOICE, log 126). -/
def identMask (a b : PeerIds) : Nat :=
  b2n (a.config != b.config) + 2 * b2n (a.progs != b.progs) + 4 * b2n (a.set != b.set) + 8 * b2n (a.cap0 != b.cap0)

/-- Position `q` has shown its identities: IDENT_MISMATCH once they begin to differ, with the differing SYS_CAP0 bits (R11, R239). No boundary is
kept while a difference lasts. -/
def State.compareIds (s : State) (q : Nat) (ids : PeerIds) : State :=
  let m := identMask s.ownIds ids
  let l := s.tvl.differs.filter fun x => x != q
  if m = 0 then { s with tvl := { s.tvl with differs := l } }
  else
    let s := if s.tvl.differs.contains q then s else s.report .IDENT_MISMATCH srcTvl [m, s.ownIds.cap0 ^^^ ids.cap0, q]
    { s with tvl := { s.tvl with differs := q :: l, boundary := none } }

/-- A peer that is there differs. -/
def State.differing (s : State) : Bool := s.tvl.differs.any fun q => (s.peer q).mstate != 0

/-- The module may begin together with its peers. -/
def State.mayStart (s : State) : Bool :=
  s.mstate == 1 && !s.differing && s.sup.st == .run && !([1, 2, 3].any fun q => s.peerMember q)

/-- A boundary is adopted, and acknowledged by a proposal of its own. -/
def State.adoptBoundary (s : State) (j count : Nat) (l : List Nat) : State :=
  ({ s with tvl := { s.tvl with boundary := some (j, s.clk.t, l) } }).ctrl 5 (count :: (idWords s.ownIds))

/-- RUN_ENTRY_PROPOSAL (R242): the first major-frame start at least 10 ms and one Gheif cycle ahead is proposed, or a peer's proposal taken;
the earliest stands. -/
def runEntryProposal (rx : TlRx) (count : Nat) (ids : PeerIds) (s : State) : State :=
  match rx with
  | none =>
    if s.mayStart && s.tvl.boundary.isNone then
      let j := s.frameFrom (s.clk.t + 10000 * usUt + s.tg)
      s.adoptBoundary j ((s.cyc.count + (j - s.cyc.n)) % 256) [s.pos]
    else s
  | some (p, f) =>
    let (s, ok) := s.tlTake p f 4
    if !ok || s.mstate != 1 then s
    else
      let s := s.compareIds f.sender ids
      let j := s.cyc.n + (count + 256 - s.cyc.count) % 256
      if !s.mayStart then s
      else match s.tvl.boundary with
        | some (j0, t0, l) =>
          if j < j0 then s.adoptBoundary j count [s.pos, f.sender]
          else if j = j0 then { s with tvl := { s.tvl with boundary := some (j0, t0, if l.contains f.sender then l else f.sender :: l) } }
          else s
        | none => s.adoptBoundary j count [s.pos, f.sender]

/-- RUN_BOUNDARY (R242): the modules that sent or acknowledged the boundary at least one Gheif cycle before it begin together as MEMBER. -/
def runBoundary (s : State) : State :=
  match s.tvl.boundary with
  | some (j, t0, l) =>
    let at_ := s.cycleAt j
    let s := s.advance at_
    let s : State := { s with tvl := { s.tvl with boundary := none } }
    if s.mayStart && decide (t0 + s.tg ≤ at_) then
      let s := (s.set F.TVL_STAT_MSTATE 4).set F.TVL_MFC_W 0
      let s := (l.foldl (fun (s : State) q => s.setPeer q { s.peer q with removed := none, missed := 0, out := false }) s).setMembers
        (l.foldl (fun m q => m ||| 2 ^ (q - 1)) 0)
      { s with hx := { s.hx with notBefore := at_ - s.tg / 2, frameOn := false } }
    else s
  | none => s

/-- SYNC_REQ (R239, R240): sent by this module in LISTEN to the lowest-position voting member, whose identities must equal its own; it starts its
programs warm for the donor's data. Or received by the donor. -/
def syncReq (rx : TlRx) (ids : PeerIds) (s : State) : State :=
  match rx with
  | none =>
    match [1, 2, 3].find? (fun q => s.peerMember q) with
    | some d =>
      if s.mstate ≠ 1 then s
      else
        let s := s.compareIds d ids
        if s.differing then s
        else
          let s := (s.set F.TVL_STAT_MSTATE 2).set F.TVL_STAT_DONOR d
          (({ s with tvl := { s.tvl with sync := { Sync.none with since := s.clk.t } } }).programStart 1 true).ctrl 6 (idWords s.ownIds)
    | none => s
  | some (p, f) =>
    let (s, ok) := s.tlTake p f 4
    if ok && s.voting && s.members.head? == some s.pos && identMask s.ownIds ids == 0 then
      let plan : Tbl (Option Nat) := (List.range s.hx.sched.groups.length).map fun g => (g, some (s.cycleAt (s.frameFrom (s.clk.t + 1000 * usUt))))
      { s with tvl := { s.tvl with sync := { s.tvl.sync with joiner := f.sender, plan := plan } } }
    else s

/-! ### The commands -/

/-- SCHED_SWITCH. -/
def execSchedSwitch (s : State) : Host.Outcome State Fault Refusal := .next (schedSwitch s)
/-- CARRY_COPY_OUT. -/
def execCarryCopyOut (u : Nat) (bad : List Nat) (s : State) : Host.Outcome State Fault Refusal := .next (carryCopyOut u bad s)
/-- CHANGE_SWITCH. -/
def execChangeSwitch (s : State) : Host.Outcome State Fault Refusal := .next (changeSwitch s)
/-- CHANGE_SETUP_DONE. -/
def execChangeSetupDone (u : Nat) (s : State) : Host.Outcome State Fault Refusal := .next (changeSetupDone u s)
/-- CHANGE_DONE. -/
def execChangeDone (s : State) : Host.Outcome State Fault Refusal := .next (changeDone s)
/-- ACTIVATE_PROPOSAL. -/
def execActivateProposal (rx : TlRx) (v : Vow) (b : Nat) (digest : List Byte) (s : State) : Host.Outcome State Fault Refusal :=
  .next (activateProposal rx v b digest s)
/-- FORCE_PROPOSAL. -/
def execForceProposal (rx : TlRx) (v : Vow) (mfc cc ident : Nat) (what : ForceWhat) (s : State) : Host.Outcome State Fault Refusal :=
  .next (forceProposal rx v mfc cc ident what s)
/-- RUN_ENTRY_PROPOSAL. -/
def execRunEntryProposal (rx : TlRx) (count : Nat) (ids : PeerIds) (s : State) : Host.Outcome State Fault Refusal :=
  .next (runEntryProposal rx count ids s)
/-- RUN_BOUNDARY. -/
def execRunBoundary (s : State) : Host.Outcome State Fault Refusal := .next (runBoundary s)
/-- SYNC_REQ. -/
def execSyncReq (rx : TlRx) (ids : PeerIds) (s : State) : Host.Outcome State Fault Refusal := .next (syncReq rx ids s)

end Sys2Proof.Machine
end

