-- ==== Sys2Proof/Machine/Uncorr.lean ====
section
/-!
DEFINITION. The code of the memories (R147 to R149), scrubbing (R150, R151) and uncorrectable errors (R152): what follows where the line lies, in the memories of the HX, of the logic engines (R189), of the
CAN controllers (R377) and of the other units (R296).
-/
namespace Sys2Proof.Machine

/-- An image set is damaged (R437, R152). -/
def State.damage (s : State) (set : Nat) : State :=
  let x := tget imageSetD s.sup.sets set
  if x.damaged then s else
  let s : State := { s with sup := { s.sup with sets := tput imageSetD s.sup.sets set { x with damaged := true } } }
  s.report .IMAGESET_DAMAGED (srcSup 3) [set]

/-- The key of the page that a pool frame holds. -/
def State.frameKey (s : State) (f : Nat) : Option Nat := (s.hxm.pages.find? fun c => c.2.frame == some f).map fun c => c.1

/-- The pair's next instruction stands on the line. -/
def State.fetches (s : State) (p addr : Nat) : Bool :=
  let pc := (s.pair p).pc
  match (s.pair p).umode, s.taskOn p with
  | true, some tn => (match s.umap tn pc 1 .exec with | .mem a _ => a / 64 == addr / 64 | _ => false)
  | true, none => false
  | false, _ => pc / 64 == addr / 64

/-- The pair that reads the line takes the access fault of its access; mtval holds the physical address (R152). -/
def State.readerFault (s : State) (reader : Option Nat) (addr : Nat) : State :=
  match reader with
  | some p => if s.executes p then s.trap p (if s.fetches p addr then 1 else 5) addr else s
  | none => s

/-- A line of a pool frame (R152): a written page, or one without a home, is POISONED; a frame with an unwritten copy is released, and the next
access to its page counts as a stage miss. -/
def State.poolErr (s : State) (addr : Nat) (reader : Option Nat) : State :=
  let fetch : Bool := match reader with | some p => s.fetches p addr | none => false
  match s.frameKey ((addr - sramBase) / 4096) with
  | none => s.poisonLine addr
  | some k =>
    let part := k / 2 ^ 20
    let up := k % 2 ^ 20
    let home0 : Bool := match s.segOf part up with | some g => g.home == 0 | none => true
    let keep := home0 || (s.page k).written
    let s := (if keep then (s.modPage k fun c => { c with poisoned := true }).raise 51
      else (s.dropFrame k).modPage k fun c => { c with lost := true }).poisonLine addr
    match reader with
    | some p =>
      (match (s.pair p).umode, s.taskOn p with
       | true, some tn =>
         if !s.executes p then s
         else if keep then s.pageFault p tn (if fetch then (s.pair p).pc else up * 4096 + addr % 4096) 5 (if fetch then .exec else .read)
         else s.stageMiss p tn part up
       | _, _ => s.readerFault reader addr)
    | none => s

/-- A line of SRAM: the page pool, the HX private area, or memory of machine mode and queue storage. -/
def State.sramErr (s : State) (addr : Nat) (reader : Option Nat) : State :=
  if 0x11F00000 ≤ addr then s.enterDusk 4
  else if inQstore addr then
    ((List.range 64).foldl (fun (s : State) q => if s.flag (F.HXQ_CFG_EN q) then s.qLose (s.qgeo q) (addr / 64 * 64) else s)
      (s.poisonLine addr)).readerFault reader addr
  else if s.inMachSram addr then (s.poisonLine addr).readerFault reader addr
  else s.poolErr addr reader

/-- A line of DDR: a home page is poisoned at its home; the machine region reads with an access fault (R152). -/
def State.ddrErr (s : State) (addr : Nat) (reader : Option Nat) : State :=
  if addr < ddrBase + s.get F.HXM_LAYOUT_MACH_DDR * 0x4000000 then (s.poisonLine addr).readerFault reader addr
  else
    let h := (addr - ddrBase) / 4096
    (if s.hxm.homePoison.contains h then s else { s with hxm := { s.hxm with homePoison := h :: s.hxm.homePoison } }).readerFault reader addr

/-- A line of the program store, by its offset within the store: 128 MiB for each image set. -/
def State.storeErr (s : State) (ofs : Nat) : State :=
  let set := ofs / 0x8000000
  let x := storePoison set (ofs % 0x8000000 / 64)
  let s : State := if s.hxm.homePoison.contains x then s else { s with hxm := { s.hxm with homePoison := x :: s.hxm.homePoison } }
  s.damage set

/-- A line of the HX internal memories, by its index: context memory first, one line each for 1,024 contexts (R121); the rest is the
executive's own. -/
def State.hxErr (s : State) (line : Nat) : State :=
  if line < 1024 then
    match (s.task line).st with
    | .paused | .awaiting => ((s.report .CONTEXT_LOST srcHx [line]).raise 42).abandon line .contextLost
    | _ => s
  else s.enterDusk 4

/-- A line of an engine's memories (R189). -/
def State.engineErr (s : State) (e ofs addr : Nat) : State :=
  let b := ofs / 0x100000
  if b < 2 ∧ s.get (leBankF e b) ≠ 3 then (s.set (leBankF e b) 0).set (F.LE_BANKID_W e b) 0
  else s.poisonLine addr

/-- A line of a controller's message RAM (R377). -/
def State.canErr (s : State) (n ofs : Nat) : State :=
  let a := canAddr n (ofs / 64 * 64)
  let lo := ofs / 64 * 64
  let hit (o len : Nat) : Bool := decide (o < lo + 64 ∧ lo < o + len)
  if lo < 0xC00 then s.poisonLine a
  else if lo < 0x1600 then
    (List.range 32).foldl (fun (s : State) b =>
      if !(hit (0xC00 + 80 * b) 80) then s
      else if s.tbMode n b = 0 then canTxcan n (BitVec.ofNat 32 (2 ^ b)) s
      else s.tbDrop n b) s
  else
    let s := s.poisonLine a
    let s := [0, 1].foldl (fun (s : State) m => s.qLose (s.rxq n m) a) s
    (List.range 256).foldl (fun (s : State) e =>
      if (s.filterWord n e 2).testBit 23 && (s.latchAddr n e / 64 == a / 64 || hit (s.latchAddr n e - canAddr n 0) 160) then
        s.dropSource 3 (n * 256 + e)
      else s) s

/-- A line of the message memories of the Gheif controller, the Ethernet block and the Ixsum engine, named by the register that shows the
buffer's state: the receive buffer's item, and a hold buffer's kept item, are dropped (R296). -/
def State.bufferErr (s : State) (off : Nat) : State :=
  if 0x61000 ≤ off ∧ off < 0x62000 then
    let id := (off - 0x61000) / 4
    ({ s with gh := { s.gh with items := tput noneD s.gh.items id none, hold := tput noneD s.gh.hold id none } }).dropSource 1 id
  else if 0x81000 ≤ off ∧ off < 0x82000 then
    let t := (off - 0x81000) / 4
    ({ s with eth := { s.eth with items := tput noneD s.eth.items t none } }).dropSource 2 t
  else if 0x90100 ≤ off ∧ off < 0x91100 then s.dropSource 6 ((off - 0x90100) / 16)
  else if 0xB0100 ≤ off ∧ off < 0xB0300 then s.dropSource 5 ((off - 0xB0100) / 4)
  else s

/-- A line of another unit's memory, by its physical address. -/
def State.unitErr (s : State) (addr : Nat) (reader : Option Nat) : State :=
  if 0x41000000 ≤ addr ∧ addr < 0x41800000 then
    (s.engineErr ((addr - 0x41000000) / 0x400000) ((addr - 0x41000000) % 0x400000) addr).readerFault reader addr
  else if 0x41800000 ≤ addr ∧ addr < 0x41860000 then
    (s.canErr ((addr - 0x41800000) / 0x10000) ((addr - 0x41800000) % 0x10000)).readerFault reader addr
  else s.bufferErr (addr - 0x40000000)

/-- The common part (R152), in the address form HXM_ERRADDR has for each memory. -/
def State.uncorrMark (s : State) (m addr : Nat) : State :=
  let line := if m = 4 then addr else addr / 64 * 64
  let s := ((s.inc F.HXM_MEMERR_UNCORR).set F.HXM_MEMERR_LAST_MEM m).set (F.HXM_ERRADDR_W 0) line
  ((s.set (F.HXM_ERRADDR_W 1) (line / 2 ^ 32)).raise 433).report .MEM_UNCORR srcHxm [m, line, line / 2 ^ 32]

/-- An uncorrectable line (R152) of memory `m` as HXM_MEMERR numbers them; `reader`: the pair whose read found it. -/
def State.uncorr (s : State) (m addr : Nat) (reader : Option Nat) : State :=
  let s := s.uncorrMark m addr
  match m with
  | 0 => s.sramErr addr reader
  | 1 => (s.poisonLine addr).readerFault reader addr
  | 2 => s.ddrErr addr reader
  | 3 => s.storeErr addr
  | 4 => s.hxErr addr
  | _ => s.unitErr addr reader

/-! ### The code (R147 to R149) -/

/-- The line that an erroneous line is. -/
def errLine (e : LineErr) : Nat := if e.m.val = 4 then e.addr else e.addr / 64 * 64

/-- A line takes the data of another codeword that the code takes it for (R148). -/
def State.putLine (s : State) (e : LineErr) (d : List Byte) : State :=
  match e.m.val with
  | 3 =>
    let n := e.addr / 0x8000000
    let x := tget imageSetD s.sup.sets n
    { s with sup := { s.sup with sets := tput imageSetD s.sup.sets n { x with bytes := tputList byteD x.bytes (errLine e % 0x8000000) (padTo 64 d) } } }
  | 4 => s
  | _ => s.wrBytes (errLine e) (padTo 64 d)

/-- The erroneous symbols a read of a line meets: those found now and those an earlier read has left in the line. -/
def State.symbols (s : State) (e : LineErr) : List Nat := (s.latent e.m.val (errLine e) ++ e.bad).eraseDups

/-- A read decodes a line (R147 to R149): up to three wrong stored symbols are corrected, more only to another codeword within three symbols of
what is stored, a symbol of the address never. -/
def State.lineErr (s : State) (e : LineErr) (scrub : Bool) (reader : Option Nat) : State :=
  let bad := s.symbols e
  if bad.isEmpty then s
  else if symCorrectable bad then s.memCorrected e.m.val (errLine e) bad scrub
  else match e.other, bad.all fun n => decide (n < 70) with
    | some d, true => (s.putLine e d).memCorrected e.m.val (errLine e) bad false
    | _, _ => s.uncorr e.m.val e.addr reader

/-- The lines that a read meets, one after the other. -/
def State.lineErrs (s : State) (errs : List LineErr) (scrub : Bool) : State := errs.foldl (fun (s : State) e => s.lineErr e scrub none) s

/-- MEM_UNCORR (R148, R152): a line is read, by the pair `reader` where one reads it. -/
def memUncorr (e : LineErr) (reader : Option Nat) (s : State) : State := if s.alive then s.lineErr e false reader else s

/-- The lines of memory `m` from `lo` up to `hi` that a read has found erroneous and nothing has written back yet. -/
def State.latentIn (s : State) (m : Fin 6) (lo hi : Nat) : List LineErr :=
  s.hxm.latent.filterMap fun x =>
    if latentKey m lo ≤ x.1 ∧ x.1 < latentKey m hi then some ⟨m, x.1 - latentKey m 0, [], none⟩ else none

/-- Where the stager's transfer reads: memory and address of the page. -/
def State.stageSource (s : State) (r : StageReq) : Option (Fin 6 × Nat) :=
  let p := s.page (pkey r.part r.page)
  match r.why, p.frame with
  | .flush, some f => some (0, frameAddr f)
  | .flush, none | .scrub .., _ | _, some _ => none
  | _, none =>
    match s.segOf r.part r.page with
    | some g =>
      if g.home = 2 then some (3, s.prog.set * 0x8000000 + (g.init + (r.page - g.upage)) * 4096) else p.home.map fun h => (2, homeAddr h)
    | none => none

/-- The erroneous lines that the stager's transfer reads: those left in the page it takes. An error that shows for the first time in the
stager's read is a MEM_UNCORR before it. -/
def State.stagerErrs (s : State) : List LineErr :=
  match s.nextStage.bind s.stageSource with
  | some c => s.latentIn c.1 c.2 (c.2 + 4096)
  | none => []

/-- PAGE_TRANSFER_DONE (R138, R140, R145, R149): the stager ends its transfer. -/
def pageTransferDone (s : State) : State :=
  if s.alive && !s.dusked && s.nextStage.isSome then (s.lineErrs s.stagerErrs false).transferDone else s

/-- The frame and symbol positions that a pass of SRAM corrects (R151). -/
def State.scrubKeys (s : State) (errs : List LineErr) : List Nat :=
  errs.flatMap fun e =>
    if symCorrectable (s.symbols e) && inSram e.addr then (s.symbols e).map fun n => (e.addr - sramBase) / 4096 * 128 + n else []

/-- SCRUB_PASS (R150, R151): a pass of memory `m` has read every line; `errs`: those it found erroneous. -/
def scrubPass (m : Nat) (errs : List LineErr) (s : State) : State :=
  if !s.alive then s else
  let errs := errs.filter fun e => e.m.val == m
  let keys := s.scrubKeys errs
  let s := s.lineErrs errs true
  (if m = 0 then s.countSymbols keys else s).passDone m

/-! ### The commands -/

/-- MEM_UNCORR. -/
def execMemUncorr (m : Fin 6) (addr : Nat) (r : LineRead) (s : State) : Host.Outcome State Fault Refusal :=
  .next (memUncorr ⟨m, addr, r.bad, r.other⟩ (r.reader.map fun p => p.val) s)
/-- PAGE_TRANSFER_DONE. -/
def execPageTransferDone (s : State) : Host.Outcome State Fault Refusal := .next (pageTransferDone s)
/-- SCRUB_PASS. -/
def execScrubPass (m : Fin 5) (errs : List LineErr) (s : State) : Host.Outcome State Fault Refusal := .next (scrubPass m errs s)

end Sys2Proof.Machine
end

