-- ==== Sys2Proof/Machine/CfgImg.lean ====
section
/-!
DEFINITION. The configuration image (R456, R457): header, section directory and tables, and how the module applies them. The tables are
laid out as their chapters define (R197, R219, R284 to R287, R327, R341, R390); where a chapter defines no layout the model fixes one
(agreement maps by group, CAN FD descriptors, input-pair list).
-/
namespace Sys2Proof.Machine

/-! ### Header and directory (R456, R457) -/

/-- A section of the directory. -/
structure CfgSec where
  ty : Nat
  pos : Nat
  ofs : Nat
  len : Nat
  deriving DecidableEq, Repr

/-- The section directory. -/
def cfgDir (b : Tbl Byte) : List CfgSec :=
  tableAt (imgLe b 0x20 4) (imgLe b 0x1C 2) 16 fun a => ⟨imgLe b a 2, imgLe b (a + 2) 1, imgLe b (a + 4) 4, imgLe b (a + 8) 4⟩

/-- The sections of a type that a rack position applies (R256, R457). -/
def cfgSecs (b : Tbl Byte) (pos ty : Nat) : List CfgSec := (cfgDir b).filter fun d => d.ty == ty && (d.pos == 0 || d.pos == pos)

/-- The entries of `sz` bytes of every section of a type, in order. -/
def cfgTable {α : Type} (b : Tbl Byte) (pos ty sz : Nat) (f : Nat → α) : List α :=
  (cfgSecs b pos ty).flatMap fun d => tableAt d.ofs (d.len / sz) sz f

/-- The bytes of the first section of a type. -/
def cfgBytes (b : Tbl Byte) (pos ty : Nat) : List Byte :=
  match cfgSecs b pos ty with
  | d :: _ => tgetList byteD b d.ofs d.len
  | [] => []

/-- A list as a table from key 0 on. -/
def indexed {α : Type} (l : List α) : List (Nat × α) := (List.range l.length).zip l

/-! ### The tables -/

/-- The register-value entries: offset and value (R457). -/
def cfgRegs (b : Tbl Byte) (pos : Nat) : List (Nat × Nat) := cfgTable b pos 2 8 fun a => (imgLe b a 4, imgLe b (a + 4) 4)

/-- The signal map, unused entries among it (R197). -/
def cfgSignals (b : Tbl Byte) (pos : Nat) : List SigEntry :=
  cfgTable b pos 11 16 fun a =>
    ⟨imgLe b a 1, imgLe b (a + 1) 1, imgLe b (a + 2) 2, imgLe b (a + 4) 2, imgLe b (a + 6) 2, imgLe b (a + 8) 2, imgLe b (a + 10) 2,
     imgLe b (a + 12) 1, imgLe b (a + 13) 1, imgLe b (a + 14) 2⟩

/-- The entries of the agreement maps of the groups from `g` on: `n` groups are left, entries begin at `a` (R219). -/
def agrMaps (b : Tbl Byte) (o : Nat) : Nat → Nat → Nat → List (Nat × List AgrEntry)
  | 0, _, _ => []
  | n + 1, g, a =>
    let k := imgLe b (o + 2 * g) 2
    (g, tableAt a k 8 fun x => ⟨imgLe b x 2, imgLe b (x + 2) 2, imgLe b (x + 4) 1, imgLe b (x + 5) 1⟩) :: agrMaps b o n (g + 1) (a + 8 * k)

/-- The agreement maps: four counts of 2 bytes, then the groups' entries (the model's layout). -/
def cfgAgr (b : Tbl Byte) (pos : Nat) : List (Nat × List AgrEntry) :=
  match cfgSecs b pos 12 with
  | d :: _ => agrMaps b d.ofs 4 0 (d.ofs + 8)
  | [] => []

/-- The position tables of the modes given, in order (R286). -/
def posTables (b : Tbl Byte) (n : Nat) : Nat → List Nat → List (Nat × Nat)
  | _, [] => []
  | a, m :: r =>
    ((List.range n).flatMap fun i =>
      [(m * 4096 + (i + 1), imgLe b (a + 2 * i) 2), (m * 4096 + 2048 + (i + 1), imgLe b (a + 2 * (n + i)) 2)]) ++ posTables b n (a + 4 * n) r

/-- The Gheif section at `o` (R284 to R287). -/
def parseCluster (b : Tbl Byte) (o : Nat) : Cluster :=
  let h (a n : Nat) : Nat := imgLe b (o + a) n
  let modes := (List.range 8).filter fun m => (h 0x23 1).testBit m
  { tg := h 0x00 4, sw := h 0x04 2, nStatic := h 0x06 2, slot := h 0x08 2, ap := h 0x0A 1, tail := h 0x0B 1, nMini := h 0x0C 2,
    ms := h 0x0E 1, msAp := h 0x0F 1, dynFirst := h 0x10 2, pi := h 0x12 2, ofsLimit := h 0x14 2, rateLimit := h 0x16 1, syncMin := h 0x17 1,
    csNodes := h 0x18 1, backoff := h 0x19 1, csAttempts := h 0x1A 1, passiveReturn := h 0x1B 1, listen := h 0x1C 4, passiveMax := h 0x20 1,
    modeAlign := h 0x21 1, startMode := h 0x22 1, modes := h 0x23 1
    nodes := tableAt (o + 0x40) 3 16 fun a => ⟨imgLe b a 2, imgLe b (a + 2) 1, imgLe b (a + 3) 1, imgLe b (a + 4) 2, imgLe b (a + 6) 2⟩
    table := tputs natD [] (posTables b (h 0x06 2) (o + h 0x28 4) modes)
    slots := tableAt (o + h 0x2C 4) (h 0x24 2) 16 fun a =>
      ⟨imgLe b a 2, imgLe b (a + 2) 1, imgLe b (a + 3) 1, imgLe b (a + 4) 1, imgLe b (a + 5) 1, imgLe b (a + 6) 1, imgLe b (a + 7) 1,
       imgLe b (a + 8) 2, imgLe b (a + 10) 1, imgLe b (a + 11) 1, imgLe b (a + 12) 2⟩ }

def cfgCluster (b : Tbl Byte) (pos : Nat) : Option Cluster :=
  match cfgSecs b pos 15 with
  | d :: _ => some (parseCluster b d.ofs)
  | [] => none

/-- The telegram entries, unused ones among them (R327). -/
def cfgTelegrams (b : Tbl Byte) (pos : Nat) : List Telegram :=
  cfgTable b pos 16 48 fun a =>
    { dir := imgLe b a 1, ports := imgLe b (a + 1) 1, ogrp := imgLe b (a + 2) 1, queue := imgLe b (a + 3) 1, comId := imgLe b (a + 4) 4,
      dstIp := imgLe b (a + 8) 4, srcIp := imgLe b (a + 0xC) 4, srcMask := imgLe b (a + 0x10) 4, dstMac := tgetList byteD b (a + 0x14) 6,
      tag := imgLe b (a + 0x1A) 2, dlen := imgLe b (a + 0x1C) 2, srcOfs := imgLe b (a + 0x1E) 2, period := imgLe b (a + 0x20) 2,
      phase := imgLe b (a + 0x22) 2, launchUs := imgLe b (a + 0x24) 2, swap := imgLe b (a + 0x26) 1, topo := imgLe b (a + 0x27) 1 }

/-- The connection descriptors, unused ones among them (R341). -/
def cfgConns (b : Tbl Byte) (pos : Nat) : List IxsConn :=
  cfgTable b pos 17 32 fun a =>
    { connId := imgLe b a 4, sid := imgLe b (a + 4) 4, role := imgLe b (a + 8) 1, carrier := imgLe b (a + 9) 1, centry := imgLe b (a + 0xA) 2,
      dlen := imgLe b (a + 0xC) 2, ogrp := imgLe b (a + 0xE) 1, queue := imgLe b (a + 0xF) 1, msgOfs := imgLe b (a + 0x10) 2,
      seqWin := imgLe b (a + 0x12) 2, tExpUs := imgLe b (a + 0x14) 4, futUs := imgLe b (a + 0x18) 2, rejoinN := imgLe b (a + 0x1A) 1,
      errMax := imgLe b (a + 0x1B) 1, errWinS := imgLe b (a + 0x1C) 2, ackReq := (imgLe b (a + 0x1E) 1).testBit 0 }

/-- The bytes of a CAN FD block: 3,072 of the filter list, then 32 headers of 16 bytes (the model's layout). -/
def canBlock : Nat := 3584

/-- What the image holds for the message RAM of every controller (R361): controller * 16384 + RAM offset, and byte. -/
def cfgCanRam (b : Tbl Byte) (pos : Nat) : List (Nat × Byte) :=
  match cfgSecs b pos 18 with
  | d :: _ =>
    (List.range (d.len / canBlock)).flatMap fun n =>
      (List.range canBlock).map fun i =>
        (n * 16384 + (if i < 3072 then i else 0xC00 + (i - 3072) / 16 * 80 + (i - 3072) % 16), tget byteD b (d.ofs + n * canBlock + i))
  | [] => []

/-- The rack-list entries, unused ones among them (R390). -/
def cfgRack (b : Tbl Byte) (pos : Nat) : List RackEntry :=
  cfgTable b pos 19 16 fun a =>
    ⟨imgLe b a 1, imgLe b (a + 1) 1, imgLe b (a + 2) 1, imgLe b (a + 4) 4, imgLe b (a + 8) 2, imgLe b (a + 10) 2, imgLe b (a + 12) 2⟩

/-- The input-pair list: two input numbers an entry (the model's layout). -/
def cfgPairs (b : Tbl Byte) (pos : Nat) : List (Nat × Nat) := cfgTable b pos 20 2 fun a => (imgLe b a 1, imgLe b (a + 1) 1)

/-- The public keys (R457): KEY_ID and key. -/
def cfgKeys (b : Tbl Byte) (pos : Nat) : List (Nat × List Byte) := cfgTable b pos 25 36 fun a => (imgLe b a 4, tgetList byteD b (a + 4) 32)

/-- The entries in use, by their index. -/
def inUse {α : Type} [DecidableEq α] (use : α → Bool) (l : List α) : Tbl (Option α) :=
  tputs noneD [] ((indexed l).filterMap fun c => if use c.2 then some (c.1, some c.2) else none)

/-- The configuration of a rack position as far as it does not stand in registers. -/
def parseCfg (b : Tbl Byte) (pos : Nat) : Cfg :=
  let c := cfgCluster b pos
  { tgMt := (c.map fun x => x.tg).getD 0
    agr := tputs nilD [] (cfgAgr b pos)
    sigs := (cfgSignals b pos).filter fun e => e.kind != 0
    subst := cfgBytes b pos 24
    diPairs := cfgPairs b pos
    cluster := c
    telegrams := inUse (fun t => t.dir != 0) (cfgTelegrams b pos)
    conns := inUse (fun k => k.role != 0) (cfgConns b pos)
    canRam := tputs byteD [] (cfgCanRam b pos)
    rack := inUse (fun e => e.dir != 0) (cfgRack b pos) }

/-! ### Applying (R457) -/

/-- The bits of a register's CFG fields. -/
def cfgMask (r : RegRow) : Word := (r.fields.filter fun f => f.acc == .cfg).foldl (fun m f => m ||| fieldMask f.lo f.w) 0

/-- A register value with the fields that hold a least value at that value: HX_PWRPOL.PLL_GAP, TMB_CFG.FILT and SLEW_PPM, LRB_CFG.PF_AGE. -/
def cfgStored (off : Nat) (v : Word) : Word :=
  let least (f : Field) (n : Nat) (v : Word) : Word := if off = f.off ∧ fieldGet v f.lo f.w < n then fieldSet v f.lo f.w n else v
  least F.LRB_CFG_PF_AGE 1 (least F.TMB_CFG_SLEW_PPM 10 (least F.TMB_CFG_FILT 1
    ([0, 1, 2, 3].foldl (fun v p => least (F.HX_PWRPOL_PLL_GAP p) 50000 v) v)))

/-- A register-value entry is applied to the CFG fields of the register it names. -/
def State.applyReg (s : State) (e : Nat × Nat) : State :=
  match regRow e.1 with
  | some r => let m := cfgMask r; s.setReg e.1 (cfgStored e.1 ((s.reg e.1 &&& ~~~ m) ||| (BitVec.ofNat 32 e.2 &&& m)))
  | none => s

/-- The register values, VCU and tables of an image come into force. -/
def State.applyImage (s : State) (b : Tbl Byte) : State :=
  let s := (cfgRegs b s.ident.pos).foldl (fun (s : State) e => s.applyReg e) s
  let s := s.set F.TVL_CFG_VCU (imgLe b 0x14 1)
  { s with cfg := parseCfg b s.ident.pos }

/-- The frames of the pool: SRAM behind machine memory up to the queue region, without the retired ones (R134, R151). -/
def State.poolFrames (s : State) : List Nat :=
  ((List.range 7168).drop (s.get F.HXM_LAYOUT_MACH_PAGES)).filter fun f => !(s.hxm.retired.contains f)

/-- The page pool and the DDR home pages are laid out anew. -/
def State.layMemory (s : State) : State :=
  let f := s.poolFrames
  let s : State := { s with hxm := { s.hxm with
    pages := [], homeNext := s.get F.HXM_LAYOUT_MACH_DDR * 16384, homeFree := [], stq := [], staged := [], ops := [] } }
  ((s.setFree f).set F.HXM_POOL_SIZE f.length).set F.HXM_POOL_RETIRED (min s.hxm.retired.length 63)

/-- The queues enabled begin empty (R154). -/
def State.layQueues (s : State) : State :=
  let s := (List.range 64).foldl (fun (s : State) q => if s.flag (F.HXQ_CFG_EN q) then s.qInit (s.qgeo q) else s) s
  [0, 1, 2, 3, 4, 5].foldl (fun (s : State) n => [0, 1].foldl (fun (s : State) m =>
    if s.canFitted n && s.flag (F.CAN_RXQ_CFG_EN n m) then s.qInit (s.rxq n m) else s) s) s

/-- Filter lists and headers of supply-mode and bound-mode buffers are written to the message RAMs (R361). -/
def State.layCan (s : State) : State :=
  s.cfg.canRam.foldl (fun (s : State) (c : Nat × Byte) =>
    let n := c.1 / 16384
    let o := c.1 % 16384
    if s.canFitted n && (decide (o < 0xC00) || s.tbMode n ((o - 0xC00) / 80) != 0) then s.wr8 (canAddr n o) c.2 else s) s

/-- What follows once the registers and tables are in force. -/
def State.layOut (s : State) : State := s.layMemory.layQueues.layCan.tmbStart

end Sys2Proof.Machine
end

