-- ==== Sys2Proof/Machine/Seal.lean ====
section
/-!
DEFINITION. The checks of CONFIG_SEAL on a configuration image, its register values and its tables (R9, R158, R198, R221, R224, R235, R259,
R288, R311, R320, R328, R342, R375, R387, R390, R401, R406, R408, R415, R456, R457). They read a candidate state: the module with the
image's register values applied and its tables parsed, and the schedule image where one is at hand.
-/
namespace Sys2Proof.Machine

/-- A refusal: status, and SECTION, CHECK and INDEX of its error block (R444). -/
structure Fail where
  status : Nat
  sec : Nat
  check : Nat
  index : Nat
  deriving DecidableEq, Repr

/-- A condition that refuses with BAD_PARAM where it does not hold. -/
def need (ok : Bool) (sec check index : Nat) : Option Fail := if ok then none else some ⟨0x12, sec, check, index⟩
/-- A unit that must be fitted: ABSENT. -/
def needUnit (ok : Bool) (sec check index : Nat) : Option Fail := if ok then none else some ⟨0x21, sec, check, index⟩
/-- A format or check value: BAD_CHECK. -/
def needCheck (ok : Bool) (sec check index : Nat) : Option Fail := if ok then none else some ⟨0x13, sec, check, index⟩
/-- The first refusal of a list. -/
def firstFail (l : List (Option Fail)) : Option Fail := l.findSome? id
/-- The first refusal over the entries of a table, each with its index. -/
def failAt {α : Type} (l : List α) (f : Nat → α → List (Option Fail)) : Option Fail := (indexed l).findSome? fun c => firstFail (f c.1 c.2)
/-- The first refusal over the numbers below `n`. -/
def failBelow (n : Nat) (f : Nat → List (Option Fail)) : Option Fail := (List.range n).findSome? fun i => firstFail (f i)

/-- Two ranges share a byte. -/
def meets (a la b lb : Nat) : Bool := decide (a < b + lb ∧ b < a + la)
/-- A number lies in a closed range. -/
def within (lo hi n : Nat) : Bool := decide (lo ≤ n ∧ n ≤ hi)
/-- No key occurs twice. -/
def distinct {α : Type} [DecidableEq α] : List α → Bool
  | [] => true
  | a :: l => !(l.contains a) && distinct l

/-- The rack positions of the configuration. -/
def State.positions (s : State) : List Nat := if s.duplex then [1, 2] else if s.triplex then [1, 2, 3] else [s.ident.pos]
/-- Their mask, bit q − 1 for position q. -/
def State.posMask (s : State) : Nat := maskOf (s.positions.map fun q => q - 1)

/-- A range lies inside an enabled output group (TVL_OGRP_k). -/
def State.inOgrp (s : State) (k ofs len : Nat) : Bool :=
  decide (k < 16) && s.flag (F.TVL_OGRP_EN k) && decide (s.ogOfs k ≤ ofs ∧ ofs + len ≤ s.ogOfs k + s.ogLen k)

/-- A general queue in use with a given producer or consumer. -/
def State.qProd (s : State) (q c : Nat) : Bool := decide (q < 64) && s.flag (F.HXQ_CFG_EN q) && s.get (F.HXQ_CFG_PROD q) == c
def State.qCons (s : State) (q c : Nat) : Bool := decide (q < 64) && s.flag (F.HXQ_CFG_EN q) && s.get (F.HXQ_CFG_CONS q) == c
/-- Its slot payload in bytes. -/
def State.qPay (s : State) (q : Nat) : Nat := (s.qgeo q).esize - 8

/-! ### Header, directory and register values (R9, R456, R457) -/

/-- The checks of the image's header and trailer; `n` is the length written in the session, `scp` says that it was opened over the SCP. -/
def State.headerFail (s : State) (b : Tbl Byte) (n : Nat) (scp : Bool) : Option Fail :=
  firstFail [
    needCheck (imgLe b 0 4 == 0x50464743) 1 0 0,
    needCheck (imgLe b 4 2 == 1) 1 0 4,
    needCheck (imgLe b (n - 4) 4 == crc32c (tgetList byteD b 0 (n - 4))) 1 0 (n - 4),
    need (imgLe b 6 2 == 64) 1 0 6,
    need (imgLe b 8 4 == n) 1 0 8,
    need (imgLe b 0x0C 4 != 0) 1 0 0x0C,
    need (decide (imgLe b 0x14 1 < 3)) 1 0 0x14,
    need (decide (imgLe b 0x15 1 < 16)) 1 0 0x15,
    need (decide (imgLe b 0x16 1 < 4)) 1 0 0x16,
    need (within 1 64 (imgLe b 0x1C 2)) 1 0 0x1C,
    need (imgLe b 0x1E 2 == 0 && leNat (tgetList byteD b 0x24 28) == 0) 1 0 0x1E,
    needUnit (imgLe b 0x18 4 &&& cap0 s.ident.variant == imgLe b 0x18 4) 1 0 0x18,
    needUnit (decide (imgLe b 0x17 1 ≤ cap1 s.ident / 0x10000 % 256)) 1 0 0x17,
    failAt (cfgDir b) fun i d => [
      need ([2, 11, 12, 15, 16, 17, 18, 19, 20, 24, 25, 26].contains d.ty) 1 0 i,
      need (decide (d.pos < 4 ∧ d.ofs + d.len + 4 ≤ n)) 1 0 i,
      need (d.ty != 25 || (d.len % 36 == 0 && decide (d.len ≤ 72))) 25 0 i,
      need (d.ty != 26 || (d.len == 36 && scp)) 26 0 i]]

/-- The register-value entries (R457, R524). -/
def State.regsFail (s : State) (l : List (Nat × Nat)) : Option Fail :=
  failAt l fun i e => [
    need (decide (e.1 < 0x100000)) 2 0 i,
    needUnit (s.offFitted e.1) 2 0 i,
    match regRow e.1 with
    | some r => need (cfgMask r != 0 && BitVec.ofNat 32 e.2 &&& ~~~ (cfgMask r) == 0) 2 0 i
    | none => some ⟨0x12, 2, 0, i⟩]

/-- Values that a register's own table bounds (R125, R413, R415, R499). -/
def State.valuesFail (s : State) : Option Fail :=
  firstFail [
    need (within 16 4096 (s.get F.HXM_LAYOUT_MACH_PAGES)) 2 0 0x30000,
    need (decide (s.get F.HXM_LAYOUT_MACH_DDR ≤ if s.ident.variant = .tvm9210 then 16 else 32)) 2 0 0x30000,
    need (within 120 220 (s.get F.PWR_BUDGET_CFG_DEFAULT)) 2 0 0xF000C,
    need (within 1 60 (s.get F.SIO_OTCFG_OT_PERIOD_S) && within 100 500 (s.get F.SIO_OTCFG_OTW)) 2 0 0xC0010,
    need (within 100 4400 (s.get F.SIO_FSCFG_BUDGET)) 2 0 0xC0014,
    failBelow 8 fun r => [need (!(s.flag (F.ETH_RULE_EN r)) || decide (1534 ≤ s.qPay (s.get (F.ETH_RULE_QUEUE r)))) 2 0 r]]

/-! ### General queues (R158) -/

/-- A code of the table of R158 whose unit is fitted. -/
def State.endpointOk (s : State) (c : Nat) : Bool :=
  if c < 0x100 then true
  else if c < 0x102 then s.engineFitted (c - 0x100)
  else if 0x108 ≤ c ∧ c < 0x10C then s.pairFitted (c - 0x108)
  else if 0x130 ≤ c ∧ c < 0x136 then s.canFitted (c - 0x130)
  else if c = 0x122 then s.cap 9
  else if c = 0x123 then s.lrbFitted
  else if c = 0x124 then s.sioFitted
  else [0x110, 0x111, 0x120, 0x121, 0x125, 0x1FF].contains c

def State.queuesFail (s : State) : Option Fail :=
  let en (q : Nat) : Bool := s.flag (F.HXQ_CFG_EN q)
  let size (q : Nat) : Nat := (s.qgeo q).depth * (s.qgeo q).esize
  failBelow 64 fun q => [
    need (s.endpointOk (s.get (F.HXQ_CFG_PROD q)) && s.endpointOk (s.get (F.HXQ_CFG_CONS q))) 14 1 q,
    need (!(en q) || (within 1 12 (s.get (F.HXQ_CFG_DEPTH_LOG2 q)) && within 4 12 (s.get (F.HXQ_CFG_ESIZE_LOG2 q)) && decide (size q ≤ 0x100000 ∧
      s.get (F.HXQ_BASE_PAGE q) * 4096 + size q ≤ 0x300000) && s.get (F.HXQ_BASE_PAGE q) * 4096 % min (size q) 4096 == 0)) 14 2 q,
    need (!(en q) || (List.range q).all fun p => !(en p) || !(meets (s.qgeo q).addr (size q) (s.qgeo p).addr (size p))) 14 2 q,
    need (!(en q) || decide (s.get (F.HXQ_WM_LOW q) < s.get (F.HXQ_WM_HIGH q) ∧ s.get (F.HXQ_WM_HIGH q) ≤ (s.qgeo q).depth)) 14 3 q,
    need (!(en q) || s.get (F.HXQ_CFG_PROD q) != s.get (F.HXQ_CFG_CONS q)) 14 4 q]

/-! ### Signal map and agreement maps (R197, R198, R221) -/

/-- The quality bytes of a group. -/
def qualBytes (l : List SigEntry) (g : Nat) : List Nat := (l.filter fun e => e.group == g && e.qualOfs != 0xFFFF).map fun e => e.qualOfs

/-- The bytes of two entries of one group meet: data or quality bytes. -/
def sigMeets (a c : SigEntry) : Bool :=
  a.group == c.group && (meets a.imgOfs a.len c.imgOfs c.len
    || (a.qualOfs != 0xFFFF && meets a.qualOfs 1 c.imgOfs c.len) || (c.qualOfs != 0xFFFF && meets c.qualOfs 1 a.imgOfs a.len)
    || (a.qualOfs != 0xFFFF && a.qualOfs == c.qualOfs))

/-- What a source needs of its own unit's table (R288, R328, R342, R375, R390, R406). -/
def State.sigSource (s : State) (i : Nat) (e : SigEntry) : Option Fail :=
  match e.kind with
  | 1 => firstFail [need (match s.cfg.cluster with | some c => (match c.desc e.srcId with | some d => decide (e.len ≤ d.rxbuf) | none => false) | none => false) 15 12 e.srcId]
  | 2 => firstFail [need (match tget noneD s.cfg.telegrams e.srcId with | some t => t.dir == 2 && decide (e.len ≤ t.dlen) | none => false) 16 5 i]
  | 3 =>
    let n := e.srcId / 256
    let o := n * 16384 + 12 * (e.srcId % 256)
    firstFail [needUnit (s.canFitted n) 18 1 i,
      need (decide (e.len ≤ 64) && (imgLe s.cfg.canRam (o + 8) 4).testBit 23) 18 5 i]
  | 4 => firstFail [need s.sioFitted 11 1 i, need (decide (e.srcId < 16) && s.flag (F.SIO_DICFG_EN e.srcId)) 20 5 e.srcId]
  | 5 => firstFail [need s.lrbFitted 11 1 i,
      need (match tget noneD s.cfg.rack e.srcId with | some t => t.dir == 1 && decide (e.len ≤ t.len) | none => false) 19 4 i]
  | 6 => firstFail [need (match tget noneD s.cfg.conns e.srcId with | some c => c.role == 2 && decide (e.len ≤ c.dlen) && e.subst != 1 | none => false) 17 7 e.srcId]
  | 7 => firstFail [need (e.srcId == 0 && e.len == 16) 11 0 i]
  | _ => some ⟨0x12, 11, 0, i⟩

/-- The signal map; `inB g` is IN_BYTES of a group where the schedule image is at hand. -/
def State.signalsFail (s : State) (l : List SigEntry) (inB : Option (Nat → Nat)) : Option Fail :=
  failAt l fun i e =>
    if e.kind = 0 then [] else [
      need (decide (e.group < 4 ∧ e.subst < 3 ∧ 1 ≤ e.missLimit) && within 1 254 e.len && within 1 15 e.rejoin) 11 0 i,
      s.sigSource i e,
      match inB with
      | some f => need (decide (e.imgOfs + e.len ≤ f e.group) && (e.qualOfs == 0xFFFF || decide (e.qualOfs < f e.group))) 11 2 i
      | none => none,
      need ((l.take i).all fun c => c.kind == 0 || !(sigMeets e c)) 11 3 i,
      need (!(decide (e.imgOfs ≤ e.qualOfs ∧ e.qualOfs < e.imgOfs + e.len))) 11 3 i,
      need ((l.take i).all fun c => !(c.kind == 1 && e.kind == 1 && c.srcId == e.srcId) || (c.missLimit == e.missLimit && c.rejoin == e.rejoin)) 11 4 i]

/-- The agreement maps in duplex and triplex. -/
def State.agrFail (s : State) (l : List SigEntry) (inB : Option (Nat → Nat)) : Option Fail :=
  if s.simplex then none else
  failBelow 4 fun g =>
    let m := tget nilD s.cfg.agr g
    let quals := qualBytes (l.filter fun e => e.kind != 0) g
    [failAt m fun i e => [
      need (decide (e.cls < 8 ∧ e.two < 2 ∧ i < 512)) 12 0 (g * 65536 + i),
      need (match inB with | some f => decide (e.ofs + e.len ≤ f g) | none => true) 12 1 (g * 65536 + i),
      need ((m.take i).all fun c => !(meets e.ofs e.len c.ofs c.len)) 12 1 (g * 65536 + i),
      need (e.ofs % max 1 (agrUnit e.cls) == 0 && e.len % max 1 (agrUnit e.cls) == 0) 12 2 (g * 65536 + i),
      need (e.cls != 7 || (List.range e.len).all fun j => quals.contains (e.ofs + j)) 12 4 (g * 65536 + i)],
     need (quals.all fun q => m.any fun e => e.cls == 7 && decide (e.ofs ≤ q ∧ q < e.ofs + e.len)) 12 3 (g * 65536 + 0xFFFF)]

/-! ### Output groups (R224, R235) -/

/-- `outB g` is OUT_BYTES of a cycle group where the schedule image is at hand; the state's schedule is then that image. -/
def State.ogrpFail (s : State) (outB : Option (Nat → Nat)) : Option Fail :=
  let en (k : Nat) : Bool := s.flag (F.TVL_OGRP_EN k)
  let pi := match s.cfg.cluster with | some c => c.pi | none => 0
  failBelow 16 fun k =>
    let g := s.get (F.TVL_OGRP_CGRP k)
    if !(en k) then [] else [
      need (match outB with | some f => decide (s.ogOfs k + s.ogLen k ≤ f g) | none => true) 13 1 k,
      need ((List.range k).all fun j => !(en j) || s.get (F.TVL_OGRP_CGRP j) != g || !(meets (s.ogOfs k) (s.ogLen k) (s.ogOfs j) (s.ogLen j))) 13 2 k,
      need (s.positions.contains (s.get (F.TVL_OGRP_PREF k))) 13 3 k,
      need (s.get (F.TVL_LTIME_TL_MT k) == 0 || within 8000 4000000 (s.get (F.TVL_LTIME_TL_MT k))) 13 0 k,
      if outB.isSome then need (decide (3 * s.tc g ≤ s.tL k)) 13 4 k else none,
      if outB.isSome then need (decide (2 * s.tL k + 10000 * pi + 24000000 ≤ 10000 * s.tGuard k)) 13 5 k else none]

/-! ### The Gheif section (R254, R259, R288) -/

/-- A position transmits a slot ID. -/
def SlotDesc.by (d : SlotDesc) (q : Nat) : Bool := decide (0 < q) && d.txPos.testBit (q - 1)

/-- The defined modes. -/
def Cluster.modeList (c : Cluster) : List Nat := (List.range 8).filter fun m => c.modes.testBit m
/-- The slot IDs of a mode's position table on a channel. -/
def Cluster.ids (c : Cluster) (m ch : Nat) : List Nat := ((List.range c.nStatic).map fun p => c.at_ m ch (p + 1)).filter fun i => i != 0

/-- The ranges of R254; INDEX is the parameter's offset in the cluster block. -/
def clusterRanges (c : Cluster) : Option Fail :=
  firstFail ([(within 1000 64000 c.tg, 0x00), (within 16 400 c.sw, 0x04), (within 1 1023 c.nStatic, 0x06), (within 16 2000 c.slot, 0x08),
    (within 1 64 c.ap, 0x0A), (within 1 64 c.tail, 0x0B), (c.nMini == 0 || within 2 4095 c.nMini, 0x0C), (within 4 64 c.ms, 0x0E),
    (within 1 (c.ms - 1) c.msAp, 0x0F), (within 2 1023 c.dynFirst, 0x10), (within 16 1600 c.pi, 0x12), (within 1 (c.pi / 2) c.ofsLimit, 0x14),
    (within 1 200 c.rateLimit, 0x16), (within 1 15 c.syncMin, 0x17), (within 1 3 c.csNodes, 0x18), (within 4 64 c.backoff, 0x19),
    (within 1 31 c.csAttempts, 0x1A), (within 1 31 c.passiveReturn, 0x1B), (within (2 * c.tg) (16 * c.tg) c.listen, 0x1C),
    (within 2 255 c.passiveMax, 0x20), ([1, 2, 4, 8, 16, 32, 64].contains c.modeAlign, 0x21), (decide (c.startMode < 8), 0x22),
    (c.modes.testBit c.startMode, 0x23), (within 1 1023 c.slots.length, 0x24)].map fun x => need x.1 15 0 x.2)

/-- R259 on the parameters: checks 1 to 5 and 8. Times in units of 10^-6 ns, or of a quarter of a nanosecond. -/
def State.clusterFit (s : State) (c : Cluster) : Option Fail :=
  let used := c.sw + c.nStatic * c.slot + c.nMini * c.ms
  let margin := c.pi * 1250000 + 101 * c.tg * 250 + 50000000
  firstFail [
    need (decide (used + 8 + (c.ofsLimit + 199) / 200 ≤ c.tg)) 15 1 0x14,
    need (decide (margin ≤ c.ap * 250000000)) 15 2 0x0A,
    need (decide (margin ≤ c.tail * 250000000)) 15 2 0x0B,
    need (decide (margin ≤ c.msAp * 250000000)) 15 2 0x0F,
    failAt c.slots fun _ d =>
      if d.id < c.dynFirst then [need (decide ((10 + 2 * d.plen) * 400 + 5 * c.pi + (c.ap + c.tail) * 1000 ≤ c.slot * 1000)) 15 3 d.id]
      else [need (decide ((10 + 2 * d.plen) * 100 + 2 * c.ms * 250 ≤ (c.nMini - 1) * c.ms * 250)) 15 4 d.id],
    need (decide ((c.ap + c.tail) * 1000 + 5600 + 5 * c.pi ≤ c.sw * 1000)) 15 5 0x04,
    need (s.simplex || decide (c.pi ≤ 160)) 15 8 0x12]

/-- R259 on tables and nodes: checks 6 and 7; a table naming channel B where it is not fitted is ABSENT. -/
def State.clusterTables (s : State) (c : Cluster) : Option Fail :=
  let syncs := c.slots.filter fun d => d.sflags.testBit 0
  let colds := c.slots.filter fun d => d.sflags.testBit 1
  let node (q : Nat) : GhNode := c.nodes.getD (q - 1) ⟨0, 0, 0, 0, 0⟩
  let nodeOf (i : Nat) : Option GhNode := (s.positions.find? fun q => decide (0 < q) && (node q).syncId == i).map node
  firstFail [
    failAt c.modeList fun _ m => [
      needUnit (s.chFitted 1 || (c.ids m 1).isEmpty) 15 6 m,
      need (distinct (c.ids m 0) && distinct (c.ids m 1)) 15 6 m,
      need ((c.ids m 0 ++ c.ids m 1).all fun i => decide (i < c.dynFirst)) 15 6 m,
      failAt syncs fun _ d => [
        need (match nodeOf d.id with
          | some n => (!(n.flags.testBit 1) || (c.ids m 0).contains d.id) && (!(n.flags.testBit 2) || !(s.chFitted 1) || (c.ids m 1).contains d.id)
          | none => (c.ids m 0).contains d.id || (c.ids m 1).contains d.id) 15 6 d.id]],
    failAt syncs fun _ d => [need (d.ogrp == 0xFF) 15 6 d.id],
    need (colds.length == c.csNodes && decide (c.csNodes ≤ syncs.length ∧ syncs.length ≤ 15 ∧ c.syncMin ≤ syncs.length)) 15 7 0x18,
    failAt colds fun _ d => [need (d.sflags.testBit 0) 15 7 d.id],
    failAt (s.positions.filter fun q => decide (0 < q)) fun _ q =>
      let n := node q
      [need (decide (n.flags < 8 ∧ n.delayA ≤ 400 ∧ n.delayB ≤ 400)) 15 0 q,
       need (!(n.flags.testBit 0) || n.syncId != 0) 15 7 q,
       need (n.syncId == 0 || (match c.desc n.syncId with
         | some d => d.sflags.testBit 0 && d.sflags.testBit 1 == n.flags.testBit 0 && d.txPos == 2 ^ (q - 1)
         | none => false)) 15 7 n.syncId]]

/-- Bytes of message memory that a position needs (R288): each half of a double buffer holds 16 + RXBUF bytes, rounded up to 64. -/
def Cluster.memory (c : Cluster) (q : Nat) : Nat :=
  c.slots.foldl (fun a d => a + (if d.rxbuf = 0 then 0 else 2 * roundUp (16 + d.rxbuf) 64)
    + (if d.txmode = 1 ∧ d.ogrp = 0xFF ∧ d.by q then roundUp d.cap 64 else 0)) 0

/-- R288: its seven checks, numbered 9 to 15 after those of R259. -/
def State.slotsFail (s : State) (c : Cluster) : Option Fail :=
  let all := c.modeList.flatMap fun m => c.ids m 0 ++ c.ids m 1
  let node (q : Nat) : Nat := (c.nodes.getD (q - 1) ⟨0, 0, 0, 0, 0⟩).syncId
  firstFail [
    failAt all fun _ i => [need (c.desc i).isSome 15 9 i],
    need (distinct (c.slots.map fun d => d.id)) 15 9 0x2C,
    failAt c.slots fun i d => [
      need (within 1 1023 d.id && decide (d.plen < 128 ∧ d.txPos < 8 ∧ d.dchan < 4 ∧ d.sflags < 4)) 15 0 d.id,
      needUnit (s.chFitted 1 || !(d.dchan.testBit 1)) 15 9 d.id,
      need (if d.id < c.dynFirst then d.dchan == 0 else d.dchan != 0) 15 9 d.id,
      need (d.ogrp != 0xFF || [0, 1, 2, 4].contains d.txPos) 15 10 d.id,
      need (!(d.sflags.testBit 0) || (d.ogrp == 0xFF && [1, 2, 3].all fun q => !(d.by q) || node q == d.id)) 15 10 d.id,
      need (d.ogrp == 0xFF || (s.inOgrp d.ogrp d.srcOfs (2 * d.plen) && d.txPos == s.posMask)) 15 11 d.id,
      need (d.rxbuf == 0 || decide (c.dynFirst ≤ d.id) || decide (d.cap ≤ d.rxbuf)) 15 12 d.id,
      need (d.queue == 0xFF || (if d.by s.ident.pos && d.ogrp == 0xFF then s.qCons d.queue 0x120
        else d.rxbuf == 0 || (s.qProd d.queue 0x120 && decide (16 + d.rxbuf ≤ s.qPay d.queue)))) 15 13 d.id,
      need (decide (d.txmode < 2) && (d.txmode == 0 || (decide (d.id < c.dynFirst) && d.ogrp == 0xFF)) && [0, 2, 4, 8].contains d.swap) 15 14 d.id,
      need (decide (64 ≤ d.queue) || !((c.slots.take i).any fun x => x.queue == d.queue)) 15 13 d.id],
    failAt s.positions fun _ q => [need (decide (c.memory q ≤ 0x40000)) 15 15 q]]

def State.gheifFail (s : State) : Option Fail :=
  match s.cfg.cluster with
  | some c => firstFail [clusterRanges c, s.clusterFit c, s.clusterTables c, s.slotsFail c]
  | none => none

/-! ### Timebase (R311) -/

def State.tmbFail (s : State) : Option Fail :=
  let tx := s.get F.TMB_GTIME_TX_ID
  let a := s.get F.TMB_GTIME_ID_A
  let b := s.get F.TMB_GTIME_ID_B
  let src := [s.get F.TMB_SRC_SRC0, s.get F.TMB_SRC_SRC1, s.get F.TMB_SRC_SRC2]
  let desc (i : Nat) : Option SlotDesc := match s.cfg.cluster with | some c => if i < c.dynFirst then c.desc i else none | none => none
  let rx (i : Nat) : Bool := i == 0 || (match desc i with | some d => decide (20 ≤ d.rxbuf) | none => false)
  firstFail [
    need (tx == 0 || (match desc tx with
      | some d => d.by s.ident.pos && d.ogrp == 0xFF && d.txmode == 0 && d.plen == 10 && s.qProd d.queue 0x110 && s.qCons d.queue 0x120
      | none => false)) 2 1 0x70028,
    need (rx a && rx b) 2 2 0x70028,
    need (tx == 0 || (a != tx && b != tx)) 2 3 0x70028,
    need (!(src.contains 2 && a == 0) && !(src.contains 3 && b == 0)) 2 4 0x70008,
    need (!(src.contains 4) || s.get F.ETH_PTP_CFG_MODE != 0) 2 5 0x70008,
    need (src.all (fun c => decide (c < 6)) && distinct (src.filter fun c => c != 0) &&
      (src.dropWhile fun c => c != 0).all (fun c => c == 0)) 2 6 0x70008]

/-! ### Telegrams (R327, R328) -/

def State.telegramsFail (s : State) (b : Tbl Byte) (l : List Telegram) : Option Fail :=
  let mem := l.foldl (fun a t => a + (if t.dir = 2 then roundUp (2 * (16 + t.dlen)) 64 else if t.dir = 1 ∧ t.ogrp = 0xFF then roundUp t.dlen 64 else 0)) 0
  firstFail [
    failAt l fun i t => if t.dir = 0 then [] else [
      need (decide (i < 512 ∧ t.dir < 3 ∧ t.ports < 16 ∧ t.dlen ≤ 1432 ∧ t.launchUs ≤ 16000) && t.dlen % 4 == 0 && !(t.tag.testBit 12)
        && [0, 2, 4, 8].contains t.swap && decide (t.topo < 4)) 16 0 i,
      need (t.dir != 1 || t.ogrp != 0xFF || (within 1 1024 t.period && decide (t.phase < t.period))) 16 0 i,
      need ([0, 1, 2, 3].all fun n => !(t.ports.testBit n) || s.ethFitted n) 16 1 i,
      need (t.dir != 1 || t.ogrp == 0xFF || (s.inOgrp t.ogrp t.srcOfs t.dlen &&
        s.positions.all fun q => ((cfgTelegrams b q).map fun x => x.ports)[i]? == some t.ports)) 16 2 i,
      need (t.dir != 2 || (l.take i).all fun x => !(x.dir == 2 && x.ports &&& t.ports != 0 && x.comId == t.comId && x.dstIp == t.dstIp
        && x.srcIp == t.srcIp && x.srcMask == t.srcMask)) 16 3 i,
      need (if t.dir = 2 then t.queue == 0xFF || (s.qProd t.queue 0x121 && decide (16 + t.dlen ≤ s.qPay t.queue))
        else t.ogrp != 0xFF || s.qCons t.queue 0x121) 16 4 i],
    need (decide (mem ≤ 0x80000)) 16 6 0xFFFFFFFF]

/-! ### Ixsum connections (R342) -/

/-- What a connection's carrier entry says: length fits, binding, supply and delivery queue. -/
structure Carrier where
  fits : Bool
  ogrp : Nat
  ofs : Nat
  queue : Nat

/-- The carrier entry of a connection; `none` where it does not exist. Checks 2 to 4. -/
def State.carrier (s : State) (c : IxsConn) : Option (Nat × Carrier) :=
  let m := 20 + c.dlen
  match c.carrier with
  | 1 => match s.cfg.cluster with
    | some k => (k.desc c.centry).map fun d =>
        (2, ⟨!(d.sflags.testBit 0) && (if d.id < k.dynFirst then d.cap == m else decide (m ≤ d.cap)) && (c.role != 2 || decide (m ≤ d.rxbuf)),
          d.ogrp, d.srcOfs, d.queue⟩)
    | none => none
  | 2 => (tget noneD s.cfg.telegrams c.centry).map fun t => (3, ⟨t.dlen == m, t.ogrp, t.srcOfs, t.queue⟩)
  | 3 =>
    let n := c.centry / 256
    let e := c.centry % 256
    let ok : Bool := [20, 24, 32, 48, 64].contains m
    if c.role = 1 then
      if e < 32 then
        let hdrLen := imgLe s.cfg.canRam (n * 16384 + 0xC00 + 80 * e + 12) 1
        some (4, ⟨ok && hdrLen == m, if s.tbMode n e = 2 then s.get (F.CAN_TBCFG_OGRP n e) else 0xFF,
          s.get (F.CAN_TBCFG_SRC_OFS8 n e) * 8, s.get (F.CAN_TBCFG_QUEUE n e)⟩)
      else none
    else some (4, ⟨ok, 0xFF, 0, imgLe s.cfg.canRam (n * 16384 + 12 * e + 11) 1⟩)
  | _ => none

def State.connsFail (s : State) (l : List IxsConn) : Option Fail :=
  failAt l fun i c => if c.role = 0 then [] else
    let m := 20 + c.dlen
    [need (decide (i < 256 ∧ c.role < 3) && within 1 3 c.carrier && c.connId != 0 && decide (c.dlen ≤ 1024) && c.dlen % 4 == 0) 17 1 i,
     need (c.role == 1 || (c.ogrp == 0xFF && within 1 65535 c.seqWin && within 250 60000000 c.tExpUs && decide (c.futUs ≤ 10000)
       && within 1 15 c.rejoinN && within 1 65535 c.errWinS)) 17 1 i,
     need (c.role == 2 || c.ogrp == 0xFF || c.msgOfs % 8 == 0) 17 1 i,
     need ((l.take i).all fun x => !(x.connId == c.connId && x.role == c.role)) 17 1 i,
     if c.carrier = 3 then needUnit (s.canFitted (c.centry / 256)) 18 1 i else none,
     match s.carrier c with
     | none => some ⟨0x12, 17, c.carrier + 1, i⟩
     | some (k, x) => firstFail [
         need x.fits 17 k i,
         need (c.role == 2 || (if c.ogrp = 0xFF then x.ogrp == 0xFF else x.ogrp == c.ogrp && x.ofs == c.msgOfs && s.inOgrp c.ogrp c.msgOfs m)) 17 5 i,
         need (if c.role = 1 then c.ogrp != 0xFF || (s.qProd x.queue 0x122 && s.qCons c.queue 0x122)
           else s.qCons x.queue 0x122 && (c.queue == 0xFF || (s.qProd c.queue 0x122 && decide (16 + c.dlen ≤ s.qPay c.queue)))) 17 6 i]]

/-! ### CAN FD (R375) -/

/-- Bit timing: BRP and bit length in quanta of the nominal and the data phase. -/
def State.canTiming (s : State) (n : Nat) : Bool :=
  let f (x : Field) : Nat := s.get x + 1
  let nb := f (F.CAN_NBT_NBRP n) * (1 + f (F.CAN_NBT_NTSEG1 n) + f (F.CAN_NBT_NTSEG2 n))
  let db := f (F.CAN_DBT_DBRP n) * (1 + f (F.CAN_DBT_DTSEG1 n) + f (F.CAN_DBT_DTSEG2 n))
  decide (80 ≤ nb ∧ 10 ≤ db ∧ f (F.CAN_NBT_NSJW n) ≤ f (F.CAN_NBT_NTSEG2 n) ∧ f (F.CAN_DBT_DSJW n) ≤ f (F.CAN_DBT_DTSEG2 n) ∧
    f (F.CAN_DBT_DBRP n) ≤ f (F.CAN_NBT_NBRP n)) && (s.flag (F.CAN_TDC_EN n) || decide (80 ≤ db))

/-- A filter element of the image: its three words. -/
def State.cfgFilter (s : State) (n e i : Nat) : Nat := imgLe s.cfg.canRam (n * 16384 + 12 * e + 4 * i) 4

def State.canFilters (s : State) (n : Nat) : Option Fail :=
  failBelow 256 fun e =>
    let w0 := s.cfgFilter n e 0
    let w1 := s.cfgFilter n e 1
    let w2 := s.cfgFilter n e 2
    let act := w1 / 2 ^ 29
    let q := w2 / 2 ^ 24
    if w0 / 2 ^ 30 = 0 then [] else [
      need (decide (act < 5) && w2 / 2 ^ 16 % 128 == 0 && w2 % 256 == 0 && [0, 2, 4, 8].contains (w2 / 256 % 256)) 18 3 (n * 1024 + e),
      need (act != 3 || (s.qProd q (0x130 + n) && decide (80 ≤ s.qPay q))) 18 3 (n * 1024 + e),
      need (act == 3 || q == 0xFF) 18 3 (n * 1024 + e),
      need (act != 4 || w2.testBit 23) 18 3 (n * 1024 + e),
      need (!(act == 1 || act == 2) || s.flag (F.CAN_RXQ_CFG_EN n (act - 1))) 18 3 (n * 1024 + e)]

def State.canRxqs (s : State) (n : Nat) : Option Fail :=
  let latches := ((List.range 256).filter fun e => s.cfgFilter n e 0 / 2 ^ 30 != 0 && (s.cfgFilter n e 2).testBit 23).length
  let en (m : Nat) : Bool := s.flag (F.CAN_RXQ_CFG_EN n m)
  let ofs (m : Nat) : Nat := s.get (F.CAN_RXQ_CFG_BASE n m) * 64
  let size (m : Nat) : Nat := (s.rxq n m).depth * (s.rxq n m).esize
  failBelow 2 fun m => if !(en m) then [] else [
    need (within 5 7 (s.get (F.CAN_RXQ_CFG_ESIZE_LOG2 n m))) 18 4 (n * 1024 + m),
    need (decide (0x1600 ≤ ofs m ∧ ofs m + size m + 160 * latches ≤ 0x4000) && ofs m % min (size m) 4096 == 0) 18 4 (n * 1024 + m),
    need (m == 0 || !(en 0) || !(meets (ofs 0) (size 0) (ofs 1) (size 1))) 18 4 (n * 1024 + m),
    need (within 1 12 (s.get (F.CAN_RXQ_CFG_DEPTH_LOG2 n m)) && s.pairFitted (s.get (F.CAN_RXQ_CFG_PAIR n m))) 18 4 (n * 1024 + m)]

def State.canBuffers (s : State) (n : Nat) : Option Fail :=
  let queues := ((List.range 32).filter fun b => s.tbMode n b == 1).map fun b => s.get (F.CAN_TBCFG_QUEUE n b)
  let txq := s.get (F.CAN_TXQ_QUEUE n)
  firstFail [
    failBelow 32 fun b =>
      let d := tgetList byteD s.cfg.canRam (n * 16384 + 0xC00 + 80 * b) 16
      let len := fieldLe d 12 1
      let mode := s.tbMode n b
      if mode = 0 then [] else [
        need (decide (mode < 3) && descOk d) 18 6 (n * 1024 + b),
        need (mode != 1 || (s.qCons (s.get (F.CAN_TBCFG_QUEUE n b)) (0x130 + n) && !((fieldLe d 13 1).testBit 0))) 18 6 (n * 1024 + b),
        need (mode != 2 || (s.inOgrp (s.get (F.CAN_TBCFG_OGRP n b)) (s.get (F.CAN_TBCFG_SRC_OFS8 n b) * 8) len
          && decide (fieldLe d 4 4 ≤ 16000) && fieldLe d 8 4 == 0)) 18 6 (n * 1024 + b)],
    need (distinct queues && !(queues.contains txq)) 18 6 (n * 1024),
    need (decide (64 ≤ txq) || (s.qCons txq (0x130 + n) && decide (80 ≤ s.qPay txq))) 18 7 (n * 1024)]

def State.canFail (s : State) : Option Fail :=
  failBelow 6 fun n => if !(s.flag (F.CAN_CFG_EN n)) then [] else [
    needUnit (s.canFitted n) 18 1 n, need (s.canTiming n) 18 2 n, s.canFilters n, s.canRxqs n, s.canBuffers n]

/-! ### Rack bridge (R387, R390) -/

def State.rackFail (s : State) (l : List RackEntry) : Option Fail :=
  let base := s.get F.LRB_INWIN_BASE * 65536
  let size := s.get F.LRB_INWIN_SIZE * 65536
  let en := s.flag F.LRB_INWIN_EN
  let t := s.get F.LRB_INWIN_TGT_TGT * 65536
  let inside (lo hi : Nat) : Bool := decide (lo ≤ t ∧ t + size ≤ hi)
  firstFail [
    need (!en || (decide (0 < size) && (inside 0x10000000 (0x10000000 + s.get F.HXM_LAYOUT_MACH_PAGES * 4096) || inside 0x11C00000 0x11F00000
      || inside 0x8000000000 (0x8000000000 + s.get F.HXM_LAYOUT_MACH_DDR * 0x4000000)))) 2 1 0xB0014,
    failAt l fun i e => if e.dir = 0 then [] else
      let al := if e.conv = 2 then 4 else 2
      [need (s.lrbFitted && decide (i < 128 ∧ e.dir < 3 ∧ e.conv < 3 ∧ e.addr < 2 ^ 24) && e.addr % al == 0 && e.len % al == 0 && within 2 254 e.len) 19 1 i,
       need (if e.dir = 1 then e.ogrp == 0xFF && e.srcOfs == 0 && decide (e.startUs * usUt < s.tg) else e.startUs == 0 && decide (e.ogrp < 16)) 19 1 i,
       need (!en || !(meets e.addr e.len base size)) 19 2 i,
       need (e.dir == 1 || s.inOgrp e.ogrp e.srcOfs e.len) 19 3 i]]

/-! ### Local safety I/O (R401, R406, R408, R415) -/

/-- t_IF of an input in microseconds (R403). -/
def State.tIf (s : State) (n : Nat) : Nat :=
  s.get (F.SIO_DICFG_FCNT n) * 10 + 40 + (if s.get (F.SIO_DICFG_TPSEL n) < 4 then s.get F.SIO_TPCFG_TPW + 50 else 0)

def State.sioFail (s : State) : Option Fail :=
  let tps := s.get F.SIO_TPCFG_EN
  let en (n : Nat) : Bool := s.flag (F.SIO_DICFG_EN n)
  let sel (n : Nat) : Nat := s.get (F.SIO_DICFG_TPSEL n)
  let don (m : Nat) : Bool := s.flag (F.SIO_DOCFG_EN m)
  let bit (m : Nat) : Nat := s.get (F.SIO_DOCFG_BITADDR m)
  let grp (m : Nat) : Nat := s.get (F.SIO_DOCFG_OGRP m)
  if !s.sioFitted then none else firstFail [
    need (within 100 1000 (s.get F.SIO_TPCFG_TPW)) 20 1 0xFF,
    need (within 10 1000 (s.get F.SIO_TPCFG_TPP) && decide (8 * s.get F.SIO_TPCFG_TPW ≤ 1000 * s.get F.SIO_TPCFG_TPP)) 20 2 0xFF,
    failBelow 16 fun n => if !(en n) then [] else [
      need (decide (sel n < 5) && (sel n == 4 || tps.testBit (sel n))) 20 3 n],
    failAt s.cfg.diPairs fun _ p => [need (!(en p.1 && en p.2) || decide (4 ≤ sel p.1) || sel p.1 != sel p.2) 20 4 p.1],
    failBelow 16 fun n => if !(en n) then [] else [
      need (s.get (F.SIO_DICFG_FCNT n) != 0) 20 6 n,
      need (decide (2 * s.tIf n ≤ 1000 * s.get (F.SIO_DICFG_DISC_T n))) 20 7 n],
    failBelow 8 fun m => if !(don m) then [] else [
      need (s.flag (F.TVL_OGRP_EN (grp m))) 20 8 m,
      need (s.inOgrp (grp m) (bit m / 8) 1) 20 9 m,
      need ((List.range m).all fun j => !(don j) || !(bit j == bit m && s.get (F.TVL_OGRP_CGRP (grp j)) == s.get (F.TVL_OGRP_CGRP (grp m)))) 20 10 m,
      need (within 1 10 (s.get (F.SIO_DOCFG_LOAD m))) 20 11 m],
    need (decide (((List.range 8).filter don).foldl (fun a m => a + 50 * s.get (F.SIO_DOCFG_LOAD m)) 0
      + 100 * ((List.range 4).filter fun k => tps.testBit k).length ≤ s.get F.SIO_FSCFG_BUDGET)) 20 12 0xFF]

/-! ### Engines (R174) -/

/-- The maps and queues of an engine, which need no schedule image. -/
def State.mapsFail (s : State) : Option Fail :=
  failBelow 2 fun e => if !(s.engineFitted e) then [] else [
    failBelow 4 fun g =>
      let iOn (j : Nat) : Bool := s.flag (F.LE_IMAP_EN e j)
      let oOn (j : Nat) : Bool := s.flag (F.LE_OMAP_EN e j)
      let i (f : Nat → Nat → Field) (j : Nat) : Nat := s.get (f e j)
      [need (!(iOn g) || decide (i F.LE_IMAP_SRC g + i F.LE_IMAP_LEN g ≤ 256 ∧ i F.LE_IMAP_DST g + i F.LE_IMAP_LEN g ≤ 512)) 21 1 (e * 65536 + g),
       need (!(iOn g) || (List.range g).all fun j => !(iOn j) || !(meets (i F.LE_IMAP_DST g) (i F.LE_IMAP_LEN g) (i F.LE_IMAP_DST j) (i F.LE_IMAP_LEN j)))
         21 1 (e * 65536 + g),
       need (!(oOn g) || decide (i F.LE_OMAP_SRC g + i F.LE_OMAP_LEN g ≤ 256 ∧ i F.LE_OMAP_BASE g + i F.LE_OMAP_LEN g ≤ 512)) 21 2 (e * 65536 + g),
       need (!(oOn g) || (List.range g).all fun j => !(oOn j) || !(meets (i F.LE_OMAP_BASE g) (i F.LE_OMAP_LEN g) (i F.LE_OMAP_BASE j) (i F.LE_OMAP_LEN j)))
         21 2 (e * 65536 + g)],
    failBelow 64 fun q => [
      need (!(s.qProd q (0x100 + e) || s.qCons q (0x100 + e)) || s.get (F.HXQ_CFG_ESIZE_LOG2 q) == 4) 21 6 (e * 65536 + q)]]

/-! ### All of them -/

/-- The checks of every table; `d` is the schedule image at hand, which the candidate state carries. -/
def State.tablesFail (s : State) (b : Tbl Byte) (d : Option Sched) : Option Fail :=
  let sigs := cfgSignals b s.ident.pos
  let bytes (f : Group → Nat) : Option (Nat → Nat) := d.map fun x g => match x.groups[g]? with | some c => f c | none => 0
  firstFail [s.valuesFail, s.queuesFail, s.mapsFail, s.signalsFail sigs (bytes fun g => g.inBytes), s.agrFail sigs (bytes fun g => g.inBytes),
    s.ogrpFail (bytes fun g => g.outBytes), s.gheifFail, s.tmbFail, s.telegramsFail b (cfgTelegrams b s.ident.pos),
    s.connsFail (cfgConns b s.ident.pos), s.canFail, s.rackFail (cfgRack b s.ident.pos), s.sioFail]

/-- A duplex configuration has no witness of its peer outside the Tri-link (R231). -/
def State.noWitness (s : State) : Bool :=
  let slot : Bool := match s.cfg.cluster with
    | some c => c.slots.any fun d => d.ogrp == 0xFF && d.txPos == 2 ^ (2 - s.ident.pos)
    | none => false
  s.duplex && !slot && !(s.flag (F.ETH_PORT_CFG_EN 0)) && !(s.flag (F.ETH_PORT_CFG_EN 1))

end Sys2Proof.Machine
end

