-- ==== Sys2Proof/Machine/SetImg.lean ====
section
/-!
DEFINITION. The checks of CONFIG_SEAL, LOAD_VERIFY and ACTIVATE on an image set: manifest (R458, R459), schedule image (R16, R19, R20, R26,
R29, R64, R91, R93 to R99, R112, R137, R142, R143, R168, R174), segment and retentive tables (R129, R202, R204), engine code (R177) and the
sync sets (R243).
-/
namespace Sys2Proof.Machine

/-! ### Manifest and signature (R458, R459) -/

/-- Every one of `n` bytes at `a` is 0. -/
def zerosAt (b : Tbl Byte) (a n : Nat) : Bool := leNat (tgetList byteD b a n) == 0

/-- The manifest, the images' digests and their headers; `n` is the length of the set. -/
def manifestFail (b : Tbl Byte) (n : Nat) : Option Fail :=
  firstFail [
    needCheck (imgLe b 0 4 == 0x53544553 && imgLe b 4 2 == 1 && within 1 259 (imgLe b 6 2) && imgLe b 8 4 == n) 22 0 0xFFFFFFFF,
    failAt (manifest b) fun i m => [
      needCheck (within 1 3 m.kind && m.ofs % 4096 == 0 && decide (m.ofs + m.len ≤ n)) 22 0 i,
      needCheck (m.kind != 1 || m.target == 0) 22 0 i,
      needCheck (m.kind != 3 || decide (m.target < 2)) 22 0 i,
      needCheck (sha256 (tgetList byteD b m.ofs m.len) == m.hash) 22 0 i,
      if m.kind = 1 then
        firstFail [
          needCheck (imgLe b m.ofs 4 == 0x49535850 && imgLe b (m.ofs + 4) 2 == 1 && imgLe b (m.ofs + 8) 4 == m.len) 22 0 i,
          needCheck (imgLe b (m.ofs + m.len - 4) 4 == crc32c (tgetList byteD b m.ofs (m.len - 4))) 22 0 i]
      else needCheck (imgLe b m.ofs 4 == 0x4D475250 && imgLe b (m.ofs + 4) 2 == 1 && imgLe b (m.ofs + 6) 1 == m.kind
        && imgLe b (m.ofs + 7) 1 == m.target && imgLe b (m.ofs + 8) 4 == m.pid) 22 0 i]]

/-- The signature verifies under the key that KEY_ID names in the sealed configuration. -/
def State.signatureOk (s : State) (b : Tbl Byte) : Bool :=
  let n := 32 + 48 * imgLe b 6 2
  match (cfgKeys s.sup.cfgImage s.ident.pos).find? fun k => k.1 == imgLe b 16 4 with
  | some k => ed25519 k.2 (tgetList byteD b 0 n) (tgetList byteD b n 64)
  | none => false

/-! ### Cycle groups (R19, R20, R29) -/

/-- Length of the major frame and of a group's task cycle in macroticks. -/
def Sched.frameMt (d : Sched) : Nat := 2 ^ d.mfLog2 * d.tgMt
def Sched.tcMt (d : Sched) (g : Group) : Nat := 2 ^ g.k * d.tgMt
/-- The group's first freeze after the start of the major frame. -/
def Sched.frz0 (d : Sched) (g : Group) : Nat := g.phase * d.tgMt + g.frzOfs
/-- The place of an instant of the major frame in the group's task cycles: their ordinal and the offset from the freeze. -/
def Sched.place (d : Sched) (g : Group) (t : Nat) : Nat × Nat :=
  let x := (t + 2 * d.frameMt - d.frz0 g) % d.frameMt
  (x / d.tcMt g, x % d.tcMt g)

/-- The agreement and vote intervals of a group in one major frame: start and length. -/
def Sched.intervals (d : Sched) (g : Group) : List (Nat × Nat) :=
  (List.range (2 ^ d.mfLog2 / 2 ^ g.k)).flatMap fun j =>
    let f := d.frz0 g + j * d.tcMt g
    [(f % d.frameMt, g.agrDl), ((f + g.outClose) % d.frameMt, g.outInst - g.outClose)]

/-- Two intervals of a repeating frame overlap. -/
def wraps (frame : Nat) (a c : Nat × Nat) : Bool :=
  a.2 != 0 && c.2 != 0 && (decide ((c.1 + frame - a.1) % frame < a.2) || decide ((a.1 + frame - c.1) % frame < c.2))

/-- The intervals of the later entries overlap none of the earlier. -/
def disjointAll (frame : Nat) : List (Nat × Nat) → Bool
  | [] => true
  | a :: l => !(l.any (wraps frame a)) && disjointAll frame l

def State.groupsFail (s : State) (d : Sched) (b : Tbl Byte) (o : Nat) : Option Fail :=
  let base := o + imgLe b (o + 0x1C) 4
  firstFail [
    need (decide (d.groups.length ≤ 4 ∧ d.mfLog2 ≤ 6)) 3 6 d.groups.length,
    failAt d.groups fun i g => [
      need (decide (g.k ≤ 6 ∧ g.phase < 2 ^ g.k ∧ g.k ≤ d.mfLog2)) 3 6 i,
      need (decide (g.frzOfs < d.tgMt ∧ g.agrDl < d.tcMt g ∧ g.agrDl < g.outClose ∧ g.outClose < d.tcMt g ∧ g.outClose ≤ g.outInst ∧ g.outInst < d.tcMt g)) 3 0 i,
      need (decide (g.inBytes ≤ 16384 ∧ g.outBytes ≤ 16384)) 3 5 i,
      need (s.simplex || decide (s.tlTime g.inBytes + mtUt ≤ g.agrDl * mtUt)) 3 1 i,
      need (s.simplex || decide (s.tlTime g.outBytes + mtUt ≤ (g.outInst - g.outClose) * mtUt)) 3 2 i,
      need (disjointAll d.frameMt ((d.groups.take (i + 1)).flatMap d.intervals)) 3 4 i,
      need (zerosAt b (base + 32 * i + 2) 2 && zerosAt b (base + 32 * i + 24) 8) 3 9 i],
    need (d.groups.isEmpty || d.groups.any fun g => g.k == d.mfLog2) 3 0 0]

/-! ### Partitions, tasks, windows (R26, R64, R91, R96 to R99, R137, R168) -/

/-- The windows of a task, with their indices. -/
def Sched.winsOf (d : Sched) (t : Nat) : List (Nat × Window) := (indexed d.windows).filter fun c => c.2.task == t
/-- The windows on a unit, with their indices. -/
def Sched.winsOn (d : Sched) (u : Nat) : List (Nat × Window) :=
  (indexed d.windows).filter fun c => match d.tasks[c.2.task]? with | some t => t.unit == u | Option.none => false

def partsFail (d : Sched) (b : Tbl Byte) (o : Nat) : Option Fail :=
  let base := o + imgLe b (o + 0x20) 4
  firstFail [
    need (within 1 256 d.parts.length) 4 0 d.parts.length,
    failAt d.parts fun i p => [
      need (decide (p.sramQuota ≤ 8192)) 4 0 i,
      need (decide (p.unitMask < 64 ∧ p.pflags < 4) && zerosAt b (base + 16 * i + 2) 2 && zerosAt b (base + 16 * i + 11) 5) 4 9 i]]

/-- The FIRST and LAST windows of each task cycle of a group task are one each, and in order. -/
def Sched.marked (d : Sched) (g : Group) (l : List (Nat × Window)) : Bool :=
  (List.range (2 ^ d.mfLog2 / 2 ^ g.k)).all fun j =>
    let mine (bit : Nat) : List Nat := (l.filter fun c => c.2.wflags.testBit bit && (d.place g c.2.start).1 == j).map fun c => (d.place g c.2.start).2
    match mine 0, mine 1 with
    | [a], [z] => decide (a ≤ z)
    | _, _ => false

def State.tasksFail (s : State) (d : Sched) (b : Tbl Byte) (o : Nat) (segs : Tbl (List Seg)) : Option Fail :=
  let base := o + imgLe b (o + 0x24) 4
  firstFail [
    need (within 1 1024 d.tasks.length) 5 0 d.tasks.length,
    failAt d.tasks fun i t => [
      need (decide (t.part < d.parts.length ∧ t.cls < 3 ∧ t.unit < 6) && (if t.cls = 2 then t.group == 0xFF else decide (t.group < d.groups.length))) 5 0 i,
      need (s.unitFitted t.unit && (match d.parts[t.part]? with | some p => p.unitMask.testBit t.unit | none => false)) 5 3 i,
      match d.groups[t.group]? with
      | some g => firstFail [
          need (t.cls == 2 || d.marked g (d.winsOf i)) 5 4 i,
          need (t.outOfs % 8 == 0 && decide (t.outOfs + t.outLen ≤ g.outBytes)) 5 5 i,
          need ((d.tasks.take i).all fun x => x.group != t.group || x.outLen == 0 || t.outLen == 0 || !(meets t.outOfs t.outLen x.outOfs x.outLen)) 5 5 i]
      | none => need ((d.winsOf i).all fun c => c.2.wflags == 0) 5 4 i,
      need (decide (t.unit < 4) || (t.cls == 0 && t.maxSkip == 0)) 5 6 i,
      need (decide (t.unit < 4) || t.wsetCount == 0) 7 1 i,
      need (decide (t.wsetFirst + t.wsetCount ≤ d.wset.length)) 7 1 i,
      failAt ((d.wset.drop t.wsetFirst).take t.wsetCount) fun j e => [
        need (match (tget nilD segs t.part)[e.seg]? with
          | some g => decide (1 ≤ e.count ∧ e.first + e.count ≤ g.pages) && g.home != 3
          | none => false) 7 1 (i * 65536 + j)],
      need ((imgLe b (base + 32 * i + 1) 1 &&& 0xCC) == 0 && zerosAt b (base + 32 * i + 28) 4) 5 9 i]]

def windowsFail (d : Sched) (b : Tbl Byte) (o : Nat) : Option Fail :=
  let base := o + imgLe b (o + 0x28) 4
  let unit (w : Window) : Nat := match d.tasks[w.task]? with | some t => t.unit | none => 0
  firstFail [
    need (within 1 4096 d.windows.length) 6 0 d.windows.length,
    failAt d.windows fun i w => [
      need (decide (w.task < d.tasks.length ∧ 4 ≤ w.budget)) 6 0 i,
      need (match d.windows[i - 1]? with | some v => i == 0 || decide (v.start < w.start ∨ (v.start = w.start ∧ unit v < unit w)) | none => true) 6 0 i,
      need (decide (w.start + w.budget ≤ d.frameMt)) 6 1 i,
      need ((d.windows.take i).all fun v => unit v != unit w || decide (v.start + v.budget ≤ w.start)) 6 2 i,
      match d.tasks[w.task]? with
      | some t => (match d.groups[t.group]? with
        | some g => firstFail [
            need (decide (g.agrDl ≤ (d.place g w.start).2)) 3 3 t.group,
            need (t.outLen == 0 || decide ((d.place g w.start).2 + w.budget ≤ g.outClose)) 3 3 t.group]
        | none => none)
      | none => none,
      need (decide (w.wflags < 4) && zerosAt b (base + 16 * i + 11) 5) 6 9 i]]

/-- The largest gap between the windows of a unit in macroticks, the one into the next frame among them. -/
def Sched.gap (d : Sched) (u : Nat) : Option Nat :=
  let l := (d.winsOn u).map fun c => (c.2.start, c.2.start + c.2.budget)
  match l with
  | [] => Option.none
  | f :: r => Option.some (((l.zip (r.map (fun c => c.1) ++ [f.1 + d.frameMt])).map fun c => c.2 - c.1.2).foldl max 0)

/-- R64 for pairs, R168 for engines. -/
def gapsFail (d : Sched) : Option Fail :=
  failBelow 6 fun u => [match d.gap u with | some n => need (decide ((if u < 4 then 12 else 8) ≤ n)) 6 0 u | none => none]

/-! ### Staging and quotas (R112, R129, R142, R143) -/

/-- The simulation of R142 finds a deadline-class window that finishes late. It starts, as the rule's listing has it, with the stager busy until the
start of the first frame, so that a request of that frame placed before it is served from there on; the rule's worked example lets such
requests begin earlier (DESIGN CHOICE, log 127). -/
def State.stagingFail (s : State) (d : Sched) (segs : Tbl (List Seg)) : Option Fail :=
  match (stageSim 0 (stagePlan d segs (s.get F.HXM_LOOKAHEAD_LOOKAHEAD) (d.tgMt * mtUt))).2 with
  | some w => some ⟨0x12, 6, 7, w⟩
  | none => none

/-- The pages of a task's working set: segment and page. -/
def wsetPages (d : Sched) (t : Task) : List (Nat × Nat) :=
  ((d.wset.drop t.wsetFirst).take t.wsetCount).flatMap fun e => (List.range e.count).map fun j => (e.seg, e.first + j)

/-- The pages of a partition that are pinned at an instant, in macroticks, of frames that follow one another: those of requests placed and windows not over (R139);
HOME 0 pages are counted apart. -/
def State.pinnedAt (s : State) (d : Sched) (segs : Tbl (List Seg)) (part : Nat) (t : Nat) : Nat :=
  let look := s.get F.HXM_LOOKAHEAD_LOOKAHEAD * 4
  let frame := d.frameMt
  let on (w : Window) : Bool :=
    (List.range (t / max 1 frame + look / max 1 frame + 2)).any fun k => decide (w.start + k * frame ≤ t + look ∧ t < w.start + k * frame + w.budget)
  let pages := (d.windows.filter on).flatMap fun w => match d.tasks[w.task]? with
    | some x => if x.part = part ∧ x.unit < 4 ∧ x.cls < 2 then
        (wsetPages d x).filter fun p => match (tget nilD segs part)[p.1]? with | some g => g.home != 0 | none => false
      else []
    | none => []
  pages.eraseDups.length

/-- The quota of each partition (R143), judged where a request is placed: there the pinned pages grow. INDEX is partition * 2^24 and the instant
in macroticks of the major frame (DESIGN CHOICE, log 127). -/
def State.quotaFail (s : State) (d : Sched) (segs : Tbl (List Seg)) : Option Fail :=
  let look := s.get F.HXM_LOOKAHEAD_LOOKAHEAD * 4
  failAt d.parts fun i p =>
    let fixed := (tget nilD segs i).foldl (fun a g => if g.home = 0 then a + g.pages else a) 0
    let spare := if d.tasks.any fun t => t.part == i && t.cls == 2 then 2 else 0
    [failAt d.windows fun _ w =>
      let t := w.start + (look / max 1 d.frameMt + 1) * d.frameMt - look
      [need (decide (fixed + s.pinnedAt d segs i t + spare ≤ p.sramQuota)) 4 0 (i * 2 ^ 24 + t % max 1 d.frameMt)],
     need (decide (fixed + spare ≤ p.sramQuota)) 4 0 (i * 2 ^ 24)]

/-- The reserve for image versions: the first 512 KiB of the HX private area (R112, R123). -/
def versionsFail (d : Sched) : Option Fail :=
  let need_ := (indexed d.groups).foldl (fun a c =>
    a + c.2.inBytes * (1 + ((d.tasks.filter fun t => t.group == c.1).map fun t => t.maxSkip).foldl max 0)) 0
  need (decide (need_ ≤ 0x80000)) 3 8 0

/-- Segment tables (R128, R129): INDEX is partition * 64 + segment. -/
def State.segmentsFail (s : State) (d : Sched) (segs : Tbl (List Seg)) : Option Fail :=
  let total (l : List Seg) (p : Nat → Bool) : Nat := l.foldl (fun a g => if p g.home then a + g.pages else a) 0
  let homes := s.ddrSize / 4096 - s.get F.HXM_LAYOUT_MACH_DDR * 16384
  let pool := 7168 - s.get F.HXM_LAYOUT_MACH_PAGES - s.hxm.retired.length
  firstFail [
    failAt d.parts fun i p =>
      let l := tget nilD segs i
      [failAt l fun j g => [
        need (decide (j < 32 ∧ 1 ≤ g.pages ∧ g.home < 4 ∧ g.rights < 8)) 8 0 (i * 64 + j),
        need (decide (0x10 ≤ g.upage ∧ g.upage + g.pages ≤ 0x40000)) 8 1 (i * 64 + j),
        need ((l.take j).all fun h => !(meets g.upage g.pages h.upage h.pages)) 8 2 (i * 64 + j),
        need (!(g.rights.testBit 1 && g.rights.testBit 2)) 8 3 (i * 64 + j),
        need (!(g.home == 2 && g.rights.testBit 1)) 8 4 (i * 64 + j),
        need (decide (total (l.take (j + 1)) (fun h => h == 0) ≤ p.sramQuota)) 8 5 (i * 64 + j),
        need (decide (total (l.take (j + 1)) (fun h => h == 1 || h == 3) ≤ p.ddrQuota)) 8 6 (i * 64 + j)]],
    need (decide (d.parts.foldl (fun a p => a + p.sramQuota) 0 ≤ pool ∧ d.parts.foldl (fun a p => a + p.ddrQuota) 0 ≤ homes)) 8 7 0xFFFFFFFF,
    need (decide (segs.foldl (fun a c => a + total c.2 fun _ => true) 0 ≤ 262144)) 8 8 0xFFFFFFFF]

/-! ### The schedule image (R93, R94, R99) -/

/-- The regions of an image of `n` bytes at `o`, as offset and length: header, the five tables, trailer (R93). -/
def schedRegions (b : Tbl Byte) (o n : Nat) : List (Nat × Nat) :=
  let f (a k : Nat) : Nat := imgLe b (o + a) k
  [(0, 64), (f 0x1C 4, 32 * f 0x15 1), (f 0x20 4, 16 * f 0x16 2), (f 0x24 4, 32 * f 0x18 2), (f 0x28 4, 16 * f 0x1A 2), (f 0x2C 4, f 0x30 4), (n - 4, 4)]

/-- Regions that hold something overlap none before them and end inside the image. -/
def regionsApart (n : Nat) : List (Nat × Nat) → Bool
  | [] => true
  | a :: l => decide (a.1 + a.2 ≤ n) && (l.all fun c => !(meets a.1 a.2 c.1 c.2)) && regionsApart n l

/-- The image at `o` of a set against every check of its tables. -/
def State.schedFail (s : State) (b : Tbl Byte) (o : Nat) (segs : Tbl (List Seg)) : Option Fail :=
  let d := parseSched b o
  let n := imgLe b (o + 8) 4
  firstFail [
    needCheck (imgLe b o 4 == 0x49535850 && imgLe b (o + 4) 2 == 1) 0 0 0,
    needCheck (imgLe b (o + n - 4) 4 == crc32c (tgetList byteD b o (n - 4))) 0 0 (n - 4),
    need (imgLe b (o + 6) 2 == 64 && zerosAt b (o + 0x36) 10 && decide (d.flags < 2)) 0 9 0,
    need (within 1000 64000 d.tgMt && (s.cfg.tgMt == 0 || s.cfg.tgMt == d.tgMt)) 0 0 0x10,
    need ([0x1C, 0x20, 0x24, 0x28, 0x2C].all fun a => imgLe b (o + a) 4 % 8 == 0) 0 0 0x1C,
    need (regionsApart n ((schedRegions b o n).filter fun c => c.2 != 0)) 0 0 0x1C,
    failBelow (imgLe b (o + 0x30) 4 / 8) fun i => [need (zerosAt b (o + imgLe b (o + 0x2C) 4 + 8 * i + 1) 1) 7 9 i],
    s.groupsFail d b o, partsFail d b o, s.tasksFail d b o segs, windowsFail d b o, gapsFail d, s.segmentsFail d segs, s.stagingFail d segs,
    s.quotaFail d segs, versionsFail d]

/-! ### Engines (R174, R177, R243) -/

/-- The output regions and the windows of the engines' tasks. -/
def State.enginesFail (s : State) (d : Sched) : Option Fail :=
  failBelow 2 fun e => if !(s.engineFitted e) then [] else [
    failAt d.tasks fun n t => if t.unit ≠ 4 + e then [] else [
      need (s.flag (F.LE_OMAP_EN e t.group) && decide (s.get (F.LE_OMAP_SRC e t.group) * 64 ≤ t.outOfs ∧
        t.outOfs + t.outLen ≤ (s.get (F.LE_OMAP_SRC e t.group) + s.get (F.LE_OMAP_LEN e t.group)) * 64)) 21 3 (e * 65536 + n),
      need ((d.winsOf n).all fun c => c.2.wflags == 3) 21 4 (e * 65536 + n),
      need (match d.groups[t.group]? with
        | some g => (d.winsOf n).all fun c => decide ((d.place g c.2.start).2 + c.2.budget ≤ g.outClose)
        | none => false) 21 5 (e * 65536 + n)]]

/-- The code of an engine program image at `o`. -/
def progCode (b : Tbl Byte) (o a : Nat) : Word := BitVec.ofNat 32 (imgLe b (o + imgLe b (o + 0x30) 4 + 4 * a) 4)
def progWords (b : Tbl Byte) (o : Nat) : Nat := imgLe b (o + 0x2C) 4
def codeFrom (b : Tbl Byte) (o : Nat) (entries : List Nat) : List Nat :=
  leReach (progCode b o) (progWords b o) (3 * progWords b o + entries.length + 1) entries []

/-- The entry addresses of an engine's tasks. -/
def Sched.entries (d : Sched) (e : Nat) : List Nat := (d.tasks.filter fun t => t.unit == 4 + e).map fun t => t.entry

/-- The timer type that an instruction requires: 1 TON, 2 TOF, 3 TP, 4 any declared (R178, R459). -/
def timerOf : Nat → Nat
  | 0x17 => 1
  | 0x18 => 2
  | 0x19 => 3
  | 0x1A => 4
  | _ => 0

/-- The words of one engine program (R177); `d` is the schedule image in force with it. -/
def State.codeFail (s : State) (d : Sched) (b : Tbl Byte) (e : Fin 2) (o : Nat) : Option Fail :=
  let n := progWords b o
  let decl := progTimers b o
  firstFail [
    need (decide (n ≤ 262144)) 21 0 n,
    failAt (d.tasks.filter fun t => t.unit == 4 + e.val) fun _ t => [need (decide (t.entry < n)) 21 7 t.entry],
    failAt (codeFrom b o (d.entries e)) fun _ a =>
      let w := progCode b o a
      let x := leOpnd w
      let opc := leOpc w
      let q := x.opnd.toNat
      [match leByOpc e x opc with
       | none => some ⟨0x12, 21, 1, a⟩
       | some _ => none,
       need (decodeLe e w).isSome 21 (if (opc == 0 || opc == 0x0D || opc == 0x14 || opc == 0x39 || opc == 0x3F) then 3 else 2) a,
       need (!(within 0x34 0x38 opc) || decide (q < n)) 21 4 a,
       need (timerOf opc == 0 || (match decl.find? fun c => c.1 == q with
         | some c => timerOf opc == 4 || c.2 % 4 == timerOf opc
         | none => false)) 21 5 a,
       need (opc != 0x3A || s.qProd q (0x100 + e.val)) 21 6 a,
       need (opc != 0x3B || s.qCons q (0x100 + e.val)) 21 6 a],
    failAt (d.tasks.filter fun t => t.unit == 4 + e.val) fun _ t =>
      let lo := s.get (F.LE_OMAP_BASE e t.group) * 64 + t.outOfs - s.get (F.LE_OMAP_SRC e t.group) * 64
      [failAt (codeFrom b o [t.entry]) fun _ a =>
        let w := progCode b o a
        let x := leOpnd w
        let bitOp : Bool := within 3 6 (leOpc w)
        let byte := if bitOp then x.addr / 8 else x.addr
        let sz := if bitOp then 1 else 4
        [need (!(bitOp || leOpc w == 0x21) || x.sp != 1 || x.indexed || decide (lo ≤ byte ∧ byte + sz ≤ lo + t.outLen)) 21 8 a]]]

/-- Both engine programs of a set. -/
def State.programsFail (s : State) (d : Sched) (b : Tbl Byte) : Option Fail :=
  firstFail ([(0 : Fin 2), 1].map fun e => match imgOf b 3 e.val with
    | some m => if s.engineFitted e.val then s.codeFail d b e m.ofs else some ⟨0x21, 21, 0, e.val⟩
    | none => none)

/-- The timers that a group's engine tasks execute (R240). -/
def setTimers (d : Sched) (b : Tbl Byte) (e g : Nat) : List Nat :=
  match imgOf b 3 e with
  | some m =>
    ((codeFrom b m.ofs ((d.tasks.filter fun t => t.unit == 4 + e && t.group == g).map fun t => t.entry)).filterMap fun a =>
      let w := progCode b m.ofs a
      if timerOf (leOpc w) = 0 then none else some (w.toNat % 2 ^ 24)).eraseDups
  | none => []

/-- Bytes of a group's sync set: blocks, 16 bytes a timer, and 16 of module status (R240). -/
def syncBytesOf (d : Sched) (b : Tbl Byte) (blocks : List RetBlock) (g : Nat) : Nat :=
  (blocks.filter fun x => x.group == g).foldl (fun a x => a + x.len) 0 + 16 * ((setTimers d b 0 g).length + (setTimers d b 1 g).length) + 16

/-- Macroticks of Tri-link time between an output instant of a group and its next agreement deadline, outside every interval. -/
def Sched.syncTime (d : Sched) (g : Group) : Nat :=
  let lo := d.frz0 g + g.outInst
  let hi := d.frz0 g + d.tcMt g + g.agrDl
  let busy := (d.groups.flatMap d.intervals).flatMap fun c => [0, 1, 2].map fun k => (c.1 + k * d.frameMt, c.2)
  (hi - lo) - busy.foldl (fun a c => a + (min hi (c.1 + c.2) - max lo c.1)) 0

/-- R243: duplex and triplex. -/
def State.syncSetFail (s : State) (d : Sched) (b : Tbl Byte) (blocks : List RetBlock) : Option Fail :=
  if s.simplex then none else firstFail [
    failBelow 2 fun e => [failBelow d.groups.length fun g => [
      failAt (setTimers d b e g) fun _ n => [need ((List.range g).all fun h => !((setTimers d b e h).contains n)) 21 0 (e * 65536 + n)]]],
    failAt d.groups fun i g =>
      let n := syncBytesOf d b blocks i
      [need (decide ((n + 20 * ((n + 4095) / 4096)) * 68 ≤ d.syncTime g * mtUt * 100)) 3 0 i]]

/-! ### Retentive tables (R202, R204) -/

/-- The frames after which the pattern of due blocks repeats. -/
def blockPeriod (l : List RetBlock) : Nat := l.foldl (fun a x => Nat.lcm a (max 1 x.interval)) 1

/-- The first of the blocks due at which a running total breaks its limit (R204): INDEX is the block * 2^24 and the major frame modulo 2^24
(DESIGN CHOICE, log 127). -/
def totalFail (check f : Nat) (ok : Nat → Bool) (cost : RetBlock → Nat) : Nat → List (Nat × RetBlock) → Option Fail
  | _, [] => none
  | a, c :: l => if ok (a + cost c.2) then totalFail check f ok cost (a + cost c.2) l else some ⟨0x12, 9, check, c.1 * 2 ^ 24 + f % 2 ^ 24⟩

def blocksFail (d : Sched) (segs : Tbl (List Seg)) (l : List RetBlock) : Option Fail :=
  let size (x : List RetBlock) : Nat := x.foldl (fun a y => a + y.len) 0
  firstFail [
    need (decide (l.length ≤ 256 ∧ size l ≤ 0x100000)) 9 0 0xFFFFFFFF,
    failAt l fun i x => [
      need (!((l.take i).any fun y => y.ident == x.ident)) 9 0 i,
      need (x.addr % 64 == 0 && x.len % 64 == 0 && within 64 65536 x.len && decide (x.group < d.groups.length) && decide (1 ≤ x.interval ∧ x.phase < x.interval)) 9 0 i,
      need (x.space == if x.part < 256 then 0 else x.part - 255) 9 0 i,
      need (if x.part < 256 then (tget nilD segs x.part).any fun g => (g.home == 0 || g.home == 1) && g.rights.testBit 1
          && decide (g.upage * 4096 ≤ x.addr ∧ x.addr + x.len ≤ (g.upage + g.pages) * 4096)
        else decide (x.addr + x.len ≤ 0x40000)) 9 0 i],
    (List.range (blockPeriod l)).findSome? fun f =>
      let due := (indexed l).filter fun c => decide (0 < c.2.interval) && f % c.2.interval == c.2.phase
      firstFail [
        totalFail 1 f (fun n => decide (n * 8 ≤ d.frameMt)) (fun y => y.len / 64 + 1) 0 due,
        totalFail 2 f (fun n => decide (n ≤ 0x40000)) (fun y => y.len) 0 due,
        failAt d.groups fun i g => [
          totalFail 3 f (fun n => decide (n / 16 * 2 < (d.tcMt g + g.agrDl - g.outClose) * mtUt)) (fun y => y.len) 0
            (due.filter fun c => c.2.group == i)]]]

/-! ### A whole set -/

/-- The checks that CONFIG_SEAL and ACTIVATE make of an image set under the configuration that the state carries. -/
def State.setFail (s : State) (set : Nat) (b : Tbl Byte) : Option Fail :=
  let p := loadProgs set b
  match imgOf b 1 0 with
  | none => some ⟨0x13, 22, 0, 0xFFFFFFFF⟩
  | some m =>
    let d := parseSched b m.ofs
    firstFail [s.schedFail b m.ofs p.segs, s.mapsFail, s.enginesFail d, s.programsFail d b, blocksFail d p.segs p.blocks, s.syncSetFail d b p.blocks]

end Sys2Proof.Machine
end

