-- ==== Sys2Proof/Machine/Leave.lean ====
section
/-!
DEFINITION. Entry to and exit from the Run state (R34, R191 to R193, R205, R239, R305), entry to Midnight mode (R500), the start of a
Dawn sequence (R434, R493 step 1), and the writing of retentive saves (R203).
-/
namespace Sys2Proof.Machine

/-! ### Entering the Run state -/

/-- R305: the adopting TIME_SET that the supervisor issues on leaving the Stop state for the Run state. -/
def State.autoSet (s : State) : State :=
  let c := s.get F.TMB_STAT_ACTIVE
  let p := s.tmbPending
  if s.flag F.TMB_CFG_AUTO_SET && decide (2 ≤ c) && (s.tsrc c).newest.isSome &&
      (!(s.flag F.TMB_STAT_TSET) || decide (65536000000 < p ∨ p < -65536000000)) then
    s.setTod (s.reference c)
  else s

/-- No major frame has begun: the next one begins at least one Gheif cycle from now (R34). -/
def State.newFrames (s : State) : State := { s with hx := { s.hx with notBefore := s.clk.t + s.tg, frameOn := false } }

/-- LISTEN on entry to the Run state in duplex and triplex, with the lanes' power asked for (R239, R31). No group has a holder (R231); what a
module that was OFF knew of its peers is forgotten. -/
def State.tlListen (s : State) : State :=
  if s.simplex || s.mstate == 5 then s else
  let peers := if s.mstate = 0 then [] else s.tvl.peers
  let s := (((s.forgetLeases).set F.TVL_STAT_MSTATE 1).set F.TVL_STAT_DONOR 0).setMembers 0
  let s : State := { s with tvl := { s.tvl with
    peers := peers, boundary := none, sync := Sync.none, differs := [], forceProp := [], activateAcks := [], waitTx := [] } }
  if s.tvl.lanes then s else (s.request 3 0 6).request 3 1 6

/-- The Run state is entered; `kind` is that of the program start, none on return from Hold (R193). -/
def State.enterRun (s : State) (kind : Option Nat) (cause src inst : Nat) : State :=
  let s := if s.sup.st == .stop then s.autoSet else s
  let s := match kind with | some k => s.programStart k false | none => s
  s.newFrames.tlListen.stateChange .run cause src inst

/-! ### Leaving it -/

/-- Blocks in ascending IDENT. -/
def blockInsert (b : RetBlock) : List RetBlock → List RetBlock
  | [] => [b]
  | c :: r => if b.ident < c.ident then b :: c :: r else c :: blockInsert b r

/-- The closing save of every block (R205). -/
def State.closingSaves (s : State) : State :=
  let bs := s.prog.blocks.foldl (fun l b => blockInsert b l) []
  { s with cyc := { s.cyc with
      saves := bs.map fun b => (⟨b.ident, b.prog, s.blockData b, s.get F.HX_FRAME_W, true, 0, 0, 0⟩ : Snapshot)
      savesMoved := [] } }

/-- A transition that a long operation asked for. -/
def State.opChange (s : State) (o : LongOp) (new : MState) : State := s.stateChange new o.opc (originSrc o.origin) (originInst o.origin)

/-- The Stop state is entered from Run or Hold: the HX parks every pair, the TVL goes OFF (R119, R191, R196, R239). -/
def State.toStop (s : State) (o : LongOp) : State :=
  let s := (s.stopTasks true).tlOff
  let s : State := { s with hx := { s.hx with frameOn := false }, cyc := { s.cyc with resumeOk := true } }
  s.opChange o .stop

/-- Midnight mode is entered (R500 steps 2 to 5): the intake queue, the real-time clock and the counter copies are written, the reply is
given, links and transceivers go down, the clocks stop. -/
def State.midnightEnter (s : State) (o : LongOp) : State :=
  let s := ((s.stopTasks true).tlOff).stopCycles
  let old := s.sup.st
  let inst := originInst o.origin
  let s := (s.report .STATE_CHANGE (srcSup inst) [old.code, MState.midnight.code, o.opc, originSrc o.origin]).raise 413
  let s := if inst = 0 then s else s.notice 2 [BitVec.ofNat 8 old.code]
  let s := (s.judgeAll s.rcd.reported.length).flushIntake false
  let s := (s.writeRtc.copyCounters).longReply 0 []
  let s := [0, 1, 2, 3].foldl (fun (s : State) p => ethLinkChange p false s) s
  let s : State := { s with
    sup := { s.sup with longOp := none, sready := false, st := .midnight }
    hx := { s.hx with frameOn := false }
    cyc := { s.cyc with resumeOk := false }
    clk := { s.clk with frcOn := false, opOn := false, opAcc := s.clk.opAcc + (s.clk.t - s.clk.opSince) }
    pwr := { s.pwr with
      midnight := some ⟨o.arg % 256, o.arg2, o.arg / 256, s.clk.t⟩
      midnightDigest := match s.sup.activeSet with | some n => (tget imageSetD s.sup.sets n).digest | none => [] } }
  s.canFollow

/-! ### The start of a Dawn sequence -/

/-- The address lies in eMRAM, whose content survives (R126), or in DDR where it stayed in self-refresh. -/
def State.survives (s : State) (ddr : Bool) (a : Nat) : Bool :=
  decide (0x20000000 ≤ a ∧ a < 0x21000000) || (ddr && decide (ddrBase ≤ a ∧ a < ddrBase + s.ddrSize))

/-- Step 1 of a Dawn sequence (R493, R494): every unit is in reset. What the supervisor's data region, the program store, the Night domain
and the identity store hold stays; so do the supervisor's waiting packets and stored replies. -/
def State.beginDawn (s : State) (cause : Nat) : State :=
  let wake := s.pwr.midnight.isSome
  let p := s.pwr
  let c := s.clk
  let n : State := { State.reset with
    ident := s.ident
    clk := ⟨c.t, false, 0, true, if c.opOn then c.opAcc + (c.t - c.opSince) else c.opAcc, c.t⟩
    mem := s.mem.filter fun x => s.survives wake x.1
    poison := s.poison.filter fun l => s.survives wake (l * 64)
    hxm := { Hxm.reset with
      latent := s.hxm.latent.filter fun x => decide (x.1 / 2 ^ 40 = 1 ∨ x.1 / 2 ^ 40 = 3)
      retired := s.hxm.retired, homePoison := s.hxm.homePoison.filter fun x => decide (2 ^ 24 ≤ x) }
    cyc := { Cyc.reset with
      copies := s.cyc.copies, lastRun := s.cyc.lastRun, changeGen := s.cyc.changeGen
      forces := (s.cyc.forces.filter fun f => !f.clearing).map fun f => { f with applied := false } }
    sup := { s.sup with
      st := .dawn, fromDusk := false, duskCause := 0, startCause := cause, cfgSess := none, loadSess := none, sready := false,
      lastStart := 0xFF, ethHeld := 0, portWait := 0, authFails := [] }
    rcd := { s.rcd with buckets := [] }
    pwr := { p with
      waiting := [], granted := [], charges := [], budgetNext := none, lockAt := [], awakeAt := [], opHiLatch := 0, dawnAt := c.t }
    out := s.out
    freeCtr := s.freeCtr
    pending := s.pending }
  n.set F.PWR_STAT_SUPPLY (if p.warned then 2 else b2n p.holdupSince.isSome)

/-- RESTART takes effect (R434). -/
def State.restartNow (s : State) (o : LongOp) : State :=
  let s := s.opChange o .dawn
  ({ s with sup := { s.sup with warm := o.arg == 0, target := o.arg2 } }).beginDawn 1

/-! ### The end of the closing save -/

/-- The transition that waited for the closing save completes (R205); a supply-fail warning ends the entry to Midnight mode (R502). -/
def State.finishLeave (s : State) : State :=
  let s : State := { s with cyc := { s.cyc with leaving := false } }
  match s.sup.longOp with
  | some o =>
    if o.opc = 0x03 then (if o.arg = 2 then s.opChange o .hold else s.toStop o).longDone 0x03 0 []
    else if o.opc = 0x04 then s.restartNow o
    else if o.opc = 0x58 then (if s.pwr.warned then s else s.midnightEnter o)
    else s
  | none => s

/-- The Run state is left (R192, R193, R205): leases and safety-class outputs are released, group and engine tasks stop, and the closing
save begins. -/
def State.leaveRun (s : State) : State :=
  let s := (s.outputsRelease).stopTasks false
  let s := ({ s with cyc := { s.cyc with leaving := true } }).closingSaves
  if s.cyc.saves.isEmpty then s.finishLeave else s.request 4 1 3

/-! ### Retentive saves (R203) -/

/-- Lines of a snapshot: a header and the data. -/
def Snapshot.lines (x : Snapshot) : Nat := 1 + (x.data.length + 63) / 64

/-- The retentive region of eMRAM (R126). -/
def retBase : Nat := 0x20400000
def retEnd : Nat := 0x20800000

/-- The lines of two copies overlap. -/
def State.copyHits (s : State) (a n c : Nat) : Bool := decide (a < c + 64 + (s.copyLen c + 63) / 64 * 64 ∧ c < a + n)

/-- A place for a copy of `n` bytes that no copy holds; the lowest (DESIGN CHOICE, log 22). -/
def State.newPlace (s : State) (n : Nat) : Nat :=
  let ends := s.cyc.copies.map fun c => c + 64 + (s.copyLen c + 63) / 64 * 64
  let ok := (retBase :: ends).filter fun a => decide (a + n ≤ retEnd) && !(s.cyc.copies.any fun c => s.copyHits a n c)
  ok.foldl min (ok.headD retBase)

/-- The older of a block's two copies; one that is not sound comes first. -/
def State.olderCopy (s : State) (a b : Nat) : Nat :=
  if !s.copySound a then a else if !s.copySound b then b else if s.newerCopy a b = b then a else b

/-- The writing of a snapshot begins: over the older of the block's two copies, with a sequence number one above that of the other (R203). -/
def State.beginCopy (s : State) (x : Snapshot) : State × Snapshot :=
  let mine := s.cyc.copies.filter fun a => s.copyIdent a == x.ident
  let s := (mine.filter fun a => s.copyLen a != x.data.length).foldl (fun (s : State) a => s.freeCopy a) s
  let n := 64 * x.lines
  match mine.filter fun a => s.copyLen a == x.data.length with
  | a :: b :: _ =>
    let old := s.olderCopy a b
    (s, { x with place := old, seq := (s.copySeq (if old = a then b else a) + 1) % 2 ^ 32 })
  | l =>
    let s := if s.cyc.copies.length < 512 then s
      else (s.cyc.copies.filter fun a => !(s.prog.blocks.any fun b => b.ident == s.copyIdent a)).foldl (fun (s : State) a => s.freeCopy a) s
    let p := s.newPlace n
    let s := (s.cyc.copies.filter fun c => s.copyHits p n c).foldl (fun (s : State) a => s.freeCopy a) s
    ({ s with cyc := { s.cyc with copies := s.cyc.copies ++ [p] } },
     { x with place := p, seq := match l with | a :: _ => (s.copySeq a + 1) % 2 ^ 32 | [] => 1 })

/-- Lines `i` to `i + n - 1` of a snapshot are written. -/
def State.copyLines (s : State) (x : Snapshot) (n : Nat) : State :=
  let a := x.place + 64 * x.done
  (s.unpoison a (64 * n)).wrBytes a ((padTo (64 * x.lines) (retImage x.ident x.seq x.prog x.data)).drop (64 * x.done) |>.take (64 * n))

/-- Up to `n` lines of the snapshots are written in order. -/
def State.writeSaves : List Snapshot → Nat → State → State
  | [], _, s => { s with cyc := { s.cyc with saves := [] } }
  | x :: r, n, s =>
    if n = 0 then { s with cyc := { s.cyc with saves := x :: r } }
    else
      let (s, x) := if x.done = 0 then s.beginCopy x else (s, x)
      let left := x.lines - x.done
      if left ≤ n then State.writeSaves r (n - left) (s.copyLines x left)
      else
        let s := s.copyLines x n
        { s with cyc := { s.cyc with saves := { x with done := x.done + n } :: r } }

/-- RETAIN_SAVE_BURST (R203, R205): a granted burst of up to 64 lines; the last line of a closing save completes the transition. -/
def retainSaveBurst (s : State) : State :=
  if s.sup.st != .run || !(s.pwr.granted.any fun r => r.rank == 4 && r.unit == 1) then s else
  let s := State.writeSaves s.cyc.saves 64 (s.burstEnd 1)
  if !s.cyc.saves.isEmpty then s.request 4 1 3
  else if s.cyc.leaving then s.finishLeave else s

/-! ### The commands -/

/-- RETAIN_SAVE_BURST. -/
def execRetainSaveBurst (s : State) : Host.Outcome State Fault Refusal := .next (retainSaveBurst s)

end Sys2Proof.Machine
end

