-- ==== Sys2Proof/Machine/Dawn.lean ====
section
/-!
DEFINITION. The Dawn sequence (R493 to R495), supply and its failure (R492, R509), RST_N, and the wake from Midnight mode (R501).
-/
namespace Sys2Proof.Machine

/-- A millisecond in microticks. -/
def msUt : Nat := 1000 * usUt

/-! ### Counters and time (R306, R491) -/

/-- Step 4: the firmware installed by BOOT_UPDATE runs, the power-cycle counter counts, POS is sampled, and a lost Night domain is replaced
by the supervisor's copy. -/
def State.dawnBoot (s : State) : State :=
  let s : State := { s with
    ident := { s.ident with pos := s.pwr.posPins }
    sup := { s.sup with fwVersion := s.sup.fwNext.getD s.sup.fwVersion, fwNext := none }
    pwr := { s.pwr with pcc := (s.pwr.pcc + 1) % 2 ^ 32 } }
  if s.pwr.nightValid then s
  else
    let s := s.set F.PWR_NIGHT_LOST 1
    ({ s with clk := { s.clk with opAcc := s.pwr.opCopy * 781250, opSince := s.clk.t } }).report .NIGHT_LOST srcPwr []

/-- The real-time clock now: what was written and the Night clock since, in steps of 2^-15 s. -/
def State.rtcNow (s : State) : Nat :=
  let v := s.pwr.rtc + (s.clk.t - s.pwr.rtcAt) * 81920
  v * 32768 / secUnits * secUnits / 32768

/-- Step 6: the time of day is initialised (R306); `newest` is the newest record found in the ring. -/
def State.initTod (s : State) (newest : Option Nat) : State :=
  let base := if s.pwr.nightValid then s.rtcNow else 0
  let last := match newest with | some q => stampUnits (s.rdLe (slotAddr q + 0x0E) 8) | none => 0
  let late := newest.isSome && decide (base < last)
  let v := if late then last + 65536000 else base
  ({ s with tmb := { Tmb.reset with offset := v, anchor := s.frc } }).set F.TMB_STAT_TSET (b2n (s.pwr.nightValid && !late))

/-! ### Self-tests (R62, R167) -/

/-- A unit has passed its Dawn self-test. -/
def State.dawnPass (s : State) (u : Nat) : State :=
  if u < 4 then s.modPair u fun q => { q with cmpDawnOk := true, cmpLast := s.optime }
  else (s.setEng (u - 4) { s.eng (u - 4) with cmpLast := s.optime }).set (F.LE_CMPST_DAWN_OK (u - 4)) 1

/-- A unit has failed it; the lane that failed is not said, so it is a free value. -/
def State.dawnFail (s : State) (u : Nat) : State :=
  let lane := (Config.freeValue s.freeCtr).toNat % 2 ^ 32
  if u < 4 then s.free.report .CMP_SELFTEST_FAIL (srcPair u) [u, lane] else s.free.report .LE_SELFTEST_FAIL (srcLe (u - 4)) [u - 4, lane]

/-- The Dawn test of one unit: every lane, and one injection through the fault path, after which the module fault latch must be set; then the
latch is cleared (R62, R167). -/
def State.dawnTest (s : State) (u : Nat) (laneFails latchFails : Bool) : State × Bool :=
  let s : State := { s with sup := { s.sup with faultLatch := !latchFails } }
  let ok := !laneFails && s.sup.faultLatch
  let s := if ok then s.dawnPass u else s.dawnFail u
  ({ s with sup := { s.sup with faultLatch := false } }, ok)

/-- Step 8: every fitted unit is tested; the module fault latch stays clear where all pass. -/
def State.dawnTests (s : State) (laneFails latchFails : BitVec 6) : State × Bool :=
  ((List.range 6).filter fun u => s.unitFitted u).foldl (fun (c : State × Bool) u =>
    let r := c.1.dawnTest u (laneFails.getLsbD u) (latchFails.getLsbD u)
    (r.1, c.2 && r.2)) (s, true)

/-! ### Configuration and image set (steps 9 and 10) -/

/-- The schedule image of the active set is the one that the sealed configuration names, or has come by ACTIVATE since, and the set is whole. -/
def State.runnable (s : State) : Bool :=
  match s.sup.activeSet with
  | some n => s.sealed && !s.imgDamaged && imgLe (s.setTbl n) 0x0C 4 == s.sup.schedId
  | none => false

/-- An engine's program of the active set is in its bank 0, ACTIVE, with its timers as declared. -/
def State.dawnBank (s : State) (e n : Nat) : State :=
  if s.engineFitted e && (imgOf (s.setTbl n) 3 e).isSome then
    let s := ((s.loadBank e 0 (s.setTbl n)).set (leBankF e 0) 3).set (F.LE_BANK_ACTIVE e) 0
    (tget nilD (s.eng e).decl 0).foldl (fun (s : State) (c : Nat × Nat) => s.wrBytes (leTimerAddr e c.1) (leBytes 4 c.2)) s
  else s

/-- The active image set is in use. -/
def State.dawnSet (s : State) (n : Nat) : State :=
  let d := setSched (s.setTbl n)
  let s : State := { s with prog := loadProgs n (s.setTbl n), hx := { s.hx with sched := d, hasSched := true } }
  [0, 1].foldl (fun (s : State) e => s.dawnBank e n) (s.set F.HX_SCHEDID_W d.schedId)

/-- The manifest signature is checked; after a wake only where the set digest is not the one recorded on entry to Midnight mode. -/
def State.dawnSignature (s : State) (n : Nat) : State :=
  let same := s.pwr.midnight.isSome && (tget imageSetD s.sup.sets n).digest == s.pwr.midnightDigest
  if same || s.signatureOk (s.setTbl n) then s else s.damage n

/-- Steps 9 and 10. -/
def State.dawnConfig (s : State) (damaged : Bool) : State :=
  let ok := (s.headerFail s.sup.cfgImage s.sup.cfgLen true).isNone
  let s : State := if s.sealed && !ok then { s with sup := { s.sup with cfgLen := 0 } } else s
  let s := if s.sealed then s.applyImage s.sup.cfgImage else s
  let s := s.set F.PWR_BUDGET_BUDGET (s.get F.PWR_BUDGET_CFG_DEFAULT)
  let s := (s.set F.TVL_STAT_POS s.pos).layOut.ixInit
  match s.sup.activeSet with
  | some n =>
    let s := if s.sealed then (s.dawnSignature n).dawnSet n else s
    if damaged && s.sealed && s.pwr.midnight.isNone then s.damage n else s
  | none => s

/-! ### The end (R434, R435) -/

/-- Forces do not survive a power cycle unless the configuration retains them (R213). -/
def State.dawnForces (s : State) : State :=
  if s.sup.startCause = 0 ∧ !(s.cflag 3) ∧ !s.cyc.forces.isEmpty then
    ({ s with cyc := { s.cyc with forces := [] } }).report .FORCES_CLEARED (srcSup 3) [s.cyc.forces.length]
  else s

/-- The Dawn sequence fails: Dusk with cause 6; the supervisor serves the SCP from then on. -/
def State.dawnDusk (s : State) : State :=
  let s := { s with sup := { s.sup with sready := true }, pwr := { s.pwr with midnight := none } }
  (s.enterDusk 6).notice 1 [BitVec.ofNat 8 s.sup.startCause]

/-- The state that R434 lays down. -/
def State.dawnState (s : State) : MState :=
  if !s.sealed then .config
  else if s.runnable && (s.sup.target == 1 || (s.sup.target == 2 && s.cflag 0)) then .run
  else .stop

/-- The kind of the program start that the Dawn sequence's own Run state has (R196). -/
def State.dawnKind (s : State) : Nat := if s.sup.startCause = 1 ∨ s.sup.startCause = 2 then (if s.sup.warm then 1 else 0) else s.startKind?

/-- Steps 11 and 12: the state is entered, SREADY rises, and READY is given; a RESTART has its notice. -/
def State.dawnDone (s : State) : State :=
  let to_ := s.dawnState
  let s : State := { s with pwr := { s.pwr with midnight := none }, sup := { s.sup with sready := true } }
  let s := match to_ with
    | .run => (s.enterRun (some s.dawnKind) 0 0 3).startCycles
    | m => let s := s.stateChange m 0 0 3; if m = MState.stop then s.startCycles else s
  let s := (s.notice 1 [BitVec.ofNat 8 s.sup.startCause]).canFollow
  let s := match s.sup.longOp with
    | some o => if o.opc = 0x04 then s.longEnd (if o.arg2 = 1 ∧ to_ ≠ MState.run then 0x13 else 0) (if o.arg2 = 1 ∧ to_ ≠ MState.run then s.errNone else []) else s
    | none => s
  ([0, 1, 2, 3].foldl (fun (s : State) p => s.sleep p) s).request 4 0 3

/-- DAWN_END (R493, R495): the sequence runs to its end, or to the step that fails. The instants are the maxima of the table. -/
def dawnEnd (bootFails : Bool) (testFails latchFails : BitVec 6) (damaged : Bool) (s : State) : State :=
  if s.sup.st != .dawn || !s.pwr.good || s.pwr.rstAsserted then s else
  let p := s.pwr.dawnAt
  let wake := s.pwr.midnight.isSome
  let s := s.advance (p + 2100 * usUt)
  let s : State := { s with clk := { s.clk with frcOn := true, frcBase := p + 2100 * usUt } }
  let s := (s.advance (p + 80 * msUt)).dawnBoot
  let s := s.advance (p + 110 * msUt)
  let newest := s.restoreRing.2.1
  let s := s.recRestore
  if bootFails then s.dawnDusk else
  let s := (s.advance (p + 111 * msUt)).initTod newest
  let t := (s.advance (p + (if wake then 141 else 710) * msUt)).dawnTests testFails latchFails
  if !t.2 then t.1.dawnDusk else
  let s := t.1.advance (p + (if wake then 400 else 1500) * msUt)
  ((s.dawnConfig damaged).dawnForces).dawnDone

/-! ### RST_N (R494) -/

/-- RST_N_ASSERT: the module is held in step 1; nothing while MATE is open (R528). A reset from Midnight mode follows R493 (DEDUCED, log 128). -/
def rstNAssert (s : State) : State :=
  if !s.pwr.mated then s else
  let s := s.modPwr fun w => { w with rstAsserted := true }
  match s.sup.st with
  | .night => s
  | st =>
    let s := if st = .dawn then s else s.longEnd 0x40 s.errNone
    let s := if st = .dawn then s else s.stateChange .dawn 0 0 3
    ({ s with sup := { s.sup with warm := true, target := 2 }, pwr := { s.pwr with midnight := none } }).beginDawn 2

/-- RST_N_RELEASE: the Dawn sequence begins. -/
def rstNRelease (s : State) : State :=
  if s.pwr.rstAsserted then s.modPwr fun w => { w with rstAsserted := false, dawnAt := s.clk.t } else s

/-! ### Power-good and supply failure (R492, R509) -/

/-- POWER_GOOD (R509): MATE and supply have held together for 10 ms. -/
def powerGood (s : State) : State :=
  if s.pwr.good || s.sup.st != .night then s else
  let s := s.modPwr fun w => { w with mated := true, good := true, holdupSince := none, warned := false, midnight := none }
  ((({ s with sup := { s.sup with warm := false, target := 2 } }).stateChange .dawn 0 0 3)).beginDawn 0

/-- The supply-fail warning (R492 step 3, R475): the burst, the real-time clock and the counter copies are written. -/
def State.warn (s : State) (mv : Nat) : State :=
  let s := (s.set F.PWR_STAT_SUPPLY 2).modPwr fun w => { w with warned := true, warnedAt := s.clk.t }
  match s.sup.st with
  | .night | .midnight => s
  | _ =>
    let s := s.raise 426
    let s := s.judgeAll s.rcd.reported.length
    let s := s.report .SUPPLY_FAIL srcPwr [s.rcd.intake.length, mv]
    let s := s.judgeAll s.rcd.reported.length
    let s := if s.recRuns then s.flushIntake true else s
    (if s.clk.frcOn then s.writeRtc else s).copyCounters

/-- SUPPLY_FAIL (R492 step 3): the module supply voltage in mV. -/
def supplyFail (mv : Nat) (s : State) : State := if s.pwr.good && !s.pwr.warned && s.pwr.holdupSince.isSome then s.warn mv else s

/-- MATE_OPEN (R509): the warning is given at once; the supply voltage is not said, so it is a free value. -/
def mateOpen (s : State) : State :=
  let s := s.modPwr fun w => { w with mated := false }
  if s.pwr.good && !s.pwr.warned then s.free.warn ((Config.freeValue s.freeCtr).toNat % 2 ^ 32) else s

/-- POWER_GOOD_WITHDRAW (R492 step 4, R407): 1 ms after the warning; what only the supply held is lost. -/
def powerGoodWithdraw (s : State) : State :=
  if !s.pwr.good || !s.pwr.warned then s else
  let s := (s.advance (s.pwr.warnedAt + msUt)).doAllOff
  let c := s.clk
  let s := (s.modPwr fun w => { w with good := false, holdupSince := none, warned := false, midnight := none }).beginDawn 0
  { s with
    clk := ⟨c.t, false, 0, false, if c.opOn then c.opAcc + (c.t - c.opSince) else c.opAcc, c.t⟩
    sup := { s.sup with st := .night, lasts := [], waiting := [], noticeCount := 0, dropped := 0, longOp := none, scpBusyViol := 0,
                        scpPartial := 0, scpWakeFrame := 0 }
    rcd := { s.rcd with reported := [], intake := [], droppedSince := 0, newestDropped := 0 } }

/-! ### Midnight (R501, R502) -/

/-- The condition of a wake source beside its WAKE bit. -/
def State.wakeAble (s : State) (src : Nat) : Bool :=
  match src with
  | 0 => s.clu.isSome
  | 1 => (List.range 6).any fun n => s.canFitted n && s.flag (F.CAN_CFG_WAKE_EN n)
  | _ => true

/-- MIDNIGHT_WAKE (R501): the warm Dawn sequence starts with start cause 3. -/
def midnightWake (src : Nat) (s : State) : State :=
  match s.pwr.midnight with
  | some m =>
    if s.sup.st == .midnight && m.wake.testBit src && s.wakeAble src && s.pwr.good then
      let s := if src = 3 then s.advance (m.since + m.timerS * 800000000) else s
      let s := s.stateChange .dawn 0 0 3
      ({ s with sup := { s.sup with
          wakeBit := src, warm := true, target := m.target, scpWakeFrame := s.sup.scpWakeFrame + b2n (src == 2) } }).beginDawn 3
    else s
  | none => s

/-! ### The commands -/

/-- RST_N_ASSERT. -/
def execRstNAssert (s : State) : Host.Outcome State Fault Refusal := .next (rstNAssert s)
/-- RST_N_RELEASE. -/
def execRstNRelease (s : State) : Host.Outcome State Fault Refusal := .next (rstNRelease s)
/-- POWER_GOOD. -/
def execPowerGood (s : State) : Host.Outcome State Fault Refusal := .next (powerGood s)
/-- DAWN_END. -/
def execDawnEnd (bootFails : Bool) (tests : DawnTests) (damaged : Bool) (s : State) : Host.Outcome State Fault Refusal :=
  .next (dawnEnd bootFails tests.fails tests.latch damaged s)
/-- MATE_OPEN. -/
def execMateOpen (s : State) : Host.Outcome State Fault Refusal := .next (mateOpen s)
/-- SUPPLY_FAIL. -/
def execSupplyFail (mv : Nat) (s : State) : Host.Outcome State Fault Refusal := .next (supplyFail mv s)
/-- POWER_GOOD_WITHDRAW. -/
def execPowerGoodWithdraw (s : State) : Host.Outcome State Fault Refusal := .next (powerGoodWithdraw s)
/-- MIDNIGHT_WAKE. -/
def execMidnightWake (src : Fin 4) (s : State) : Host.Outcome State Fault Refusal := .next (midnightWake src s)

end Sys2Proof.Machine
end

