-- ==== Sys2Proof/Machine/Sup.lean ====
section
/-!
DEFINITION. Requests to the supervisor (R443 to R466): the checks of R465 in their order, refusals and replies, and the end of long
operations; then the commands on module states, configuration, image sets and their activation.
-/
namespace Sys2Proof.Machine

/-! ### Answers -/

/-- What a command's own checks and effect answer. -/
inductive Ans where
  /-- Refused: status, SECTION, CHECK and INDEX of the error block; nothing has been executed. -/
  | refuse (status sec check index : Nat)
  /-- A final reply with its result data. -/
  | reply (data : List Byte) (s : State)
  /-- The command failed through a fault of the module. -/
  | fault (s : State)
  /-- A long operation has begun. -/
  | accepted (data : List Byte) (s : State)
  /-- The reply is given by what follows. -/
  | later (s : State)

/-- A refusal with BAD_PARAM that names nothing. -/
def Ans.badParam : Ans := .refuse 0x12 0 0 0xFFFFFFFF
/-- A refusal found by a check of a table. -/
def Ans.ofFail (f : Fail) : Ans := .refuse f.status f.sec f.check f.index

/-- The origin as R445 keeps it. -/
def reqKey (r : Req) : Origin := originKey r.origin
/-- A number in the payload. -/
def reqNum (r : Req) (ofs n : Nat) : Nat := fieldLe r.payload ofs n
/-- The origin is a local command port. -/
def reqLocal (r : Req) : Bool := match r.origin with | .pairPort _ | .partPort _ => true | _ => false

/-- The reply to a request, which becomes its origin's last one (R445); a local port does not report ACCEPTED (R453). -/
def State.answer (s : State) (r : Req) (opc status : Nat) (data : List Byte) : State :=
  let k : Packet := ⟨opc, 1 + (if r.tag.isSome then 4 else 0), r.seq, originSrc r.origin, status, data, r.tag.map fun t => t.1⟩
  let s := s.setLast (reqKey r) ⟨r.seq, r.trailer, k⟩
  if status = 1 && reqLocal r then s else s.deliver r.origin k

/-- A refusal, recorded with opcode, status and origin (R464). -/
def State.refuse (s : State) (r : Req) (opc status : Nat) (data : List Byte) : State :=
  (s.report .CMD_REFUSED (srcSup (originInst r.origin)) [opc, status, originSrc r.origin]).answer r opc status data

/-! ### Classes of commands (R447, R450, R454) -/

def readClass (opc : Nat) : Bool := [0x01, 0x02, 0x1A, 0x20, 0x28, 0x30, 0x40].contains opc
def longClass (opc : Nat) : Bool := [0x03, 0x04, 0x0A, 0x12, 0x13, 0x18, 0x19, 0x21, 0x38, 0x58].contains opc
def localClass (opc : Nat) : Bool := [0x01, 0x02, 0x1A, 0x20, 0x28, 0x29, 0x30, 0x38, 0x40, 0x41, 0x58].contains opc

/-! ### The checks of R465 -/

/-- Check 5: a FLAGS bit other than TAG, byte 7, or TAG on the SCP or a local port. -/
def badHeader (r : Req) : Bool :=
  r.byte7 != 0 || r.flags &&& 0xFB != 0 ||
    (r.flags.testBit 2 && (match r.origin with | .eth _ _ _ _ _ => false | _ => true))

/-- An HMAC key is provisioned (R451). -/
def State.hasKey (s : State) : Bool := s.sup.hmacId != 0 || s.sup.hmacKey.any fun b => b != 0

/-- The TAG of a request is right and its COUNTER is new (R450). -/
def State.tagOk (s : State) (r : Req) (opc : Nat) : Bool :=
  match r.tag with
  | some (c, t) =>
    let head := [BitVec.ofNat 8 opc, BitVec.ofNat 8 r.flags] ++ leBytes 2 r.seq ++ leBytes 2 r.payload.length ++
      [BitVec.ofNat 8 (originSrc r.origin), BitVec.ofNat 8 r.byte7]
    s.hasKey && (hmac s.sup.hmacKey (head ++ r.payload ++ leBytes 4 c)).take 16 == t && decide (tget natD s.sup.counters (originSrc r.origin) < c)
  | none => false

/-- Check 7. -/
def State.authOk (s : State) (r : Req) (opc : Nat) : Bool :=
  match r.origin with
  | .scp _ => true
  | .eth _ _ _ _ _ => if readClass opc && r.tag.isNone then true else s.tagOk r opc
  | _ => localClass opc

/-- Packets of an IPv4 address are being discarded (R452). -/
def State.lockedOut (s : State) (r : Req) : Bool :=
  match r.origin with
  | .eth _ ip _ _ _ => s.sup.authFails.any fun a => a.ip == ip && (match a.lockedTill with | some t => decide (s.clk.t < t) | none => false)
  | _ => false

/-- An AUTH answer is counted against its IPv4 address; the sixteenth within 60 s locks it out (R452). -/
def State.countAuth (s : State) (r : Req) : State :=
  match r.origin with
  | .eth n ip _ _ _ =>
    let minute := 60000 * msUt
    let old := match s.sup.authFails.find? fun a => a.ip == ip with | some a => a.times | none => []
    let times := s.clk.t :: old.filter fun t => decide (s.clk.t < t + minute)
    let lock := decide (16 ≤ times.length)
    let a : AuthFail := ⟨ip, if lock then [] else times, if lock then some (s.clk.t + minute) else none⟩
    let s : State := { s with sup := { s.sup with authFails := a :: s.sup.authFails.filter fun x => x.ip != ip } }
    if lock then s.report .AUTH_LOCKOUT (srcSup 1) [ip, n] else s
  | _ => s

/-- The COUNTER of an authenticated request is kept (R450), whatever the later checks say. -/
def State.keepCounter (s : State) (r : Req) : State :=
  match r.tag with
  | some (c, _) => { s with sup := { s.sup with counters := tput natD s.sup.counters (originSrc r.origin) c } }
  | none => s

/-- Check 8: the state is one of the command's, in Service from Dusk as R463 lays down. -/
def State.legal (s : State) (opc : Nat) (ok : List MState) : Bool :=
  if s.sup.st == .service && s.sup.fromDusk then
    (ok.contains .service && ok.contains .dusk) || decide (0x71 ≤ opc ∧ opc ≤ 0x78)
  else ok.contains s.sup.st

/-- The session of another origin that stands against a command, or a second BEGIN (R448): the owner's SRC. -/
def State.sessionLock (s : State) (r : Req) (opc : Nat) : Option Nat :=
  let cfg := s.sup.cfgSess.bind fun c =>
    if (opc == 0x09 || opc == 0x0A) && c.owner != (reqKey r) || (opc == 0x08 && !(c.owner == (reqKey r) && reqNum r 0 4 == 0)) then some (originSrc c.owner) else none
  let load := s.sup.loadSess.bind fun c =>
    if (opc == 0x11 || opc == 0x12) && c.owner != (reqKey r) || opc == 0x10 then some (originSrc c.owner) else none
  cfg.or load

/-- Check 9 in Service from Dusk (R461). -/
def State.evidence (s : State) (opc : Nat) : Bool :=
  s.sup.st == .service && s.sup.fromDusk && [0x72, 0x73, 0x74, 0x76, 0x77, 0x78].contains opc

/-- An ACTIVATE in the Run state awaits its boundary. -/
def State.activateWaits (s : State) : Bool :=
  s.sup.st == .run && (match s.sup.longOp, s.cyc.change with | some o, some c => o.opc == 0x13 && !c.switched | _, _ => false)

/-- Check 10 on long operations (R447). -/
def State.busy (s : State) (r : Req) (opc : Nat) : Bool :=
  let yields := opc == 0x04 || (s.activateWaits && (opc == 0x58 || (opc == 0x03 && (reqNum r 0 1 == 0 || reqNum r 0 1 == 2))))
  longClass opc && s.sup.longOp.isSome && !yields

/-- Check 10 on the transport: the request finds no place (R452, R453). -/
def State.noPlace (s : State) (r : Req) : Bool :=
  match r.origin with
  | .eth _ _ _ _ _ => decide (8 < s.sup.ethHeld)
  | .scp _ => false
  | _ => decide (16 < s.sup.portWait)

/-- A session stays open while its origin sends commands (R448). -/
def State.touch (s : State) (r : Req) : State :=
  { s with sup := { s.sup with
    cfgSess := s.sup.cfgSess.map fun c => if c.owner = (reqKey r) then { c with lastAt := s.clk.t } else c
    loadSess := s.sup.loadSess.map fun c => if c.owner = (reqKey r) then { c with lastAt := s.clk.t } else c } }

/-- An accepted write-class command is recorded (R464, R455). -/
def State.acceptMark (s : State) (r : Req) (opc : Nat) : State :=
  if readClass opc then s else
  let s := s.report .CMD_ACCEPTED (srcSup (originInst r.origin)) [opc, originSrc r.origin]
  if reqLocal r then s else s.raise 414

/-- What precedes the checks: the request leaves the transport's store, and its session is kept alive. -/
def State.take (s : State) (r : Req) : State :=
  let s := s.touch r
  match r.origin with
  | .eth _ _ _ _ _ => { s with sup := { s.sup with ethHeld := s.sup.ethHeld - 1 } }
  | _ => s

/-- The request is a retransmission: the stored reply is given again (R445). -/
def State.again (s : State) (r : Req) : Option State :=
  match s.lastReq (reqKey r) with
  | some l => if l.seq = r.seq ∧ l.trailer = r.trailer then some (s.deliver r.origin l.reply) else none
  | none => none

/-- The supervisor takes requests: not in Night, Dawn and Midnight (R440, R463). -/
def State.serving (s : State) : Bool := match s.sup.st with | .night | .dawn | .midnight => false | _ => true

/-- The reply or refusal that an answer of the command itself means. -/
def State.conclude (s : State) (r : Req) (opc : Nat) : Ans → State
  | .refuse st sec check index => s.refuse r opc st (s.errBlock sec check index)
  | .reply data t => t.answer r opc 0 data
  | .fault t => t.answer r opc 0x40 t.errNone
  | .accepted data t => t.answer r opc 1 data
  | .later t => t

/-- Checks 5 to 10 of R465 in their order: the status and INDEX of the refusal. -/
def State.early (s : State) (r : Req) (opc : Nat) (ok : List MState) (full : Bool) : Option (Nat × Nat) :=
  if badHeader r then some (0x12, 0xFFFFFFFF)
  else if !(s.authOk r opc) then some (0x30, 0xFFFFFFFF)
  else if !(s.legal opc ok) then some (0x20, 0xFFFFFFFF)
  else match s.sessionLock r opc with
    | some n => some (0x22, n)
    | none => if s.evidence opc then some (0x22, 0xFFFFFFFF) else if full || s.busy r opc then some (0x23, 0xFFFFFFFF) else none

/-- A request of an assigned opcode (R465): `ok` are the states in which it is legal, `len` its payload lengths, `body` its own checks and
its effect. -/
def State.command (s : State) (r : Req) (opc : Nat) (ok : List MState) (len : Nat → Bool) (body : State → Ans) : State :=
  if !s.serving then s else
  let full := s.noPlace r
  let s := s.take r
  match s.again r with
  | some t => t
  | none =>
    if !(badHeader r) && s.lockedOut r then s else
    match s.early r opc ok full with
    | some (st, i) =>
      let t := (if st = 0x12 ∨ st = 0x30 then s else s.keepCounter r).refuse r opc st (s.errBlock 0 0 i)
      if st = 0x30 then t.countAuth r else t
    | none =>
      let s := s.keepCounter r
      if !(len r.payload.length) then s.refuse r opc 0x11 s.errNone
      else s.conclude r opc (body (s.acceptMark r opc))

/-! ### Long operations (R446, R447) -/

/-- A long operation begins for a request. -/
def State.begin_ (s : State) (r : Req) (opc arg arg2 : Nat) : State :=
  { s with sup := { s.sup with longOp := some ⟨opc, r.origin, r.seq, r.trailer, r.tag.map fun t => t.1, none, arg, arg2⟩ } }

/-- The operation in progress ends with its outcome; a refusal is recorded (R464). -/
def State.longFinish (s : State) (status : Nat) (data : List Byte) : State :=
  match s.sup.longOp with
  | some o =>
    let s := if status = 0 ∨ status = 0x40 then s else s.report .CMD_REFUSED (srcSup (originInst o.origin)) [o.opc, status, originSrc o.origin]
    s.longEnd status data
  | none => s

/-- The ACTIVATE that awaits its boundary gives way to SET_MODE or MIDNIGHT: its switch is made at once and its notice follows; one that
the members have not all accepted is dropped (R447, R466). -/
def State.yieldActivate (s : State) : State :=
  if !s.activateWaits then s else
  match s.sup.longOp with
  | some o =>
    if o.arg2 = 1 then s.dropChange
    else
      let s := s.switchNow
      (match s.sup.longOp with
       | some p => (match p.outcome with | some c => s.longEnd c.1 c.2 | none => s.longEnd 0 [])
       | none => s)
  | none => s

/-! ### Module states (R434, R460) -/

/-- The six states of R463. -/
def allStates : List MState := [.config, .stop, .run, .hold, .service, .dusk]

/-- The active image set as DESCRIBE and GET_STATE report it. -/
def State.activeByte (s : State) : Byte := BitVec.ofNat 8 (s.sup.activeSet.getD 0xFF)

/-- DESCRIBE. -/
def describe (r : Req) (s : State) : State :=
  s.command r 0x01 allStates (· == 0) fun s =>
    let set (n : Nat) : ImageSet := tget imageSetD s.sup.sets n
    let flags := b2n (set 0).verified + 2 * b2n (set 1).verified + 4 * b2n (set 0).damaged + 8 * b2n (set 1).damaged
    .reply (leBytes 4 (sysId s.ident) ++ leBytes 4 (cap0 s.ident.variant) ++ leBytes 4 (cap1 s.ident) ++ leBytes 4 s.sup.fwVersion ++
      beBytes 6 s.ident.mac ++ [BitVec.ofNat 8 s.sup.st.code, BitVec.ofNat 8 s.sflags] ++ leBytes 4 (if s.sealed then s.configId else 0) ++
      [s.activeByte, BitVec.ofNat 8 flags, 0, 0] ++ leBytes 4 s.sup.hmacId ++ leBytes 4 s.pwr.pcc ++ leBytes 6 s.optime ++ [0, 0] ++
      padTo 32 (set 0).digest ++ padTo 32 (set 1).digest) s

/-- GET_STATE. -/
def getState (r : Req) (s : State) : State :=
  s.command r 0x02 allStates (· == 0) fun s =>
    .reply ([BitVec.ofNat 8 s.sup.st.code, BitVec.ofNat 8 s.sflags, BitVec.ofNat 8 s.mstate, BitVec.ofNat 8 s.sup.lastStart] ++
      leBytes 2 s.sup.duskCause ++ [s.activeByte, 0] ++ leBytes 4 (s.get F.HX_FRAME_W) ++ leBytes 4 (s.get F.TVL_MFC_W)) s

/-- The forces that a cold start clears, as its reply lists them (R194). -/
def State.forceListing (s : State) (kind : Nat) : List Byte :=
  if kind = 0 ∧ !s.cyc.forces.isEmpty then activateData 0xFFFFFFFF (s.cyc.forces.map fun f => f.ident) else []

/-- SET_MODE (R434, R437, R192, R193, R205). -/
def setMode (r : Req) (s : State) : State :=
  s.command r 0x03 [.stop, .run, .hold] (· == 1) fun s =>
    let t := reqNum r 0 1
    let st := s.sup.st
    let same := (t == 0 && st == .stop) || (t == 1 && st == .run && !s.cyc.leaving) || (t == 2 && st == .hold)
    if 2 < t then .badParam
    else if same then .reply [] s
    else if t == 2 && st == .stop then .refuse 0x20 0 0 0xFFFFFFFF
    else if t = 1 then
      if !s.runnable then .refuse 0x13 0 0 0xFFFFFFFF
      else
        let kind : Option Nat := if st = .stop then some s.startKind? else none
        let listed := match kind with | some k => s.forceListing k | none => []
        .accepted listed ((s.begin_ r 0x03 1 0).enterRun kind 0x03 (originSrc r.origin) (originInst r.origin))
    else
      let s := (s.yieldActivate).begin_ r 0x03 t 0
      if st = .run then .accepted [] s.leaveRun
      else .accepted [] ((match s.sup.longOp with | some o => s.toStop o | none => s).longDone 0x03 0 [])

/-- RESTART (R434, R196, R447): the operation in progress ends with FAULT; a warm one leaves the Run state with the closing save. -/
def restart (r : Req) (s : State) : State :=
  s.command r 0x04 allStates (· == 2) fun s =>
    let kind := reqNum r 0 1
    let target := reqNum r 1 1
    if 1 < kind ∨ 2 < target then .badParam
    else
      let change := match s.cyc.change with | some c => c.switched | none => false
      let s := s.longEnd 0x40 s.errNone
      let s := if change then s.switchNow else s
      let listed := if kind = 1 ∧ (target = 1 ∨ (target = 2 ∧ s.cflag 0)) then s.forceListing 0 else []
      let s := s.begin_ r 0x04 kind target
      if s.sup.st = .run ∧ kind = 0 then .accepted listed (if s.cyc.leaving then s else s.leaveRun)
      else .accepted listed (match s.sup.longOp with | some o => s.restartNow o | none => s)

/-! ### Configuration (R448, R456, R457) -/

/-- CONFIG_BEGIN. -/
def configBegin (r : Req) (s : State) : State :=
  s.command r 0x08 [.config, .stop] (· == 4) fun s =>
    let n := reqNum r 0 4
    if n = 0 then
      let s : State := { s with sup := { s.sup with cfgSess := none } }
      .reply [] (if s.sup.st = .config ∧ s.sealed then
        (s.stateChange .stop 0x08 (originSrc r.origin) (originInst r.origin)).startCycles else s)
    else if n < 64 ∨ 983040 < n then .badParam
    else
      let s : State := { s with sup := { s.sup with cfgSess := some ⟨(reqKey r), n, [], s.clk.t⟩ } }
      .reply [] (if s.sup.st = .stop then
        ({ s with cyc := { s.cyc with resumeOk := false } }.stopCycles).stateChange .config 0x08 (originSrc r.origin) (originInst r.origin)
      else s)

/-- CONFIG_WRITE. -/
def configWrite (r : Req) (s : State) : State :=
  s.command r 0x09 [.config] (fun n => decide (5 ≤ n)) fun s =>
    match s.sup.cfgSess with
    | some c =>
      let d := r.payload.drop 4
      if c.imageLen < reqNum r 0 4 + d.length then .badParam
      else .reply [] { s with sup := { s.sup with cfgSess := some { c with bytes := tputList byteD c.bytes (reqNum r 0 4) d } } }
    | none => .badParam

/-- CONFIG_SEAL. -/
def configSeal (r : Req) (s : State) : State :=
  s.command r 0x0A [.config] (· == 0) fun s =>
    match s.sup.cfgSess with
    | some _ => .accepted [] (s.begin_ r 0x0A 0 0)
    | none => .badParam

/-- The image as it is kept: key bytes of type 26 sections set to 0 and the trailer recomputed (R451). -/
def sealedImage (b : Tbl Byte) (n : Nat) : Tbl Byte :=
  let keys := (cfgDir b).filter fun d => d.ty == 26
  if keys.isEmpty then b else
  let b := keys.foldl (fun (b : Tbl Byte) d => memClear b (d.ofs + 4) (d.ofs + 36)) b
  tputList byteD b (n - 4) (leBytes 4 (crc32c (tgetList byteD b 0 (n - 4))))

/-- The HMAC key of an image takes effect (R451). -/
def State.takeKey (s : State) (b : Tbl Byte) : State :=
  match (cfgDir b).find? fun d => d.ty == 26 with
  | some d => { s with sup := { s.sup with hmacId := imgLe b d.ofs 4, hmacKey := tgetList byteD b (d.ofs + 4) 32 } }
  | none => s

/-- The image set whose schedule image a configuration names: the active one, else another that is verified and whole. -/
def State.setNamed (s : State) (schedId : Nat) : Option Nat :=
  let fits (n : Nat) : Bool :=
    let x := tget imageSetD s.sup.sets n
    x.verified && !x.damaged && imgLe x.bytes 0x0C 4 == schedId
  match s.sup.activeSet with
  | some a => if fits a then some a else [0, 1].find? fits
  | none => [0, 1].find? fits

/-- The state in which a configuration is judged: its registers and tables in force, with the schedule image it names. -/
def State.candidate (s : State) (b : Tbl Byte) : State × Option Nat :=
  let n := s.setNamed (imgLe b 0x10 4)
  let s := ({ s with sup := { s.sup with cfgImage := b } }).applyImage b
  match n with
  | some k => ({ s with hx := { s.hx with sched := setSched (s.setTbl k) } }, n)
  | none => (s, n)

/-- Every check of CONFIG_SEAL (R457). -/
def State.sealFail (s : State) (b : Tbl Byte) (n : Nat) (scp : Bool) : Option Fail :=
  match s.headerFail b n scp with
  | some f => some f
  | none =>
    match s.regsFail (cfgRegs b s.ident.pos) with
    | some f => some f
    | none =>
      let c := s.candidate b
      match c.1.tablesFail b (c.2.map fun k => setSched (s.setTbl k)) with
      | some f => some f
      | none => match c.2 with
        | some k => c.1.setFail k (s.setTbl k)
        | none => none

/-- The completion of CONFIG_SEAL: the Stop state with the new configuration, or a refusal that leaves everything as it was. -/
def State.sealNow (s : State) (o : LongOp) : State :=
  match s.sup.cfgSess with
  | none => s.longEnd 0x40 s.errNone
  | some c =>
    let scp := match c.owner with | .scp _ => true | _ => false
    match s.sealFail c.bytes c.imageLen scp with
    | some f =>
      s.longFinish f.status (s.errBlock f.sec f.check f.index)
    | none =>
      let s := s.takeKey c.bytes
      let s := s.applyImage c.bytes
      let s : State := { s with
        sup := { s.sup with cfgImage := sealedImage c.bytes c.imageLen, cfgLen := c.imageLen, schedId := imgLe c.bytes 0x10 4, cfgSess := none }
        cyc := { s.cyc with resumeOk := false } }
      let s := s.layOut.ixInit
      let s := if s.noWitness then s.report .DUPLEX_NO_WITNESS srcTvl [] else s
      let s := match s.sup.activeSet with | some k => if s.hx.hasSched then s else s.dawnSet k | none => s
      let s := (s.opChange o .stop).startCycles
      s.longEnd 0 (leBytes 4 s.configId)

/-! ### Image sets (R437, R448, R458, R460) -/

/-- The states of the LOAD commands. -/
def loadStates : List MState := [.config, .stop, .run, .hold]

/-- Poisoned lines of a set's program store are good again: the set is written anew. -/
def State.cleanStore (s : State) (n : Nat) : State :=
  let lo := storePoison n 0
  let hi := storePoison (n + 1) 0
  { s with hxm := { s.hxm with homePoison := s.hxm.homePoison.filter fun x => !decide (lo ≤ x ∧ x < hi) } }

/-- LOAD_BEGIN: the inactive set is emptied, and its damage mark cleared (R437). -/
def loadBegin (r : Req) (s : State) : State :=
  s.command r 0x10 loadStates (· == 8) fun s =>
    let n := reqNum r 0 1
    let len := reqNum r 4 4
    if 1 < n ∨ reqNum r 1 3 ≠ 0 ∨ len = 0 ∨ 0x8000000 < len then .badParam
    else if s.sup.activeSet = some n then .refuse 0x22 0 0 0xFFFFFFFF
    else
      let x : ImageSet := { ImageSet.empty with len := len }
      .reply [] ({ s with sup := { s.sup with sets := tput imageSetD s.sup.sets n x, loadSess := some ⟨(reqKey r), n, len, s.clk.t⟩ } }.cleanStore n)

/-- LOAD_BLOCK. -/
def loadBlock (r : Req) (s : State) : State :=
  s.command r 0x11 loadStates (fun n => decide (8 ≤ n)) fun s =>
    match s.sup.loadSess with
    | some c =>
      let d := r.payload.drop 4
      let x := tget imageSetD s.sup.sets c.set
      if reqNum r 0 4 % 4 ≠ 0 ∨ c.setLen < reqNum r 0 4 + d.length then .badParam
      else .reply [] { s with sup := { s.sup with sets := tput imageSetD s.sup.sets c.set { x with bytes := tputList byteD x.bytes (reqNum r 0 4) d } } }
    | none => .badParam

/-- An engine's inactive bank begins to load the program of a set, unless a bank holds it already (R188). -/
def State.bankLoad (s : State) (n e : Nat) : State :=
  match imgOf (s.setTbl n) 3 e with
  | some m =>
    if !(s.engineFitted e) || (s.bankWith e m.pid).isSome then s else s.set (leBankF e (s.otherBank e)) 1
  | none => s

/-- What LOAD_VERIFY finds: format and digests, the signature, and the engine code (R458, R177). -/
def State.verifyFail (s : State) (n len : Nat) : Option Fail :=
  let b := s.setTbl n
  match manifestFail b len with
  | some f => some { f with status := 0x13 }
  | none => if !(s.signatureOk b) then some ⟨0x30, 22, 0, 0xFFFFFFFF⟩ else s.programsFail (setSched b) b

/-- LOAD_VERIFY: the checks decide the outcome at once, or the engine banks that the set needs are loaded first. -/
def loadVerify (r : Req) (s : State) : State :=
  s.command r 0x12 loadStates (· == 0) fun s =>
    match s.sup.loadSess with
    | some c =>
      let t := s.begin_ r 0x12 c.set 0
      (match s.verifyFail c.set c.setLen with
       | some f => .accepted [] (t.longDone 0x12 f.status (s.errBlock f.sec f.check f.index))
       | none => .accepted [] ((t.bankLoad c.set 0).bankLoad c.set 1))
    | none => .badParam

/-- The completion of LOAD_VERIFY once every bank is READY: the set is verified, the session closes. -/
def State.verified (s : State) (n : Nat) : State :=
  if [0, 1].any fun e => s.engineFitted e && [0, 1].any fun b => s.get (leBankF e b) == 1 then s else
  let x := tget imageSetD s.sup.sets n
  let d := setDigest x.bytes
  let s : State := { s with sup := { s.sup with loadSess := none, sets := tput imageSetD s.sup.sets n { x with verified := true, digest := d } } }
  s.longEnd 0 d

/-! ### The commands -/

/-- DESCRIBE. -/
def execDescribe (r : Req) (s : State) : Host.Outcome State Fault Refusal := .next (describe r s)
/-- GET_STATE. -/
def execGetState (r : Req) (s : State) : Host.Outcome State Fault Refusal := .next (getState r s)
/-- SET_MODE. -/
def execSetMode (r : Req) (s : State) : Host.Outcome State Fault Refusal := .next (setMode r s)
/-- RESTART. -/
def execRestart (r : Req) (s : State) : Host.Outcome State Fault Refusal := .next (restart r s)
/-- CONFIG_BEGIN. -/
def execConfigBegin (r : Req) (s : State) : Host.Outcome State Fault Refusal := .next (configBegin r s)
/-- CONFIG_WRITE. -/
def execConfigWrite (r : Req) (s : State) : Host.Outcome State Fault Refusal := .next (configWrite r s)
/-- CONFIG_SEAL. -/
def execConfigSeal (r : Req) (s : State) : Host.Outcome State Fault Refusal := .next (configSeal r s)
/-- LOAD_BEGIN. -/
def execLoadBegin (r : Req) (s : State) : Host.Outcome State Fault Refusal := .next (loadBegin r s)
/-- LOAD_BLOCK. -/
def execLoadBlock (r : Req) (s : State) : Host.Outcome State Fault Refusal := .next (loadBlock r s)
/-- LOAD_VERIFY. -/
def execLoadVerify (r : Req) (s : State) : Host.Outcome State Fault Refusal := .next (loadVerify r s)

end Sys2Proof.Machine
end

