-- ==== Sys2Proof/Machine/SupCmd.lean ====
section
/-!
DEFINITION. The supervisor's commands on activation, forces, variables, the recorder, time, the network, leases, tests, power and Midnight
mode (R460, R462, R479, R483, R484), and what happens at its ports and to its sessions (R441, R446, R448, R452, R453, R465, R513).
-/
namespace Sys2Proof.Machine

/-- Bytes of result data that a reply has room for (R443, R453). -/
def replyRoom (r : Req) : Nat := if reqLocal r then 2036 else 4096

/-! ### ACTIVATE (R118, R188, R209, R437, R460) -/

/-- An engine program of the set is in a bank of its engine, READY or ACTIVE (R188). -/
def State.banksFail (s : State) (b : Tbl Byte) : Option Fail :=
  failBelow 2 fun e => [match imgOf b 3 e with
    | some m => needCheck (!(s.engineFitted e) || (s.bankWith e m.pid).isSome) 21 0 e
    | none => none]

/-- What refuses an ACTIVATE in either state. -/
def State.activateFail (s : State) (n : Nat) : Option Fail :=
  let x := tget imageSetD s.sup.sets n
  let b := s.setTbl n
  firstFail [
    needCheck (!x.damaged) 22 0 n,
    need x.verified 22 0 n,
    if s.signatureOk b then none else some ⟨0x30, 22, 0, 0xFFFFFFFF⟩,
    s.setFail n b,
    need (!s.runnable || (setSched b).tgMt * mtUt == s.tg) 0 0 0x10,
    s.banksFail b,
    if s.cflag 1 && !s.cyc.forces.isEmpty then some ⟨0x24, 23, 0, 0xFFFFFFFF⟩ else none]

/-- The task cycles that a task loses while windows that start less than `cp` microticks after B stay closed (R209). -/
def lostCycles (d : Sched) (n : Nat) (t : Task) (cp : Nat) : Nat :=
  match d.groups[t.group]? with
  | some g =>
    ((List.range (cp / (d.frameMt * mtUt) + 1)).flatMap fun k =>
      ((d.winsOf n).filter fun c => decide ((c.2.start + k * d.frameMt) * mtUt < cp)).map fun c =>
        (c.2.start + (k + 2) * d.frameMt - d.frz0 g) / d.tcMt g).eraseDups.length
  | none => 0

/-- Bytes of the values that a change carries. -/
def State.carriedSize (s : State) (p : Progs) : Nat :=
  (s.changedOwners p).foldl (fun a u =>
    (s.carriedBlocks p u).foldl (fun a x => a + x.1.len) ((s.carriedVars p u).foldl (fun a x => a + x.1.size) a)) 0

/-- What refuses an ACTIVATE in the Run state (R209). -/
def State.changeFail (s : State) (n : Nat) (cp : List (Nat × Nat)) : Option Fail :=
  let d := setSched (s.setTbl n)
  firstFail [
    failAt d.tasks fun i t => [need (match cp.find? fun c => c.1 == t.owner with
      | some c => decide (lostCycles d i t c.2 ≤ imgLe s.sup.cfgImage 0x16 1)
      | none => true) 5 0 i],
    need (decide (s.carriedSize (s.progsOf n) ≤ 0x40000)) 10 0 0xFFFFFFFF]

/-- ACTIVATE in the Stop state: image set, schedule and engine banks are switched before the reply. -/
def State.activateStop (s : State) (n : Nat) : State :=
  let tg := s.tg
  let s := (s.switchSched n).takeSet n
  let c := { s.cyc with resumeOk := false }
  { s with cyc := if tg = 0 then { c with start := s.clk.t, count := 0, n := c.n + 1 } else c }

/-- ACTIVATE. -/
def activate (r : Req) (s : State) : State :=
  s.command r 0x13 [.stop, .run] (· == 1) fun s =>
    let n := reqNum r 0 1
    if 1 < n then .badParam else
    match s.activateFail n with
    | some f => .ofFail f
    | none =>
      let dropped := s.droppedForces (s.progsOf n)
      if s.sup.st = .stop then .reply (activateData 0xFFFFFFFF dropped) (s.activateStop n)
      else if s.cyc.change.isSome then .refuse 0x23 0 0 0xFFFFFFFF
      else
        let cp := s.changeIntervals n
        match s.changeFail n cp with
        | some f => .ofFail f
        | none =>
          let b := (s.get F.TVL_MFC_W + 3) % 2 ^ 32
          let joint := !s.simplex && s.mstate == 4
          let t := (s.begin_ r 0x13 n (b2n joint)).layChangeTo n b cp
          if joint then .later { t with tvl := { t.tvl with activateAcks := [] } } else .accepted (activateData b dropped) t

/-! ### Forces and variables (R211, R212, R460, R462) -/

/-- Bytes of a group's output image lie in a safety-class output group. -/
def State.safetyFed (s : State) (g ofs n : Nat) : Bool :=
  (List.range 16).any fun k => s.flag (F.TVL_OGRP_EN k) && s.flag (F.TVL_OGRP_SAFETY k) && s.ogGroup k == g && meets ofs n (s.ogOfs k) (s.ogLen k)

/-- A force that R212 locks: a variable of a safety-class output group or of a local safety input. -/
def State.forceLocked (s : State) (v : VarEntry) : Bool :=
  !(s.cflag 2) && (if v.space = 2 then s.safetyFed v.group v.addr (max 1 v.size)
    else s.cfg.sigs.any fun e => e.kind == 4 && e.group == v.group && meets v.addr (max 1 v.size) e.imgOfs e.len)

/-- A variable feeds a safety-class output group: a task of its partition or engine contributes to one (R462). -/
def State.writeLocked (s : State) (v : VarEntry) : Bool :=
  !(s.cflag 2) && s.hx.sched.tasks.any fun t => t.owner == v.part && t.outLen != 0 && s.safetyFed t.group t.outOfs t.outLen

/-- The task cycle that a force change names, three task cycles on: TVL_MFC and CCOUNT (R242). -/
def State.changeCycle (s : State) (g : Nat) : Nat × Nat :=
  let k := match s.group? g with | some d => 2 ^ d.k | none => 1
  let cc := ((s.grp g).frzCount + 3 * k) % 256
  let ahead := (cc + 256 - s.cyc.count) % 256
  ((s.get F.TVL_MFC_W + (s.cyc.count % s.mfLen + ahead) / s.mfLen) % 2 ^ 32, cc)

/-- A force change or write begins: agreed with the other members (R242), or laid down at once. -/
def State.askChange (s : State) (r : Req) (opc ident g : Nat) (what : ForceWhat) : Ans :=
  let t := s.begin_ r opc ident 0
  if !s.simplex && s.mstate == 4 then
    let c := s.changeCycle g
    .accepted [] { t with tvl := { t.tvl with forceProp := t.tvl.forceProp ++ [(⟨c.1, c.2, ident, what, []⟩ : ForceProp)] } }
  else .accepted [] (t.layChange ident what)

/-- The states of R463 for forces and writes. -/
def forceStates : List MState := [.stop, .run, .hold, .service]

/-- FORCE_SET. -/
def forceSet (r : Req) (s : State) : State :=
  s.command r 0x18 forceStates (· == 16) fun s =>
    let ident := reqNum r 0 4
    let bad := Ans.refuse 0x12 23 0 ident
    match s.var? ident with
    | some v =>
      if reqNum r 4 4 ≠ 0 ∨ !(within 1 8 v.typ) ∨ !(within 1 2 v.space) then bad
      else if 256 ≤ s.cyc.forces.length ∧ !(s.cyc.forces.any fun f => f.ident == ident) then bad
      else if s.forceLocked v then .refuse 0x22 23 0 ident
      else s.askChange r 0x18 ident v.group (.force (reqNum r 8 8 % (if v.typ = 1 then 2 else 2 ^ (8 * v.size))))
    | none => bad

/-- FORCE_CLEAR; where no force is set on the identity it completes at once. -/
def forceClear (r : Req) (s : State) : State :=
  s.command r 0x19 forceStates (· == 4) fun s =>
    let ident := reqNum r 0 4
    match s.cyc.forces.find? fun f => f.ident == ident || ident == 0xFFFFFFFF with
    | some f => s.askChange r 0x19 ident f.group .clear
    | none => .accepted [] ((s.begin_ r 0x19 ident 0).longDone 0x19 0 (s.cycleTag 0))

/-- An entry of FORCE_LIST. -/
def Force.entry (f : Force) : List Byte :=
  leBytes 4 f.ident ++ [BitVec.ofNat 8 f.typ, BitVec.ofNat 8 f.space, BitVec.ofNat 8 (b2n f.applied), 0] ++ leBytes 8 f.value

/-- The force table: a force that another on the same identity replaces is no longer in it. -/
def State.forceTable (s : State) : List Force :=
  s.cyc.forces.filter fun f => !(f.clearing && s.cyc.forces.any fun g => g.ident == f.ident && !g.clearing)

/-- FORCE_LIST. -/
def forceList (r : Req) (s : State) : State :=
  s.command r 0x1A allStates (· == 2) fun s =>
    let l := (s.forceTable.drop (reqNum r 0 2)).take ((replyRoom r - 4) / 16)
    .reply (leBytes 2 s.forceTable.length ++ leBytes 2 l.length ++ l.flatMap Force.entry) s

/-- The bytes of a variable that OFFSET and LENGTH name (R462): all of it, or part of a BLOCK. -/
def varSpan (v : VarEntry) (ofs n : Nat) : Option (Nat × Nat) :=
  if v.typ ≠ 0x20 ∧ (ofs ≠ 0 ∨ n ≠ 0) then none
  else if n = 0 then some (0, v.size)
  else if ofs + n ≤ v.size then some (ofs, n)
  else none

/-- One record of READ_VAR. -/
def State.readRecord (s : State) (ident ofs n : Nat) : List Byte :=
  let rec_ (st : Byte) (d : List Byte) : List Byte := [st, 0] ++ leBytes 2 d.length ++ padTo (roundUp d.length 4) d
  match s.var? ident with
  | none => rec_ 1 []
  | some v => match varSpan v ofs n with
    | some c => rec_ 0 (s.varBytes v c.1 c.2)
    | none => rec_ 2 []

/-- The records that fit a reply: their count and bytes. -/
def fitRecords : Nat → List (List Byte) → Nat × List Byte
  | _, [] => (0, [])
  | room, x :: l => if x.length ≤ room then let c := fitRecords (room - x.length) l; (c.1 + 1, x ++ c.2) else (0, [])

/-- READ_VAR. -/
def readVar (r : Req) (s : State) : State :=
  s.command r 0x20 [.stop, .run, .hold, .service, .dusk] (fun n => n % 8 == 0 && decide (n ≤ 512)) fun s =>
    let l := (List.range (r.payload.length / 8)).map fun i => s.readRecord (reqNum r (8 * i) 4) (reqNum r (8 * i + 4) 2) (reqNum r (8 * i + 6) 2)
    let c := fitRecords (replyRoom r - 4) l
    .reply (leBytes 2 c.1 ++ [0, 0] ++ c.2) s

/-- WRITE_VAR. -/
def writeVar (r : Req) (s : State) : State :=
  s.command r 0x21 forceStates (fun n => decide (9 ≤ n)) fun s =>
    let ident := reqNum r 0 4
    let d := r.payload.drop 8
    let bad := Ans.refuse 0x12 10 0 ident
    match s.var? ident with
    | some v =>
      if v.space ≠ 0 ∧ v.space ≠ 3 then bad else
      match varSpan v (reqNum r 4 2) (reqNum r 6 2) with
      | some c =>
        if d.length ≠ c.2 then .refuse 0x11 0 0 0xFFFFFFFF
        else if s.writeLocked v then .refuse 0x22 10 0 ident
        else s.askChange r 0x21 ident (s.varGroup v) (.write c.1 d)
      | none => bad
    | none => bad

/-! ### The recorder (R479, R483, R484) -/

/-- The oldest record retained. -/
def State.recOldest (s : State) : Nat := if s.rcd.nextSeq < 65536 then 0 else s.rcd.nextSeq - 65536

/-- REC_READ. -/
def recRead (r : Req) (s : State) : State :=
  s.command r 0x28 allStates (· == 6) fun s =>
    let count := reqNum r 4 2
    if !(within 1 63 count) then .badParam
    else
      let first := max (reqNum r 0 4) s.recOldest
      let n := if s.rcd.empty ∨ s.rcd.nextSeq ≤ first then 0 else min (min count ((replyRoom r - 8) / 64)) (s.rcd.nextSeq - first)
      .reply (leBytes 4 (if n = 0 then s.rcd.nextSeq else first) ++ leBytes 2 n ++ [0, 0] ++
        (List.range n).flatMap fun i => s.rdBytes (slotAddr (first + i)) 64) s

/-- REC_MARK: the events reported before it are judged first; the reply is given when the record is written. -/
def recMark (r : Req) (s : State) : State :=
  s.command r 0x29 allStates (within 2 32) fun s =>
    let code := reqNum r 0 2
    if !(within 0x300 0x37F code) then .badParam else
    let s := s.judgeAll s.rcd.reported.length
    match s.catNum code with
    | some e =>
      if !(s.hasToken e) ∨ !(s.recRoom false) then .refuse 0x23 0 0 0xFFFFFFFF
      else
        let text := r.payload.drop 2
        let snap := padTo 32 ([BitVec.ofNat 8 (originSrc r.origin), BitVec.ofNat 8 text.length] ++ text)
        let words := (List.range 8).map fun i => BitVec.ofNat 32 (fieldLe snap (4 * i) 4)
        let x := s.recItem e (srcSup (originInst r.origin)) s.stamp (s.flag F.TMB_STAT_TSET) s.frc words
        .later ((s.takeToken e).takeSuppr e e.always { x with reply := some ⟨r.origin, r.seq, r.trailer, r.tag.map fun t => t.1⟩ })
    | none => .badParam

/-- The name of a code. -/
def RCodeName : RCode → String
  | .POWER_ON => "POWER_ON"
  | .SUPPLY_FAIL => "SUPPLY_FAIL"
  | .RECORDER_OVERFLOW => "RECORDER_OVERFLOW"
  | .STATE_CHANGE => "STATE_CHANGE"
  | .DUSK_ENTER => "DUSK_ENTER"
  | .CMD_REFUSED => "CMD_REFUSED"
  | .CMD_ACCEPTED => "CMD_ACCEPTED"
  | .CFG_WRITE_REFUSED => "CFG_WRITE_REFUSED"
  | .IMAGESET_DAMAGED => "IMAGESET_DAMAGED"
  | .AUTH_LOCKOUT => "AUTH_LOCKOUT"
  | .LOCAL_ORIGIN => "LOCAL_ORIGIN"
  | .POS_CHANGED => "POS_CHANGED"
  | .NOT_CONNECTED => "NOT_CONNECTED"
  | .PAIR_MISMATCH => "PAIR_MISMATCH"
  | .CMP_SELFTEST_FAIL => "CMP_SELFTEST_FAIL"
  | .PAIR_DEBUG_DIVERGE => "PAIR_DEBUG_DIVERGE"
  | .MTVEC_UNSET => "MTVEC_UNSET"
  | .VBASE_REJECT => "VBASE_REJECT"
  | .CACHE_CORRECTED => "CACHE_CORRECTED"
  | .STRAY_COMPLETE => "STRAY_COMPLETE"
  | .VDX_CFG_REFUSED => "VDX_CFG_REFUSED"
  | .ABSENT_PROBE => "ABSENT_PROBE"
  | .OVERRUN => "OVERRUN"
  | .TASK_ABANDON => "TASK_ABANDON"
  | .TASK_ABORT => "TASK_ABORT"
  | .PART_STOPPED => "PART_STOPPED"
  | .WAKE_LATE => "WAKE_LATE"
  | .MMODE_OVERRUN => "MMODE_OVERRUN"
  | .PRELOAD_LATE => "PRELOAD_LATE"
  | .BANK_RECLAIM => "BANK_RECLAIM"
  | .CMP_TEST_OVERDUE => "CMP_TEST_OVERDUE"
  | .CONTEXT_LOST => "CONTEXT_LOST"
  | .DEADLINE_STAGE_FAIL => "DEADLINE_STAGE_FAIL"
  | .IDLE_REJECT => "IDLE_REJECT"
  | .PAIRCMD_IGNORED => "PAIRCMD_IGNORED"
  | .STAGE_MISS => "STAGE_MISS"
  | .WSET_VIOLATION => "WSET_VIOLATION"
  | .PAGEOP_REFUSED => "PAGEOP_REFUSED"
  | .MEM_CORRECTED => "MEM_CORRECTED"
  | .MEM_UNCORR => "MEM_UNCORR"
  | .HARD_SYMBOL => "HARD_SYMBOL"
  | .SCRUB_LAG => "SCRUB_LAG"
  | .QUEUE_PTR_ERR => "QUEUE_PTR_ERR"
  | .TRANSIT_FAIL => "TRANSIT_FAIL"
  | .LE_MISMATCH => "LE_MISMATCH"
  | .LE_SELFTEST_FAIL => "LE_SELFTEST_FAIL"
  | .LE_TRAP => "LE_TRAP"
  | .PROGRAM_START => "PROGRAM_START"
  | .STATION_ABSENT => "STATION_ABSENT"
  | .STATION_RETURN => "STATION_RETURN"
  | .RETAIN_SAVE_LATE => "RETAIN_SAVE_LATE"
  | .RETAIN_LOST => "RETAIN_LOST"
  | .CARRY_LOST => "CARRY_LOST"
  | .CHANGE_DONE => "CHANGE_DONE"
  | .FORCE_DROPPED => "FORCE_DROPPED"
  | .FORCES_CLEARED => "FORCES_CLEARED"
  | .SIO_DI_FAULT => "SIO_DI_FAULT"
  | .SIO_DO_FAULT => "SIO_DO_FAULT"
  | .SIO_Y_LOST => "SIO_Y_LOST"
  | .SIO_FS_OPEN => "SIO_FS_OPEN"
  | .SIO_FS_BUDGET => "SIO_FS_BUDGET"
  | .PEER_DISSENT => "PEER_DISSENT"
  | .SELF_DISSENT => "SELF_DISSENT"
  | .LEASE_LOST => "LEASE_LOST"
  | .LINK_EXCLUDE => "LINK_EXCLUDE"
  | .MEMBER_CHANGE => "MEMBER_CHANGE"
  | .IDENT_MISMATCH => "IDENT_MISMATCH"
  | .SYNC_FAIL => "SYNC_FAIL"
  | .NOMAJ => "NOMAJ"
  | .TL_VIOLATION => "TL_VIOLATION"
  | .DUPLEX_NO_WITNESS => "DUPLEX_NO_WITNESS"
  | .GHEIF_RX_VIOLATION => "GHEIF_RX_VIOLATION"
  | .GHEIF_LENGTH => "GHEIF_LENGTH"
  | .GHEIF_GUARD => "GHEIF_GUARD"
  | .GHEIF_CHANNEL_DIFF => "GHEIF_CHANNEL_DIFF"
  | .GHEIF_CS_ABORT => "GHEIF_CS_ABORT"
  | .GHEIF_CS_EXHAUSTED => "GHEIF_CS_EXHAUSTED"
  | .GHEIF_SYNC_LOST => "GHEIF_SYNC_LOST"
  | .GHEIF_POS_INVALID => "GHEIF_POS_INVALID"
  | .MODE_CHANGE => "MODE_CHANGE"
  | .MODE_CHANGE_FAIL => "MODE_CHANGE_FAIL"
  | .MODE_FOLLOW => "MODE_FOLLOW"
  | .MODE_REFUSED => "MODE_REFUSED"
  | .TIME_STEP => "TIME_STEP"
  | .SOURCE_CHANGE => "SOURCE_CHANGE"
  | .OFFSET_ALARM => "OFFSET_ALARM"
  | .LAUNCH_DISCARD => "LAUNCH_DISCARD"
  | .PD_REJECT => "PD_REJECT"
  | .IXS_FAILSAFE => "IXS_FAILSAFE"
  | .IXS_VALID => "IXS_VALID"
  | .CAN_OVERSIZE => "CAN_OVERSIZE"
  | .CAN_BUSOFF => "CAN_BUSOFF"
  | .CAN_BUSOFF_END => "CAN_BUSOFF_END"
  | .LRB_TIMEOUT => "LRB_TIMEOUT"
  | .LRB_BERR => "LRB_BERR"
  | .LRB_LOCK_PARTIAL => "LRB_LOCK_PARTIAL"
  | .LRB_LOCK_HOG => "LRB_LOCK_HOG"
  | .PREFETCH_DISCARD => "PREFETCH_DISCARD"
  | .CLOCK_FAULT => "CLOCK_FAULT"
  | .SUPPLY_DIP => "SUPPLY_DIP"
  | .BUDGET_EXCEED => "BUDGET_EXCEED"
  | .NIGHT_LOST => "NIGHT_LOST"
  | .APPLICATION_MARK => "APPLICATION_MARK"

/-- A settings change of a code: the bucket is full again, and a kept event is written at once (R479). -/
def State.newRate (s : State) (e : CatEntry) (x : RecSetting) : State :=
  let kept := (s.bucket e).kept.isSome
  let b := s.bucket e
  let s : State := { s with rcd := { s.rcd with settings := tput settingD s.rcd.settings e.num x } }
  let v := s.rateOf e
  let b := { b with tokens := v.1 - b2n kept, refill := if kept && v.2 != 0 then some (refillAt s.frc v.2) else none }
  s.placeKept e b

/-- An offset that REC_CONFIG accepts in a snapshot (R479). -/
def snapOffset (o : Nat) : Bool :=
  o % 4 == 0 && decide (o < 0x100000) && (regRow o).isSome &&
    !(decide (0x70100 ≤ o ∧ o < 0x70180) || decide (0xD0000 ≤ o ∧ o < 0xD8000) || decide (0x60200 ≤ o ∧ o < 0x60310) || o == 0xF0020)

/-- Function 0. -/
def State.recSetRate (s : State) (r : Req) (e : CatEntry) : Ans :=
  let burst := reqNum r 4 1
  if burst = 0 ∨ reqNum r 5 1 ≠ 0 then .badParam
  else if e.always then .refuse 0x22 0 0 0xFFFFFFFF
  else .reply [] (s.newRate e { s.recSetting e.num with rate := some (burst, reqNum r 6 2) })

/-- Function 1. -/
def State.recSetSnap (s : State) (r : Req) (e : CatEntry) : Ans :=
  let n := reqNum r 4 1
  let offs := (List.range n).map fun i => reqNum r (8 + 4 * i) 4
  if 8 < n ∨ reqNum r 5 3 ≠ 0 ∨ offs.any (fun o => !(snapOffset o)) then .badParam
  else if e.fixedSnap then .refuse 0x22 0 0 0xFFFFFFFF
  else if offs.any fun o => !(s.offFitted o) then .refuse 0x21 0 0 0xFFFFFFFF
  else
    let x : RecSetting := { s.recSetting e.num with snap := if n = 0 then none else some offs }
    .reply [] { s with rcd := { s.rcd with settings := tput settingD s.rcd.settings e.num x } }

/-- Function 2: a code's settings are the catalogue's again. -/
def State.recRestore1 (s : State) (n : Nat) : State :=
  match s.catNum n with
  | some e => if (s.recSetting n).rate.isSome then s.newRate e ⟨none, none⟩ else { s with rcd := { s.rcd with settings := tput settingD s.rcd.settings n ⟨none, none⟩ } }
  | none => s

/-- Function 3. -/
def catBytes (e : CatEntry) : List Byte :=
  leBytes 2 e.num ++ [BitVec.ofNat 8 (b2n e.always + 2 * b2n e.fixedSnap + 4 * e.sev), BitVec.ofNat 8 e.unit, BitVec.ofNat 8 e.burst, 0] ++
    leBytes 2 e.periodMs ++ padTo 24 ((RCodeName e.name).toList.map fun c => BitVec.ofNat 8 c.toNat) ++
    padTo 32 (e.snap.flatMap fun o => leBytes 4 o)

/-- Function 4. -/
def State.settingBytes (s : State) (e : CatEntry) : List Byte :=
  let v := s.rateOf e
  let l := s.snapOf e
  [BitVec.ofNat 8 v.1, 0] ++ leBytes 2 v.2 ++ [BitVec.ofNat 8 l.length, 0, 0, 0] ++ padTo 32 (l.flatMap fun o => leBytes 4 o)

/-- REC_CONFIG (R479): the payload's length and effect as its FUNC lays down. -/
def State.recConfig (s : State) (r : Req) : State :=
  let func := reqNum r 0 1
  let n := reqNum r 4 1
  let len (k : Nat) : Bool :=
    if func = 0 then k == 8
    else if func = 1 then (if n ≤ 8 then k == 8 + 4 * n else decide (8 ≤ k))
    else if func ≤ 4 then k == 4
    else decide (4 ≤ k)
  s.command r 0x2A [.config, .stop] len fun s =>
    let code := reqNum r 2 2
    if 4 < func ∨ reqNum r 1 1 ≠ 0 then .badParam
    else if func = 2 ∧ code = 0xFFFF then
      .reply [] (s.rcd.settings.foldl (fun (s : State) c => s.recRestore1 c.1) s)
    else match s.catNum code with
      | none => .badParam
      | some e =>
        if func = 0 then s.recSetRate r e
        else if func = 1 then s.recSetSnap r e
        else if func = 2 then .reply [] (s.recRestore1 code)
        else if func = 3 then .reply (catBytes e) s
        else .reply (s.settingBytes e) s

/-- REC_CONFIG_SET_RATE. -/
def recConfigSetRate (r : Req) (s : State) : State := s.recConfig r
/-- REC_CONFIG_SET_SNAPSHOT. -/
def recConfigSetSnapshot (r : Req) (s : State) : State := s.recConfig r
/-- REC_CONFIG_RESTORE. -/
def recConfigRestore (r : Req) (s : State) : State := s.recConfig r
/-- REC_CONFIG_READ_CATALOGUE. -/
def recConfigReadCatalogue (r : Req) (s : State) : State := s.recConfig r
/-- REC_CONFIG_READ_SETTINGS. -/
def recConfigReadSettings (r : Req) (s : State) : State := s.recConfig r

/-! ### Time, network, leases (R273, R302, R304, R232, R239) -/

/-- TIME_GET. -/
def timeGet (r : Req) (s : State) : State :=
  s.command r 0x30 allStates (· == 0) fun s =>
    let t := s.tod
    .reply (leBytes 8 (todSec t) ++ leBytes 4 (todNs t) ++ leBytes 2 (t % 65536) ++ [BitVec.ofNat 8 (fieldGet (s.readReg 0x70000) 26 6), 0] ++
      leBytes 2 (s.get F.TMB_UTC_UTC_OFS) ++ [BitVec.ofNat 8 (s.get F.TMB_UTC_LEAP59 + 2 * s.get F.TMB_UTC_LEAP61), 0, 0, 0, 0, 0] ++
      leBytes 8 s.frc) s

/-- TIME_SET (R304). -/
def timeSet (r : Req) (s : State) : State :=
  let mode := reqNum r 0 1
  s.command r 0x31 [.stop] (fun n => n == 16 || (n == 4 && mode != 0)) fun s =>
    if 1 < mode ∨ reqNum r 1 3 ≠ 0 then .badParam
    else if mode = 0 then
      if 1000000000 ≤ reqNum r 12 4 then .badParam
      else .reply [] (s.setTod (reqNum r 4 8 * secUnits + reqNum r 12 4 * 65536))
    else
      let c := s.get F.TMB_STAT_ACTIVE
      if decide (2 ≤ c) && (s.tsrc c).newest.isSome then .reply [] (s.setTod (s.reference c)) else .badParam

/-- NET_MODE_REQ (R273, R460). -/
def netModeReq (r : Req) (s : State) : State :=
  s.command r 0x38 forceStates (· == 1) fun s =>
    let m := reqNum r 0 1
    match s.clu with
    | some c =>
      let me := s.ghMe c
      if me.syncId = 0 ∨ 7 < m ∨ !(c.modes.testBit m) ∨ !(me.permit.testBit m) then .badParam
      else if s.gh.prop.isSome then .refuse 0x23 0 0 0xFFFFFFFF
      else match s.ghPropose m with
        | some t => .accepted [BitVec.ofNat 8 (match t.gh.prop with | some p => p.2.1 | none => 0)] (t.begin_ r 0x38 m 0)
        | none => .refuse 0x20 0 0 0xFFFFFFFF
    | none => .badParam

/-- One entry of LEASE_STATUS. -/
def State.leaseEntry (s : State) (k : Nat) : List Byte :=
  let flags := b2n (s.holds k) + 2 * s.get (F.TVL_LSTAT_RELEASED k) + 4 * s.get (F.TVL_LSTAT_GUARDIAN k) + 8 * s.get (F.TVL_OGRP_EN k)
    + 16 * s.get (F.TVL_OGRP_SAFETY k)
  [BitVec.ofNat 8 (s.get (F.TVL_LSTAT_HOLDER k)), BitVec.ofNat 8 flags, 0, 0] ++ leBytes 4 (s.leaseRemain k)

/-- LEASE_STATUS. -/
def leaseStatus (r : Req) (s : State) : State :=
  s.command r 0x40 allStates (· == 0) fun s => .reply ((List.range 16).flatMap s.leaseEntry) s

/-- LEASE_RELEASE. -/
def leaseRelease (r : Req) (s : State) : State :=
  s.command r 0x41 [.run] (· == 2) fun s => .reply [] (s.release (reqNum r 0 2))

/-- REINTEGRATE (R239). -/
def reintegrate (r : Req) (s : State) : State :=
  s.command r 0x42 [.run, .hold] (· == 0) fun s =>
    if s.mstate ≠ 5 then .refuse 0x20 0 0 0xFFFFFFFF
    else .reply [] ({ s with tvl := { s.tvl with reint := true } }).leaveExcluded

/-! ### Tests, power, Midnight mode (R61, R167, R499, R500) -/

/-- SELFTEST; `fails` names the units whose comparator test fails; the lane that failed is a free value. -/
def selftest (r : Req) (fails : BitVec 6) (s : State) : State :=
  s.command r 0x48 [.stop, .service] (· == 1) fun s =>
    let mask := reqNum r 0 1
    if 3 < mask then .badParam else
    let units := (List.range 6).filter fun u => s.unitFitted u && mask.testBit (u / 4)
    match units.find? fun u => fails.getLsbD u with
    | some u =>
      let s := (units.filter fun v => decide (v < u)).foldl (fun (s : State) v => s.testPassed v) s
      let lane := (Config.freeValue s.freeCtr).toNat % 2 ^ 32
      .fault (if u < 4 then s.free.pairFails u .CMP_SELFTEST_FAIL [u, lane] else s.free.leFails (u - 4) .LE_SELFTEST_FAIL [u - 4, lane])
    | none => .reply [BitVec.ofNat 8 (maskOf units)] (units.foldl (fun (s : State) v => s.testPassed v) s)

/-- POWER_BUDGET (R499): the reply reports the budget that the next window boundary puts in force. -/
def powerBudget (r : Req) (s : State) : State :=
  s.command r 0x50 [.config, .stop, .run, .hold, .service] (· == 2) fun s =>
    let b := reqNum r 0 2
    if b ≠ 0 ∧ !(within 120 220 b) then .badParam
    else
      let now := if b = 0 then s.pwr.budgetNext.getD (s.get F.PWR_BUDGET_BUDGET) else b
      .reply (leBytes 2 now ++ leBytes 2 (s.get F.PWR_BUDGET_MEAS)) (if b = 0 then s else s.modPwr fun w => { w with budgetNext := some b })

/-- MIDNIGHT (R500). -/
def midnight (r : Req) (s : State) : State :=
  s.command r 0x58 [.stop, .run] (· == 8) fun s =>
    let wake := reqNum r 0 1
    let target := reqNum r 1 1
    let timer := reqNum r 4 4
    if wake = 0 ∨ 15 < wake ∨ 1 < target ∨ reqNum r 2 2 ≠ 0 ∨ (wake.testBit 3 ∧ timer = 0) then .badParam
    else
      let s := (s.yieldActivate).begin_ r 0x58 (wake + 256 * target) timer
      .later (if s.sup.st = .run then s.leaveRun else match s.sup.longOp with | some o => s.midnightEnter o | none => s)

/-! ### Long operations end (R446) -/

/-- LONG_OP_COMPLETE: the completion notice of an operation that has its outcome. -/
def longOpComplete (s : State) : State :=
  match s.sup.longOp with
  | none => s
  | some o =>
    match o.outcome with
    | some c => s.longFinish c.1 c.2
    | none =>
      if o.opc = 0x0A then s.sealNow o
      else if o.opc = 0x12 then s.verified o.arg
      else if o.opc = 0x38 ∧ s.gh.prop.isNone then (if s.get F.GHC_STAT_MODE = o.arg then s.longEnd 0 [] else s.longEnd 0x40 s.errNone)
      else s

/-! ### The ports (R440, R441, R453, R465, R513) -/

/-- SCP_FETCH (R441): the oldest waiting reply, else the oldest notice, is shifted out, completely or in part. -/
def scpFetch (full : Bool) (s : State) : State :=
  if !s.sup.sready then
    (if s.alive then { s with sup := { s.sup with scpBusyViol := s.sup.scpBusyViol + 1 } } else s)
  else match (s.sup.waiting.find? fun c => c.1.flags.testBit 0).or s.sup.waiting.head? with
    | none => s
    | some c =>
      if full then
        let s : State := { s.emit .scp 0 0 (s.packetBytes c.1) with sup := { s.sup with waiting := s.sup.waiting.erase c } }
        if s.sup.dropped = 0 then s
        else
          let n := s.sup.dropped
          ({ s with sup := { s.sup with dropped := 0 } }).notice 4 (leBytes 2 (min n 65535))
      else { s with sup := { s.sup with scpPartial := s.sup.scpPartial + 1 } }

/-- SUP_MBSUBMIT (R453): a submission at a pair's port or a partition's; the request itself is the command that follows. -/
def supMbsubmit (part : Bool) (n : Nat) (v : Word) (s : State) : State :=
  let own : Bool := if part then (match s.part? n with | some d => d.pflags.testBit 1 | none => false) else s.pairFitted n
  let k := if part then 0xF30 + n else n
  if !own || !s.alive then s
  else if s.flag (F.SUP_MBSTAT_BUSY k) then s.inc (F.SUP_MBSTAT_REFUSED k)
  else
    let s := (s.set (F.SUP_MBSTAT_BUSY k) 1).report .LOCAL_ORIGIN (srcSup 2) [if part then n else 0xF0 + n, v.toNat % 2048]
    { s with sup := { s.sup with portWait := s.sup.portWait + 1 } }

/-- SVC_DET_CHANGE (R513): the SCP moves between X1 and X5; waiting packets and stored replies stay. -/
def svcDetChange (level : Bool) (s : State) : State := { s with sup := { s.sup with svcDet := level } }

/-- The reply to a frame that is no request (R465 cases 2 and 3): OPC, SEQ and SRC as received. -/
def State.frameReply (s : State) (r : Req) (opc status : Nat) (data : List Byte) : State :=
  (s.report .CMD_REFUSED (srcSup (originInst r.origin)) [opc, status, originSrc r.origin]).answer { r with tag := none } opc status data

/-- BAD_REQUEST_FRAME (R465): case 1 discarded, case 2 and 3 answered, and an opcode that is not assigned. -/
def badRequestFrame (kind opc : Nat) (r : Req) (s : State) : State :=
  if kind = 0 then
    (if s.alive && !s.sup.sready then { s with sup := { s.sup with scpBusyViol := s.sup.scpBusyViol + 1 } } else s)
  else if !s.serving then s
  else
    let s := s.take r
    if kind = 1 then s.frameReply r opc 0x11 []
    else if kind = 2 then s.frameReply r opc 0x13 s.errNone
    else match s.again r with
      | some t => t
      | none => s.refuse r opc (if badHeader r then 0x12 else 0x10) s.errNone

/-! ### Sessions and lockouts (R448, R452) -/

/-- 600 s and 60 s in microticks. -/
def sessionUt : Nat := 600000 * msUt

/-- SESSION_TIMEOUT (R448). -/
def sessionTimeout (load : Bool) (s : State) : State :=
  if load then
    match s.sup.loadSess with
    | some c => let s := s.advance (c.lastAt + sessionUt); { s with sup := { s.sup with loadSess := none } }
    | none => s
  else
    match s.sup.cfgSess with
    | some c => let s := s.advance (c.lastAt + sessionUt); { s with sup := { s.sup with cfgSess := none } }
    | none => s

/-- AUTH_LOCKOUT_END (R452). -/
def authLockoutEnd (ip : Nat) (s : State) : State :=
  match s.sup.authFails.find? fun a => a.ip == ip with
  | some a =>
    (match a.lockedTill with
     | some t =>
       let s := s.advance t
       { s with sup := { s.sup with authFails := s.sup.authFails.filter fun x => x.ip != ip } }
     | none => s)
  | none => s

/-! ### The commands -/

/-- ACTIVATE. -/
def execActivate (r : Req) (s : State) : Host.Outcome State Fault Refusal := .next (activate r s)
/-- FORCE_SET. -/
def execForceSet (r : Req) (s : State) : Host.Outcome State Fault Refusal := .next (forceSet r s)
/-- FORCE_CLEAR. -/
def execForceClear (r : Req) (s : State) : Host.Outcome State Fault Refusal := .next (forceClear r s)
/-- FORCE_LIST. -/
def execForceList (r : Req) (s : State) : Host.Outcome State Fault Refusal := .next (forceList r s)
/-- READ_VAR. -/
def execReadVar (r : Req) (s : State) : Host.Outcome State Fault Refusal := .next (readVar r s)
/-- WRITE_VAR. -/
def execWriteVar (r : Req) (s : State) : Host.Outcome State Fault Refusal := .next (writeVar r s)
/-- REC_READ. -/
def execRecRead (r : Req) (s : State) : Host.Outcome State Fault Refusal := .next (recRead r s)
/-- REC_MARK. -/
def execRecMark (r : Req) (s : State) : Host.Outcome State Fault Refusal := .next (recMark r s)
/-- REC_CONFIG_SET_RATE. -/
def execRecConfigSetRate (r : Req) (s : State) : Host.Outcome State Fault Refusal := .next (recConfigSetRate r s)
/-- REC_CONFIG_SET_SNAPSHOT. -/
def execRecConfigSetSnapshot (r : Req) (s : State) : Host.Outcome State Fault Refusal :=
  .next (recConfigSetSnapshot r s)
/-- REC_CONFIG_RESTORE. -/
def execRecConfigRestore (r : Req) (s : State) : Host.Outcome State Fault Refusal := .next (recConfigRestore r s)
/-- REC_CONFIG_READ_CATALOGUE. -/
def execRecConfigReadCatalogue (r : Req) (s : State) : Host.Outcome State Fault Refusal :=
  .next (recConfigReadCatalogue r s)
/-- REC_CONFIG_READ_SETTINGS. -/
def execRecConfigReadSettings (r : Req) (s : State) : Host.Outcome State Fault Refusal :=
  .next (recConfigReadSettings r s)
/-- TIME_GET. -/
def execTimeGet (r : Req) (s : State) : Host.Outcome State Fault Refusal := .next (timeGet r s)
/-- TIME_SET. -/
def execTimeSet (r : Req) (s : State) : Host.Outcome State Fault Refusal := .next (timeSet r s)
/-- NET_MODE_REQ. -/
def execNetModeReq (r : Req) (s : State) : Host.Outcome State Fault Refusal := .next (netModeReq r s)
/-- LEASE_STATUS. -/
def execLeaseStatus (r : Req) (s : State) : Host.Outcome State Fault Refusal := .next (leaseStatus r s)
/-- LEASE_RELEASE. -/
def execLeaseRelease (r : Req) (s : State) : Host.Outcome State Fault Refusal := .next (leaseRelease r s)
/-- REINTEGRATE. -/
def execReintegrate (r : Req) (s : State) : Host.Outcome State Fault Refusal := .next (reintegrate r s)
/-- SELFTEST. -/
def execSelftest (r : Req) (fails : BitVec 6) (s : State) : Host.Outcome State Fault Refusal := .next (selftest r fails s)
/-- POWER_BUDGET. -/
def execPowerBudget (r : Req) (s : State) : Host.Outcome State Fault Refusal := .next (powerBudget r s)
/-- MIDNIGHT. -/
def execMidnight (r : Req) (s : State) : Host.Outcome State Fault Refusal := .next (midnight r s)
/-- LONG_OP_COMPLETE. -/
def execLongOpComplete (s : State) : Host.Outcome State Fault Refusal := .next (longOpComplete s)
/-- SCP_FETCH. -/
def execScpFetch (full : Bool) (s : State) : Host.Outcome State Fault Refusal := .next (scpFetch full s)
/-- SUP_MBSUBMIT. -/
def execSupMbsubmit (part : Bool) (n : Fin 256) (v : Word) (s : State) : Host.Outcome State Fault Refusal :=
  .next (supMbsubmit part n v s)
/-- SESSION_TIMEOUT. -/
def execSessionTimeout (load : Bool) (s : State) : Host.Outcome State Fault Refusal := .next (sessionTimeout load s)
/-- AUTH_LOCKOUT_END. -/
def execAuthLockoutEnd (ip : Nat) (s : State) : Host.Outcome State Fault Refusal := .next (authLockoutEnd ip s)
/-- SVC_DET_CHANGE. -/
def execSvcDetChange (level : Bool) (s : State) : Host.Outcome State Fault Refusal := .next (svcDetChange level s)
/-- BAD_REQUEST_FRAME. -/
def execBadRequestFrame (kind : Fin 4) (opc : Nat) (r : Req) (s : State) : Host.Outcome State Fault Refusal :=
  .next (badRequestFrame kind opc r s)

end Sys2Proof.Machine
end

