-- ==== Sys2Proof/Machine/Reg.lean ====
section
/-!
DEFINITION. Accesses of the pairs to the physical address map: register reads and writes by their access codes (R13 to R15) or by the
behaviour of the register, the capture banks (R302), the local command ports (R453), memory (R122 to R126), the apertures of the logic
engines (R169, R170) and of the CAN FD controllers (R361), absent units (R7, R8).
-/
namespace Sys2Proof.Machine

/-! ### Access codes (R13 to R15) -/

/-- The bits of a register whose fields have an access code. -/
def RegRow.accMask (r : RegRow) (a : Access) : Word :=
  (r.fields.filter fun f => f.acc == a).foldl (fun m f => m ||| fieldMask f.lo f.w) 0

/-- A register value after a write of `v` in the byte lanes `m`: RW fields take it, W1C fields are cleared by ones, CFG fields take it in
the Config state (R13); reserved, read-only and write-only fields keep what they hold (R14). -/
def RegRow.written (r : RegRow) (config : Bool) (old v m : Word) : Word :=
  let put := m &&& (r.accMask .rw ||| if config then cfgMask r else 0)
  ((old &&& ~~~put) ||| (v &&& put)) &&& ~~~(v &&& m &&& r.accMask .w1c)

/-- A write that would change a CFG field outside the Config state is an attempt (R15). -/
def RegRow.attempt (r : RegRow) (config : Bool) (old v m : Word) : Bool := !config && ((v ^^^ old) &&& m &&& cfgMask r) != 0

/-- A write to a register without behaviour of its own; an offset that names no register ignores it. -/
def State.plainWrite (s : State) (off : Nat) (v m : Word) : State :=
  match regRow off with
  | none => s
  | some r =>
    let config : Bool := s.sup.st == .config
    let old := s.reg off
    let s := s.setReg off (if config then cfgStored off (r.written config old v m) else r.written config old v m)
    if r.attempt config old v m then s.report .CFG_WRITE_REFUSED (srcSup 3) [off, v.toNat] else s

/-! ### Registers with behaviour of their own -/

/-- Part of a write value. -/
def lane (v m : Word) : Word := v &&& m
/-- The value an RW field register would hold. -/
def State.merged (s : State) (off : Nat) (v m : Word) : Word := (s.reg off &&& ~~~m) ||| (v &&& m)

/-- The vector dispatcher (R81 to R87). -/
def State.vdxReg (s : State) (off : Nat) (v m : Word) : State :=
  let w := lane v m
  if off = 0x10000 then (if w.getLsbD 31 then vdxDiagClr s else s)
  else if 0x10100 ≤ off ∧ off < 0x10180 ∧ off % 0x20 = 8 then vdxComplete ((off - 0x10100) / 0x20) w s
  else if 0x10100 ≤ off ∧ off < 0x10180 ∧ off % 0x20 = 0xC then (if w.getLsbD 31 then vdxStrayClr ((off - 0x10100) / 0x20) s else s)
  else if off = 0x10200 then vdxSwtrig w s
  else if 0x10400 ≤ off ∧ off < 0x10440 then vdxMaskWrite ((off - 0x10400) / 4) (s.merged off v m) s
  else if 0x11000 ≤ off ∧ off < 0x11800 then vdxSrccfgWrite ((off - 0x11000) / 4) (s.merged off v m) s
  else if 0x12000 ≤ off ∧ off < 0x12800 then (if w.getLsbD 31 then cntClr ((off - 0x12000) / 4) s else s)
  else s.plainWrite off v m

/-- HX scheduling (R105, R107): pair `p` writes. -/
def State.hxReg (s : State) (p off : Nat) (v m : Word) : State :=
  let w := lane v m
  let k := (off - 0x20100) / 0x10
  if 0x20100 ≤ off ∧ off < 0x20140 ∧ off % 0x10 = 4 then hxIdleWrite k (s.merged off v m) s
  else if 0x20100 ≤ off ∧ off < 0x20140 ∧ off % 0x10 = 8 then
    let s := if w.getLsbD 0 then abort p k s else s
    if w.getLsbD 1 then bankRel p k s else s
  else if 0x21000 ≤ off ∧ off < 0x25000 ∧ off % 0x10 = 0xC then (if w.getLsbD 31 then hxTaskstatClr ((off - 0x21000) / 0x10) s else s)
  else s.plainWrite off v m

/-- HX memory and queues: COMMIT and RELEASE act by the writer's role (R159 to R161); HXQ_EVT.CNT_CLR beside the event bits (R157). -/
def State.hxmReg (s : State) (p off : Nat) (v m : Word) : State :=
  let w := lane v m
  let q := (off - 0x38000) / 0x100
  if off = 0x30014 then (if w.getLsbD 31 then hxmMemerrClr s else s)
  else if 0x31000 ≤ off ∧ off < 0x31800 ∧ off % 8 = 0 then (if w.getLsbD 31 then hxmPartSramClr ((off - 0x31000) / 8) s else s)
  else if 0x38000 ≤ off ∧ off < 0x3C000 ∧ off % 0x100 = 0x14 then
    let who := s.endpoint p
    if w.getLsbD 30 then Sys2Proof.Machine.commit who q (w.toNat % 8192) (if w.getLsbD 31 then some who else none) s
    else if w.getLsbD 31 then Sys2Proof.Machine.release who q s else s
  else if 0x38000 ≤ off ∧ off < 0x3C000 ∧ off % 0x100 = 0x18 then
    let s := if w.getLsbD 31 then hxqCntClr q s else s
    s.plainWrite off v m
  else s.plainWrite off v m

/-- The Tri-link unit's counters (R219, R226, R244). -/
def State.tvlReg (s : State) (off : Nat) (v m : Word) : State :=
  let clr := (lane v m).getLsbD 31
  if off = 0x50010 then (if clr then tvlAgrcntClr s else s)
  else if off = 0x50014 then (if clr then tvlVotecntClr s else s)
  else if off = 0x50024 ∨ off = 0x5002C then (if clr then tvlLinkcntClr ((off - 0x50024) / 8) s else s)
  else s.plainWrite off v m

/-- The Gheif controller (R298). -/
def State.ghcReg (s : State) (off : Nat) (v m : Word) : State :=
  let w := lane v m
  if off = 0x60008 then (if w.getLsbD 31 then ghcPrecClr s else s)
  else if off = 0x60014 then
    let s := if w.getLsbD 0 then ghcCntclrGhc s else s
    if w.getLsbD 1 then ghcCntclrGrd s else s
  else if off = 0x60100 then ghcBufsel (s.merged off v m) s
  else s.plainWrite off v m

/-- A CAN FD controller: mode and recovery (R373, R374), receive queues (R365), transmit requests and cancellations (R368, R369). -/
def State.canReg (s : State) (p off : Nat) (v m : Word) : State :=
  let w := lane v m
  let n := (off - 0xA0000) / 0x1000
  match off % 0x1000 with
  | 0x000 =>
    let s := if m.getLsbD 0 then canModeWrite n w s else s
    if w.getLsbD 2 then canRecover n s else s
  | 0x01C => (if w.getLsbD 0 then canCntClr n s else s).plainWrite off v m
  | 0x054 => canRxqRelease (s.endpoint p) n 0 w s
  | 0x074 => canRxqRelease (s.endpoint p) n 1 w s
  | 0x058 => (if w.getLsbD 31 then s.qClear (s.rxq n 0) else s).plainWrite off v m
  | 0x078 => (if w.getLsbD 31 then s.qClear (s.rxq n 1) else s).plainWrite off v m
  | 0x100 => canTxreq n w s
  | 0x104 => canTxcan n w s
  | 0x11C => (if w.getLsbD 31 then canFlush n s else s).plainWrite off v m
  | _ => s.plainWrite off v m

/-- A write to a module register by what a pair executes, in the byte lanes `m`. Offsets from 0x100_0000 on are the model's places of the
partitions' command ports (R453). -/
def State.regWrite (s : State) (p off : Nat) (v m : Word) : State :=
  let w := lane v m
  if 0x1000000 ≤ off then
    if off % 0x1000 = 0 then (if w.getLsbD 30 then s.set (F.SUP_MBSTAT_DONE (0xF30 + (off - 0x1000000) / 0x1000)) 0 else s)
    else if off % 0x1000 = 4 then supMbsubmit true ((off - 0x1000000) / 0x1000) w s
    else s
  else match off / 0x10000 with
  | 1 => s.vdxReg off v m
  | 2 => s.hxReg p off v m
  | 3 => s.hxmReg p off v m
  | 4 => if off % 0x8000 = 0x20 then (if w.getLsbD 0 then leTrapClr ((off - 0x40000) / 0x8000) s else s) else s.plainWrite off v m
  | 5 => s.tvlReg off v m
  | 6 => s.ghcReg off v m
  | 7 =>
    if off = 0x70024 then tmbAdjWrite w s
    else if off = 0x70030 then (if w.getLsbD 31 then tmbCntClr s else s)
    else s.plainWrite off v m
  | 8 => if off = 0x8001C then (if w.getLsbD 0 then ethCntclr s else s) else s.plainWrite off v m
  | 9 =>
    if off = 0x90008 then (if w.getLsbD 0 then ixsCntclr s else s)
    else if off = 0x9000C then ixsAck w s
    else s.plainWrite off v m
  | 10 => s.canReg p off v m
  | 11 => if off = 0xB0018 then (if w.getLsbD 0 then lrbCntclr s else s) else s.plainWrite off v m
  | 12 =>
    if off = 0xC0018 then (if w.getLsbD 0 then sioCntclr s else s)
    else if 0xC0220 ≤ off ∧ off < 0xC0240 then (if w.getLsbD 31 then fltClr ((off - 0xC0220) / 4) s else s)
    else s.plainWrite off v m
  | 13 => if off < 0xD4000 ∧ off % 0x1000 = 4 then supMbsubmit false ((off - 0xD0000) / 0x1000) w s else s.plainWrite off v m
  | 14 => if off = 0xE0010 then (if w.getLsbD 31 then recCntClr s else s) else s.plainWrite off v m
  | 15 => if off = 0xF0030 then (if w.getLsbD 31 then pwrArbcntClr s else s) else s.plainWrite off v m
  | _ => s.plainWrite off v m

/-- A register as a pair reads it, with what its reading changes: TMB_CAP_FRC_LO captures (R302), PWR_OPTIME_LO latches (R491), and the
measured PWR_STAT takes a new free value. -/
def State.regRead (s : State) (p off : Nat) : State × Word :=
  if off = 0x70100 + p * 0x20 then let s := tmbCapture p s; (s, s.readReg off)
  else if off = 0xF0020 then let s := optimeRead s; (s, s.readReg off)
  else if off = 0xF0000 then (s.free, s.readReg off)
  else (s, s.readReg off)

/-! ### The physical map (R12, R122) -/

/-- Ways an access may end before it has any effect: the window of an absent unit (R7, R8), or another error response. -/
inductive BusErr where
  | absent
  | error
  deriving DecidableEq, Repr

def inRegs (a : Nat) : Bool := decide (0x40000000 ≤ a ∧ a < 0x40100000)
def inLe (a : Nat) : Bool := decide (0x41000000 ≤ a ∧ a < 0x41800000)
def inCan (a : Nat) : Bool := decide (0x41800000 ≤ a ∧ a < 0x41860000)
def inRack (a : Nat) : Bool := decide (0x60000000 ≤ a ∧ a < 0x61000000)
/-- The address belongs to the map, fitted or not. -/
def inMap (a : Nat) : Bool :=
  inSram a || inEmram a || inRegs a || inLe a || inCan a || inRack a || decide (0x1000000000 ≤ a ∧ a < 0x1100000000)

/-- The unit an address belongs to is not fitted (R7, R122, R169, R361). -/
def State.absentAt (s : State) (a : Nat) : Bool :=
  if inRegs a then !(s.offFitted ((a - 0x40000000) / 4 * 4))
  else if inLe a then !(s.engineFitted ((a - 0x41000000) / 0x400000))
  else if inCan a then !(s.canFitted ((a - 0x41800000) / 0x10000))
  else if inRack a then !s.lrbFitted
  else decide (ddrBase + s.ddrSize ≤ a ∧ a < 0x1100000000)

/-- The bytes of an engine's aperture that hold a region (R169). -/
def leListed (o : Nat) : Bool := decide (o < 0x210000) || decide (0x300000 ≤ o ∧ o < 0x350000)

/-- A capture bank of another pair (R302). -/
def foreignBank (p a : Nat) : Bool := decide (0x40070100 ≤ a ∧ a < 0x40070180 ∧ (a - 0x40070100) / 0x20 ≠ p)

/-- What stops an access of `n` bytes at `a` for any pair: none, where it is made. -/
def State.busStop (s : State) (p a n : Nat) : Option BusErr :=
  if s.absentAt a || s.absentAt (a + n - 1) then some .absent
  else if inRegs a then
    (if (foreignBank p a || foreignBank p (a + n - 1)) then some .error else none)
  else if inLe a then (if a % n ≠ 0 ∨ !(leListed ((a - 0x41000000) % 0x400000)) then some .error else none)
  else if inCan a then (if a % n ≠ 0 ∨ 0x4000 ≤ (a - 0x41800000) % 0x10000 then some .error else none)
  else if inSram a || inEmram a || s.inDdr a then none
  else some .error

/-- A byte lies on a line or a home page with an uncorrectable error. -/
def State.badAt (s : State) (a : Nat) : Bool :=
  s.poisoned a || (s.inDdr a && !(s.inMachDdr a) && s.hxm.homePoison.contains ((a - ddrBase) / 4096))

/-- A pair in machine mode may store there (R123 to R126, R170, R361, R368). -/
def State.mayStore (s : State) (a : Nat) : Bool :=
  if inRegs a then true
  else if inLe a then decide (0x300000 ≤ (a - 0x41000000) % 0x400000 ∧ (a - 0x41000000) % 0x400000 < 0x340000)
  else if inCan a then
    let n := (a - 0x41800000) / 0x10000
    let o := (a - 0x41800000) % 0x10000
    let b := (o - 0xC00) / 80
    decide (0xC00 ≤ o ∧ o < 0x1600) && s.tbMode n b == 0 && !(s.tbPending n b)
  else s.inMachSram a || inQstore a || s.inMachDdr a

/-- The address belongs to a packet area of a local command port (R453). -/
def inPort (a : Nat) : Bool := decide (0x400D0000 ≤ a ∧ a < 0x400D4000 ∧ 0x100 ≤ a % 0x1000)

/-- The registers that `n` bytes at offset `off` touch are read one after the other, lowest first; the value of those bytes. -/
def State.regLoad (s : State) (p off n : Nat) : State × Nat :=
  let r := (List.range ((off % 4 + n + 3) / 4)).foldl
    (fun (c : State × Nat) i => let x := c.1.regRead p (off / 4 * 4 + 4 * i); (x.1, c.2 + x.2.toNat * 2 ^ (32 * i))) (s, 0)
  (r.1, r.2 / 2 ^ (8 * (off % 4)) % 2 ^ (8 * n))

/-- The `n` bytes at offset `off` are written, register by register in their byte lanes. -/
def State.regStore (s : State) (p off n v : Nat) : State :=
  let sh := v % 2 ^ (8 * n) * 2 ^ (8 * (off % 4))
  let ms := (2 ^ (8 * n) - 1) * 2 ^ (8 * (off % 4))
  (List.range ((off % 4 + n + 3) / 4)).foldl (fun (s : State) i =>
    s.regWrite p (off / 4 * 4 + 4 * i) (BitVec.ofNat 32 (sh / 2 ^ (32 * i))) (BitVec.ofNat 32 (ms / 2 ^ (32 * i)))) s

/-- Areas whose content the spec does not lay out: the HX private area, and eMRAM outside the retentive region and the recorder ring (R123,
R126). -/
def openContent (a : Nat) : Bool := decide (0x11F00000 ≤ a ∧ a < 0x12000000) || (inEmram a && !(decide (0x20400000 ≤ a ∧ a < 0x20C00000)))

/-- The engine whose aperture an address lies in. -/
def apertureEngine (a : Nat) : Nat := (a - 0x41000000) / 0x400000

/-- A pair reads `n` bytes of an engine's aperture: those that the engine writes in this engine cycle at their previous values (R171). -/
def State.leLoad (s : State) (a n : Nat) : Nat := leNat ((List.range n).map fun i => s.pairRead (apertureEngine a) (a + i))

/-- A machine-mode load of `n` bytes, and what stops it. -/
def State.busLoad (s : State) (p a n : Nat) : Except BusErr (State × Nat) :=
  match s.busStop p a n with
  | some e => .error e
  | none =>
    if inRegs a && !inPort a then .ok (s.regLoad p (a - 0x40000000) n)
    else if (List.range n).any fun i => s.badAt (a + i) then .error .error
    else if openContent a then .ok (s.free, (Config.freeValue s.freeCtr).toNat % 2 ^ (8 * n))
    else if inLe a then .ok (s, s.leLoad a n)
    else .ok (s, s.rdLe a n)

/-- A machine-mode store of `n` bytes, and what stops it; reservations of other pairs on the line end (R59). Marker memory that is POISONED takes
none (R189). -/
def State.busStore (s : State) (p a n v : Nat) : Except BusErr State :=
  match s.busStop p a n with
  | some e => .error e
  | none =>
    if !s.mayStore a then .error .error
    else if inRegs a && !inPort a then .ok (s.regStore p (a - 0x40000000) n v)
    else if inLe a then
      (if (List.range n).any fun i => s.poisoned (a + i) then .error .error else .ok (s.pairPuts (apertureEngine a) a (leBytes n v)))
    else .ok ((s.wrLe a n v).unreserve p a n)

/-- An access that ends in an error response (R7, R8): the probe of an absent unit is recorded, the pair takes the access fault. -/
def State.busTrap (s : State) (p cause a : Nat) (e : BusErr) : State :=
  (match e with | .absent => s.absentAccess (a - 0x40000000) | .error => s).trap p cause a

/-! ### The commands -/

/-- ABSENT_UNIT_ACCESS (R7, R8): the probe is recorded and the pair takes the access fault. An access in the window of a fitted unit is no such
access; one that no region of the map holds ends in an error response too (DEDUCED, log 6). -/
def absentUnitAccess (p a : Nat) (store : Bool) (s : State) : State :=
  if !s.executes p then s
  else if s.absentAt a then s.busTrap p (if store then 7 else 5) a .absent
  else if !inMap a then s.busTrap p (if store then 7 else 5) a .error
  else s

/-- REGISTER_WRITE (R13 to R15): a 32-bit store of machine mode to the address at `off` from the first block window; the pair goes on with its
instruction. Beyond the block windows it is the access that the map makes it. -/
def registerWrite (p off : Nat) (v : Word) (s : State) : State :=
  if !s.executes p || (s.pair p).umode then s
  else match s.busStore p (0x40000000 + off) 4 v.toNat with
    | .ok s => s
    | .error e => s.busTrap p 7 (0x40000000 + off) e

/-- ABSENT_UNIT_ACCESS. -/
def execAbsentUnitAccess (p : Fin 4) (addr : Nat) (store : Bool) (s : State) : Host.Outcome State Fault Refusal :=
  .next (absentUnitAccess p addr store s)

/-- REGISTER_WRITE. -/
def execRegisterWrite (p : Fin 4) (off : Nat) (v : Word) (s : State) : Host.Outcome State Fault Refusal := .next (registerWrite p off v s)

end Sys2Proof.Machine
end

