-- ==== Sys2Proof/Machine/Fp.lean ====
section
/-!
DEFINITION. The floating-point arithmetic of the F and D extensions (R47): IEEE 754-2019 with the five rounding modes. Every result is
formed exactly and rounded once. What IEEE 754 leaves to the architecture (the canonical NaN, tininess after rounding, minimum and maximum
with a NaN, conversions out of range) is that of the RISC-V architecture (PRESUMED, log 12).
-/
namespace Sys2Proof.Machine

/-! ### Formats and values -/

/-- A binary format: fraction bits and exponent bits. -/
structure FpFmt where
  m : Nat
  e : Nat
  deriving DecidableEq, Repr

def fpSingle : FpFmt := ⟨23, 8⟩
def fpDouble : FpFmt := ⟨52, 11⟩
def FpFmt.width (f : FpFmt) : Nat := 1 + f.e + f.m
def FpFmt.bias (f : FpFmt) : Nat := 2 ^ (f.e - 1) - 1
/-- The exponent of the least significant bit of a subnormal number. -/
def FpFmt.low (f : FpFmt) : Int := 1 - (f.bias : Int) - f.m

/-- A datum: a NaN, an infinity, or the number (-1)^neg * mag * 2^exp. -/
inductive FpVal where
  | nan (signaling : Bool)
  | inf (neg : Bool)
  | fin (neg : Bool) (mag : Nat) (exp : Int)
  deriving DecidableEq, Repr

/-- What an encoding stands for. -/
def FpFmt.val (f : FpFmt) (b : Nat) : FpVal :=
  let neg := b.testBit (f.e + f.m)
  let x := b / 2 ^ f.m % 2 ^ f.e
  let fr := b % 2 ^ f.m
  if x = 2 ^ f.e - 1 then (if fr = 0 then .inf neg else .nan (!(fr.testBit (f.m - 1))))
  else if x = 0 then .fin neg fr f.low
  else .fin neg (2 ^ f.m + fr) ((x : Int) - f.bias - f.m)

def FpFmt.sign (f : FpFmt) (neg : Bool) : Nat := (if neg then 1 else 0) * 2 ^ (f.e + f.m)
def FpFmt.infBits (f : FpFmt) (neg : Bool) : Nat := f.sign neg + (2 ^ f.e - 1) * 2 ^ f.m
def FpFmt.maxBits (f : FpFmt) (neg : Bool) : Nat := f.infBits neg - 1
/-- The canonical NaN. -/
def FpFmt.nanBits (f : FpFmt) : Nat := (2 ^ f.e - 1) * 2 ^ f.m + 2 ^ (f.m - 1)

/-! ### Exception flags -/

def fpNx : BitVec 5 := 1
def fpUf : BitVec 5 := 2
def fpOf : BitVec 5 := 4
def fpDz : BitVec 5 := 8
def fpNv : BitVec 5 := 16

/-! ### Rounding -/

/-- Whether a magnitude is rounded away from zero: what is cut off is `rem` of `unit`; modes 0 RNE, 1 RTZ, 2 RDN, 3 RUP, 4 RMM. -/
def fpAway (rm : Nat) (neg odd : Bool) (rem unit : Nat) : Bool :=
  match rm with
  | 0 => decide (unit < 2 * rem) || (decide (2 * rem = unit) && odd)
  | 1 => false
  | 2 => neg && decide (rem ≠ 0)
  | 3 => !neg && decide (rem ≠ 0)
  | _ => decide (rem ≠ 0) && decide (unit ≤ 2 * rem)

/-- A magnitude `mag * 2^exp` as a multiple of 2^q, rounded, and whether it is exact. -/
def fpCut (rm : Nat) (neg : Bool) (mag : Nat) (exp q : Int) : Nat × Bool :=
  if q ≤ exp then (mag * 2 ^ (exp - q).toNat, true)
  else
    let unit := 2 ^ (q - exp).toNat
    let n := mag / unit
    let rem := mag % unit
    (if fpAway rm neg (n.testBit 0) rem unit then n + 1 else n, decide (rem = 0))

/-- The number rounded to the format: its encoding and flags. -/
def FpFmt.round (f : FpFmt) (rm : Nat) (neg : Bool) (mag : Nat) (exp : Int) : Nat × BitVec 5 :=
  if mag = 0 then (f.sign neg, 0)
  else
    let free := exp + (Nat.log2 mag : Int) - f.m
    let q := max free f.low
    let c := fpCut rm neg mag exp q
    let u := fpCut rm neg mag exp free
    let tiny : Bool := decide (free < f.low) && !(decide (free = f.low - 1) && decide (u.1 = 2 ^ (f.m + 1)))
    let up : Bool := decide (c.1 = 2 ^ (f.m + 1))
    let n := if up then 2 ^ f.m else c.1
    let x := if n < 2 ^ f.m then 0 else (q + f.bias + f.m + (if up then 1 else 0)).toNat
    if 2 ^ f.e - 1 ≤ x then
      let toInf : Bool := rm = 0 ∨ rm = 4 ∨ (rm = 2 ∧ neg) ∨ (rm = 3 ∧ !neg)
      (if toInf then f.infBits neg else f.maxBits neg, fpOf ||| fpNx)
    else
      (f.sign neg + x * 2 ^ f.m + (if x = 0 then n else n - 2 ^ f.m), if c.2 then 0 else if tiny then fpUf ||| fpNx else fpNx)

/-- A result that is a NaN. -/
def FpFmt.invalid (f : FpFmt) (nv : Bool) : Nat × BitVec 5 := (f.nanBits, if nv then fpNv else 0)
def FpVal.isNan : FpVal → Bool
  | .nan _ => true
  | _ => false
def FpVal.isSnan : FpVal → Bool
  | .nan s => s
  | _ => false

/-! ### Arithmetic -/

/-- The square root of a number, rounded down, found bit by bit from bit `k - 1`. -/
def isqrtBits : Nat → Nat → Nat → Nat
  | 0, _, r => r
  | k + 1, n, r => isqrtBits k n (if (r + 2 ^ k) * (r + 2 ^ k) ≤ n then r + 2 ^ k else r)
def isqrt (n : Nat) : Nat := isqrtBits (Nat.log2 n / 2 + 1) n 0

/-- Magnitude and sign as an integer multiple of 2^q. -/
def fpInt (neg : Bool) (mag : Nat) (exp q : Int) : Int :=
  let v : Int := ((mag * 2 ^ (exp - q).toNat : Nat) : Int)
  if neg then -v else v

/-- The sum of two finite numbers; an exact zero of unlike signs is negative only in mode RDN. -/
def FpFmt.sum (f : FpFmt) (rm : Nat) (na : Bool) (ma : Nat) (xa : Int) (nb : Bool) (mb : Nat) (xb : Int) : Nat × BitVec 5 :=
  let q := min xa xb
  let v := fpInt na ma xa q + fpInt nb mb xb q
  if v = 0 then (f.sign (if na = nb then na else rm == 2), 0) else f.round rm (decide (v < 0)) v.natAbs q

/-- Addition of data. -/
def FpFmt.add (f : FpFmt) (rm : Nat) (a b : FpVal) : Nat × BitVec 5 :=
  match a, b with
  | .fin na ma xa, .fin nb mb xb => f.sum rm na ma xa nb mb xb
  | .inf na, .inf nb => if na = nb then (f.infBits na, 0) else f.invalid true
  | .inf na, .fin _ _ _ => (f.infBits na, 0)
  | .fin _ _ _, .inf nb => (f.infBits nb, 0)
  | _, _ => f.invalid (a.isSnan || b.isSnan)

def FpVal.neg : FpVal → FpVal
  | .nan s => .nan s
  | .inf n => .inf (!n)
  | .fin n m x => .fin (!n) m x
def FpVal.signBit : FpVal → Bool
  | .nan _ => false
  | .inf n => n
  | .fin n _ _ => n
def FpVal.isInf : FpVal → Bool
  | .inf _ => true
  | _ => false
def FpVal.isZero : FpVal → Bool
  | .fin _ m _ => m == 0
  | _ => false

/-- The product before rounding: none where it is invalid or a NaN. -/
def FpVal.times (a b : FpVal) : Option FpVal :=
  match a, b with
  | .fin na ma xa, .fin nb mb xb => some (.fin (na != nb) (ma * mb) (xa + xb))
  | .nan _, _ | _, .nan _ => none
  | _, _ => if a.isZero || b.isZero then none else some (.inf (a.signBit != b.signBit))

def FpFmt.mul (f : FpFmt) (rm : Nat) (a b : FpVal) : Nat × BitVec 5 :=
  match a.times b with
  | some (.fin n m x) => f.round rm n m x
  | some (.inf n) => (f.infBits n, 0)
  | _ => f.invalid (a.isSnan || b.isSnan || (!a.isNan && !b.isNan))

/-- The fused multiply-add: invalid for infinity times zero whatever the addend. -/
def FpFmt.fma (f : FpFmt) (rm : Nat) (a b c : FpVal) : Nat × BitVec 5 :=
  match a.times b with
  | some p => f.add rm p c
  | none => f.invalid (a.isSnan || b.isSnan || c.isSnan || (!a.isNan && !b.isNan))

/-- Division: a finite number by zero is an exact infinity with DZ. -/
def FpFmt.div (f : FpFmt) (rm : Nat) (a b : FpVal) : Nat × BitVec 5 :=
  let neg := a.signBit != b.signBit
  match a, b with
  | .fin _ ma xa, .fin _ mb xb =>
    if mb = 0 then (if ma = 0 then f.invalid true else (f.infBits neg, fpDz))
    else
      let k := 2 * f.m + 6
      let n := ma * 2 ^ k
      f.round rm neg (2 * (n / mb) + (if n % mb = 0 then 0 else 1)) (xa - xb - k - 1)
  | .inf _, .fin _ _ _ => (f.infBits neg, 0)
  | .fin _ _ _, .inf _ => (f.sign neg, 0)
  | .inf _, .inf _ => f.invalid true
  | _, _ => f.invalid (a.isSnan || b.isSnan)

def FpFmt.sqrt (f : FpFmt) (rm : Nat) (a : FpVal) : Nat × BitVec 5 :=
  match a with
  | .fin neg m x =>
    if m = 0 then (f.sign neg, 0)
    else if neg then f.invalid true
    else
      let odd := (x % 2).toNat
      let k := f.m + 4
      let n := m * 2 ^ (odd + 2 * k)
      let r := isqrt n
      f.round rm false (2 * r + (if r * r = n then 0 else 1)) ((x - odd) / 2 - k - 1)
  | .inf neg => if neg then f.invalid true else (f.infBits false, 0)
  | .nan s => f.invalid s

/-! ### Comparison, minimum and maximum, class -/

/-- One datum is less than another, neither a NaN; zeros are equal. -/
def FpVal.lt (a b : FpVal) : Bool :=
  match a, b with
  | .fin na ma xa, .fin nb mb xb => let q := min xa xb; decide (fpInt na ma xa q < fpInt nb mb xb q)
  | .inf na, .inf nb => na && !nb
  | .inf na, _ => na
  | _, .inf nb => !nb
  | _, _ => false

/-- FEQ (2), FLT (1), FLE (0): FEQ is quiet, the others signal for any NaN. -/
def fpCompare (rm : Nat) (a b : FpVal) : Bool × BitVec 5 :=
  if a.isNan || b.isNan then (false, if rm ≠ 2 ∨ a.isSnan ∨ b.isSnan then fpNv else 0)
  else (match rm with
    | 2 => !(a.lt b) && !(b.lt a)
    | 1 => a.lt b
    | _ => !(b.lt a), 0)

/-- FMIN and FMAX: a NaN yields to a number, and -0 is below +0. -/
def FpFmt.minMax (f : FpFmt) (isMax : Bool) (a b : Nat) : Nat × BitVec 5 :=
  let x := f.val a
  let y := f.val b
  let nv := if x.isSnan || y.isSnan then fpNv else 0
  let less : Bool := x.lt y || (!(y.lt x) && x.signBit && !y.signBit)
  (match x.isNan, y.isNan with
   | true, true => f.nanBits
   | true, false => b
   | false, true => a
   | false, false => if less != isMax then a else b, nv)

/-- FCLASS: one of ten bits. -/
def FpFmt.classOf (f : FpFmt) (a : Nat) : Nat :=
  match f.val a with
  | .nan s => if s then 2 ^ 8 else 2 ^ 9
  | .inf n => if n then 1 else 2 ^ 7
  | .fin n m _ =>
    if m = 0 then (if n then 2 ^ 3 else 2 ^ 4)
    else if m < 2 ^ f.m then (if n then 2 ^ 2 else 2 ^ 5)
    else if n then 2 else 2 ^ 6

/-! ### Conversions -/

/-- A datum in another format. -/
def FpFmt.convert (f : FpFmt) (rm : Nat) (a : FpVal) : Nat × BitVec 5 :=
  match a with
  | .fin n m x => f.round rm n m x
  | .inf n => (f.infBits n, 0)
  | .nan s => f.invalid s

/-- An integer in the format. -/
def FpFmt.ofInt (f : FpFmt) (rm : Nat) (v : Int) : Nat × BitVec 5 := f.round rm (decide (v < 0)) v.natAbs 0

/-- A datum as an integer from `lo` to `hi`: out of range and for a NaN the nearer bound, the upper one for a NaN, with NV. -/
def fpToInt (rm : Nat) (lo hi : Int) (a : FpVal) : Int × BitVec 5 :=
  match a with
  | .nan _ => (hi, fpNv)
  | .inf n => (if n then lo else hi, fpNv)
  | .fin n m x =>
    let c := fpCut rm n m x 0
    let v : Int := if n then -(c.1 : Int) else c.1
    if v < lo then (lo, fpNv) else if hi < v then (hi, fpNv) else (v, if c.2 then 0 else fpNx)

/-- The range of an integer conversion: 0 W, 1 WU, 2 L, 3 LU. -/
def fpRange (k : Nat) : Int × Int :=
  match k with
  | 0 => (-(2 ^ 31 : Nat), ((2 ^ 31 - 1 : Nat) : Int))
  | 1 => (0, ((2 ^ 32 - 1 : Nat) : Int))
  | 2 => (-(2 ^ 63 : Nat), ((2 ^ 63 - 1 : Nat) : Int))
  | _ => (0, ((2 ^ 64 - 1 : Nat) : Int))

end Sys2Proof.Machine
end

