-- ==== Sys2Proof/Machine/Rv.lean ====
section
/-!
DEFINITION. The ordinary instructions of a pair (R44 to R48, R50, R58, R59): RV64IMAFDC with Zicsr and Zifencei in machine and user mode,
over physical addresses in machine mode and translated ones in user mode. What the instructions compute is that of the RISC-V
architecture the spec names (PRESUMED, log 12); floating-point arithmetic is that of Machine/Fp.lean (R47).
-/
namespace Sys2Proof.Machine

/-! ### Integer arithmetic -/

/-- An operation on 64 bits. -/
def aluOp (o : AluOp) (a b : DWord) : DWord :=
  match o with
  | .add => a + b
  | .sub => a - b
  | .sll => a <<< (b.toNat % 64)
  | .slt => if a.toInt < b.toInt then 1 else 0
  | .sltu => if a.toNat < b.toNat then 1 else 0
  | .xor => a ^^^ b
  | .srl => a >>> (b.toNat % 64)
  | .sra => a.sshiftRight (b.toNat % 64)
  | .or => a ||| b
  | .and => a &&& b
  | .mul => a * b
  | .mulh => BitVec.ofInt 64 (a.toInt * b.toInt / (2 ^ 64 : Nat))
  | .mulhsu => BitVec.ofInt 64 (a.toInt * (b.toNat : Int) / (2 ^ 64 : Nat))
  | .mulhu => BitVec.ofNat 64 (a.toNat * b.toNat / 2 ^ 64)
  | .div => if b = 0 then BitVec.allOnes 64 else BitVec.ofInt 64 (a.toInt.tdiv b.toInt)
  | .divu => if b = 0 then BitVec.allOnes 64 else a / b
  | .rem => if b = 0 then a else BitVec.ofInt 64 (a.toInt.tmod b.toInt)
  | .remu => if b = 0 then a else a % b

/-- An operation on the low 32 bits, its result sign-extended. -/
def aluOpW (o : AluOp) (a b : DWord) : DWord :=
  let x : Word := a.setWidth 32
  let y : Word := b.setWidth 32
  let r : Word := match o with
    | .sub => x - y
    | .sll => x <<< (y.toNat % 32)
    | .srl => x >>> (y.toNat % 32)
    | .sra => x.sshiftRight (y.toNat % 32)
    | .mul => x * y
    | .div => if y = 0 then BitVec.allOnes 32 else BitVec.ofInt 32 (x.toInt.tdiv y.toInt)
    | .divu => if y = 0 then BitVec.allOnes 32 else x / y
    | .rem => if y = 0 then x else BitVec.ofInt 32 (x.toInt.tmod y.toInt)
    | .remu => if y = 0 then x else x % y
    | _ => x + y
  r.signExtend 64

/-- The condition of a branch. -/
def brTaken (c : BrCond) (a b : DWord) : Bool :=
  match c with
  | .eq => a == b
  | .ne => a != b
  | .lt => decide (a.toInt < b.toInt)
  | .ge => decide (b.toInt ≤ a.toInt)
  | .ltu => decide (a.toNat < b.toNat)
  | .geu => decide (b.toNat ≤ a.toNat)

/-- What an AMO writes, of `w` bits: the old value and the operand. -/
def amoOp (o : AmoOp) (w : Nat) (a b : Nat) : Nat :=
  let sa := toSigned w a
  let sb := toSigned w b
  match o with
  | .swap => b
  | .add => (a + b) % 2 ^ w
  | .xor => a ^^^ b
  | .and => a &&& b
  | .or => a ||| b
  | .min => if sb < sa then b else a
  | .max => if sa < sb then b else a
  | .minu => min a b
  | .maxu => max a b

/-- Bytes of a width, as a power of two. -/
def memSize : MemW → Nat
  | .b => 0
  | .h => 1
  | .w => 2
  | .d => 3

/-! ### Memory accesses of an instruction -/

/-- What an access gives: the state with the value read, or the state in which the instruction ended in an exception or waits. -/
inductive MemOut where
  | ok (s : State) (v : Nat)
  | stop (s : State)

/-- The partition whose command port a translated address belongs to: its number and the offset (R130, R453). -/
def partPort (pa : Nat) : Option (Nat × Nat) :=
  if 0x7000000000 ≤ pa ∧ pa < 0x7000100000 then some ((pa - 0x7000000000) / 0x1000, pa % 0x1000) else none

/-- A page has been accessed: R136 orders pages by it; a store makes it differ from its home. -/
def State.pageUsed (s : State) (key : Option Nat) (write : Bool) : State :=
  match key with
  | some k => s.modPage k fun c => { c with last := s.clk.t, written := c.written || write }
  | none => s

/-- A line with an uncorrectable error in a page ends in a page fault, elsewhere in an access fault (R152). -/
def State.badLine (s : State) (p tn va : Nat) (key : Option Nat) (a : Acc) : State :=
  match key with
  | some _ => s.pageFault p tn va 5 a
  | none => s.trap p a.accessFault va

/-- The agreed image that the running activation of a task reads (R111, R131). -/
def State.agreedOf (s : State) (tn g : Nat) : Tbl Byte := tget nilD s.cyc.versions (verKey g ((s.task tn).imgVer.getD g 0))

/-- A pair's load from memory may refill a line of its data cache, which mhpmcounter3 counts (R48): whether it does is a free value. -/
def State.refills (s : State) (p : Nat) : State :=
  let hit := Config.refill s.freeCtr
  s.free.modPair p fun q => if hit ∧ !(q.mcountinhibit.testBit 3) then { q with hpm3 := (q.hpm3 + 1) % 2 ^ 64 } else q

/-- A load of `n` bytes in user mode; a resident page outside a staged task's working set is a violation (R141). -/
def State.userLoad (s : State) (p tn va n : Nat) : MemOut :=
  match s.umap tn va n .read with
  | .mem pa key =>
    (match partPort pa with
     | some (part, o) =>
       if o < 0x100 then let r := s.regLoad p (0x1000000 + part * 0x1000 + o) n; .ok r.1 r.2 else .ok s (s.rdLe pa n)
     | none =>
       if s.poisoned pa then .stop (s.badLine p tn va key .read)
       else .ok (((s.refills p).resident p tn va key).pageUsed key false) (s.rdLe pa n))
  | .agreed g o => .ok (s.refills p) (leNat (tgetList byteD (s.agreedOf tn g) o n))
  | .output k o => .ok (s.refills p) (leNat (tgetList byteD s.cyc.working (workKey k o) n))
  | .qreg q o => let r := s.regLoad p (0x38000 + q * 0x100 + o) n; .ok r.1 r.2
  | m => .stop (s.mapStop p tn va .read m)

/-- A store of `n` bytes in user mode. -/
def State.userStore (s : State) (p tn va n v : Nat) : MemOut :=
  match s.umap tn va n .write with
  | .mem pa key =>
    (match partPort pa with
     | some (part, o) =>
       if o < 0x100 then .ok (s.regStore p (0x1000000 + part * 0x1000 + o) n v) 0 else .ok (s.wrLe pa n v) 0
     | none => .ok ((((s.resident p tn va key).wrLe pa n v).unreserve p pa n).pageUsed key true) 0)
  | .output k o => .ok { s with cyc := { s.cyc with working := tputList byteD s.cyc.working (workKey k o) (leBytes n v) } } 0
  | .qreg q o => .ok (s.regStore p (0x38000 + q * 0x100 + o) n v) 0
  | m => .stop (s.mapStop p tn va .write m)

/-- The apertures of the engines and of the CAN FD controllers, whose own rules on alignment give an error response (R170, R361). -/
def State.aperture (s : State) (p a : Nat) : Bool := !(s.pair p).umode && (inLe a || inCan a)

/-- An access across a line is misaligned (R46). -/
def State.crosses (s : State) (p a n : Nat) : Bool := decide (a / 64 ≠ (a + n - 1) / 64) && !(s.aperture p a)

/-- A load of `n` bytes by what the pair executes. -/
def State.rvLoad (s : State) (p a n : Nat) : MemOut :=
  if s.crosses p a n then .stop (s.trap p 4 a)
  else match (s.pair p).umode, s.taskOn p with
  | true, some tn => s.userLoad p tn a n
  | true, none => .stop s
  | false, _ =>
    match (if inSram a || inEmram a || s.inDdr a then s.refills p else s).busLoad p a n with
    | .ok (s, v) => .ok s v
    | .error e => .stop (s.busTrap p 5 a e)

/-- A store of `n` bytes by what the pair executes. -/
def State.rvStore (s : State) (p a n v : Nat) : MemOut :=
  if s.crosses p a n then .stop (s.trap p 6 a)
  else match (s.pair p).umode, s.taskOn p with
  | true, some tn => s.userStore p tn a n v
  | true, none => .stop s
  | false, _ =>
    match s.busStore p a n v with
    | .ok s => .ok s 0
    | .error e => .stop (s.busTrap p 7 a e)

/-- The address of an access in memory that supports AMO, LR and SC (R59), for a user-mode access with the translation's answer: memory, and
the images in SRAM. Reservations of the output region stand under an address of the model's own. -/
def State.atomicAt (s : State) (p a n : Nat) (k : Acc) : Option Nat :=
  match (s.pair p).umode, s.taskOn p with
  | true, some tn =>
    (match s.umap tn a n k with
     | .mem pa _ => if (partPort pa).isSome then none else some pa
     | .output t o => some (0x7100000000 + workKey t o)
     | .agreed g o => some (0x7200000000 + g * 0x1000000 + o)
     | .qreg _ _ => none
     | _ => some 0)
  | true, none => none
  | false, _ => if inSram a || s.inDdr a then some a else none

/-- An AMO, LR or SC at an address: in an aperture an access fault (R170, R361), misaligned (R46), outside what supports it (R59), or made. -/
def State.atomic (s : State) (p a n cause : Nat) (k : Acc) (f : Nat → State) : State :=
  if a % n ≠ 0 ∧ !(s.aperture p a) then s.trap p (if cause = 5 then 4 else 6) a
  else match s.atomicAt p a n k with
  | some pa => f pa
  | none => if !(s.pair p).umode && s.absentAt a then s.busTrap p cause a .absent else s.trap p cause a

/-- A load that an AMO makes: its exceptions are those of a store. -/
def State.amoLoad (s : State) (p a n : Nat) : MemOut :=
  match (s.pair p).umode, s.taskOn p with
  | true, some tn =>
    (match s.umap tn a n .write with
     | .mem pa key => if s.poisoned pa then .stop (s.badLine p tn a key .write) else .ok s (s.rdLe pa n)
     | .output t o => .ok s (leNat (tgetList byteD s.cyc.working (workKey t o) n))
     | m => .stop (s.mapStop p tn a .write m))
  | true, none => .stop s
  | false, _ =>
    if !s.mayStore a then .stop (s.trap p 7 a)
    else match s.busLoad p a n with
    | .ok (s, v) => .ok s v
    | .error e => .stop (s.busTrap p 7 a e)

/-! ### Retiring -/

/-- The instruction retires with a value in an integer register. -/
def State.rvDone (s : State) (p rd len : Nat) (v : DWord) : State := s.modPair p fun q => (q.setX rd v).retireTo (q.pc + len)
/-- The instruction retires and execution goes on at an address. -/
def State.rvGoto (s : State) (p rd : Nat) (v : DWord) (pc : Nat) : State := s.modPair p fun q => (q.setX rd v).retireTo pc
/-- Floating-point register `r` takes a value and FS becomes dirty. -/
def Pair.setF (q : Pair) (r : Nat) (v : DWord) : Pair := q.setCur { q.curBank with f := tput dwordD q.curBank.f r v, fs := 3 }
/-- Exception flags accrue in fcsr. -/
def Pair.accrue (q : Pair) (fl : BitVec 5) : Pair :=
  if fl = 0 then q else q.setCur { q.curBank with fcsr := q.curBank.fcsr ||| fl.setWidth 32, fs := 3 }
def Pair.fr (q : Pair) (r : Nat) : DWord := tget dwordD q.curBank.f r
/-- A single-precision value in a register, NaN-boxed. -/
def nanBox (v : Nat) : DWord := BitVec.ofNat 64 (0xFFFFFFFF00000000 + v % 2 ^ 32)
/-- The single-precision value a register holds: the canonical NaN where it is not NaN-boxed. -/
def unbox (v : DWord) : Word := if v.toNat / 2 ^ 32 = 0xFFFFFFFF then v.setWidth 32 else 0x7FC00000

/-! ### The instructions -/

/-- An illegal instruction: mtval takes the word where it is given, else 0. -/
def State.rvIllegal (s : State) (p w : Nat) : State := s.trap p 2 w

/-- A load: integer, sign- or zero-extended, or floating-point. -/
def State.rvLoadTo (s : State) (p len size a : Nat) (unsigned fp : Bool) (rd : Fin 32) : State :=
  if !(s.pair p).umode && inRack a && decide (a / 64 = (a + 2 ^ size - 1) / 64) then rackRead p (a - rackBase) size ⟨rd, fp, unsigned, len⟩ s
  else match s.rvLoad p a (2 ^ size) with
  | .stop s => s
  | .ok s v =>
    if fp then s.modPair p fun q => (q.setF rd (if size = 2 then nanBox v else BitVec.ofNat 64 v)).retireTo (q.pc + len)
    else s.rvDone p rd len (BitVec.ofNat 64 (rackExt size unsigned v))

/-- A store. -/
def State.rvStoreFrom (s : State) (p len size a : Nat) (v : DWord) : State :=
  if !(s.pair p).umode && inRack a && decide (a / 64 = (a + 2 ^ size - 1) / 64) then rackWrite p (a - rackBase) size v len s
  else match s.rvStore p a (2 ^ size) v.toNat with
  | .stop s => s
  | .ok s _ => s.modPair p fun q => q.retireTo (q.pc + len)

/-- LR (R59, R386): the reservation covers the 64-byte line. -/
def State.rvLr (s : State) (p len : Nat) (dbl : Bool) (rd : Fin 32) (a : Nat) : State :=
  let size := if dbl then 3 else 2
  if !(s.pair p).umode && inRack a && decide (a % 2 ^ size = 0) then lrW p (a - rackBase) dbl ⟨rd, false, false, len⟩ s
  else s.atomic p a (2 ^ size) 5 .read fun pa =>
    match s.rvLoad p a (2 ^ size) with
    | .stop s => s
    | .ok s v => (s.rvDone p rd len (BitVec.ofNat 64 (rackExt size false v))).modPair p fun q => { q with resv := some (pa / 64) }

/-- SC (R59, R386): stores and answers 0 where the reservation still covers the line, else answers 1; the reservation ends. -/
def State.rvSc (s : State) (p len : Nat) (dbl : Bool) (rd : Fin 32) (a : Nat) (v : DWord) : State :=
  let size := if dbl then 3 else 2
  if !(s.pair p).umode && inRack a && decide (a % 2 ^ size = 0) then scW p (a - rackBase) dbl v ⟨rd, false, false, len⟩ s
  else s.atomic p a (2 ^ size) 7 .write fun pa =>
    let drop (s : State) : State := s.modPair p fun q => { q with resv := none }
    if (s.pair p).resv = some (pa / 64) then
      match s.rvStore p a (2 ^ size) v.toNat with
      | .stop s => s
      | .ok s _ => drop (s.rvDone p rd len 0)
    else drop (s.rvDone p rd len 1)

/-- An AMO (R59, R385). -/
def State.rvAmo (s : State) (p len : Nat) (o : AmoOp) (dbl : Bool) (rd : Fin 32) (a : Nat) (v : DWord) : State :=
  let size := if dbl then 3 else 2
  if !(s.pair p).umode && inRack a && decide (a % 2 ^ size = 0) then rackAmo p (a - rackBase) dbl o v ⟨rd, false, false, len⟩ s
  else s.atomic p a (2 ^ size) 7 .write fun _ =>
    match s.amoLoad p a (2 ^ size) with
    | .stop s => s
    | .ok s old =>
      let w := 8 * 2 ^ size
      match s.rvStore p a (2 ^ size) (amoOp o w old (v.toNat % 2 ^ w)) with
      | .stop s => s
      | .ok s _ => s.rvDone p rd len (BitVec.ofNat 64 (rackExt size false old))

/-- A CSR instruction (R45, R48, R54, R56, R58): the value read goes to rd, and a write follows it; PLX_FENCE stalls as R58 says. -/
def State.rvCsr (s : State) (p len : Nat) (o : CsrOp) (rd : Fin 32) (v : DWord) (write : Bool) (csr : Nat) : State :=
  if !s.csrOk p csr write then s.rvIllegal p 0
  else
    let old : DWord := BitVec.ofNat 64 ((s.csrRead p csr).getD 0)
    let new := match o with
      | .rw => v
      | .rs => old ||| v
      | .rc => old &&& ~~~v
    if write && csr == 0x8C0 then (s.modPair p fun q => q.setX rd old).fenceWrite p new.toNat
    else
      let s := s.rvDone p rd len old
      if write then s.csrWrite p csr new else s

/-- ECALL (R103, R145): an executive call from user mode, else the exception. -/
def State.rvEcall (s : State) (p : Nat) : State :=
  if !(s.pair p).umode then s.trap p 11 0
  else match ((s.pair p).x 17).toNat with
  | 0x00 => done p s
  | 0x01 => yield p s
  | 0x02 => cycleInfo p s
  | 0x10 => pageAlloc p s
  | 0x11 => pageFree p s
  | 0x12 => pagePrefetch p s
  | 0x13 => pageFlush p s
  | 0x14 => memInfo p s
  | _ => s.trap p 8 0

/-- The rounding mode of an F or D instruction: 7 takes fcsr.frm; the modes 5 and 6 are no modes. -/
def Pair.rounding (q : Pair) (rm : Nat) : Option Nat :=
  let r := if rm = 7 then q.curBank.fcsr.toNat / 32 % 8 else rm
  if r < 5 then some r else none

/-- Operations whose rm field selects the operation and not a rounding mode: sign injection, minimum and maximum, comparison, class,
moves. -/
def fpPlain (n : Nat) : Bool := [0x10, 0x11, 0x14, 0x15, 0x50, 0x51, 0x70, 0x71, 0x78, 0x79].contains n

/-- Sign injection: the magnitude of `a` with the sign that `rm` makes of `b`. -/
def signInject (w rm : Nat) (a b : Nat) : Nat :=
  let sb := b.testBit (w - 1)
  let sg := if rm = 0 then sb else if rm = 1 then !sb else sb != a.testBit (w - 1)
  a % 2 ^ (w - 1) + b2n sg * 2 ^ (w - 1)

/-- A result in a format, as a register holds it: single precision is NaN-boxed. -/
def fpBox (dbl : Bool) (r : Nat × BitVec 5) : DWord × BitVec 5 := (if dbl then BitVec.ofNat 64 r.1 else nanBox r.1, r.2)
/-- The encoding that a register holds in a format. -/
def fpBits (dbl : Bool) (v : DWord) : Nat := if dbl then v.toNat else (unbox v).toNat
def fpFmt (dbl : Bool) : FpFmt := if dbl then fpDouble else fpSingle
/-- The datum that a register holds in a format. -/
def fpGet (dbl : Bool) (v : DWord) : FpVal := (fpFmt dbl).val (fpBits dbl v)

/-- The four fused operations: 0 FMADD, 1 FMSUB, 2 FNMSUB, 3 FNMADD. -/
def fpFused (k : Nat) (dbl : Bool) (rm : Nat) (a b c : FpVal) : Nat × BitVec 5 :=
  let f := fpFmt dbl
  match k with
  | 0 => f.fma rm a b c
  | 1 => f.fma rm a b c.neg
  | 2 => f.fma rm a.neg b c
  | _ => f.fma rm a.neg b c.neg

/-- The result of an operation with a floating-point result, numbered as `RvInsn.fop` says: none where the number names none. -/
def fpResult (n rm : Nat) (a b c : DWord) : Option (DWord × BitVec 5) :=
  let dbl : Bool := n % 2 == 1
  let f := fpFmt dbl
  let x := fpGet dbl a
  let y := fpGet dbl b
  match n with
  | 0x00 | 0x01 => some (fpBox dbl (f.add rm x y))
  | 0x04 | 0x05 => some (fpBox dbl (f.add rm x y.neg))
  | 0x08 | 0x09 => some (fpBox dbl (f.mul rm x y))
  | 0x0C | 0x0D => some (fpBox dbl (f.div rm x y))
  | 0x10 | 0x11 => some (fpBox dbl (signInject f.width rm (fpBits dbl a) (fpBits dbl b), 0))
  | 0x14 | 0x15 => some (fpBox dbl (f.minMax (rm == 1) (fpBits dbl a) (fpBits dbl b)))
  | 0x2C | 0x2D => some (fpBox dbl (f.sqrt rm x))
  | 0xA0 => some (fpBox false (fpSingle.convert rm (fpGet true a)))
  | 0x21 => some (fpBox true (fpDouble.convert rm (fpGet false a)))
  | _ => if 4096 ≤ n ∧ n < 4112 ∧ n % 4 < 2 then some (fpBox dbl (fpFused ((n - 4096) / 4) dbl rm x y (fpGet dbl c))) else none

/-- The integer that register x takes from a conversion of kind `k`: of 32 bits it is sign-extended. -/
def fpIntX (k : Nat) (v : Int) : DWord := if k < 2 then (BitVec.ofInt 32 v).signExtend 64 else BitVec.ofInt 64 v
/-- The integer that a conversion of kind `k` takes from register x. -/
def fpXInt (k : Nat) (v : DWord) : Int :=
  match k with
  | 0 => (v.setWidth 32).toInt
  | 1 => (v.setWidth 32).toNat
  | 2 => v.toInt
  | _ => v.toNat

/-- The result of an operation with an integer result. -/
def fpToX (n rm : Nat) (a b : DWord) : Option (DWord × BitVec 5) :=
  let dbl : Bool := n % 2 == 1
  match n with
  | 0x50 | 0x51 => let r := fpCompare rm (fpGet dbl a) (fpGet dbl b); some (BitVec.ofNat 64 (b2n r.1), r.2)
  | 0x70 => some (if rm = 0 then (a.setWidth 32).signExtend 64 else BitVec.ofNat 64 (fpSingle.classOf (fpBits false a)), 0)
  | 0x71 => some (if rm = 0 then a else BitVec.ofNat 64 (fpDouble.classOf a.toNat), 0)
  | _ =>
    if n / 128 < 4 ∧ (n % 128 = 0x60 ∨ n % 128 = 0x61) then
      let r := fpToInt rm (fpRange (n / 128)).1 (fpRange (n / 128)).2 (fpGet dbl a)
      some (fpIntX (n / 128) r.1, r.2)
    else none

/-- The result of an operation with an integer source. -/
def fpFromX (n rm : Nat) (x : DWord) : Option (DWord × BitVec 5) :=
  let dbl : Bool := n % 2 == 1
  match n with
  | 0x78 => some (nanBox x.toNat, 0)
  | 0x79 => some (x, 0)
  | _ =>
    if n / 128 < 4 ∧ (n % 128 = 0x68 ∨ n % 128 = 0x69) then some (fpBox dbl ((fpFmt dbl).ofInt rm (fpXInt (n / 128) x))) else none

/-- An F or D operation (R47): illegal with FS off, without a rounding mode, or where its number names none; else the result of `f` is put by
`g` and the instruction retires. -/
def State.rvFp (s : State) (p len n rm : Nat) (f : Nat → Option (DWord × BitVec 5)) (g : Pair → DWord → Pair) : State :=
  let r := if fpPlain n then some rm else (s.pair p).rounding rm
  if (s.pair p).curBank.fs = 0 then s.rvIllegal p 0
  else match r.bind f with
  | some x => s.modPair p fun q => ((g q x.1).accrue x.2).retireTo (q.pc + len)
  | none => s.rvIllegal p 0

/-- One instruction of `len` bytes at the pc. -/
def State.rvRun (s : State) (p len : Nat) (i : RvInsn) : State :=
  let q := s.pair p
  let pc : DWord := BitVec.ofNat 64 q.pc
  let link : DWord := BitVec.ofNat 64 (q.pc + len)
  match i with
  | .lui rd imm => s.rvDone p rd len imm
  | .auipc rd imm => s.rvDone p rd len (pc + imm)
  | .jal rd ofs => s.rvGoto p rd link (pc + ofs).toNat
  | .jalr rd rs1 ofs => s.rvGoto p rd link ((q.x rs1 + ofs).toNat / 2 * 2)
  | .branch c rs1 rs2 ofs => s.rvGoto p 0 0 (if brTaken c (q.x rs1) (q.x rs2) then (pc + ofs).toNat else q.pc + len)
  | .load wd u rd rs1 ofs => s.rvLoadTo p len (memSize wd) (q.x rs1 + ofs).toNat u false rd
  | .store wd rs2 rs1 ofs => s.rvStoreFrom p len (memSize wd) (q.x rs1 + ofs).toNat (q.x rs2)
  | .opImm o rd rs1 imm => s.rvDone p rd len (aluOp o (q.x rs1) imm)
  | .opImmW o rd rs1 imm => s.rvDone p rd len (aluOpW o (q.x rs1) imm)
  | .op o rd rs1 rs2 => s.rvDone p rd len (aluOp o (q.x rs1) (q.x rs2))
  | .opW o rd rs1 rs2 => s.rvDone p rd len (aluOpW o (q.x rs1) (q.x rs2))
  | .lr dbl rd rs1 => s.rvLr p len dbl rd (q.x rs1).toNat
  | .sc dbl rd rs1 rs2 => s.rvSc p len dbl rd (q.x rs1).toNat (q.x rs2)
  | .amo o dbl rd rs1 rs2 => s.rvAmo p len o dbl rd (q.x rs1).toNat (q.x rs2)
  | .csr o rd rs1 csr => s.rvCsr p len o rd (q.x rs1) (o == .rw || decide (rs1 ≠ 0)) csr.toNat
  | .csrImm o rd imm csr => s.rvCsr p len o rd (BitVec.ofNat 64 imm) (o == .rw || decide (imm ≠ 0)) csr.toNat
  | .fence => s.rvDone p 0 len 0
  | .fenceI => s.rvDone p 0 len 0
  | .ecall => s.rvEcall p
  | .fload dbl rd rs1 ofs =>
    if q.curBank.fs = 0 then s.rvIllegal p 0 else s.rvLoadTo p len (if dbl then 3 else 2) (q.x rs1 + ofs).toNat false true rd
  | .fstore dbl rs2 rs1 ofs =>
    if q.curBank.fs = 0 then s.rvIllegal p 0 else s.rvStoreFrom p len (if dbl then 3 else 2) (q.x rs1 + ofs).toNat (q.fr rs2)
  | .fop n rm rd rs1 rs2 rs3 => s.rvFp p len n rm (fun r => fpResult n r (q.fr rs1) (q.fr rs2) (q.fr rs3)) fun q v => q.setF rd v
  | .fopX n rm rd rs1 rs2 => s.rvFp p len n rm (fun r => fpToX n r (q.fr rs1) (q.fr rs2)) fun q v => q.setX rd v
  | .fopF n rm rd rs1 => s.rvFp p len n rm (fun r => fpFromX n r (q.x rs1)) fun q v => q.setF rd v
  | .illegal w => s.rvIllegal p w.toNat

/-! ### Fetching -/

/-- A fetch of the bytes at a user-mode address. -/
def State.userFetch (s : State) (p tn va : Nat) : MemOut :=
  match s.umap tn va 1 .exec with
  | .mem pa key => if s.poisoned pa then .stop (s.badLine p tn va key .exec) else .ok (s.resident p tn va key) 0
  | m => .stop (s.mapStop p tn va .exec m)

/-- A fetch of `len` bytes at the pc: in machine mode outside memory, or on a line with an uncorrectable error, it ends in an access fault. -/
def State.rvFetch (s : State) (p len : Nat) : MemOut :=
  let pc := (s.pair p).pc
  match (s.pair p).umode, s.taskOn p with
  | true, some tn =>
    (match s.userFetch p tn pc with
     | .stop s => .stop s
     | .ok s _ => s.userFetch p tn (pc + len - 1))
  | true, none => .stop s
  | false, _ =>
    let ok (a : Nat) : Bool := (inSram a || inEmram a || s.inDdr a) && !(s.badAt a)
    if ok pc && ok (pc + len - 1) then .ok s 0
    else if s.absentAt pc then .stop (s.busTrap p 1 pc .absent) else .stop (s.trap p 1 pc)

/-- What the reads of an instruction meet: erroneous lines are decoded, and single-bit errors of the pair's caches are corrected and reported
(R43, R149). -/
def State.rvReads (s : State) (p : Nat) (r : PairReads) : State :=
  r.cache.foldl (fun (s : State) c => s.report .CACHE_CORRECTED (srcPair p) [p, c.1, c.2]) (s.lineErrs r.errs false)

/-- PAIR_INSTRUCTION (R44): the pair fetches at its pc and executes the instruction given. -/
def pairInstruction (p : Nat) (i : RvInsn) (len4 : Bool) (r : PairReads) (s : State) : State :=
  if !s.executes p then s
  else
    let s := s.rvReads p r
    if !s.executes p then s
    else match s.rvFetch p (if len4 then 4 else 2) with
    | .stop s => s
    | .ok s _ => s.rvRun p (if len4 then 4 else 2) i

/-! ### The commands -/

/-- PAIR_INSTRUCTION. -/
def execPairInstruction (p : Fin 4) (i : RvInsn) (f : InsnFetch) (s : State) : Host.Outcome State Fault Refusal :=
  .next (s.asInsn p (pairInstruction p i f.len4 f.reads))

end Sys2Proof.Machine
end

