-- ==== Sys2Proof/Machine/Svc.lean ====
section
/-!
DEFINITION. The service commands (R434, R461) and the halt-together protocol of the pairs (R67 to R71): SERVICE_ENTER and SERVICE_EXIT,
HALT, STEP, RESUME, PEEK, POKE, TRIGGER, BOOT_UPDATE.
-/
namespace Sys2Proof.Machine

/-! ### Entering and leaving the Service state (R34, R119, R434, R435) -/

/-- A change of state by a command of a request. -/
def State.cmdChange (s : State) (r : Req) (opc : Nat) (new : MState) : State :=
  s.stateChange new opc (originSrc r.origin) (originInst r.origin)

/-- SERVICE_ENTER: from Stop the major frames start anew (R34, R119); from Dusk everything stays frozen (R435). -/
def serviceEnter (r : Req) (s : State) : State :=
  s.command r 0x70 [.stop, .dusk] (· == 0) fun s =>
    let dusk : Bool := s.sup.st == .dusk
    let s : State := { s with sup := { s.sup with fromDusk := dusk }, cyc := { s.cyc with resumeOk := false } }
    .reply [] ((if dusk then s else s.newFrames).cmdChange r 0x70 .service).canFollow

/-- Every halted pair resumes (R461). -/
def State.resumeAll (s : State) : State := [0, 1, 2, 3].foldl (fun (s : State) p => s.resumePair p) s

/-- SERVICE_EXIT: to Stop, where every pair parks, or back to Dusk. -/
def serviceExit (r : Req) (s : State) : State :=
  s.command r 0x71 [.service] (· == 0) fun s =>
    if s.sup.fromDusk then
      let s : State := { s with sup := { s.sup with fromDusk := false } }
      .reply [] (s.cmdChange r 0x71 .dusk).canFollow
    else
      let s := s.resumeAll.stopTasks true
      let s : State := { s with hx := { s.hx with frameOn := false } }
      .reply [] (s.cmdChange r 0x71 .stop)

/-! ### Halting, stepping, resuming (R68, R69) -/

/-- A mask of pairs: BAD_PARAM beyond P3, ABSENT for a pair not fitted (R10). -/
def State.pairMask (s : State) (m : Nat) (f : State → Nat → State) : Ans :=
  if 15 < m then .badParam
  else if [0, 1, 2, 3].any fun p => m.testBit p && !(s.pairFitted p) then .refuse 0x21 0 0 0xFFFFFFFF
  else .reply [] ([0, 1, 2, 3].foldl (fun (s : State) p => if m.testBit p then f s p else s) s)

/-- HALT. -/
def halt (r : Req) (s : State) : State :=
  s.command r 0x72 [.service] (· == 1) fun s => s.pairMask (reqNum r 0 1) State.haltPair

/-- RESUME. -/
def resume (r : Req) (s : State) : State :=
  s.command r 0x74 [.service] (· == 1) fun s => s.pairMask (reqNum r 0 1) State.resumePair

/-- One instruction of a pair, which a trigger at its address does not stop. -/
def State.stepOne (s : State) (p : Nat) (i : PairStep) : State :=
  let s := s.execBegin p
  match i with
  | .insn i len4 => pairInstruction p i len4 ⟨[], []⟩ s
  | .mret => mret p s
  | .wfi => wfi p s
  | .ebreak => ebreak p s

/-- STEP (R68): a pair that is not halted is answered STATE. -/
def stepPair (r : Req) (i : PairStep) (s : State) : State :=
  s.command r 0x73 [.service] (· == 1) fun s =>
    let p := reqNum r 0 1
    if 3 < p then .badParam
    else if !(s.pairFitted p) then .refuse 0x21 0 0 0xFFFFFFFF
    else if !(s.pair p).halted then .refuse 0x20 0 0 0xFFFFFFFF
    else .reply [] (((s.thaw p).stepOne p i).haltPair p)

/-! ### PEEK and POKE (R70, R461) -/

/-- What a PEEK or POKE names: space, pair, address, length. -/
def peekArgs (r : Req) : Nat × Nat × Nat × Nat := (reqNum r 0 1, reqNum r 1 1, reqNum r 4 8, reqNum r 12 2)

/-- The refusal of the arguments of a PEEK or POKE: out of range, a unit that is absent, the key store (R451). The key store's place within
the configuration region is the model's: its last 128 KiB. -/
def State.peekRefuse (s : State) (r : Req) : Option Ans :=
  let (space, p, a, n) := peekArgs r
  if 1 < space ∨ 3 < p ∨ reqNum r 2 2 ≠ 0 ∨ 2 ^ 40 ≤ a ∨ n = 0 ∨ 4000 < n ∨ (space = 1 ∧ n ≠ 8) then some .badParam
  else if !(s.pairFitted p) then some (.refuse 0x21 0 0 0xFFFFFFFF)
  else if space = 0 then
    if a < 0x20400000 ∧ 0x203E0000 < a + n then some (.refuse 0x22 0 0 0xFFFFFFFF)
    else if (List.range n).any fun i => s.absentAt (a + i) then some (.refuse 0x21 0 0 0xFFFFFFFF)
    else if (List.range n).any fun i => (s.busStop p (a + i) 1).isSome then some .badParam
    else none
  else if 0x1000 ≤ a then (if 0x2000 ≤ a ∨ (s.csrRead p (a - 0x1000)).isNone then some .badParam else none)
  else if 0x400 ≤ a ∨ 65 < a % 256 then some .badParam
  else none

/-- Memory read as a pair in machine mode loads it: registers by their 32-bit words, everything else byte by byte. -/
def State.peekMem (p : Nat) : Nat → State → Nat → Nat → Option (State × List Byte)
  | 0, s, _, _ => some (s, [])
  | f + 1, s, a, n =>
    if n = 0 then some (s, []) else
    let k := if inRegs a && !inPort a then min n (4 - a % 4) else 1
    match s.busLoad p a k with
    | .error _ => none
    | .ok (s, v) => (State.peekMem p f s (a + k) (n - k)).map fun c => (c.1, leBytes k v ++ c.2)

/-- Memory written as a pair in machine mode stores it. -/
def State.pokeMem (p : Nat) : Nat → State → Nat → List Byte → State
  | 0, s, _, _ => s
  | f + 1, s, a, d =>
    if d.isEmpty then s else
    let k := if inRegs a && !inPort a then min d.length (4 - a % 4) else 1
    match s.busStore p a k (leNat (d.take k)) with
    | .error _ => s
    | .ok s => State.pokeMem p f s (a + k) (d.drop k)

/-- A pair register as PEEK names it: of a bank, or a CSR. -/
def State.peekReg (s : State) (p a : Nat) : DWord :=
  if 0x1000 ≤ a then BitVec.ofNat 64 ((s.csrRead p (a - 0x1000)).getD 0) else ((s.pair p).bank (a / 256)).reg (a % 256)

/-- PEEK: memory, or a register read from both cores; `trail` is what the trailing core holds where it differs from the leading one. -/
def peek (r : Req) (trail : Option DWord) (s : State) : State :=
  s.command r 0x75 [.service] (· == 14) fun s =>
    match s.peekRefuse r with
    | some e => e
    | none =>
      let (space, p, a, n) := peekArgs r
      if space = 0 then
        match State.peekMem p n s a n with
        | some c => .reply c.2 c.1
        | none => .fault s
      else
        let lead := s.peekReg p a
        if (trail.getD lead) = lead then .reply (leBytes 8 lead.toNat) s
        else
          let t := (trail.getD lead).toNat
          .fault ((s.report .PAIR_DEBUG_DIVERGE (srcPair p) [a, lead.toNat, lead.toNat / 2 ^ 32, t, t / 2 ^ 32]).modPair p fun q => { q with diverged := true })

/-- An address in the ACTIVE bank of an engine, which the supervisor does not write (R188). -/
def State.inActiveBank (s : State) (a : Nat) : Bool :=
  let e := apertureEngine a
  let o := (a - 0x41000000) % 0x400000
  inLe a && decide (o < 0x200000) && s.get (leBankF e (o / 0x100000)) == 3

/-- POKE: memory where a machine-mode store of the pair is allowed, or a register of both cores; where none is, BAD_PARAM. -/
def poke (r : Req) (s : State) : State :=
  s.command r 0x76 [.service] (fun l => decide (15 ≤ l)) fun s =>
    match s.peekRefuse r with
    | some e => e
    | none =>
      let (space, p, a, n) := peekArgs r
      let d := r.payload.drop 14
      if d.length ≠ n then .refuse 0x11 0 0 0xFFFFFFFF
      else if space = 0 then
        if (List.range n).any fun i => s.inActiveBank (a + i) then .refuse 0x22 0 0 0xFFFFFFFF
        else if (List.range n).any fun i => !(s.mayStore (a + i)) then .badParam
        else .reply [] ((State.pokeMem p n s a d).unreserve 4 a n)
      else
        let v : DWord := BitVec.ofNat 64 (leNat d)
        if 0x1000 ≤ a then
          if 0x1C00 ≤ a then .badParam else .reply [] (s.csrWrite p (a - 0x1000) v)
        else .reply [] (s.modPair p fun q => q.setBank (a / 256) ((q.bank (a / 256)).setReg (a % 256) v))

/-! ### TRIGGER (R71) and BOOT_UPDATE (R461) -/

/-- TRIGGER: an instruction-address trigger of a pair is set or cleared. -/
def trigger (r : Req) (s : State) : State :=
  s.command r 0x77 [.service] (· == 12) fun s =>
    let p := reqNum r 0 1
    let k := reqNum r 1 1
    let en := reqNum r 2 1
    if 3 < p ∨ 3 < k ∨ 1 < en ∨ reqNum r 3 1 ≠ 0 then .badParam
    else if !(s.pairFitted p) then .refuse 0x21 0 0 0xFFFFFFFF
    else .reply [] (s.modPair p fun q => { q with trig := tput noneD q.trig k (if en = 1 then some (reqNum r 4 8) else none) })

/-- BOOT_UPDATE: bytes go to the staging space; at LAST the image is verified and installed for the next Dawn sequence. Which version it
carries the spec leaves to the image: a free value. -/
def bootUpdate (r : Req) (s : State) : State :=
  s.command r 0x78 [.service] (fun l => decide (8 ≤ l)) fun s =>
    let o := reqNum r 0 4
    let last := reqNum r 4 1
    let d := r.payload.drop 8
    if 1 < last ∨ reqNum r 5 3 ≠ 0 ∨ 0x200000 < o + d.length then .badParam
    else
      let img := tputList byteD s.sup.fwStaged o d
      let s : State := { s with sup := { s.sup with fwStaged := img } }
      if last = 0 then .reply [] s
      else if Config.bootVerify (tgetList byteD img 0 (o + d.length)) then
        .reply [] ({ s with sup := { s.sup with fwStaged := [], fwNext := some ((Config.freeValue s.freeCtr).toNat % 2 ^ 32) } } : State).free
      else .later ((({ s with sup := { s.sup with fwStaged := [] } } : State).refuse r 0x78 0x30 s.errNone).countAuth r)

/-! ### The commands -/

/-- SERVICE_ENTER. -/
def execServiceEnter (r : Req) (s : State) : Host.Outcome State Fault Refusal := .next (serviceEnter r s)
/-- SERVICE_EXIT. -/
def execServiceExit (r : Req) (s : State) : Host.Outcome State Fault Refusal := .next (serviceExit r s)
/-- HALT. -/
def execHalt (r : Req) (s : State) : Host.Outcome State Fault Refusal := .next (halt r s)
/-- STEP. -/
def execStepPair (r : Req) (i : PairStep) (s : State) : Host.Outcome State Fault Refusal := .next (stepPair r i s)
/-- RESUME. -/
def execResume (r : Req) (s : State) : Host.Outcome State Fault Refusal := .next (resume r s)
/-- PEEK. -/
def execPeek (r : Req) (trail : Option DWord) (s : State) : Host.Outcome State Fault Refusal := .next (peek r trail s)
/-- POKE. -/
def execPoke (r : Req) (s : State) : Host.Outcome State Fault Refusal := .next (poke r s)
/-- TRIGGER. -/
def execTrigger (r : Req) (s : State) : Host.Outcome State Fault Refusal := .next (trigger r s)
/-- BOOT_UPDATE. -/
def execBootUpdate (r : Req) (s : State) : Host.Outcome State Fault Refusal := .next (bootUpdate r s)

end Sys2Proof.Machine
end

