-- ==== Sys2Proof/Machine/Dispatch.lean ====
section
/-!
DEFINITION. The dispatcher: one arm per command, each one call of its meaning.
-/
namespace Sys2Proof.Machine

def exec (i : Instr) (s : State) : Host.Outcome State Fault Refusal :=
  match i with
  | .gheifCycleStart => Sys2Proof.Machine.execGheifCycleStart s
  | .freeze g => Sys2Proof.Machine.execFreeze g s
  | .agrPub g => Sys2Proof.Machine.execAgrPub g s
  | .outLatch g => Sys2Proof.Machine.execOutLatch g s
  | .outGo g => Sys2Proof.Machine.execOutGo g s
  | .ungateRequest p => Sys2Proof.Machine.execUngateRequest p s
  | .pllRestartRequest p => Sys2Proof.Machine.execPllRestartRequest p s
  | .arbitrationWindow measured settled => Sys2Proof.Machine.execArbitrationWindow measured settled s
  | .pllLocked p => Sys2Proof.Machine.execPllLocked p s
  | .exceptionTrap p cause tval => Sys2Proof.Machine.execExceptionTrap p cause tval s
  | .vectorEntry p => Sys2Proof.Machine.execVectorEntry p s
  | .bankSwitch p => Sys2Proof.Machine.execBankSwitch p s
  | .wfi p => Sys2Proof.Machine.execWfi p s
  | .mret p => Sys2Proof.Machine.execMret p s
  | .ebreak p => Sys2Proof.Machine.execEbreak p s
  | .triggerHit p => Sys2Proof.Machine.execTriggerHit p s
  | .bankdatWrite p v => Sys2Proof.Machine.execBankdatWrite p v s
  | .vbaseWrite p v => Sys2Proof.Machine.execVbaseWrite p v s
  | .plxFenceDev p => Sys2Proof.Machine.execPlxFenceDev p s
  | .plxFenceQ p => Sys2Proof.Machine.execPlxFenceQ p s
  | .plxFenceLe p => Sys2Proof.Machine.execPlxFenceLe p s
  | .plxFenceHx p => Sys2Proof.Machine.execPlxFenceHx p s
  | .fenceComplete p => Sys2Proof.Machine.execFenceComplete p s
  | .pairMismatch p grp lane lead trail => Sys2Proof.Machine.execPairMismatch p grp lane lead trail s
  | .cmpSelftest p => Sys2Proof.Machine.execCmpSelftest p s
  | .cmpTestOverdue u => Sys2Proof.Machine.execCmpTestOverdue u s
  | .sourceQualified li level => Sys2Proof.Machine.execSourceQualified li level s
  | .vectorCommit p => Sys2Proof.Machine.execVectorCommit p s
  | .vdxComplete p v => Sys2Proof.Machine.execVdxComplete p v s
  | .vdxSwtrig v => Sys2Proof.Machine.execVdxSwtrig v s
  | .vdxSrccfgWrite n v => Sys2Proof.Machine.execVdxSrccfgWrite n v s
  | .vdxMaskWrite n v => Sys2Proof.Machine.execVdxMaskWrite n v s
  | .cntClr n => Sys2Proof.Machine.execCntClr n s
  | .vdxStrayClr p => Sys2Proof.Machine.execVdxStrayClr p s
  | .vdxDiagClr => Sys2Proof.Machine.execVdxDiagClr s
  | .windowStart w => Sys2Proof.Machine.execWindowStart w s
  | .preloadStart p => Sys2Proof.Machine.execPreloadStart p s
  | .preloadDone p => Sys2Proof.Machine.execPreloadDone p s
  | .saveDone p b => Sys2Proof.Machine.execSaveDone p b s
  | .done p => Sys2Proof.Machine.execDone p s
  | .yield p => Sys2Proof.Machine.execYield p s
  | .cycleInfo p => Sys2Proof.Machine.execCycleInfo p s
  | .budgetEnd u => Sys2Proof.Machine.execBudgetEnd u s
  | .abort writer p => Sys2Proof.Machine.execAbort writer p s
  | .bankRel writer p => Sys2Proof.Machine.execBankRel writer p s
  | .hxIdleWrite p v => Sys2Proof.Machine.execHxIdleWrite p v s
  | .hxTaskstatClr t => Sys2Proof.Machine.execHxTaskstatClr t s
  | .slackQuantumEnd p => Sys2Proof.Machine.execSlackQuantumEnd p s
  | .schedSwitch => Sys2Proof.Machine.execSchedSwitch s
  | .stagingRequest w => Sys2Proof.Machine.execStagingRequest w s
  | .pageTransferDone => Sys2Proof.Machine.execPageTransferDone s
  | .stageMiss p va => Sys2Proof.Machine.execStageMiss p va s
  | .wsetViolation p va => Sys2Proof.Machine.execWsetViolation p va s
  | .demandFill p va => Sys2Proof.Machine.execDemandFill p va s
  | .pageAlloc p => Sys2Proof.Machine.execPageAlloc p s
  | .pageFree p => Sys2Proof.Machine.execPageFree p s
  | .pagePrefetch p => Sys2Proof.Machine.execPagePrefetch p s
  | .pageFlush p => Sys2Proof.Machine.execPageFlush p s
  | .memInfo p => Sys2Proof.Machine.execMemInfo p s
  | .pageOpComplete part => Sys2Proof.Machine.execPageOpComplete part s
  | .scrubPass m errs => Sys2Proof.Machine.execScrubPass m errs s
  | .memUncorr m addr r => Sys2Proof.Machine.execMemUncorr m addr r s
  | .commit who q w => Sys2Proof.Machine.execCommit who q w s
  | .release who q => Sys2Proof.Machine.execRelease who q s
  | .queueItemVerified q => Sys2Proof.Machine.execQueueItemVerified q s
  | .creditReturn q => Sys2Proof.Machine.execCreditReturn q s
  | .queuePtrErr q a b => Sys2Proof.Machine.execQueuePtrErr q a b s
  | .hxqCntClr q => Sys2Proof.Machine.execHxqCntClr q s
  | .hxmMemerrClr => Sys2Proof.Machine.execHxmMemerrClr s
  | .hxmPartSramClr part => Sys2Proof.Machine.execHxmPartSramClr part s
  | .leNop e => Sys2Proof.Machine.execLeNop e s
  | .leLd e o => Sys2Proof.Machine.execLeLd e o s
  | .leLdn e o => Sys2Proof.Machine.execLeLdn e o s
  | .leSt e o => Sys2Proof.Machine.execLeSt e o s
  | .leStn e o => Sys2Proof.Machine.execLeStn e o s
  | .leS e o => Sys2Proof.Machine.execLeS e o s
  | .leR e o => Sys2Proof.Machine.execLeR e o s
  | .leAnd e o => Sys2Proof.Machine.execLeAnd e o s
  | .leAndn e o => Sys2Proof.Machine.execLeAndn e o s
  | .leOr e o => Sys2Proof.Machine.execLeOr e o s
  | .leOrn e o => Sys2Proof.Machine.execLeOrn e o s
  | .leXor e o => Sys2Proof.Machine.execLeXor e o s
  | .leXorn e o => Sys2Proof.Machine.execLeXorn e o s
  | .leNot e => Sys2Proof.Machine.execLeNot e s
  | .leAndBr e o => Sys2Proof.Machine.execLeAndBr e o s
  | .leAndnBr e o => Sys2Proof.Machine.execLeAndnBr e o s
  | .leOrBr e o => Sys2Proof.Machine.execLeOrBr e o s
  | .leOrnBr e o => Sys2Proof.Machine.execLeOrnBr e o s
  | .leXorBr e o => Sys2Proof.Machine.execLeXorBr e o s
  | .leXornBr e o => Sys2Proof.Machine.execLeXornBr e o s
  | .leClose e => Sys2Proof.Machine.execLeClose e s
  | .leEp e o => Sys2Proof.Machine.execLeEp e o s
  | .leEn e o => Sys2Proof.Machine.execLeEn e o s
  | .leTon e o => Sys2Proof.Machine.execLeTon e o s
  | .leTof e o => Sys2Proof.Machine.execLeTof e o s
  | .leTp e o => Sys2Proof.Machine.execLeTp e o s
  | .leTrd e o => Sys2Proof.Machine.execLeTrd e o s
  | .leCtu e o => Sys2Proof.Machine.execLeCtu e o s
  | .leCtd e o => Sys2Proof.Machine.execLeCtd e o s
  | .leCtld e o => Sys2Proof.Machine.execLeCtld e o s
  | .leCtrd e o => Sys2Proof.Machine.execLeCtrd e o s
  | .leLdw e o => Sys2Proof.Machine.execLeLdw e o s
  | .leStw e o => Sys2Proof.Machine.execLeStw e o s
  | .leAdd e o => Sys2Proof.Machine.execLeAdd e o s
  | .leSub e o => Sys2Proof.Machine.execLeSub e o s
  | .leMul e o => Sys2Proof.Machine.execLeMul e o s
  | .leDiv e o => Sys2Proof.Machine.execLeDiv e o s
  | .leMod e o => Sys2Proof.Machine.execLeMod e o s
  | .leAndw e o => Sys2Proof.Machine.execLeAndw e o s
  | .leOrw e o => Sys2Proof.Machine.execLeOrw e o s
  | .leXorw e o => Sys2Proof.Machine.execLeXorw e o s
  | .leShl e o => Sys2Proof.Machine.execLeShl e o s
  | .leShr e o => Sys2Proof.Machine.execLeShr e o s
  | .leAsr e o => Sys2Proof.Machine.execLeAsr e o s
  | .leGtw e o => Sys2Proof.Machine.execLeGtw e o s
  | .leGew e o => Sys2Proof.Machine.execLeGew e o s
  | .leEqw e o => Sys2Proof.Machine.execLeEqw e o s
  | .leNew e o => Sys2Proof.Machine.execLeNew e o s
  | .leLtw e o => Sys2Proof.Machine.execLeLtw e o s
  | .leLew e o => Sys2Proof.Machine.execLeLew e o s
  | .leLdx e o => Sys2Proof.Machine.execLeLdx e o s
  | .leJmp e o => Sys2Proof.Machine.execLeJmp e o s
  | .leJmpc e o => Sys2Proof.Machine.execLeJmpc e o s
  | .leJmpcn e o => Sys2Proof.Machine.execLeJmpcn e o s
  | .leCal e o => Sys2Proof.Machine.execLeCal e o s
  | .leCalc e o => Sys2Proof.Machine.execLeCalc e o s
  | .leRet e => Sys2Proof.Machine.execLeRet e s
  | .leSendq e o => Sys2Proof.Machine.execLeSendq e o s
  | .leRecvq e o => Sys2Proof.Machine.execLeRecvq e o s
  | .leEnd e => Sys2Proof.Machine.execLeEnd e s
  | .leMismatch e grp lane lead trail => Sys2Proof.Machine.execLeMismatch e grp lane lead trail s
  | .leCmpSelftest e => Sys2Proof.Machine.execLeCmpSelftest e s
  | .bankReady e => Sys2Proof.Machine.execBankReady e s
  | .leLineRestore e line => Sys2Proof.Machine.execLeLineRestore e line s
  | .leTrapClr e => Sys2Proof.Machine.execLeTrapClr e s
  | .presenceCount kind src => Sys2Proof.Machine.execPresenceCount kind src s
  | .retainSaveBurst => Sys2Proof.Machine.execRetainSaveBurst s
  | .carryCopyOut u bad => Sys2Proof.Machine.execCarryCopyOut u bad s
  | .changeSwitch => Sys2Proof.Machine.execChangeSwitch s
  | .changeSetupDone u => Sys2Proof.Machine.execChangeSetupDone u s
  | .changeDone => Sys2Proof.Machine.execChangeDone s
  | .rawFrameRx p f => Sys2Proof.Machine.execRawFrameRx p f s
  | .digSend g => Sys2Proof.Machine.execDigSend g s
  | .digFrameRx p f => Sys2Proof.Machine.execDigFrameRx p f s
  | .agreementFix g => Sys2Proof.Machine.execAgreementFix g s
  | .outFrameRx p f => Sys2Proof.Machine.execOutFrameRx p f s
  | .voteComplete v => Sys2Proof.Machine.execVoteComplete v s
  | .leaseLost k => Sys2Proof.Machine.execLeaseLost k s
  | .guardianLeaseLapse k => Sys2Proof.Machine.execGuardianLeaseLapse k s
  | .claim k => Sys2Proof.Machine.execClaim k s
  | .claimRx p f k oi => Sys2Proof.Machine.execClaimRx p f k oi s
  | .claimCsignRx p f k oi => Sys2Proof.Machine.execClaimCsignRx p f k oi s
  | .leaseGained k => Sys2Proof.Machine.execLeaseGained k s
  | .relFrameRx p f => Sys2Proof.Machine.execRelFrameRx p f s
  | .handoverPropose k rx => Sys2Proof.Machine.execHandoverPropose k rx s
  | .handoverAccept k rx h => Sys2Proof.Machine.execHandoverAccept k rx h s
  | .handoverInstant k => Sys2Proof.Machine.execHandoverInstant k s
  | .handoverGuardStart k => Sys2Proof.Machine.execHandoverGuardStart k s
  | .linkDown p => Sys2Proof.Machine.execLinkDown p s
  | .linkUp p => Sys2Proof.Machine.execLinkUp p s
  | .runEntryProposal rx count ids => Sys2Proof.Machine.execRunEntryProposal rx count ids s
  | .runBoundary => Sys2Proof.Machine.execRunBoundary s
  | .activateProposal rx v b digest => Sys2Proof.Machine.execActivateProposal rx v b digest s
  | .forceProposal rx v mfc cc ident what => Sys2Proof.Machine.execForceProposal rx v mfc cc ident what s
  | .syncReq rx ids => Sys2Proof.Machine.execSyncReq rx ids s
  | .syncFrameRx p f items last => Sys2Proof.Machine.execSyncFrameRx p f items last s
  | .syncFail => Sys2Proof.Machine.execSyncFail s
  | .syncDone => Sys2Proof.Machine.execSyncDone s
  | .presenceFrameSend => Sys2Proof.Machine.execPresenceFrameSend s
  | .presenceFrameRx port pos => Sys2Proof.Machine.execPresenceFrameRx port pos s
  | .tvlAgrcntClr => Sys2Proof.Machine.execTvlAgrcntClr s
  | .tvlVotecntClr => Sys2Proof.Machine.execTvlVotecntClr s
  | .tvlLinkcntClr p => Sys2Proof.Machine.execTvlLinkcntClr p s
  | .gheifFrameRx ch f => Sys2Proof.Machine.execGheifFrameRx ch f s
  | .gheifSlotTx ch p => Sys2Proof.Machine.execGheifSlotTx ch p s
  | .dynSlot ch => Sys2Proof.Machine.execDynSlot ch s
  | .gheifTake id => Sys2Proof.Machine.execGheifTake id s
  | .clockCorrection => Sys2Proof.Machine.execClockCorrection s
  | .gheifSyncLost => Sys2Proof.Machine.execGheifSyncLost s
  | .listenTimeout idle => Sys2Proof.Machine.execListenTimeout idle s
  | .casRx ch => Sys2Proof.Machine.execCasRx ch s
  | .startFrameTx => Sys2Proof.Machine.execStartFrameTx s
  | .echoDecision => Sys2Proof.Machine.execEchoDecision s
  | .modeChange => Sys2Proof.Machine.execModeChange s
  | .guardStrobe err => Sys2Proof.Machine.execGuardStrobe err s
  | .guardCut ch => Sys2Proof.Machine.execGuardCut ch s
  | .lineActivity ch zeros => Sys2Proof.Machine.execLineActivity ch zeros s
  | .ghcBufsel v => Sys2Proof.Machine.execGhcBufsel v s
  | .ghcCntclrGhc => Sys2Proof.Machine.execGhcCntclrGhc s
  | .ghcCntclrGrd => Sys2Proof.Machine.execGhcCntclrGrd s
  | .ghcPrecClr => Sys2Proof.Machine.execGhcPrecClr s
  | .tmbCapture p => Sys2Proof.Machine.execTmbCapture p s
  | .timeFrameRx b => Sys2Proof.Machine.execTimeFrameRx b s
  | .ptpMeasurement n => Sys2Proof.Machine.execPtpMeasurement n s
  | .tmbAdjWrite v => Sys2Proof.Machine.execTmbAdjWrite v s
  | .slewEnd => Sys2Proof.Machine.execSlewEnd s
  | .sourceChange => Sys2Proof.Machine.execSourceChange s
  | .timeFrameSend => Sys2Proof.Machine.execTimeFrameSend s
  | .rtcWrite => Sys2Proof.Machine.execRtcWrite s
  | .leapFlagClear => Sys2Proof.Machine.execLeapFlagClear s
  | .launch h => Sys2Proof.Machine.execLaunch h s
  | .tmbCntClr => Sys2Proof.Machine.execTmbCntClr s
  | .ethFrameRx n f v => Sys2Proof.Machine.execEthFrameRx n f v s
  | .ptpMessageTx n msg v => Sys2Proof.Machine.execPtpMessageTx n msg v s
  | .ethTxItem q => Sys2Proof.Machine.execEthTxItem q s
  | .ethFrameStart n => Sys2Proof.Machine.execEthFrameStart n s
  | .pdTake t => Sys2Proof.Machine.execPdTake t s
  | .ethLinkChange n up => Sys2Proof.Machine.execEthLinkChange n up s
  | .ethCntclr => Sys2Proof.Machine.execEthCntclr s
  | .ixsProducerItem c => Sys2Proof.Machine.execIxsProducerItem c s
  | .ixsMessageRx q => Sys2Proof.Machine.execIxsMessageRx q s
  | .ixsAck v => Sys2Proof.Machine.execIxsAck v s
  | .ixsErrWindow c => Sys2Proof.Machine.execIxsErrWindow c s
  | .ixsCntclr => Sys2Proof.Machine.execIxsCntclr s
  | .canFrameRx n f => Sys2Proof.Machine.execCanFrameRx n f s
  | .canTxreq n v => Sys2Proof.Machine.execCanTxreq n v s
  | .canTxcan n v => Sys2Proof.Machine.execCanTxcan n v s
  | .canFlush n => Sys2Proof.Machine.execCanFlush n s
  | .canRecover n => Sys2Proof.Machine.execCanRecover n s
  | .canModeWrite n v => Sys2Proof.Machine.execCanModeWrite n v s
  | .canSupplyItem n b => Sys2Proof.Machine.execCanSupplyItem n b s
  | .canRxqRelease who n m v => Sys2Proof.Machine.execCanRxqRelease who n m v s
  | .canArbitration n won tdcv => Sys2Proof.Machine.execCanArbitration n won tdcv s
  | .canTxComplete n => Sys2Proof.Machine.execCanTxComplete n s
  | .canError n kind tx add => Sys2Proof.Machine.execCanError n kind tx add s
  | .canBusoffEnd n => Sys2Proof.Machine.execCanBusoffEnd n s
  | .filterLineRestore n line => Sys2Proof.Machine.execFilterLineRestore n line s
  | .canCntClr n => Sys2Proof.Machine.execCanCntClr n s
  | .rackRead p addr size d => Sys2Proof.Machine.execRackRead p addr size d s
  | .rackWrite p addr size v len => Sys2Proof.Machine.execRackWrite p addr size v len s
  | .rackAmo p addr dbl op v d => Sys2Proof.Machine.execRackAmo p addr dbl op v d s
  | .lrW p addr dbl d => Sys2Proof.Machine.execLrW p addr dbl d s
  | .scW p addr dbl v d => Sys2Proof.Machine.execScW p addr dbl v d s
  | .rackGrant reqs => Sys2Proof.Machine.execRackGrant reqs s
  | .rackAck dtack berr data slow lock => Sys2Proof.Machine.execRackAck dtack berr data slow lock s
  | .lrbTimeout => Sys2Proof.Machine.execLrbTimeout s
  | .rackInbound c tchk => Sys2Proof.Machine.execRackInbound c tchk s
  | .boardCycleTimeout => Sys2Proof.Machine.execBoardCycleTimeout s
  | .lrbLockHog => Sys2Proof.Machine.execLrbLockHog s
  | .prefetchAge p => Sys2Proof.Machine.execPrefetchAge p s
  | .rackReadList e => Sys2Proof.Machine.execRackReadList e s
  | .rackWriteList k => Sys2Proof.Machine.execRackWriteList k s
  | .lrbCntclr => Sys2Proof.Machine.execLrbCntclr s
  | .diSample n mv10 => Sys2Proof.Machine.execDiSample n mv10 s
  | .yState n v brk => Sys2Proof.Machine.execYState n v brk s
  | .discrepancy n => Sys2Proof.Machine.execDiscrepancy n s
  | .yLost selfTest => Sys2Proof.Machine.execYLost selfTest s
  | .testPulse k => Sys2Proof.Machine.execTestPulse k s
  | .testPulseEnd k fell rose y => Sys2Proof.Machine.execTestPulseEnd k fell rose y s
  | .tpOvercurrent k => Sys2Proof.Machine.execTpOvercurrent k s
  | .doOvercurrent m => Sys2Proof.Machine.execDoOvercurrent m s
  | .doReadbackFault m rb => Sys2Proof.Machine.execDoReadbackFault m rb s
  | .doRetry m => Sys2Proof.Machine.execDoRetry m s
  | .outputTest m => Sys2Proof.Machine.execOutputTest m s
  | .outputTestEnd m rb => Sys2Proof.Machine.execOutputTestEnd m rb s
  | .fltClr m => Sys2Proof.Machine.execFltClr m s
  | .fsLow mv10 => Sys2Proof.Machine.execFsLow mv10 s
  | .fsRestored mv10 => Sys2Proof.Machine.execFsRestored mv10 s
  | .sioFsBudget ma => Sys2Proof.Machine.execSioFsBudget ma s
  | .sioCntclr => Sys2Proof.Machine.execSioCntclr s
  | .describe r => Sys2Proof.Machine.execDescribe r s
  | .getState r => Sys2Proof.Machine.execGetState r s
  | .setMode r => Sys2Proof.Machine.execSetMode r s
  | .restart r => Sys2Proof.Machine.execRestart r s
  | .configBegin r => Sys2Proof.Machine.execConfigBegin r s
  | .configWrite r => Sys2Proof.Machine.execConfigWrite r s
  | .configSeal r => Sys2Proof.Machine.execConfigSeal r s
  | .loadBegin r => Sys2Proof.Machine.execLoadBegin r s
  | .loadBlock r => Sys2Proof.Machine.execLoadBlock r s
  | .loadVerify r => Sys2Proof.Machine.execLoadVerify r s
  | .activate r => Sys2Proof.Machine.execActivate r s
  | .forceSet r => Sys2Proof.Machine.execForceSet r s
  | .forceClear r => Sys2Proof.Machine.execForceClear r s
  | .forceList r => Sys2Proof.Machine.execForceList r s
  | .readVar r => Sys2Proof.Machine.execReadVar r s
  | .writeVar r => Sys2Proof.Machine.execWriteVar r s
  | .recRead r => Sys2Proof.Machine.execRecRead r s
  | .recMark r => Sys2Proof.Machine.execRecMark r s
  | .recConfigSetRate r => Sys2Proof.Machine.execRecConfigSetRate r s
  | .recConfigSetSnapshot r => Sys2Proof.Machine.execRecConfigSetSnapshot r s
  | .recConfigRestore r => Sys2Proof.Machine.execRecConfigRestore r s
  | .recConfigReadCatalogue r => Sys2Proof.Machine.execRecConfigReadCatalogue r s
  | .recConfigReadSettings r => Sys2Proof.Machine.execRecConfigReadSettings r s
  | .timeGet r => Sys2Proof.Machine.execTimeGet r s
  | .timeSet r => Sys2Proof.Machine.execTimeSet r s
  | .netModeReq r => Sys2Proof.Machine.execNetModeReq r s
  | .leaseStatus r => Sys2Proof.Machine.execLeaseStatus r s
  | .leaseRelease r => Sys2Proof.Machine.execLeaseRelease r s
  | .reintegrate r => Sys2Proof.Machine.execReintegrate r s
  | .selftest r fails => Sys2Proof.Machine.execSelftest r fails s
  | .powerBudget r => Sys2Proof.Machine.execPowerBudget r s
  | .midnight r => Sys2Proof.Machine.execMidnight r s
  | .serviceEnter r => Sys2Proof.Machine.execServiceEnter r s
  | .serviceExit r => Sys2Proof.Machine.execServiceExit r s
  | .halt r => Sys2Proof.Machine.execHalt r s
  | .stepPair r x => Sys2Proof.Machine.execStepPair r x s
  | .resume r => Sys2Proof.Machine.execResume r s
  | .peek r trail => Sys2Proof.Machine.execPeek r trail s
  | .poke r => Sys2Proof.Machine.execPoke r s
  | .trigger r => Sys2Proof.Machine.execTrigger r s
  | .bootUpdate r => Sys2Proof.Machine.execBootUpdate r s
  | .longOpComplete => Sys2Proof.Machine.execLongOpComplete s
  | .scpFetch full => Sys2Proof.Machine.execScpFetch full s
  | .supMbsubmit part n v => Sys2Proof.Machine.execSupMbsubmit part n v s
  | .sessionTimeout load => Sys2Proof.Machine.execSessionTimeout load s
  | .authLockoutEnd ip => Sys2Proof.Machine.execAuthLockoutEnd ip s
  | .svcDetChange level => Sys2Proof.Machine.execSvcDetChange level s
  | .clockCheck ppm => Sys2Proof.Machine.execClockCheck ppm s
  | .pllLockLost clock => Sys2Proof.Machine.execPllLockLost clock s
  | .supSelfcheckFail => Sys2Proof.Machine.execSupSelfcheckFail s
  | .rstNAssert => Sys2Proof.Machine.execRstNAssert s
  | .rstNRelease => Sys2Proof.Machine.execRstNRelease s
  | .powerGood => Sys2Proof.Machine.execPowerGood s
  | .dawnEnd bootFails tests damaged => Sys2Proof.Machine.execDawnEnd bootFails tests damaged s
  | .mateOpen => Sys2Proof.Machine.execMateOpen s
  | .holdupEnter => Sys2Proof.Machine.execHoldupEnter s
  | .supplyDip => Sys2Proof.Machine.execSupplyDip s
  | .supplyFail mv => Sys2Proof.Machine.execSupplyFail mv s
  | .powerGoodWithdraw => Sys2Proof.Machine.execPowerGoodWithdraw s
  | .midnightWake src => Sys2Proof.Machine.execMidnightWake src s
  | .budgetCheck avg => Sys2Proof.Machine.execBudgetCheck avg s
  | .nightCapLow vcap => Sys2Proof.Machine.execNightCapLow vcap s
  | .counterCopy => Sys2Proof.Machine.execCounterCopy s
  | .optimeRead => Sys2Proof.Machine.execOptimeRead s
  | .pwrArbcntClr => Sys2Proof.Machine.execPwrArbcntClr s
  | .recordEvent => Sys2Proof.Machine.execRecordEvent s
  | .recRingWrite => Sys2Proof.Machine.execRecRingWrite s
  | .tokenRefill c => Sys2Proof.Machine.execTokenRefill c s
  | .recCntClr => Sys2Proof.Machine.execRecCntClr s
  | .absentUnitAccess who addr store => Sys2Proof.Machine.execAbsentUnitAccess who addr store s
  | .registerWrite who off v => Sys2Proof.Machine.execRegisterWrite who off v s
  | .pairInstruction p x f => Sys2Proof.Machine.execPairInstruction p x f s
  | .cmpTestDue u => Sys2Proof.Machine.execCmpTestDue u s
  | .cmpSelftestEnd u fail => Sys2Proof.Machine.execCmpSelftestEnd u fail s
  | .linkExcludeEnd => Sys2Proof.Machine.execLinkExcludeEnd s
  | .semaphoreExpiry => Sys2Proof.Machine.execSemaphoreExpiry s
  | .supervisorMismatch => Sys2Proof.Machine.execSupervisorMismatch s
  | .posChanged pos => Sys2Proof.Machine.execPosChanged pos s
  | .nightValidClear => Sys2Proof.Machine.execNightValidClear s
  | .badRequestFrame kind opc r => Sys2Proof.Machine.execBadRequestFrame kind opc r s

end Sys2Proof.Machine
end

