-- ==== Sys2Proof/Machine/Step.lean ====
section
/-!
DEFINITION. A step: the command at the front of the queue is carried out with the queue's rest; on an empty queue one microtick passes
(DESIGN CHOICE, log 2).
-/
namespace Sys2Proof.Machine

/-- The passing of one microtick with no command waiting. -/
def idle (s : State) : State := s.advance (s.clk.t + 1)

/-- One step of the block. -/
def step (s : State) : Host.Outcome State Fault Refusal :=
  match s.pending with
  | [] => .next (idle s)
  | c :: r => exec c { s with pending := r }

/-- `s` with the command that a word spells put at the front of its queue; the opcode table gives no row any bits, so no word spells one. -/
def State.withFetchWord (s : State) (nbits w : Nat) : State :=
  match decodeTableWord nbits w with
  | some c => { s with pending := c :: s.pending }
  | none => s

end Sys2Proof.Machine
end

