-- ==== Sys2Proof/Safety.lean ====
section
/-!
DEFINITION. What counts as a safe run, in the terms the statements use: a step that answers a next state, the canonical forms that every
step keeps, and what is reached from a state.
-/
namespace Sys2Proof.Machine

/-- The step answers a next state. -/
def Runs (s : State) : Prop := ∃ t, step s = .next t

/-- Memory and the register store hold their canonical forms. -/
def State.Canonical (s : State) : Prop := Memory.wf s.mem ∧ twf regReset s.regs = true

/-- A state reached from another by steps that all answer next states. -/
inductive Reaches (s : State) : State → Prop where
  | here : Reaches s s
  | more {t u : State} (h : Reaches s t) (hu : step t = .next u) : Reaches s u

end Sys2Proof.Machine
end

