-- ==== Sys2Proof/Certificates/Slice0/Obligations.lean ====
section
/-!
DEFINITION. The statements for the provers, and the terms they are written in. A statement about several families of commands is the
conjunction of parts, each a proposition of its own under Sys2Proof.Claims.
-/

/-! ### Terms of the statements -/

namespace Sys2Proof.Claims
open Sys2Proof Sys2Proof.Machine

/-- Every register but those named holds its value. -/
def RegsBut (s t : State) (l : List Nat) : Prop := ∀ q, q ∉ l → t.reg q = s.reg q

/-- Every byte of memory outside `n` bytes at `a` reads as before. -/
def MemBut (s t : State) (a n : Nat) : Prop := ∀ b, b < a ∨ a + n ≤ b → t.rd8 b = s.rd8 b

/-- Every byte of memory reads as before. -/
def MemSame (s t : State) : Prop := ∀ b, t.rd8 b = s.rd8 b

/-- Every pair but one holds its state. -/
def PairsBut (s t : State) (p : Nat) : Prop := ∀ q, q ≠ p → t.pair q = s.pair q

/-- Every engine but one holds its state. -/
def EnginesBut (s t : State) (e : Nat) : Prop := ∀ k, k ≠ e → t.eng k = s.eng k

end Sys2Proof.Claims

open Sys2Proof Sys2Proof.Machine Sys2Proof.Claims

/-! ### The logic engines (chapter 6) -/

namespace Sys2Proof.Claims
open Sys2Proof Sys2Proof.Machine

/-- Engine `e` scans and issues, before its budget end, the instruction of an opcode and operand from the word at its pc (R185). -/
def LeIssues (s : State) (e opc : Nat) (o : Opnd) : Prop :=
  s.scanning e = true ∧ s.issueAt e < s.budgetAt (4 + e) ∧
  s.poisoned (leBankAddr e (s.get (F.LE_BANK_ACTIVE e)) + 4 * (s.eng e).pc) = false ∧
  s.rdLe (leBankAddr e (s.get (F.LE_BANK_ACTIVE e)) + 4 * (s.eng e).pc) 4 = (leWord opc o).toNat

/-- The state at the issue of the engine's next instruction. -/
def leNow (s : State) (e : Nat) : State := s.advance (s.issueAt e)

/-- Bytes of a space are reached: inside it, aligned, of Q written to inside the output region, and free of uncorrectable errors. -/
def LeReach (s : State) (e : Nat) (o : Opnd) (a n align : Nat) (write : Bool) : Prop :=
  s.leInside e o.sp a n align write = true ∧ s.leBad e o.sp a n = false

/-- A bit operand of space B reads as `b` (R175, R176). -/
def LeBitIs (s : State) (e : Nat) (o : Opnd) (b : Bool) : Prop :=
  (o.sp = 3 ∧ b = o.opnd.getLsbD 0) ∨
  (o.sp ≠ 3 ∧ LeReach s e o (s.leEa e o / 8) 1 1 false ∧
    b = ((s.leRead e o.sp (s.leEa e o / 8) 1).headD 0).getLsbD (s.leEa e o % 8))

/-- A word operand of space W reads as `w` (R175, R176). -/
def LeWordIs (s : State) (e : Nat) (o : Opnd) (w : Word) : Prop :=
  (o.sp = 3 ∧ w = o.opnd.signExtend 32) ∨
  (o.sp ≠ 3 ∧ LeReach s e o (s.leEa e o) 4 4 false ∧ w = BitVec.ofNat 32 (leNat (s.leRead e o.sp (s.leEa e o) 4)))

/-- The engine's state but for the record of what its memories held before the writes of the running engine cycle (R171). -/
def EngineIs (t : State) (e : Nat) (g : Engine) : Prop := t.eng e = { g with wrCyc := (t.eng e).wrCyc, wrOld := (t.eng e).wrOld }

/-- The engine has executed an instruction of a cost: it stands at word `pc` with LA `la` and, beside its pc and its cost, the
state `g`; the other engine, every register but LE_STAT, and everything that is neither a register nor an engine are as in `s`. -/
def LeAt (s t : State) (e cost pc : Nat) (la : Bool) (g : Engine) : Prop :=
  t.la e = la ∧ t.eng e = { g with pc := pc, cost := (s.eng e).cost + cost } ∧ EnginesBut s t e ∧
  RegsBut s t [(F.LE_STAT_LA e).off] ∧ t.get (F.LE_STAT_STATE e) = s.get (F.LE_STAT_STATE e) ∧
  t = { s with regs := t.regs, engines := t.engines }

/-- The same, at the following word. -/
def LeNext (s t : State) (e cost : Nat) (la : Bool) (g : Engine) : Prop := LeAt s t e cost ((s.eng e).pc + 1) la g

/-- A bit instruction of opcode `opc` gives LA the value `f LA b` and changes nothing else but the pc and the cost. -/
def LeBitStep (c : Fin 2 → Opnd → Instr) (opc : Nat) (f : Bool → Bool → Bool) : Prop :=
  ∀ (e : Fin 2) (o : Opnd) (s : State) (b : Bool), LeIssues s e opc o → LeBitIs (leNow s e) e o b →
    ∃ t, exec (c e o) s = .next t ∧
      LeNext (leNow s e) t e (1 + b2n o.indexed) (f ((leNow s e).la e) b) ((leNow s e).eng e)

/-- A bracket instruction saves LA and its operator on the branch stack and gives LA the bit operand; at 16 entries it traps (R179). -/
def LeOpenStep (c : Fin 2 → Opnd → Instr) (opc : Nat) (op : BrOp) : Prop :=
  ∀ (e : Fin 2) (o : Opnd) (s : State) (b : Bool), LeIssues s e opc o → LeBitIs (leNow s e) e o b →
    (((leNow s e).eng e).bs.length < 16 → ∃ t, exec (c e o) s = .next t ∧
      LeNext (leNow s e) t e (1 + b2n o.indexed) b
        { (leNow s e).eng e with bs := ((leNow s e).la e, op) :: ((leNow s e).eng e).bs }) ∧
    (16 ≤ ((leNow s e).eng e).bs.length → exec (c e o) s = .next ((leNow s e).leTrap e 2 ((leNow s e).leEa e o)))

/-- A word instruction that changes WA and the flags as `f` says: `f s w` is the state before the pc moves on. -/
def LeWaStep (c : Fin 2 → Opnd → Instr) (opc cost : Nat) (f : Word → Word → Word) : Prop :=
  ∀ (e : Fin 2) (o : Opnd) (s : State) (w : Word), LeIssues s e opc o → LeWordIs (leNow s e) e o w →
    ∃ t, exec (c e o) s = .next t ∧
      LeNext (leNow s e) t e (cost + b2n o.indexed) ((leNow s e).la e)
        { (leNow s e).eng e with wa := f ((leNow s e).wa e) w }

/-- A word instruction that changes LA only. -/
def LeCmpStep (c : Fin 2 → Opnd → Instr) (opc : Nat) (f : Int → Int → Bool) : Prop :=
  ∀ (e : Fin 2) (o : Opnd) (s : State) (w : Word), LeIssues s e opc o → LeWordIs (leNow s e) e o w →
    ∃ t, exec (c e o) s = .next t ∧
      LeNext (leNow s e) t e (1 + b2n o.indexed) (f ((leNow s e).wa e).toInt w.toInt) ((leNow s e).eng e)

/-- The result of exact arithmetic held to 32 bits, and whether that changed it. -/
def heldTo32 (i : Int) : Int × Bool :=
  if 0x7FFFFFFF < i then (0x7FFFFFFF, true) else if i < -0x80000000 then (-0x80000000, true) else (i, false)

/-- An arithmetic instruction: WA takes `r` as a number, and one flag is set where `set` says so; its change from 0 to 1 raises the
FLAG source of the engine; pc, cost and LA as for every instruction (R181). -/
def LeArith (s t : State) (e cost : Nat) (r : Int) (fl : Field) (set : Bool) : Prop :=
  (t.wa e).toInt = r ∧ (t.eng e).pc = (s.eng e).pc + 1 ∧ (t.eng e).cost = (s.eng e).cost + cost ∧ t.la e = s.la e ∧
  EnginesBut s t e ∧ MemSame s t ∧ t.pairs = s.pairs ∧ t.queues = s.queues ∧ t.clk = s.clk ∧
  (∀ f, f = F.LE_FLAGS_SAT e ∨ f = F.LE_FLAGS_DIVZ e → f ≠ fl → t.get f = s.get f) ∧
  (set = false → RegsBut s t [(F.LE_STAT_LA e).off] ∧ t.vdx = s.vdx) ∧
  (set = true → RegsBut s t [(F.LE_STAT_LA e).off, fl.off, (F.LE_EVT_EVT e).off, (F.VDX_SRCSTAT_LINE (197 + 8 * e)).off,
      (F.VDX_SRCSTAMP_W (197 + 8 * e) 0).off, (F.VDX_SRCSTAMP_W (197 + 8 * e) 1).off] ∧ t.flag fl = true ∧ (s.flag fl = true → t.vdx = s.vdx) ∧
    (s.flag fl = false → (197 + 8 * e, s.fab) ∈ t.vdx.pulses ∧ t.flag (F.VDX_SRCSTAT_LINE (197 + 8 * e)) = true))

/-- An arithmetic word instruction with the exact result `f` of WA and the operand; saturates with SAT. -/
def LeArithStep (c : Fin 2 → Opnd → Instr) (opc cost : Nat) (f : Int → Int → Int) : Prop :=
  ∀ (e : Fin 2) (o : Opnd) (s : State) (w : Word), LeIssues s e opc o → LeWordIs (leNow s e) e o w → s.engineFitted e = true →
    ∃ t, exec (c e o) s = .next t ∧
      LeArith (leNow s e) t e (cost + b2n o.indexed) (heldTo32 (f ((leNow s e).wa e).toInt w.toInt)).1
        (F.LE_FLAGS_SAT e) (heldTo32 (f ((leNow s e).wa e).toInt w.toInt)).2

/-- What an instruction of space D leaves: the pc and the cost move on, LA stays; a byte of M takes its value in memory and no other
byte of memory changes; a byte of Q takes it in the scan shadow, and no byte of memory changes (R173). -/
def LeStored (s t : State) (e cost sp a : Nat) (l : List Byte) : Prop :=
  t.la e = s.la e ∧ (t.eng e).pc = (s.eng e).pc + 1 ∧ (t.eng e).cost = (s.eng e).cost + cost ∧
  (t.eng e).wa = (s.eng e).wa ∧ (t.eng e).xr = (s.eng e).xr ∧ (t.eng e).bs = (s.eng e).bs ∧ (t.eng e).cs = (s.eng e).cs ∧
  t.leRead e sp a l.length = l ∧ EnginesBut s t e ∧ RegsBut s t [(F.LE_STAT_LA e).off] ∧
  (sp = 1 → t.mem = s.mem) ∧ (sp = 2 → MemBut s t (leAddr e 2 a) l.length ∧ (t.eng e).shadow = (s.eng e).shadow) ∧
  t = { s with regs := t.regs, engines := t.engines, mem := t.mem }

/-- The byte with one bit replaced. -/
def withBit (b : Byte) (i : Nat) (v : Bool) : Byte :=
  if v then b ||| BitVec.ofNat 8 (2 ^ i) else b &&& ~~~ BitVec.ofNat 8 (2 ^ i)

/-- A bit store: the operand bit takes `f LA` where it names a value, else keeps its own. -/
def LePutBitStep (c : Fin 2 → Opnd → Instr) (opc : Nat) (f : Bool → Option Bool) : Prop :=
  ∀ (e : Fin 2) (o : Opnd) (s : State), LeIssues s e opc o → (o.sp = 1 ∨ o.sp = 2) →
    LeReach (leNow s e) e o ((leNow s e).leEa e o / 8) 1 1 true →
    ∃ t, exec (c e o) s = .next t ∧
      LeStored (leNow s e) t e (1 + b2n o.indexed) o.sp ((leNow s e).leEa e o / 8)
        [match f ((leNow s e).la e) with
         | some v => withBit (((leNow s e).leRead e o.sp ((leNow s e).leEa e o / 8) 1).headD 0) ((leNow s e).leEa e o % 8) v
         | none => ((leNow s e).leRead e o.sp ((leNow s e).leEa e o / 8) 1).headD 0]

/-- An edge instruction: LA and the edge bit in, the new LA by `f`, the edge bit takes the old LA (R178). -/
def LeEdgeStep (c : Fin 2 → Opnd → Instr) (opc : Nat) (f : Bool → Bool → Bool) : Prop :=
  ∀ (e : Fin 2) (o : Opnd) (s : State), LeIssues s e opc o → o.sp = 2 →
    LeReach (leNow s e) e o ((leNow s e).leEa e o / 8) 1 1 true →
    ∃ t old, exec (c e o) s = .next t ∧ old = ((leNow s e).leRead e 2 ((leNow s e).leEa e o / 8) 1).headD 0 ∧
      t.la e = f ((leNow s e).la e) (old.getLsbD ((leNow s e).leEa e o % 8)) ∧
      t.leRead e 2 ((leNow s e).leEa e o / 8) 1 = [withBit old ((leNow s e).leEa e o % 8) ((leNow s e).la e)] ∧
      EngineIs t e { (leNow s e).eng e with pc := ((leNow s e).eng e).pc + 1, cost := ((leNow s e).eng e).cost + 2 + b2n o.indexed } ∧
      MemBut (leNow s e) t (leAddr e 2 ((leNow s e).leEa e o / 8)) 1 ∧ RegsBut (leNow s e) t [(F.LE_STAT_LA e).off] ∧
      t = { leNow s e with regs := t.regs, engines := t.engines, mem := t.mem }

/-- A timer instruction of type `typ`: the rows of R182 on the timer's entry; LA takes Q. -/
def LeTimerStep (c : Fin 2 → Opnd → Instr) (opc typ : Nat) : Prop :=
  ∀ (e : Fin 2) (o : Opnd) (s : State), LeIssues s e opc o → o.opnd.toNat < 4096 → o.indexed = false →
    (leNow s e).poisoned (leTimerAddr e o.opnd.toNat) = false →
    (((leNow s e).wa e).toNat ≤ 0x00FFFFFF → ∃ t, exec (c e o) s = .next t ∧
      t.leTimer (leTimerAddr e o.opnd.toNat) =
        ((leNow s e).leTimer (leTimerAddr e o.opnd.toNat)).exec typ
          (leBaseUt ((leNow s e).rdLe (leTimerAddr e o.opnd.toNat) 4 / 4 % 4)) (leNow s e).frc ((leNow s e).la e) ((leNow s e).wa e).toNat ∧
      t.la e = (t.leTimer (leTimerAddr e o.opnd.toNat)).q ∧
      EngineIs t e { (leNow s e).eng e with pc := ((leNow s e).eng e).pc + 1, cost := ((leNow s e).eng e).cost + 2 } ∧
      t.rdLe (leTimerAddr e o.opnd.toNat) 4 % 16 = (leNow s e).rdLe (leTimerAddr e o.opnd.toNat) 4 % 16 ∧
      MemBut (leNow s e) t (leTimerAddr e o.opnd.toNat) 16 ∧ RegsBut (leNow s e) t [(F.LE_STAT_LA e).off] ∧
      t = { leNow s e with regs := t.regs, engines := t.engines, mem := t.mem }) ∧
    (0x00FFFFFF < ((leNow s e).wa e).toNat → exec (c e o) s = .next ((leNow s e).leTrap e 7 ((leNow s e).wa e).toNat))

/-- A counting instruction: CV counts by `d` at a rising LA, held to 32 bits, the edge bit takes LA, and LA takes `q CV WA` (R183). -/
def LeCountStep (c : Fin 2 → Opnd → Instr) (opc bit : Nat) (d : Int) (q : Int → Int → Bool) : Prop :=
  ∀ (e : Fin 2) (o : Opnd) (s : State), LeIssues s e opc o → o.sp = 2 → LeReach (leNow s e) e o ((leNow s e).leEa e o) 8 8 false →
    ∃ t a cv old, exec (c e o) s = .next t ∧ a = (leNow s e).leEa e o ∧ old = (leNow s e).engRead e (leAddr e 2 (a + 4)) ∧
      cv = (if (leNow s e).la e && !old.getLsbD bit then (heldTo32 ((leNow s e).leCv e a + d)).1 else (leNow s e).leCv e a) ∧
      t.leCv e a = cv ∧ t.rd8 (leAddr e 2 (a + 4)) = withBit old bit ((leNow s e).la e) ∧ t.la e = q cv ((leNow s e).wa e).toInt ∧
      EngineIs t e { (leNow s e).eng e with pc := ((leNow s e).eng e).pc + 1, cost := ((leNow s e).eng e).cost + 2 + b2n o.indexed } ∧
      MemBut (leNow s e) t (leAddr e 2 a) 5 ∧ RegsBut (leNow s e) t [(F.LE_STAT_LA e).off] ∧
      t = { leNow s e with regs := t.regs, engines := t.engines, mem := t.mem }

end Sys2Proof.Claims

/-- LD, LDN, AND, ANDN, OR, ORN, XOR and XORN give LA its new value from LA and the bit operand and change nothing else; NOT inverts
LA; NOP only moves on (R178). -/
def Sys2Proof.Claims.LeBitOperations : Prop :=
  LeBitStep .leLd 0x01 (fun _ b => b) ∧ LeBitStep .leLdn 0x02 (fun _ b => !b) ∧
  LeBitStep .leAnd 0x07 (fun a b => a && b) ∧ LeBitStep .leAndn 0x08 (fun a b => a && !b) ∧
  LeBitStep .leOr 0x09 (fun a b => a || b) ∧ LeBitStep .leOrn 0x0A (fun a b => a || !b) ∧
  LeBitStep .leXor 0x0B (fun a b => xor a b) ∧ LeBitStep .leXorn 0x0C (fun a b => xor a (!b)) ∧
  (∀ (e : Fin 2) (s : State), LeIssues s e 0x0D Opnd.zero → ∃ t, exec (.leNot e) s = .next t ∧
    LeNext (leNow s e) t e 1 (!(leNow s e).la e) ((leNow s e).eng e)) ∧
  (∀ (e : Fin 2) (s : State), LeIssues s e 0x00 Opnd.zero → ∃ t, exec (.leNop e) s = .next t ∧
    LeNext (leNow s e) t e 1 ((leNow s e).la e) ((leNow s e).eng e))

/-- ST and STN store LA and its inverse; S and R store 1 and 0 where LA is 1 and leave the bit where it is 0 (R178, R173). -/
def Sys2Proof.Claims.LeBitStores : Prop :=
  LePutBitStep .leSt 0x03 (fun a => some a) ∧ LePutBitStep .leStn 0x04 (fun a => some (!a)) ∧
  LePutBitStep .leS 0x05 (fun a => if a then some true else none) ∧ LePutBitStep .leR 0x06 (fun a => if a then some false else none)

/-- The six bracket instructions push LA and their operator and load the operand into LA, trapping at 16 entries; the closing bracket
pops an entry and joins the saved LA with LA by its operator, ANDN, ORN and XORN applied to the inverse of LA, and traps on an empty
stack (R179). -/
def Sys2Proof.Claims.LeBrackets : Prop :=
  LeOpenStep .leAndBr 0x0E .and ∧ LeOpenStep .leAndnBr 0x0F .andn ∧ LeOpenStep .leOrBr 0x10 .or ∧
  LeOpenStep .leOrnBr 0x11 .orn ∧ LeOpenStep .leXorBr 0x12 .xor ∧ LeOpenStep .leXornBr 0x13 .xorn ∧
  (∀ (e : Fin 2) (s : State) (v : Bool) (op : BrOp) (r : List (Bool × BrOp)), LeIssues s e 0x14 Opnd.zero →
    ((leNow s e).eng e).bs = (v, op) :: r → ∃ t, exec (.leClose e) s = .next t ∧
      LeNext (leNow s e) t e 1
        (match op with
         | .and => v && (leNow s e).la e
         | .andn => v && !(leNow s e).la e
         | .or => v || (leNow s e).la e
         | .orn => v || !(leNow s e).la e
         | .xor => xor v ((leNow s e).la e)
         | .xorn => xor v (!(leNow s e).la e))
        { (leNow s e).eng e with bs := r }) ∧
  (∀ (e : Fin 2) (s : State), LeIssues s e 0x14 Opnd.zero → ((leNow s e).eng e).bs = [] →
    exec (.leClose e) s = .next ((leNow s e).leTrap e 3 0))

/-- EP is 1 for the one scan in which LA has risen against the edge bit, EN in which it has fallen; the edge bit takes LA (R178). -/
def Sys2Proof.Claims.LeEdges : Prop :=
  LeEdgeStep .leEp 0x15 (fun v b => v && !b) ∧ LeEdgeStep .leEn 0x16 (fun v b => !v && b)

/-- TON, TOF and TP carry out the rows of R182 on the timer's entry, whose declaration stays; a PT outside 24 bits traps; TRD loads
the elapsed time into WA. -/
def Sys2Proof.Claims.LeTimers : Prop :=
  LeTimerStep .leTon 0x17 1 ∧ LeTimerStep .leTof 0x18 2 ∧ LeTimerStep .leTp 0x19 3 ∧
  (∀ (e : Fin 2) (o : Opnd) (s : State), LeIssues s e 0x1A o → o.opnd.toNat < 4096 → o.indexed = false →
    (leNow s e).poisoned (leTimerAddr e o.opnd.toNat) = false → ∃ t, exec (.leTrd e o) s = .next t ∧
      LeNext (leNow s e) t e 2 ((leNow s e).la e)
        { (leNow s e).eng e with wa := BitVec.ofNat 32 ((leNow s e).leEt (leTimerAddr e o.opnd.toNat)) })

/-- CTU counts up and CTD down at a rising LA, held to 32 bits, with bit 0 and bit 1 of byte 4 as their edge memories, and LA takes
CV ≥ WA and CV ≤ 0; CTLD loads CV from WA where LA is 1; CTRD loads WA from CV (R183). -/
def Sys2Proof.Claims.LeCounters : Prop :=
  LeCountStep .leCtu 0x1B 0 1 (fun cv w => decide (w ≤ cv)) ∧ LeCountStep .leCtd 0x1C 1 (-1) (fun cv _ => decide (cv ≤ 0)) ∧
  (∀ (e : Fin 2) (o : Opnd) (s : State), LeIssues s e 0x1D o → o.sp = 2 → LeReach (leNow s e) e o ((leNow s e).leEa e o) 8 8 false →
    ∃ t, exec (.leCtld e o) s = .next t ∧
      t.leCv e ((leNow s e).leEa e o) =
        (if (leNow s e).la e then ((leNow s e).wa e).toInt else (leNow s e).leCv e ((leNow s e).leEa e o)) ∧
      MemBut (leNow s e) t (leAddr e 2 ((leNow s e).leEa e o)) 4 ∧ ((leNow s e).la e = false → t.mem = (leNow s e).mem) ∧
      t.la e = (leNow s e).la e ∧ RegsBut (leNow s e) t [(F.LE_STAT_LA e).off] ∧
      EngineIs t e { (leNow s e).eng e with pc := ((leNow s e).eng e).pc + 1, cost := ((leNow s e).eng e).cost + 2 + b2n o.indexed } ∧
      t = { leNow s e with regs := t.regs, engines := t.engines, mem := t.mem }) ∧
  (∀ (e : Fin 2) (o : Opnd) (s : State), LeIssues s e 0x1E o → o.sp = 2 → LeReach (leNow s e) e o ((leNow s e).leEa e o) 8 8 false →
    ∃ t, exec (.leCtrd e o) s = .next t ∧
      LeNext (leNow s e) t e (1 + b2n o.indexed) ((leNow s e).la e)
        { (leNow s e).eng e with wa := BitVec.ofInt 32 ((leNow s e).leCv e ((leNow s e).leEa e o)) })

/-- ADD, SUB and MUL saturate and set SAT where they do; DIV and MOD by 0 give the values of R181 and set DIVZ; a change of a flag
from 0 to 1 raises the FLAG source, and a flag already set raises nothing. -/
def Sys2Proof.Claims.LeArithmetic : Prop :=
  LeArithStep .leAdd 0x22 1 (fun a b => a + b) ∧ LeArithStep .leSub 0x23 1 (fun a b => a - b) ∧
  LeArithStep .leMul 0x24 2 (fun a b => a * b) ∧
  (∀ (e : Fin 2) (o : Opnd) (s : State) (w : Word), LeIssues s e 0x25 o → LeWordIs (leNow s e) e o w → s.engineFitted e = true →
    ∃ t, exec (.leDiv e o) s = .next t ∧
      (w = 0 → LeArith (leNow s e) t e (18 + b2n o.indexed)
        (if 0 < ((leNow s e).wa e).toInt then 0x7FFFFFFF else if ((leNow s e).wa e).toInt < 0 then -0x80000000 else 0)
        (F.LE_FLAGS_DIVZ e) true) ∧
      (w ≠ 0 → LeArith (leNow s e) t e (18 + b2n o.indexed) (heldTo32 (((leNow s e).wa e).toInt.tdiv w.toInt)).1
        (F.LE_FLAGS_SAT e) (heldTo32 (((leNow s e).wa e).toInt.tdiv w.toInt)).2)) ∧
  (∀ (e : Fin 2) (o : Opnd) (s : State) (w : Word), LeIssues s e 0x26 o → LeWordIs (leNow s e) e o w → s.engineFitted e = true →
    ∃ t, exec (.leMod e o) s = .next t ∧
      LeArith (leNow s e) t e (18 + b2n o.indexed) (if w = 0 then 0 else ((leNow s e).wa e).toInt.tmod w.toInt)
        (F.LE_FLAGS_DIVZ e) (decide (w = 0)))

/-- LDW, ANDW, ORW, XORW, SHL, SHR and ASR give WA its new value, a shift by the operand's low five bits, and LDX gives XR the word;
STW stores WA; none of them changes a flag or LA (R178). -/
def Sys2Proof.Claims.LeWordOperations : Prop :=
  LeWaStep .leLdw 0x20 1 (fun _ w => w) ∧ LeWaStep .leAndw 0x27 1 (fun a w => a &&& w) ∧ LeWaStep .leOrw 0x28 1 (fun a w => a ||| w) ∧
  LeWaStep .leXorw 0x29 1 (fun a w => a ^^^ w) ∧ LeWaStep .leShl 0x2A 1 (fun a w => a <<< (w.toNat % 32)) ∧
  LeWaStep .leShr 0x2B 1 (fun a w => a >>> (w.toNat % 32)) ∧ LeWaStep .leAsr 0x2C 1 (fun a w => a.sshiftRight (w.toNat % 32)) ∧
  (∀ (e : Fin 2) (o : Opnd) (s : State) (w : Word), LeIssues s e 0x33 o → LeWordIs (leNow s e) e o w →
    ∃ t, exec (.leLdx e o) s = .next t ∧
      LeNext (leNow s e) t e (1 + b2n o.indexed) ((leNow s e).la e) { (leNow s e).eng e with xr := w }) ∧
  (∀ (e : Fin 2) (o : Opnd) (s : State), LeIssues s e 0x21 o → (o.sp = 1 ∨ o.sp = 2) →
    LeReach (leNow s e) e o ((leNow s e).leEa e o) 4 4 true → ∃ t, exec (.leStw e o) s = .next t ∧
      LeStored (leNow s e) t e (1 + b2n o.indexed) o.sp ((leNow s e).leEa e o) (leBytes 4 ((leNow s e).wa e).toNat))

/-- The six comparisons give LA the signed comparison of WA with the word operand and change nothing else (R178). -/
def Sys2Proof.Claims.LeCompares : Prop :=
  LeCmpStep .leGtw 0x2D (fun a w => decide (a > w)) ∧ LeCmpStep .leGew 0x2E (fun a w => decide (a ≥ w)) ∧
  LeCmpStep .leEqw 0x2F (fun a w => decide (a = w)) ∧ LeCmpStep .leNew 0x30 (fun a w => decide (a ≠ w)) ∧
  LeCmpStep .leLtw 0x31 (fun a w => decide (a < w)) ∧ LeCmpStep .leLew 0x32 (fun a w => decide (a ≤ w))

/-- JMP goes to the target, JMPC where LA is 1, JMPCN where it is 0; CAL and, where LA is 1, CALC push the following word and go there,
trapping at 8 entries; RET pops, and traps on an empty call stack (R178, R180). -/
def Sys2Proof.Claims.LeJumps : Prop :=
  (∀ (e : Fin 2) (o : Opnd) (s : State), o.indexed = false →
    (LeIssues s e 0x34 o → ∃ t, exec (.leJmp e o) s = .next t ∧
      LeAt (leNow s e) t e 2 o.opnd.toNat ((leNow s e).la e) ((leNow s e).eng e)) ∧
    (LeIssues s e 0x35 o → ∃ t, exec (.leJmpc e o) s = .next t ∧
      LeAt (leNow s e) t e 2 (if (leNow s e).la e then o.opnd.toNat else ((leNow s e).eng e).pc + 1) ((leNow s e).la e)
        ((leNow s e).eng e)) ∧
    (LeIssues s e 0x36 o → ∃ t, exec (.leJmpcn e o) s = .next t ∧
      LeAt (leNow s e) t e 2 (if (leNow s e).la e then ((leNow s e).eng e).pc + 1 else o.opnd.toNat) ((leNow s e).la e)
        ((leNow s e).eng e)) ∧
    (LeIssues s e 0x37 o → ((leNow s e).eng e).cs.length < 8 → ∃ t, exec (.leCal e o) s = .next t ∧
      LeAt (leNow s e) t e 2 o.opnd.toNat ((leNow s e).la e)
        { (leNow s e).eng e with cs := (((leNow s e).eng e).pc + 1) :: ((leNow s e).eng e).cs }) ∧
    (LeIssues s e 0x37 o → 8 ≤ ((leNow s e).eng e).cs.length → exec (.leCal e o) s = .next ((leNow s e).leTrap e 4 o.opnd.toNat)) ∧
    (LeIssues s e 0x38 o → (leNow s e).la e = true → ((leNow s e).eng e).cs.length < 8 → ∃ t, exec (.leCalc e o) s = .next t ∧
      LeAt (leNow s e) t e 2 o.opnd.toNat true
        { (leNow s e).eng e with cs := (((leNow s e).eng e).pc + 1) :: ((leNow s e).eng e).cs }) ∧
    (LeIssues s e 0x38 o → (leNow s e).la e = true → 8 ≤ ((leNow s e).eng e).cs.length →
      exec (.leCalc e o) s = .next ((leNow s e).leTrap e 4 o.opnd.toNat)) ∧
    (LeIssues s e 0x38 o → (leNow s e).la e = false → ∃ t, exec (.leCalc e o) s = .next t ∧
      LeNext (leNow s e) t e 2 false ((leNow s e).eng e))) ∧
  (∀ (e : Fin 2) (s : State), LeIssues s e 0x39 Opnd.zero →
    (∀ a r, ((leNow s e).eng e).cs = a :: r → ∃ t, exec (.leRet e) s = .next t ∧
      LeAt (leNow s e) t e 2 a ((leNow s e).la e) { (leNow s e).eng e with cs := r }) ∧
    (((leNow s e).eng e).cs = [] → exec (.leRet e) s = .next ((leNow s e).leTrap e 5 0)))

/-- END with both stacks empty and its last engine cycle inside the window commits the scan: the output area then reads as the scan
read it, no other engine byte changes, LE_SCAN holds the cost, the engine waits, SCAN_DONE is raised and the task's activation is
complete; with a stack not empty it traps with STACK_OPEN; a scan that would end after the budget end is left to it (R173, R180,
R185, R187). -/
def Sys2Proof.Claims.LeEnd : Prop :=
  ∀ (e : Fin 2) (s : State) (n : Nat) (td : Task) (cost : Nat), LeIssues s e 0x3F Opnd.zero → s.engineFitted e = true →
    n = ((leNow s e).unit (4 + e)).task → n < 1024 → (leNow s e).taskD? n = some td → td.part < 256 →
    cost = ((leNow s e).eng e).cost + 8 + (td.outLen + 15) / 16 →
    ((((leNow s e).eng e).bs ≠ [] ∨ ((leNow s e).eng e).cs ≠ []) → exec (.leEnd e) s = .next ((leNow s e).leTrap e 6 0)) ∧
    (((leNow s e).eng e).bs = [] → ((leNow s e).eng e).cs = [] →
      (leNow s e).budgetAt (4 + e) < ((leNow s e).eng e).start + 2 + 2 * cost → exec (.leEnd e) s = .next s) ∧
    (((leNow s e).eng e).bs = [] → ((leNow s e).eng e).cs = [] →
      ((leNow s e).eng e).start + 2 + 2 * cost ≤ (leNow s e).budgetAt (4 + e) →
      tsorted none ((leNow s e).eng e).shadow = true → (∀ c ∈ ((leNow s e).eng e).shadow, c.1 < 0x8000) →
      ∃ t, exec (.leEnd e) s = .next t ∧ t.clk.t = max (leNow s e).clk.t (((leNow s e).eng e).start + 2 + 2 * cost) ∧
        (∀ a, a < 0x8000 → t.rd8 (leAddr e 1 a) = ((leNow s e).leRead e 1 a 1).headD 0) ∧
        MemBut (leNow s e) t (leAddr e 1 0) 0x8000 ∧
        (t.eng e).shadow = [] ∧ t.get (F.LE_SCAN_W e) = min cost 0xFFFFFFFF ∧ t.get (F.LE_STAT_STATE e) = 0 ∧
        (t.task n).st = .idle ∧ (t.unit (4 + e)).ended = true ∧ (193 + 8 * e.val, t.fab) ∈ t.vdx.pulses ∧ EnginesBut (leNow s e) t e)

/-- A trap stops the scan and commits nothing of it: LE_TRAP, LE_TRAPPC and LE_TRAPWORD name it, its entry and that of the aborted
activation are reported, the TRAP source is raised, the abort is counted, and the output area is as it was (R186). -/
def Sys2Proof.Claims.LeTrapEffects : Prop :=
  ∀ (e : Fin 2) (s : State) (code ea : Nat), s.engineFitted e = true → code ≤ 8 → (s.unit (4 + e)).task < 1024 →
    (∀ td, s.taskD? (s.unit (4 + e)).task = some td → td.part < 256) →
    ∃ t rest, t = s.leTrap e code ea ∧ t.get (F.LE_TRAP_CODE e) = code ∧ t.get (F.LE_TRAP_TASK e) = (s.unit (4 + e)).task ∧
      t.get (F.LE_TRAP_COUNT e) = satAdd 255 (s.get (F.LE_TRAP_COUNT e)) 1 ∧
      t.get (F.LE_TRAPPC_BANK e) = s.get (F.LE_BANK_ACTIVE e) ∧ t.get (F.LE_TRAPPC_WADDR e) = (s.eng e).pc % 2 ^ 18 ∧
      (t.eng e).shadow = [] ∧ t.get (F.LE_STAT_STATE e) = 0 ∧ (t.unit (4 + e)).ended = true ∧
      t.get (F.HX_TASKSTAT1_ABORTS (s.unit (4 + e)).task) = satAdd 65535 (s.get (F.HX_TASKSTAT1_ABORTS (s.unit (4 + e)).task)) 1 ∧
      t.rcd.reported.map (fun r => (r.code, r.src)) = s.rcd.reported.map (fun r => (r.code, r.src)) ++
        [(RCode.LE_TRAP, 0x60 + e.val), (RCode.TASK_ABORT, 0x40)] ++ rest ∧
      (∀ a, a < 0x8000 → t.rd8 (leAddr e 1 a) = s.rd8 (leAddr e 1 a)) ∧ (192 + 8 * e.val, s.fab) ∈ t.vdx.pulses

/-- BANK_READY makes the bank that loads READY with the program's words in it and raises its source; a damaged line of the active bank
is restored from the program store and reads clean; LE_TRAP.COUNT is cleared by its command (R188, R189). -/
def Obligations.LeBanks : Prop :=
  (∀ (e b : Fin 2) (s : State) (o : LongOp) (m : Man), s.engineFitted e = true →
    s.get (leBankF e b) = 1 → (b.val = 1 → s.get (leBankF e 0) ≠ 1) → s.sup.longOp = some o → imgOf (s.setTbl o.arg) 3 e = some m →
    twf byteD (s.setTbl o.arg) = true → imgLe (s.setTbl o.arg) (m.ofs + 0x2C) 4 ≤ 0x40000 →
    ∃ t, exec (.bankReady e) s = .next t ∧ t.get (leBankF e b) = 2 ∧ t.get (F.LE_BANKID_W e b) = m.pid % 2 ^ 32 ∧
      tget natD (t.eng e).words b = imgLe (s.setTbl o.arg) (m.ofs + 0x2C) 4 ∧
      (∀ i, i < 4 * imgLe (s.setTbl o.arg) (m.ofs + 0x2C) 4 →
        t.rd8 (leBankAddr e b + i) = tget byteD (s.setTbl o.arg) (m.ofs + imgLe (s.setTbl o.arg) (m.ofs + 0x30) 4 + i)) ∧
      MemBut s t (leBankAddr e b) 0x100000 ∧ (195 + 8 * e.val, s.fab) ∈ t.vdx.pulses ∧ EnginesBut s t e) ∧
  (∀ (e : Fin 2) (line n : Nat) (s : State) (m : Man) (a src : Nat), s.sup.activeSet = some n → imgOf (s.setTbl n) 3 e = some m →
    a = leBankAddr e (s.get (F.LE_BANK_ACTIVE e)) + line % 16384 * 64 →
    src = m.ofs + imgLe (s.setTbl n) (m.ofs + 0x30) 4 + line % 16384 * 64 →
    s.poisoned a = true → s.hxm.homePoison.contains (storePoison n (src / 64)) = false → twf byteD (s.setTbl n) = true →
    ∃ t, exec (.leLineRestore e line) s = .next t ∧ t.poisoned a = false ∧
      (∀ i, i < 64 → t.rd8 (a + i) = tget byteD (s.setTbl n) (src + i)) ∧ MemBut s t a 64 ∧ t = { s with mem := t.mem, poison := t.poison }) ∧
  (∀ (e : Fin 2) (s : State), s.engineFitted e = true → ∃ t, exec (.leTrapClr e) s = .next t ∧ t.get (F.LE_TRAP_COUNT e) = 0 ∧
    t.get (F.LE_TRAP_CODE e) = s.get (F.LE_TRAP_CODE e) ∧ RegsBut s t [(F.LE_TRAP_COUNT e).off] ∧ t = { s with regs := t.regs })

/-! ### Credit queues (chapter 5) -/

namespace Sys2Proof.Claims
open Sys2Proof Sys2Proof.Machine

/-- The registers of a queue's group that show its pointers, its counts and its events. -/
def qRegs (g : QGeo) : List Nat := [g.LEVEL.off, g.HEAD.off, g.HI_EVT.off, g.DISCARDS.off]

/-- The registers that raising a source of the dispatcher writes. -/
def srcRegs (n : Nat) : List Nat := [(F.VDX_SRCSTAT_LINE n).off, (F.VDX_SRCSTAMP_W n 0).off, (F.VDX_SRCSTAMP_W n 1).off]

/-- The queue of a geometry holds `c`; LEVEL, CREDITS, HEAD and TAIL show it (R154, R155); every other queue is unchanged. -/
def QHolds (s t : State) (g : QGeo) (c : QSt) : Prop :=
  t.queue g.b = c ∧ (∀ b, b ≠ g.b → t.queue b = s.queue b) ∧
  t.get g.LEVEL = qLevel g c % 2 ^ 13 ∧ t.get g.CREDITS = qCredits g c % 2 ^ 13 ∧
  t.get g.HEAD = c.rd % g.depth % 2 ^ 12 ∧ t.get g.TAIL = c.wr % g.depth % 2 ^ 12

/-- The watermark events of a level that goes from `old` to `new` (R157). -/
def QCrosses (s t : State) (g : QGeo) (old new : Nat) : Prop :=
  (old < s.get g.HIGH → s.get g.HIGH ≤ new → t.flag g.HI_EVT = true ∧ t.get g.CROSS_HI = satAdd 255 (s.get g.CROSS_HI) 1 ∧
    (g.hiSrc, s.fab) ∈ t.vdx.pulses) ∧
  (s.get g.LOW < old → new ≤ s.get g.LOW → ¬ (old < s.get g.HIGH ∧ s.get g.HIGH ≤ new) →
    t.flag g.LO_EVT = true ∧ t.get g.CROSS_LO = satAdd 255 (s.get g.CROSS_LO) 1 ∧ (g.hiSrc, s.fab) ∈ t.vdx.pulses) ∧
  (¬ (old < s.get g.HIGH ∧ s.get g.HIGH ≤ new) → ¬ (s.get g.LOW < old ∧ new ≤ s.get g.LOW) →
    t.get g.HI_EVT = s.get g.HI_EVT ∧ t.get g.LO_EVT = s.get g.LO_EVT ∧ t.vdx = s.vdx) ∧
  t.flag g.ABOVE = decide (s.get g.HIGH ≤ new) ∧ t.flag g.BELOW = decide (new ≤ s.get g.LOW)

/-- The pointers after the head item has left. -/
def qPopped (g : QGeo) (c : QSt) : QSt := qSkip g g.depth { c with rd := (c.rd + 1) % (2 * g.depth), unret := c.unret + 1 }
/-- The pointers after an item of an origin stamp has been put into the tail slot. -/
def qPushed (g : QGeo) (c : QSt) (stamp : Nat) : QSt :=
  { c with wr := (c.wr + 1) % (2 * g.depth), unver := if g.soft then c.unver + 1 else c.unver,
           stamps := tput natD c.stamps (c.wr % g.depth) stamp }
/-- The queue is no CAN transmit queue, whose head is judged when it appears (R314). -/
def NotTxq (s : State) (g : QGeo) : Prop := s.txqOf g = none
/-- A local queue belongs to a controller that is fitted. -/
def QFitted (s : State) (q : Nat) : Prop := q < 64 ∨ s.canFitted ((q - 64) / 2) = true

end Sys2Proof.Claims

/-- COMMIT by the producer, with a credit and a payload that fits, puts the item into the tail slot: its header and its check are written and
its payload stays, the write pointer advances, and the watermark rules apply; in the fabric cycle of a pointer-error reset the item is
discarded and counted; any other COMMIT only counts in REFUSED. A new head of a CAN transmit queue is judged (R155, R159, R160, R314). -/
def Sys2Proof.Claims.QueueCommit : Prop :=
  ∀ (who : Nat) (q : Fin 64) (len : Nat) (s : State), s.alive = true →
    (who = (s.qgeo q).prod → qCredits (s.qgeo q) (s.qst (s.qgeo q)) ≠ 0 → len + 8 ≤ (s.qgeo q).esize →
      (s.qResetNow (s.qgeo q) = false → ∃ u, exec (.commit who q ⟨len, none⟩) s = .next (u.qSettle (s.qgeo q)) ∧
        (NotTxq u (s.qgeo q) → u.qSettle (s.qgeo q) = u) ∧
        QHolds s u (s.qgeo q) (qPushed (s.qgeo q) (s.qst (s.qgeo q)) s.stamp) ∧
        QCrosses s u (s.qgeo q) (qLevel (s.qgeo q) (s.qst (s.qgeo q))) (qLevel (s.qgeo q) (qPushed (s.qgeo q) (s.qst (s.qgeo q)) s.stamp)) ∧
        u.rdLe (qSlot (s.qgeo q) (s.qst (s.qgeo q)).wr) 2 = len ∧
        u.rdLe (qSlot (s.qgeo q) (s.qst (s.qgeo q)).wr + 4) 4 =
          crc32c (s.rdBytes (qSlot (s.qgeo q) (s.qst (s.qgeo q)).wr + 8) len) ∧
        MemBut s u (qSlot (s.qgeo q) (s.qst (s.qgeo q)).wr) 8 ∧
        u = { s with regs := u.regs, mem := u.mem, poison := u.poison, pairs := u.pairs, queues := u.queues, vdx := u.vdx }) ∧
      (s.qResetNow (s.qgeo q) = true → ∃ t, exec (.commit who q ⟨len, none⟩) s = .next t ∧
        t.get (s.qgeo q).DISCARDS = satAdd 65535 (s.get (s.qgeo q).DISCARDS) 1 ∧ RegsBut s t [(s.qgeo q).DISCARDS.off] ∧
        t = { s with regs := t.regs })) ∧
    ((who ≠ (s.qgeo q).prod ∨ qCredits (s.qgeo q) (s.qst (s.qgeo q)) = 0 ∨ (s.qgeo q).esize < len + 8) →
      ∃ t, exec (.commit who q ⟨len, none⟩) s = .next t ∧ t.get (s.qgeo q).REFUSED = satAdd 255 (s.get (s.qgeo q).REFUSED) 1 ∧
        RegsBut s t [(s.qgeo q).REFUSED.off] ∧ t = { s with regs := t.regs })

/-- A COMMIT and a RELEASE of one queue in the same fabric cycle both take effect, and no watermark crossing is counted, whatever the level
did between them (R161). -/
def Sys2Proof.Claims.QueueBoth : Prop :=
  ∀ (q : Fin 64) (len : Nat) (g : QGeo) (c : QSt) (s : State), s.alive = true → g = s.qgeo q → c = s.qst g → qCredits g c ≠ 0 →
    len + 8 ≤ g.esize → s.qResetNow g = false → qLevel g c ≠ 0 → NotTxq s g → c.wr < 2 * g.depth → c.rd < 2 * g.depth → c.holes = [] →
    ∃ t, exec (.commit g.prod q ⟨len, some g.cons⟩) s = .next t ∧ t.queue g.b = qPopped g (qPushed g c s.stamp) ∧
      t.get g.CROSS_HI = s.get g.CROSS_HI ∧ t.get g.CROSS_LO = s.get g.CROSS_LO ∧ t.get g.HI_EVT = s.get g.HI_EVT ∧
      t.get g.LO_EVT = s.get g.LO_EVT ∧ t.vdx = s.vdx ∧ t.rdLe (qSlot g c.wr) 2 = len

/-- RELEASE by the consumer frees the head slot, whose credit is on its way back; on an empty queue it counts in STRAY, and by anyone
else in REFUSED (R154, R160, R161). -/
def Sys2Proof.Claims.QueueRelease : Prop :=
  ∀ (who : Nat) (q : Fin 64) (s : State), s.alive = true →
    (who = (s.qgeo q).cons → qLevel (s.qgeo q) (s.qst (s.qgeo q)) ≠ 0 →
      ∃ u, exec (.release who q) s = .next (u.qSettle (s.qgeo q)) ∧ (NotTxq u (s.qgeo q) → u.qSettle (s.qgeo q) = u) ∧
        QHolds s u (s.qgeo q) (qPopped (s.qgeo q) (s.qst (s.qgeo q))) ∧
        QCrosses s u (s.qgeo q) (qLevel (s.qgeo q) (s.qst (s.qgeo q))) (qLevel (s.qgeo q) (qPopped (s.qgeo q) (s.qst (s.qgeo q)))) ∧
        u = { s with regs := u.regs, queues := u.queues, vdx := u.vdx }) ∧
    (who = (s.qgeo q).cons → qLevel (s.qgeo q) (s.qst (s.qgeo q)) = 0 →
      ∃ t, exec (.release who q) s = .next t ∧ t.get (s.qgeo q).STRAY = satAdd 15 (s.get (s.qgeo q).STRAY) 1 ∧
        RegsBut s t [(s.qgeo q).STRAY.off] ∧ t = { s with regs := t.regs }) ∧
    (who ≠ (s.qgeo q).cons → ∃ t, exec (.release who q) s = .next t ∧
        t.get (s.qgeo q).REFUSED = satAdd 255 (s.get (s.qgeo q).REFUSED) 1 ∧ RegsBut s t [(s.qgeo q).REFUSED.off] ∧
        t = { s with regs := t.regs })

/-- Verification makes the oldest unverified item visible where its transit check passes, and discards, counts and records it with its
origin stamp where it fails; a credit returns; a pointer error empties the queue, counts what it held, and raises its source; clearing the
counters clears them. The local queues of a CAN controller are verified and reset in the same way (R154, R156, R162, R163, R365). -/
def Sys2Proof.Claims.QueueUpkeep : Prop :=
  (∀ (q : Fin 76) (g : QGeo) (c : QSt) (s : State), g = s.anyQ q → c = s.qst g → QFitted s q → NotTxq s g →
    (c.unver ≠ 0 → ∃ t p, p = (c.wr + 2 * g.depth - c.unver) % (2 * g.depth) ∧ exec (.queueItemVerified q) s = .next t ∧
      (s.qItemOk g p = true → QHolds s t g { c with unver := c.unver - 1 } ∧ t.rcd = s.rcd) ∧
      (s.qItemOk g p = false →
        QHolds s t g (qSkip g g.depth { c with unver := c.unver - 1, holes := p :: c.holes }) ∧
        t.get g.DISCARDS = satAdd 65535 (s.get g.DISCARDS) 1 ∧
        ∃ r, t.rcd.reported = s.rcd.reported ++ [r] ∧ r.code = .TRANSIT_FAIL ∧
          r.words = [g.b, tget natD c.stamps (p % g.depth) % 2 ^ 32, tget natD c.stamps (p % g.depth) / 2 ^ 32].map (BitVec.ofNat 32))) ∧
    (c.unver = 0 → exec (.queueItemVerified q) s = .next s) ∧
    (c.unret ≠ 0 → ∃ t, exec (.creditReturn q) s = .next t ∧ QHolds s t g { c with unret := c.unret - 1 } ∧
      t = { s with regs := t.regs, queues := t.queues, vdx := t.vdx }) ∧
    (∀ a b, a ≠ b → ∃ t, exec (.queuePtrErr q a b) s = .next t ∧ t.queue g.b = { QSt.zero with resetAt := some s.fab } ∧
      t.get g.LEVEL = 0 ∧ t.get g.CREDITS = g.depth % 2 ^ 13 ∧
      t.get g.DISCARDS = satAdd 65535 (s.get g.DISCARDS) (qHeld g c - c.holes.length) ∧
      t.get g.RESETS = satAdd 15 (s.get g.RESETS) 1 ∧ t.flag g.PERR = true ∧ (g.perrSrc, s.fab) ∈ t.vdx.pulses ∧ MemSame s t ∧
      t.rcd.reported.map (fun r => r.code) = s.rcd.reported.map (fun r => r.code) ++ [.QUEUE_PTR_ERR])) ∧
  (∀ (q : Fin 64) (s : State), ∃ t, exec (.hxqCntClr q) s = .next t ∧ t.get (s.qgeo q).CROSS_HI = 0 ∧ t.get (s.qgeo q).CROSS_LO = 0 ∧
    t.reg ((s.qgeo q).b + 0x1C) = 0 ∧ RegsBut s t [(s.qgeo q).CROSS_HI.off, (s.qgeo q).b + 0x1C] ∧ t = { s with regs := t.regs })

/-- SENDQ commits WA as a 4-byte item and gives LA 1, or without a credit LA 0 and nothing else; RECVQ takes the head item: LA 1 and WA
its first four bytes, zero-extended, LA 0 on an empty queue, and LA 0 with WA kept where the item fails its check and is discarded, raising
the engine's source 4 (R184). -/
def Sys2Proof.Claims.LeQueues : Prop :=
  (∀ (e : Fin 2) (o : Opnd) (s : State) (g : QGeo), LeIssues s e 0x3A o → o.indexed = false → o.opnd.toNat < 64 →
    g = (leNow s e).qgeo o.opnd.toNat →
    (qCredits g ((leNow s e).qst g) ≠ 0 → 12 ≤ g.esize → ∃ t, exec (.leSendq e o) s = .next t ∧ t.la e = true ∧
      t.eng e = { (leNow s e).eng e with pc := ((leNow s e).eng e).pc + 1, cost := ((leNow s e).eng e).cost + 4 } ∧
      (NotTxq (leNow s e) g → (leNow s e).qResetNow g = false →
        QHolds (leNow s e) t g (qPushed g ((leNow s e).qst g) (leNow s e).stamp) ∧
        t.rdLe (qSlot g ((leNow s e).qst g).wr) 2 = 4 ∧
        t.rdBytes (qSlot g ((leNow s e).qst g).wr + 8) 4 = leBytes 4 ((leNow s e).wa e).toNat ∧
        MemBut (leNow s e) t (qSlot g ((leNow s e).qst g).wr) 12)) ∧
    (qCredits g ((leNow s e).qst g) = 0 → ∃ t, exec (.leSendq e o) s = .next t ∧
      LeNext (leNow s e) t e 4 false ((leNow s e).eng e))) ∧
  (∀ (e : Fin 2) (o : Opnd) (s : State) (g : QGeo), LeIssues s e 0x3B o → o.indexed = false → o.opnd.toNat < 64 →
    g = (leNow s e).qgeo o.opnd.toNat →
    (qLevel g ((leNow s e).qst g) = 0 → ∃ t, exec (.leRecvq e o) s = .next t ∧
      LeNext (leNow s e) t e 12 false ((leNow s e).eng e)) ∧
    (qLevel g ((leNow s e).qst g) ≠ 0 → NotTxq (leNow s e) g →
      ((leNow s e).qItemOk g ((leNow s e).qst g).rd = true → ∃ t, exec (.leRecvq e o) s = .next t ∧
        t.la e = true ∧ QHolds (leNow s e) t g (qPopped g ((leNow s e).qst g)) ∧
        t.eng e = { (leNow s e).eng e with
          pc := ((leNow s e).eng e).pc + 1, cost := ((leNow s e).eng e).cost + 12,
          wa := BitVec.ofNat 32 (leNat (((leNow s e).qPayload g ((leNow s e).qst g).rd).take 4)) } ∧ t.mem = s.mem) ∧
      ((leNow s e).qItemOk g ((leNow s e).qst g).rd = false → s.engineFitted e = true → ∃ t, exec (.leRecvq e o) s = .next t ∧
        t.la e = false ∧ QHolds (leNow s e) t g (qPopped g ((leNow s e).qst g)) ∧
        t.get g.DISCARDS = satAdd 65535 ((leNow s e).get g.DISCARDS) 1 ∧ (196 + 8 * e.val, t.fab) ∈ t.vdx.pulses ∧
        t.eng e = { (leNow s e).eng e with pc := ((leNow s e).eng e).pc + 1, cost := ((leNow s e).eng e).cost + 12 } ∧ t.mem = s.mem)))

/-! ### The lock-step pairs (chapter 2) -/

namespace Sys2Proof.Claims
open Sys2Proof Sys2Proof.Machine

/-- The pair's integer and floating-point registers and its other banks are unchanged. -/
def SameRegisters (s t : State) (p : Nat) : Prop :=
  (∀ r, (t.pair p).x r = (s.pair p).x r) ∧ (t.pair p).curBank.f = (s.pair p).curBank.f ∧
  (t.pair p).curBank.fcsr = (s.pair p).curBank.fcsr ∧ (t.pair p).cur = (s.pair p).cur ∧
  (∀ b, b ≠ (s.pair p).cur → (t.pair p).bank b = (s.pair p).bank b)

/-- Pair `p` is in machine mode with its pc and status saved, interrupts disabled, no reservation and no stall left (R50, R51, R55,
R59), its registers and its vector and trap bases as they were. -/
def Saved (s t : State) (p cause tval : Nat) : Prop :=
  (t.pair p).mepc = (s.pair p).pc ∧ (t.pair p).mcause = cause ∧ (t.pair p).mtval = tval ∧
  (t.pair p).mstMpie = (s.pair p).mstMie ∧ (t.pair p).mstMie = false ∧ (t.pair p).mstMpp = !(s.pair p).umode ∧
  (t.pair p).umode = false ∧ (t.pair p).wfi = false ∧ (t.pair p).resv = none ∧ (t.pair p).stall = none ∧ (t.pair p).fence = 0 ∧
  SameRegisters s t p ∧ (t.pair p).mtvec = (s.pair p).mtvec ∧ (t.pair p).vbase = (s.pair p).vbase ∧ PairsBut s t p

/-- Pair `p` has entered machine mode at `entry`; memory, every register of the map and everything but the pairs, the rack bridge's
loads and the vector committed to the pair are unchanged. -/
def Entered (s t : State) (p cause tval entry : Nat) : Prop :=
  Saved s t p cause tval ∧ (t.pair p).pc = entry % 2 ^ 64 ∧ t = { s with pairs := t.pairs, lrb := t.lrb, vdx := t.vdx }

/-- A pair whose mtvec names an entry takes exception `cause` there. -/
def TakesTrap (s t : State) (p cause tval : Nat) : Prop := Entered s t p cause tval (s.pair p).mtvec ∧ t.vdx = s.vdx

/-- Pair `p` executes an instruction now, and no trigger halts it first (R71). Its effect is one on `s.execBegin p`, which differs from `s` only
in that an activation's execution time is measured from its first instruction on (R115). -/
def Issues (s : State) (p : Nat) : Prop := s.executes p = true ∧ s.trigHit p = false

/-- An instruction of pair `p` retires at `pc`: the pc moves there, minstret counts unless inhibited (R48). -/
def Retired (s t : State) (p pc : Nat) : Prop :=
  (t.pair p).pc = pc % 2 ^ 64 ∧ (t.pair p).lastPc = (s.pair p).pc ∧
  (t.pair p).minstret = (if (s.pair p).mcountinhibit.testBit 2 then (s.pair p).minstret else ((s.pair p).minstret + 1) % 2 ^ 64)

end Sys2Proof.Claims

/-- With mtvec.BASE set, an exception of a pair enters machine mode at mtvec.BASE with mepc, mcause and mtval set: the exceptions of
causes 0 to 7, an ECALL of either mode, EBREAK (outside machine mode in the Service state), and MRET, WFI, csrw plx_bankdat and csrw
plx_vbase in user mode as illegal instructions (R45, R49, R50, R71). -/
def Sys2Proof.Claims.PairExceptions : Prop :=
  ∀ (p : Fin 4) (s : State), Issues s p → (s.pair p).mtvec ≠ 0 →
    (∀ (c : Fin 16) (v : DWord), c.val ≤ 7 → ∃ t, exec (.exceptionTrap p c v) s = .next t ∧ TakesTrap (s.execBegin p) t p c v.toNat) ∧
    (∀ v : DWord, (s.pair p).umode = true → ∃ t, exec (.exceptionTrap p 8 v) s = .next t ∧ TakesTrap (s.execBegin p) t p 8 v.toNat) ∧
    (∀ v : DWord, (s.pair p).umode = false → ∃ t, exec (.exceptionTrap p 11 v) s = .next t ∧ TakesTrap s t p 11 v.toNat) ∧
    (¬ (s.sup.st = .service ∧ (s.pair p).umode = false) →
      ∃ t, exec (.ebreak p) s = .next t ∧ TakesTrap (s.execBegin p) t p 3 (s.pair p).pc) ∧
    ((s.pair p).umode = true →
      (∃ t, exec (.mret p) s = .next t ∧ TakesTrap (s.execBegin p) t p 2 0x30200073) ∧
      (∃ t, exec (.wfi p) s = .next t ∧ TakesTrap (s.execBegin p) t p 2 0x10500073) ∧
      (∀ v, ∃ t, exec (.bankdatWrite p v) s = .next t ∧ TakesTrap (s.execBegin p) t p 2 0) ∧
      (∀ v, ∃ t, exec (.vbaseWrite p v) s = .next t ∧ TakesTrap (s.execBegin p) t p 2 0))

/-- With mtvec.BASE 0 an exception sets the saved registers and is recorded; from user mode in a task window the activation ends as
ABORT ends it and the pair parks, and from machine mode every source active on the pair is completed and the pair parks (R530). -/
def Sys2Proof.Claims.PairTrapUnset : Prop :=
  ∀ (p : Fin 4) (s : State) (c : Fin 16) (v : DWord), Issues s p → (s.pair p).mtvec = 0 → c.val ≤ 7 →
    ∃ u : State, Saved s u p c v.toNat ∧ (u.pair p).pc = (s.pair p).pc ∧
      u = { s.execBegin p with pairs := u.pairs, lrb := u.lrb, rcd := u.rcd } ∧
      u.rcd.reported.map (fun r => (r.code, r.src)) =
        s.rcd.reported.map (fun r => (r.code, r.src)) ++ [(RCode.MTVEC_UNSET, 0x20 + p.val)] ∧
      (∀ n, (s.pair p).umode = true → s.taskOn p = some n →
        exec (.exceptionTrap p c v) s = .next (((u.abortAct p n).toIdle p).settle p)) ∧
      ((s.pair p).umode = false → exec (.exceptionTrap p c v) s = .next ((u.completeAll p).abandonAndPark p))

/-- A committed vector waits until the pair accepts vectors and is then entered at its own address without a memory read: mepc, mstatus and mcause 0x8000_0000_0000_000B as R55 says;
mepc of a pair entered out of the hardware park is a free value (log 30). -/
def Sys2Proof.Claims.PairVectorEntry : Prop :=
  ∀ (p : Fin 4) (s : State) (v : Vec), s.committed p = some v → s.pairFitted p = true → s.alive = true → s.sup.st ≠ .dusk →
    (s.pair p).idle = false → s.awake p = true → s.rackHolds p = false →
    ((s.pair p).accepts = false → exec (.vectorEntry p) s = .next s) ∧
    ((s.pair p).accepts = true → ∃ t, exec (.vectorEntry p) s = .next t ∧ t.committed p = none ∧
      (¬ ((s.pair p).hwPark = true ∧ (s.pair p).wfi = true) → Entered s t p 0x800000000000000B 0 v.addr) ∧
      ((s.pair p).hwPark = true → (s.pair p).wfi = true →
        (t.pair p).pc = v.addr % 2 ^ 64 ∧ (t.pair p).mcause = 0x800000000000000B ∧ (t.pair p).mstMie = false ∧
        (t.pair p).mstMpie = (s.pair p).mstMie ∧ (t.pair p).umode = false ∧ (t.pair p).wfi = false ∧
        t.freeCtr = s.freeCtr + 1 ∧ SameRegisters s t p ∧ PairsBut s t p))

/-- MRET in machine mode returns to mepc with the status that was saved, to machine mode where MPP is 3 and else to user mode; WFI in
machine mode stops instruction issue at the following instruction; as the pair leaves machine mode the context of a task stopped
meanwhile is taken, and a pair with no task goes on as R106 and R107 say: after WFI it goes to the idle entry where its task window is over,
and at HX_IDLE.ADDR 0 to the hardware park (R49, R106, R107). -/
def Sys2Proof.Claims.PairReturnAndWait : Prop :=
  (∀ (p : Fin 4) (s : State), Issues s p → (s.pair p).umode = false → (s.pair p).hwPark = false →
    ((s.pair p).mstMpp = true → ∃ t, exec (.mret p) s = .next t ∧ Retired s t p (s.pair p).mepc ∧
      (t.pair p).mstMie = (s.pair p).mstMpie ∧ (t.pair p).mstMpie = true ∧ (t.pair p).mstMpp = false ∧ (t.pair p).umode = false ∧
      SameRegisters s t p ∧ PairsBut s t p ∧ t = { s with pairs := t.pairs }) ∧
    ((s.pair p).mstMpp = false → ∃ u : State, Retired s u p (s.pair p).mepc ∧
      (u.pair p).mstMie = (s.pair p).mstMpie ∧ (u.pair p).mstMpie = true ∧ (u.pair p).mstMpp = false ∧ (u.pair p).umode = true ∧
      SameRegisters s u p ∧ PairsBut s u p ∧ u = { s with pairs := u.pairs, hx := u.hx } ∧ ((s.unit p).saveDue = none → u.hx = s.hx) ∧
      (∀ n, (s.unit p).saveDue = some n → (u.unit p).saveDue = none ∧ (u.task n).ctx.pc = (s.pair p).mepc) ∧
      ((s.taskOn p).isSome = true → exec (.mret p) s = .next u) ∧
      (s.taskOn p = none → exec (.mret p) s = .next (u.settle p))) ∧
    (∃ u : State, Retired s u p ((s.pair p).pc + 4) ∧
      (u.pair p).wfi = true ∧ (u.pair p).umode = false ∧ (u.pair p).mstMie = (s.pair p).mstMie ∧
      SameRegisters s u p ∧ PairsBut s u p ∧ u = { s with pairs := u.pairs, hx := u.hx } ∧ ((s.unit p).saveDue = none → u.hx = s.hx) ∧
      ((s.taskOn p).isSome = true → exec (.wfi p) s = .next u) ∧
      (s.taskOn p = none → s.get (F.HX_IDLE_ADDR p) ≠ 0 → (s.pair p).parkDue = false → exec (.wfi p) s = .next (u.settle p)) ∧
      (s.taskOn p = none → (s.get (F.HX_IDLE_ADDR p) = 0 ∨ (s.pair p).parkDue = true) →
        exec (.wfi p) s = .next ((u.toIdle p).settle p)))) ∧
  (∀ (p : Fin 4) (s : State), ((s.toIdle p).pair p).curValid = false ∧ ((s.toIdle p).pair p).umode = false ∧
    ((s.toIdle p).pair p).parkDue = false ∧
    (s.get (F.HX_IDLE_ADDR p) = 0 → ((s.toIdle p).pair p).hwPark = true ∧ ((s.toIdle p).pair p).wfi = true) ∧
    (s.get (F.HX_IDLE_ADDR p) ≠ 0 → ((s.toIdle p).pair p).hwPark = false ∧ ((s.toIdle p).pair p).wfi = false ∧
      ((s.toIdle p).pair p).pc = s.get (F.HX_IDLE_ADDR p) * 4) ∧
    SameRegisters s (s.toIdle p) p ∧ PairsBut s (s.toIdle p) p ∧ s.toIdle p = { s with pairs := (s.toIdle p).pairs })

/-- csrw plx_bankdat puts the value into the register of the bank in view that PLX_BANKIDX names, and a bank that loads or is preloaded
stays as it is with ERR set; csrw plx_vbase takes BASE and EN from SRAM, and for any other BASE clears EN and is recorded; while EN is 0 no vector is committed to the
pair, and its sources stay pending (R54, R56). -/
def Sys2Proof.Claims.PairBankAndVbase : Prop :=
  ∀ (p : Fin 4) (s : State) (v : DWord), Issues s p → (s.pair p).umode = false →
    ((s.pair p).bankSt (s.pair p).view ≠ .loading → (s.pair p).bankSt (s.pair p).view ≠ .preloaded →
      ∃ t, exec (.bankdatWrite p v) s = .next t ∧
        ((s.pair p).view ≠ (s.pair p).cur ∨ (s.pair p).bankIdx ≠ 0 → Retired s t p ((s.pair p).pc + 4)) ∧
        ((s.pair p).view ≠ (s.pair p).cur → (∀ r, (t.pair p).x r = (s.pair p).x r) ∧
          (t.pair p).bank (s.pair p).view = ((s.pair p).bank (s.pair p).view).setReg (s.pair p).bankIdx v) ∧
        (0 < (s.pair p).bankIdx → (s.pair p).bankIdx < 32 →
          ((t.pair p).bank (s.pair p).view).reg (s.pair p).bankIdx = v) ∧
        (∀ b, b ≠ (s.pair p).view → b ≠ (s.pair p).cur → (t.pair p).bank b = (s.pair p).bank b) ∧
        PairsBut s t p ∧ t = { s with pairs := t.pairs }) ∧
    (((s.pair p).bankSt (s.pair p).view = .loading ∨ (s.pair p).bankSt (s.pair p).view = .preloaded) →
      ∃ t, exec (.bankdatWrite p v) s = .next t ∧ Retired s t p ((s.pair p).pc + 4) ∧ (t.pair p).bankErr = true ∧
        SameRegisters s t p ∧ PairsBut s t p ∧ t = { s with pairs := t.pairs }) ∧
    (inSram (v.toNat % 2 ^ 40 / 2 ^ 15 * 2 ^ 15) = true → ∃ t, exec (.vbaseWrite p v) s = .next t ∧ Retired s t p ((s.pair p).pc + 4) ∧
      (t.pair p).vbase = v.toNat % 2 ^ 40 / 2 ^ 15 * 2 ^ 15 ∧ (t.pair p).ven = v.getLsbD 0 ∧
      SameRegisters s t p ∧ PairsBut s t p ∧ t = { s with pairs := t.pairs }) ∧
    (inSram (v.toNat % 2 ^ 40 / 2 ^ 15 * 2 ^ 15) = false → ∃ t, exec (.vbaseWrite p v) s = .next t ∧ Retired s t p ((s.pair p).pc + 4) ∧
      (t.pair p).vbase = (s.pair p).vbase ∧ (t.pair p).ven = false ∧
      t.rcd.reported.map (fun r => r.code) = s.rcd.reported.map (fun r => r.code) ++ [.VBASE_REJECT] ∧
      SameRegisters s t p ∧ PairsBut s t p ∧ t = { s with pairs := t.pairs, rcd := t.rcd }) ∧
    ((s.pair p).ven = false → exec (.vectorCommit p) s = .next s)

/-- A write of one bit of PLX_FENCE stalls the pair at the write until the class is complete; then it goes on at the following
instruction (R58). -/
def Sys2Proof.Claims.PairFences : Prop :=
  ∀ (p : Fin 4) (s : State),
    (Issues s p →
      (∃ t, exec (.plxFenceDev p) s = .next t ∧ t.pair p = { s.pair p with fence := 1 } ∧ PairsBut s t p ∧
        t = { s.execBegin p with pairs := t.pairs }) ∧
      (∃ t, exec (.plxFenceLe p) s = .next t ∧ t.pair p = { s.pair p with fence := 2 } ∧ PairsBut s t p ∧
        t = { s.execBegin p with pairs := t.pairs }) ∧
      (∃ t, exec (.plxFenceQ p) s = .next t ∧ t.pair p = { s.pair p with fence := 4 } ∧ PairsBut s t p ∧
        t = { s.execBegin p with pairs := t.pairs }) ∧
      (∃ t, exec (.plxFenceHx p) s = .next t ∧ t.pair p = { s.pair p with fence := 8 } ∧ PairsBut s t p ∧
        t = { s.execBegin p with pairs := t.pairs })) ∧
    ((s.pair p).fence ≠ 0 → (s.pair p).idle = false → s.fenceDone p = true →
      ∃ t, exec (.fenceComplete p) s = .next t ∧ (t.pair p).fence = 0 ∧ Retired s t p ((s.pair p).pc + 4) ∧
        SameRegisters s t p ∧ PairsBut s t p ∧ t = { s with pairs := t.pairs })

/-- In the Service state EBREAK in machine mode, and the arrival at a trigger's address before the instruction there executes, halt the
pair where it stands; every other instruction at a trigger's address halts it in the same way (R71). -/
def Sys2Proof.Claims.PairHalts : Prop :=
  ∀ (p : Fin 4) (s : State), s.executes p = true → s.sup.st = .service →
    ((s.pair p).umode = false → ∃ t, exec (.ebreak p) s = .next t ∧ t.pair p = { s.pair p with halted := true } ∧
      (t.unit p).haltedAt = some s.clk.t ∧ PairsBut s t p ∧ t = { s with pairs := t.pairs, hx := t.hx }) ∧
    (∀ k, k < 4 → tget noneD (s.pair p).trig k = some (s.pair p).pc → (∃ t, exec (.triggerHit p) s = .next t ∧
      t.pair p = { s.pair p with halted := true } ∧ (t.unit p).haltedAt = some s.clk.t ∧ PairsBut s t p ∧
      t = { s with pairs := t.pairs, hx := t.hx }) ∧
      ∀ c : Instr, (c = .mret p ∨ c = .wfi p ∨ c = .ebreak p ∨ ∃ i len4 reads, c = .pairInstruction p i ⟨len4, reads⟩) →
        exec c s = exec (.triggerHit p) s)

/-! ### The vector dispatcher (chapter 3) -/

namespace Sys2Proof.Claims
open Sys2Proof Sys2Proof.Machine

/-- Source `n` has been raised: its event count has counted, its stamp is that of this instant, its line reads asserted, and it is
pending unless its mode keeps it from becoming so (R74, R75, R529). -/
def Raised (s t : State) (n : Nat) : Prop :=
  t.get (F.VDX_SRCSTAT_COUNT n) = satAdd 255 (s.get (F.VDX_SRCSTAT_COUNT n)) 1 ∧ t.flag (F.VDX_SRCSTAT_LINE n) = true ∧
  t.get (F.VDX_SRCSTAMP_W n 0) = s.stamp % 2 ^ 32 ∧ t.get (F.VDX_SRCSTAMP_W n 1) = s.stamp / 2 ^ 32 % 2 ^ 32 ∧
  (s.get (F.VDX_SRCCFG_MODE n) = 1 → t.flag (F.VDX_SRCSTAT_PENDING n) = true) ∧
  (s.get (F.VDX_SRCCFG_MODE n) = 0 → s.flag (F.VDX_SRCSTAT_ACTIVE n) = false → t.flag (F.VDX_SRCSTAT_PENDING n) = true)

end Sys2Proof.Claims

/-- A raised source counts, is stamped, and becomes pending in mode 1, and in mode 0 unless it is active; a software trigger of 0 to 31
raises that source, and above 31 only counts as refused; no other register changes (R74, R75, R529). -/
def Sys2Proof.Claims.VdxRaise : Prop :=
  (∀ (n : Nat) (s : State), n < 512 → s.sourceAbsent n = false → Raised s (s.raise n) n ∧
    RegsBut s (s.raise n) (srcRegs n ++ (match evtField n with | some f => [f.off] | none => [])) ∧
    (s.raise n) = { s with regs := (s.raise n).regs, vdx := (s.raise n).vdx }) ∧
  (∀ (v : Word) (s : State), v.toNat < 32 → ∃ t, exec (.vdxSwtrig v) s = .next t ∧ Raised s t v.toNat ∧ RegsBut s t (srcRegs v.toNat)) ∧
  (∀ (v : Word) (s : State), 32 ≤ v.toNat → ∃ t, exec (.vdxSwtrig v) s = .next t ∧
    t.get F.VDX_DIAG_REFUSED = satAdd (2 ^ F.VDX_DIAG_REFUSED.w - 1) (s.get F.VDX_DIAG_REFUSED) 1 ∧
    RegsBut s t [F.VDX_DIAG_REFUSED.off] ∧ t = { s with regs := t.regs })

/-- A change of a qualified level asserts or de-asserts its source by the source's polarity: an assertion counts and makes it pending,
a de-assertion of a level source withdraws it (R75, R85, R88). -/
def Sys2Proof.Claims.VdxSource : Prop :=
  ∀ (li : Fin 8) (level : Bool) (s : State), s.lrbFitted = true → s.alive = true → tget boolD s.vdx.raw (368 + li.val) = !level →
    ∃ t, exec (.sourceQualified li level) s = .next t ∧ tget boolD t.vdx.raw (368 + li.val) = level ∧
      (s.get (F.VDX_SRCCFG_MODE (368 + li.val)) ≠ 2 → (level != s.flag (F.VDX_SRCCFG_POL (368 + li.val))) = true →
        Raised s t (368 + li.val)) ∧
      (s.get (F.VDX_SRCCFG_MODE (368 + li.val)) = 0 → (level != s.flag (F.VDX_SRCCFG_POL (368 + li.val))) = false →
        t.flag (F.VDX_SRCSTAT_LINE (368 + li.val)) = false ∧ t.flag (F.VDX_SRCSTAT_PENDING (368 + li.val)) = false ∧
        (s.flag (F.VDX_SRCSTAT_ACTIVE (368 + li.val)) = true → t.flag (F.VDX_SRCSTAT_WITHDRAWN (368 + li.val)) = true)) ∧
      RegsBut s t (srcRegs (368 + li.val)) ∧ t = { s with regs := t.regs, vdx := t.vdx }

/-- The dispatcher's choice for a pair is an eligible source, and no eligible source has a higher priority, nor an equal one a lower
number (R77). -/
def Sys2Proof.Claims.VdxSelection : Prop :=
  ∀ (s : State) (p : Nat), s.Canonical →
    (∀ n, s.selection p = some n → s.eligible p n = true ∧
      ∀ m, m < 512 → s.eligible p m = true → s.get (F.VDX_SRCCFG_PRIO m) < s.get (F.VDX_SRCCFG_PRIO n) ∨
        (s.get (F.VDX_SRCCFG_PRIO m) = s.get (F.VDX_SRCCFG_PRIO n) ∧ n ≤ m)) ∧
    (s.selection p = none → ∀ m, m < 512 → s.eligible p m = false)

/-- A commit hands the pair the address PLX_VBASE.BASE + source × 64, makes the source active on it and raises its running level to the
source's priority; a completion takes the source out of the active state, and one that names no source active on the pair is counted,
held and recorded as stray (R55, R78, R81, R82). -/
def Sys2Proof.Claims.VdxCommitAndComplete : Prop :=
  (∀ (p : Fin 4) (n : Nat) (s : State), s.canCommit p = true → s.selection p = some n → n < 512 →
    ∃ t, exec (.vectorCommit p) s = .next t ∧
      t.committed p = some ⟨n, (s.pair p).vbase + n * 64, s.get (F.VDX_SRCCFG_PRIO n)⟩ ∧
      t.stack p = (n, s.get (F.VDX_SRCCFG_PRIO n)) :: s.stack p ∧ t.runLevel p = s.get (F.VDX_SRCCFG_PRIO n) ∧
      t.flag (F.VDX_SRCSTAT_ACTIVE n) = true ∧ t.get (F.VDX_SRCSTAT_APAIR n) = p.val ∧
      (s.get (F.VDX_SRCCFG_MODE n) ≠ 2 → t.flag (F.VDX_SRCSTAT_PENDING n) = false) ∧
      t = { s with regs := t.regs, vdx := t.vdx, pwr := t.pwr }) ∧
  (∀ (p : Fin 4) (v : Word) (s : State), s.pairFitted p = true →
    ((s.stack p).any (fun c => c.1 == v.toNat % 512) = true → ∃ t, exec (.vdxComplete p v) s = .next t ∧
      t.stack p = (s.stack p).filter (fun c => c.1 ≠ v.toNat % 512) ∧
      t.flag (F.VDX_SRCSTAT_ACTIVE (v.toNat % 512)) = false ∧
      (s.get (F.VDX_SRCCFG_MODE (v.toNat % 512)) = 0 →
        t.get (F.VDX_SRCSTAT_PENDING (v.toNat % 512)) = s.get (F.VDX_SRCSTAT_LINE (v.toNat % 512))) ∧
      RegsBut s t [(F.VDX_SRCSTAT_LINE (v.toNat % 512)).off] ∧ t = { s with regs := t.regs, vdx := t.vdx }) ∧
    ((s.stack p).any (fun c => c.1 == v.toNat % 512) = false → ∃ t, exec (.vdxComplete p v) s = .next t ∧
      t.get (F.VDX_STRAY_COUNT p) = satAdd (2 ^ (F.VDX_STRAY_COUNT p).w - 1) (s.get (F.VDX_STRAY_COUNT p)) 1 ∧
      t.get (F.VDX_STRAY_LAST_SRC p) = v.toNat % 512 ∧
      t.rcd.reported.map (fun r => r.code) = s.rcd.reported.map (fun r => r.code) ++ [.STRAY_COMPLETE] ∧
      RegsBut s t [(F.VDX_STRAY_COUNT p).off, (F.VDX_STRAY_LAST_SRC p).off] ∧ t = { s with regs := t.regs, rcd := t.rcd }))

/-- VDX_SRCCFG of a source that is present, masked and not active takes a permitted value, MODE 2 being permitted only for sources 368 to
375 with POL = 0; every other write leaves it unchanged, counts as refused and, for a present source, is recorded; at reset every source
is masked; the mask, the source counters, the stray counts and the refused count are written and cleared as their commands say, a source
counter to 1 where an assertion arrived in the same fabric cycle (R73, R76, R84, R86, R87). -/
def Obligations.VdxConfiguration : Prop :=
  (∀ (n : Fin 512) (v : Word) (s : State), s.sourceAbsent n = false → s.masked n = true → s.flag (F.VDX_SRCSTAT_ACTIVE n) = false →
    (fieldGet v 20 2 < 2 ∨ fieldGet v 20 2 = 2 ∧ 368 ≤ n.val ∧ n.val ≤ 375 ∧ v.getLsbD 19 = false) →
    ∃ t, exec (.vdxSrccfgWrite n v) s = .next t ∧ t.reg (0x11000 + n.val * 4) = v &&& srccfgMask ∧
      RegsBut s t [0x11000 + n.val * 4, (F.VDX_SRCSTAT_LINE n).off] ∧ t = { s with regs := t.regs, vdx := t.vdx }) ∧
  (∀ (n : Fin 512) (v : Word) (s : State), s.sourceAbsent n = false →
    (s.masked n = false ∨ s.flag (F.VDX_SRCSTAT_ACTIVE n) = true ∨ fieldGet v 20 2 = 3 ∨
      fieldGet v 20 2 = 2 ∧ (n.val < 368 ∨ 375 < n.val ∨ v.getLsbD 19 = true)) →
    ∃ t, exec (.vdxSrccfgWrite n v) s = .next t ∧ RegsBut s t [F.VDX_DIAG_REFUSED.off] ∧
      t.get F.VDX_DIAG_REFUSED = satAdd (2 ^ F.VDX_DIAG_REFUSED.w - 1) (s.get F.VDX_DIAG_REFUSED) 1 ∧
      t.rcd.reported.map (fun r => r.code) = s.rcd.reported.map (fun r => r.code) ++ [.VDX_CFG_REFUSED] ∧
      t = { s with regs := t.regs, rcd := t.rcd }) ∧
  (∀ (n : Fin 512) (v : Word) (s : State), s.sourceAbsent n = true → ∃ t, exec (.vdxSrccfgWrite n v) s = .next t ∧
    RegsBut s t [F.VDX_DIAG_REFUSED.off] ∧
    t.get F.VDX_DIAG_REFUSED = satAdd (2 ^ F.VDX_DIAG_REFUSED.w - 1) (s.get F.VDX_DIAG_REFUSED) 1 ∧ t = { s with regs := t.regs }) ∧
  (∀ n, n < 512 → State.reset.masked n = true) ∧
  (∀ (n : Fin 16) (v : Word) (s : State), ∃ t, exec (.vdxMaskWrite n v) s = .next t ∧
    (∀ b, b < 32 → t.masked (32 * n.val + b) = v.getLsbD b) ∧ RegsBut s t [(F.VDX_MASK_MASK n).off] ∧ t = { s with regs := t.regs }) ∧
  (∀ (n : Fin 512) (s : State), ∃ t, exec (.cntClr n) s = .next t ∧
    t.get (F.VDX_SRCSTAT_COUNT n) = (if tget noneD s.vdx.arrived n = some s.fab then 1 else 0) ∧
    t.get (F.VDX_SRCSTAT_PENDING n) = s.get (F.VDX_SRCSTAT_PENDING n) ∧ t.get (F.VDX_SRCSTAT_ACTIVE n) = s.get (F.VDX_SRCSTAT_ACTIVE n) ∧
    RegsBut s t [(F.VDX_SRCSTAT_COUNT n).off] ∧ t = { s with regs := t.regs }) ∧
  (∀ (p : Fin 4) (s : State), s.pairFitted p = true → ∃ t, exec (.vdxStrayClr p) s = .next t ∧ t.get (F.VDX_STRAY_COUNT p) = 0 ∧
    RegsBut s t [(F.VDX_STRAY_COUNT p).off] ∧ t = { s with regs := t.regs }) ∧
  (∀ s : State, ∃ t, exec .vdxDiagClr s = .next t ∧ t.get F.VDX_DIAG_REFUSED = 0 ∧ RegsBut s t [F.VDX_DIAG_REFUSED.off] ∧
    t = { s with regs := t.regs })

/-! ### The comparators (chapter 2, R60 to R66; R166, R167) -/

namespace Sys2Proof.Claims
open Sys2Proof Sys2Proof.Machine

/-- The module has gone to the Dusk state for a cause: the fault latch is set, every pair's clocks have stopped, no long operation is
left, and no output is driven by command (R65, R434, R436). -/
def WentDusk (s t : State) (cause : Nat) : Prop :=
  t.sup.st = .dusk ∧ t.sup.faultLatch = true ∧ t.sup.duskCause = cause ∧ t.sup.fromDusk = false ∧ t.sup.longOp = none ∧
  (∀ p, s.pairFitted p = true → (t.pair p).frozen = true) ∧ t.pending = s.pending ∧ t.ident = s.ident ∧ t.clk = s.clk

/-- The first new report of `t` over `s`. -/
def Reports (s t : State) (code : RCode) (src : Nat) (words : List Nat) : Prop :=
  ∃ r l, t.rcd.reported = s.rcd.reported ++ r :: l ∧ r.code = code ∧ r.src = src ∧ r.stamp = s.stamp ∧
    words.map (BitVec.ofNat 32) <+: r.words

end Sys2Proof.Claims

/-- A mismatch of a pair stops every pair and takes the module to the Dusk state with cause 1, its entry first, holding the pair and
the lane group, the lane of the group and both words; during a self-test it is a failed test; a mismatch of an engine does the same with cause 2
(R60, R61, R65, R66, R166). -/
def Sys2Proof.Claims.ComparatorMismatch : Prop :=
  (∀ (p : Fin 4) (grp : Fin 7) (lane : Nat) (lead trail : Word) (s : State), lane < cmpLanes grp → s.pairFitted p = true → s.alive = true →
    s.sup.st ≠ .dusk → (s.pair p).frozen = false → s.get (F.PWR_PAIRCLK_STATE p) = 0 →
    ∃ t, exec (.pairMismatch p grp lane lead trail) s = .next t ∧ WentDusk s t 1 ∧
      Reports s t (if (s.pair p).testing.isSome then .CMP_SELFTEST_FAIL else .PAIR_MISMATCH) (0x20 + p.val)
        [p.val * 256 + grp.val, lane, lead.toNat, trail.toNat, (s.pair p).lastPc]) ∧
  (∀ (e : Fin 2) (grp lane : Nat) (lead trail : Word) (s : State), s.engineFitted e = true → s.alive = true →
    s.sup.st ≠ .dusk → ∃ t, exec (.leMismatch e grp lane lead trail) s = .next t ∧ WentDusk s t 2 ∧ (t.eng e).shadow = [] ∧
      Reports s t (if (s.eng e).testing.isSome then .LE_SELFTEST_FAIL else .LE_MISMATCH) (0x60 + e.val)
        [e.val * 256 + grp, lane, lead.toNat, trail.toNat])

/-- A comparator test falls due 24 h of operation after the last one and is recorded as overdue each hour from one hour later on; it
begins in a gap long enough, lasts 2.5 us on a pair and 1 us on an engine, and when it has passed it counts, is no longer due, and the
next one counts from now; a failed one is handled as a mismatch (R61, R63, R64, R167). -/
def Sys2Proof.Claims.ComparatorTests : Prop :=
  (∀ (u : Fin 6) (s : State), s.unitFitted u = true → s.alive = true → s.clk.opOn = true → s.cmpDue u = false →
    ∃ t, exec (.cmpTestDue u) s = .next t ∧ t.cmpDue u = true ∧ t.clk.t = max s.clk.t (s.opAt (s.cmpLast u + dayUnits))) ∧
  (∀ (u : Fin 6) (s : State), s.unitFitted u = true → s.alive = true → s.clk.opOn = true → s.cmpDue u = true → s.testState = true →
    ∃ t, exec (.cmpTestOverdue u) s = .next t ∧ t.cmpOverdue u = s.cmpOverdue u + 1 ∧ t.cmpDue u = true ∧
      t.clk.t = max s.clk.t (s.opAt (s.cmpLast u + dayUnits + (s.cmpOverdue u + 1) * hourUnits)) ∧
      t.rcd.reported.map (fun r => (r.code, r.src)) = s.rcd.reported.map (fun r => (r.code, r.src)) ++ [(.CMP_TEST_OVERDUE, 0x40)]) ∧
  (∀ (p : Fin 4) (s : State), s.pairFitted p = true → s.testState = true → (s.pair p).cmpDue = true → (s.pair p).frozen = false →
    (s.pair p).halted = false → (∀ q, q < 4 → (s.pair q).testing = none) →
    (∀ q, q < p.val → s.pairFitted q = true → (s.pair q).cmpDue = false) → s.testGap p 2400 = true →
    ∃ t, exec (.cmpSelftest p) s = .next t ∧ t.pair p = { s.pair p with testing := some (s.clk.t + 2000) } ∧ PairsBut s t p ∧
      t = { s with pairs := t.pairs }) ∧
  (∀ (e : Fin 2) (s : State), s.engineFitted e = true → s.testState = true → s.cmpDue (4 + e) = true → (s.eng e).testing = none →
    s.testGap (4 + e) 1600 = true → ∃ t, exec (.leCmpSelftest e) s = .next t ∧
      t.eng e = { s.eng e with testing := some (s.clk.t + 800) } ∧ t.get (F.LE_STAT_STATE e) = 2 ∧ EnginesBut s t e ∧
      RegsBut s t [(F.LE_STAT_STATE e).off]) ∧
  (∀ (p : Fin 4) (x : Nat) (s : State), (s.pair p).testing = some x → ∃ u : State,
    exec (.cmpSelftestEnd ⟨p, by omega⟩ none) s = .next ((((u.leaveExcluded).tryOpen p).settle p)) ∧
    u.pair p = { (s.advance x).pair p with
      testing := none, cmpDue := false, cmpPass := min ((s.pair p).cmpPass + 1) 65535, cmpLast := (s.advance x).optime, cmpOverdue := 0 } ∧
    u = { s.advance x with pairs := u.pairs }) ∧
  (∀ (e : Fin 2) (x : Nat) (s : State), (s.eng e).testing = some x → ∃ u : State,
    exec (.cmpSelftestEnd ⟨4 + e, by omega⟩ none) s = .next ((u.leaveExcluded).tryOpen (4 + e)) ∧
    u.eng e = { s.eng e with testing := none, cmpLast := (s.advance x).optime, cmpOverdue := 0 } ∧ u.flag (F.LE_CMPST_DUE e) = false ∧
    u.get (F.LE_CMPST_PASS_COUNT e) = satAdd 65535 (s.get (F.LE_CMPST_PASS_COUNT e)) 1 ∧ u.get (F.LE_STAT_STATE e) = 0) ∧
  (∀ (p : Fin 4) (x lane : Nat) (s : State), (s.pair p).testing = some x → s.alive = true → s.sup.st ≠ .dusk →
    ∃ t, exec (.cmpSelftestEnd ⟨p, by omega⟩ (some lane)) s = .next t ∧ WentDusk (s.advance x) t 1 ∧
      Reports (s.advance x) t .CMP_SELFTEST_FAIL (0x20 + p.val) [p.val, lane])

/-! ### The executive: windows, banks and activations (chapter 4) -/

namespace Sys2Proof.Claims
open Sys2Proof Sys2Proof.Machine

/-- The task on pair `p` calls: the pair executes it in user mode, and no trigger halts the pair first. -/
def Calls (s : State) (p n : Nat) (td : Task) : Prop :=
  Issues s p ∧ s.taskOn p = some n ∧ s.taskD? n = some td ∧ (s.pair p).umode = true

/-- The macrotick of the START of a window in the running major frame. -/
def startMt (s : State) (d : Window) : Nat := s.hx.frameMt + d.start

/-- The window `w` of unit `u` may start now: windows are opened, its interval is not over and has not begun before, no other window or
slack quantum holds the unit, and its task runs. -/
def WindowDue (s : State) (w : Nat) (d : Window) (td : Task) : Prop :=
  s.window? w = some d ∧ s.taskD? d.task = some td ∧ s.dispatching = true ∧ s.unitFitted td.unit = true ∧ td.unit < 6 ∧
  max (s.mt (startMt s d)) s.clk.t < s.mt (startMt s d + d.budget) ∧ (s.unit td.unit).lastStart ≠ some (startMt s d) ∧
  (s.unit td.unit).win = none ∧ (s.unit td.unit).slack = none ∧ (s.advance (s.mt (startMt s d))).taskRuns td = true

/-- The unit holds window `w`, opened, from now until the macrotick START + BUDGET. -/
def Holds (s t : State) (u w : Nat) (d : Window) : Prop :=
  (t.unit u).win = some w ∧ (t.unit u).opened = true ∧ (t.unit u).ended = false ∧ (t.unit u).task = d.task ∧
  (t.unit u).endMt = startMt s d + d.budget ∧ (t.unit u).ext = 0

end Sys2Proof.Claims

/-- The first window of an engine task begins a fresh scan at its start, or once its input range has been rewritten: LA, WA and XR 0, both
stacks empty, the first word at the task's entry; the unit holds the window until START + BUDGET (R102, R113, R185, R222). -/
def Sys2Proof.Claims.WindowStartEngine : Prop :=
  ∀ (w : Nat) (d : Window) (td : Task) (s : State) (e : Fin 2), WindowDue s w d td → td.unit = 4 + e.val → d.task < 1024 →
    d.wflags.testBit 0 = true → td.cls ≠ 2 → (s.task d.task).st = .idle → (s.eng e).testing = none →
    ∃ t, exec (.windowStart w) s = .next t ∧ t.clk.t = max s.clk.t (s.mt (startMt s d)) ∧
      t.eng e = { s.eng e with wa := 0, xr := 0, bs := [], cs := [], pc := td.entry, cost := 0,
                               start := max t.clk.t (tget natD (s.grp td.group).leReady e), shadow := [] } ∧
      t.la e = false ∧ t.get (F.LE_STAT_STATE e) = 1 ∧ t.get (F.LE_STAT_TASK e) = d.task ∧
      (t.task d.task).st = .running ∧ (t.task d.task).cont = 0 ∧ Holds s t td.unit w d ∧ EnginesBut s t e ∧ t.mem = s.mem

/-- The window of a pair whose context is preloaded switches banks at its start: the pair executes in user mode from the initial
context of the task, entry and stack pointer, in the preloaded bank, and the outgoing bank is saved; the activation's execution time is
not measured before its first instruction (R53, R100, R101, R113, R115). -/
def Sys2Proof.Claims.WindowStartPair : Prop :=
  ∀ (w b : Nat) (d : Window) (td : Task) (s u : State), WindowDue s w d td → u = s.advance (s.mt (startMt s d)) →
    td.unit < 4 → d.wflags.testBit 0 = true →
    (s.task d.task).st = .idle → (td.cls = 0 → u.stagedOk w (startMt s d) = true) → (s.pair td.unit).pre = some b → b < 4 →
    (s.unit td.unit).preWin = some w → u.awake td.unit = true → ((s.pair td.unit).umode = true ∨ (s.pair td.unit).wfi = true) →
    (s.pair td.unit).idle = false → (s.unit td.unit).saveDue = none →
    ∃ t, exec (.windowStart w) s = .next t ∧ (t.pair td.unit).cur = b ∧ (t.pair td.unit).umode = true ∧ (t.pair td.unit).wfi = false ∧
      (t.pair td.unit).curBank = initCtx d.task td ∧ (t.pair td.unit).bankSt b = .current ∧ (t.pair td.unit).pre = none ∧
      (t.pair td.unit).resv = none ∧
      ((s.pair td.unit).cur ≠ b → (s.pair td.unit).bankSt (s.pair td.unit).cur = .current →
        (t.pair td.unit).bankSt (s.pair td.unit).cur = .saving) ∧
      (t.task d.task).st = .running ∧ (t.task d.task).since = none ∧ t.taskOn td.unit = some d.task ∧ (t.unit td.unit).began = false ∧
      Holds s t td.unit w d ∧ PairsBut u t td.unit ∧ t.mem = s.mem

/-- At the budget end of its last window an unfinished activation is an overrun: counted, recorded and raised; with continuations left
it waits for its next window, and else it is abandoned; in any other window, and for a background task, it is paused (R104, R108,
R187). -/
def Sys2Proof.Claims.BudgetOver : Prop :=
  ∀ (u w : Nat) (d : Window) (td : Task) (s : State), u < 6 → (s.unit u).win = some w → (s.unit u).ended = false →
    s.taskD? (s.unit u).task = some td → s.window? w = some d → (s.unit u).task < 1024 → td.part < 256 →
    (td.cls = 2 ∨ d.wflags.testBit 1 = false → ((s.budgetOver u).task (s.unit u).task).st = .paused ∧
      (s.budgetOver u).rcd = s.rcd ∧ ((s.budgetOver u).unit u).win = none) ∧
    (td.cls ≠ 2 → d.wflags.testBit 1 = true → (s.task (s.unit u).task).cont < td.maxSkip →
      ((s.budgetOver u).task (s.unit u).task).st = .awaiting ∧
      (s.budgetOver u).get (F.HX_TASKSTAT0_OVERRUNS (s.unit u).task) = satAdd 65535 (s.get (F.HX_TASKSTAT0_OVERRUNS (s.unit u).task)) 1 ∧
      (s.budgetOver u).rcd.reported.map (fun r => r.code) = s.rcd.reported.map (fun r => r.code) ++ [.OVERRUN] ∧
      (32, s.fab) ∈ (s.budgetOver u).vdx.pulses ∧ ((s.budgetOver u).unit u).win = none ∧
      (∀ e : Fin 2, u = 4 + e.val → ((s.budgetOver u).eng e).shadow = [] ∧ (s.budgetOver u).get (F.LE_STAT_STATE e) = 0)) ∧
    (td.cls ≠ 2 → d.wflags.testBit 1 = true → td.maxSkip ≤ (s.task (s.unit u).task).cont →
      ((s.budgetOver u).task (s.unit u).task).st = .idle ∧
      (s.budgetOver u).get (F.HX_TASKSTAT0_ABANDONS (s.unit u).task) = satAdd 65535 (s.get (F.HX_TASKSTAT0_ABANDONS (s.unit u).task)) 1 ∧
      ∃ l, (s.budgetOver u).rcd.reported.map (fun r => r.code) = s.rcd.reported.map (fun r => r.code) ++ [.OVERRUN, .TASK_ABANDON] ++ l)

/-- The budget end of a window comes at its own instant, moved by the halts in it, and ends what runs there as R104 says; a pair then settles;
while the window's timer is frozen it does not come; a slack quantum of a pair that is not halted ends at its own instant, and its
activation is paused (R69, R104, R117). -/
def Sys2Proof.Claims.BudgetAndQuantumEnds : Prop :=
  (∀ (e : Fin 2) (s : State), ((s.unit (4 + e)).win).isSome = true → s.timerFrozen (4 + e) = false → s.dispatching = true →
    exec (.budgetEnd ⟨4 + e, by omega⟩) s = .next ((s.advance (s.budgetAt (4 + e))).budgetOver (4 + e))) ∧
  (∀ (p : Fin 4) (s : State), ((s.unit p).win).isSome = true → s.timerFrozen p = false → s.dispatching = true →
    exec (.budgetEnd ⟨p, by omega⟩) s = .next (((s.advance (s.budgetAt p)).budgetOver p).settle p)) ∧
  (∀ (u : Fin 6) (s : State), s.timerFrozen u = true → exec (.budgetEnd u) s = .next s) ∧
  (∀ (p : Fin 4) (n x : Nat) (s : State), (s.unit p).slack = some (n, x) → (s.unit p).haltedAt = none → ∃ u : State,
    exec (.slackQuantumEnd p) s = .next (u.settle p) ∧ (u.unit p).slack = none ∧ (u.task n).st = .paused ∧
    u.clk.t = max s.clk.t x ∧ ((s.pair p).umode = true → (u.task n).ctx = { ((s.advance x).pair p).curBank with task := n }))

/-- The next window's context begins to load into a FREE bank, which is LOADING; when the copy is complete the bank is preloaded and
holds the context of the window's task; a saved bank is FREE once its copy is complete (R100, R101). -/
def Sys2Proof.Claims.Preloads : Prop :=
  (∀ (p : Fin 4) (w st b : Nat) (s : State), s.pairFitted p = true → s.alive = true → (s.pair p).frozen = false →
    s.wantWin p = some (w, st) → (s.unit p).preWin = none → (s.pair p).freeBank = some b →
    ∃ t, exec (.preloadStart p) s = .next t ∧ (t.pair p).bankSt b = .loading ∧ (t.unit p).preWin = some w ∧
      (∀ c, c ≠ b → (t.pair p).bankSt c = (s.pair p).bankSt c ∧ (t.pair p).bank c = (s.pair p).bank c) ∧ PairsBut s t p ∧
      t = { s with pairs := t.pairs, hx := t.hx }) ∧
  (∀ (p : Fin 4) (w b : Nat) (d : Window) (s : State), (s.pair p).frozen = false → b < 4 → (s.pair p).bankSt b = .loading →
    (∀ c, c < b → (s.pair p).bankSt c ≠ .loading) → (s.unit p).slackPre = none → (s.unit p).preWin = some w → s.window? w = some d →
    (s.unit p).win = none →
    ∃ t, exec (.preloadDone p) s = .next t ∧ (t.pair p).bankSt b = .preloaded ∧ (t.pair p).bank b = s.ctxOf d.task ∧
      (t.pair p).pre = some b ∧ PairsBut s t p ∧ t = { s with pairs := t.pairs }) ∧
  (∀ (p b : Fin 4) (s : State), (s.pair p).bankSt b = .saving → ∃ t, exec (.saveDone p b) s = .next t ∧
      (t.pair p).bankSt b = .free ∧ (∀ c, c ≠ b.val → (t.pair p).bankSt c = (s.pair p).bankSt c) ∧ PairsBut s t p ∧
      t = { s with pairs := t.pairs })

/-- A switch that waited for machine-mode code is made when the pair has come to user mode or WFI: the preloaded bank comes into use
and the delay is recorded with both addresses of the entry into machine mode, each in two words (R53). -/
def Sys2Proof.Claims.DeferredSwitch : Prop :=
  ∀ (p : Fin 4) (w b : Nat) (s : State), s.pairFitted p = true → s.awake p = true → (s.unit p).win = some w →
    (s.unit p).opened = false → (s.unit p).ended = false → (s.unit p).preWin = some w → (s.pair p).pre = some b → b < 4 →
    ((s.pair p).umode = true ∨ (s.pair p).wfi = true) → (s.pair p).idle = false → (s.pair p).diverged = false → (s.unit p).mm = true →
    tget natD s.pwr.awakeAt p ≤ (s.unit p).start →
    ∃ t, exec (.bankSwitch p) s = .next t ∧ (t.pair p).cur = b ∧
      (t.pair p).curBank = (s.takeSave p (s.pair p).mepc).ctxOf (s.unit p).task ∧
      (t.pair p).umode = true ∧ (t.unit p).opened = true ∧ t.budgetAt p = s.budgetAt p ∧
      (∃ r, t.rcd.reported = s.rcd.reported ++ [r] ∧ r.code = .MMODE_OVERRUN ∧
        r.words = [p.val, (s.clk.t - (s.unit p).start) / 2, (s.pair p).entryM, (s.pair p).entryM / 2 ^ 32, (s.pair p).entryU,
          (s.pair p).entryU / 2 ^ 32].map (BitVec.ofNat 32)) ∧
      (37, s.fab) ∈ t.vdx.pulses ∧ PairsBut s t p ∧ t.mem = s.mem

/-- DONE in time commits the activation's contribution and makes the task idle, and the pair goes on as R107 says; YIELD of a background
task ends its activation, and of any other class is an ordinary ECALL; CYCLE_INFO answers the freeze cycle count and the continuations
and retires; the first instruction of an activation begins its execution time (R27, R103, R104, R115). -/
def Sys2Proof.Claims.ExecutiveCalls : Prop :=
  (∀ (p : Fin 4) (n : Nat) (td : Task) (s : State), Calls s p n td → (s.unit p).slack = none → s.clk.t ≤ s.budgetAt p → td.cls ≠ 2 →
    ∃ u : State, exec (.done p) s = .next (u.endHere p) ∧ (u.task n).st = .idle ∧
      tgetList byteD u.cyc.committed (commitKey td.group td.outOfs) td.outLen =
        tgetList byteD s.cyc.working (workKey n td.outOfs) td.outLen ∧ u.cyc.working = s.cyc.working ∧ u.mem = s.mem) ∧
  (∀ (p : Fin 4) (n : Nat) (td : Task) (s : State), Calls s p n td → td.cls = 2 →
    ∃ u : State, exec (.yield p) s = .next (u.endHere p) ∧ (u.task n).st = .idle ∧ u.cyc = s.cyc ∧ u.mem = s.mem) ∧
  (∀ (p : Fin 4) (n : Nat) (td : Task) (s : State), Calls s p n td → td.cls ≠ 2 → (s.pair p).mtvec ≠ 0 →
    ∃ t, exec (.yield p) s = .next t ∧ TakesTrap (s.execBegin p) t p 8 0) ∧
  (∀ (p : Fin 4) (n : Nat) (td : Task) (s : State), Calls s p n td → td.cls ≠ 2 →
    ∃ t, exec (.cycleInfo p) s = .next t ∧ (t.pair p).x 10 = BitVec.ofNat 64 (s.task n).frzCount ∧
      (t.pair p).x 11 = BitVec.ofNat 64 (s.task n).cont ∧ Retired s t p ((s.pair p).pc + 4) ∧
      (∀ r, r ≠ 10 → r ≠ 11 → (t.pair p).x r = (s.pair p).x r) ∧ PairsBut s t p ∧ t = { s.execBegin p with pairs := t.pairs }) ∧
  (∀ (p : Fin 4) (n : Nat) (td : Task) (s : State), Calls s p n td →
    s.execBegin p = { s with hx := (s.execBegin p).hx } ∧ s.hx.sched = (s.execBegin p).hx.sched ∧
    ((s.unit p).began = false → (s.execBegin p).task n = { s.task n with since := some s.clk.t } ∧
      (s.execBegin p).unit p = { s.unit p with began := true }) ∧
    ((s.unit p).began = true → s.execBegin p = s))

/-- ABORT by the pair itself on an open activation ends it: counted, recorded and raised, the bank held; BANK_REL gives a held bank
back; a command of another pair is ignored and recorded; HX_IDLE takes 0 and addresses in SRAM and rejects any other with an entry;
the task's counts are cleared by their command (R105, R107). -/
def Sys2Proof.Claims.ExecutiveRegisters : Prop :=
  (∀ (p : Fin 4) (s : State), s.pairFitted p = true → (s.unit p).opened = true → (s.unit p).ended = false → (s.unit p).slack = none →
    (s.unit p).task < 1024 → (∀ td, s.taskD? (s.unit p).task = some td → td.part < 256) →
    ∃ t l, exec (.abort p p) s = .next t ∧ (t.task (s.unit p).task).st = .idle ∧ (t.unit p).ended = true ∧
      (t.pair p).bankSt (s.pair p).cur = .held ∧ (t.pair p).curValid = false ∧
      t.get (F.HX_TASKSTAT1_ABORTS (s.unit p).task) = satAdd 65535 (s.get (F.HX_TASKSTAT1_ABORTS (s.unit p).task)) 1 ∧
      t.rcd.reported.map (fun r => r.code) = s.rcd.reported.map (fun r => r.code) ++ [.TASK_ABORT] ++ l ∧ (34, s.fab) ∈ t.vdx.pulses) ∧
  (∀ (w p : Fin 4) (s : State), s.pairFitted p = true → w ≠ p →
    (∃ t, exec (.abort w p) s = .next t ∧
      t.rcd.reported.map (fun r => r.code) = s.rcd.reported.map (fun r => r.code) ++ [.PAIRCMD_IGNORED] ∧ t = { s with rcd := t.rcd }) ∧
    (∃ t, exec (.bankRel w p) s = .next t ∧
      t.rcd.reported.map (fun r => r.code) = s.rcd.reported.map (fun r => r.code) ++ [.PAIRCMD_IGNORED] ∧ t = { s with rcd := t.rcd })) ∧
  (∀ (p : Fin 4) (b : Nat) (s : State), s.pairFitted p = true → (s.pair p).heldBank = some b →
    ∃ t, exec (.bankRel p p) s = .next t ∧ (t.pair p).bankSt b = (if b = (s.pair p).cur then .current else .free) ∧ PairsBut s t p ∧ t = { s with pairs := t.pairs }) ∧
  (∀ (p : Fin 4) (v : Word) (s : State), s.pairFitted p = true →
    ((v.toNat / 4 = 0 ∨ inSram (v.toNat / 4 * 4) = true) → ∃ t, exec (.hxIdleWrite p v) s = .next t ∧
      t.get (F.HX_IDLE_ADDR p) * 4 = v.toNat / 4 * 4 ∧ RegsBut s t [(F.HX_IDLE_ADDR p).off] ∧ t = { s with regs := t.regs }) ∧
    (v.toNat / 4 ≠ 0 → inSram (v.toNat / 4 * 4) = false → ∃ t, exec (.hxIdleWrite p v) s = .next t ∧
      t.rcd.reported.map (fun r => r.code) = s.rcd.reported.map (fun r => r.code) ++ [.IDLE_REJECT] ∧ t = { s with rcd := t.rcd })) ∧
  (∀ (n : Fin 1024) (s : State), ∃ t, exec (.hxTaskstatClr n) s = .next t ∧ t.get (F.HX_TASKSTAT0_OVERRUNS n) = 0 ∧
    t.get (F.HX_TASKSTAT0_ABANDONS n) = 0 ∧ t.get (F.HX_TASKSTAT1_STAGE_MISS n) = 0 ∧ t.get (F.HX_TASKSTAT1_ABORTS n) = 0 ∧
    t.get (F.HX_TASKSTAT2_MAX_EXEC n) = 0 ∧ RegsBut s t [0x21000 + n.val * 16, 0x21004 + n.val * 16, 0x21008 + n.val * 16] ∧
    t = { s with regs := t.regs })

/-! ### Memory and paging (chapter 5) -/

namespace Sys2Proof.Claims
open Sys2Proof Sys2Proof.Machine

/-- A page operation of a background task is accepted: a0 reads 0, the call retires, and the operation waits for its completion, which no
register shows before. -/
def PageOpAccepted (s t : State) (p part first count : Nat) (kind : PageOpKind) : Prop :=
  t.hxm.ops = s.hxm.ops ++ [⟨kind, part, first, count⟩] ∧ (t.pair p).x 10 = 0 ∧ Retired s t p ((s.pair p).pc + 4) ∧
  (∀ r, r ≠ 10 → (t.pair p).x r = (s.pair p).x r) ∧ PairsBut s t p ∧ t.regs = s.regs ∧ t.mem = s.mem ∧ t.rcd = s.rcd

/-- A page operation is refused with a status: a0 reads it, source 50 is raised and an entry written, and nothing else is done. -/
def PageOpRefused (s t : State) (p status : Nat) : Prop :=
  (t.pair p).x 10 = BitVec.ofNat 64 status ∧ Retired s t p ((s.pair p).pc + 4) ∧ (50, s.fab) ∈ t.vdx.pulses ∧
  t.rcd.reported.map (fun r => r.code) = s.rcd.reported.map (fun r => r.code) ++ [.PAGEOP_REFUSED] ∧
  t = { s with pairs := t.pairs, regs := t.regs, vdx := t.vdx, rcd := t.rcd }

/-- The read of a line finds errors that the code cannot correct: more than three stored symbols are wrong and no other codeword lies within
three, or a symbol of the address is (R147, R148). -/
def Uncorrectable (s : State) (e : LineErr) : Prop :=
  symCorrectable (s.symbols e) = false ∧ (e.other = none ∨ ((s.symbols e).all fun n => decide (n < 70)) = false)

end Sys2Proof.Claims

/-- PAGE_ALLOC, PAGE_FREE, PAGE_PREFETCH and PAGE_FLUSH of a background task answer status 0 and go on, or answer their error status; of any
other task they answer status 3; MEM_INFO answers the frames held and the DDR pages reserved (R145, R146). -/
def Sys2Proof.Claims.PageOperations : Prop :=
  ∀ (p : Fin 4) (n : Nat) (td : Task) (s : State), Calls s p n td →
    (td.cls = 2 → ∀ (c : Fin 4 → Instr) (k : PageOpKind),
      ((c = .pageAlloc ∧ k = .alloc) ∨ (c = .pageFree ∧ k = .free) ∨ (c = .pagePrefetch ∧ k = .prefetch) ∨ (c = .pageFlush ∧ k = .flush)) →
      (s.pageStatus k td.part ((s.pair p).x 10).toNat ((s.pair p).x 11).toNat = 0 → ∃ t, exec (c p) s = .next t ∧
        PageOpAccepted s t p td.part (((s.pair p).x 10).toNat / 4096) ((s.pair p).x 11).toNat k) ∧
      (s.pageStatus k td.part ((s.pair p).x 10).toNat ((s.pair p).x 11).toNat ≠ 0 → ∃ t, exec (c p) s = .next t ∧
        PageOpRefused (s.execBegin p) t p (s.pageStatus k td.part ((s.pair p).x 10).toNat ((s.pair p).x 11).toNat))) ∧
    (td.cls ≠ 2 → ∀ c : Fin 4 → Instr, (c = .pageAlloc ∨ c = .pageFree ∨ c = .pagePrefetch ∨ c = .pageFlush) →
      ∃ t, exec (c p) s = .next t ∧ PageOpRefused (s.execBegin p) t p 3) ∧
    (∃ t, exec (.memInfo p) s = .next t ∧ (t.pair p).x 10 = BitVec.ofNat 64 (s.held td.part) ∧
      (t.pair p).x 11 = BitVec.ofNat 64 (s.get (F.HXM_PART_DDR_RESERVED td.part)) ∧ Retired s t p ((s.pair p).pc + 4) ∧
      PairsBut s t p ∧ t = { s.execBegin p with pairs := t.pairs })

/-- At LOOKAHEAD before the next START that no request has been placed for, the pages of the window's working set are pinned and the absent
ones queued, also while the window's previous staging is held; a transfer brings the page the stager serves next into a free frame with its
home's bytes and lets the pair that stalls on it go on; in the Dusk state the stager does neither (R65, R128, R138 to R140). -/
def Sys2Proof.Claims.Staging : Prop :=
  (∀ (w m : Nat) (d : Window) (td : Task) (s u : State), s.window? w = some d → s.taskD? d.task = some td → s.alive = true →
    s.dusked = false → s.hx.frameOn = true → td.cls < 2 → td.unit < 4 →
    (s.startsOf d).find? (fun x => decide (s.clk.t ≤ s.mt x) && (s.stagedAt w x).isNone) = some m →
    u = s.advance (s.mt m - s.get F.HXM_LOOKAHEAD_LOOKAHEAD * usUt) →
    ∃ t, exec (.stagingRequest w) s = .next t ∧ t.clk = u.clk ∧
      t.hxm.staged = s.hxm.staged ++ [⟨w, m, td.part, (s.wsetOf td).eraseDups⟩] ∧
      (∀ up ∈ s.wsetOf td, (t.page (pkey td.part up)).pins = (s.page (pkey td.part up)).pins + 1) ∧
      (∀ up ∈ s.wsetOf td, (s.page (pkey td.part up)).frame = none → (s.page (pkey td.part up)).poisoned = false →
        (⟨.window w, td.part, up, m, td.unit⟩ : StageReq) ∈ t.hxm.stq) ∧
      (∀ r ∈ s.hxm.stq, r ∈ t.hxm.stq) ∧ t.mem = s.mem) ∧
  (∀ (r : StageReq) (g : Seg) (h : Nat) (d : Part) (s : State), s.nextStage = some r → s.alive = true → s.dusked = false → r.why ≠ .flush →
    (∀ m l, r.why ≠ .scrub m l) →
    s.segOf r.part r.page = some g → g.home ≠ 2 → (g.home = 3 → (s.page (pkey r.part r.page)).exist = true) → r.part < 256 → r.page < 2 ^ 20 →
    s.page (pkey r.part r.page) = { s.page (pkey r.part r.page) with frame := none, home := some h, poisoned := false } →
    s.hxm.homePoison.contains h = false → s.part? r.part = some d → s.held r.part < d.sramQuota → s.hxm.free ≠ [] → Memory.wf s.mem →
    s.stagerErrs = [] →
    ∃ t f, exec .pageTransferDone s = .next t ∧ f ∈ s.hxm.free ∧ (t.page (pkey r.part r.page)).frame = some f ∧
      (∀ i, i < 4096 → t.rd8 (frameAddr f + i) = s.rd8 (homeAddr h + i)) ∧ MemBut s t (frameAddr f) 4096 ∧
      t.hxm.stq = s.hxm.stq.erase r ∧ t.hxm.free = s.hxm.free.erase f ∧ t.clk.t = s.clk.t + 640 ∧
      (∀ p, p < 4 → (∃ td, s.taskD? (s.pair p).curBank.task = some td ∧ td.part = r.part) →
        ((s.pair p).stall = some (.stage r.page) ∨ (s.pair p).stall = some (.fill r.page)) → (t.pair p).stall = none)) ∧
  (∀ (w : Nat) (s : State), s.dusked = true →
    exec (.stagingRequest w) s = .next s ∧ exec .pageTransferDone s = .next s)

/-- A read of an absent page stalls a staged task with a stage miss and a background task without one, and asks for the page; a deadline
task outside its working set takes a load page fault with cause 4; a staged-class task that reads a resident page outside its working set
is counted and recorded as a violation and a stage miss and goes on (R140, R141, R144, R133). -/
def Sys2Proof.Claims.PageMisses : Prop :=
  ∀ (p : Fin 4) (n va up : Nat) (td : Task) (s : State), Calls s p n td → n < 1024 →
    (s.umap n va 1 .read = .miss up false → ∃ t, exec (.stageMiss p va) s = .next t ∧ (t.pair p).stall = some (.stage up) ∧
      t.get (F.HX_TASKSTAT1_STAGE_MISS n) = satAdd 65535 (s.get (F.HX_TASKSTAT1_STAGE_MISS n)) 1 ∧ (48, s.fab) ∈ t.vdx.pulses ∧
      t.rcd.reported.map (fun r => r.code) = s.rcd.reported.map (fun r => r.code) ++ [.STAGE_MISS] ∧
      (t.hxm.stq.any fun r => r.why == .miss p.val && r.part == td.part && r.page == up) = true ∧
      (t.pair p).pc = (s.pair p).pc ∧ PairsBut s t p ∧ t.mem = s.mem) ∧
    (s.umap n va 1 .read = .fill up → ∃ t, exec (.demandFill p va) s = .next t ∧ (t.pair p).stall = some (.fill up) ∧
      (t.hxm.stq.any fun r => r.why == .demand p.val && r.part == td.part && r.page == up) = true ∧
      (t.pair p).pc = (s.pair p).pc ∧ PairsBut s t p ∧ t = { s.execBegin p with pairs := t.pairs, hxm := t.hxm }) ∧
    (s.umap n va 1 .read = .violation up → (s.pair p).mtvec ≠ 0 → ∃ t, exec (.wsetViolation p va) s = .next t ∧
      Saved s t p 13 va ∧ (t.pair p).pc = (s.pair p).mtvec % 2 ^ 64 ∧ t.get (F.HXM_FAULTINFO_CAUSE p) = 4 ∧
      t.get (F.HXM_FAULTINFO_TASK p) = n ∧ (49, s.fab) ∈ t.vdx.pulses ∧
      t.rcd.reported.map (fun r => r.code) = s.rcd.reported.map (fun r => r.code) ++ [.WSET_VIOLATION] ∧ t.mem = s.mem) ∧
    (∀ a k, s.umap n va 1 .read = .mem a (some k) → td.cls = 1 → (s.wsetOf td).contains (va / 4096) = false →
      (s.unit p).seen.contains (va / 4096) = false → ∃ t, exec (.wsetViolation p va) s = .next t ∧
      t.get (F.HX_TASKSTAT1_STAGE_MISS n) = satAdd 65535 (s.get (F.HX_TASKSTAT1_STAGE_MISS n)) 1 ∧ (49, s.fab) ∈ t.vdx.pulses ∧
      (48, s.fab) ∈ t.vdx.pulses ∧
      t.rcd.reported.map (fun r => r.code) = s.rcd.reported.map (fun r => r.code) ++ [.WSET_VIOLATION, .STAGE_MISS] ∧
      t.pairs = s.pairs ∧ t.mem = s.mem)

/-- The oldest page operation of a partition completes: allocated pages exist zero-filled at homes that then count as reserved, freed ones no
longer do and their DDR pages are given back; a prefetch and a flush complete once no transfer of theirs waits (R145, R146). -/
def Sys2Proof.Claims.PageOpCompletes : Prop :=
  ∀ (part : Fin 256) (o : PageOp) (s : State), s.hxm.ops.find? (fun x => x.part == part.val) = some o → o.first + o.count ≤ 2 ^ 20 →
    (o.kind = .alloc → (∀ i, i < o.count → (s.page (pkey part (o.first + i))).exist = false) →
      ∃ t, exec (.pageOpComplete part) s = .next t ∧ t.hxm.ops = s.hxm.ops.erase o ∧
      (∀ i, i < o.count → (t.page (pkey part (o.first + i))).exist = true ∧ (t.page (pkey part (o.first + i))).frame = none ∧
        (t.page (pkey part (o.first + i))).written = false ∧ ∃ h, (t.page (pkey part (o.first + i))).home = some h ∧
          ∀ j, j < 4096 → t.rd8 (homeAddr h + j) = 0) ∧
      t.get (F.HXM_PART_DDR_RESERVED part) =
        (s.get (F.HXM_PART_DDR_RESERVED part) + o.count) % 2 ^ (F.HXM_PART_DDR_RESERVED part).w) ∧
    (o.kind = .free → (∀ i, i < o.count → (s.page (pkey part (o.first + i))).exist = true) →
      ∃ t, exec (.pageOpComplete part) s = .next t ∧ t.hxm.ops = s.hxm.ops.erase o ∧
      (∀ i, i < o.count → t.page (pkey part (o.first + i)) = PageSt.absent) ∧
      t.get (F.HXM_PART_DDR_RESERVED part) = s.get (F.HXM_PART_DDR_RESERVED part) - o.count) ∧
    (o.kind = .prefetch → s.opWaits o .prefetch = false →
      ∃ t, exec (.pageOpComplete part) s = .next t ∧ t = { s with hxm := { s.hxm with ops := s.hxm.ops.erase o } }) ∧
    (o.kind = .flush → s.opWaits o .flush = false →
      ∃ t, exec (.pageOpComplete part) s = .next t ∧ t = { s with hxm := { s.hxm with ops := s.hxm.ops.erase o } })

/-- A scrub pass counts and records each correction and, as the last memory to complete its pass, raises source 53; a pass longer than twice
its period is recorded; a symbol corrected in a third consecutive pass of SRAM is recorded; an uncorrectable error is counted, held and
recorded with source 433: in the HX private area it takes the module to the Dusk state, a written page or one without a home is poisoned,
and the frame of an unwritten copy is released; the memory error counts and a partition's peak are cleared by their commands (R134, R147 to
R152). -/
def Sys2Proof.Claims.MemoryUpkeep : Prop :=
  (∀ (m : Fin 5) (e : LineErr) (s : State), s.alive = true → m.val ≠ 0 → e.m.val = m.val → s.symbols e ≠ [] →
    symCorrectable (s.symbols e) = true → s.clk.t ≤ max (tget natD s.hxm.passAt m) s.pwr.dawnAt + 2 * s.scrubPeriod m →
    s.hxm.passed.contains m.val = false →
    ∃ t, exec (.scrubPass m [e]) s = .next t ∧
      t.get F.HXM_MEMERR_CORR = satAdd (2 ^ F.HXM_MEMERR_CORR.w - 1) (s.get F.HXM_MEMERR_CORR) 1 ∧
      t.rcd.reported.map (fun r => r.code) = s.rcd.reported.map (fun r => r.code) ++ [.MEM_CORRECTED] ∧
      tget natD t.hxm.passAt m = s.clk.t ∧
      (s.hxm.passed.length = 4 → (53, s.fab) ∈ t.vdx.pulses ∧ t.hxm.passed = []) ∧
      (s.hxm.passed.length < 4 → t.hxm.passed = m.val :: s.hxm.passed) ∧ t.mem = s.mem) ∧
  (∀ (m : Fin 5) (s : State), s.alive = true → max (tget natD s.hxm.passAt m) s.pwr.dawnAt + 2 * s.scrubPeriod m < s.clk.t →
    ∃ t, exec (.scrubPass m []) s = .next t ∧ (435, s.fab) ∈ t.vdx.pulses ∧ tget natD t.hxm.passAt m = s.clk.t ∧
      t.rcd.reported.map (fun r => r.code) = s.rcd.reported.map (fun r => r.code) ++ [.SCRUB_LAG]) ∧
  (∀ (e : LineErr) (n : Nat) (s : State), s.alive = true → e.m.val = 0 → inSram e.addr = true → s.symbols e = [n] → n < 70 →
    tget natD s.hxm.sym ((e.addr - sramBase) / 4096 * 128 + n) = 2 → s.hxm.retired.contains ((e.addr - sramBase) / 4096) = false →
    ∃ t l, exec (.scrubPass 0 [e]) s = .next t ∧ (434, s.fab) ∈ t.vdx.pulses ∧
      t.rcd.reported.map (fun r => r.code) = s.rcd.reported.map (fun r => r.code) ++ [.MEM_CORRECTED, .HARD_SYMBOL] ++ l) ∧
  (∀ (e : LineErr) (r : Option (Fin 4)) (s : State), s.alive = true → Uncorrectable s e → e.m.val = 0 → 0x11F00000 ≤ e.addr →
    s.sup.st ≠ .dusk →
    ∃ t, exec (.memUncorr e.m e.addr ⟨e.bad, e.other, r⟩) s = .next t ∧ WentDusk s t 4 ∧ Reports s t .MEM_UNCORR 0x50 [e.m.val, e.addr / 64 * 64] ∧
      t.get F.HXM_MEMERR_UNCORR = satAdd (2 ^ F.HXM_MEMERR_UNCORR.w - 1) (s.get F.HXM_MEMERR_UNCORR) 1) ∧
  (∀ (e : LineErr) (s : State), s.alive = true → Uncorrectable s e → e.m.val = 1 → ∃ t, exec (.memUncorr e.m e.addr ⟨e.bad, e.other, none⟩) s = .next t ∧
    t.poisoned e.addr = true ∧ (433, s.fab) ∈ t.vdx.pulses ∧ t.get F.HXM_MEMERR_LAST_MEM = 1 ∧ t.mem = s.mem ∧ t.pairs = s.pairs) ∧
  (∀ (e : LineErr) (k f : Nat) (g : Seg) (s : State), s.alive = true → Uncorrectable s e → e.m.val = 0 → e.addr < 0x11F00000 →
    inQstore e.addr = false → s.inMachSram e.addr = false → s.frameKey ((e.addr - sramBase) / 4096) = some k →
    s.segOf (k / 2 ^ 20) (k % 2 ^ 20) = some g → (s.page k).frame = some f →
    ∃ t, exec (.memUncorr e.m e.addr ⟨e.bad, e.other, none⟩) s = .next t ∧ t.poisoned e.addr = true ∧
      (g.home = 0 ∨ (s.page k).written = true → (t.page k).poisoned = true ∧ (51, s.fab) ∈ t.vdx.pulses) ∧
      (g.home ≠ 0 → (s.page k).written = false → (t.page k).frame = none ∧ (t.page k).lost = true)) ∧
  (∀ s : State, ∃ t, exec .hxmMemerrClr s = .next t ∧ t.get F.HXM_MEMERR_CORR = 0 ∧ t.get F.HXM_MEMERR_UNCORR = 0 ∧
    RegsBut s t [F.HXM_MEMERR_CORR.off, F.HXM_MEMERR_UNCORR.off] ∧ t = { s with regs := t.regs }) ∧
  (∀ (part : Fin 256) (s : State), ∃ t, exec (.hxmPartSramClr part) s = .next t ∧
    t.get (F.HXM_PART_SRAM_PEAK part) = s.held part % 2 ^ (F.HXM_PART_SRAM_PEAK part).w ∧ t.held part = s.held part ∧
    RegsBut s t [(F.HXM_PART_SRAM_PEAK part).off] ∧ t = { s with regs := t.regs })

/-! ### The cycle: freeze, publication, output close and output instant (chapter 1) -/

namespace Sys2Proof.Claims
open Sys2Proof Sys2Proof.Machine

/-- Presence, miss count and rejoin count of a source are these (R292). -/
def PresIs (s : State) (kind id st miss rejoin : Nat) : Prop := s.presence kind id = (st, miss, rejoin)

end Sys2Proof.Claims

/-- The cycle timer's next Gheif cycle begins one cycle length after the running one, at the count after its count, or where the bus
sets it, with source 242; at a count that is a multiple of the major frame's length a running major frame is followed by the next one,
which counts in HX_FRAME in the Run state. While the timer moves toward the cluster's, a cycle of the protocol engine that begins first
leaves the timer as it is (R17, R19, R266, R297). -/
def Obligations.CycleStart : Prop :=
  ∀ s : State, s.ticking = true →
    (s.gh.nextCycle ≠ none ∨ s.engineFirst = false →
    ∃ t n c, exec .gheifCycleStart s = .next t ∧
      (n, c) = (match s.gh.nextCycle with | some x => x | none => (s.cyc.start + s.cycleLen, (s.cyc.count + 1) % 256)) ∧
      t.cyc.start = n ∧ t.cyc.count = c ∧ t.cyc.n = s.cyc.n + 1 ∧ t.clk.t = max s.clk.t n ∧ t.pairs = (s.advance n).pairs ∧
      (242, t.fab) ∈ t.vdx.pulses ∧
      (c % s.mfLen = 0 → s.hx.frameOn = true → s.sup.st = .run →
        t.hx.frameStart = n ∧ t.hx.frameMt = (s.cyc.n + 1) * s.tgMt ∧ t.hx.frameOn = true ∧
        t.get F.HX_FRAME_W = (s.get F.HX_FRAME_W + 1) % 2 ^ 32) ∧
      (c % s.mfLen ≠ 0 → t.hx = s.hx)) ∧
    (s.gh.nextCycle = none → s.engineFirst = true →
    ∃ t, exec .gheifCycleStart s = .next t ∧ t.cyc = s.cyc ∧ t.hx = s.hx ∧ t.clk.t = max s.clk.t (s.ghCyc.1 + s.ghLen) ∧
      t.pairs = (s.advance (s.ghCyc.1 + s.ghLen)).pairs)

/-- At its freeze instant, a corrected macrotick of the cycle, a group's task cycle begins with the freeze cycle count, unpublished and open; at F in simplex its agreed image
is published as a new version, the raw image with the input forces over it (R22 steps 1 and 3, R211). -/
def Sys2Proof.Claims.FreezeAndPublish : Prop :=
  (∀ (g : Fin 4) (d : Group) (s : State), s.group? g = some d → s.cycling = true → s.cyc.count % 2 ^ d.k = d.phase →
    ¬ ((s.grp g).on = true ∧ (s.grp g).frzMt = s.cycMt + d.frzOfs) →
    ∃ t, exec (.freeze g) s = .next t ∧ (t.grp g).frz = s.mt (s.cycMt + d.frzOfs) ∧ (t.grp g).frzMt = s.cycMt + d.frzOfs ∧
      (t.grp g).frzCount = s.cyc.count ∧
      (t.grp g).on = true ∧ (t.grp g).published = false ∧ (t.grp g).closed = false ∧ (t.grp g).voteDone = false ∧
      (t.grp g).ver = (s.grp g).ver ∧ t.clk.t = max s.clk.t (s.mt (s.cycMt + d.frzOfs))) ∧
  (∀ (g : Fin 4) (d : Group) (s : State), s.group? g = some d → s.cycling = true → (s.grp g).on = true → (s.grp g).published = false →
    s.simplex = true →
    ∃ t, exec (.agrPub g) s = .next t ∧ (t.grp g).published = true ∧ (t.grp g).ver = (s.grp g).ver + 1 ∧
      (t.grp g).agreed = s.forcedImage g (s.grp g).raw ∧ t.clk.t = max s.clk.t (s.grp g).frz ∧
      (∀ h, h ≠ g.val → t.grp h = s.grp h) ∧ t.pairs = (s.advance (s.grp g).frz).pairs)

/-- At a freeze an entry presents its source's newest item stamped before the instant: GOOD with age 0 where no Gheif cycle start lies
between, else PRESENT-BUT-OLD with its age; an absent source, or one with no such item, presents its substitute: zeros, the last item
received before the absence, or the configured pattern (R23, R199). -/
def Sys2Proof.Claims.FreezeLatch : Prop :=
  ∀ (e : SigEntry) (t n : Nat) (s : State) (c : Source) (data : SrcItem → List Byte), e.kind ≠ 7 → c = s.source (srcKey e.kind e.srcId) →
    (∀ i, data i = swapUnits (s.swapOf e.kind e.srcId) e.len (padTo e.len (kindData e.kind i.it.data))) →
    (s.srcAbsent e.kind e.srcId = false →
      (∀ i, c.cur = some i → i.tm < t → (s.latchEntry e t n).1 = data i) ∧
      (∀ i j, c.cur = some i → t ≤ i.tm → c.prev = some j → j.tm < t → (s.latchEntry e t n).1 = data j) ∧
      (∀ i, c.before t = some i → (n ≤ i.n → (s.latchEntry e t n).2 = 3) ∧
        (i.n < n → (s.latchEntry e t n).2 = BitVec.ofNat 8 (min (n - i.n) 15 * 16 + 1)))) ∧
    (s.srcAbsent e.kind e.srcId = true ∨ c.before t = none →
      (e.subst ≠ 1 → e.subst ≠ 2 → s.latchEntry e t n = (List.replicate e.len 0, BitVec.ofNat 8 (15 * 16 + 4))) ∧
      (e.subst = 2 → s.latchEntry e t n = (sliceB s.cfg.subst e.patOfs e.len, BitVec.ofNat 8 (15 * 16 + 4)))) ∧
    (s.srcAbsent e.kind e.srcId = true → e.subst = 1 →
      (∀ i, c.held = some i → s.latchEntry e t n = (data i, BitVec.ofNat 8 (min (n - i.n) 15 * 16 + 4))) ∧
      (c.held = none → s.latchEntry e t n = (List.replicate e.len 0, BitVec.ofNat 8 (15 * 16 + 4)))) ∧
    (s.srcAbsent e.kind e.srcId = false → c.before t = none → e.subst = 1 →
      s.latchEntry e t n = (List.replicate e.len 0, BitVec.ofNat 8 (15 * 16 + 4)))

/-- At its output close a group offers its committed contributions, with the forces of its output variables over them, and is closed; the
vote then completes after t_V; at the output instant the enabled outputs of the held groups of the cycle group take their voted bits, in
simplex of every one of them (R22 steps 5 to 7, R211, R229). -/
def Sys2Proof.Claims.OutputSteps : Prop :=
  (∀ (g : Fin 4) (d : Group) (s u : State), s.group? g = some d → s.cycling = true → (s.grp g).on = true → (s.grp g).closed = false →
    u = (((s.advance (s.outCloseAt g)).zeroRegions g).doWrites g).applyForces 2 g →
    ∃ t, exec (.outLatch g) s = .next t ∧ (t.grp g).closed = true ∧ t.clk.t = max s.clk.t (s.outCloseAt g) ∧
      (t.grp g).offered = (u.forcesOn 2 g).foldl (fun (img : Tbl Byte) f => f.over img)
        (ofImage (tgetList byteD u.cyc.committed (commitKey g 0) d.outBytes)) ∧
      (s.hx.zero = [] → s.cyc.varWrites = [] → s.cyc.forces = [] → t.cyc.committed = s.cyc.committed ∧
        (t.grp g).offered = ofImage (tgetList byteD s.cyc.committed (commitKey g 0) d.outBytes))) ∧
  (∀ (g : Fin 4) (seen : BitVec 3) (d : Group) (s : State), s.group? g = some d → s.cycling = true → (s.grp g).on = true →
    (s.grp g).closed = true → (s.grp g).voteDone = false → s.inRun = true → (s.simplex = true ∨ s.joined g = true) →
    ∃ t, exec (.voteComplete ⟨g, seen⟩) s = .next t ∧ (t.grp g).voteDone = true ∧
      t.clk.t = max s.clk.t (s.outCloseAt g + s.tlTime (s.outBytes g)) ∧
      (s.simplex = true → ∀ i, i < d.outBytes → tget byteD (t.grp g).voted i = tget byteD (s.grp g).offered i)) ∧
  (∀ (g : Fin 4) (d : Group) (s : State), s.group? g = some d → s.cycling = true → (s.grp g).on = true → (s.grp g).voteDone = true →
    s.inRun = true →
    ∃ t, exec (.outGo g) s = .next t ∧ (s.simplex = true → ∀ k, k ∈ s.ogroups g → t.holds k = true) ∧
      ((∀ k, (s.lease k).hand = none ∧ (s.lease k).claim = none ∧ (s.lease k).mine = none) →
        (t.grp g).voteDone = true ∧ t.clk.t = max s.clk.t (s.outInstAt g)) ∧
      ((∀ k, (s.lease k).hand = none ∧ (s.lease k).claim = none ∧ (s.lease k).mine = none) → s.connIds = [] → s.sioFitted = true →
        ∀ m, m < 8 → s.doEn m = true → s.flag (F.TVL_OGRP_EN (s.get (F.SIO_DOCFG_OGRP m))) = true →
        s.get (F.TVL_OGRP_CGRP (s.get (F.SIO_DOCFG_OGRP m))) = g →
        (s.simplex = true ∨ s.holds (s.get (F.SIO_DOCFG_OGRP m)) = true) →
        t.flag (F.SIO_DOSTAT_CMD m) =
          (tget byteD (s.grp g).voted (s.get (F.SIO_DOCFG_BITADDR m) / 8)).getLsbD (s.get (F.SIO_DOCFG_BITADDR m) % 8)))

/-- At a counting instant a source with a new item is present with its miss count 0, or counts toward its return where it was absent;
without one it misses, and becomes ABSENT at its miss limit, which is recorded (R292). -/
def Sys2Proof.Claims.PresenceCounting : Prop :=
  (∀ (kind : Fin 8) (src x : Nat) (s : State), s.countAt kind src = some x → s.cycling = true → s.keepsPresence kind src = true →
    (kind.val ≠ 1 → exec (.presenceCount kind src) s =
      .next ((s.advance x).presCount kind src ((s.advance x).source (srcKey kind src)).fresh)) ∧
    (kind.val = 1 → exec (.presenceCount kind src) s =
      .next (((s.advance x).modGh fun h => { h with fresh := h.fresh.filter fun i => i != src }).presCount 1 src (s.gh.fresh.contains src)))) ∧
  (∀ (id miss rejoin : Nat) (s : State), id < 1024 →
    (∀ st, st ≠ 2 → PresIs s 2 id st miss rejoin → PresIs (s.presCount 2 id true) 2 id st 0 rejoin ∧
      (s.presCount 2 id true).rcd = s.rcd) ∧
    (PresIs s 2 id 2 miss rejoin → rejoin + 1 < (s.limits 2 id).2 → rejoin + 1 < 16 → PresIs (s.presCount 2 id true) 2 id 2 miss (rejoin + 1)) ∧
    (PresIs s 2 id 2 miss rejoin → (s.limits 2 id).2 ≤ rejoin + 1 → PresIs (s.presCount 2 id true) 2 id 1 0 0 ∧
      (s.presCount 2 id true).rcd.reported.map (fun r => r.code) = s.rcd.reported.map (fun r => r.code) ++ [.STATION_RETURN] ∧
      (273, s.fab) ∈ (s.presCount 2 id true).vdx.pulses) ∧
    (∀ st, st ≠ 2 → PresIs s 2 id st miss rejoin → miss + 1 < (s.limits 2 id).1 → miss < 65535 →
      PresIs (s.presCount 2 id false) 2 id st (miss + 1) rejoin ∧ (s.presCount 2 id false).rcd = s.rcd) ∧
    (∀ st, st ≠ 2 → PresIs s 2 id st miss rejoin → (s.limits 2 id).1 ≤ miss + 1 → miss < 65535 →
      PresIs (s.presCount 2 id false) 2 id 2 (miss + 1) 0 ∧
      (s.presCount 2 id false).rcd.reported.map (fun r => r.code) = s.rcd.reported.map (fun r => r.code) ++ [.STATION_ABSENT] ∧
      (272, s.fab) ∈ (s.presCount 2 id false).vdx.pulses))

/-! ### Power and clocks (chapter 20) -/

/-- A gated pair's request for its clock is made 2 us before its next window, and a stopped pair's for its PLL 22 us before it, or
earlier where another PLL is to start; a pair whose PLL locks runs from the lock instant on (R30, R496). -/
def Sys2Proof.Claims.WakeRequests : Prop :=
  (∀ (p : Fin 4) (w st : Nat) (s : State), s.pairFitted p = true → s.get (F.PWR_PAIRCLK_STATE p) = 1 → s.wantWin p = some (w, st) →
    ∃ t, exec (.ungateRequest p) s = .next t ∧ t.clk.t = max s.clk.t (st - 2 * usUt) ∧
      (t.pwr.waiting.any fun r => r.rank == 1 && r.unit == p.val) = true ∧ (∀ r ∈ s.pwr.waiting, r ∈ t.pwr.waiting)) ∧
  (∀ (p : Fin 4) (w st : Nat) (s : State), s.pairFitted p = true → s.get (F.PWR_PAIRCLK_STATE p) = 2 → s.wantWin p = some (w, st) →
    ∃ t x, exec (.pllRestartRequest p) s = .next t ∧ x ≤ st - 22 * usUt ∧ t.clk.t = max s.clk.t x ∧
      ((∀ q, q < 4 → q ≠ p.val → s.get (F.PWR_PAIRCLK_STATE q) ≠ 2) → x = st - 22 * usUt) ∧
      (t.pwr.waiting.any fun r => r.rank == 2 && r.unit == p.val) = true ∧ (∀ r ∈ s.pwr.waiting, r ∈ t.pwr.waiting)) ∧
  (∀ (p : Fin 4) (s : State), s.get (F.PWR_PAIRCLK_STATE p) = 3 → ∃ u : State, exec (.pllLocked p) s = .next (u.tryOpen p) ∧
    u.get (F.PWR_PAIRCLK_STATE p) = 0 ∧ u.clk.t = max s.clk.t (tget natD s.pwr.lockAt p) ∧ u.awake p = true)

/-- The arbiter judges at the next whole microsecond of FRC: the lowest-ranked waiting request that fits the power not yet used is
granted, a clock request always; one that does not fit waits on, older by one, and DEFERRED counts (R31, R497, R498). -/
def Sys2Proof.Claims.Arbitration : Prop :=
  (∀ (m : Nat) (settled : List (Nat × Nat)) (s : State), s.alive = true → s.clk.frcOn = true →
    ∃ t, exec (.arbitrationWindow m settled) s = .next t ∧
      t.clk.t = max s.clk.t (s.clk.frcBase + roundUp (s.clk.t - s.clk.frcBase) usUt) ∧ t.pwr.budgetNext = none ∧
      (∀ b, s.pwr.budgetNext = some b → t.get F.PWR_BUDGET_BUDGET = b % 2 ^ F.PWR_BUDGET_BUDGET.w) ∧
      (s.pwr.budgetNext = none → t.get F.PWR_BUDGET_BUDGET = s.get F.PWR_BUDGET_BUDGET) ∧
      (∀ r ∈ t.pwr.waiting, ∃ q ∈ s.pwr.waiting, r = { q with age := q.age + 1 }) ∧
      ((∀ r ∈ s.pwr.waiting, 1 ≤ r.rank) → ∀ r ∈ t.pwr.waiting, r.rank ≠ 1)) ∧
  (∀ (m : Nat) (r : PwrReq) (s : State), s.alive = true → s.clk.frcOn = true → s.pwr.budgetNext = none → s.pwr.charges = [] →
    s.pwr.waiting = [r] →
    (r.rank = 1 → r.unit < 4 → s.get (F.PWR_PAIRCLK_STATE r.unit) = 1 → ∃ t, exec (.arbitrationWindow m []) s = .next t ∧
      t.clk.t = max s.clk.t (s.clk.frcBase + roundUp (s.clk.t - s.clk.frcBase) usUt) ∧ t.pwr.waiting = [] ∧
      t.get (F.PWR_PAIRCLK_STATE r.unit) = 0 ∧ t.pwr.charges = [⟨1, r.unit, r.cost, none⟩] ∧
      tget natD t.pwr.awakeAt r.unit = t.clk.t + 8) ∧
    (r.rank = 2 → r.unit < 4 → s.get (F.PWR_PAIRCLK_STATE r.unit) = 2 → (r.cost : Int) ≤ (s.get F.PWR_BUDGET_BUDGET : Int) - m →
      ∃ t, exec (.arbitrationWindow m []) s = .next t ∧ t.pwr.waiting = [] ∧ t.get (F.PWR_PAIRCLK_STATE r.unit) = 3 ∧
      tget natD t.pwr.lockAt r.unit = t.clk.t + 20 * usUt ∧
      t.get (F.PWR_PAIRCLK_STARTS r.unit) = satAdd 65535 (s.get (F.PWR_PAIRCLK_STARTS r.unit)) 1) ∧
    (1 < r.rank → (s.get F.PWR_BUDGET_BUDGET : Int) - m < (r.cost : Int) → ∃ t, exec (.arbitrationWindow m []) s = .next t ∧
      t.pwr.waiting = [{ r with age := r.age + 1 }] ∧ t.pwr.charges = [] ∧
      t.get F.PWR_ARBCNT_DEFERRED = satAdd 32767 (s.get F.PWR_ARBCNT_DEFERRED) 1 ∧
      (r.age = 9 → (428, t.fab) ∈ t.vdx.pulses ∧ t.get F.PWR_ARBCNT_LONG_WAIT = satAdd 255 (s.get F.PWR_ARBCNT_LONG_WAIT) 1)))

/-- A reference more than 300 ppm off, a lost lock of a clock in use, and a failed self-check or mismatch of the supervisor take the
module to the Dusk state with cause 5; a clock fault raises source 430 and its entry names the clock (R432, R436, R489). -/
def Sys2Proof.Claims.ClockAndSupervisorFaults : Prop :=
  ∀ s : State, s.alive = true → s.sup.st ≠ .dusk →
    (∀ ppm, 300 < ppm → s.clk.frcOn = true → ∃ t, exec (.clockCheck ppm) s = .next t ∧ WentDusk s t 5 ∧ Reports s t .CLOCK_FAULT 0xF0 [0] ∧
      (430, s.fab) ∈ t.vdx.pulses) ∧
    (∀ ppm, ppm ≤ 300 → exec (.clockCheck ppm) s = .next s) ∧
    (∀ k, k < 8 → s.clk.frcOn = true → ∃ t, exec (.pllLockLost k) s = .next t ∧ WentDusk s t 5 ∧ Reports s t .CLOCK_FAULT 0xF0 [k]) ∧
    (∀ p, p < 4 → s.clk.frcOn = true → s.pairFitted p = true → s.get (F.PWR_PAIRCLK_STATE p) < 2 →
      ∃ t, exec (.pllLockLost (8 + p)) s = .next t ∧ WentDusk s t 5 ∧ Reports s t .CLOCK_FAULT 0xF0 [8 + p]) ∧
    (∃ t, exec .supSelfcheckFail s = .next t ∧ WentDusk s t 5) ∧ (∃ t, exec .supervisorMismatch s = .next t ∧ WentDusk s t 5)

/-- Measured power above the budget counts, raises source 427 and is recorded; a night capacitor below 2.0 V raises source 429; the arbiter
counters are cleared by their command (R499, R503). -/
def Sys2Proof.Claims.PowerMeasurements : Prop :=
  (∀ (a : Nat) (s : State), s.alive = true →
    (s.get F.PWR_BUDGET_BUDGET < a → ∃ t, exec (.budgetCheck a) s = .next t ∧ t.get F.PWR_BUDGET_MEAS = min a 0xFFFF ∧
      t.get F.PWR_ARBCNT_EXCEED = satAdd 255 (s.get F.PWR_ARBCNT_EXCEED) 1 ∧ (427, s.fab) ∈ t.vdx.pulses ∧
      t.rcd.reported.map (fun r => r.code) = s.rcd.reported.map (fun r => r.code) ++ [.BUDGET_EXCEED] ∧
      t = { s with regs := t.regs, vdx := t.vdx, rcd := t.rcd }) ∧
    (a ≤ s.get F.PWR_BUDGET_BUDGET → ∃ t, exec (.budgetCheck a) s = .next t ∧ t.get F.PWR_BUDGET_MEAS = min a 0xFFFF ∧
      RegsBut s t [F.PWR_BUDGET_MEAS.off] ∧ t = { s with regs := t.regs })) ∧
  (∀ (v : Nat) (s : State), s.alive = true → v < 512 → ∃ t, exec (.nightCapLow v) s = .next t ∧ t.get F.PWR_NIGHT_VCAP = v ∧
    (v < 200 → (429, s.fab) ∈ t.vdx.pulses) ∧ (200 ≤ v → t.vdx = s.vdx) ∧ t = { s with regs := t.regs, vdx := t.vdx }) ∧
  (∀ s : State, ∃ t, exec .pwrArbcntClr s = .next t ∧ t.get F.PWR_ARBCNT_DEFERRED = 0 ∧ t.get F.PWR_ARBCNT_LONG_WAIT = 0 ∧
    t.get F.PWR_ARBCNT_EXCEED = 0 ∧ RegsBut s t [F.PWR_ARBCNT_CLR.off] ∧ t = { s with regs := t.regs })

/-- The supervisor's copies of the power-cycle and operating-hours counters take their values; a read of PWR_OPTIME_LO latches the upper
half; without supply and with the capacitor down the clock and the operating-hours counter are lost; holdup is announced, and a supply
that returns during it ends it with an entry; a position that changes under power is recorded, and the sampled one stays (R490, R491,
R492, R506). -/
def Sys2Proof.Claims.NightDomain : Prop :=
  (∀ s : State, s.alive = true → ∃ t, exec .counterCopy s = .next t ∧ t.pwr.pccCopy = s.pwr.pcc ∧ t.pwr.opCopy = s.optime ∧
    t = { s with pwr := { s.pwr with pccCopy := t.pwr.pccCopy, opCopy := t.pwr.opCopy } }) ∧
  (∀ s : State, ∃ t, exec .optimeRead s = .next t ∧ t = { s with pwr := { s.pwr with opHiLatch := s.optime / 2 ^ 32 } }) ∧
  (∀ s : State, s.sup.st = .night → ∃ t, exec .nightValidClear s = .next t ∧ t.pwr.nightValid = false ∧ t.pwr.rtc = 0 ∧ t.optime = 0 ∧
    t.regs = s.regs ∧ t.mem = s.mem) ∧
  (∀ s : State, s.pwr.good = true → s.pwr.holdupSince = none → ∃ t, exec .holdupEnter s = .next t ∧ t.pwr.holdupSince = some s.clk.t ∧
    t.get F.PWR_STAT_SUPPLY = 1 ∧ (424, s.fab) ∈ t.vdx.pulses ∧ t = { s with regs := t.regs, vdx := t.vdx, pwr := t.pwr }) ∧
  (∀ (x : Nat) (s : State), s.pwr.holdupSince = some x → s.pwr.warned = false → ∃ t, exec .supplyDip s = .next t ∧
    t.pwr.holdupSince = none ∧ t.get F.PWR_STAT_SUPPLY = 0 ∧ (425, s.fab) ∈ t.vdx.pulses ∧
    (∃ r, t.rcd.reported = s.rcd.reported ++ [r] ∧ r.code = .SUPPLY_DIP ∧ r.words = [BitVec.ofNat 32 ((s.clk.t - x) / usUt)])) ∧
  (∀ (pos : Fin 4) (s : State), s.pwr.good = true → pos.val ≠ s.ident.pos → ∃ t, exec (.posChanged pos) s = .next t ∧ t.ident = s.ident ∧
    t.pwr = { s.pwr with posPins := pos.val } ∧
    t.rcd.reported.map (fun r => r.code) = s.rcd.reported.map (fun r => r.code) ++ [.POS_CHANGED])

/-! ### Online change and retentive saves (chapters 4 and 7) -/

/-- At the agreed major-frame boundary the schedule image is replaced, and with a change the image set takes effect; values are copied out
in the major frame before it, set-ups end at their change intervals, and step 7 reports the end (R118, R208). -/
def Sys2Proof.Claims.ChangeSteps : Prop :=
  (∀ (n : Nat) (c : Change) (s : State), s.hx.switchPend = some n → s.cyc.change = some c → s.hx.frameOn = true →
    s.get F.TVL_MFC_W = c.bMfc → c.switched = false →
    ∃ t, exec .schedSwitch s = .next t ∧ t.hx.sched = setSched (s.setTbl n) ∧ t.hx.hasSched = true ∧ t.hx.switchPend = none ∧
      t.hx.tasks = [] ∧ t.get F.HX_SCHEDID_W = t.hx.sched.schedId % 2 ^ 32 ∧ (40, s.fab) ∈ t.vdx.pulses) ∧
  (∀ (u : Nat) (c : Change) (s : State), s.cyc.change = some c → u ∈ c.changed → u ∉ c.copied → c.switched = false →
    s.hx.frameOn = true → (s.get F.TVL_MFC_W + 1) % 2 ^ 32 = c.bMfc →
    ∃ v : State, v = s.advance (s.lastEnd u) ∧
      (∀ bad, ∃ t d, exec (.carryCopyOut u bad) s = .next t ∧ t.cyc.change = some d ∧ d.copied = u :: c.copied ∧ d.set = c.set ∧
        d.switched = false ∧ t = { v with cyc := { v.cyc with change := some d }, rcd := t.rcd } ∧
        (∀ x ∈ v.carriedVars (v.progsOf c.set) u, x.1.ident ∈ bad ∨ v.varBad x.2 = true →
          ∃ r ∈ t.rcd.reported, r.code = .CARRY_LOST ∧ r.words = [BitVec.ofNat 32 x.1.ident]) ∧
        (∀ x ∈ v.carriedBlocks (v.progsOf c.set) u, x.1.ident ∈ bad ∨ v.blockBad x.2 = true →
          ∃ r ∈ t.rcd.reported, r.code = .CARRY_LOST ∧ r.words = [BitVec.ofNat 32 x.1.ident])) ∧
      ((∀ x ∈ v.carriedVars (v.progsOf c.set) u, v.varBad x.2 = false) →
        (∀ x ∈ v.carriedBlocks (v.progsOf c.set) u, v.blockBad x.2 = false) → ∃ t d, exec (.carryCopyOut u []) s = .next t ∧ t.cyc.change = some d ∧ (∀ y ∈ c.carried, y ∈ d.carried) ∧
          (∀ x ∈ v.carriedVars (v.progsOf c.set) u, (⟨x.1.ident, u, v.varBytes x.2 0 x.2.size⟩ : Carried) ∈ d.carried) ∧
          (∀ x ∈ v.carriedBlocks (v.progsOf c.set) u, (⟨blockIdent x.1.ident, u, v.blockData x.2⟩ : Carried) ∈ d.carried))) ∧
  (∀ (c : Change) (s : State), s.cyc.change = some c → s.hx.frameOn = true → s.get F.TVL_MFC_W = c.bMfc → c.switched = false →
    ∃ t d, exec .changeSwitch s = .next t ∧ t.sup.activeSet = some c.set ∧ t.prog = s.progsOf c.set ∧ t.clk = s.clk ∧
      t.cyc.change = some d ∧ d.switched = true ∧ d.bAt = s.clk.t ∧ d.setup = c.changed ∧ d.set = c.set ∧
      t.cyc.changeGen = (if c.changed = [] then (s.cyc.changeGen + 1) % 2 ^ 32 else s.cyc.changeGen)) ∧
  (∀ (u : Nat) (c : Change) (s : State), s.cyc.change = some c → c.switched = true → u ∈ c.setup → s.sup.st ≠ .dusk →
    ∃ t, exec (.changeSetupDone u) s = .next t ∧
      t.clk.t = max s.clk.t (c.bAt + ((c.cp.find? fun x => x.1 == u).map fun x => x.2).getD 0) ∧
      ((∀ x ∈ c.setup, x = u) → c.notified = true → t.cyc.change = none) ∧
      ((∀ x ∈ c.setup, x = u) → t.cyc.changeGen = (s.cyc.changeGen + 1) % 2 ^ 32) ∧
      ((∃ x ∈ c.setup, x ≠ u) → t.cyc.changeGen = s.cyc.changeGen ∧
        t.cyc.change = some { c with setup := c.setup.filter fun x => x != u })) ∧
  (∀ (c : Change) (s : State), s.cyc.change = some c → c.switched = true → c.notified = false → c.bAt < s.hx.frameStart →
    s.hx.frameOn = true →
    ∃ t r, exec .changeDone s = .next t ∧ t.rcd.reported = s.rcd.reported ++ [r] ∧ r.code = .CHANGE_DONE ∧
      (∀ o, s.sup.longOp = some o → o.opc = 0x13 → o.outcome = none → t.sup.longOp = some { o with outcome := some (0, []) }) ∧
      t.cyc.change = (if c.setup = [] then none else some { c with notified := true }) ∧
      t = { s with rcd := t.rcd, sup := { s.sup with longOp := t.sup.longOp }, cyc := { s.cyc with change := t.cyc.change } })

/-- A granted burst writes up to 64 lines of a copy in eMRAM, header, check sequence and data; a snapshot that needs more goes on with the
next burst. A first copy takes a free place, a second one another, and a third save is written over the older of the two, its sequence
number one above the newer's (R203, R126). -/
def Sys2Proof.Claims.SaveBursts : Prop :=
  ∀ (x : Snapshot) (s : State), s.sup.st = .run → s.cyc.leaving = false → s.cyc.saves = [x] →
    (s.pwr.granted.any fun r => r.rank == 4 && r.unit == 1) = true →
    (0 < x.done → 64 < x.lines - x.done → ∃ t, exec .retainSaveBurst s = .next t ∧ t.cyc.saves = [{ x with done := x.done + 64 }] ∧
      (t.pwr.waiting.any fun r => r.rank == 4 && r.unit == 1) = true ∧
      t.rdBytes (x.place + 64 * x.done) 4096 = ((retImage x.ident x.seq x.prog x.data).drop (64 * x.done)).take 4096 ∧
      (∀ a, a < x.place + 64 * x.done ∨ x.place + 64 * (x.done + 64) ≤ a → t.rd8 a = s.rd8 a) ∧
      t.cyc.copies = s.cyc.copies ∧ t.regs = s.regs) ∧
    (0 < x.done → x.lines - x.done ≤ 64 → ∃ t, exec .retainSaveBurst s = .next t ∧
      t.rdBytes (x.place + 64 * x.done) (64 * (x.lines - x.done)) =
        (padTo (64 * x.lines) (retImage x.ident x.seq x.prog x.data)).drop (64 * x.done) ∧
      (∀ a, a < x.place + 64 * x.done ∨ x.place + 64 * x.lines ≤ a → t.rd8 a = s.rd8 a) ∧
      t = { s with cyc := { s.cyc with saves := [] }, mem := t.mem, poison := t.poison, pwr := t.pwr }) ∧
    (x.done = 0 → x.lines ≤ 64 → s.cyc.copies.length < 512 →
      (∀ c ∈ s.cyc.copies, s.copyHits (s.newPlace (64 * x.lines)) (64 * x.lines) c = false) →
      ((∀ c ∈ s.cyc.copies, s.copyIdent c ≠ x.ident) → ∃ t, exec .retainSaveBurst s = .next t ∧ t.cyc.saves = [] ∧
        t.cyc.copies = s.cyc.copies ++ [s.newPlace (64 * x.lines)] ∧
        t.rdBytes (s.newPlace (64 * x.lines)) (64 * x.lines) = padTo (64 * x.lines) (retImage x.ident 1 x.prog x.data)) ∧
      (∀ a, (s.cyc.copies.filter fun c => s.copyIdent c == x.ident) = [a] → s.copyLen a = x.data.length →
        ∃ t, exec .retainSaveBurst s = .next t ∧ t.cyc.saves = [] ∧ t.cyc.copies = s.cyc.copies ++ [s.newPlace (64 * x.lines)] ∧
        t.rdBytes (s.newPlace (64 * x.lines)) (64 * x.lines) =
          padTo (64 * x.lines) (retImage x.ident ((s.copySeq a + 1) % 2 ^ 32) x.prog x.data))) ∧
    (∀ a b old new, x.done = 0 → x.lines ≤ 64 → (s.cyc.copies.filter fun c => s.copyIdent c == x.ident) = [a, b] → a ≠ b →
      s.copyLen a = x.data.length → s.copyLen b = x.data.length → (old = a ∧ new = b ∨ old = b ∧ new = a) → s.olderCopy a b = old →
      ∃ t, exec .retainSaveBurst s = .next t ∧ t.cyc.saves = [] ∧ t.cyc.copies = s.cyc.copies ∧
        t.rdBytes old (64 * x.lines) = padTo (64 * x.lines) (retImage x.ident ((s.copySeq new + 1) % 2 ^ 32) x.prog x.data) ∧
        (∀ i, i < old ∨ old + 64 * x.lines ≤ i → t.rd8 i = s.rd8 i))

/-! ### The Tri-link: frames, agreement, links (chapter 8) -/

namespace Sys2Proof.Claims
open Sys2Proof Sys2Proof.Machine

/-- A frame meets the checks of R215 and R244 on a port that is up: a right check sequence, a legal type of the right length, nothing
reserved set, the cabled sender, the running task cycle, and no copy of it taken before. -/
def Acceptable (s : State) (p : Nat) (f : TlFrame) (typ : Nat) : Prop :=
  s.alive = true ∧ s.flag (F.TVL_LINKSTAT_UP p) = true ∧ f.ok = true ∧ f.typ = typ ∧ 1 ≤ typ ∧ typ ≤ 6 ∧ f.rsv = false ∧
  s.tlLenOk f = true ∧ f.sender = s.cabled p ∧ s.tlOther f = false ∧
  ((s.peer f.sender).taken ++ (s.peer f.sender).copies).find? (fun c => tlCopy c f) = none

/-- The frame is taken, and the state `u` holds what its header says of its sender. -/
def Taken (s : State) (p : Nat) (f : TlFrame) (typ : Nat) (u : State) : Prop := s.tlTake p f typ = (u, true)

end Sys2Proof.Claims

/-- A frame that meets its checks is taken: its sender's position, state and instant are noted. A bad check sequence counts, and 16 in a
row take the link down; an unexpected sender takes it down at once; a frame of another task cycle counts as a violation, and an illegal
one is recorded besides (R215, R216, R244). -/
def Sys2Proof.Claims.TriLinkFrames : Prop :=
  ∀ (p : Fin 2) (f : TlFrame) (s : State),
    (∀ typ, Acceptable s p f typ → 1 ≤ f.sender → f.sender ≤ 3 → ∃ u, Taken s p f typ u ∧ (u.peer f.sender).last = some s.clk.t ∧
      (u.peer f.sender).mstate = f.mstate ∧ u.get (F.TVL_LINKSTAT_PEER_POS p) = f.sender ∧ tget natD u.tvl.bad p = 0 ∧
      u.mstate = s.mstate ∧ u.sup = s.sup ∧ u.mem = s.mem ∧ u.cyc = s.cyc ∧ u.clk = s.clk ∧
      (f.mstate ≠ 4 → u.isMember f.sender = false) ∧
      (1 ≤ s.mstate → s.mstate ≤ 4 → f.mstate = 4 → s.sup.st = .run → (s.peer f.sender).out = false → u.isMember f.sender = true) ∧
      ((s.peer f.sender).out = true → s.isMember f.sender = false → u.isMember f.sender = false)) ∧
    (s.alive = true → s.flag (F.TVL_LINKSTAT_UP p) = true → f.ok = false → ∃ t, exec (.rawFrameRx p f) s = .next t ∧
      t.get (F.TVL_LINKCNT_CRC_ERR p) = satAdd (2 ^ (F.TVL_LINKCNT_CRC_ERR p).w - 1) (s.get (F.TVL_LINKCNT_CRC_ERR p)) 1 ∧
      t.rcd.reported.map (fun r => r.code) = s.rcd.reported.map (fun r => r.code) ++ [.TRANSIT_FAIL] ∧
      (tget natD s.tvl.bad p < 15 → t.flag (F.TVL_LINKSTAT_UP p) = true ∧ tget natD t.tvl.bad p = tget natD s.tvl.bad p + 1) ∧
      (15 ≤ tget natD s.tvl.bad p → t.flag (F.TVL_LINKSTAT_UP p) = false ∧ (218, s.fab) ∈ t.vdx.pulses)) ∧
    (s.alive = true → s.flag (F.TVL_LINKSTAT_UP p) = true → f.ok = true → 1 ≤ f.typ → f.typ ≤ 6 → f.rsv = false → s.tlLenOk f = true →
      f.sender ≠ s.cabled p → ∃ t, exec (.rawFrameRx p f) s = .next t ∧ t.flag (F.TVL_LINKSTAT_UP p) = false ∧
      t.flag (F.TVL_LINKSTAT_POS_ERR p) = true ∧ t.tvl.raws = s.tvl.raws ∧ (t.peer f.sender).last = (s.peer f.sender).last) ∧
    (s.alive = true → s.flag (F.TVL_LINKSTAT_UP p) = true → f.ok = true → (f.typ < 1 ∨ 6 < f.typ ∨ f.rsv = true ∨ s.tlLenOk f = false) →
      ∃ t, exec (.rawFrameRx p f) s = .next t ∧
      t.get (F.TVL_LINKCNT_VIOLATION p) = satAdd (2 ^ (F.TVL_LINKCNT_VIOLATION p).w - 1) (s.get (F.TVL_LINKCNT_VIOLATION p)) 1 ∧
      (222, s.fab) ∈ t.vdx.pulses ∧ t.tvl.raws = s.tvl.raws ∧ t.tvl.peers = s.tvl.peers)

/-- A RAW, DIG or OUT frame that is taken stands for its sender in the running task cycle: RAW until the own digest has been sent, DIG and
OUT until their deadlines; the digest goes out over the images received, and the agreement marks the task cycle by the digests (R222,
R223, R225). -/
def Sys2Proof.Claims.Agreement : Prop :=
  (∀ (p : Fin 2) (f : TlFrame) (s u : State),
    (Taken s p f 1 u → u.ownDig f.group = none → exec (.rawFrameRx p f) s =
      .next { u with tvl := { u.tvl with raws := tput noneD u.tvl.raws (f.group * 4 + f.sender) (some f.payload) } }) ∧
    (Taken s p f 1 u → u.ownDig f.group ≠ none → exec (.rawFrameRx p f) s = .next u) ∧
    (Taken s p f 2 u → u.clk.t + 16 ≤ u.agrDl f.group → ∃ t d, exec (.digFrameRx p f) s = .next t ∧ t.digOf f.group f.sender = some d ∧
      d.mask = fieldLe f.payload 0 1 ∧ d.digest = fieldLe f.payload 4 4 ∧ t = { u with tvl := { u.tvl with digs := t.tvl.digs } }) ∧
    (Taken s p f 2 u → u.agrDl f.group < u.clk.t + 16 → exec (.digFrameRx p f) s = .next u) ∧
    (∀ d, Taken s p f 3 u → u.group? f.group = some d → u.clk.t + 32 ≤ u.outInstAt f.group →
      ∃ t o, exec (.outFrameRx p f) s = .next t ∧ t.outOf f.group f.sender = some o ∧ o.abstain = f.abstain ∧ o.image = f.payload.drop 8 ∧
        o.req = fieldLe f.payload 0 2 ∧ o.csign = fieldLe f.payload 2 2 ∧ t = { u with tvl := { u.tvl with outs := t.tvl.outs } })) ∧
  (∀ (g : Fin 4) (s : State), s.joined g = true → s.simplex = false → (s.grp g).on = true → s.ownDig g = none →
    (s.grp g).published = false → ∃ t d, exec (.digSend g) s = .next t ∧ t.ownDig g = some d ∧
      t.clk.t = (if s.rawMissing g then max s.clk.t (s.agrDl g - 720) else s.clk.t) ∧
      (∀ q, 1 ≤ q → q ≤ 3 → (d.mask.testBit (q - 1) = true ↔ q = s.pos ∨ (s.rawOf g q).isSome = true)) ∧
      d.digest = crc32c (agree (tget nilD s.cfg.agr g) (s.inBytes g) (s.rawsOf g d.mask)).1 ∧ t.grp g = s.grp g) ∧
  (∀ (g : Fin 4) (d : TlDig) (s : State), s.ownDig g = some d → (s.grp g).on = true → (s.grp g).published = false →
    s.joined g = true →
    ∃ t peers mask, exec (.agreementFix g) s = .next t ∧
      peers = ([1, 2, 3].filterMap fun q => if q = s.pos then none else (s.digOf g q).map fun c => c.digest) ∧
      mask = (if peers = [] then 2 ^ (s.pos - 1) else d.mask) ∧
      t.clk.t = max s.clk.t ((s.grp g).frz + s.tlTime (s.inBytes g)) ∧ (t.grp g).contributors = mask ∧
      (t.grp g).agreed = ofImage (agree (tget nilD s.cfg.agr g) (s.inBytes g) (s.rawsOf g mask)).1 ∧
      ((peers = [] ∨ d.digest ∈ peers) → (t.grp g).marking = 0) ∧
      (∀ a, d.digest ≠ a → peers = [a, a] → (t.grp g).marking = 1 ∧ (s.mstate ≠ 4 → (208, t.fab) ∈ t.vdx.pulses ∧
        t.get F.TVL_AGRCNT_ABSTAIN = satAdd (2 ^ F.TVL_AGRCNT_ABSTAIN.w - 1) (s.get F.TVL_AGRCNT_ABSTAIN) 1)) ∧
      (∀ a, d.digest ≠ a → peers = [a] → (t.grp g).marking = 2 ∧ (s.mstate ≠ 4 → (209, t.fab) ∈ t.vdx.pulses)) ∧
      (∀ a b, d.digest ≠ a → d.digest ≠ b → a ≠ b → peers = [a, b] → (t.grp g).marking = 2 ∧
        (s.mstate ≠ 4 → (209, t.fab) ∈ t.vdx.pulses)))

/-- Agreement takes the bit-wise majority of three images, the AND or the OR of two, and the median of three numbers (R219, R220). -/
def Sys2Proof.Claims.AgreementClasses : Prop :=
  (∀ (two i : Nat) (a b c : Byte), i < 8 → (agrBit two [a, b, c]).getLsbD i =
    ((a.getLsbD i && b.getLsbD i) || (a.getLsbD i && c.getLsbD i) || (b.getLsbD i && c.getLsbD i))) ∧
  (∀ (a b : Byte) (two : Nat), agrBit two [a, b] = if two = 0 then a &&& b else a ||| b) ∧
  (∀ (cls two : Nat) (a b c : List Byte), cls ≠ 0 → cls ≠ 7 →
    (agrOne cls two [a, b, c] = a ∨ agrOne cls two [a, b, c] = b ∨ agrOne cls two [a, b, c] = c) ∧
    agrKey cls (agrOne cls two [a, b, c]) =
      max (min (agrKey cls a) (agrKey cls b)) (min (max (agrKey cls a) (agrKey cls b)) (agrKey cls c))) ∧
  (∀ (e : AgrEntry) (imgs : List (List Byte)), e.cls = 6 → agrExact (imgs.map fun i => sliceB i e.ofs e.len) = none →
    agrEntry e imgs = (List.replicate e.len 0, true))

/-- Three voters' outputs: what two share is the value, and the one that differs is named; with none alike the value is 0. In duplex a
difference gives the lease holder's value (R226). -/
def Sys2Proof.Claims.VoteTable : Prop :=
  (∀ (holder len p q r : Nat) (x y : List Byte), x ≠ y →
    voteValue false holder len [(p, x), (q, x), (r, x)] = (x, .fine) ∧ voteValue false holder len [(p, x), (q, x), (r, y)] = (x, .dissent r) ∧
    voteValue false holder len [(p, x), (q, y), (r, x)] = (x, .dissent q) ∧ voteValue false holder len [(p, y), (q, x), (r, x)] = (x, .dissent p)) ∧
  (∀ (d : Bool) (holder len p q r : Nat) (x y z : List Byte), x ≠ y → x ≠ z → y ≠ z →
    voteValue d holder len [(p, x), (q, y), (r, z)] = (List.replicate len 0, .nomaj)) ∧
  (∀ (len p q : Nat) (x y : List Byte), x ≠ y → p ≠ q →
    voteValue true p len [(p, x), (q, y)] = (x, .mismatch) ∧ voteValue true q len [(p, x), (q, y)] = (y, .mismatch) ∧
    voteValue false p len [(p, x), (q, y)] = (List.replicate len 0, .nomaj))

/-- A link that fails or comes up is shown, counted and raised; the counters are cleared by their commands; an exclusion by a failed link
ends 1 s after the link is up (R216, R223, R226, R236, R244). -/
def Sys2Proof.Claims.TriLinks : Prop :=
  (∀ (p : Fin 2) (s : State), s.flag (F.TVL_LINKSTAT_UP p) = true → ∃ t, exec (.linkDown p) s = .next t ∧
    t.flag (F.TVL_LINKSTAT_UP p) = false ∧ t.get { F.TVL_STAT_LINK_UP with lo := 18 + p.val, w := 1 } = 0 ∧ (218, s.fab) ∈ t.vdx.pulses ∧
    t.get (F.TVL_LINKCNT_DOWN p) = satAdd (2 ^ (F.TVL_LINKCNT_DOWN p).w - 1) (s.get (F.TVL_LINKCNT_DOWN p)) 1 ∧
    tget boolD t.tvl.fresh p = true ∧ t = { s with regs := t.regs, vdx := t.vdx, tvl := t.tvl }) ∧
  (∀ (p : Fin 2) (s : State), s.tvl.lanes = true → s.flag (F.TVL_LINKSTAT_UP p) = false → s.flag (F.TVL_LINKSTAT_POS_ERR p) = false →
    ∃ t, exec (.linkUp p) s = .next t ∧ t.flag (F.TVL_LINKSTAT_UP p) = true ∧
    t.get { F.TVL_STAT_LINK_UP with lo := 18 + p.val, w := 1 } = 1 ∧ (219, s.fab) ∈ t.vdx.pulses ∧ tget natD t.tvl.upAt p = s.clk.t ∧
    t = { s with regs := t.regs, vdx := t.vdx, tvl := t.tvl }) ∧
  (∀ (p : Fin 2) (s : State), s.tvl.exclPort = some p.val → s.flag (F.TVL_LINKSTAT_UP p) = true → s.mstate = 5 →
    ∃ t, exec .linkExcludeEnd s = .next t ∧ t.tvl.exclPort = none ∧ t.clk.t = max s.clk.t (tget natD s.tvl.upAt p + 1000000 * usUt) ∧
    (s.tvl.reint = true → s.allTested = true → t.mstate = 1) ∧
    (s.tvl.reint = false → s.flag F.TVL_CFG_AUTO_REINT = false → t.mstate = 5)) ∧
  (∀ s : State, ∃ t, exec .tvlAgrcntClr s = .next t ∧ t.get F.TVL_AGRCNT_ABSTAIN = 0 ∧ t.get F.TVL_AGRCNT_UNAGREED = 0 ∧
    t.get F.TVL_AGRCNT_NOMAJ_IN = 0 ∧ RegsBut s t [F.TVL_AGRCNT_CLR.off] ∧ t = { s with regs := t.regs }) ∧
  (∀ s : State, ∃ t, exec .tvlVotecntClr s = .next t ∧ t.get F.TVL_VOTECNT_DISSENT = 0 ∧ t.get F.TVL_VOTECNT_NOMAJ = 0 ∧
    t.get F.TVL_VOTECNT_CMP_MISMATCH = 0 ∧ RegsBut s t [F.TVL_VOTECNT_CLR.off] ∧ t = { s with regs := t.regs }) ∧
  (∀ (p : Fin 2) (s : State), ∃ t, exec (.tvlLinkcntClr p) s = .next t ∧ t.get (F.TVL_LINKCNT_CRC_ERR p) = 0 ∧
    t.get (F.TVL_LINKCNT_VIOLATION p) = 0 ∧ t.get (F.TVL_LINKCNT_DOWN p) = 0 ∧ RegsBut s t [(F.TVL_LINKCNT_CLR p).off] ∧
    t = { s with regs := t.regs })

/-! ### Leases, handover, membership (chapter 8) -/

namespace Sys2Proof.Claims
open Sys2Proof Sys2Proof.Machine

/-- Position `q` has become the recorded holder of output group `k` until `e`, without a release. -/
def Recorded (t : State) (k q e : Nat) : Prop :=
  t.get (F.TVL_LSTAT_HOLDER k) = q % 4 ∧ t.flag (F.TVL_LSTAT_RELEASED k) = false ∧ (t.lease k).expiry = some e

/-- Every safety-class local output of an output group is commanded off (R232, R234). -/
def GroupOff (s t : State) (k : Nat) : Prop :=
  s.sioFitted = true → ∀ m, m < 8 → s.doEn m = true → s.get (F.SIO_DOCFG_OGRP m) = k → s.doSafety m = true →
    t.flag (F.SIO_DOSTAT_CMD m) = false ∧ t.flag (F.SIO_DOSTAT_DRIVE m) = false

/-- A violation of R244 has been counted for a port, raised and recorded. -/
def ViolationNoted (s t : State) (p : Nat) : Prop :=
  t.get (F.TVL_LINKCNT_VIOLATION p) = satAdd 255 (s.get (F.TVL_LINKCNT_VIOLATION p)) 1 ∧ (222, t.fab) ∈ t.vdx.pulses ∧
  t.rcd.reported.map (fun r => r.code) = s.rcd.reported.map (fun r => r.code) ++ [.TL_VIOLATION]

end Sys2Proof.Claims

/-- A successor whose conditions hold sends a claim for the claim instant; a member that agrees records the claimant and countersigns; a
countersignature counts up to 1 us before the claim instant, and one of no claim that the module knows is a violation; there the claimant becomes the holder, its guardian copy valid, if every
countersignature has come, and otherwise takes nothing (R231, R244). -/
def Sys2Proof.Claims.LeaseClaims : Prop :=
  (∀ (k : Fin 16) (oi : Nat) (s v : State), s.voting = true → s.simplex = false → s.flag (F.TVL_OGRP_EN k) = true → s.holds k = false →
    (s.lease k).claim = none → s.successor k = some s.pos → ¬ (s.triplex = true ∧ s.members = [s.pos]) →
    (s.grp (s.ogGroup k)).on = true → oi = s.claimOi k →
    v = (if s.flag (F.TVL_LSTAT_RELEASED k) then s else s.advance (oi - 5 * usUt)) →
    v.afterExpiry k oi = true → v.quiet k oi = true → v.peerSilent k = true →
    ∃ t c, exec (.claim k) s = .next t ∧ (t.lease k).claim = some c ∧ c.oi = oi ∧ c.got = [] ∧
      (∀ q, q ∈ c.need ↔ q ∈ s.members ∧ q ≠ s.pos ∧ q ≠ s.get (F.TVL_LSTAT_HOLDER k)) ∧ t.clk = v.clk ∧
      t.tvl.fseq = (s.tvl.fseq + 1) % 65536 ∧ t.regs = v.regs) ∧
  (∀ (p : Fin 2) (f : TlFrame) (k : Fin 16) (oi : Nat) (s u : State), Taken s p f 4 u →
    (u.successor k = some f.sender → u.isMember f.sender = true → u.voting = true → u.get (F.TVL_LSTAT_HOLDER k) ≠ u.pos → f.mstate = 4 →
      u.afterExpiry k oi = true → u.quiet k oi = true →
      ∃ t, exec (.claimRx p f k oi) s = .next t ∧ Recorded t k f.sender (oi + u.tL k) ∧ t.tvl.fseq = (u.tvl.fseq + 1) % 65536) ∧
    (u.successor k = some f.sender → u.isMember f.sender = true → (u.afterExpiry k oi = false ∨ u.quiet k oi = false) →
      ∃ t, exec (.claimRx p f k oi) s = .next t ∧ t = { u with tvl := { u.tvl with leases := t.tvl.leases } } ∧
        (t.lease k).expiry = (u.lease k).expiry) ∧
    (u.successor k ≠ some f.sender → ∃ t, exec (.claimRx p f k oi) s = .next t ∧ ViolationNoted u t p ∧ t.tvl = u.tvl) ∧
    (∀ c, (u.lease k).claim = some c → c.oi = oi → f.sender ∈ c.need →
      (u.clk.t + usUt ≤ oi → ∃ t, exec (.claimCsignRx p f k oi) s = .next t ∧
        (t.lease k).claim = some { c with got := f.sender :: c.got } ∧ t = { u with tvl := { u.tvl with leases := t.tvl.leases } }) ∧
      (oi < u.clk.t + usUt → exec (.claimCsignRx p f k oi) s = .next u)) ∧
    ((∀ c, (u.lease k).claim = some c → c.oi ≠ oi ∨ f.sender ∉ c.need) →
      ((∃ q, (u.lease k).seen = some (q, oi)) → exec (.claimCsignRx p f k oi) s = .next u) ∧
      ((∀ q, (u.lease k).seen ≠ some (q, oi)) → ∃ t, exec (.claimCsignRx p f k oi) s = .next t ∧ ViolationNoted u t p ∧ t.tvl = u.tvl))) ∧
  (∀ (k : Fin 16) (c : Claim) (s : State), (s.lease k).claim = some c →
    ((∀ q ∈ c.need, q ∈ c.got) → s.voting = true → ∃ t, exec (.leaseGained k) s = .next t ∧ t.holds k = true ∧
      Recorded t k s.pos (c.oi + s.tL k) ∧ t.flag (F.TVL_LSTAT_GUARDIAN k) = true ∧ (t.lease k).mine = some (c.oi + s.tL k) ∧
      (t.lease k).claim = none ∧ t.clk.t = max s.clk.t c.oi ∧ (214, t.fab) ∈ t.vdx.pulses) ∧
    ((∃ q ∈ c.need, q ∉ c.got) → ∃ t, exec (.leaseGained k) s = .next t ∧ (t.lease k).claim = none ∧
      t.holds k = s.holds k ∧ t.clk.t = max s.clk.t c.oi))

/-- A lease that lapses takes its safety-class outputs off, raises source 215 and is recorded; a guardian copy that lapses first is
flagged; a release received is recorded for the groups its sender is shown to hold, and is a violation for the others (R232 to R234,
R244). -/
def Sys2Proof.Claims.LeaseEnds : Prop :=
  (∀ (k : Fin 16) (e : Nat) (s : State), (s.lease k).mine = some e → ∃ t, exec (.leaseLost k) s = .next t ∧
    t.clk.t = max s.clk.t e ∧ t.holds k = false ∧ (t.lease k).mine = none ∧ GroupOff s t k ∧ (215, t.fab) ∈ t.vdx.pulses ∧
    (∃ r, t.rcd.reported = s.rcd.reported ++ [r] ∧ r.code = .LEASE_LOST ∧ r.words = [BitVec.ofNat 32 k.val, 0])) ∧
  (∀ (k : Fin 16) (s : State), s.flag (F.TVL_LSTAT_GUARDIAN k) = true →
    (((s.lease k).mine ≠ none ∨ (s.lease k).forever = true) → ∃ t, exec (.guardianLeaseLapse k) s = .next t ∧
      t.flag (F.TVL_LSTAT_GUARDIAN k) = false ∧ (215, s.fab) ∈ t.vdx.pulses ∧ t.tvl = s.tvl ∧
      (∃ r, t.rcd.reported = s.rcd.reported ++ [r] ∧ r.code = .LEASE_LOST ∧ r.words = [BitVec.ofNat 32 k.val, 1])) ∧
    ((s.lease k).mine = none → (s.lease k).forever = false → ∃ t, exec (.guardianLeaseLapse k) s = .next t ∧
      t.flag (F.TVL_LSTAT_GUARDIAN k) = false ∧ RegsBut s t [(F.TVL_LSTAT_GUARDIAN k).off] ∧ t = { s with regs := t.regs })) ∧
  (∀ (p : Fin 2) (f : TlFrame) (s u : State), Taken s p f 6 u →
    ∃ t, exec (.relFrameRx p f) s = .next t ∧
      (∀ k, k < 16 → (leNat f.payload).testBit k = true → u.get (F.TVL_LSTAT_HOLDER k) = f.sender →
        t.flag (F.TVL_LSTAT_RELEASED k) = true ∧ (t.lease k).relAt = u.clk.t ∧ (216, u.fab) ∈ t.vdx.pulses) ∧
      (∀ k, k < 16 → ((leNat f.payload).testBit k = false ∨ u.get (F.TVL_LSTAT_HOLDER k) ≠ f.sender) →
        t.lease k = u.lease k ∧ t.flag (F.TVL_LSTAT_RELEASED k) = u.flag (F.TVL_LSTAT_RELEASED k)) ∧
      ((∀ k, k < 16 → (leNat f.payload).testBit k = true → u.get (F.TVL_LSTAT_HOLDER k) = f.sender) → t.rcd = u.rcd) ∧
      ((∃ k, k < 16 ∧ (leNat f.payload).testBit k = true ∧ u.get (F.TVL_LSTAT_HOLDER k) ≠ f.sender) → ViolationNoted u t p))

/-- The receiver proposes a handover and the holder names the instant H, a first output instant at least one major frame later; at H both
copies of the holder end and the receiver's lease begins, its guardian copy from H + t_G on (R237). -/
def Sys2Proof.Claims.LeaseHandover : Prop :=
  (∀ (k : Fin 16) (s : State),
    (s.voting = true → s.holds k = false → s.flag (F.TVL_OGRP_EN k) = true → s.get (F.TVL_LSTAT_HOLDER k) ≠ 0 → (s.lease k).hand = none →
      ∃ t, exec (.handoverPropose k none) s = .next t ∧ (t.lease k).hand = some ⟨s.get (F.TVL_LSTAT_HOLDER k), s.pos, none⟩ ∧
        t.tvl.fseq = (s.tvl.fseq + 1) % 65536 ∧ t.regs = s.regs) ∧
    (∀ d, (s.lease k).hand = some d → s.voting = true → s.holds k = true → d.frm = s.pos → d.tm = none → s.isMember d.rcv = true →
      ∀ h, ∃ t, exec (.handoverAccept k none h) s = .next t ∧
        (t.lease k).hand = some { d with tm := some (s.oiAt (s.ogGroup k) (s.clk.t + s.mfLen * s.tg)) } ∧
        t.tvl.fseq = (s.tvl.fseq + 1) % 65536 ∧ t.regs = s.regs)) ∧
  (∀ (k : Fin 16) (p : Fin 2) (f : TlFrame) (s u : State), Taken s p f 4 u →
    (u.isMember f.sender = true → f.mstate = 4 → u.get (F.TVL_LSTAT_HOLDER k) ≠ f.sender → ∃ t,
      exec (.handoverPropose k (some (p, f))) s = .next t ∧ (t.lease k).hand = some ⟨u.get (F.TVL_LSTAT_HOLDER k), f.sender, none⟩ ∧
      t = { u with tvl := { u.tvl with leases := t.tvl.leases } }) ∧
    (∀ d h, (u.lease k).hand = some d → f.sender = d.frm → ∃ t, exec (.handoverAccept k (some (p, f)) h) s = .next t ∧
      (t.lease k).hand = some { d with tm := some h } ∧ t = { u with tvl := { u.tvl with leases := t.tvl.leases } })) ∧
  (∀ (k : Fin 16) (frm rcv h : Nat) (s : State), (s.lease k).hand = some ⟨frm, rcv, some h⟩ →
    (frm = s.pos → ∃ t, exec (.handoverInstant k) s = .next t ∧ t.holds k = false ∧ t.flag (F.TVL_LSTAT_GUARDIAN k) = false ∧
      (t.lease k).mine = none ∧ (t.lease k).hand = none ∧ t.get (F.TVL_LSTAT_HOLDER k) = rcv % 4 ∧
      (t.lease k).expiry = some (h + s.tL k) ∧ GroupOff s t k ∧ t.clk.t = max s.clk.t h) ∧
    (frm ≠ s.pos → rcv = s.pos → (s.lease k).mine = none →
      (s.voting = true → ∃ t, exec (.handoverInstant k) s = .next t ∧ t.holds k = true ∧
        Recorded t k s.pos (h + s.tL k) ∧ t.flag (F.TVL_LSTAT_GUARDIAN k) = false ∧ (t.lease k).mine = some (h + s.tL k) ∧
        (t.lease k).hand = some ⟨frm, rcv, some h⟩ ∧ t.clk.t = max s.clk.t h) ∧
      (s.voting = false → ∃ t, exec (.handoverInstant k) s = .next t ∧ (t.lease k).hand = none ∧ t.holds k = s.holds k ∧
        t.clk.t = max s.clk.t h)) ∧
    (frm ≠ s.pos → rcv = s.pos → (s.lease k).mine ≠ none → exec (.handoverInstant k) s = .next (s.advance h)) ∧
    (frm ≠ s.pos → rcv ≠ s.pos → ∃ t, exec (.handoverInstant k) s = .next t ∧ t.get (F.TVL_LSTAT_HOLDER k) = rcv % 4 ∧
      (t.lease k).expiry = some (h + s.tL k) ∧ (t.lease k).hand = none ∧ t.holds k = s.holds k ∧ t.clk.t = max s.clk.t h) ∧
    (rcv = s.pos → (s.lease k).mine ≠ none → ∃ t, exec (.handoverGuardStart k) s = .next t ∧ t.flag (F.TVL_LSTAT_GUARDIAN k) = true ∧
      (t.lease k).hand = none ∧ t.clk.t = max s.clk.t (h + s.tGuard k)))

/-- The modules of a VCU propose a major-frame start at least 10 ms and one Gheif cycle ahead for the joint entry to the Run state; the
earlier proposal is taken; at the boundary each becomes MEMBER with TVL_MFC = 0, its members those that take part. A peer whose
identities differ keeps the module in LISTEN, recorded (R239, R242). -/
def Sys2Proof.Claims.RunEntry : Prop :=
  (∀ (count : Nat) (ids : PeerIds) (s : State), s.mayStart = true → s.tvl.boundary = none →
    ∃ t, exec (.runEntryProposal none count ids) s = .next t ∧
      t.tvl.boundary = some (s.frameFrom (s.clk.t + 10000 * usUt + s.tg), s.clk.t, [s.pos]) ∧
      t.tvl.fseq = (s.tvl.fseq + 1) % 65536 ∧ t.regs = s.regs) ∧
  (∀ (p : Fin 2) (f : TlFrame) (count : Nat) (ids : PeerIds) (s u : State), Taken s p f 4 u → u.mstate = 1 →
    (identMask u.ownIds ids ≠ 0 → (u.peer f.sender).mstate ≠ 0 → ∃ t, exec (.runEntryProposal (some (p, f)) count ids) s = .next t ∧
      f.sender ∈ t.tvl.differs ∧ t.tvl.boundary = none ∧ t.mayStart = false ∧ t.regs = u.regs ∧
      (f.sender ∉ u.tvl.differs → ∃ r, t.rcd.reported = u.rcd.reported ++ [r] ∧ r.code = .IDENT_MISMATCH ∧
        r.words.head? = some (BitVec.ofNat 32 (identMask u.ownIds ids))) ∧
      (f.sender ∈ u.tvl.differs → t.rcd = u.rcd)) ∧
    (identMask u.ownIds ids = 0 → ∀ j v, j = u.cyc.n + (count + 256 - u.cyc.count) % 256 → v = u.compareIds f.sender ids →
      (v.mayStart = false → exec (.runEntryProposal (some (p, f)) count ids) s = .next v) ∧
      (v.mayStart = true → u.tvl.boundary = none → ∃ t, exec (.runEntryProposal (some (p, f)) count ids) s = .next t ∧
        t.tvl.boundary = some (j, u.clk.t, [u.pos, f.sender]) ∧ f.sender ∉ t.tvl.differs) ∧
      (∀ j0 t0 l, v.mayStart = true → u.tvl.boundary = some (j0, t0, l) →
        (j < j0 → ∃ t, exec (.runEntryProposal (some (p, f)) count ids) s = .next t ∧
          t.tvl.boundary = some (j, u.clk.t, [u.pos, f.sender])) ∧
        (j = j0 → ∃ t l', exec (.runEntryProposal (some (p, f)) count ids) s = .next t ∧ t.tvl.boundary = some (j0, t0, l') ∧
          ∀ q, q ∈ l' ↔ q = f.sender ∨ q ∈ l) ∧
        (j0 < j → ∃ t, exec (.runEntryProposal (some (p, f)) count ids) s = .next t ∧ t.tvl.boundary = u.tvl.boundary)))) ∧
  (∀ (j t0 : Nat) (l : List Nat) (s : State), s.tvl.boundary = some (j, t0, l) →
    (s.mayStart = true → t0 + s.tg ≤ s.cycleAt j → (∀ q ∈ l, 1 ≤ q ∧ q ≤ 3) →
      ∃ t, exec .runBoundary s = .next t ∧ t.mstate = 4 ∧ t.get F.TVL_MFC_W = 0 ∧ t.hx.frameOn = false ∧
      (∀ q, 1 ≤ q → q ≤ 3 → (t.isMember q = true ↔ q ∈ l)) ∧ t.tvl.boundary = none ∧ t.clk.t = max s.clk.t (s.cycleAt j)) ∧
    ((∃ q ∈ s.tvl.differs, (s.peer q).mstate ≠ 0) → ∃ t, exec .runBoundary s = .next t ∧ t.mstate = s.mstate ∧
      t.tvl.boundary = none ∧ t.get F.TVL_STAT_MEMBERS = s.get F.TVL_STAT_MEMBERS))

/-- A proposal of an online change, an acknowledgement of it and its rejection; a force change is acknowledged or rejected, and each
acknowledgement noted (R209, R212, R242). -/
def Sys2Proof.Claims.Proposals : Prop :=
  (∀ (c : Change) (b : Nat) (digest : List Byte) (o : LongOp) (s : State), s.cyc.change = some c → s.tvl.activateAcks = [] →
    c.switched = false → s.sup.longOp = some o → o.opc = 0x13 → (o.arg2 ≠ 1 ∨ ∃ q ∈ s.members, q ≠ s.pos) →
    ∃ t, exec (.activateProposal none .propose b digest) s = .next t ∧ t.tvl.activateAcks = [s.pos] ∧
      t.tvl.fseq = (s.tvl.fseq + 1) % 65536 ∧ t.cyc = s.cyc ∧ t.sup = s.sup) ∧
  (∀ (p : Fin 2) (f : TlFrame) (b : Nat) (digest : List Byte) (s u : State), Taken s p f 4 u → u.mstate = 4 →
    (∀ n, u.setWith digest = some n → u.cyc.change = none → u.inRun = true → ∃ t d,
      exec (.activateProposal (some (p, f)) .propose b digest) s = .next t ∧ t.cyc.change = some d ∧ d.set = n ∧ d.bMfc = b ∧
      d.switched = false ∧ t.hx.switchPend = some n ∧ RegsBut u t [(F.LE_BANK_SWITCH_PEND 0).off, (F.LE_BANK_SWITCH_PEND 1).off] ∧
      (∀ e, e < 2 → u.bankSwitch (u.progsOf n) e ≠ none → t.flag (F.LE_BANK_SWITCH_PEND e) = true)) ∧
    ((u.setWith digest = none ∨ u.cyc.change ≠ none ∨ u.inRun = false) → ∃ t, exec (.activateProposal (some (p, f)) .propose b digest) s = .next t ∧ t.cyc = u.cyc ∧ t.hx = u.hx ∧
      t.tvl.fseq = (u.tvl.fseq + 1) % 65536) ∧
    (∀ c, u.cyc.change = some c → c.bMfc = b → c.switched = false → u.sup.longOp = none →
      (∃ t, exec (.activateProposal (some (p, f)) .accept b digest) s = .next t ∧
        t = { u with tvl := { u.tvl with activateAcks := f.sender :: u.tvl.activateAcks } }) ∧
      (∃ t, exec (.activateProposal (some (p, f)) .reject b digest) s = .next t ∧ t.cyc.change = none ∧ t.hx.switchPend = none ∧
        t.flag (F.LE_BANK_SWITCH_PEND 0) = false ∧ t.flag (F.LE_BANK_SWITCH_PEND 1) = false ∧
        RegsBut u t [(F.LE_BANK_SWITCH_PEND 0).off, (F.LE_BANK_SWITCH_PEND 1).off] ∧ t.mem = u.mem))) ∧
  (∀ (mfc cc ident : Nat) (what : ForceWhat) (s : State),
    (∃ x ∈ s.tvl.forceProp, x.mfc = mfc ∧ x.cc = cc ∧ x.ident = ident ∧ x.what = what ∧ x.acks = []) →
    ∃ t, exec (.forceProposal none .propose mfc cc ident what) s = .next t ∧
      (∃ x ∈ t.tvl.forceProp, x.mfc = mfc ∧ x.cc = cc ∧ x.ident = ident ∧ x.what = what ∧ x.acks = [s.pos]) ∧
      t.tvl.fseq = (s.tvl.fseq + 1) % 65536 ∧ t.regs = s.regs ∧ t.cyc = s.cyc) ∧
  (∀ (p : Fin 2) (f : TlFrame) (mfc cc ident : Nat) (what : ForceWhat) (s u : State), Taken s p f 4 u → u.mstate = 4 →
    (u.var? ident ≠ none → ∃ t, exec (.forceProposal (some (p, f)) .propose mfc cc ident what) s = .next t ∧
      t.tvl.forceProp = u.tvl.forceProp ++ [⟨mfc, cc, ident, what, [u.pos, f.sender]⟩]) ∧
    (u.var? ident = none → (what = .clear → ident ≠ 0xFFFFFFFF) → ∃ t,
      exec (.forceProposal (some (p, f)) .propose mfc cc ident what) s = .next t ∧ t.tvl.forceProp = u.tvl.forceProp) ∧
    (∀ x, u.tvl.forceProp = [x] → x.mfc = mfc → x.cc = cc → x.ident = ident →
      (∃ t, exec (.forceProposal (some (p, f)) .accept mfc cc ident what) s = .next t ∧
        t.tvl.forceProp = [{ x with acks := f.sender :: x.acks }] ∧ t.cyc = u.cyc) ∧
      (∃ t, exec (.forceProposal (some (p, f)) .reject mfc cc ident what) s = .next t ∧ t.tvl.forceProp = [] ∧ t.cyc = u.cyc)))

/-- A joiner in LISTEN asks the voting member of the lowest position, starts its programs warm and is in SYNC; the donor plans a snapshot
of every cycle group; sync data from the donor are kept until their group is complete; a failed synchronisation excludes the module,
and one that passed probation is a MEMBER (R239, R240). -/
def Sys2Proof.Claims.Reintegration : Prop :=
  (∀ (q : Nat) (ids : PeerIds) (s : State), s.mstate = 1 → ([1, 2, 3].find? fun q => s.peerMember q) = some q →
    (identMask s.ownIds ids ≠ 0 → ∃ t, exec (.syncReq none ids) s = .next t ∧ t.mstate = 1 ∧ q ∈ t.tvl.differs ∧ t.cyc = s.cyc ∧
      (q ∉ s.tvl.differs → ∃ r, t.rcd.reported = s.rcd.reported ++ [r] ∧ r.code = .IDENT_MISMATCH)) ∧
    (identMask s.ownIds ids = 0 → (∀ x ∈ s.tvl.differs, x = q ∨ (s.peer x).mstate = 0) →
      ∃ t, exec (.syncReq none ids) s = .next t ∧ t.mstate = 2 ∧ t.get F.TVL_STAT_DONOR = q ∧ t.cyc.startKind = 1 ∧
      t.tvl.sync.started = [] ∧ t.tvl.sync.since = s.clk.t ∧ q ∉ t.tvl.differs ∧ t.tvl.fseq = (s.tvl.fseq + 1) % 65536)) ∧
  (∀ (p : Fin 2) (f : TlFrame) (ids : PeerIds) (s u : State), Taken s p f 4 u → u.voting = true → u.members.head? = some u.pos →
    (identMask u.ownIds ids = 0 → ∃ t, exec (.syncReq (some (p, f)) ids) s = .next t ∧ t.tvl.sync.joiner = f.sender ∧
      (∀ g, g < u.hx.sched.groups.length → ∃ j, tget noneD t.tvl.sync.plan g = some j ∧
        j = u.cycleAt (u.frameFrom (u.clk.t + 1000 * usUt))) ∧ t.regs = u.regs) ∧
    (identMask u.ownIds ids ≠ 0 → exec (.syncReq (some (p, f)) ids) s = .next u)) ∧
  (∀ (p : Fin 2) (f : TlFrame) (items : List SyncItem) (last : Bool) (s u : State), Taken s p f 5 u → u.mstate = 2 →
    f.sender = u.get F.TVL_STAT_DONOR → f.group ∉ u.tvl.sync.ready → ∃ t, exec (.syncFrameRx p f items last) s = .next t ∧
      tget nilD t.tvl.sync.items f.group = tget nilD u.tvl.sync.items f.group ++ items ∧
      (f.group ∈ t.tvl.sync.ready ↔ last = true) ∧ t = { u with tvl := { u.tvl with sync := t.tvl.sync } }) ∧
  (∀ s : State, s.mstate = 2 ∨ s.mstate = 3 → ∃ t, exec .syncFail s = .next t ∧ t.mstate = 5 ∧ (221, s.fab) ∈ t.vdx.pulses ∧
    t.isMember s.pos = false ∧ (∀ g, g < 4 → (t.grp g).on = false) ∧ t.clk = s.clk ∧
    (∃ r ∈ t.rcd.reported, r.code = .SYNC_FAIL)) ∧
  (∀ (x : Nat) (s : State), s.tvl.sync.probEnd = some x → s.mstate = 3 → 1 ≤ s.pos → s.pos ≤ 3 → ∃ t, exec .syncDone s = .next t ∧
    t.mstate = 4 ∧ t.get F.TVL_STAT_DONOR = 0 ∧ t.isMember s.pos = true ∧ t.clk.t = max s.clk.t x ∧ (220, t.fab) ∈ t.vdx.pulses ∧
    (∀ k, k < 16 → (t.lease k).unknown = true ∧ (t.lease k).expiry = some (t.clk.t + s.tL k)))

/-- A duplex module with no position of the Gheif cycle of its own sends a presence frame on each enabled port of E0 and E1, and takes its peer's as a sign of
life (R231). -/
def Sys2Proof.Claims.PresenceFrames : Prop :=
  (∀ s : State, s.alive = true → s.duplex = true → s.ghWitness s.pos = false → ∃ t, exec .presenceFrameSend s = .next t ∧ t = { s with out := t.out } ∧
    (∀ e, e < 2 → s.ethFitted e = true → s.flag (F.ETH_PORT_CFG_EN e) = true → ∃ m ∈ t.out, m.unit = e ∧ m.iface = .ethernet ∧
      m.kind = 0x88B5 ∧ m.data.take 14 = List.replicate 6 0xFF ++ beBytes 6 (s.ident.mac + e) ++ [0x88, 0xB5] ∧ m.data.length = 60)) ∧
  (∀ (port : Fin 2) (pos : Nat) (s : State), s.alive = true → s.duplex = true → s.ghWitness (3 - s.pos) = false → s.ethFitted port = true →
    s.flag (F.ETH_PORT_CFG_EN port) = true → pos + s.pos = 3 → exec (.presenceFrameRx port pos) s =
      .next { s with tvl := { s.tvl with witness := s.clk.t } })

/-! ### The Gheif bus (chapters 9 and 10) -/

namespace Sys2Proof.Claims
open Sys2Proof Sys2Proof.Machine

/-- Receive counter `i` of a channel, numbered as the checks of R280 are (R298). -/
def rxVal (s : State) (ch i : Nat) : Nat :=
  if i % 2 = 0 then s.get (F.GHC_RXCNT_LO ch (i / 2)) else s.get (F.GHC_RXCNT_HI ch (i / 2))

/-- Transmit counter `i` (R298): FRAMES_A, FRAMES_B, NULL_SENT, TX_LEN_ERR, TX_TCHK_FAIL, TX_WITHHELD, TX_REPLACED, CHANNEL_DIFF, DUP. -/
def txVal (s : State) (i : Nat) : Nat := if i % 2 = 0 then s.get (F.GHC_TXCNT_LO (i / 2)) else s.get (F.GHC_TXCNT_HI (i / 2))

/-- One event more than in `s` has been reported: a code with its words. -/
def ReportsOne (s t : State) (code : RCode) (words : List Nat) : Prop :=
  ∃ r, t.rcd.reported = s.rcd.reported ++ [r] ∧ r.code = code ∧ r.words = words.map (BitVec.ofNat 32)

/-- The state in which a frame's last bit is received: time has come to it, and the line was active up to its last sample (R247, R281). -/
def lastBit (s : State) (ch : Nat) (f : GhFrame) : State :=
  (s.advance (f.sof + (ghRead f).last)).modGh fun g => { g with lineAt := tput natD g.lineAt ch (f.sof + f.samples.length) }

/-- The distance of the cycle-start strobe from where the guardian expects it, `a` being the strobe before (R276). -/
def strobeOff (s : State) (c : Cluster) (a : Nat) (err : Int) : Nat :=
  ((s.ghCyc.1 : Int) - (a : Int) - ((c.tg * mtUt : Nat) : Int) + err).natAbs

end Sys2Proof.Claims

/-- A frame that fails a check counts under the check, raises its channel's source and is recorded, and nothing of it is used; one that
passes all is stored under its slot ID with cycle count, channel, position, stamp and transit check; its second copy counts as a duplicate
or, where it differs, as a channel difference, and the first copy stays, of two with one stamp channel A's. A null frame is counted. A
sync frame gives its deviation to the clock synchronisation (R260, R280, R281, R289, R290). -/
def Sys2Proof.Claims.GheifReception : Prop :=
  ∀ (ch : Fin 2) (f : GhFrame) (c : Cluster) (r : GhRead) (s v : State), s.clu = some c → s.alive = true → 2 ≤ s.pstate →
    s.ghAttached ch = true → r = ghRead f → v = lastBit s ch f →
    (∀ k, v.ghCheck c ch f r false = k → k ≠ 0 → ∃ t, exec (.gheifFrameRx ch f) s = .next t ∧
      rxVal t ch k = satAdd 65535 (rxVal v ch k) 1 ∧ (ch.val = 0 ∨ s.chFitted 1 = true → (234 + ch.val, t.fab) ∈ t.vdx.pulses) ∧
      ReportsOne v t .GHEIF_RX_VIOLATION [ch.val, k, ghSlot r.hdr] ∧ t.gh.items = v.gh.items ∧ t.gh.syncs = v.gh.syncs ∧
      t.cyc = v.cyc ∧ t.mem = v.mem) ∧
    (v.ghCheck c ch f r false = 0 → ∀ d pl data, c.desc (ghSlot r.hdr) = some d → v.ghPlaceOf c ch f = some pl → pl.symbol = false →
      data = (if d.sflags.testBit 0 then r.payload.drop 4 else r.payload) →
      (ghNull r.hdr = true → tget noneD v.gh.first d.id = none → ∃ t, exec (.gheifFrameRx ch f) s = .next t ∧
        t.gh.items = v.gh.items ∧ rxVal t ch 15 = satAdd 65535 (rxVal v ch 15) 1) ∧
      (ghNull r.hdr = false → d.rxbuf ≠ 0 → data.length ≤ d.rxbuf →
        (tget noneD v.gh.first d.id = none → d.queue = 0xFF → ∃ t, exec (.gheifFrameRx ch f) s = .next t ∧
          tget noneD t.gh.items d.id = some ⟨v.ghCyc.2, ch, pl.pos, v.ghItem d ch data⟩ ∧ t.get (F.GHC_SLOTSTAT_LAST_CH d.id) = ch.val ∧
          t.get (F.GHC_SLOTSTAT_LAST_CC d.id) = v.ghCyc.2 % 256 ∧
          (d.id < c.dynFirst → t.get (F.GHC_SLOTSTAT_MISS_CNT d.id) = 0) ∧
          (t.source (srcKey 1 d.id)).cur = some ⟨v.ghItem d ch data, v.clk.t, v.cyc.n⟩ ∧ rxVal t ch 0 = satAdd 65535 (rxVal v ch 0) 1) ∧
        (∀ a, tget noneD v.gh.first d.id = some a → a.ch ≠ ch →
          (¬ (a.tm = v.clk.t ∧ ch.val < a.ch) →
            (a.data = data → ∃ t, exec (.gheifFrameRx ch f) s = .next t ∧ t.gh.items = v.gh.items ∧
              txVal t 8 = satAdd 65535 (txVal v 8) 1) ∧
            (a.data ≠ data → ∃ t, exec (.gheifFrameRx ch f) s = .next t ∧ t.gh.items = v.gh.items ∧
              txVal t 7 = satAdd 65535 (txVal v 7) 1 ∧ (237, t.fab) ∈ t.vdx.pulses)) ∧
          (a.tm = v.clk.t → ch.val < a.ch → a.null = false → d.queue = 0xFF → tget noneD v.gh.items d.id ≠ none →
            ∃ t, exec (.gheifFrameRx ch f) s = .next t ∧
              tget noneD t.gh.items d.id = some ⟨v.ghCyc.2, ch, pl.pos, v.ghItem d ch data⟩)))) ∧
    (v.ghCheck c ch f r false = 0 → ghSyncBit r.hdr = true → ∀ pl, v.ghPlaceOf c ch f = some pl → pl.symbol = false →
      ∃ t e, exec (.gheifFrameRx ch f) s = .next t ∧ t.gh.syncs = e :: v.gh.syncs ∧ e.id = ghSlot r.hdr ∧ e.ch = ch ∧
        e.dev = v.ghDev c ch f pl ∧ e.startup = ghStartup r.hdr)

/-- At its action point an owned static slot sends a frame of its ready data padded to its length, or a null frame, also where the data
fail their transit check; one whose lease does not stand is withheld and counted; where the guardian does not enable the driver, the
frame is blocked, counted, raised and recorded. A minislot boundary opens the next dynamic slot, where a ready item is sent if it fits.
An item is taken from its queue before its slot (R257, R258, R277, R293 to R295). -/
def Sys2Proof.Claims.GheifSending : Prop :=
  (∀ (ch : Fin 2) (p : Fin 1024) (c : Cluster) (d : SlotDesc) (s v : State), s.clu = some c → s.alive = true → s.ghAttached ch = true →
    s.cyc.running = true → 1 ≤ p.val → p.val ≤ c.nStatic → s.clk.t ≤ s.ghMt (c.posAt p + c.ap) → v = s.advance (s.ghMt (c.posAt p + c.ap)) →
    c.desc (c.at_ (s.get F.GHC_STAT_MODE) ch p) = some d → s.ghOwns d = true → s.pstate = 4 → s.gh.mute = false →
    (v.ghLeased d = true → v.guardOpen ch ≠ none → d.sflags.testBit 0 = false → d.id < c.dynFirst → ∃ t m,
      exec (.gheifSlotTx ch p) s = .next t ∧
      t.out = v.out ++ [m] ∧ m.iface = .gheif ∧ m.unit = ch.val ∧ m.tm = v.clk.t ∧ txVal t ch = satAdd 65535 (txVal v ch) 1 ∧
      (∀ i, v.ghReady d = some i → i.ok = true → m.data = ghWire (ghBytes ch
        (ghHeader v.ghCyc.2 d.id (v.get F.GHC_STAT_MODE) (d.cap / 2) false false false false) (padTo d.cap i.data))) ∧
      ((∀ i, v.ghReady d = some i → i.ok = false) → txVal t 2 = satAdd 65535 (txVal v 2) 1 ∧ m.data = ghWire (ghBytes ch
        (ghHeader v.ghCyc.2 d.id (v.get F.GHC_STAT_MODE) (d.cap / 2) false true false false) (List.replicate d.cap 0))) ∧
      (∀ i, v.ghReady d = some i → i.ok = false → txVal t 4 = satAdd 65535 (txVal v 4) 1 ∧ (238, t.fab) ∈ t.vdx.pulses)) ∧
    (v.ghLeased d = true → v.guardOpen ch = none → d.id < c.dynFirst → (∀ i, v.ghReady d = some i → i.ok = true) →
      ∃ t, exec (.gheifSlotTx ch p) s = .next t ∧ t.out = v.out ∧
      t.get F.GRD_CNT_BLOCK = satAdd 65535 (v.get F.GRD_CNT_BLOCK) 1 ∧ (239, t.fab) ∈ t.vdx.pulses ∧
      ReportsOne v t .GHEIF_GUARD [ch.val, p.val]) ∧
    (v.ghLeased d = false → ∃ t, exec (.gheifSlotTx ch p) s = .next t ∧ t.out = v.out ∧ txVal t 5 = satAdd 65535 (txVal v 5) 1)) ∧
  (∀ (ch : Fin 2) (id m : Nat) (c : Cluster) (s v : State), s.clu = some c → s.dynUpcoming c ch = some (id, m) → s.alive = true →
    s.ghAttached ch = true → s.pstate ≠ 0 → m < c.idleAt → v = s.advance (s.ghMt m) →
    ((c.desc id = none ∨ ∃ d, c.desc id = some d ∧ v.ghReady d = none) → ∃ t, exec (.dynSlot ch) s = .next t ∧ t.out = v.out ∧
      tget noneD t.gh.dynCur ch = some (id, m) ∧ tget noneD t.gh.dynNext ch = some (id + 1, m + c.ms) ∧ t.clk = v.clk) ∧
    (∀ d i w, c.desc id = some d → v.ghReady d = some i → i.ok = true → s.ghOwns d = true → d.dchan.testBit ch = true →
      v.ghMaySend = 2 → v.gh.sent.contains (2 * id + ch) = false →
      v.ghMt (m + c.msAp) + ghTime (i.data.length + i.data.length % 2) + c.ms * mtUt ≤ v.ghMt c.idleAt → v.ghLeased d = true →
      w = (v.modGh fun g => { g with dynCur := tput noneD g.dynCur ch (some (id, m)), dynNext := tput noneD g.dynNext ch (some (id + 1, m + c.ms)) }).advance
        (v.ghMt (m + c.msAp)) → w.guardOpen ch ≠ none →
      ∃ t o, exec (.dynSlot ch) s = .next t ∧ (tget noneD t.gh.dynCur ch).map (fun x => x.1) = some id ∧ t.out = w.out ++ [o] ∧
        o.iface = .gheif ∧ o.unit = ch.val ∧ o.tm = w.clk.t ∧ t.clk = w.clk)) ∧
  (∀ (id : Fin 1024) (c : Cluster) (d : SlotDesc) (s v : State), s.clu = some c → c.desc id = some d → s.alive = true → s.pstate = 4 →
    s.ghOwns d = true → d.isBound = false → d.queue ≠ 0xFF → s.ghPlaced c id = true → v = s.advance (s.takeAt c d) →
    (d.txmode ≠ 1 → tget noneD s.gh.single id = none → qLevel (v.qgeo d.queue) (v.qst (v.qgeo d.queue)) ≠ 0 →
      (∀ i, (v.qTakeAll (v.qgeo d.queue) 1).2 = [i] → i.data.length ≤ d.cap → ∃ t, exec (.gheifTake id) s = .next t ∧
        tget noneD t.gh.single id = some i) ∧
      (∀ i, (v.qTakeAll (v.qgeo d.queue) 1).2 = [i] → d.cap < i.data.length → ∃ t, exec (.gheifTake id) s = .next t ∧
        tget noneD t.gh.single id = none ∧ (238, t.fab) ∈ t.vdx.pulses) ∧
      ((v.qTakeAll (v.qgeo d.queue) 1).2 = [] → ∃ t, exec (.gheifTake id) s = .next t ∧ tget noneD t.gh.single id = none ∧
        (238, t.fab) ∈ t.vdx.pulses)) ∧
    (d.txmode = 1 → ∀ l, (v.qTakeAll (v.qgeo d.queue) (qLevel (v.qgeo d.queue) (v.qst (v.qgeo d.queue)))).2 = l → l ≠ [] →
      (∀ i ∈ l, i.data.length ≤ d.cap) → ∃ t, exec (.gheifTake id) s = .next t ∧ tget noneD t.gh.hold id = l.getLast?))

/-- A cold-start node whose listen timer ends on idle channels sends a CAS and leads a cold start, its cycle 0 starting 1 us later; a CAS
heard restarts the listen timer; the start frame goes out in cycle 0; without an echo, or without its own frames where it is the only
cold-start node, the cold start is aborted and counted; after PASSIVE_MAX cycles in PASSIVE the engine listens again (R248, R264, R268,
R270 to R272, R282). -/
def Sys2Proof.Claims.GheifStartup : Prop :=
  (∀ (idle : Bool) (c : Cluster) (s v : State), s.clu = some c → s.alive = true → s.pstate = 1 →
    v = s.advance (s.gh.listenAt + s.gh.listenLen) →
    (ghColdstart (s.ghMe c) = true → s.flag F.GHC_CS_EXHAUSTED = false → s.get F.GHC_CS_ATTEMPTS < c.csAttempts → idle = true →
      v.lineIdle 0 = true → v.lineIdle 1 = true →
      ∃ t, exec (.listenTimeout idle) s = .next t ∧ t.pstate = 2 ∧ t.get F.GHC_CS_LEADER = (s.ghMe c).syncId % 1024 ∧
        t.gh.casAt = some v.clk.t ∧ t.clk = v.clk ∧
        (s.sup.st ≠ .run → t.gh.nextCycle = some (v.clk.t + 800, 0)) ∧
        (s.sup.st = .run → t.cyc = s.cyc ∧ t.gh.own = some (v.clk.t + 800 - s.ghLen, 255)) ∧
        (s.sup.faultLatch = false → ∀ k, k < 2 → s.ghAttached k = true →
          ∃ m ∈ t.out, m.iface = .gheif ∧ m.unit = k ∧ m.kind = 1 ∧ m.tm = v.clk.t)) ∧
    ((ghColdstart (s.ghMe c) = false ∨ s.flag F.GHC_CS_EXHAUSTED = true ∨ c.csAttempts ≤ s.get F.GHC_CS_ATTEMPTS ∨ idle = false ∨
        v.lineIdle 0 = false ∨ v.lineIdle 1 = false) →
      exec (.listenTimeout idle) s = .next { v with gh := { v.gh with listenAt := v.clk.t } })) ∧
  (∀ (ch : Fin 2) (c : Cluster) (s : State), s.clu = some c → s.alive = true → s.ghAttached ch = true →
    (s.pstate = 1 → exec (.casRx ch) s = .next { s with gh := { s.gh with
      lineAt := tput natD s.gh.lineAt ch s.clk.t, listenAt := s.clk.t, casAt := some (s.clk.t - 256) } }) ∧
    (2 ≤ s.pstate → s.gh.leader = 0 → s.ghCyc.1 ≤ s.clk.t → s.ghMacro (s.clk.t - s.ghCyc.1 - 256) < c.sw →
      ∃ t, exec (.casRx ch) s = .next t ∧ rxVal t ch 12 = satAdd 65535 (rxVal s ch 12) 1 ∧
      t = { s with regs := t.regs, gh := { s.gh with lineAt := tput natD s.gh.lineAt ch s.clk.t } })) ∧
  (∀ (c : Cluster) (s v : State), s.clu = some c → s.alive = true → s.pstate = 2 → s.ghCyc.2 = 0 → s.gh.nextCycle = none →
    s.clk.t ≤ s.ghMt c.ap → v = s.advance (s.ghMt c.ap) → ∃ t, exec .startFrameTx s = .next t ∧ t.clk = v.clk ∧
      (∀ k, k < 2 → s.ghAttached k = true → v.guardOpen k ≠ none → ∃ m ∈ t.out, m.iface = .gheif ∧ m.unit = k ∧ m.kind = 2 ∧
        m.tm = v.clk.t ∧
        m.data = ghWire (ghBytes k (ghHeader 0 (s.ghMe c).syncId c.startMode 2 true false true true) ([0, 0] ++ beBytes 2 (s.ghMe c).syncId)))) ∧
  (∀ (c : Cluster) (s : State), s.clu = some c → s.alive = true → s.ghCyc.2 = 1 → s.gh.leader ≠ 0 → s.pstate = 2 → s.gh.judged = false →
    ((c.csNodes ≠ 1 ∧ (∀ e ∈ s.gh.syncs, e.id ≠ (s.ghMe c).syncId → e.startup = true → e.leader ≠ s.gh.leader) ∨
        c.csNodes = 1 ∧ (s.gh.ownStart = false ∨ s.gh.ownOne = false)) → ∃ t, exec .echoDecision s = .next t ∧ t.pstate = 1 ∧
      t.get F.GHC_CS_ATTEMPTS = satAdd 31 (s.get F.GHC_CS_ATTEMPTS) 1 ∧ (227, t.fab) ∈ t.vdx.pulses ∧
      (c.csAttempts ≤ satAdd 31 (s.get F.GHC_CS_ATTEMPTS) 1 → t.flag F.GHC_CS_EXHAUSTED = true)) ∧
    ((c.csNodes ≠ 1 ∧ (∃ e ∈ s.gh.syncs, e.id ≠ (s.ghMe c).syncId ∧ e.startup = true) ∨
        c.csNodes = 1 ∧ s.gh.ownStart = true ∧ s.gh.ownOne = true) →
      (∀ e ∈ s.gh.syncs ++ s.gh.prevSyncs, e.startup = true → e.leader = s.gh.leader) →
      ∃ t, exec .echoDecision s = .next t ∧ t.pstate = 2 ∧ t.gh = { s.gh with judged := true } ∧
        t.clk.t = max s.clk.t (s.ghCyc.1 + s.ghLen - 1))) ∧
  (∀ (c : Cluster) (s : State), s.clu = some c → s.pstate = 5 →
    (c.passiveMax ≤ s.gh.passive → s.gh.sending = [] → ∃ t, exec .gheifSyncLost s = .next t ∧ t.pstate = 1 ∧ t.gh.listenAt = s.clk.t ∧
      (224, s.fab) ∈ t.vdx.pulses ∧ ReportsOne s t .GHEIF_SYNC_LOST []) ∧
    (s.gh.passive < c.passiveMax → exec .gheifSyncLost s = .next s))

/-- The offset correction is the fault-tolerant midpoint of the deviations, held to its limit, and one value of three cannot move it
outside the other two; a mode change that enough nodes carry is made, and a proposal that fails is recorded (R261, R262, R264,
R273, R274). -/
def Sys2Proof.Claims.GheifTiming : Prop :=
  (∀ (c : Cluster) (v : List Int) (s : State), s.clu = some c → s.alive = true → 2 ≤ s.pstate → s.cyc.running = true →
    s.gh.corrected = false → s.gh.leader = 0 → v = syncValues (syncOthers (s.ghMe c).syncId s.gh.syncs) s.gh.ownSync →
    ∃ t, exec .clockCorrection s = .next t ∧ t.gh.corrected = true ∧
      t.gh.ofs = clampInt (-(c.ofsLimit : Int)) c.ofsLimit ((midpoint c.syncMin v).getD 0) ∧ t.gh.prevOfs = s.gh.ofs ∧
      t.get F.GHC_STAT_NSYNC = min v.length 15 ∧ (v.length < c.syncMin → t.gh.passiveNext = true) ∧
      (s.ghCyc.2 % 2 = 0 → t.gh.rate = clampInt (-c.rateMax) c.rateMax s.gh.rate) ∧ t.clk.t = max s.clk.t (s.ghMt c.idleAt)) ∧
  (∀ (a b x : Int) (m : Nat), m ≤ 3 → ∃ o, midpoint m [a, b, x] = some o ∧ min a b ≤ o ∧ o ≤ max a b) ∧
  (∀ (c : Cluster) (e : GhSync) (l : List GhSync) (s : State), s.clu = some c → s.alive = true → 3 ≤ s.pstate → s.gh.judged = false →
    s.clk.t = s.ghCyc.1 → s.gh.prevSyncs = e :: l → e.mreq = true → e.modeAt = s.ghCyc.2 →
    (∀ y ∈ l, y.mreq = true ∧ y.mode = e.mode ∧ y.modeAt = e.modeAt) → c.syncMin ≤ (((e :: l).map fun y => y.id).eraseDups).length →
    ∃ t, exec .modeChange s = .next t ∧ t.get F.GHC_STAT_MODE = e.mode % 8 ∧ t.get F.GHC_STAT_MODE_PEND = 0 ∧ t.gh.prop = none ∧
      (229, s.fab) ∈ t.vdx.pulses ∧ ReportsOne s t .MODE_CHANGE [e.mode]) ∧
  (∀ (c : Cluster) (m : Nat) (s : State), s.clu = some c → s.alive = true → 3 ≤ s.pstate → s.gh.judged = false → s.clk.t = s.ghCyc.1 →
    s.gh.prevSyncs = [] → s.gh.prop = some (m, s.ghCyc.2, true) → ∃ t, exec .modeChange s = .next t ∧
      t.get F.GHC_STAT_MODE = s.get F.GHC_STAT_MODE ∧ t.gh.prop = none ∧ (230, s.fab) ∈ t.vdx.pulses ∧ ReportsOne s t .MODE_CHANGE_FAIL [m])

/-- The guardian takes its first strobe, stays anchored while the strobes keep their tolerance, and anchors again after two good ones; a
strobe outside it counts and raises its source; a transmission its window closes on is cut, counted and recorded; line activity counts
by where it lies in the cycle, and a run of 0 too short for a symbol as a coding error; the buffer window shows a slot ID's item; the
counters are cleared by their commands (R248, R276 to R278, R282, R298). -/
def Sys2Proof.Claims.GuardianAndCounters : Prop :=
  (∀ (err : Int) (c : Cluster) (s : State), s.clu = some c → s.alive = true → 2 ≤ s.pstate → s.gh.gAt ≠ some s.ghCyc.1 →
    (s.flag F.GRD_STAT_ANCHORED = false → s.gh.gAt = none → s.gh.gOk = none → ∃ t, exec (.guardStrobe err) s = .next t ∧
      t.flag F.GRD_STAT_ANCHORED = true ∧ t.gh = { s.gh with gAt := some s.ghCyc.1 } ∧ RegsBut s t [F.GRD_STAT_ANCHORED.off]) ∧
    (∀ a, s.gh.gAt = some a →
      (s.flag F.GRD_STAT_ANCHORED = true → strobeOff s c a err ≤ c.strobeTol → exec (.guardStrobe err) s =
        .next { s with gh := { s.gh with gAt := some s.ghCyc.1 } }) ∧
      (c.strobeTol < strobeOff s c a err → ∃ t, exec (.guardStrobe err) s = .next t ∧
        t.flag F.GRD_STAT_ANCHORED = false ∧ t.get F.GRD_CNT_CYCLE_ERR = satAdd 255 (s.get F.GRD_CNT_CYCLE_ERR) 1 ∧
        (241, s.fab) ∈ t.vdx.pulses ∧ t.gh.gOk = some 0 ∧ tget noneD t.gh.sending 0 = none ∧ tget noneD t.gh.sending 1 = none) ∧
      (s.flag F.GRD_STAT_ANCHORED = false → s.gh.gOk = some 0 → strobeOff s c a err ≤ c.strobeTol →
        exec (.guardStrobe err) s = .next { s with gh := { s.gh with gAt := some s.ghCyc.1, gOk := some 1 } }) ∧
      (s.flag F.GRD_STAT_ANCHORED = false → s.gh.gOk = some 1 → strobeOff s c a err ≤ c.strobeTol → ∃ t,
        exec (.guardStrobe err) s = .next t ∧
        t.flag F.GRD_STAT_ANCHORED = true ∧ t.gh.gOk = none ∧ RegsBut s t [F.GRD_STAT_ANCHORED.off]))) ∧
  (∀ (ch : Fin 2) (tx : GhTx) (s : State), tget noneD s.gh.sending ch = some tx → s.alive = true →
    (tx.close < tx.stop → ∃ t, exec (.guardCut ch) s = .next t ∧ t.get F.GRD_CNT_CUT = satAdd 255 (s.get F.GRD_CNT_CUT) 1 ∧
      (240, t.fab) ∈ t.vdx.pulses ∧ ReportsOne s t .GHEIF_GUARD [ch.val, tx.pos] ∧ tget noneD t.gh.sending ch = none ∧
      t.clk.t = max s.clk.t tx.close) ∧
    (tx.stop ≤ tx.close → s.clk.t < tx.stop → s.guardOpen ch = none → ∃ t, exec (.guardCut ch) s = .next t ∧
      t.get F.GRD_CNT_CUT = satAdd 255 (s.get F.GRD_CNT_CUT) 1 ∧ (240, t.fab) ∈ t.vdx.pulses ∧
      ReportsOne s t .GHEIF_GUARD [ch.val, tx.pos] ∧ tget noneD t.gh.sending ch = none ∧ t.clk = s.clk) ∧
    (tx.stop ≤ tx.close → (tx.stop ≤ s.clk.t ∨ s.guardOpen ch ≠ none) → exec (.guardCut ch) s = .next s)) ∧
  (∀ (ch : Fin 2) (zeros off : Nat) (c : Cluster) (s : State), s.clu = some c → s.alive = true → s.ghAttached ch = true → 2 ≤ s.pstate →
    off = s.clk.t - s.ghCyc.1 - zeros →
    ∃ t, exec (.lineActivity ch zeros) s = .next t ∧
      t = { s with regs := t.regs, gh := { s.gh with lineAt := tput natD s.gh.lineAt ch s.clk.t } } ∧
      (72 < zeros → zeros < 256 → rxVal t ch 2 = satAdd 65535 (rxVal s ch 2) 1) ∧
      ((zeros ≤ 72 ∨ 256 ≤ zeros) → s.ghCyc.1 ≤ s.clk.t →
        (c.idleAt ≤ s.ghMacro off → rxVal t ch 13 = satAdd 65535 (rxVal s ch 13) 1) ∧
        (s.ghMacro off < c.idleAt → ∀ pl, s.ghPlace c ch off = some pl →
          (pl.symbol = true → s.gh.leader = 0 → rxVal t ch 12 = satAdd 65535 (rxVal s ch 12) 1) ∧
          (pl.symbol = false → tget natD s.gh.lastPos ch = pl.pos + 1 → rxVal t ch 11 = satAdd 65535 (rxVal s ch 11) 1) ∧
          (pl.symbol = false → tget natD s.gh.lastPos ch ≠ pl.pos + 1 → t.regs = s.regs)))) ∧
  (∀ (v : Word) (s : State), ∃ t, exec (.ghcBufsel v) s = .next t ∧ t.get F.GHC_BUFSEL_SLOT_ID = v.toNat % 1024 ∧
    RegsBut s t [F.GHC_BUFSEL_VALID.off] ∧
    (tget noneD s.gh.items (v.toNat % 1024) = none → t.flag F.GHC_BUFSEL_VALID = false ∧ t = { s with regs := t.regs }) ∧
    (∀ it, tget noneD s.gh.items (v.toNat % 1024) = some it → t.flag F.GHC_BUFSEL_VALID = true ∧ t.gh.bufdata = it.it.data ∧
      t = { s with regs := t.regs, gh := { s.gh with bufdata := t.gh.bufdata } })) ∧
  (∀ s : State, ∃ t, exec .ghcCntclrGhc s = .next t ∧ (∀ ch i, ch < 2 → i < 16 → rxVal t ch i = 0) ∧ (∀ i, i < 10 → txVal t i = 0) ∧
    t.get F.GRD_CNT_BLOCK = s.get F.GRD_CNT_BLOCK ∧ t = { s with regs := t.regs }) ∧
  (∀ s : State, ∃ t, exec .ghcCntclrGrd s = .next t ∧ t.get F.GRD_CNT_BLOCK = 0 ∧ t.get F.GRD_CNT_CUT = 0 ∧
    t.get F.GRD_CNT_CYCLE_ERR = 0 ∧ RegsBut s t [F.GRD_CNT_BLOCK.off] ∧ t = { s with regs := t.regs }) ∧
  (∀ s : State, ∃ t, exec .ghcPrecClr s = .next t ∧ t.get F.GHC_PREC_MAX = 0 ∧ t.get F.GHC_PREC_LAST = s.get F.GHC_PREC_LAST ∧
    RegsBut s t [F.GHC_PREC_MAX.off] ∧ t = { s with regs := t.regs })

/-! ### The timebase (chapter 11) -/

/-- A capture holds the free-running count and the time of day; a time frame that breaks its rules is counted and rejected, and one from a
source that is not active is measured without a correction; a correction sets PENDING against the error and holds the slew to its
limit, and the time of day does not jump; at the end of a slew PENDING and SLEW are 0 (R302, R303, R308, R310, R312). -/
def Sys2Proof.Claims.TimebaseCorrection : Prop :=
  (∀ (p : Fin 4) (s : State), s.pairFitted p = true → s.alive = true → ∃ t, exec (.tmbCapture p) s = .next t ∧
    t.get (F.TMB_CAP_W p 0) = s.frc % 2 ^ 32 ∧ t.get (F.TMB_CAP_W p 1) = s.frc / 2 ^ 32 % 2 ^ 32 ∧
    t.get (F.TMB_CAP_W p 2) = todNs s.tod % 2 ^ 32 ∧ t.get (F.TMB_CAP_W p 3) = todSec s.tod % 2 ^ 32 ∧
    t.get (F.TMB_CAP_W p 4) = todSec s.tod / 2 ^ 32 % 2 ^ 32 ∧
    t.get (F.TMB_CAP_W p 5) % 256 = (s.get (F.TMB_CAP_W p 5) % 256 + 1) % 256 ∧
    RegsBut s t ((List.range 6).map fun i => (F.TMB_CAP_W p i).off) ∧ t = { s with regs := t.regs }) ∧
  (∀ (b : Bool) (id c : Nat) (it : GhItem) (d : List Byte) (s : State), id = (if b then s.get F.TMB_GTIME_ID_B else s.get F.TMB_GTIME_ID_A) → c = 2 + b2n b →
    s.alive = true → id ≠ 0 → tget noneD s.gh.items id = some it → it.cc = s.ghCyc.2 → (s.tsrc c).judgedN ≠ some s.cyc.n →
    d = it.it.data.drop 16 →
    ((1000000000 ≤ fieldBe d 8 4 ∨ fieldBe d 19 1 ≠ it.cc ∨ 16 ≤ fieldBe d 18 1) →
      ∃ t, exec (.timeFrameRx b) s = .next t ∧ t.get F.TMB_CNT_TFRAME_REJ = satAdd 32767 (s.get F.TMB_CNT_TFRAME_REJ) 1 ∧
        (263, s.fab) ∈ t.vdx.pulses ∧ t.tmb = { s.tmb with srcs := t.tmb.srcs } ∧ (t.tsrc c).newest = (s.tsrc c).newest) ∧
    (fieldBe d 8 4 < 1000000000 → fieldBe d 19 1 = it.cc → fieldBe d 18 1 < 16 → fieldBe d 18 1 % 2 = 1 →
      s.get F.TMB_STAT_ACTIVE ≠ c → ∃ t, exec (.timeFrameRx b) s = .next t ∧ (t.tsrc c).newest = some s.frc ∧
        (t.tsrc c).newestN = some s.cyc.n ∧
        (t.tsrc c).lastE = (s.tmb.cycTod : Int) - ((fieldBe d 0 8 * secUnits + fieldBe d 8 4 * 65536 : Nat) : Int) ∧
        t.tmb.offset = s.tmb.offset ∧ t.tmb.freq = s.tmb.freq ∧ t.tmb.slew = s.tmb.slew ∧ t.tmb.pending = s.tmb.pending)) ∧
  (∀ (v : Word) (s : State), s.alive = true →
    (5 ∉ s.tmbList → ∃ t, exec (.tmbAdjWrite v) s = .next t ∧
      t.get F.TMB_CNT_TFRAME_REJ = satAdd 32767 (s.get F.TMB_CNT_TFRAME_REJ) 1 ∧ t = { s with regs := t.regs }) ∧
    (5 ∈ s.tmbList → s.get F.TMB_STAT_ACTIVE = 5 → s.get F.TMB_GTIME_TX_ID = 0 → ∃ t e, exec (.tmbAdjWrite v) s = .next t ∧
      e = toSigned 32 v.toNat * 65536 ∧ t.tmb.pending = -e ∧ t.tmb.pendAt = s.frc ∧ t.tod = s.tod ∧
      t.get F.TMB_LASTERR_W = sat32 (e / 65536) ∧ -(ppm (s.get F.TMB_CFG_SLEW_PPM)) ≤ t.tmb.slew ∧
      t.tmb.slew ≤ ppm (s.get F.TMB_CFG_SLEW_PPM) ∧ (10000 * 65536 ≤ e.natAbs → t.tmb.freq = s.tmb.freq) ∧ t.clk = s.clk)) ∧
  (∀ (n : Fin 2) (w : List Byte) (q t2 t1 : Nat) (k : Int) (s : State), (s.ptpPort n).sync = some (w, q, t2, k, some t1) → s.alive = true →
    (s.ptpPort n).due = true →
    ((if n.val = 0 then s.get F.ETH_PTP_STAT_STATE_E0 else s.get F.ETH_PTP_STAT_STATE_E1) = 9 → ∃ t, exec (.ptpMeasurement n) s = .next t ∧
      (t.ptpPort n).due = false ∧ (t.tsrc 4).newest = some s.frc ∧
      (t.tsrc 4).lastE = ((t2 : Int) - t1 - k) - toSigned 32 (s.get F.ETH_PTP_MPD_W) * 65536) ∧
    ((if n.val = 0 then s.get F.ETH_PTP_STAT_STATE_E0 else s.get F.ETH_PTP_STAT_STATE_E1) ≠ 9 → exec (.ptpMeasurement n) s = .next s)) ∧
  (∀ (s v : State), s.alive = true → s.tmb.slew ≠ 0 → s.get F.TMB_GTIME_TX_ID = 0 →
    v = s.advance (s.clk.frcBase + s.tmb.pendAt + s.slewLeft) → ∃ t, exec .slewEnd s = .next t ∧ t.tmb.pending = 0 ∧ t.tmb.slew = 0 ∧
      t.tmb.freq = s.tmb.freq ∧ t.tod = v.tod ∧ t.flag F.TMB_STAT_SLEWING = false ∧ t.clk = v.clk)

/-- A source that is no longer valid gives way to the next valid one of the list; the sender of the time frame queues it once in a Gheif
cycle, with the time of day at the cycle's start; the real-time clock is written each second; leap flags clear at the day's end; a held
entry is judged at its launch time; the counters clear (R306 to R309, R313, R314). -/
def Sys2Proof.Claims.TimebaseDuties : Prop :=
  (∀ s : State, s.alive = true → s.validTill (s.get F.TMB_STAT_ACTIVE) = none →
    (s.srcValid (s.get F.TMB_STAT_ACTIVE) = true → exec .sourceChange s = .next s) ∧
    (s.srcValid (s.get F.TMB_STAT_ACTIVE) = false → ∀ c i,
      s.firstValid (s.tmbList.drop (s.get F.TMB_STAT_ACT_IDX + 1)) (s.get F.TMB_STAT_ACT_IDX + 1) = (c, i) →
      ∃ t, exec .sourceChange s = .next t ∧ t.get F.TMB_STAT_ACTIVE = c % 8 ∧ t.get F.TMB_STAT_ACT_IDX = i % 4 ∧
        (257, s.fab) ∈ t.vdx.pulses ∧ ReportsOne s t .SOURCE_CHANGE [s.get F.TMB_STAT_ACTIVE, c] ∧ t.tod = s.tod)) ∧
  (∀ (c : Cluster) (d : SlotDesc) (s : State), s.clu = some c → c.desc (s.get F.TMB_GTIME_TX_ID) = some d → s.alive = true →
    s.get F.TMB_GTIME_TX_ID ≠ 0 → s.cyc.running = true →
    (s.tmb.sentN ≠ some s.cyc.n → ∃ t f, exec .timeFrameSend s = .next t ∧ f.length = 20 ∧ f.take 8 = beBytes 8 (todSec s.tmb.cycTod) ∧
      (f.drop 8).take 4 = beBytes 4 (todNs s.tmb.cycTod) ∧ f.drop 19 = [BitVec.ofNat 8 s.ghCyc.2] ∧
      t = { (s.qCommitHw (s.qgeo d.queue) 0 f).1 with tmb := { s.tmb with sentN := some s.cyc.n } }) ∧
    (s.tmb.sentN = some s.cyc.n → exec .timeFrameSend s = .next s)) ∧
  (∀ (s v : State), s.alive = true → s.clk.frcOn = true → v = s.advance (s.pwr.rtcAt + 800000000) → ∃ t, exec .rtcWrite s = .next t ∧
    t.pwr.rtcAt = v.clk.t ∧ t.pwr.nightValid = true ∧ t.flag F.PWR_NIGHT_VALID = true ∧
    t.pwr.rtc = v.tod * 32768 / secUnits % 2 ^ 55 * secUnits / 32768 ∧ t = { v with regs := t.regs, pwr := t.pwr }) ∧
  (∀ s : State, s.alive = true →
    ((s.flag F.TMB_UTC_LEAP61 = true ∨ s.flag F.TMB_UTC_LEAP59 = true) → ∃ t, exec .leapFlagClear s = .next t ∧
      t.flag F.TMB_UTC_LEAP61 = false ∧ t.flag F.TMB_UTC_LEAP59 = false ∧ t.clk = (s.advanceTod (s.tmb.leapDay * secUnits)).clk) ∧
    (s.flag F.TMB_UTC_LEAP61 = false → s.flag F.TMB_UTC_LEAP59 = false → exec .leapFlagClear s = .next s)) ∧
  (∀ (n : Fin 512) (d : PdDue) (e : Telegram) (s v : State), s.alive = true → s.sup.st ≠ .dusk → s.pdDue n = some d → s.telegram n = some e →
    d.ready = false → v = s.advance d.launch →
    (e.ogrp < 16 → v.holds e.ogrp = false → ∃ t, exec (.launch (.telegram n)) s = .next t ∧ t.pdDue n = none ∧ t.out = v.out) ∧
    ((16 ≤ e.ogrp ∨ v.holds e.ogrp = true) → v.launchAt d.launch = 3 → ∃ t, exec (.launch (.telegram n)) s = .next t ∧ t.pdDue n = none ∧
      t.out = v.out ∧ (261, t.fab) ∈ t.vdx.pulses) ∧
    ((16 ≤ e.ogrp ∨ v.holds e.ogrp = true) → v.launchAt d.launch ≠ 3 → (∀ k, k < 4 → d.ports.testBit k = true → v.ethFree k = false) →
      ∃ t, exec (.launch (.telegram n)) s = .next t ∧ t.pdDue n = some { d with ready := true })) ∧
  (∀ (q : Fin 64) (h : TxHead) (l : Nat) (s v : State), s.alive = true → s.sup.st ≠ .dusk → s.head q = some h → h.launch = some l →
    h.ready = false → v = s.advanceTod (stampUnits l) → v.ethFree h.port = false →
    (v.launchCase (stampUnits l) = 2 → exec (.launch (.ethQueue q)) s = .next (v.setHead q (some { h with ready := true }))) ∧
    (v.launchCase (stampUnits l) = 3 → ∃ t, exec (.launch (.ethQueue q)) s = .next t ∧ t.head q = none ∧ (261, t.fab) ∈ t.vdx.pulses)) ∧
  (∀ (n : Fin 6) (b : Fin 32) (x : Nat) (s v : State), s.alive = true → s.sup.st ≠ .dusk → s.canOn n = true → s.canBusOff n = false →
    b.val ∈ s.cands n → b.val ∉ (s.canst n).ready → s.tbMode n b = 2 → tget noneD (s.canst n).launch b = some x → v = s.advance x →
    ((v.tbLaunch n b).1 = 1 ∨ (v.tbLaunch n b).1 = 2 → exec (.launch (.canBuffer n b)) s = .next (v.canFree n b ((v.tbLaunch n b).1 == 2))) ∧
    ((v.tbLaunch n b).1 = 0 ∨ (v.tbLaunch n b).1 = 3 → ∃ t, exec (.launch (.canBuffer n b)) s = .next t ∧ t.tbPending n b = false ∧
      (261, t.fab) ∈ t.vdx.pulses ∧ t.out = v.out)) ∧
  (∀ (n : Fin 6) (g : QGeo) (s v : State), s.alive = true → s.sup.st ≠ .dusk → s.canOn n = true → s.canBusOff n = false → 32 ∈ s.cands n →
    32 ∉ (s.canst n).ready → s.txq n = some g → v = s.advanceTod (stampUnits (launchStamp (s.candDesc n 32))) →
    (v.descCase (v.qPayload g (v.qst g).rd) = 1 ∨ v.descCase (v.qPayload g (v.qst g).rd) = 2 → ∃ t,
      exec (.launch (.canQueue n)) s = .next t ∧
      (32 ∈ (t.canst n).ready ↔ v.descCase (v.qPayload g (v.qst g).rd) = 2) ∧ t = { v with can := t.can }) ∧
    (v.descCase (v.qPayload g (v.qst g).rd) = 0 ∨ v.descCase (v.qPayload g (v.qst g).rd) = 3 → ∃ t,
      exec (.launch (.canQueue n)) s = .next t ∧ (261, t.fab) ∈ t.vdx.pulses ∧ t.out = v.out)) ∧
  (∀ s : State, ∃ t, exec .tmbCntClr s = .next t ∧ t.get F.TMB_CNT_TFRAME_REJ = 0 ∧ t.get F.TMB_CNT_LAUNCH_LATE = 0 ∧
    t.get F.TMB_CNT_LAUNCH_FAR = 0 ∧ RegsBut s t [F.TMB_CNT_CLR.off] ∧ t = { s with regs := t.regs })

/-! ### Ethernet and Ixsum (chapters 12 and 13) -/

namespace Sys2Proof.Claims
open Sys2Proof Sys2Proof.Machine

/-- Receive and transmit counter `i` of an Ethernet port (R336). -/
def ethRx (s : State) (n i : Nat) : Nat := if i % 2 = 0 then s.get (F.ETH_RXCNT_LO n (i / 2)) else s.get (F.ETH_RXCNT_HI n (i / 2))
def ethTx (s : State) (n i : Nat) : Nat := if i % 2 = 0 then s.get (F.ETH_TXCNT_LO n (i / 2)) else s.get (F.ETH_TXCNT_HI n (i / 2))

/-- Receive counter `i` of a port has counted one. -/
def EthCounted (s t : State) (n i : Nat) : Prop := ethRx t n i = satAdd 65535 (ethRx s n i) 1

/-- A message `m` has been taken from delivery queue `q` into the state `u`, and `c` is the consumer connection of its carrier entry, with
descriptor `d` (R347). -/
def Delivered (s : State) (q : Nat) (u : State) (c : Nat) (d : IxsConn) (m : List Byte) : Prop :=
  s.ixsOn = true ∧ (s.qgeo q).cons = 0x122 ∧ c < 256 ∧ d.queue < 256 ∧ ∃ it b, s.qTakeHw (s.qgeo q) = (u, some it) ∧ b = it.data ∧ m = b.drop 16 ∧ u.conn c = some d ∧
    (if (s.qgeo q).prod = 0x120 then u.ixConsumer 1 (fieldLe b 0 2)
     else if (s.qgeo q).prod = 0x121 then u.ixConsumer 2 (fieldLe b 0 2)
     else u.ixConsumer 3 (fieldLe b 15 1 * 256 + fieldLe b 14 1)) = some c

end Sys2Proof.Claims

/-- A received frame that fails a check counts under the first one it fails and is dropped; one that passes is classified: to the queue of
the first rule that matches, or dropped and counted; a command datagram waits for the supervisor; a telegram is checked and stored for
its entry; of two copies of one fabric cycle that of the lower port stays (R318, R319, R333, R334, R336, R337). -/
def Sys2Proof.Claims.EthernetReception : Prop :=
  ∀ (n : Fin 4) (f : EthFrame) (v : PtpVerdict) (s : State), s.ethOn n = true → s.flag (F.ETH_PORT_STAT_LINK n) = true →
    (∀ i, (f.code = true ∧ i = 4 ∨ f.code = false ∧ f.fcs = false ∧ i = 1 ∨
        f.code = false ∧ f.fcs = true ∧ f.bytes.length + 4 < 64 ∧ i = 2 ∨ f.code = false ∧ f.fcs = true ∧ 1522 < f.bytes.length + 4 ∧ i = 3) →
      ∃ t, exec (.ethFrameRx n f v) s = .next t ∧ EthCounted s t n i ∧ (275, s.fab) ∈ t.vdx.pulses ∧
        t = { s with regs := t.regs, vdx := t.vdx }) ∧
    (f.code = false → f.fcs = true → 64 ≤ f.bytes.length + 4 → f.bytes.length + 4 ≤ 1522 →
      ¬ (ethType f.bytes = 0x8808 ∧ fieldBe f.bytes (ethHdr f.bytes) 2 = 1) →
      (ethStag f.bytes = true → ∃ t, exec (.ethFrameRx n f v) s = .next t ∧ EthCounted s t n 6 ∧ t = { s with regs := t.regs }) ∧
      (ethStag f.bytes = false → s.vidOk n f.bytes = false → ∃ t, exec (.ethFrameRx n f v) s = .next t ∧ EthCounted s t n 7 ∧
        t = { s with regs := t.regs }) ∧
      (ethStag f.bytes = false → s.vidOk n f.bytes = true → s.macOk n f.bytes = false → ∃ t, exec (.ethFrameRx n f v) s = .next t ∧
        EthCounted s t n 8 ∧ t = { s with regs := t.regs }) ∧
      (ethStag f.bytes = false → s.vidOk n f.bytes = true → s.macOk n f.bytes = true →
        ¬ (s.ptpOn n = true ∧ s.flag F.ETH_PTP_CFG_UDP = false ∧ ethType f.bytes = 0x88F7) →
        (udpOf f.bytes = none → s.ruleFor n f.bytes = none → ∃ t, exec (.ethFrameRx n f v) s = .next t ∧ EthCounted s t n 0 ∧
          EthCounted s t n 17 ∧ t = { s with regs := t.regs }) ∧
        (∀ r, udpOf f.bytes = none → s.ruleFor n f.bytes = some r → ∃ t u x, exec (.ethFrameRx n f v) s = .next t ∧
          EthCounted s u n 0 ∧ u = { s with regs := u.regs } ∧ x.drop 16 = f.bytes ∧ x.take 4 = [BitVec.ofNat 8 n.val, BitVec.ofNat 8 r] ++
            leBytes 2 f.bytes.length ∧
          ((u.qCommitHw (u.qgeo (u.get (F.ETH_RULE_QUEUE r))) 0 x).2 = true → t = (u.qCommitHw (u.qgeo (u.get (F.ETH_RULE_QUEUE r))) 0 x).1) ∧
          ((u.qCommitHw (u.qgeo (u.get (F.ETH_RULE_QUEUE r))) 0 x).2 = false → EthCounted u t n 18 ∧ (276, s.fab) ∈ t.vdx.pulses)) ∧
        (∀ d, udpOf f.bytes = some d → s.udpCase n d = (2, 0) → ipTest f.bytes = 0 →
          (∀ a ∈ s.sup.authFails, a.ip ≠ d.src) → ∃ t, exec (.ethFrameRx n f v) s = .next t ∧ t.sup.ethHeld = s.sup.ethHeld + 1 ∧
          EthCounted s t n 0 ∧ t = { s with regs := t.regs, sup := { s.sup with ethHeld := t.sup.ethHeld } }) ∧
        (∀ d k, udpOf f.bytes = some d → s.udpCase n d = k → k.1 = 1 ∨ k.1 = 2 ∨ k.1 = 3 → ipTest f.bytes = 1 →
          ∃ t, exec (.ethFrameRx n f v) s = .next t ∧ EthCounted s t n 9 ∧ (275, s.fab) ∈ t.vdx.pulses) ∧
        (∀ d k e, udpOf f.bytes = some d → s.udpCase n d = (3, k) → ipTest f.bytes = 0 → s.telegram k = some e → k < 512 →
          (fieldLe d.payload 36 4 ≠ crc32 (sliceB d.payload 0 36) → ∃ t, exec (.ethFrameRx n f v) s = .next t ∧ EthCounted s t n 11 ∧
            t.get (F.ETH_PDSTAT_REJ k) = satAdd 255 (s.get (F.ETH_PDSTAT_REJ k)) 1 ∧ (270, s.fab) ∈ t.vdx.pulses ∧
            t.eth.items = s.eth.items) ∧
          (fieldLe d.payload 36 4 = crc32 (sliceB d.payload 0 36) → fieldBe d.payload 4 1 = 1 →
            fieldBe d.payload 20 4 + 40 = d.payload.length → e.topo = 0 → fieldBe d.payload 20 4 ≤ e.dlen → e.queue = 0xFF →
            (tget noneD s.eth.refs k = none → ∃ t, exec (.ethFrameRx n f v) s = .next t ∧
              tget noneD t.eth.items k = some ⟨n, s.clk.t, s.pdItem n k (sliceB d.payload 40 (fieldBe d.payload 20 4))⟩ ∧
              tget noneD t.eth.refs k = some (fieldBe d.payload 0 4) ∧ t.get (F.ETH_PDSTAT_LAST_PORT k) = n.val) ∧
            (s.mapped 2 k = false → tget noneD s.eth.refs k = some (fieldBe d.payload 0 4) →
              ((∀ b, tget noneD s.eth.items k = some b → ¬ (n.val < b.port ∧ b.tm / 2 = s.fab)) → ∃ t, exec (.ethFrameRx n f v) s = .next t ∧
                EthCounted s t n 15 ∧ t.eth.items = s.eth.items) ∧
              (∀ b, tget noneD s.eth.items k = some b → n.val < b.port → b.port < 4 → b.tm / 2 = s.fab → ∃ t,
                exec (.ethFrameRx n f v) s = .next t ∧ EthCounted s t b.port 15 ∧
                tget noneD t.eth.items k = some ⟨n, s.clk.t, s.pdItem n k (sliceB d.payload 40 (fieldBe d.payload 20 4))⟩))))))

/-- A software item is taken, given the port's own source address and held ready or for its launch; a bad one is dropped, counted and
raised. An idle port sends PTP messages first, then telegrams, then the software queues in order, unless the launch guard defers it; a
telegram is assembled from the newest good dataset; a link that goes down drops what it held (R317, R321 to R323, R325, R331). -/
def Sys2Proof.Claims.EthernetSending : Prop :=
  (∀ (n : Fin 2) (msg : List Byte) (v : PtpVerdict) (s : State), s.ethOn n = true → s.ptpOn n = true → s.sup.st ≠ .dusk →
    ∃ t, exec (.ptpMessageTx n msg v) s = .next t ∧ (t.ptpPort n).tx = (s.ptpPort n).tx ++ [msg] ∧
      t.get F.ETH_PTP_STAT_STATE_E0 = (if s.ptpOn 0 then v.e0.val else 0) ∧
      t.get F.ETH_PTP_STAT_STATE_E1 = (if s.ptpOn 1 then v.e1.val else 0)) ∧
  (∀ (q : Fin 64) (n0 : Nat) (r : List Nat) (s : State), s.qPorts q = n0 :: r → s.alive = true → s.head q = none →
    qLevel (s.qgeo q) (s.qst (s.qgeo q)) ≠ 0 →
    (∀ u, s.qTakeHw (s.qgeo q) = (u, none) → n0 < 4 → ∃ t, exec (.ethTxItem q) s = .next t ∧ t.head q = none ∧ (274, s.fab) ∈ t.vdx.pulses ∧
      ethTx t n0 5 = satAdd 65535 (ethTx u n0 5) 1) ∧
    (∀ u it b, s.qTakeHw (s.qgeo q) = (u, some it) → b = it.data → fieldLe b 0 1 ∈ u.qPorts q → fieldLe b 1 1 = 0 → fieldLe b 4 4 = 0 → 28 ≤ b.length →
      b.length ≤ 1534 → u.ethOn (fieldLe b 0 1) = true → u.flag (F.ETH_PORT_STAT_LINK (fieldLe b 0 1)) = true →
      ∃ t h, exec (.ethTxItem q) s = .next t ∧ t.head q = some h ∧ h.port = fieldLe b 0 1 ∧ h.ready = true ∧ h.launch = none ∧
        h.frame.take 6 = (b.drop 16).take 6 ∧ (h.frame.drop 6).take 6 = u.ownMac (fieldLe b 0 1) ∧ 60 ≤ h.frame.length ∧
        t = u.setHead q (some h)) ∧
    (∀ u it b, s.qTakeHw (s.qgeo q) = (u, some it) → b = it.data → (4 ≤ fieldLe b 1 1 ∨ fieldLe b 4 4 ≠ 0) → ∃ t, exec (.ethTxItem q) s = .next t ∧
      t.head q = none ∧ (274, s.fab) ∈ t.vdx.pulses)) ∧
  (∀ (n : Fin 4) (s v : State), s.ethFree n = true → v = s.dropLate n →
    (v.nextFrame n = none → exec (.ethFrameStart n) s = .next v) ∧
    (∀ c g, v.nextFrame n = some c → v.guardAt n = some g → g < v.clk.t + frameTime n (v.frameLen n c) + 80 →
      ∃ t, exec (.ethFrameStart n) s = .next t ∧ t.out = v.out ∧ txKey n c ∈ t.eth.deferred) ∧
    (∀ m r, (v.ptpPort n).tx = m :: r → v.guardAt n = none → ∃ t e, exec (.ethFrameStart n) s = .next t ∧ t.out = v.out ++ [e] ∧
      e.iface = .ethernet ∧ e.unit = n.val ∧ e.kind = 1 ∧ e.data = v.ptpFrame n m ∧ (t.ptpPort n).tx = r ∧
      tget natD t.eth.busy n = v.clk.t + frameTime n ((v.ptpFrame n m).length + 4)) ∧
    (∀ x d e, v.nextFrame n = some (2, x) → v.guardAt n = none → v.pdDue x = some d → v.telegram x = some e →
      (d.it.ok = true → ∃ t o, exec (.ethFrameStart n) s = .next t ∧ t.out = v.out ++ [o] ∧ o.iface = .ethernet ∧ o.unit = n.val ∧
        o.kind = 2 ∧ o.data = v.pdFrame n e d) ∧
      (d.it.ok = false → ∃ t, exec (.ethFrameStart n) s = .next t ∧ t.out = v.out ∧ t.pdDue x = none ∧ (274, t.fab) ∈ t.vdx.pulses)) ∧
    (∀ q h, v.nextFrame n = some (3, q) → v.guardAt n = none → v.head q = some h → ∃ t e, exec (.ethFrameStart n) s = .next t ∧
      t.out = v.out ++ [e] ∧ e.iface = .ethernet ∧ e.unit = n.val ∧ e.data = h.frame ∧ t.head q = none ∧
      ethTx t n 0 = satAdd 65535 (ethTx v n 0) 1)) ∧
  (∀ (x : Fin 512) (e : Telegram) (cc go : Nat) (s v : State), s.telegram x = some e → e.dir = 1 → e.ogrp = 0xFF → e.queue < 64 →
    (s.sup.st = .run ∨ s.sup.st = .hold ∨ s.sup.st = .stop ∨ s.sup.st = .service) → e.period ≠ 0 →
    cc = (if e.launchUs < 2 then (s.cyc.count + 1) % 256 else s.cyc.count) → cc % e.period = e.phase →
    go = s.cyc.start + (if e.launchUs < 2 then s.cycleLen else 0) + e.launchUs * usUt → v = s.advance (go - 2 * usUt) →
    ∀ l, (v.qTakeAll (v.qgeo e.queue) (qLevel (v.qgeo e.queue) (v.qst (v.qgeo e.queue)))).2 = l →
    (l = [] → tget noneD s.eth.held x = none → ∃ t, exec (.pdTake x) s = .next t ∧ t.pdDue x = s.pdDue x ∧ t.out = v.out) ∧
    (∀ b, (l.filter fun y => y.data.length == e.dlen).getLast? = some b → ∃ t, exec (.pdTake x) s = .next t ∧
      tget noneD t.eth.held x = some b ∧ t.out = v.out ∧
      ((∃ k, k < 4 ∧ e.ports.testBit k = true ∧ v.ethOn k = true ∧ v.flag (F.ETH_PORT_STAT_LINK k) = true) →
        ∃ d, t.pdDue x = some d ∧ d.it = b ∧ d.launch = go ∧ d.ready = false ∧ d.seq = tget natD s.eth.seqs x))) ∧
  (∀ (n : Fin 4) (up : Bool) (s : State), s.ethOn n = true → s.flag (F.ETH_PORT_STAT_LINK n) = !up →
    ∃ t, exec (.ethLinkChange n up) s = .next t ∧ t.flag (F.ETH_PORT_STAT_LINK n) = up ∧ (264 + n.val, s.fab) ∈ t.vdx.pulses ∧
      (up = false → t.get (F.ETH_PORT_STAT_DOWNS n) = satAdd 255 (s.get (F.ETH_PORT_STAT_DOWNS n)) 1 ∧
        (∀ q h, q ∈ s.txQueues n → t.head q = some h → h.port ≠ n.val) ∧
        (∀ x d, x ∈ s.telegramIds → t.pdDue x = some d → d.ports.testBit n = false)) ∧
      t = { s with regs := t.regs, vdx := t.vdx, eth := t.eth }) ∧
  (∀ s : State, ∃ t, exec .ethCntclr s = .next t ∧ (∀ n i, n < 4 → i < 20 → ethRx t n i = 0) ∧ (∀ n i, n < 4 → i < 8 → ethTx t n i = 0) ∧
    t.get F.ETH_PTP_STAT_VIOL = 0 ∧ (∀ x, x < 512 → t.get (F.ETH_PDSTAT_REJ x) = 0 ∧
      t.get (F.ETH_PDSTAT_PRES x) = s.get (F.ETH_PDSTAT_PRES x)) ∧ t = { s with regs := t.regs })

/-- A safe message that fails its length or check value counts toward the error-rate monitor, and too many take the connection to FAILSAFE;
a wrong source identifier in VALID does so at once; a repetition changes nothing; an accepted one gives its data. An acknowledgement
releases FAILSAFE; a producer numbers and checks what it sends (R343 to R350). -/
def Obligations.IxsumSafety : Prop :=
  (∀ (q : Fin 64) (c : Nat) (d : IxsConn) (m : List Byte) (s u : State), Delivered s q u c d m →
    ((m.length ≠ 20 + d.dlen ∨ fieldBe m (16 + d.dlen) 4 ≠ ixCheck d.connId (m.take (16 + d.dlen))) →
      ∃ t, exec (.ixsMessageRx q) s = .next t ∧ t.get (F.IXS_CERR_CHECK_ERR c) = satAdd 65535 (u.get (F.IXS_CERR_CHECK_ERR c)) 1 ∧
        (298, u.fab) ∈ t.vdx.pulses ∧ (t.con c).data = (u.con c).data ∧
        (d.errMax < (u.con c).errs + 1 → u.ixState c ≠ 3 →
          t.ixState c = 3 ∧ t.get (F.IXS_CSTAT_CAUSE c) = 3 ∧ t.flag (F.IXS_CSTAT_ACK_PEND c) = true) ∧
        ((u.con c).errs + 1 ≤ d.errMax → t.ixState c = u.ixState c)) ∧
    (m.length = 20 + d.dlen → fieldBe m (16 + d.dlen) 4 = ixCheck d.connId (m.take (16 + d.dlen)) →
      (ixSid m ≠ d.sid → ∃ t, exec (.ixsMessageRx q) s = .next t ∧
        t.get (F.IXS_CERR_SID_ERR c) = satAdd 255 (u.get (F.IXS_CERR_SID_ERR c)) 1 ∧ (299, u.fab) ∈ t.vdx.pulses ∧
        (u.ixState c = 2 → t.ixState c = 3 ∧ t.get (F.IXS_CSTAT_CAUSE c) = 2) ∧ (u.ixState c ≠ 2 → t.ixState c = u.ixState c)) ∧
      (ixSid m = d.sid → (u.con c).hasRef = true → ixSsn m = u.get (F.IXS_CSSN_W c) → exec (.ixsMessageRx q) s = .next u) ∧
      (ixSid m = d.sid → u.ixState c = 2 → (u.con c).hasRef = true → ixSsn m = u.get (F.IXS_CSSN_W c) + 1 → 1 ≤ d.seqWin →
        u.ixAge (ixStamp m) ≤ ((d.tExpUs * 1000 : Nat) : Int) → -((d.futUs * 1000 : Nat) : Int) ≤ u.ixAge (ixStamp m) →
        u.flag F.TMB_STAT_TSET = true → d.queue = 0xFF → ∃ t, exec (.ixsMessageRx q) s = .next t ∧ t.ixState c = 2 ∧
          t.get (F.IXS_CSSN_W c) = ixSsn m ∧ (t.con c).data = sliceB m 16 d.dlen ∧ (t.con c).tstamp = ixStamp m ∧
          (t.source (srcKey 6 c)).cur = some ⟨u.item (sliceB m 16 d.dlen), u.clk.t, u.cyc.n⟩ ∧ t.get (F.IXS_CCNT_LOST c) = u.get (F.IXS_CCNT_LOST c)))) ∧
  (∀ (v : Word) (c : Nat) (d : IxsConn) (s : State), c = v.toNat % 512 → c < 256 → s.conn c = some d → d.role = 2 → s.ixsOn = true →
    s.ixState c = 3 → s.flag (F.IXS_CSTAT_ACK_PEND c) = true →
    ((s.con c).ackSet ≠ some s.fab → ∃ t, exec (.ixsAck v) s = .next t ∧ t.flag (F.IXS_CSTAT_ACK_PEND c) = false ∧
      (d.rejoinN ≤ s.get (F.IXS_CSTAT_REJOIN_CNT c) → t.ixState c = 2 ∧ (297, s.fab) ∈ t.vdx.pulses ∧ ReportsOne s t .IXS_VALID [c]) ∧
      (s.get (F.IXS_CSTAT_REJOIN_CNT c) < d.rejoinN → t.ixState c = 3)) ∧
    ((s.con c).ackSet = some s.fab → exec (.ixsAck v) s = .next s)) ∧
  (∀ (c : Fin 256) (d : IxsConn) (s : State), s.conn c = some d → d.role = 2 → s.ixsOn = true → s.clk.frcOn = true →
    ∃ t, exec (.ixsErrWindow c) s = .next t ∧ t.get (F.IXS_CSTAT_ERRWIN c) = 0 ∧ (t.con c).errs = 0 ∧
      (t.con c).win = (s.con c).win + d.errWinS * 800000000 ∧ t.ixState c = s.ixState c ∧
      t.clk.t = max s.clk.t (s.clk.frcBase + ((s.con c).win + d.errWinS * 800000000))) ∧
  (∀ (c : Fin 256) (d : IxsConn) (s : State), s.conn c = some d → d.role = 1 → d.ogrp = 0xFF → s.ixsOn = true → s.inRun = true →
    d.queue < 64 → qLevel (s.qgeo d.queue) (s.qst (s.qgeo d.queue)) ≠ 0 →
    (∀ u it b, s.qTakeHw (s.qgeo d.queue) = (u, some it) → b = it.data → b.length = d.dlen → u.ixSupply d < 64 →
      ∃ (t : State) (n : Nat) (y : State), exec (.ixsProducerItem c) s = .next t ∧ n = (if (u.con c).hasRef then u.get (F.IXS_CSSN_W c) + 1 else u.pwr.pcc * 65536) % 2 ^ 32 ∧
        t.get (F.IXS_CSSN_W c) = n ∧ t.ixState c = 2 ∧ (t.con c).hasRef = true ∧ y.get (F.IXS_CSSN_W c) = n ∧ y = { u with regs := y.regs, ixs := y.ixs } ∧
        (∀ z, y.qCommitHw (y.qgeo (u.ixSupply d)) 0 (ixMessage d n u.stamp b) = (z, true) → t = z) ∧
        (∀ z, y.qCommitHw (y.qgeo (u.ixSupply d)) 0 (ixMessage d n u.stamp b) = (z, false) → (304, s.fab) ∈ t.vdx.pulses)) ∧
    (∀ u, s.qTakeHw (s.qgeo d.queue) = (u, none) → ∃ t, exec (.ixsProducerItem c) s = .next t ∧ (304, s.fab) ∈ t.vdx.pulses ∧
      t.get (F.IXS_CCNT_LOST c) = satAdd 65535 (u.get (F.IXS_CCNT_LOST c)) 1)) ∧
  (∀ s : State, ∃ t, exec .ixsCntclr s = .next t ∧ (∀ c, c < 256 → t.get (F.IXS_CERR_CHECK_ERR c) = 0 ∧ t.get (F.IXS_CCNT_LOST c) = 0 ∧
    t.get (F.IXS_CCNT_SEQ_ERR c) = 0 ∧ t.get (F.IXS_CCNT_FAILSAFES c) = 0 ∧ t.get (F.IXS_CSSN_W c) = s.get (F.IXS_CSSN_W c) ∧
    t.ixState c = s.ixState c) ∧ t = { s with regs := t.regs })

/-! ### CAN FD controllers (chapter 14) -/

namespace Sys2Proof.Claims
open Sys2Proof Sys2Proof.Machine

/-- Counter `i` of controller `n`. -/
def canCnt (n i : Nat) : Field := if i % 2 = 0 then F.CAN_CNT_LO n (i / 2) else F.CAN_CNT_HI n (i / 2)

/-- Counter `i` of a controller has counted one more. -/
def CanCounted (s t : State) (n i : Nat) : Prop := t.get (canCnt n i) = satAdd 65535 (s.get (canCnt n i)) 1

/-- The controller works on its bus and is not bus-off. -/
def CanLive (s : State) (n : Nat) : Prop := s.canOn n = true ∧ s.canBusOff n = false

/-- Restricted operation does not end at this bus idle, so no held candidate is judged again (R374). -/
def CanStays (s : State) (n : Nat) : Prop := s.flag (F.CAN_STAT_RESTRICTED n) = false ∨ s.get (F.CAN_CTRL_MODE n) = 1 ∨ s.sup.st = .dusk

/-- A descriptor's launch time lets its entry compete, now or when the time comes; in bus-off nothing is judged (R314, R373). -/
def CanTimely (s : State) (n : Nat) (d : List Byte) : Prop := s.canBusOff n = true ∨ s.descCase d = 1 ∨ s.descCase d = 2

/-- The item of a received frame: its prefix and its data (R364). -/
def canItem (n e : Nat) (f : CanFrame) (stamp : Nat) : List Byte :=
  leBytes 4 (f.id % 2 ^ (if f.xtd then 29 else 11) + b2n f.xtd * 2 ^ 29 + b2n f.fdf * 2 ^ 30 + b2n f.brs * 2 ^ 31) ++ leBytes 8 stamp ++
    [BitVec.ofNat 8 (dlcLen f.fdf f.dlc), BitVec.ofNat 8 (b2n f.esi), BitVec.ofNat 8 e, BitVec.ofNat 8 n] ++ padTo (dlcLen f.fdf f.dlc) f.data

/-- The queue that an element's ACTION names: RXQ0, RXQ1 or a general queue (R362). -/
def canTarget (s : State) (n e : Nat) : QGeo :=
  if s.filterWord n e 1 / 2 ^ 29 = 3 then s.qgeo (s.filterWord n e 2 / 2 ^ 24) else s.rxq n (s.filterWord n e 1 / 2 ^ 29 - 1)

end Sys2Proof.Claims

/-- A valid frame lowers the receive error counter, in restricted operation not; a remote frame is counted, one that no element matches is
counted as NO_MATCH, one that ACTION 0 matches is discarded; otherwise the item is committed to the queue named, or counted where it is
too long or the queue has no credit; an element with LATCH keeps it in the half that was the shadow (R363, R364, R366). -/
def Sys2Proof.Claims.CanReception : Prop :=
  ∀ (n : Fin 6) (f : CanFrame) (s : State), CanLive s n →
    (s.get (F.CAN_CTRL_MODE n) ≠ 1 → s.sup.st ≠ .dusk → ∃ t, exec (.canFrameRx n f) s = .next t ∧ (t.canst n).tec = (s.canst n).tec ∧
      ((s.canst n).recv ≤ 127 → (t.canst n).recv = (s.canst n).recv - 1 ∧ t.freeCtr = s.freeCtr) ∧
      (127 < (s.canst n).recv → 119 ≤ (t.canst n).recv ∧ (t.canst n).recv ≤ 127 ∧ t.freeCtr = s.freeCtr + 1) ∧
      CanCounted s t n (if f.rtr then 4 else 0)) ∧
    ((s.get (F.CAN_CTRL_MODE n) = 1 ∨ s.sup.st = .dusk) → ∃ t, exec (.canFrameRx n f) s = .next t ∧ (t.canst n).tec = (s.canst n).tec ∧
      (t.canst n).recv = (s.canst n).recv ∧ t.freeCtr = s.freeCtr) ∧
    (CanStays s n → f.rtr = true → ∃ t, exec (.canFrameRx n f) s = .next t ∧ CanCounted s t n 4 ∧
      t = { s with regs := t.regs, can := t.can, vdx := t.vdx, freeCtr := t.freeCtr }) ∧
    (CanStays s n → f.rtr = false → s.filterFor n f.id f.xtd = none → ∃ t, exec (.canFrameRx n f) s = .next t ∧ CanCounted s t n 0 ∧ CanCounted s t n 1 ∧
      t = { s with regs := t.regs, can := t.can, vdx := t.vdx, freeCtr := t.freeCtr }) ∧
    (CanStays s n → f.rtr = false → ∀ e, s.filterFor n f.id f.xtd = some e →
      (s.filterWord n e 1 / 2 ^ 29 = 0 → ∃ t, exec (.canFrameRx n f) s = .next t ∧ CanCounted s t n 0 ∧
        t = { s with regs := t.regs, can := t.can, vdx := t.vdx, freeCtr := t.freeCtr }) ∧
      (s.filterWord n e 1 / 2 ^ 29 = 4 → (s.filterWord n e 2).testBit 23 = true → ∃ t h, exec (.canFrameRx n f) s = .next t ∧
        h = (!(tget boolD (s.canst n).half e)) ∧ CanCounted s t n 0 ∧ tget boolD (t.canst n).half e = h ∧ e ∈ (t.canst n).latched ∧
        t.rdBytes (s.latchAddr n e + (if h then 80 else 0)) 80 = padTo 80 (canItem n e f s.stamp) ∧
        MemBut s t (s.latchAddr n e + (if h then 80 else 0)) 80 ∧ t.queues = s.queues ∧
        (t.source (srcKey 3 (n * 256 + e))).cur = some ⟨s.item (canItem n e f s.stamp), s.clk.t, s.cyc.n⟩) ∧
      (1 ≤ s.filterWord n e 1 / 2 ^ 29 → s.filterWord n e 1 / 2 ^ 29 ≤ 3 → (s.filterWord n e 2).testBit 23 = false →
        ∀ g, g = canTarget s n e →
        (g.esize < dlcLen f.fdf f.dlc + 24 → ∃ t, exec (.canFrameRx n f) s = .next t ∧ CanCounted s t n 0 ∧ CanCounted s t n 2 ∧
          (canSrc n 6, s.fab) ∈ t.vdx.pulses ∧ t.mem = s.mem ∧ t.queues = s.queues ∧
          t.rcd.reported.map (fun r => r.code) = s.rcd.reported.map (fun r => r.code) ++ [.CAN_OVERSIZE]) ∧
        (dlcLen f.fdf f.dlc + 24 ≤ g.esize → qCredits g (s.qst g) = 0 → ∃ t, exec (.canFrameRx n f) s = .next t ∧ CanCounted s t n 0 ∧
          CanCounted s t n 3 ∧ t = { s with regs := t.regs, can := t.can, vdx := t.vdx, freeCtr := t.freeCtr }) ∧
        (dlcLen f.fdf f.dlc + 24 ≤ g.esize → qCredits g (s.qst g) ≠ 0 → s.qResetNow g = false → NotTxq s g → ∃ t,
          exec (.canFrameRx n f) s = .next t ∧ CanCounted s t n 0 ∧ t.queue g.b = qPushed g (s.qst g) s.stamp ∧ (∀ b, b ≠ g.b → t.queue b = s.queue b) ∧
          t.rdBytes (qSlot g (s.qst g).wr + 8) (dlcLen f.fdf f.dlc + 16) = canItem n e f s.stamp ∧
          t.rdLe (qSlot g (s.qst g).wr + 4) 4 = crc32c (canItem n e f s.stamp) ∧
          MemBut s t (qSlot g (s.qst g).wr) (dlcLen f.fdf f.dlc + 24) ∧ t.rcd = s.rcd ∧ t.cyc = s.cyc)))

/-- A request makes a buffer pending where its mode is the request mode, its descriptor obeys R367 and its launch time is neither too far
ahead nor past; a cancellation drops a pending
buffer that has not started, and is late for one that has; FLUSH empties the transmit queue and counts its items; RECOVER starts the
recovery; the mode written is kept (R314, R368, R369, R371, R373, R374). -/
def Sys2Proof.Claims.CanRequests : Prop :=
  (∀ (n : Fin 6) (v : Word) (s : State), s.canOn n = true →
    (∃ t, exec (.canTxreq n v) s = .next t ∧
      (∀ b, b < 32 → t.tbPending n b =
        (s.tbPending n b || (v.getLsbD b && s.tbMode n b == 0 && descOk (s.tbDesc n b) &&
          (s.canBusOff n || s.descCase (s.tbDesc n b) == 1 || s.descCase (s.tbDesc n b) == 2)))) ∧
      ((∃ b, b < 32 ∧ v.getLsbD b = true ∧ s.tbMode n b = 0 ∧ s.tbPending n b = false ∧ descOk (s.tbDesc n b) = true ∧
        ¬ CanTimely s n (s.tbDesc n b)) → (261, s.fab) ∈ t.vdx.pulses) ∧
      ((∃ b, b < 32 ∧ v.getLsbD b = true ∧ s.tbMode n b = 0 ∧ s.tbPending n b = false ∧ descOk (s.tbDesc n b) = false) →
        (canSrc n 7, s.fab) ∈ t.vdx.pulses) ∧
      ((∀ b, b < 32 → v.getLsbD b = true → s.tbMode n b = 0 → descOk (s.tbDesc n b) = true ∧ CanTimely s n (s.tbDesc n b)) →
        RegsBut s t [(F.CAN_TXPEND_W n).off, (F.CAN_TXHELD_W n).off] ∧ t.vdx = s.vdx ∧ t.rcd = s.rcd) ∧
      t = { s with regs := t.regs, can := t.can, vdx := t.vdx, rcd := t.rcd }) ∧
    (∃ t, exec (.canTxcan n v) s = .next t ∧
      (∀ b, b < 32 → t.tbPending n b = (s.tbPending n b && !(v.getLsbD b && (s.canst n).started != some b))) ∧
      (∀ b, b < 32 → v.getLsbD b = true → s.tbPending n b = true → (s.canst n).started ≠ some b →
        t.canBit (F.CAN_TXCANC_W n) b = true ∧ (canSrc n 3, s.fab) ∈ t.vdx.pulses) ∧
      (∀ b, b < 32 → v.getLsbD b = true → s.tbPending n b = true → (s.canst n).started = some b → (t.canst n).lateCancel = true) ∧
      t = { s with regs := t.regs, can := t.can, vdx := t.vdx })) ∧
  (∀ (n : Fin 6) (s : State), s.canFitted n = true → s.alive = true →
    (∀ g c, s.txq n = some g → c = s.qst g → c.holes = [] → c.unver = 0 → c.rd < 2 * g.depth → c.wr < 2 * g.depth →
      (s.canst n).started ≠ some 32 → ∃ t, exec (.canFlush n) s = .next t ∧
        t.queue g.b = { c with rd := c.wr, unret := c.unret + qHeld g c } ∧ t.get (canCnt n 6) = satAdd 65535 (s.get (canCnt n 6)) (qHeld g c) ∧
        t = { s with regs := t.regs, queues := t.queues, vdx := t.vdx, can := t.can }) ∧
    (∀ v : Word, v.toNat % 4 < 2 → ∃ t, exec (.canModeWrite n v) s = .next t ∧ t.get (F.CAN_CTRL_MODE n) = v.toNat % 4 ∧
      RegsBut s t [(F.CAN_CTRL_MODE n).off] ∧ t = { s with regs := t.regs }) ∧
    (s.canOn n = true → s.get (F.CAN_STAT_ESTATE n) = 2 → ∃ t, exec (.canRecover n) s = .next t ∧ t.get (F.CAN_STAT_ESTATE n) = 3 ∧
      RegsBut s t [(F.CAN_STAT_ESTATE n).off] ∧ t = { s with regs := t.regs }))

/-- A supply-mode buffer takes the head item of its queue: it becomes pending with it, or the item is counted where its length is not the
buffer's or its transit check fails; RXQ0 and RXQ1 are released by the pair configured alone, and refuse every COMMIT (R365, R368). -/
def Sys2Proof.Claims.CanQueues : Prop :=
  (∀ (n : Fin 6) (b : Fin 32) (s : State) (g : QGeo), s.canOn n = true → s.tbMode n b = 1 → (s.canst n).started ≠ some b.val →
    g = s.qgeo (s.get (F.CAN_TBCFG_QUEUE n b)) → qLevel g (s.qst g) ≠ 0 → NotTxq s g →
    (s.qItemOk g (s.qst g).rd = true → (s.qPayload g (s.qst g).rd).length = s.tbLen n b → ¬ CanTimely s n (s.tbDesc n b) →
      ∃ t, exec (.canSupplyItem n b) s = .next t ∧ t.queue g.b = qPopped g (s.qst g) ∧ t.tbPending n b = false ∧
        (261, s.fab) ∈ t.vdx.pulses) ∧
    (s.qItemOk g (s.qst g).rd = true → (s.qPayload g (s.qst g).rd).length = s.tbLen n b → CanTimely s n (s.tbDesc n b) →
      ∃ t, exec (.canSupplyItem n b) s = .next t ∧ t.queue g.b = qPopped g (s.qst g) ∧ t.tbPending n b = true ∧
        t.rdBytes (tbAddr n b + 16) (s.tbLen n b) = s.qPayload g (s.qst g).rd ∧ MemBut s t (tbAddr n b + 16) (s.tbLen n b) ∧
        (s.tbPending n b = true → CanCounted s t n 6) ∧
        t = { s with regs := t.regs, mem := t.mem, queues := t.queues, can := t.can, vdx := t.vdx }) ∧
    (s.qItemOk g (s.qst g).rd = true → (s.qPayload g (s.qst g).rd).length ≠ s.tbLen n b →
      ∃ t, exec (.canSupplyItem n b) s = .next t ∧ t.queue g.b = qPopped g (s.qst g) ∧ CanCounted s t n 8 ∧
        (canSrc n 7, s.fab) ∈ t.vdx.pulses ∧ t.tbPending n b = s.tbPending n b ∧
        t = { s with regs := t.regs, queues := t.queues, vdx := t.vdx }) ∧
    (s.qItemOk g (s.qst g).rd = false → ∃ t, exec (.canSupplyItem n b) s = .next t ∧ t.queue g.b = qPopped g (s.qst g) ∧
        CanCounted s t n 9 ∧ t.get g.DISCARDS = satAdd 65535 (s.get g.DISCARDS) 1 ∧ (canSrc n 7, s.fab) ∈ t.vdx.pulses ∧
        t.tbPending n b = s.tbPending n b ∧ t = { s with regs := t.regs, queues := t.queues, vdx := t.vdx, rcd := t.rcd })) ∧
  (∀ (who : Fin 4) (n : Fin 6) (m : Fin 2) (v : Word) (s : State), s.canFitted n = true → s.alive = true →
    (v.getLsbD 30 = false → v.getLsbD 31 = true → who.val = s.get (F.CAN_RXQ_CFG_PAIR n m) →
      qLevel (s.rxq n m) (s.qst (s.rxq n m)) ≠ 0 → ∃ t, exec (.canRxqRelease who n m v) s = .next t ∧
        t.queue (s.rxq n m).b = qPopped (s.rxq n m) (s.qst (s.rxq n m)) ∧
        t = { s with regs := t.regs, queues := t.queues, vdx := t.vdx }) ∧
    ((v.getLsbD 30 = true ∧ v.getLsbD 31 = false ∨ v.getLsbD 30 = false ∧ v.getLsbD 31 = true ∧ who.val ≠ s.get (F.CAN_RXQ_CFG_PAIR n m)) →
      ∃ t, exec (.canRxqRelease who n m v) s = .next t ∧ t.get (F.CAN_RXQ_CNT_REFUSED n m) = satAdd 255 (s.get (F.CAN_RXQ_CNT_REFUSED n m)) 1 ∧
        RegsBut s t [(F.CAN_RXQ_CNT_REFUSED n m).off] ∧ t = { s with regs := t.regs }))

/-- At an opportunity the controller starts the candidate that is first in the order of R370; in restricted operation it starts nothing; a
frame that loses is retried, or cancelled after a late request; one that completes leaves the module, is counted, and its buffer is done
(R370, R371, R374). -/
def Sys2Proof.Claims.CanTransmission : Prop :=
  (∀ (n : Fin 6) (tdcv : Nat) (s : State), CanLive s n →
    (s.get (F.CAN_CTRL_MODE n) ≠ 1 → s.sup.st ≠ .dusk → s.flag (F.CAN_STAT_RESTRICTED n) = false → (s.canst n).started = none →
      s.rivals n ≠ [] →
      (∀ b ∈ s.rivals n, s.candDescOk n b = true ∧ s.candOk n b = true ∧
        (b < 32 → s.tbMode n b = 2 → s.holds (s.get (F.CAN_TBCFG_OGRP n b)) = true)) →
      ∃ t b, exec (.canArbitration n true tdcv) s = .next t ∧ b ∈ s.rivals n ∧ (∀ c ∈ s.rivals n, s.candKey n b ≤ s.candKey n c) ∧
        t.canst n = { s.canst n with started := some b, lateCancel := false } ∧
        t = { s with regs := t.regs, can := t.can }) ∧
    ((s.get (F.CAN_CTRL_MODE n) = 1 ∨ s.sup.st = .dusk) → (s.canst n).started = none → ∃ t, exec (.canArbitration n true tdcv) s = .next t ∧
      t.flag (F.CAN_STAT_RESTRICTED n) = true ∧ RegsBut s t [(F.CAN_STAT_RESTRICTED n).off] ∧ t = { s with regs := t.regs }) ∧
    (∀ b, (s.canst n).started = some b → b < 32 → tget noneD (s.canst n).next b = none →
      ((s.canst n).lateCancel = false → ∃ t, exec (.canArbitration n false tdcv) s = .next t ∧
        t.canst n = { s.canst n with started := none } ∧ t = { s with can := t.can }) ∧
      ((s.canst n).lateCancel = true → ∃ t, exec (.canArbitration n false tdcv) s = .next t ∧
        t.canst n = { s.canst n with started := none, lateCancel := false, ready := (s.canst n).ready.filter (· ≠ b) } ∧
        t.tbPending n b = false ∧ t.canBit (F.CAN_TXCANC_W n) b = true ∧ (canSrc n 3, s.fab) ∈ t.vdx.pulses ∧
        t = { s with regs := t.regs, can := t.can, vdx := t.vdx }))) ∧
  (∀ (n : Fin 6) (b : Nat) (s : State), s.canOn n = true → (s.canst n).started = some b →
    (b < 32 → ∃ t, exec (.canTxComplete n) s = .next t ∧ t.out = s.out ++ [⟨.can, n, b, s.clk.t, s.tbBytes n b⟩] ∧
      CanCounted s t n 5 ∧ t.canBit (F.CAN_TXDONE_W n) b = true ∧ (t.canst n).tec = (s.canst n).tec - 1) ∧
    (CanStays s n → b < 32 → tget noneD (s.canst n).next b = none → ∃ t, exec (.canTxComplete n) s = .next t ∧
      (canSrc n 2, s.fab) ∈ t.vdx.pulses ∧
      t.canst n =
        { s.canst n with started := none, lateCancel := false, tec := (s.canst n).tec - 1, ready := (s.canst n).ready.filter (· ≠ b) } ∧ t.tbPending n b = false ∧
      ((s.canst n).lateCancel = true → t.canBit (F.CAN_TXLATE_W n) b = true) ∧
      t = { s with regs := t.regs, can := t.can, vdx := t.vdx, out := t.out }) ∧
    (∀ g d ok, b = 32 → s.txq n = some g → s.txqHead n = some (d, ok) →
      (∃ t, exec (.canTxComplete n) s = .next t ∧ CanCounted s t n 5 ∧
        t.out = s.out ++ [⟨.can, n, b, s.clk.t, d.take (16 + fieldLe d 12 1)⟩]) ∧
      (CanStays s n → s.canBusOff n = false → s.txqOf g = some n.val → qLevel g (qPopped g (s.qst g)) = 0 → ∃ t,
        exec (.canTxComplete n) s = .next t ∧ t.queue g.b = qPopped g (s.qst g) ∧
        t.canst n =
          { s.canst n with started := none, lateCancel := false, tec := (s.canst n).tec - 1, headPtr := none, ready := (s.canst n).ready.filter (· ≠ 32) } ∧
        t = { s with regs := t.regs, queues := t.queues, can := t.can, vdx := t.vdx, out := t.out })))

/-- An error is counted under its kind and shown in LEC; it raises the counter concerned, past 127 to error passive and past 255 of the
transmit counter to bus-off, with every pending buffer held; at the recovery's end the controller is error active again and its pending buffers are judged; a filter line
is restored from the configuration; the counters are cleared (R372, R373, R377). -/
def Sys2Proof.Claims.CanErrors : Prop :=
  (∀ (n : Fin 6) (kind : Fin 6) (tx : Bool) (add : Fin 9) (s : State), CanLive s n →
    ∃ t, exec (.canError n kind tx add) s = .next t ∧ t.get (F.CAN_STAT_LEC n) = kind.val + 1 ∧
      CanCounted s t n (match kind.val with | 0 => 11 | 1 => 12 | 2 => 13 | 5 => 14 | _ => 10) ∧
      (s.flag (F.CAN_STAT_RESTRICTED n) = true → (t.canst n).tec = (s.canst n).tec ∧ (t.canst n).recv = (s.canst n).recv ∧
        t.get (F.CAN_STAT_ESTATE n) = s.get (F.CAN_STAT_ESTATE n)) ∧
      (s.flag (F.CAN_STAT_RESTRICTED n) = false →
        (tx = true → (t.canst n).tec = (s.canst n).tec + add ∧ (t.canst n).recv = (s.canst n).recv ∧ (t.canst n).started = none) ∧
        (tx = false → (t.canst n).tec = (s.canst n).tec ∧ (t.canst n).recv = min 255 ((s.canst n).recv + add)) ∧
        (255 < (t.canst n).tec → t.get (F.CAN_STAT_ESTATE n) = (if s.flag (F.CAN_CFG_AUTO_RECOVER n) then 3 else 2) ∧
          t.get (F.CAN_TXHELD_W n) = t.get (F.CAN_TXPEND_W n) ∧ (canSrc n 4, s.fab) ∈ t.vdx.pulses ∧
          (∃ r ∈ t.rcd.reported, r.code = .CAN_BUSOFF)) ∧
        ((t.canst n).tec ≤ 255 → (127 < (t.canst n).tec ∨ 127 < (t.canst n).recv) → s.get (F.CAN_STAT_ESTATE n) = 0 →
          t.get (F.CAN_STAT_ESTATE n) = 1 ∧ (canSrc n 4, s.fab) ∈ t.vdx.pulses) ∧
        ((t.canst n).tec ≤ 127 → (t.canst n).recv ≤ 127 → t.get (F.CAN_STAT_ESTATE n) = s.get (F.CAN_STAT_ESTATE n)) ∧
        ((t.canst n).tec ≤ 255 → (∀ b, (s.canst n).started = some b → tget noneD (s.canst n).next b = none) → t.rcd = s.rcd))) ∧
  (∀ (n : Fin 6) (s : State), s.canOn n = true → s.get (F.CAN_STAT_ESTATE n) = 3 → ∃ t, exec (.canBusoffEnd n) s = .next t ∧
    (t.canst n).tec = 0 ∧ (t.canst n).recv = 0 ∧ (t.canst n).started = (s.canst n).started ∧ t.get (F.CAN_ECR_TEC n) = 0 ∧
    t.get (F.CAN_ECR_REC n) = 0 ∧ t.get (F.CAN_STAT_ESTATE n) = 0 ∧ t.get (F.CAN_STAT_RECOV_CNT n) = 128 ∧ t.get (F.CAN_TXHELD_W n) = 0 ∧
    (canSrc n 4, s.fab) ∈ t.vdx.pulses ∧ (canSrc n 5, s.fab) ∈ t.vdx.pulses ∧ (∃ r ∈ t.rcd.reported, r.code = .CAN_BUSOFF_END) ∧
    (∀ b, b < 32 → s.tbPending n b = true → (s.canst n).started ≠ some b → (s.tbLaunch n b).1 = 2 →
      t.tbPending n b = true ∧ b ∈ (t.canst n).ready) ∧
    t = { s with regs := t.regs, can := t.can, vdx := t.vdx, rcd := t.rcd, queues := t.queues }) ∧
  (∀ (n : Fin 6) (line : Fin 256) (s : State), s.canFitted n = true → s.alive = true → s.poisoned (canAddr n (64 * line)) = true →
    64 * line.val < 0x1600 → ∃ t, exec (.filterLineRestore n line) s = .next t ∧ t.poisoned (canAddr n (64 * line)) = false ∧
      (∀ o, 64 * line.val ≤ o → o < 64 * line.val + 64 → o < 0xC00 →
        t.rd8 (canAddr n o) = tget byteD s.cfg.canRam (n * 16384 + o)) ∧
      (∀ o, 0xC00 ≤ o → 16 ≤ (o - 0xC00) % 80 → t.rd8 (canAddr n o) = s.rd8 (canAddr n o)) ∧
      MemBut s t (canAddr n (64 * line)) 64 ∧ t = { s with mem := t.mem, poison := t.poison }) ∧
  (∀ (n : Fin 6) (s : State), ∃ t, exec (.canCntClr n) s = .next t ∧ (∀ i, i < 16 → t.get (canCnt n i) = 0) ∧
    (∀ q, q < 0xA0020 + n * 0x1000 ∨ 0xA0040 + n * 0x1000 ≤ q → t.reg q = s.reg q) ∧ t = { s with regs := t.regs })

/-! ### The legacy rack bridge (chapter 15) -/

namespace Sys2Proof.Claims
open Sys2Proof Sys2Proof.Machine

/-- Counter `i` of R396. -/
def lrbCnt (i : Nat) : Field := if i % 2 = 0 then F.LRB_CNT_LO (i / 2) else F.LRB_CNT_HI (i / 2)

/-- Counter `i` of the bridge has counted one more. -/
def LrbCounted (s t : State) (i : Nat) : Prop := t.get (lrbCnt i) = satAdd 65535 (s.get (lrbCnt i)) 1

/-- A pair in machine mode may make an access of `2 ^ size` bytes, and no trigger halts it first (R71, R383, R384). -/
def RackMay (s : State) (p addr size : Nat) : Prop :=
  Issues s p ∧ (s.pair p).umode = false ∧ s.lrbFitted = true ∧ size < 3 ∧ addr % 2 ^ size = 0 ∧ s.inWin addr = false

/-- A load of the window ends: its register has the value, no other changes, and the instruction retires. -/
def RackLoaded (s t : State) (p : Nat) (d : RackLd) (v : Nat) : Prop :=
  (d.fp = false → (t.pair p).curBank.f = (s.pair p).curBank.f ∧
    ∀ r, (t.pair p).x r = if r = d.rd.val ∧ r ≠ 0 then BitVec.ofNat 64 v else (s.pair p).x r) ∧
  (d.fp = true → tget dwordD (t.pair p).curBank.f d.rd = BitVec.ofNat 64 (0xFFFFFFFF00000000 + v % 2 ^ 32) ∧
    (∀ r, r ≠ d.rd.val → tget dwordD (t.pair p).curBank.f r = tget dwordD (s.pair p).curBank.f r) ∧
    ∀ r, (t.pair p).x r = (s.pair p).x r) ∧
  Retired s t p ((s.pair p).pc + d.len) ∧ (t.pair p).stall = none ∧ PairsBut s t p

/-- The pair waits for its access, a load where `read`, its registers as they were. -/
def RackStalled (s t : State) (p : Nat) (read : Bool) : Prop :=
  t.pair p = { s.pair p with stall := some (.rack read) } ∧ PairsBut s t p

/-- The transaction starts at once on a free bridge, and waits in arrival order behind one that runs (R383). -/
def RackTaken (s t : State) (x : RackTx) : Prop :=
  (∀ y, s.lrb.run = some y → t.lrb = { s.lrb with waiting := s.lrb.waiting ++ [x] }) ∧
  (s.lrb.run = none → s.lrb.waiting = [] → s.lrb.lists = [] → t.lrb = { s.lrb with run := some x })

/-- A cycle is opened on the bus: its direction, address, strobes and, of a write, its data leave the module (R381). -/
def CycleOut (s t : State) (c : RackCyc) : Prop :=
  t.lrb.open_ = true ∧ t.out = s.out ++ [⟨.rack, 1, b2n c.wr, s.clk.t,
    beBytes 3 c.addr ++ [BitVec.ofNat 8 (2 * b2n c.ub + b2n c.lb)] ++ (if c.wr then beBytes 2 c.data else [])⟩]

/-- The bridge has finished its transaction; with nothing waiting it is free and the bus idle. -/
def RackEnded (s t : State) : Prop :=
  t.get F.LRB_STAT_OWNER = 0 ∧ t.flag F.LRB_STAT_LOCKED = false ∧
  (s.lrb.waiting = [] → s.lrb.lists = [] → t.lrb.run = none ∧ t.lrb.open_ = false)

/-- Board `b` is the next in rotation of those that request the bus (R380). -/
def BoardNext (s : State) (reqs : BitVec 4) (b : Nat) : Prop :=
  ∃ i, 1 ≤ i ∧ i ≤ 4 ∧ b = (s.lrb.lastBoard + i) % 4 ∧ reqs.getLsbD b = true ∧
    ∀ j, 1 ≤ j → j < i → reqs.getLsbD ((s.lrb.lastBoard + j) % 4) = false

end Sys2Proof.Claims

/-- Loads of the rack window take held data without a cycle, are served from the prefetch buffer, or wait for an outbound transaction;
stores retire and their cycles follow; an access that R384 forbids is counted and shown in LRB_ERRADDR, and a load or AMO so refused ends
in an exception, a store in none; where the module has no bridge every access ends in one (R7, R383, R384, R389). -/
def Sys2Proof.Claims.RackAccesses : Prop :=
  (∀ (p : Fin 4) (addr : Nat) (size : Fin 4) (d : RackLd) (s : State), RackMay s p addr size →
    (∀ h, tget noneD s.lrb.held p = some h → h.addr = addr → h.size = size.val → s.clk.t ≤ h.tm + 10 * usUt →
      ∃ t, exec (.rackRead p addr size d) s = .next t ∧ RackLoaded s t p d (rackExt size d.unsigned h.value) ∧
        tget noneD t.lrb.held p = none ∧ t = { s with pairs := t.pairs, lrb := t.lrb }) ∧
    (tget noneD s.lrb.held p = none → tget noneD s.lrb.pf p = none → s.prefetchable addr = false →
      ∃ t, exec (.rackRead p addr size d) s = .next t ∧ RackStalled s t p true ∧
        RackTaken s t ⟨.read d, p, addr, size, s.clk.t, rackCycles addr size false 0, [], false⟩ ∧
        t = { s with pairs := t.pairs, lrb := t.lrb }) ∧
    (∀ b a v, tget noneD s.lrb.held p = none → tget noneD s.lrb.pf p = some b → size = 1 →
      b.halves.find? (fun c => c.1 == addr) = some (a, v) → ∃ t, exec (.rackRead p addr size d) s = .next t ∧
        RackLoaded s t p d (rackExt 1 d.unsigned v) ∧ t = { s with pairs := t.pairs, lrb := t.lrb } ∧
        tget noneD t.lrb.pf p = some { b with fresh := b.fresh.filter fun a => decide (a + 2 ≤ addr ∨ addr + 2 ≤ a) })) ∧
  (∀ (p : Fin 4) (addr : Nat) (size : Fin 4) (v : DWord) (len : Nat) (s : State), RackMay s p addr size →
    (tget noneD s.lrb.held p = none → ∃ t, exec (.rackWrite p addr size v len) s = .next t ∧
      Retired s t p ((s.pair p).pc + len) ∧ SameRegisters s t p ∧ PairsBut s t p ∧
      RackTaken s t ⟨.write, p, addr, size, s.clk.t, rackCycles addr size true v.toNat, [], false⟩ ∧
      t = { s with pairs := t.pairs, lrb := t.lrb }) ∧
    (∀ h, tget noneD s.lrb.held p = some h → ∃ t, exec (.rackWrite p addr size v len) s = .next t ∧ tget noneD t.lrb.held p = none ∧
      LrbCounted s t 9 ∧ Retired s t p ((s.pair p).pc + len))) ∧
  (∀ (p : Fin 4) (addr : Nat) (size : Fin 4) (d : RackLd) (v : DWord) (len : Nat) (s : State), Issues s p → (s.pair p).umode = false →
    (s.lrbFitted = true → (size = 3 ∨ addr % 2 ^ size.val ≠ 0 ∨ s.inWin addr = true) →
      ∀ c, (c = .rackRead p addr size d ∧ (s.pair p).mtvec ≠ 0 ∨ c = .rackWrite p addr size v len) →
        ∃ t, exec c s = .next t ∧ LrbCounted s t 3 ∧ (364, s.fab) ∈ t.vdx.pulses ∧ t.flag F.LRB_ERRADDR_OUT = true ∧
          t.get F.LRB_ERRADDR_KIND = 3 ∧ t.get F.LRB_ERRADDR_ADDR = addr % 2 ^ 24 ∧ t.out = s.out ∧ t.mem = s.mem ∧
          (c = .rackRead p addr size d → Saved s t p 5 (0x60000000 + addr) ∧ (t.pair p).pc = (s.pair p).mtvec % 2 ^ 64) ∧
          (c = .rackWrite p addr size v len → Retired s t p ((s.pair p).pc + len) ∧ SameRegisters s t p ∧ PairsBut s t p ∧ t.lrb = s.lrb)) ∧
    (s.lrbFitted = false → (s.pair p).mtvec ≠ 0 →
      ∀ c cause, (c = .rackRead p addr size d ∧ cause = 5 ∨ c = .rackWrite p addr size v len ∧ cause = 7) →
        ∃ t, exec c s = .next t ∧ Saved s t p cause (0x60000000 + addr) ∧ (t.pair p).pc = (s.pair p).mtvec % 2 ^ 64 ∧
          t.rcd.reported.map (fun r => r.code) = s.rcd.reported.map (fun r => r.code) ++ [.ABSENT_PROBE] ∧ t.mem = s.mem))

/-- An AMO is a locked sequence of two reads and two writes; LR.W reads the word; SC.W makes its two write cycles only where the
semaphore is valid and names the same pair and word, and otherwise returns 1, counted; 64-bit forms end in an exception (R384 to
R386). -/
def Sys2Proof.Claims.RackExclusives : Prop :=
  (∀ (p : Fin 4) (addr : Nat) (op : AmoOp) (v : DWord) (d : RackLd) (s : State), RackMay s p addr 2 → tget noneD s.lrb.held p = none →
    tget noneD s.lrb.pf p = none →
    (∃ t, exec (.rackAmo p addr false op v d) s = .next t ∧ RackStalled s t p false ∧ t = { s with pairs := t.pairs, lrb := t.lrb } ∧
      RackTaken s t ⟨.amo op v d, p, addr, 2, s.clk.t,
        [⟨addr, false, true, true, 0, true⟩, ⟨addr + 2, false, true, true, 0, true⟩], [], false⟩) ∧
    (∃ t, exec (.lrW p addr false d) s = .next t ∧ RackStalled s t p true ∧ t = { s with pairs := t.pairs, lrb := t.lrb } ∧
      RackTaken s t ⟨.lr d, p, addr, 2, s.clk.t,
        [⟨addr, false, true, true, 0, true⟩, ⟨addr + 2, false, true, true, 0, false⟩], [], false⟩) ∧
    (s.lrb.run = none → s.lrb.waiting = [] → s.lrb.lists = [] →
      (s.semLive = true → s.get F.LRB_STAT_SEM_PAIR = p.val → s.lrb.semAddr = addr → ∃ t, exec (.scW p addr false v d) s = .next t ∧
        RackStalled s t p false ∧ t.flag F.LRB_STAT_SEM_VALID = false ∧ RegsBut s t [F.LRB_STAT_SEM_VALID.off] ∧
        t.lrb.run = some ⟨.sc d, p, addr, 2, s.clk.t, [⟨addr, true, true, true, v.toNat / 65536 % 65536, true⟩,
          ⟨addr + 2, true, true, true, v.toNat % 65536, false⟩], [], false⟩) ∧
      ((s.semLive = false ∨ s.get F.LRB_STAT_SEM_PAIR ≠ p.val ∨ s.lrb.semAddr ≠ addr) → ∃ t, exec (.scW p addr false v d) s = .next t ∧
        RackLoaded s t p d 1 ∧ t.flag F.LRB_STAT_SEM_VALID = false ∧ LrbCounted s t 5 ∧ t.lrb.run = none ∧ t.out = s.out ∧
        t.mem = s.mem))) ∧
  (∀ (p : Fin 4) (addr : Nat) (op : AmoOp) (v : DWord) (d : RackLd) (s : State), Issues s p → (s.pair p).umode = false →
    (s.pair p).mtvec ≠ 0 → s.lrbFitted = true →
    ∀ c cause, (c = .rackAmo p addr true op v d ∧ cause = 7 ∨ c = .lrW p addr true d ∧ cause = 5 ∨ c = .scW p addr true v d ∧ cause = 7) →
      ∃ t, exec c s = .next t ∧ Saved s t p cause (0x60000000 + addr) ∧ (t.pair p).pc = (s.pair p).mtvec % 2 ^ 64 ∧ LrbCounted s t 3)

/-- At bus idle the bridge is granted where no board requests; it yields up to 16 times to the board next in rotation, then takes the bus
with YIELD_LIMIT; the first cycle of an AMO locks the bus and is counted; without a transaction a board is granted; a lock keeps the bus to its master; a write entry whose lease copy is not
valid is withheld (R380, R385, R388, R392). -/
def Sys2Proof.Claims.RackArbitration : Prop :=
  ∀ (reqs : BitVec 4) (s : State), s.lrbOn = true → s.get F.LRB_STAT_OWNER = 0 →
    (∀ x c l, s.lrb.run = some x → (∀ e, x.kind ≠ .writeList e) → x.cycles = c :: l → s.lrbOut = true → s.flag F.LRB_STAT_LOCKED = false →
      (reqs = 0 → ∃ t, exec (.rackGrant reqs) s = .next t ∧ t.get F.LRB_STAT_OWNER = 1 ∧ t.get F.LRB_STAT_YIELDS = 0 ∧ CycleOut s t c ∧
        t.lrb.run = some x ∧ t = { s with regs := t.regs, lrb := t.lrb, out := t.out } ∧
        (∀ op v d, x.kind = .amo op v d → t.flag F.LRB_STAT_LOCKED = true ∧ LrbCounted s t 4) ∧
        ((∀ op v d, x.kind ≠ .amo op v d) → t.flag F.LRB_STAT_LOCKED = false ∧ RegsBut s t [F.LRB_STAT_OWNER.off])) ∧
      (∀ b, BoardNext s reqs b → s.get F.LRB_STAT_YIELDS < 16 → ∃ t, exec (.rackGrant reqs) s = .next t ∧
        t.get F.LRB_STAT_OWNER = 2 ∧ t.get F.LRB_STAT_SLOT = b ∧ t.get F.LRB_STAT_YIELDS = s.get F.LRB_STAT_YIELDS + 1 ∧ LrbCounted s t 6 ∧
        t.lrb = { s.lrb with lastBoard := b, defer := false } ∧ t = { s with regs := t.regs, lrb := t.lrb }) ∧
      (∀ b, BoardNext s reqs b → 16 ≤ s.get F.LRB_STAT_YIELDS → ∃ t, exec (.rackGrant reqs) s = .next t ∧
        t.get F.LRB_STAT_OWNER = 1 ∧ t.get F.LRB_STAT_YIELDS = 0 ∧ LrbCounted s t 7 ∧ (363, s.fab) ∈ t.vdx.pulses ∧ CycleOut s t c)) ∧
    (s.lrb.run = none → s.flag F.LRB_STAT_LOCKED = false → ∀ b, BoardNext s reqs b → ∃ t, exec (.rackGrant reqs) s = .next t ∧
      t.get F.LRB_STAT_OWNER = 2 ∧ t.get F.LRB_STAT_SLOT = b ∧ t.get F.LRB_STAT_YIELDS = s.get F.LRB_STAT_YIELDS ∧
      t.lrb = { s.lrb with lastBoard := b, defer := false } ∧ t = { s with regs := t.regs, lrb := t.lrb }) ∧
    (s.lrb.run = none → s.flag F.LRB_STAT_LOCKED = true →
      (reqs.getLsbD (s.get F.LRB_STAT_SLOT) = true → ∃ t, exec (.rackGrant reqs) s = .next t ∧ t.get F.LRB_STAT_OWNER = 2 ∧
        t.get F.LRB_STAT_SLOT = s.get F.LRB_STAT_SLOT) ∧
      (reqs.getLsbD (s.get F.LRB_STAT_SLOT) = false → exec (.rackGrant reqs) s = .next s)) ∧
    (∀ x e, s.lrb.run = some x → x.kind = .writeList e → x.got = [] → x.size = 0 → reqs = 0 → s.lrb.waiting = [] → s.lrb.lists = [] →
      (∀ r, tget noneD s.cfg.rack e = some r → s.holds r.ogrp = false) → tget noneD s.cfg.rack e ≠ none →
      ∃ t, exec (.rackGrant reqs) s = .next t ∧ t.lrb.run = none ∧ LrbCounted s t 14 ∧ t.out = s.out)

/-- An acknowledge ends the bridge's cycle: it counts, the next cycle of a held pair of cycles follows at once, and the last one ends the
transaction with the value in the register, the semaphore set by LR.W, 0 returned by SC.W, or the words written by an AMO; a refusal or
10 us end it in an error, counted and recorded (R381 to R386, R391). -/
def Sys2Proof.Claims.RackCycles : Prop :=
  (∀ (data : Half) (lock : Bool) (s : State) (x : RackTx) (c : RackCyc) (l : List RackCyc), s.lrbOn = true → s.lrb.open_ = true →
    s.lrb.run = some x → x.cycles = c :: l →
    (∀ b r, l = b :: r → c.hold = true → c.wr = false → (∀ e, x.kind ≠ .readList e ∧ x.kind ≠ .writeList e) →
      ∃ t, exec (.rackAck true false data false lock) s = .next t ∧ LrbCounted s t 0 ∧ CycleOut s t b ∧
      t.lrb.run = some { x with cycles := b :: r, got := x.got ++ [data.toNat] }) ∧
    (l = [] → c.wr = false → x.left = false → (s.pair x.pair).frozen = false → ∀ d,
      (x.kind = .read d → (x.got ++ [data.toNat]).length = (if x.size = 2 then 2 else 1) →
        ∃ t, exec (.rackAck true false data false lock) s = .next t ∧ LrbCounted s t 0 ∧ RackEnded s t ∧
          (s.lrb.waiting = [] → RackLoaded s t x.pair d (rackExt x.size d.unsigned (rackValue x.addr x.size (x.got ++ [data.toNat]))))) ∧
      (x.kind = .lr d → s.lrb.waiting = [] → ∃ t, exec (.rackAck true false data false lock) s = .next t ∧
        RackLoaded s t x.pair d (rackExt 2 false (rackValue x.addr x.size (x.got ++ [data.toNat]))) ∧
        t.flag F.LRB_STAT_SEM_VALID = true ∧ t.get F.LRB_STAT_SEM_PAIR = x.pair % 4 ∧ t.lrb.semAddr = x.addr ∧
        t.lrb.semTill = s.clk.t + 10 * usUt ∧ (t.pair x.pair).resv = some ((0x60000000 + x.addr) / 64)) ∧
      (∀ op v h, x.kind = .amo op v d → x.got = [h] → c.hold = true → ∃ t, exec (.rackAck true false data false lock) s = .next t ∧
        CycleOut s t ⟨x.addr, true, true, true,
          amoWord op (rackValue x.addr 2 [h, data.toNat]) (v.toNat % 2 ^ 32) / 65536 % 65536, true⟩ ∧ t.flag F.LRB_STAT_LOCKED = true)) ∧
    (l = [] → c.wr = true → s.lrb.waiting = [] → s.lrb.lists = [] → (s.pair x.pair).frozen = false → ∀ d,
      (∀ op v, x.kind = .amo op v d → ∃ t, exec (.rackAck true false data false lock) s = .next t ∧ LrbCounted s t 0 ∧ RackEnded s t ∧
        RackLoaded s t x.pair d (rackExt 2 false (rackValue x.addr x.size x.got))) ∧
      (x.kind = .sc d → ∃ t, exec (.rackAck true false data false lock) s = .next t ∧ RackEnded s t ∧ RackLoaded s t x.pair d 0) ∧
      (x.kind = .write → ∃ t, exec (.rackAck true false data false lock) s = .next t ∧ LrbCounted s t 0 ∧ RackEnded s t ∧
        t.pairs = s.pairs)) ∧
    (∀ dtack : Bool, x.kind = .write → ∃ t, exec (.rackAck dtack true data false lock) s = .next t ∧ LrbCounted s t 1 ∧
      (361, s.fab) ∈ t.vdx.pulses ∧ t.flag F.LRB_ERRADDR_OUT = true ∧ t.get F.LRB_ERRADDR_KIND = 1 ∧
      t.get F.LRB_ERRADDR_ADDR = c.addr % 2 ^ 24 ∧ RackEnded s t ∧
      t.rcd.reported.map (fun r => r.code) = s.rcd.reported.map (fun r => r.code) ++ [.LRB_BERR]) ∧
    (∀ (dtack : Bool) (d : RackLd), x.kind = .read d → x.got = [] → x.left = false → (s.pair x.pair).frozen = false →
      (s.pair x.pair).mtvec ≠ 0 → s.lrb.waiting = [] → ∃ t, exec (.rackAck dtack true data false lock) s = .next t ∧
        Saved s t x.pair 5 (0x60000000 + x.addr) ∧ LrbCounted s t 1 ∧ RackEnded s t)) ∧
  (∀ (s v : State) (x : RackTx), s.lrb.run = some x → s.alive = true → s.lrbFitted = true → x.kind = .write → v = s.advance (x.acc + 10 * usUt) →
    ∃ t, exec .lrbTimeout s = .next t ∧ t.clk = v.clk ∧ LrbCounted v t 2 ∧ (360, v.fab) ∈ t.vdx.pulses ∧
      t.get F.LRB_STAT_OWNER = (if v.get F.LRB_STAT_OWNER = 2 then 2 else 0) ∧ t.get F.LRB_ERRADDR_KIND = 2 ∧ t.rcd.reported.map (fun r => r.code) = s.rcd.reported.map (fun r => r.code) ++ [.LRB_TIMEOUT] ∧
      (s.lrb.waiting = [] → s.lrb.lists = [] → t.lrb.run = none))

/-- A board's cycle in the inbound window writes or reads the memory behind it; a cycle outside it or without its transit check is
answered with BERR_N; so is one left without an acknowledge and a lock held for 10 us, and, in the Dusk state, every cycle; an
acknowledge without a cycle is a violation (R387, R394, R395). -/
def Sys2Proof.Claims.RackInbound : Prop :=
  (∀ (c : BoardCyc) (tchk : Bool) (s : State), s.lrbOn = true → s.get F.LRB_STAT_OWNER = 2 → s.lrb.boardAt = none →
    (s.sup.st ≠ .dusk → s.flag F.LRB_INWIN_EN = true → s.inWin c.addr = true →
      (c.wr = true → c.ub = true → c.lb = true → tchk = true → ∃ t, exec (.rackInbound c tchk) s = .next t ∧
        t.rdLe (s.inTarget (c.addr / 2 * 2)) 2 = c.data.toNat ∧ MemBut s t (s.inTarget (c.addr / 2 * 2)) 2 ∧ LrbCounted s t 10 ∧
        t.get F.LRB_STAT_OWNER = (if c.lock then 2 else 0) ∧ t.flag F.LRB_STAT_LOCKED = c.lock ∧ t.out = s.out) ∧
      (c.wr = true → c.ub = true → c.lb = false → tchk = true → ∃ t, exec (.rackInbound c tchk) s = .next t ∧
        (t.rd8 (s.inTarget (c.addr / 2 * 2))).toNat = c.data.toNat / 256 ∧ MemBut s t (s.inTarget (c.addr / 2 * 2)) 1) ∧
      (c.wr = true → c.ub = false → c.lb = true → tchk = true → ∃ t, exec (.rackInbound c tchk) s = .next t ∧
        (t.rd8 (s.inTarget (c.addr / 2 * 2) + 1)).toNat = c.data.toNat % 256 ∧ MemBut s t (s.inTarget (c.addr / 2 * 2) + 1) 1) ∧
      (c.wr = true → (c.ub = true ∨ c.lb = true) → tchk = false → ∃ t, exec (.rackInbound c tchk) s = .next t ∧ LrbCounted s t 12 ∧
        (364, s.fab) ∈ t.vdx.pulses ∧ t.get F.LRB_ERRADDR_KIND = 5 ∧ t.out = s.out ++ [⟨.rack, 2, 2, s.clk.t, []⟩] ∧ t.mem = s.mem) ∧
      (c.wr = false → c.ub = true → c.lb = true → ∃ t, exec (.rackInbound c tchk) s = .next t ∧ LrbCounted s t 10 ∧
        t.out = s.out ++ [⟨.rack, 2, 0, s.clk.t, beBytes 2 (s.rdLe (s.inTarget (c.addr / 2 * 2)) 2)⟩] ∧ t.mem = s.mem)) ∧
    (s.sup.st ≠ .dusk → s.flag F.LRB_INWIN_EN = true → s.inWin c.addr = false → ∃ t, exec (.rackInbound c tchk) s = .next t ∧
      LrbCounted s t 11 ∧ (364, s.fab) ∈ t.vdx.pulses ∧ t.flag F.LRB_ERRADDR_OUT = false ∧ t.get F.LRB_ERRADDR_KIND = 4 ∧
      t.get F.LRB_ERRADDR_ADDR = c.addr % 2 ^ 24 ∧ t.out = s.out ++ [⟨.rack, 2, 2, s.clk.t, []⟩] ∧ t.mem = s.mem) ∧
    (s.sup.st = .dusk → ∃ t, exec (.rackInbound c tchk) s = .next t ∧ t.out = s.out ++ [⟨.rack, 2, 2, s.clk.t, []⟩] ∧
      t = { s with regs := t.regs, lrb := t.lrb, out := t.out }) ∧
    (s.sup.st ≠ .dusk → s.flag F.LRB_INWIN_EN = false → exec (.rackInbound c tchk) s =
      .next { s with lrb := { s.lrb with boardAt := some s.clk.t } })) ∧
  (∀ (data : Half) (lock : Bool) (s : State), s.lrbOn = true → s.lrb.open_ = false →
    (s.lrb.boardAt = none → ∃ t, exec (.rackAck true false data false lock) s = .next t ∧ LrbCounted s t 11 ∧
      (364, s.fab) ∈ t.vdx.pulses ∧ t = { s with regs := t.regs, vdx := t.vdx }) ∧
    (s.lrb.boardAt ≠ none → ∃ t, exec (.rackAck true false data false lock) s = .next t ∧ t.lrb.boardAt = none ∧
      t.get F.LRB_STAT_OWNER = (if lock then 2 else 0) ∧ t = { s with regs := t.regs, lrb := t.lrb })) ∧
  (∀ (a : Nat) (s v : State), s.lrbOn = true → v = s.advance (a + 10 * usUt) →
    (s.lrb.boardAt = some a → ∃ t, exec .boardCycleTimeout s = .next t ∧ t.clk = v.clk ∧ LrbCounted v t 11 ∧ (364, v.fab) ∈ t.vdx.pulses ∧
      t.out = s.out ++ [⟨.rack, 2, 2, v.clk.t, []⟩] ∧ t.get F.LRB_STAT_OWNER = 0 ∧ t.lrb.boardAt = none) ∧
    (s.lrb.lockAt = some a → ∃ t, exec .lrbLockHog s = .next t ∧ t.clk = v.clk ∧ LrbCounted v t 11 ∧ (364, v.fab) ∈ t.vdx.pulses ∧
      t.out = s.out ++ [⟨.rack, 2, 2, v.clk.t, []⟩] ∧ t.get F.LRB_STAT_OWNER = 0 ∧ t.flag F.LRB_STAT_LOCKED = false ∧
      t.rcd.reported.map (fun r => r.code) = s.rcd.reported.map (fun r => r.code) ++ [.LRB_LOCK_HOG]))

/-- A read entry is due at its start in the Gheif cycle and takes precedence over waiting accesses; the write entries of an output group
follow at its output instant with their voted bytes; a prefetch buffer that ages is discarded with each unconsumed halfword counted; the
semaphore expires after 10 us; the counters are cleared (R386, R389, R391, R392). -/
def Sys2Proof.Claims.RackLists : Prop :=
  (∀ (e : Fin 128) (r : RackEntry) (s v : State), tget noneD s.cfg.rack e = some r → s.lrbOut = true → s.cyc.running = true → r.dir = 1 →
    v = s.advance (s.cyc.start + r.startUs * usUt) →
    ∃ t x, exec (.rackReadList e) s = .next t ∧ x = ⟨.readList e, 0, r.addr, 0, v.clk.t, listCycles r false [], [], false⟩ ∧ t.clk = v.clk ∧
      (s.lrb.run = none → s.lrb.lists = [] → t.lrb.run = some x ∧ t.lrb.waiting = s.lrb.waiting) ∧
      (s.lrb.run ≠ none → t.lrb.run = s.lrb.run ∧ t.lrb.waiting = s.lrb.waiting ∧ ∀ y, y ∈ t.lrb.lists ↔ y = x ∨ y ∈ s.lrb.lists)) ∧
  (∀ (k : Fin 16) (s : State), s.lrbOut = true → s.flag (F.TVL_OGRP_EN k) = true → s.lrb.run ≠ none →
    ∃ t, exec (.rackWriteList k) s = .next t ∧ t = { s with lrb := { s.lrb with lists := t.lrb.lists } } ∧
      ∀ y, y ∈ t.lrb.lists ↔ y ∈ s.lrb.lists ∨ ∃ e r, e < 128 ∧ tget noneD s.cfg.rack e = some r ∧ r.dir = 2 ∧ r.ogrp = k.val ∧
        y = ⟨.writeList e, 0, r.addr, 0, s.clk.t,
          listCycles r true (rackHalves r.conv (tgetList byteD (s.grp (s.ogGroup k)).voted r.srcOfs r.len)), [], false⟩) ∧
  (∀ (p : Fin 4) (b : Prefetch) (s v : State), tget noneD s.lrb.pf p = some b →
    v = s.advance (b.tm + max 1 (s.get F.LRB_CFG_PF_AGE) * usUt) → ∃ t, exec (.prefetchAge p) s = .next t ∧ t.clk = v.clk ∧
      tget noneD t.lrb.pf p = none ∧ t.get (lrbCnt 8) = satAdd 65535 (v.get (lrbCnt 8)) b.fresh.length ∧
      t.rcd.reported.map (fun r => (r.code, r.words)) =
        s.rcd.reported.map (fun r => (r.code, r.words)) ++ b.fresh.map fun a => (.PREFETCH_DISCARD, [BitVec.ofNat 32 a])) ∧
  (∀ (s v : State), s.flag F.LRB_STAT_SEM_VALID = true → v = s.advance s.lrb.semTill → ∃ t, exec .semaphoreExpiry s = .next t ∧
    t.flag F.LRB_STAT_SEM_VALID = false ∧ RegsBut v t [F.LRB_STAT_SEM_VALID.off] ∧ t = { v with regs := t.regs }) ∧
  (∀ s : State, s.lrbFitted = true → ∃ t, exec .lrbCntclr s = .next t ∧ (∀ i, i < 16 → t.get (lrbCnt i) = 0) ∧
    (∀ q, q < 0xB0020 ∨ 0xB0040 ≤ q → t.reg q = s.reg q) ∧ t = { s with regs := t.regs })

/-! ### Local safety inputs and outputs (chapter 16) -/

namespace Sys2Proof.Claims
open Sys2Proof Sys2Proof.Machine

/-- Exactly one event has been reported since `s`, with this code. -/
def OneReport (s t : State) (c : RCode) : Prop :=
  t.rcd.reported.map (fun r => r.code) = s.rcd.reported.map (fun r => r.code) ++ [c]

/-- Input `n` has failed its diagnostics for a cause: shown, raised as source 376 + n and recorded (R404). -/
def InputFailed (s t : State) (n cause : Nat) : Prop :=
  t.get (F.SIO_DISTAT_FAULT n) = cause ∧ t.flag (F.SIO_DISTAT_DIAG_OK n) = false ∧ (376 + n, s.fab) ∈ t.vdx.pulses

/-- A fault of output `m` has been latched: counted, raised as source 392 + m, and shown unless the supply is off (R411). -/
def OutputFailed (s t : State) (m code : Nat) : Prop :=
  (t.dout m).latch = some code ∧ (t.dout m).retrying = false ∧ (392 + m, s.fab) ∈ t.vdx.pulses ∧
  t.get (F.SIO_DOSTAT_FLT_CNT m) = satAdd 255 (s.get (F.SIO_DOSTAT_FLT_CNT m)) 1 ∧
  t.get (F.SIO_DOSTAT_FAULT m) = (if t.flag F.SIO_STAT_FS_OK && t.flag F.SIO_STAT_SW_FS then code else 5)

/-- The field-supply switch has opened: nothing is driven (R412). -/
def SwitchOpened (s t : State) : Prop :=
  t.flag F.SIO_STAT_SW_FS = false ∧ (403, s.fab) ∈ t.vdx.pulses ∧
  ∀ m, m < 8 → t.flag (F.SIO_DOSTAT_DRIVE m) = false ∧ t.get (F.SIO_DOSTAT_FAULT m) = 5

end Sys2Proof.Claims

/-- A sample of channel X shows its band; unblanked, a TRANSITION restarts the count, a wire break fails the input, and FCNT equal samples
qualify a state; blanked, it does neither. The value is X and Y; an input that passes offers a new item; channel Y's states and a
persisting difference do the rest, and its loss fails every input; the item carries the stamp of the value's last change (R397, R398, R402 to R405). -/
def Sys2Proof.Claims.LocalInputs : Prop :=
  (∀ (n : Fin 16) (mv10 : Int) (s v : State), s.sioOn = true → s.flag (F.SIO_DICFG_EN n) = true → v = s.advance (s.sampleAt n) →
    ∃ t, exec (.diSample n mv10) s = .next t ∧ t.clk = v.clk ∧ t.get (F.SIO_DISTAT_BAND n) = diBand mv10 ∧
      (t.di n).sampled = some v.clk.t ∧ t.flag (F.SIO_DISTAT_VALUE n) = (t.flag (F.SIO_DISTAT_XQ n) && t.flag (F.SIO_DISTAT_YQ n)) ∧
      t.flag (F.SIO_DISTAT_DIAG_OK n) = t.diPasses n ∧
      (t.diPasses n = true → (t.source (srcKey 4 n)).fresh = true ∧ ∃ d, d = [BitVec.ofNat 8 (b2n (t.flag (F.SIO_DISTAT_VALUE n)))] ∧
        (t.source (srcKey 4 n)).cur = some ⟨⟨d, crc32c d, (t.di n).stamp⟩, v.clk.t, s.cyc.n⟩) ∧
      (t.di n).stamp = (if t.flag (F.SIO_DISTAT_VALUE n) = s.flag (F.SIO_DISTAT_VALUE n) then (s.di n).stamp else v.stamp) ∧
      (t.diPasses n = false → t.cyc = s.cyc) ∧
      (v.blanked n = true → (t.di n).run = (s.di n).run ∧ t.flag (F.SIO_DISTAT_XQ n) = s.flag (F.SIO_DISTAT_XQ n) ∧ t.rcd = s.rcd) ∧
      (v.blanked n = false →
        (diBand mv10 = 2 → (t.di n).run = 0 ∧ t.flag (F.SIO_DISTAT_XQ n) = s.flag (F.SIO_DISTAT_XQ n) ∧ t.rcd = s.rcd) ∧
        (diBand mv10 = 0 → s.flag (F.SIO_DICFG_WB_EN n) = true → (t.di n).run = 0 ∧ (t.di n).wb = true ∧
          t.flag (F.SIO_DISTAT_XQ n) = s.flag (F.SIO_DISTAT_XQ n) ∧
          ((s.di n).wb = false → (s.di n).wbY = false → t.get (F.SIO_DISTAT_WB_CNT n) = satAdd 255 (s.get (F.SIO_DISTAT_WB_CNT n)) 1 ∧ InputFailed v t n 1 ∧
            OneReport s t .SIO_DI_FAULT)) ∧
        ((diBand mv10 = 3 ∨ diBand mv10 = 1 ∨ diBand mv10 = 0 ∧ s.flag (F.SIO_DICFG_WB_EN n) = false) →
          (t.di n).wb = false ∧ (t.di n).runSt = decide (diBand mv10 = 3) ∧
          (t.di n).run = (if (s.di n).runSt = decide (diBand mv10 = 3) then min ((s.di n).run + 1) 255 else 1) ∧
          t.flag (F.SIO_DISTAT_XQ n) = (if s.get (F.SIO_DICFG_FCNT n) ≤ (t.di n).run then decide (diBand mv10 = 3)
            else s.flag (F.SIO_DISTAT_XQ n)) ∧ t.rcd = s.rcd))) ∧
  (∀ (n : Fin 16) (y brk : Bool) (s : State), s.sioOn = true → s.flag (F.SIO_DICFG_EN n) = true → s.flag F.SIO_STAT_Y_OK = true →
    ∃ t, exec (.yState n y brk) s = .next t ∧ t.flag (F.SIO_DISTAT_YQ n) = y ∧ t.sio.yLast = s.clk.t ∧
      t.flag (F.SIO_DISTAT_VALUE n) = (s.flag (F.SIO_DISTAT_XQ n) && y) ∧
      (s.flag (F.SIO_DISTAT_XQ n) = y → (t.di n).discAt = none ∧ (t.di n).disc = false) ∧
      (s.flag (F.SIO_DISTAT_XQ n) ≠ y → (s.di n).discAt = none → (t.di n).discAt = some s.clk.t) ∧
      (t.di n).wbY = (brk && s.flag (F.SIO_DICFG_WB_EN n)) ∧
      (brk = true → s.flag (F.SIO_DICFG_WB_EN n) = true → (s.di n).wb = false → (s.di n).wbY = false → InputFailed s t n 1 ∧ OneReport s t .SIO_DI_FAULT)) ∧
  (∀ (n : Fin 16) (t0 : Nat) (s v : State), s.sioOn = true → (s.di n).discAt = some t0 → (s.di n).disc = false →
    v = s.advance (t0 + s.get (F.SIO_DICFG_DISC_T n) * 1000 * usUt) → ∃ t, exec (.discrepancy n) s = .next t ∧ t.clk = v.clk ∧
      (t.di n).disc = true ∧ t.get (F.SIO_DISTAT_DISC_CNT n) = satAdd 255 (s.get (F.SIO_DISTAT_DISC_CNT n)) 1 ∧ InputFailed v t n 4 ∧
      OneReport s t .SIO_DI_FAULT) ∧
  (∀ (selfTest : Bool) (s v : State), s.sioOn = true → s.flag F.SIO_STAT_Y_OK = true →
    v = (if selfTest then s else s.advance (s.sio.yLast + 200 * usUt)) → ∃ t, exec (.yLost selfTest) s = .next t ∧ t.clk = v.clk ∧
      t.flag F.SIO_STAT_Y_OK = false ∧ (404, v.fab) ∈ t.vdx.pulses ∧ (∃ l r, t.rcd.reported = l ++ [r] ∧ r.code = .SIO_Y_LOST) ∧
      ∀ n, n < 16 → (t.di n).discAt = none ∧ (s.flag (F.SIO_DICFG_EN n) = true → InputFailed v t n 5))

/-- A pulse switches its supply off at its instant and back on at its end, where the supply is checked, TP_FAULT clearing after two good
pulses, and every input fed by it that read OFF or ON is marked CROSS; an overcurrent switches the supply off with TP_FAULT (R399,
R400). -/
def Sys2Proof.Claims.TestPulses : Prop :=
  (∀ (k : Fin 4) (s v : State), s.sioOn = true → (s.get F.SIO_TPCFG_EN).testBit k = true → (s.tp k).pulse = none → s.clk.frcOn = true →
    v = s.advance (s.pulseAt k) → ∃ t, exec (.testPulse k) s = .next t ∧ (t.tp k).on = false ∧ (t.tp k).pulse = some v.clk.t ∧
      (∀ n, n < 16 → s.fedBy n k = true → (t.di n).seen = false ∧ (t.di n).seenTr = false) ∧ t = { v with sio := t.sio }) ∧
  (∀ (k : Fin 4) (fell rose : Bool) (y : BitVec 16) (p : Nat) (s v : State), s.sioOn = true → (s.tp k).pulse = some p →
    v = s.advance (p + s.get F.SIO_TPCFG_TPW * usUt) → ∃ t, exec (.testPulseEnd k fell rose y) s = .next t ∧ t.clk = v.clk ∧
      (t.tp k).pulse = none ∧ (t.tp k).on = rose ∧ (t.tp k).ended = some v.clk.t ∧
      (s.flag F.SIO_STAT_FS_OK = false → t = { v with sio := t.sio } ∧ (t.tp k).good = (s.tp k).good) ∧
      (s.flag F.SIO_STAT_FS_OK = true →
        (fell = true → rose = true → (t.tp k).good = min 2 ((s.tp k).good + 1) ∧
          t.tpFault k = (s.tpFault k && decide ((t.tp k).good ≠ 2))) ∧
        ((fell = false ∨ rose = false) → (t.tp k).good = 0 ∧ t.tpFault k = true ∧
          (s.tpFault k = false → (400, v.fab) ∈ t.vdx.pulses ∧ ∀ n, n < 16 → s.fedBy n k = true → (376 + n, v.fab) ∈ t.vdx.pulses)) ∧
        ∀ n, n < 16 → s.fedBy n k = true →
          (((s.di n).seen = true ∨ y.getLsbD n = true) → (t.di n).cross = true) ∧
          ((s.di n).seen = false → y.getLsbD n = false → (t.di n).cross = ((s.di n).seenTr && (s.di n).cross)))) ∧
  (∀ (k : Fin 4) (s : State), s.sioOn = true → (s.get F.SIO_TPCFG_EN).testBit k = true → (s.tp k).on = true →
    ∃ t, exec (.tpOvercurrent k) s = .next t ∧ (t.tp k).on = false ∧ (t.tp k).good = 0 ∧ t.tpFault k = true ∧
      (s.tpFault k = false → (400, s.fab) ∈ t.vdx.pulses))

/-- Overcurrent, a wrong read-back and a failed output test latch their fault and drive the output off, RB_HIGH alone leaving the drive as
commanded; RB_HIGH and STUCK_ON of a safety-class output open the field-supply switch; a retry and a cleared latch drive it again (R407,
R411 to R413). -/
def Sys2Proof.Claims.OutputFaults : Prop :=
  (∀ (m : Fin 8) (s : State), s.sioFitted = true → s.flag (F.SIO_DOSTAT_DRIVE m) = true → ∃ t, exec (.doOvercurrent m) s = .next t ∧
    OutputFailed s t m 1 ∧ t.flag (F.SIO_DOSTAT_DRIVE m) = false ∧ OneReport s t .SIO_DO_FAULT) ∧
  (∀ (m : Fin 8) (rb : Fin 3) (s : State), s.sioOn = true → s.doEn m = true → s.flag F.SIO_STAT_FS_OK = true →
    s.flag F.SIO_STAT_SW_FS = true → (s.dout m).chgAt + 150 * usUt ≤ s.clk.t → (s.dout m).testAt = none → (s.dout m).latch = none →
    (s.flag (F.SIO_DOSTAT_CMD m) = true → rb = 0 → ∃ t, exec (.doReadbackFault m rb) s = .next t ∧ OutputFailed s t m 3 ∧
      t.flag (F.SIO_DOSTAT_DRIVE m) = false ∧ OneReport s t .SIO_DO_FAULT) ∧
    (s.flag (F.SIO_DOSTAT_CMD m) = false → rb = 2 → s.doSafety m = true → ∃ t, exec (.doReadbackFault m rb) s = .next t ∧
      OutputFailed s t m 2 ∧ SwitchOpened s t ∧ t.rcd.reported.map (fun r => r.code) =
        s.rcd.reported.map (fun r => r.code) ++ [.SIO_DO_FAULT, .SIO_FS_OPEN]) ∧
    (s.flag (F.SIO_DOSTAT_CMD m) = false → rb = 2 → s.doSafety m = false → ∃ t, exec (.doReadbackFault m rb) s = .next t ∧
      OutputFailed s t m 2 ∧ t.flag F.SIO_STAT_SW_FS = true ∧ OneReport s t .SIO_DO_FAULT) ∧
    ((s.flag (F.SIO_DOSTAT_CMD m) = true ∧ rb ≠ 0 ∨ s.flag (F.SIO_DOSTAT_CMD m) = false ∧ rb ≠ 2) →
      ∃ t, exec (.doReadbackFault m rb) s = .next t ∧ t.get (F.SIO_DOSTAT_RB m) = rb.val ∧ RegsBut s t [(F.SIO_DOSTAT_RB m).off] ∧
        t = { s with regs := t.regs })) ∧
  (∀ (m : Fin 8) (s v : State), s.sioOn = true → s.flag (F.SIO_DOCFG_RETRY m) = true → (s.dout m).latch = some 1 →
    (s.dout m).retrying = false → (s.dout m).retries < 3 → s.flag (F.SIO_DOSTAT_CMD m) = true →
    v = s.advance ((s.dout m).offAt + 1000000 * usUt) → ∃ t, exec (.doRetry m) s = .next t ∧ t.clk = v.clk ∧
      (t.dout m).retries = (s.dout m).retries + 1 ∧ (t.dout m).retrying = true ∧
      ((s.dout m).swAt = none → (s.dout m).testAt = none → s.flag F.SIO_STAT_FS_OK = true → s.flag F.SIO_STAT_SW_FS = true →
        t.flag (F.SIO_DOSTAT_DRIVE m) = true)) ∧
  (∀ (m : Fin 8) (s : State), s.sioFitted = true → ∃ t, exec (.fltClr m) s = .next t ∧ (t.dout m).latch = none ∧ (t.dout m).retries = 0 ∧
    (t.dout m).retrying = false ∧ RegsBut s t [(F.SIO_DOSTAT_FAULT m).off] ∧ t = { s with regs := t.regs, sio := t.sio } ∧
    t.get (F.SIO_DOSTAT_FAULT m) = (if s.flag F.SIO_STAT_FS_OK && s.flag F.SIO_STAT_SW_FS then 0 else 5)) ∧
  (∀ (m : Fin 8) (s v : State), s.sioOn = true → s.doEn m = true → s.doSafety m = true → s.flag (F.SIO_DOCFG_TEST_EN m) = true →
    s.flag (F.SIO_DOSTAT_DRIVE m) = true → (s.dout m).testAt = none → (s.dout m).swAt = none → v = s.advance (s.outputTestAt m) →
    ∃ t, exec (.outputTest m) s = .next t ∧ t.clk = v.clk ∧ (t.dout m).testAt = some v.clk.t ∧
      t.flag (F.SIO_DOSTAT_DRIVE m) = false ∧ t.flag (F.SIO_DOSTAT_CMD m) = s.flag (F.SIO_DOSTAT_CMD m)) ∧
  (∀ (m : Fin 8) (rb : Fin 3) (t0 : Nat) (s v : State), s.sioOn = true → (s.dout m).testAt = some t0 →
    v = s.advance (t0 + s.get F.SIO_OTCFG_OTW * usUt) →
    (rb = 0 → ∃ t, exec (.outputTestEnd m rb) s = .next t ∧ t.clk = v.clk ∧ (t.dout m).testAt = none ∧ t.rcd = s.rcd ∧
      t.get (F.SIO_DOSTAT_RB m) = 0) ∧
    (rb ≠ 0 → ∃ t, exec (.outputTestEnd m rb) s = .next t ∧ t.clk = v.clk ∧ (t.dout m).testAt = none ∧ OutputFailed v t m 4 ∧
      t.flag (F.SIO_DOSTAT_DRIVE m) = false ∧ (s.doSafety m = true → s.flag F.SIO_STAT_SW_FS = true → SwitchOpened v t)))

/-- Below 16.0 V FS_OK clears and nothing is driven, the commands kept; restored at 17.0 V or above, the outputs commanded ON follow in ascending number
0.25 us apart; a current above BUDGET is raised and recorded, with nothing switched off; the counters are cleared (R415, R417). -/
def Sys2Proof.Claims.FieldSupply : Prop :=
  (∀ (mv10 : Nat) (s : State), s.sioOn = true → s.flag F.SIO_STAT_FS_OK = true → mv10 < 1600 → ∃ t, exec (.fsLow mv10) s = .next t ∧
    t.flag F.SIO_STAT_FS_OK = false ∧ t.get F.SIO_FS_V_10MV = mv10 % 65536 ∧ (401, s.fab) ∈ t.vdx.pulses ∧
    (∀ m, m < 8 → t.flag (F.SIO_DOSTAT_DRIVE m) = false ∧ t.get (F.SIO_DOSTAT_FAULT m) = 5 ∧
      t.flag (F.SIO_DOSTAT_CMD m) = s.flag (F.SIO_DOSTAT_CMD m) ∧ (t.dout m).latch = (s.dout m).latch) ∧
    t = { s with regs := t.regs, sio := t.sio, vdx := t.vdx }) ∧
  (∀ (mv10 : Nat) (s : State) (sel : Nat → Bool), s.sioOn = true → s.flag F.SIO_STAT_FS_OK = false → 1700 ≤ mv10 →
    sel = (fun m => (s.flag (F.SIO_DOSTAT_CMD m) && s.flag F.SIO_STAT_SW_FS) || (s.dout m).swAt.isSome) →
    ∃ t, exec (.fsRestored mv10) s = .next t ∧ t.flag F.SIO_STAT_FS_OK = true ∧ t.get F.SIO_FS_V_10MV = mv10 % 65536 ∧
      (402, s.fab) ∈ t.vdx.pulses ∧ t.clk = s.clk ∧
      ∀ m, m < 8 → (t.dout m).swAt =
        if sel m then some (s.clk.t + (((List.range m).filter sel).length + 1) * mtUt) else (s.dout m).swAt) ∧
  (∀ (mv10 : Nat) (s : State), (1600 ≤ mv10 → exec (.fsLow mv10) s = .next s) ∧ (mv10 < 1700 → exec (.fsRestored mv10) s = .next s)) ∧
  (∀ (ma : Nat) (s : State), s.sioOn = true → s.get F.SIO_FSCFG_BUDGET < ma → ∃ t, exec (.sioFsBudget ma) s = .next t ∧
    t.get F.SIO_FS_I_MA = ma % 65536 ∧ (405, s.fab) ∈ t.vdx.pulses ∧ OneReport s t .SIO_FS_BUDGET ∧
    t = { s with regs := t.regs, vdx := t.vdx, rcd := t.rcd }) ∧
  (∀ s : State, s.sioFitted = true → ∃ t, exec .sioCntclr s = .next t ∧
    (∀ n, n < 16 → t.get (F.SIO_DISTAT_DISC_CNT n) = 0 ∧ t.get (F.SIO_DISTAT_WB_CNT n) = 0 ∧
      t.get (F.SIO_DISTAT_FAULT n) = s.get (F.SIO_DISTAT_FAULT n)) ∧
    (∀ m, m < 8 → t.get (F.SIO_DOSTAT_FLT_CNT m) = 0 ∧ t.get (F.SIO_DOSTAT_FAULT m) = s.get (F.SIO_DOSTAT_FAULT m)) ∧
    t = { s with regs := t.regs })

/-! ### The supervisor: requests and replies (chapter 18) -/

namespace Sys2Proof.Claims
open Sys2Proof Sys2Proof.Machine

/-- The reply packet to a request (R443, R450). -/
def replyOf (r : Req) (opc status : Nat) (data : List Byte) : Packet :=
  ⟨opc, 1 + (if r.tag.isSome then 4 else 0), r.seq, originSrc r.origin, status, data, r.tag.map fun t => t.1⟩

/-- The last request of the origin is this one, with this reply stored (R445). -/
def Answered (t : State) (r : Req) (opc status : Nat) (data : List Byte) : Prop :=
  t.lastReq (originKey r.origin) = some ⟨r.seq, r.trailer, replyOf r opc status data⟩

/-- A row of the opcode table of R446: a command, its opcode, the states in which it is legal (R463), its payload lengths. -/
structure SupRow where
  cmd : Req → Instr
  opc : Nat
  ok : List MState
  len : Nat → Bool

/-- The commands of R460 to R462, but for REC_CONFIG and TIME_SET, whose lengths their contents fix. -/
def SupTable (fails : BitVec 6) (x : PairStep) (trail : Option DWord) (w : SupRow) : Prop :=
  w = ⟨.describe, 0x01, [.config, .stop, .run, .hold, .service, .dusk], fun n => n == 0⟩ ∨
  w = ⟨.getState, 0x02, [.config, .stop, .run, .hold, .service, .dusk], fun n => n == 0⟩ ∨
  w = ⟨.setMode, 0x03, [.stop, .run, .hold], fun n => n == 1⟩ ∨
  w = ⟨.restart, 0x04, [.config, .stop, .run, .hold, .service, .dusk], fun n => n == 2⟩ ∨
  w = ⟨.configBegin, 0x08, [.config, .stop], fun n => n == 4⟩ ∨
  w = ⟨.configWrite, 0x09, [.config], fun n => decide (5 ≤ n)⟩ ∨
  w = ⟨.configSeal, 0x0A, [.config], fun n => n == 0⟩ ∨
  w = ⟨.loadBegin, 0x10, [.config, .stop, .run, .hold], fun n => n == 8⟩ ∨
  w = ⟨.loadBlock, 0x11, [.config, .stop, .run, .hold], fun n => decide (8 ≤ n)⟩ ∨
  w = ⟨.loadVerify, 0x12, [.config, .stop, .run, .hold], fun n => n == 0⟩ ∨
  w = ⟨.activate, 0x13, [.stop, .run], fun n => n == 1⟩ ∨
  w = ⟨.forceSet, 0x18, [.stop, .run, .hold, .service], fun n => n == 16⟩ ∨
  w = ⟨.forceClear, 0x19, [.stop, .run, .hold, .service], fun n => n == 4⟩ ∨
  w = ⟨.forceList, 0x1A, [.config, .stop, .run, .hold, .service, .dusk], fun n => n == 2⟩ ∨
  w = ⟨.readVar, 0x20, [.stop, .run, .hold, .service, .dusk], fun n => n % 8 == 0 && decide (n ≤ 512)⟩ ∨
  w = ⟨.writeVar, 0x21, [.stop, .run, .hold, .service], fun n => decide (9 ≤ n)⟩ ∨
  w = ⟨.recRead, 0x28, [.config, .stop, .run, .hold, .service, .dusk], fun n => n == 6⟩ ∨
  w = ⟨.recMark, 0x29, [.config, .stop, .run, .hold, .service, .dusk], fun n => decide (2 ≤ n ∧ n ≤ 32)⟩ ∨
  w = ⟨.timeGet, 0x30, [.config, .stop, .run, .hold, .service, .dusk], fun n => n == 0⟩ ∨
  w = ⟨.netModeReq, 0x38, [.stop, .run, .hold, .service], fun n => n == 1⟩ ∨
  w = ⟨.leaseStatus, 0x40, [.config, .stop, .run, .hold, .service, .dusk], fun n => n == 0⟩ ∨
  w = ⟨.leaseRelease, 0x41, [.run], fun n => n == 2⟩ ∨
  w = ⟨.reintegrate, 0x42, [.run, .hold], fun n => n == 0⟩ ∨
  w = ⟨fun r => .selftest r fails, 0x48, [.stop, .service], fun n => n == 1⟩ ∨
  w = ⟨.powerBudget, 0x50, [.config, .stop, .run, .hold, .service], fun n => n == 2⟩ ∨
  w = ⟨.midnight, 0x58, [.stop, .run], fun n => n == 8⟩ ∨
  w = ⟨.serviceEnter, 0x70, [.stop, .dusk], fun n => n == 0⟩ ∨
  w = ⟨.serviceExit, 0x71, [.service], fun n => n == 0⟩ ∨
  w = ⟨.halt, 0x72, [.service], fun n => n == 1⟩ ∨
  w = ⟨fun r => .stepPair r x, 0x73, [.service], fun n => n == 1⟩ ∨
  w = ⟨.resume, 0x74, [.service], fun n => n == 1⟩ ∨
  w = ⟨fun r => .peek r trail, 0x75, [.service], fun n => n == 14⟩ ∨
  w = ⟨.poke, 0x76, [.service], fun n => decide (15 ≤ n)⟩ ∨
  w = ⟨.trigger, 0x77, [.service], fun n => n == 12⟩ ∨
  w = ⟨.bootUpdate, 0x78, [.service], fun n => decide (8 ≤ n)⟩

/-- A request of an assigned opcode whose checks 1 to 10 of R465 pass; `u` is the state in which the command itself is judged: the
acceptance of a write-class command recorded (R464), the COUNTER kept (R450). -/
def Asked (s : State) (r : Req) (opc : Nat) (ok : List MState) (u : State) : Prop :=
  s.serving = true ∧ (s.take r).again r = none ∧ (s.take r).lockedOut r = false ∧ (s.take r).early r opc ok (s.noPlace r) = none ∧
  u = ((s.take r).keepCounter r).acceptMark r opc

/-- The command answers this, in this state. -/
def Says (c : Instr) (s : State) (r : Req) (opc status : Nat) (data : List Byte) (t : State) : Prop :=
  exec c s = .next (t.answer r opc status data)

/-- The command's own checks refuse it: nothing of it is executed (R465). -/
def Refused (c : Instr) (s : State) (r : Req) (opc status sec check index : Nat) : Prop :=
  exec c s = .next (((s.take r).keepCounter r).refuse r opc status (((s.take r).keepCounter r).errBlock sec check index))

end Sys2Proof.Claims

/-- Every request is checked in the order of R465, and the first check that fails decides: a retransmission gets its stored reply, a
packet of a locked-out address nothing, and the header, the authentication, the state, the session, the concurrency and the length their
refusals, with nothing of the request executed; the COUNTER of a request that authenticates is kept whatever the later checks say, as R450
is read (R445, R450, R452, R463, R465; log 129). -/
def Sys2Proof.Claims.RequestChecks : Prop :=
  ∀ (fails : BitVec 6) (x : PairStep) (trail : Option DWord) (w : SupRow), SupTable fails x trail w →
    ∀ (r : Req) (s u : State), s.serving = true → u = s.take r →
      (∀ l, s.lastReq (originKey r.origin) = some l → l.seq = r.seq → l.trailer = r.trailer →
        exec (w.cmd r) s = .next (u.deliver r.origin l.reply)) ∧
      (u.again r = none →
        (badHeader r = true → exec (w.cmd r) s = .next (u.refuse r w.opc 0x12 (u.errBlock 0 0 0xFFFFFFFF))) ∧
        (badHeader r = false → u.lockedOut r = true → exec (w.cmd r) s = .next u) ∧
        (badHeader r = false → u.lockedOut r = false →
          (u.authOk r w.opc = false →
            exec (w.cmd r) s = .next ((u.refuse r w.opc 0x30 (u.errBlock 0 0 0xFFFFFFFF)).countAuth r)) ∧
          (u.authOk r w.opc = true →
            (u.legal w.opc w.ok = false → exec (w.cmd r) s = .next ((u.keepCounter r).refuse r w.opc 0x20 (u.errBlock 0 0 0xFFFFFFFF))) ∧
            (u.legal w.opc w.ok = true →
              (∀ n, u.sessionLock r w.opc = some n → exec (w.cmd r) s = .next ((u.keepCounter r).refuse r w.opc 0x22 (u.errBlock 0 0 n))) ∧
              (u.sessionLock r w.opc = none →
                (u.evidence w.opc = true → exec (w.cmd r) s = .next ((u.keepCounter r).refuse r w.opc 0x22 (u.errBlock 0 0 0xFFFFFFFF))) ∧
                (u.evidence w.opc = false →
                  ((s.noPlace r = true ∨ u.busy r w.opc = true) →
                    exec (w.cmd r) s = .next ((u.keepCounter r).refuse r w.opc 0x23 (u.errBlock 0 0 0xFFFFFFFF))) ∧
                  (s.noPlace r = false → u.busy r w.opc = false → w.len r.payload.length = false →
                    exec (w.cmd r) s = .next ((u.keepCounter r).refuse r w.opc 0x11 ((u.keepCounter r).errBlock 0 0 0xFFFFFFFF)))))))))

/-- A reply is stored as its origin's last one; on the SCP it waits and SREADY announces it, in a local port's reply area it is written
with BUSY, DONE and RLEN and source 408 + n, and a local port does not report ACCEPTED; a refusal is recorded with opcode, status and
origin; a bad frame is answered with what was received of it (R441, R445, R453, R464, R465). -/
def Sys2Proof.Claims.SupervisorReplies : Prop :=
  (∀ (r : Req) (opc status : Nat) (data : List Byte) (s t : State), t = s.answer r opc status data →
    Answered t r opc status data ∧ (∀ o, o ≠ originKey r.origin → t.lastReq o = s.lastReq o) ∧ t.rcd = s.rcd ∧ t.clk = s.clk ∧
    (∀ n, r.origin = .scp n → s.sup.waiting.length < 16 → t.sup.waiting = s.sup.waiting ++ [(replyOf r opc status data, false)] ∧
      t.regs = s.regs ∧ t.mem = s.mem ∧ (s.sup.sready = true → t.out = s.out ++ [⟨.ready, 0, 1, s.clk.t, []⟩])) ∧
    (∀ n b, r.origin = .pairPort n → n < 4 → status ≠ 1 → b = (s.packetBytes (replyOf r opc status data)).take 2048 →
      t.rdBytes (0x400D0800 + n * 0x1000) b.length = b ∧ MemBut s t (0x400D0800 + n * 0x1000) b.length ∧
      t.flag (F.SUP_MBSTAT_BUSY n) = false ∧ t.flag (F.SUP_MBSTAT_DONE n) = true ∧ t.get (F.SUP_MBSTAT_RLEN n) = b.length ∧
      (408 + n, s.fab) ∈ t.vdx.pulses) ∧
    (reqLocal r = true → status = 1 → t = { s with sup := { s.sup with lasts := t.sup.lasts } }) ∧
    ∃ e, (s.refuse r opc status data).rcd.reported = s.rcd.reported ++ [e] ∧ e.code = .CMD_REFUSED ∧
      e.words = [opc, status, originSrc r.origin].map (BitVec.ofNat 32) ∧ Answered (s.refuse r opc status data) r opc status data) ∧
  (∀ (opc : Nat) (r : Req) (s : State), s.serving = true →
    (∃ t, exec (.badRequestFrame 1 opc r) s = .next t ∧ Answered t { r with tag := none } opc 0x11 []) ∧
    (∃ t, exec (.badRequestFrame 2 opc r) s = .next t ∧
      Answered t { r with tag := none } opc 0x13 ((s.take r).errBlock 0 0 0xFFFFFFFF)) ∧
    ((s.take r).again r = none → ∃ t, exec (.badRequestFrame 3 opc r) s = .next t ∧
      Answered t r opc (if badHeader r then 0x12 else 0x10) ((s.take r).errBlock 0 0 0xFFFFFFFF))) ∧
  (∀ (opc : Nat) (r : Req) (s : State), s.alive = true → s.sup.sready = false → exec (.badRequestFrame 0 opc r) s =
    .next { s with sup := { s.sup with scpBusyViol := s.sup.scpBusyViol + 1 } })

/-! ### The supervisor: states, configuration, image sets (R434, R456 to R460) -/

namespace Sys2Proof.Claims
open Sys2Proof Sys2Proof.Machine

/-- The six states of R463. -/
def anyState : List MState := [.config, .stop, .run, .hold, .service, .dusk]

end Sys2Proof.Claims

/-- DESCRIBE and GET_STATE answer the module's identity, capacities, firmware, state and image sets, and change nothing else (R460). -/
def Sys2Proof.Claims.StateReports : Prop :=
  (∀ (r : Req) (s u : State), Asked s r 0x01 anyState u → r.payload = [] → Says (.describe r) s r 0x01 0
    (leBytes 4 (sysId u.ident) ++ leBytes 4 (cap0 u.ident.variant) ++ leBytes 4 (cap1 u.ident) ++ leBytes 4 u.sup.fwVersion ++
      beBytes 6 u.ident.mac ++ [BitVec.ofNat 8 u.sup.st.code, BitVec.ofNat 8 u.sflags] ++ leBytes 4 (if u.sealed then u.configId else 0) ++
      [BitVec.ofNat 8 (u.sup.activeSet.getD 0xFF), BitVec.ofNat 8 (b2n (tget imageSetD u.sup.sets 0).verified +
        2 * b2n (tget imageSetD u.sup.sets 1).verified + 4 * b2n (tget imageSetD u.sup.sets 0).damaged +
        8 * b2n (tget imageSetD u.sup.sets 1).damaged), 0, 0] ++
      leBytes 4 u.sup.hmacId ++ leBytes 4 u.pwr.pcc ++ leBytes 6 u.optime ++ [0, 0] ++ padTo 32 (tget imageSetD u.sup.sets 0).digest ++
      padTo 32 (tget imageSetD u.sup.sets 1).digest) u) ∧
  (∀ (r : Req) (s u : State), Asked s r 0x02 anyState u → r.payload = [] → Says (.getState r) s r 0x02 0
    ([BitVec.ofNat 8 u.sup.st.code, BitVec.ofNat 8 u.sflags, BitVec.ofNat 8 (u.get F.TVL_STAT_MSTATE), BitVec.ofNat 8 u.sup.lastStart] ++
      leBytes 2 u.sup.duskCause ++ [BitVec.ofNat 8 (u.sup.activeSet.getD 0xFF), 0] ++ leBytes 4 (u.get F.HX_FRAME_W) ++
      leBytes 4 (u.get F.TVL_MFC_W)) u)

/-- SET_MODE enters Run where an image set is runnable, refuses Hold from Stop and an unrunnable Run, and leaves Run with its outputs
released, at once or after the closing save; RESTART begins a Dawn sequence and ends the operation in progress; MIDNIGHT enters
Midnight mode from Stop with its wake sources (R434, R192, R193, R205, R447, R500). -/
def Sys2Proof.Claims.StateCommands : Prop :=
  (∀ (r : Req) (s u : State) (t : Nat), Asked s r 0x03 [.stop, .run, .hold] u → r.payload.length = 1 → t = fieldLe r.payload 0 1 →
    ((t = 0 ∧ u.sup.st = .stop ∨ t = 1 ∧ u.sup.st = .run ∧ u.cyc.leaving = false ∨ t = 2 ∧ u.sup.st = .hold) →
      Says (.setMode r) s r 0x03 0 [] u) ∧
    (2 < t → Refused (.setMode r) s r 0x03 0x12 0 0 0xFFFFFFFF) ∧
    (t = 2 → u.sup.st = .stop → Refused (.setMode r) s r 0x03 0x20 0 0 0xFFFFFFFF) ∧
    (t = 1 → u.sup.st ≠ .run → u.runnable = false → Refused (.setMode r) s r 0x03 0x13 0 0 0xFFFFFFFF) ∧
    (t = 1 → u.sup.st ≠ .run → u.runnable = true → ∃ v d, exec (.setMode r) s = .next v ∧ v.sup.st = .run ∧ Answered v r 0x03 1 d) ∧
    (t ≠ 1 → t < 3 → u.sup.st = .run → u.activateWaits = false → u.prog.blocks ≠ [] → ∃ v, exec (.setMode r) s = .next v ∧
      v.sup.st = .run ∧ v.cyc.leaving = true ∧ (∀ k, k < 16 → u.holds k = true → (v.lease k).mine = none) ∧ v.cyc.saves.length = u.prog.blocks.length ∧
      Answered v r 0x03 1 []) ∧
    (t ≠ 1 → t < 3 → u.sup.st = .run → u.activateWaits = false → u.prog.blocks = [] → ∃ v, exec (.setMode r) s = .next v ∧
      v.sup.st = (if t = 2 then .hold else .stop) ∧ v.cyc.leaving = false ∧ (∀ k, k < 16 → u.holds k = true → (v.lease k).mine = none) ∧ Answered v r 0x03 1 [] ∧
      ∃ o, v.sup.longOp = some o ∧ o.outcome = some (0, [])) ∧
    (t = 0 → u.sup.st = .hold → u.activateWaits = false → ∃ v, exec (.setMode r) s = .next v ∧ v.sup.st = .stop ∧
      v.hx.frameOn = false ∧ Answered v r 0x03 1 [])) ∧
  (∀ (r : Req) (s u : State), Asked s r 0x04 anyState u → r.payload.length = 2 →
    ((1 < fieldLe r.payload 0 1 ∨ 2 < fieldLe r.payload 1 1) → Refused (.restart r) s r 0x04 0x12 0 0 0xFFFFFFFF) ∧
    (fieldLe r.payload 0 1 ≤ 1 → fieldLe r.payload 1 1 ≤ 2 → (u.sup.st ≠ .run ∨ fieldLe r.payload 0 1 = 1) →
      ∃ v d, exec (.restart r) s = .next v ∧ v.sup.st = .dawn ∧ v.sup.startCause = 1 ∧ v.sup.warm = decide (fieldLe r.payload 0 1 = 0) ∧
        v.sup.target = fieldLe r.payload 1 1 ∧ v.sup.sready = false ∧ v.clk.frcOn = false ∧ Answered v r 0x04 1 d)) ∧
  (∀ (r : Req) (s u : State) (wake target timer : Nat), Asked s r 0x58 [.stop, .run] u → r.payload.length = 8 →
    wake = fieldLe r.payload 0 1 → target = fieldLe r.payload 1 1 → timer = fieldLe r.payload 4 4 →
    ((wake = 0 ∨ 15 < wake ∨ 1 < target ∨ fieldLe r.payload 2 2 ≠ 0 ∨ wake.testBit 3 = true ∧ timer = 0) →
      Refused (.midnight r) s r 0x58 0x12 0 0 0xFFFFFFFF) ∧
    (1 ≤ wake → wake ≤ 15 → target ≤ 1 → fieldLe r.payload 2 2 = 0 → (wake.testBit 3 = true → timer ≠ 0) → u.sup.st = .stop →
      ∃ v since, exec (.midnight r) s = .next v ∧ v.sup.st = .midnight ∧ v.sup.sready = false ∧ v.sup.longOp = none ∧
        v.clk.frcOn = false ∧ v.pwr.midnight = some ⟨wake, timer, target, since⟩))

/-- CONFIG_BEGIN opens a session in the Config state, or ends it with length 0; CONFIG_WRITE puts its bytes into the image; CONFIG_SEAL is
accepted, and its completion installs the configuration or leaves everything as it was with the check that failed (R448, R456, R457). -/
def Sys2Proof.Claims.ConfigurationCommands : Prop :=
  (∀ (r : Req) (s u : State) (n : Nat), Asked s r 0x08 [.config, .stop] u → r.payload.length = 4 → n = fieldLe r.payload 0 4 →
    (n ≠ 0 → (n < 64 ∨ 983040 < n) → Refused (.configBegin r) s r 0x08 0x12 0 0 0xFFFFFFFF) ∧
    (64 ≤ n → n ≤ 983040 → ∃ v, exec (.configBegin r) s = .next v ∧ v.sup.cfgSess = some ⟨originKey r.origin, n, [], u.clk.t⟩ ∧
      v.sup.st = .config ∧ (u.sup.st = .stop → v.cyc.running = false) ∧ Answered v r 0x08 0 []) ∧
    (n = 0 → ∃ v, exec (.configBegin r) s = .next v ∧ v.sup.cfgSess = none ∧
      v.sup.st = (if u.sup.st = .config ∧ u.sealed = true then .stop else u.sup.st) ∧ Answered v r 0x08 0 [])) ∧
  (∀ (r : Req) (s u : State), Asked s r 0x09 [.config] u → 5 ≤ r.payload.length →
    (u.sup.cfgSess = none → Refused (.configWrite r) s r 0x09 0x12 0 0 0xFFFFFFFF) ∧
    (∀ c, u.sup.cfgSess = some c →
      (c.imageLen < fieldLe r.payload 0 4 + (r.payload.length - 4) → Refused (.configWrite r) s r 0x09 0x12 0 0 0xFFFFFFFF) ∧
      (fieldLe r.payload 0 4 + (r.payload.length - 4) ≤ c.imageLen → ∃ v b, exec (.configWrite r) s = .next v ∧
        v.sup.cfgSess = some { c with bytes := b } ∧ Answered v r 0x09 0 [] ∧
        tgetList byteD b (fieldLe r.payload 0 4) (r.payload.length - 4) = r.payload.drop 4 ∧
        ∀ a, (a < fieldLe r.payload 0 4 ∨ fieldLe r.payload 0 4 + (r.payload.length - 4) ≤ a) → tget byteD b a = tget byteD c.bytes a))) ∧
  (∀ (r : Req) (s u : State), Asked s r 0x0A [.config] u → r.payload = [] →
    (u.sup.cfgSess = none → Refused (.configSeal r) s r 0x0A 0x12 0 0 0xFFFFFFFF) ∧
    (u.sup.cfgSess ≠ none → ∃ v o, exec (.configSeal r) s = .next v ∧ v.sup.longOp = some o ∧ o.opc = 0x0A ∧ o.origin = r.origin ∧
      o.seq = r.seq ∧ o.outcome = none ∧ Answered v r 0x0A 1 [])) ∧
  (∀ (s : State) (o : LongOp) (c : CfgSession), s.sup.longOp = some o → o.opc = 0x0A → o.outcome = none → s.sup.cfgSess = some c →
    (∀ f, s.sealFail c.bytes c.imageLen (match c.owner with | .scp _ => true | _ => false) = some f →
      ∃ t, exec .longOpComplete s = .next t ∧ t.sup.longOp = none ∧ t.sup.st = s.sup.st ∧ t.sup.cfgImage = s.sup.cfgImage ∧
        t.sup.cfgLen = s.sup.cfgLen ∧ t.sup.schedId = s.sup.schedId ∧ t.cfg = s.cfg) ∧
    (s.sealFail c.bytes c.imageLen (match c.owner with | .scp _ => true | _ => false) = none →
      ∃ t, exec .longOpComplete s = .next t ∧ t.sup.longOp = none ∧ t.sup.cfgSess = none ∧ t.sup.st = .stop ∧
        t.sup.cfgImage = sealedImage c.bytes c.imageLen ∧ t.sup.cfgLen = c.imageLen ∧ t.sup.schedId = imgLe c.bytes 0x10 4))

/-- LOAD_BEGIN empties the inactive set and opens a session on it; LOAD_BLOCK puts its bytes there; LOAD_VERIFY ends with the check that
fails, or loads the engine banks and then marks the set verified with its digest; ACTIVATE in Stop switches to a set that passes its
checks, and in Run lays down the boundary B (R437, R448, R458, R460, R188, R208). -/
def Sys2Proof.Claims.ImageSetCommands : Prop :=
  (∀ (r : Req) (s u : State) (n len : Nat), Asked s r 0x10 [.config, .stop, .run, .hold] u → r.payload.length = 8 →
    n = fieldLe r.payload 0 1 → len = fieldLe r.payload 4 4 →
    ((1 < n ∨ fieldLe r.payload 1 3 ≠ 0 ∨ len = 0 ∨ 0x8000000 < len) → Refused (.loadBegin r) s r 0x10 0x12 0 0 0xFFFFFFFF) ∧
    (n ≤ 1 → fieldLe r.payload 1 3 = 0 → len ≠ 0 → len ≤ 0x8000000 →
      (u.sup.activeSet = some n → Refused (.loadBegin r) s r 0x10 0x22 0 0 0xFFFFFFFF) ∧
      (u.sup.activeSet ≠ some n → ∃ v, exec (.loadBegin r) s = .next v ∧
        v.sup.loadSess = some ⟨originKey r.origin, n, len, u.clk.t⟩ ∧
        tget imageSetD v.sup.sets n = { ImageSet.empty with len := len } ∧
        (∀ m, m ≠ n → tget imageSetD v.sup.sets m = tget imageSetD u.sup.sets m) ∧ Answered v r 0x10 0 []))) ∧
  (∀ (r : Req) (s u : State), Asked s r 0x11 [.config, .stop, .run, .hold] u → 8 ≤ r.payload.length →
    (u.sup.loadSess = none → Refused (.loadBlock r) s r 0x11 0x12 0 0 0xFFFFFFFF) ∧
    (∀ c, u.sup.loadSess = some c →
      ((fieldLe r.payload 0 4 % 4 ≠ 0 ∨ c.setLen < fieldLe r.payload 0 4 + (r.payload.length - 4)) →
        Refused (.loadBlock r) s r 0x11 0x12 0 0 0xFFFFFFFF) ∧
      (fieldLe r.payload 0 4 % 4 = 0 → fieldLe r.payload 0 4 + (r.payload.length - 4) ≤ c.setLen → ∃ v, exec (.loadBlock r) s = .next v ∧
        tgetList byteD (tget imageSetD v.sup.sets c.set).bytes (fieldLe r.payload 0 4) (r.payload.length - 4) = r.payload.drop 4 ∧
        (∀ m, m ≠ c.set → tget imageSetD v.sup.sets m = tget imageSetD u.sup.sets m) ∧ Answered v r 0x11 0 []))) ∧
  (∀ (r : Req) (s u : State), Asked s r 0x12 [.config, .stop, .run, .hold] u → r.payload = [] →
    (u.sup.loadSess = none → Refused (.loadVerify r) s r 0x12 0x12 0 0 0xFFFFFFFF) ∧
    (∀ c f, u.sup.loadSess = some c → u.verifyFail c.set c.setLen = some f → ∃ v o, exec (.loadVerify r) s = .next v ∧
      v.sup.longOp = some o ∧ o.outcome = some (f.status, u.errBlock f.sec f.check f.index) ∧ v.sup.sets = u.sup.sets ∧
      Answered v r 0x12 1 []) ∧
    (∀ c, u.sup.loadSess = some c → u.verifyFail c.set c.setLen = none → ∃ v o, exec (.loadVerify r) s = .next v ∧
      v.sup.longOp = some o ∧ o.opc = 0x12 ∧ o.outcome = none ∧ o.arg = c.set ∧ v.sup.sets = u.sup.sets ∧ Answered v r 0x12 1 [])) ∧
  (∀ (s : State) (o : LongOp), s.sup.longOp = some o → o.opc = 0x12 → o.outcome = none →
    (∀ e b, e < 2 → b < 2 → s.engineFitted e = true → s.get (leBankF e b) ≠ 1) →
    ∃ t, exec .longOpComplete s = .next t ∧ t.sup.longOp = none ∧ t.sup.loadSess = none ∧
      (tget imageSetD t.sup.sets o.arg).verified = true ∧
      (tget imageSetD t.sup.sets o.arg).bytes = (tget imageSetD s.sup.sets o.arg).bytes ∧
      (tget imageSetD t.sup.sets o.arg).digest = setDigest (tget imageSetD s.sup.sets o.arg).bytes) ∧
  (∀ (r : Req) (s u : State) (n : Nat), Asked s r 0x13 [.stop, .run] u → r.payload.length = 1 → n = fieldLe r.payload 0 1 →
    (1 < n → Refused (.activate r) s r 0x13 0x12 0 0 0xFFFFFFFF) ∧
    (∀ f, n ≤ 1 → u.activateFail n = some f → Refused (.activate r) s r 0x13 f.status f.sec f.check f.index) ∧
    (n ≤ 1 → u.activateFail n = none → u.sup.st = .stop → ∃ v d, exec (.activate r) s = .next v ∧ v.sup.activeSet = some n ∧
      v.hx.sched = setSched (u.setTbl n) ∧ v.cyc.resumeOk = false ∧ Answered v r 0x13 0 d) ∧
    (n ≤ 1 → u.activateFail n = none → u.sup.st = .run → u.cyc.change ≠ none → Refused (.activate r) s r 0x13 0x23 0 0 0xFFFFFFFF) ∧
    (n ≤ 1 → u.activateFail n = none → u.sup.st = .run → u.cyc.change = none → u.changeFail n (u.changeIntervals n) = none →
      ∃ v c, exec (.activate r) s = .next v ∧ v.cyc.change = some c ∧ c.set = n ∧ c.bMfc = (u.get F.TVL_MFC_W + 3) % 2 ^ 32 ∧
        c.switched = false ∧ v.sup.activeSet = u.sup.activeSet ∧
        ((u.simplex = true ∨ u.get F.TVL_STAT_MSTATE ≠ 4) → ∃ d, Answered v r 0x13 1 d)))

/-! ### The supervisor: forces and variables (R211, R212, R460, R462) -/

namespace Sys2Proof.Claims
open Sys2Proof Sys2Proof.Machine

/-- The change needs the agreement of the other members (R242). -/
def Joint (s : State) : Prop := s.simplex = false ∧ s.get F.TVL_STAT_MSTATE = 4

/-- A force change or write has been accepted: it stands for the other members' agreement, or it has been laid down. -/
def ChangeAsked (c : Instr) (s u : State) (r : Req) (opc ident g : Nat) (w : ForceWhat) (laid : State → Prop) : Prop :=
  ∃ v o, exec c s = .next v ∧ v.sup.longOp = some o ∧ o.opc = opc ∧ o.arg = ident ∧ o.outcome = none ∧ Answered v r opc 1 [] ∧
    (Joint u → v.tvl.forceProp = u.tvl.forceProp ++ [⟨(u.changeCycle g).1, (u.changeCycle g).2, ident, w, []⟩] ∧ v.cyc = u.cyc) ∧
    (¬ Joint u → v.tvl = u.tvl ∧ laid v)

end Sys2Proof.Claims

/-- FORCE_SET refuses an unknown or unfit variable, a full table and a locked variable, and otherwise lays a force that replaces the
identity's older one; FORCE_CLEAR marks forces for their end, and completes at once where there is none; FORCE_LIST answers the table
(R212, R242, R460). -/
def Sys2Proof.Claims.ForceCommands : Prop :=
  (∀ (r : Req) (s u : State) (ident : Nat), Asked s r 0x18 [.stop, .run, .hold, .service] u → r.payload.length = 16 →
    ident = fieldLe r.payload 0 4 →
    (u.var? ident = none → Refused (.forceSet r) s r 0x18 0x12 23 0 ident) ∧
    (∀ v, u.var? ident = some v →
      ((fieldLe r.payload 4 4 ≠ 0 ∨ v.typ = 0 ∨ 8 < v.typ ∨ v.space = 0 ∨ 2 < v.space) → Refused (.forceSet r) s r 0x18 0x12 23 0 ident) ∧
      (fieldLe r.payload 4 4 = 0 → 1 ≤ v.typ → v.typ ≤ 8 → 1 ≤ v.space → v.space ≤ 2 →
        (256 ≤ u.cyc.forces.length → (∀ f ∈ u.cyc.forces, f.ident ≠ ident) → Refused (.forceSet r) s r 0x18 0x12 23 0 ident) ∧
        ((u.cyc.forces.length < 256 ∨ ∃ f ∈ u.cyc.forces, f.ident = ident) →
          (u.forceLocked v = true → Refused (.forceSet r) s r 0x18 0x22 23 0 ident) ∧
          (u.forceLocked v = false → ∀ x, x = fieldLe r.payload 8 8 % (if v.typ = 1 then 2 else 2 ^ (8 * v.size)) →
            ChangeAsked (.forceSet r) s u r 0x18 ident v.group (.force x) fun t => ∃ l, t.cyc.forces =
              l ++ [⟨v.ident, v.typ, v.space, v.group, v.addr, v.bit, v.size, x, false, false⟩] ∧
              (∀ f ∈ l, f.ident = v.ident → f.clearing = true ∧ f.applied = true) ∧
              (∀ f, f.ident ≠ v.ident → (f ∈ l ↔ f ∈ u.cyc.forces))))))) ∧
  (∀ (r : Req) (s u : State) (ident : Nat), Asked s r 0x19 [.stop, .run, .hold, .service] u → r.payload.length = 4 →
    ident = fieldLe r.payload 0 4 →
    (∀ f, u.cyc.forces.find? (fun f => f.ident == ident || ident == 0xFFFFFFFF) = some f →
      ChangeAsked (.forceClear r) s u r 0x19 ident f.group .clear fun t => t.cyc.forces =
        u.cyc.forces.map fun f => if f.ident = ident ∨ ident = 0xFFFFFFFF then { f with clearing := true } else f) ∧
    ((∀ f ∈ u.cyc.forces, f.ident ≠ ident ∧ ident ≠ 0xFFFFFFFF) → ∃ v o,
      exec (.forceClear r) s = .next v ∧ v.sup.longOp = some o ∧ o.outcome = some (0, u.cycleTag 0) ∧ v.cyc = u.cyc ∧
      Answered v r 0x19 1 [])) ∧
  (∀ (r : Req) (s u : State) (l : List Force), Asked s r 0x1A [.config, .stop, .run, .hold, .service, .dusk] u → r.payload.length = 2 →
    l = (u.forceTable.drop (fieldLe r.payload 0 2)).take (((if reqLocal r then 2036 else 4096) - 4) / 16) →
    Says (.forceList r) s r 0x1A 0 (leBytes 2 u.forceTable.length ++ leBytes 2 l.length ++ l.flatMap fun f =>
      leBytes 4 f.ident ++ [BitVec.ofNat 8 f.typ, BitVec.ofNat 8 f.space, BitVec.ofNat 8 (b2n f.applied), 0] ++ leBytes 8 f.value) u)

/-- READ_VAR answers one record per variable asked for, as many as the reply has room for; WRITE_VAR refuses an unknown variable, one
outside the variable space, a wrong length and a variable that feeds a safety-class group, and otherwise lays the write down (R460,
R462). -/
def Sys2Proof.Claims.VariableCommands : Prop :=
  (∀ (r : Req) (s u : State) (c : Nat × List Byte), Asked s r 0x20 [.stop, .run, .hold, .service, .dusk] u →
    r.payload.length % 8 = 0 → r.payload.length ≤ 512 →
    c = fitRecords ((if reqLocal r then 2036 else 4096) - 4) ((List.range (r.payload.length / 8)).map fun i =>
      u.readRecord (fieldLe r.payload (8 * i) 4) (fieldLe r.payload (8 * i + 4) 2) (fieldLe r.payload (8 * i + 6) 2)) →
    Says (.readVar r) s r 0x20 0 (leBytes 2 c.1 ++ [0, 0] ++ c.2) u) ∧
  (∀ (s : State) (ident ofs n : Nat),
    (s.var? ident = none → s.readRecord ident ofs n = [1, 0, 0, 0]) ∧
    (∀ v, s.var? ident = some v →
      ((v.typ ≠ 0x20 → ofs ≠ 0 ∨ n ≠ 0) → (v.typ = 0x20 → n ≠ 0 ∧ v.size < ofs + n) → s.readRecord ident ofs n = [2, 0, 0, 0]) ∧
      (ofs = 0 → n = 0 → s.readRecord ident ofs n = [0, 0] ++ leBytes 2 (s.varBytes v 0 v.size).length ++
        padTo (roundUp (s.varBytes v 0 v.size).length 4) (s.varBytes v 0 v.size)) ∧
      (v.typ = 0x20 → n ≠ 0 → ofs + n ≤ v.size → s.readRecord ident ofs n = [0, 0] ++ leBytes 2 (s.varBytes v ofs n).length ++
        padTo (roundUp (s.varBytes v ofs n).length 4) (s.varBytes v ofs n)))) ∧
  (∀ (r : Req) (s u : State) (ident : Nat), Asked s r 0x21 [.stop, .run, .hold, .service] u → 9 ≤ r.payload.length →
    ident = fieldLe r.payload 0 4 →
    (u.var? ident = none → Refused (.writeVar r) s r 0x21 0x12 10 0 ident) ∧
    (∀ v, u.var? ident = some v →
      (v.space ≠ 0 → v.space ≠ 3 → Refused (.writeVar r) s r 0x21 0x12 10 0 ident) ∧
      (∀ c, (v.space = 0 ∨ v.space = 3) → varSpan v (fieldLe r.payload 4 2) (fieldLe r.payload 6 2) = some c →
        (r.payload.length ≠ 8 + c.2 → Refused (.writeVar r) s r 0x21 0x11 0 0 0xFFFFFFFF) ∧
        (r.payload.length = 8 + c.2 → u.writeLocked v = true → Refused (.writeVar r) s r 0x21 0x22 10 0 ident) ∧
        (r.payload.length = 8 + c.2 → u.writeLocked v = false →
          ChangeAsked (.writeVar r) s u r 0x21 ident (u.varGroup v) (.write c.1 (r.payload.drop 8)) fun t =>
            t.cyc.varWrites = u.cyc.varWrites ++ [⟨v.ident, c.1, r.payload.drop 8, u.varGroup v⟩] ∧ t.cyc.forces = u.cyc.forces))))

/-! ### The event recorder (chapter 19) -/

namespace Sys2Proof.Claims
open Sys2Proof Sys2Proof.Machine

/-- A record has taken a place of the intake queue, as far as it has room (R474). -/
def Placed (s t : State) (always : Bool) (x : RecItem) : Prop :=
  (s.rcd.intake.length < (if always then 64 else 56) → t.rcd.intake = s.rcd.intake ++ [x]) ∧
  ((if always then 64 else 56) ≤ s.rcd.intake.length → t.rcd.intake = s.rcd.intake ∧ t.rcd.droppedSince = s.rcd.droppedSince + 1 ∧
    t.rcd.newestDropped = x.code ∧ (417, s.fab) ∈ t.vdx.pulses)

end Sys2Proof.Claims

/-- The earliest report, the lower key at one instant, is judged next: with a token, or without a limit, its record takes a place of the
intake queue with the count suppressed before it, and otherwise it is suppressed, counted and kept; a token that comes is spent on a kept
event (R36, R474, R476, R477). -/
def Sys2Proof.Claims.RecorderJudging : Prop :=
  (∀ (s : State) (r : Report) (e : CatEntry) (x : RecItem), nextReport s.rcd.reported = some r → s.sup.st ≠ .night → s.sup.st ≠ .midnight →
    s.catOf r.code = some e →
    x = State.recItem { s with rcd := { s.rcd with reported := s.rcd.reported.erase r } } e r.src r.stamp r.tset r.frc r.words →
    (s.hasToken e = true → ∃ t, exec .recordEvent s = .next t ∧ t.rcd.reported = s.rcd.reported.erase r ∧
      Placed s t e.always { x with suppr := min (s.bucket e).pending 65535 } ∧
      ((s.rateOf e).2 ≠ 0 → (s.bucket e).pending = 0 → (t.bucket e).tokens = (s.bucket e).tokens - 1)) ∧
    (s.hasToken e = false → ∃ t, exec .recordEvent s = .next t ∧ t.rcd.reported = s.rcd.reported.erase r ∧ t.rcd.intake = s.rcd.intake ∧
      (t.bucket e).kept = some x ∧ (t.bucket e).pending = (s.bucket e).pending + 1 ∧
      t.get F.REC_CNT_SUPPRESSED = satAdd (2 ^ F.REC_CNT_SUPPRESSED.w - 1) (s.get F.REC_CNT_SUPPRESSED) 1 ∧
      ((s.bucket e).pending = 0 → (418, s.fab) ∈ t.vdx.pulses))) ∧
  (∀ (s : State) (r : Report), nextReport s.rcd.reported = some r → r ∈ s.rcd.reported ∧
    ∀ q ∈ s.rcd.reported, r.stamp < q.stamp ∨ r.stamp = q.stamp ∧ evKey r ≤ evKey q) ∧
  (∀ (c : Fin 1024) (s v : State) (e : CatEntry) (f : Nat), s.catNum c = some e → (s.bucket e).refill = some f →
    v = s.advance (s.clk.frcBase + f) →
    ((s.bucket e).kept = none → ∃ t, exec (.tokenRefill c) s = .next t ∧ t.clk = v.clk ∧ t.rcd.intake = s.rcd.intake ∧
      (t.bucket e).tokens = (s.bucket e).tokens + 1 ∧
      (t.bucket e).refill = (if (s.bucket e).tokens + 1 < (s.rateOf e).1 then some (f + (s.rateOf e).2 * 800000) else none)) ∧
    (∀ x, (s.bucket e).kept = some x → ∃ t, exec (.tokenRefill c) s = .next t ∧ t.clk = v.clk ∧
      Placed v t e.always { x with kept := true, suppr := min (s.bucket e).before 65535 } ∧
      (t.bucket e).kept = none ∧ (t.bucket e).pending = 0 ∧ (t.bucket e).tokens = (s.bucket e).tokens))

/-- A burst writes the intake queue's records in arrival order into the next slots of the ring, each with its check; after the supply-fail
warning the whole queue is written; the counters are cleared; REC_READ answers records of the ring and REC_MARK places one whose reply
follows its writing, or is refused with BUSY (R468, R475, R479, R483, R484). -/
def Sys2Proof.Claims.RecorderRing : Prop :=
  (∀ (s : State) (x : RecItem), s.recRuns = true → s.pwr.warned = true → s.rcd.intake = [x] → s.rcd.droppedSince = 0 → x.reply = none →
    ∃ t, exec .recRingWrite s = .next t ∧ t.rcd.intake = [] ∧ t.rcd.nextSeq = (s.rcd.nextSeq + 1) % 2 ^ 32 ∧ t.rcd.empty = false ∧
      t.rdBytes (0x20800000 + s.rcd.nextSeq % 65536 * 64) 64 = recBytes x s.rcd.nextSeq true ∧
      MemBut s t (0x20800000 + s.rcd.nextSeq % 65536 * 64) (recBytes x s.rcd.nextSeq true).length ∧
      (2 ≤ x.sev → (419, s.fab) ∈ t.vdx.pulses) ∧ (x.sev < 2 → t.vdx = s.vdx)) ∧
  (∀ s : State, s.recRuns = true → s.pwr.warned = true → ∃ t, exec .recRingWrite s = .next t ∧ t.rcd.intake = []) ∧
  (∀ s : State, s.recRuns = true → s.pwr.warned = false → (s.pwr.granted.any fun r => r.rank == 4 && r.unit == 0) = true →
    ∃ t, exec .recRingWrite s = .next t ∧ t.rcd.intake = s.rcd.intake.drop (if s.rcd.droppedSince = 0 then 64 else 63)) ∧
  (∀ s : State, ∃ t, exec .recCntClr s = .next t ∧ t.get F.REC_CNT_SUPPRESSED = 0 ∧ t.get F.REC_CNT_DROPPED = 0 ∧
    RegsBut s t [F.REC_CNT_SUPPRESSED.off, F.REC_CNT_DROPPED.off] ∧ t = { s with regs := t.regs }) ∧
  (∀ (r : Req) (s u : State) (count first n : Nat), Asked s r 0x28 [.config, .stop, .run, .hold, .service, .dusk] u → r.payload.length = 6 →
    count = fieldLe r.payload 4 2 → first = max (fieldLe r.payload 0 4) (u.rcd.nextSeq - 65536) →
    n = (if u.rcd.empty = true ∨ u.rcd.nextSeq ≤ first then 0
      else min (min count (((if reqLocal r then 2036 else 4096) - 8) / 64)) (u.rcd.nextSeq - first)) →
    ((count = 0 ∨ 63 < count) → Refused (.recRead r) s r 0x28 0x12 0 0 0xFFFFFFFF) ∧
    (1 ≤ count → count ≤ 63 → Says (.recRead r) s r 0x28 0 (leBytes 4 (if n = 0 then u.rcd.nextSeq else first) ++ leBytes 2 n ++ [0, 0] ++
      (List.range n).flatMap fun i => u.rdBytes (0x20800000 + (first + i) % 65536 * 64) 64) u)) ∧
  (∀ (r : Req) (s u v : State) (code : Nat), Asked s r 0x29 [.config, .stop, .run, .hold, .service, .dusk] u → 2 ≤ r.payload.length →
    r.payload.length ≤ 32 → code = fieldLe r.payload 0 2 → v = u.judgeAll u.rcd.reported.length →
    ((code < 0x300 ∨ 0x37F < code) → Refused (.recMark r) s r 0x29 0x12 0 0 0xFFFFFFFF) ∧
    (0x300 ≤ code → code ≤ 0x37F → ∀ e, v.catNum code = some e →
      ((v.hasToken e = false ∨ 56 ≤ v.rcd.intake.length) → Refused (.recMark r) s r 0x29 0x23 0 0 0xFFFFFFFF) ∧
      (v.hasToken e = true → v.rcd.intake.length < 56 → ∃ t x, exec (.recMark r) s = .next t ∧ t.rcd.intake = v.rcd.intake ++ [x] ∧
        x.code = code ∧ x.reply = some ⟨r.origin, r.seq, r.trailer, r.tag.map fun t => t.1⟩ ∧ t.mem = v.mem)))

/-- REC_CONFIG sets a code's rate or snapshot, or the catalogue's again, and answers the catalogue entry or the settings in force, by its
FUNC; every one of its five rows does what the FUNC in the payload asks (R479). -/
def Sys2Proof.Claims.RecorderConfiguration : Prop :=
  ∀ (r : Req) (s u : State) (c : Instr) (func code : Nat), Asked s r 0x2A [.config, .stop] u →
    (c = .recConfigSetRate r ∨ c = .recConfigSetSnapshot r ∨ c = .recConfigRestore r ∨ c = .recConfigReadCatalogue r ∨
      c = .recConfigReadSettings r) → func = fieldLe r.payload 0 1 → code = fieldLe r.payload 2 2 →
    (4 < func → 4 ≤ r.payload.length → Refused c s r 0x2A 0x12 0 0 0xFFFFFFFF) ∧
    (2 ≤ func → func ≤ 4 → r.payload.length ≠ 4 → Refused c s r 0x2A 0x11 0 0 0xFFFFFFFF) ∧
    (2 ≤ func → func ≤ 4 → r.payload.length = 4 → fieldLe r.payload 1 1 ≠ 0 → Refused c s r 0x2A 0x12 0 0 0xFFFFFFFF) ∧
    (fieldLe r.payload 1 1 = 0 → (func = 2 → code ≠ 0xFFFF) →
      (func ≤ 4 → (func = 0 → r.payload.length = 8) → (func = 1 → r.payload.length = 8 + 4 * fieldLe r.payload 4 1 ∧ fieldLe r.payload 4 1 ≤ 8) →
        (2 ≤ func → r.payload.length = 4) → u.catNum code = none → Refused c s r 0x2A 0x12 0 0 0xFFFFFFFF) ∧
      ∀ e, u.catNum code = some e →
        (func = 0 → r.payload.length = 8 →
          ((fieldLe r.payload 4 1 = 0 ∨ fieldLe r.payload 5 1 ≠ 0) → Refused c s r 0x2A 0x12 0 0 0xFFFFFFFF) ∧
          (fieldLe r.payload 4 1 ≠ 0 → fieldLe r.payload 5 1 = 0 → e.always = true → Refused c s r 0x2A 0x22 0 0 0xFFFFFFFF) ∧
          (fieldLe r.payload 4 1 ≠ 0 → fieldLe r.payload 5 1 = 0 → e.always = false → ∃ v, exec c s = .next v ∧ Answered v r 0x2A 0 [] ∧
            v.recSetting code = { u.recSetting code with rate := some (fieldLe r.payload 4 1, fieldLe r.payload 6 2) } ∧
            ∀ n, n ≠ code → v.recSetting n = u.recSetting n)) ∧
        (∀ n offs, func = 1 → n = fieldLe r.payload 4 1 → n ≤ 8 → r.payload.length = 8 + 4 * n →
          offs = (List.range n).map (fun i => fieldLe r.payload (8 + 4 * i) 4) → fieldLe r.payload 5 3 = 0 →
          ((∃ o ∈ offs, snapOffset o = false) → Refused c s r 0x2A 0x12 0 0 0xFFFFFFFF) ∧
          ((∀ o ∈ offs, snapOffset o = true) →
            (e.fixedSnap = true → Refused c s r 0x2A 0x22 0 0 0xFFFFFFFF) ∧
            (e.fixedSnap = false → (∃ o ∈ offs, u.offFitted o = false) → Refused c s r 0x2A 0x21 0 0 0xFFFFFFFF) ∧
            (e.fixedSnap = false → (∀ o ∈ offs, u.offFitted o = true) → ∃ v, exec c s = .next v ∧ Answered v r 0x2A 0 [] ∧
              v.recSetting code = { u.recSetting code with snap := if n = 0 then none else some offs } ∧
              ∀ k, k ≠ code → v.recSetting k = u.recSetting k))) ∧
        (func = 2 → r.payload.length = 4 → ∃ v, exec c s = .next v ∧ Answered v r 0x2A 0 [] ∧ v.recSetting code = ⟨none, none⟩ ∧
          ∀ k, k ≠ code → v.recSetting k = u.recSetting k) ∧
        (func = 3 → r.payload.length = 4 → Says c s r 0x2A 0 (catBytes e) u) ∧
        (func = 4 → r.payload.length = 4 → Says c s r 0x2A 0 (u.settingBytes e) u))

/-! ### The supervisor: time, network, leases, tests, power (R61, R167, R232, R239, R273, R302, R304, R499) -/

/-- TIME_GET answers the time of day, its status and FRC; TIME_SET steps the time of day to what it names, or to the reference of the source
in use as its newest measurement gives it, with source 256 and TSET; out-of-range parameters are refused (R302, R304). -/
def Sys2Proof.Claims.TimeCommands : Prop :=
  (∀ (r : Req) (s u : State), Asked s r 0x30 [.config, .stop, .run, .hold, .service, .dusk] u → r.payload = [] →
    Says (.timeGet r) s r 0x30 0 (leBytes 8 (u.tod / 65536000000000) ++ leBytes 4 (u.tod % 65536000000000 / 65536) ++
      leBytes 2 (u.tod % 65536) ++ [BitVec.ofNat 8 (fieldGet (u.readReg 0x70000) 26 6), 0] ++ leBytes 2 (u.get F.TMB_UTC_UTC_OFS) ++
      [BitVec.ofNat 8 (u.get F.TMB_UTC_LEAP59 + 2 * u.get F.TMB_UTC_LEAP61), 0, 0, 0, 0, 0] ++ leBytes 8 u.frc) u) ∧
  (∀ (r : Req) (s u : State) (mode : Nat), Asked s r 0x31 [.stop] u → mode = fieldLe r.payload 0 1 →
    (r.payload.length = 16 ∨ r.payload.length = 4 ∧ mode ≠ 0) →
    ((1 < mode ∨ fieldLe r.payload 1 3 ≠ 0) → Refused (.timeSet r) s r 0x31 0x12 0 0 0xFFFFFFFF) ∧
    (mode = 0 → fieldLe r.payload 1 3 = 0 →
      (1000000000 ≤ fieldLe r.payload 12 4 → Refused (.timeSet r) s r 0x31 0x12 0 0 0xFFFFFFFF) ∧
      (fieldLe r.payload 12 4 < 1000000000 → ∃ v, exec (.timeSet r) s = .next v ∧ Answered v r 0x31 0 [] ∧ v.clk = u.clk ∧
        v.tod = fieldLe r.payload 4 8 * 65536000000000 + fieldLe r.payload 12 4 * 65536 ∧ v.flag F.TMB_STAT_TSET = true ∧
        (256, u.fab) ∈ v.vdx.pulses ∧
        ∃ l, v.rcd.reported.map (fun e => e.code) = u.rcd.reported.map (fun e => e.code) ++ .TIME_STEP :: l)) ∧
    (mode = 1 → fieldLe r.payload 1 3 = 0 → ∀ c, c = u.get F.TMB_STAT_ACTIVE →
      ((c < 2 ∨ (u.tsrc c).newest = none) → Refused (.timeSet r) s r 0x31 0x12 0 0 0xFFFFFFFF) ∧
      (2 ≤ c → (u.tsrc c).newest ≠ none → ∃ v, exec (.timeSet r) s = .next v ∧ Answered v r 0x31 0 [] ∧ v.clk = u.clk ∧
        v.tod = u.reference c ∧ v.flag F.TMB_STAT_TSET = true)))

/-- NET_MODE_REQ proposes a mode that the cluster and this node permit; LEASE_STATUS answers the sixteen groups; LEASE_RELEASE gives up the
leases its mask names; REINTEGRATE leaves EXCLUDED where every unit has passed its test, and otherwise asks for it (R232, R239, R273,
R460). -/
def Sys2Proof.Claims.NetworkCommands : Prop :=
  (∀ (r : Req) (s u : State) (m : Nat), Asked s r 0x38 [.stop, .run, .hold, .service] u → r.payload.length = 1 →
    m = fieldLe r.payload 0 1 →
    (u.cfg.cluster = none → Refused (.netModeReq r) s r 0x38 0x12 0 0 0xFFFFFFFF) ∧
    (∀ c, u.cfg.cluster = some c →
      (((u.ghMe c).syncId = 0 ∨ 7 < m ∨ c.modes.testBit m = false ∨ (u.ghMe c).permit.testBit m = false) →
        Refused (.netModeReq r) s r 0x38 0x12 0 0 0xFFFFFFFF) ∧
      ((u.ghMe c).syncId ≠ 0 → m ≤ 7 → c.modes.testBit m = true → (u.ghMe c).permit.testBit m = true →
        (u.gh.prop ≠ none → Refused (.netModeReq r) s r 0x38 0x23 0 0 0xFFFFFFFF) ∧
        (u.gh.prop = none → (u.gh.leader ≠ 0 ∨ u.get F.GHC_STAT_PSTATE ≠ 4) → Refused (.netModeReq r) s r 0x38 0x20 0 0 0xFFFFFFFF) ∧
        (u.gh.prop = none → u.gh.leader = 0 → u.get F.GHC_STAT_PSTATE = 4 → ∃ v o k, exec (.netModeReq r) s = .next v ∧
          v.gh.prop = some (m, k, true) ∧ v.sup.longOp = some o ∧ o.opc = 0x38 ∧ o.arg = m ∧
          v.flag F.GHC_STAT_MODE_PEND = true ∧ v.get F.GHC_STAT_MODE_NEXT = m ∧ Answered v r 0x38 1 [BitVec.ofNat 8 k])))) ∧
  (∀ (r : Req) (s u : State), Asked s r 0x40 [.config, .stop, .run, .hold, .service, .dusk] u → r.payload = [] →
    Says (.leaseStatus r) s r 0x40 0 ((List.range 16).flatMap fun k =>
      [BitVec.ofNat 8 (u.get (F.TVL_LSTAT_HOLDER k)),
        BitVec.ofNat 8 (b2n (u.holds k) + 2 * u.get (F.TVL_LSTAT_RELEASED k) + 4 * u.get (F.TVL_LSTAT_GUARDIAN k) +
          8 * u.get (F.TVL_OGRP_EN k) + 16 * u.get (F.TVL_OGRP_SAFETY k)), 0, 0] ++ leBytes 4 (u.leaseRemain k)) u) ∧
  (∀ (r : Req) (s u : State), Asked s r 0x41 [.run] u → r.payload.length = 2 → ∃ v, exec (.leaseRelease r) s = .next v ∧
    Answered v r 0x41 0 [] ∧
    (∀ k, k < 16 → (fieldLe r.payload 0 2).testBit k = true → u.holds k = true →
      v.holds k = false ∧ (v.lease k).mine = none ∧ v.flag (F.TVL_LSTAT_RELEASED k) = true ∧ (v.lease k).relAt = u.clk.t ∧
      v.flag (F.TVL_LSTAT_GUARDIAN k) = false) ∧
    (∀ k, k < 16 → ((fieldLe r.payload 0 2).testBit k = false ∨ u.holds k = false) → v.holds k = u.holds k ∧ v.lease k = u.lease k)) ∧
  (∀ (r : Req) (s u : State), Asked s r 0x42 [.run, .hold] u → r.payload = [] →
    (u.get F.TVL_STAT_MSTATE ≠ 5 → Refused (.reintegrate r) s r 0x42 0x20 0 0 0xFFFFFFFF) ∧
    (u.get F.TVL_STAT_MSTATE = 5 → u.tvl.exclPort = none → u.allTested = true → ∃ v, exec (.reintegrate r) s = .next v ∧
      v.get F.TVL_STAT_MSTATE = 1 ∧ v.tvl.reint = false ∧ Answered v r 0x42 0 []) ∧
    (u.get F.TVL_STAT_MSTATE = 5 → (u.tvl.exclPort ≠ none ∨ u.allTested = false) → ∃ v, exec (.reintegrate r) s = .next v ∧
      v.get F.TVL_STAT_MSTATE = 5 ∧ v.tvl.reint = true ∧ Answered v r 0x42 0 []))

/-- SELFTEST tests the comparators of the fitted pairs and engines its mask names, and a failing one ends in the Dusk state; POWER_BUDGET
sets the budget of the next window boundary, or reports the one in force (R61, R167, R460, R499). -/
def Sys2Proof.Claims.TestAndBudgetCommands : Prop :=
  (∀ (r : Req) (fails : BitVec 6) (s u : State) (mask : Nat), Asked s r 0x48 [.stop, .service] u → r.payload.length = 1 →
    mask = fieldLe r.payload 0 1 →
    (3 < mask → Refused (.selftest r fails) s r 0x48 0x12 0 0 0xFFFFFFFF) ∧
    (mask ≤ 3 → (∀ k, k < 6 → u.unitFitted k = true → mask.testBit (k / 4) = true → fails.getLsbD k = false) →
      ∃ v d, exec (.selftest r fails) s = .next v ∧ v.sup.st = u.sup.st ∧ Answered v r 0x48 0 [d] ∧
        (∀ k, k < 6 → d.getLsbD k = (u.unitFitted k && mask.testBit (k / 4))) ∧
        (∀ p, p < 4 → u.pairFitted p = true → mask.testBit 0 = true →
          (v.pair p).cmpPass = min ((u.pair p).cmpPass + 1) 65535 ∧ (v.pair p).cmpLast = u.optime ∧ (v.pair p).testing = none) ∧
        (∀ e, e < 2 → u.engineFitted e = true → mask.testBit 1 = true → (v.eng e).cmpLast = u.optime ∧ (v.eng e).testing = none)) ∧
    (∀ k, mask ≤ 3 → k < 6 → u.unitFitted k = true → mask.testBit (k / 4) = true → fails.getLsbD k = true →
      ∃ v d, exec (.selftest r fails) s = .next v ∧ v.sup.st = .dusk ∧ v.sup.faultLatch = true ∧ Answered v r 0x48 0x40 d)) ∧
  (∀ (r : Req) (s u : State) (b : Nat), Asked s r 0x50 [.config, .stop, .run, .hold, .service] u → r.payload.length = 2 →
    b = fieldLe r.payload 0 2 →
    (b ≠ 0 → (b < 120 ∨ 220 < b) → Refused (.powerBudget r) s r 0x50 0x12 0 0 0xFFFFFFFF) ∧
    (b = 0 → Says (.powerBudget r) s r 0x50 0 (leBytes 2 (u.pwr.budgetNext.getD (u.get F.PWR_BUDGET_BUDGET)) ++
      leBytes 2 (u.get F.PWR_BUDGET_MEAS)) u) ∧
    (120 ≤ b → b ≤ 220 → Says (.powerBudget r) s r 0x50 0 (leBytes 2 b ++ leBytes 2 (u.get F.PWR_BUDGET_MEAS))
      { u with pwr := { u.pwr with budgetNext := some b } }))

/-! ### The Service state and the halt-together protocol (R67 to R71, R434, R435, R461) -/

/-- SERVICE_ENTER and SERVICE_EXIT change the state, back to Dusk where Service was entered from it; HALT and RESUME stop and release the
pairs of their mask with their windows' time moved by the time halted; STEP runs one instruction of a halted pair (R68, R69, R434,
R435). -/
def Sys2Proof.Claims.ServiceCommands : Prop :=
  (∀ (r : Req) (s u : State), Asked s r 0x70 [.stop, .dusk] u → r.payload = [] → ∃ v, exec (.serviceEnter r) s = .next v ∧
    v.sup.st = .service ∧ v.sup.fromDusk = decide (u.sup.st = .dusk) ∧ Answered v r 0x70 0 []) ∧
  (∀ (r : Req) (s u : State), Asked s r 0x71 [.service] u → r.payload = [] →
    (u.sup.fromDusk = true → ∃ v, exec (.serviceExit r) s = .next v ∧ v.sup.st = .dusk ∧ v.sup.fromDusk = false ∧ v.pairs = u.pairs ∧
      Answered v r 0x71 0 []) ∧
    (u.sup.fromDusk = false → ∃ v, exec (.serviceExit r) s = .next v ∧ v.sup.st = .stop ∧ v.hx.frameOn = false ∧
      Answered v r 0x71 0 [])) ∧
  (∀ (r : Req) (s u : State) (m : Nat) (c : Instr) (opc : Nat), m = fieldLe r.payload 0 1 → r.payload.length = 1 →
    (c = .halt r ∧ opc = 0x72 ∨ c = .resume r ∧ opc = 0x74) → Asked s r opc [.service] u →
    (15 < m → Refused c s r opc 0x12 0 0 0xFFFFFFFF) ∧
    (m ≤ 15 → (∃ p, p < 4 ∧ m.testBit p = true ∧ u.pairFitted p = false) → Refused c s r opc 0x21 0 0 0xFFFFFFFF) ∧
    (m ≤ 15 → (∀ p, p < 4 → m.testBit p = true → u.pairFitted p = true) →
      (c = .halt r → ∃ v, exec c s = .next v ∧ Answered v r opc 0 [] ∧ v.clk = u.clk ∧
        ∀ p, p < 4 → (v.pair p).halted = ((u.pair p).halted || m.testBit p) ∧
          (m.testBit p = true → (u.pair p).halted = false → (v.unit p).haltedAt = some u.clk.t) ∧
          v.pair p = { u.pair p with halted := (v.pair p).halted }) ∧
      (c = .resume r → ∃ v, exec c s = .next v ∧ Answered v r opc 0 [] ∧
        (m = 0 → v.pairs = u.pairs) ∧
        ∀ p, p < 4 → m = 2 ^ p → (u.pair p).halted = true → (v.pair p).halted = false))) ∧
  (∀ (r : Req) (x : PairStep) (s u : State) (p : Nat), Asked s r 0x73 [.service] u → r.payload.length = 1 → p = fieldLe r.payload 0 1 →
    (3 < p → Refused (.stepPair r x) s r 0x73 0x12 0 0 0xFFFFFFFF) ∧
    (p ≤ 3 → u.pairFitted p = false → Refused (.stepPair r x) s r 0x73 0x21 0 0 0xFFFFFFFF) ∧
    (p ≤ 3 → u.pairFitted p = true → (u.pair p).halted = false → Refused (.stepPair r x) s r 0x73 0x20 0 0 0xFFFFFFFF) ∧
    (p ≤ 3 → u.pairFitted p = true → (u.pair p).halted = true → ∃ v, exec (.stepPair r x) s = .next v ∧ (v.pair p).halted = true ∧
      Answered v r 0x73 0 []))

/-- PEEK answers memory as the pair loads it, or a register, and FAULT where the cores differ; POKE writes memory where a store is
allowed, or a register of both cores, and an engine's ACTIVE bank is refused as locked; TRIGGER sets an instruction-address trigger; BOOT_UPDATE stages bytes and installs a verified image
for the next Dawn sequence (R70, R71, R188, R461). -/
def Sys2Proof.Claims.DebugCommands : Prop :=
  (∀ (r : Req) (trail : Option DWord) (s u : State) (p a n : Nat), Asked s r 0x75 [.service] u → r.payload.length = 14 →
    p = fieldLe r.payload 1 1 → a = fieldLe r.payload 4 8 → n = fieldLe r.payload 12 2 →
    ((1 < fieldLe r.payload 0 1 ∨ 3 < p ∨ fieldLe r.payload 2 2 ≠ 0 ∨ 2 ^ 40 ≤ a ∨ n = 0 ∨ 4000 < n ∨ fieldLe r.payload 0 1 = 1 ∧ n ≠ 8) →
      Refused (.peek r trail) s r 0x75 0x12 0 0 0xFFFFFFFF) ∧
    (u.peekRefuse r = none → fieldLe r.payload 0 1 = 0 → ∀ t d, State.peekMem p n u a n = some (t, d) →
      Says (.peek r trail) s r 0x75 0 d t) ∧
    (u.peekRefuse r = none → fieldLe r.payload 0 1 = 0 → State.peekMem p n u a n = none → Says (.peek r trail) s r 0x75 0x40
      (u.errBlock 0 0 0xFFFFFFFF) u) ∧
    (u.peekRefuse r = none → fieldLe r.payload 0 1 = 1 → a < 0x400 →
      ((trail = none ∨ trail = some (((u.pair p).bank (a / 256)).reg (a % 256))) →
        Says (.peek r trail) s r 0x75 0 (leBytes 8 (((u.pair p).bank (a / 256)).reg (a % 256)).toNat) u) ∧
      (∀ x, trail = some x → x ≠ ((u.pair p).bank (a / 256)).reg (a % 256) → ∃ v d, exec (.peek r trail) s = .next v ∧
        (v.pair p).diverged = true ∧ Answered v r 0x75 0x40 d ∧
        v.rcd.reported.map (fun e => e.code) = u.rcd.reported.map (fun e => e.code) ++ [.PAIR_DEBUG_DIVERGE]))) ∧
  (∀ (r : Req) (s u : State) (p a n : Nat) (d : List Byte), Asked s r 0x76 [.service] u → 15 ≤ r.payload.length →
    p = fieldLe r.payload 1 1 → a = fieldLe r.payload 4 8 → n = fieldLe r.payload 12 2 → d = r.payload.drop 14 → u.peekRefuse r = none →
    (d.length ≠ n → Refused (.poke r) s r 0x76 0x11 0 0 0xFFFFFFFF) ∧
    (d.length = n → fieldLe r.payload 0 1 = 0 →
      ((∃ i, i < n ∧ u.inActiveBank (a + i) = true) → Refused (.poke r) s r 0x76 0x22 0 0 0xFFFFFFFF) ∧
      ((∀ i, i < n → u.inActiveBank (a + i) = false) → (∃ i, i < n ∧ u.mayStore (a + i) = false) → Refused (.poke r) s r 0x76 0x12 0 0 0xFFFFFFFF) ∧
      ((∀ i, i < n → u.inActiveBank (a + i) = false ∧ u.mayStore (a + i) = true) → ∃ v, exec (.poke r) s = .next v ∧ Answered v r 0x76 0 [])) ∧
    (d.length = n → fieldLe r.payload 0 1 = 1 → a < 0x400 → ∃ v, exec (.poke r) s = .next v ∧ Answered v r 0x76 0 [] ∧
      v.pair p = (u.pair p).setBank (a / 256) (((u.pair p).bank (a / 256)).setReg (a % 256) (BitVec.ofNat 64 (leNat d))) ∧
      PairsBut u v p)) ∧
  (∀ (r : Req) (s u : State) (p k : Nat), Asked s r 0x77 [.service] u → r.payload.length = 12 → p = fieldLe r.payload 0 1 →
    k = fieldLe r.payload 1 1 →
    ((3 < p ∨ 3 < k ∨ 1 < fieldLe r.payload 2 1 ∨ fieldLe r.payload 3 1 ≠ 0) → Refused (.trigger r) s r 0x77 0x12 0 0 0xFFFFFFFF) ∧
    (p ≤ 3 → k ≤ 3 → fieldLe r.payload 2 1 ≤ 1 → fieldLe r.payload 3 1 = 0 →
      (u.pairFitted p = false → Refused (.trigger r) s r 0x77 0x21 0 0 0xFFFFFFFF) ∧
      (u.pairFitted p = true → ∃ v, exec (.trigger r) s = .next v ∧ Answered v r 0x77 0 [] ∧ PairsBut u v p ∧
        tget noneD (v.pair p).trig k = (if fieldLe r.payload 2 1 = 1 then some (fieldLe r.payload 4 8) else none) ∧
        v.pair p = { u.pair p with trig := (v.pair p).trig }))) ∧
  (∀ (r : Req) (s u : State) (o : Nat) (img : List Byte), Asked s r 0x78 [.service] u → 8 ≤ r.payload.length →
    o = fieldLe r.payload 0 4 →
    ((1 < fieldLe r.payload 4 1 ∨ fieldLe r.payload 5 3 ≠ 0 ∨ 0x200000 < o + (r.payload.length - 8)) →
      Refused (.bootUpdate r) s r 0x78 0x12 0 0 0xFFFFFFFF) ∧
    (fieldLe r.payload 4 1 ≤ 1 → fieldLe r.payload 5 3 = 0 → o + (r.payload.length - 8) ≤ 0x200000 →
      img = tgetList byteD (tputList byteD u.sup.fwStaged o (r.payload.drop 8)) 0 (o + (r.payload.length - 8)) →
      (fieldLe r.payload 4 1 = 0 → ∃ v, exec (.bootUpdate r) s = .next v ∧ Answered v r 0x78 0 [] ∧ v.sup.fwNext = u.sup.fwNext ∧
        tgetList byteD v.sup.fwStaged 0 (o + (r.payload.length - 8)) = img) ∧
      (fieldLe r.payload 4 1 = 1 → Config.bootVerify img = true → ∃ v x, exec (.bootUpdate r) s = .next v ∧ Answered v r 0x78 0 [] ∧
        v.sup.fwNext = some x ∧ v.sup.fwStaged = [] ∧ v.sup.fwVersion = u.sup.fwVersion) ∧
      (fieldLe r.payload 4 1 = 1 → Config.bootVerify img = false → ∃ v d, exec (.bootUpdate r) s = .next v ∧ Answered v r 0x78 0x30 d ∧
        v.sup.fwNext = u.sup.fwNext ∧ v.sup.fwStaged = [])))

/-! ### The supervisor's ports, sessions and long operations (R440, R441, R446, R448, R452, R453, R513) -/

/-- The completion notice of a long operation that has its outcome becomes its origin's stored reply and a refusal is recorded; a network
mode request ends with the mode in force (R446, R464). -/
def Sys2Proof.Claims.LongOperations : Prop :=
  (∀ (s : State) (o : LongOp), s.sup.longOp = some o →
    (∀ st d, o.outcome = some (st, d) → ∃ t, exec .longOpComplete s = .next t ∧ t.sup.longOp = none ∧
      t.lastReq (originKey o.origin) = some ⟨o.seq, o.trailer,
        ⟨o.opc, 2 + (if o.counter.isSome then 4 else 0), o.seq, originSrc o.origin, st, d, o.counter⟩⟩ ∧
      ((st = 0 ∨ st = 0x40) → t.rcd = s.rcd) ∧
      (st ≠ 0 → st ≠ 0x40 → ∃ e, t.rcd.reported = s.rcd.reported ++ [e] ∧ e.code = .CMD_REFUSED ∧
        e.words = [o.opc, st, originSrc o.origin].map (BitVec.ofNat 32)) ∧
      t.clk = s.clk ∧ t.cfg = s.cfg) ∧
    (o.outcome = none → o.opc = 0x38 → s.gh.prop = none → ∃ t d, exec .longOpComplete s = .next t ∧ t.sup.longOp = none ∧
      t.lastReq (originKey o.origin) = some ⟨o.seq, o.trailer,
        ⟨0x38, 2 + (if o.counter.isSome then 4 else 0), o.seq, originSrc o.origin,
          if s.get F.GHC_STAT_MODE = o.arg then 0 else 0x40, d, o.counter⟩⟩)) ∧
  (∀ s : State, s.sup.longOp = none → exec .longOpComplete s = .next s)

/-- The SCP shifts out the oldest reply, else the oldest notice, and keeps a packet fetched in part; a fetch while SREADY is low counts. A
submission at a local port makes it busy, or counts as refused; a session ends 600 s after its last command, a lockout at its end; the
service connector's level is kept (R440, R441, R448, R452, R453, R513). -/
def Sys2Proof.Claims.SupervisorPorts : Prop :=
  (∀ (full : Bool) (s : State),
    (s.sup.sready = false → s.alive = true → exec (.scpFetch full) s =
      .next { s with sup := { s.sup with scpBusyViol := s.sup.scpBusyViol + 1 } }) ∧
    (s.sup.sready = true → s.sup.waiting = [] → exec (.scpFetch full) s = .next s) ∧
    (∀ c, s.sup.sready = true → (s.sup.waiting.find? (fun c => c.1.flags.testBit 0) = some c ∨
        (∀ d ∈ s.sup.waiting, d.1.flags.testBit 0 = false) ∧ s.sup.waiting.head? = some c) →
      (full = false → exec (.scpFetch full) s = .next { s with sup := { s.sup with scpPartial := s.sup.scpPartial + 1 } }) ∧
      (full = true → s.sup.dropped = 0 → ∃ t, exec (.scpFetch full) s = .next t ∧
        t.out = s.out ++ [⟨.scp, 0, 0, s.clk.t, s.packetBytes c.1⟩] ∧ t.sup.waiting = s.sup.waiting.erase c ∧
        t = { s with out := t.out, sup := { s.sup with waiting := t.sup.waiting } }) ∧
      (full = true → s.sup.dropped ≠ 0 → s.sup.waiting.length ≤ 16 → ∃ t k, exec (.scpFetch full) s = .next t ∧ t.sup.dropped = 0 ∧
        t.sup.waiting = s.sup.waiting.erase c ++ [(k, true)] ∧ k.opc = 0 ∧
        k.payload = leBytes 2 4 ++ [BitVec.ofNat 8 s.sup.st.code, BitVec.ofNat 8 s.sflags] ++ leBytes 2 (min s.sup.dropped 65535)))) ∧
  (∀ (n : Fin 256) (v : Word) (s : State) (part : Bool) (k : Nat), s.alive = true →
    (part = false → s.pairFitted n = true) → (part = true → ∃ d, s.part? n = some d ∧ d.pflags.testBit 1 = true) →
    k = (if part then 0xF30 + n.val else n.val) →
    (s.flag (F.SUP_MBSTAT_BUSY k) = true → ∃ t, exec (.supMbsubmit part n v) s = .next t ∧
      t.get (F.SUP_MBSTAT_REFUSED k) = satAdd 255 (s.get (F.SUP_MBSTAT_REFUSED k)) 1 ∧ RegsBut s t [(F.SUP_MBSTAT_REFUSED k).off] ∧
      t = { s with regs := t.regs }) ∧
    (s.flag (F.SUP_MBSTAT_BUSY k) = false → ∃ t e, exec (.supMbsubmit part n v) s = .next t ∧ t.flag (F.SUP_MBSTAT_BUSY k) = true ∧
      t.sup = { s.sup with portWait := s.sup.portWait + 1 } ∧ t.rcd.reported = s.rcd.reported ++ [e] ∧ e.code = .LOCAL_ORIGIN ∧
      e.words = [BitVec.ofNat 32 (if part then n.val else 0xF0 + n.val), BitVec.ofNat 32 (v.toNat % 2048)] ∧
      RegsBut s t [(F.SUP_MBSTAT_BUSY k).off] ∧ t = { s with regs := t.regs, sup := t.sup, rcd := t.rcd })) ∧
  (∀ (s v : State),
    (∀ c, s.sup.cfgSess = some c → v = s.advance (c.lastAt + 480000000000) →
      exec (.sessionTimeout false) s = .next { v with sup := { v.sup with cfgSess := none } }) ∧
    (∀ c, s.sup.loadSess = some c → v = s.advance (c.lastAt + 480000000000) →
      exec (.sessionTimeout true) s = .next { v with sup := { v.sup with loadSess := none } }) ∧
    (∀ ip a e, s.sup.authFails.find? (fun a => a.ip == ip) = some a → a.lockedTill = some e → v = s.advance e →
      ∃ t, exec (.authLockoutEnd ip) s = .next t ∧ t = { v with sup := { v.sup with authFails := t.sup.authFails } } ∧
        (∀ x, x ∈ t.sup.authFails ↔ x ∈ s.sup.authFails ∧ x.ip ≠ ip)) ∧
    (∀ level, exec (.svcDetChange level) s = .next { s with sup := { s.sup with svcDet := level } }))

/-! ### The start of the module (chapter 20, R434, R435) -/

namespace Sys2Proof.Claims
open Sys2Proof Sys2Proof.Machine

/-- The module is at step 1 of a Dawn sequence that began with a start cause: every unit is as at reset, FRC does not count, eMRAM holds
its content, and SRAM holds nothing (R122, R126, R493). -/
def AtStepOne (s t : State) (cause : Nat) : Prop :=
  t.sup.st = .dawn ∧ t.sup.startCause = cause ∧ t.sup.sready = false ∧ t.clk.frcOn = false ∧ t.pwr.dawnAt = s.clk.t ∧ t.clk.t = s.clk.t ∧
  t.pairs = State.reset.pairs ∧ t.engines = State.reset.engines ∧ t.queues = State.reset.queues ∧ t.vdx = State.reset.vdx ∧
  t.hx = State.reset.hx ∧ t.tvl = State.reset.tvl ∧ t.gh = State.reset.gh ∧ t.sio = State.reset.sio ∧ t.can = State.reset.can ∧
  (∀ off, off ≠ F.PWR_STAT_SUPPLY.off → t.reg off = State.reset.reg off) ∧
  (∀ a, 0x20000000 ≤ a → a < 0x21000000 → t.rd8 a = s.rd8 a) ∧ (∀ a, 0x10000000 ≤ a → a < 0x12000000 → t.rd8 a = 0) ∧
  t.ident = s.ident ∧ t.pending = s.pending

/-- The supply-fail warning of `s` (R492 step 3): shown, the counters are copied, the queued entries and the real-time clock are written. -/
def Warned (s t : State) : Prop :=
  t.pwr.warned = true ∧ t.pwr.warnedAt = s.clk.t ∧ t.get F.PWR_STAT_SUPPLY = 2 ∧ (426, s.fab) ∈ t.vdx.pulses ∧ t.pwr.pccCopy = s.pwr.pcc ∧
  t.pwr.opCopy = s.optime ∧ (s.recRuns = true → t.rcd.intake = []) ∧
  (s.clk.frcOn = true → t.pwr.nightValid = true ∧ t.pwr.rtcAt = s.clk.t) ∧ t.clk = s.clk ∧ t.sup.st = s.sup.st

end Sys2Proof.Claims

/-- RST_N holds the module at step 1 of a warm Dawn sequence with no target, which begins at its release; in the Night state only the pin
is low, and while MATE is open the input is not looked at (R434, R494, R508, R528; from Midnight mode R493 is read so, log 128). -/
def Sys2Proof.Claims.ResetPin : Prop :=
  (∀ s : State, s.pwr.mated = true → s.sup.st ≠ .night → ∃ t, exec .rstNAssert s = .next t ∧ AtStepOne s t 2 ∧ t.pwr.rstAsserted = true ∧ t.sup.warm = true ∧
    t.sup.target = 2 ∧ (s.sup.st ≠ .dawn → Reports s t .STATE_CHANGE 0x13 [s.sup.st.code, 1])) ∧
  (∀ s : State, s.pwr.mated = false → exec .rstNAssert s = .next s) ∧
  (∀ s : State, s.pwr.mated = true → s.sup.st = .night → exec .rstNAssert s = .next { s with pwr := { s.pwr with rstAsserted := true } }) ∧
  (∀ s : State, s.pwr.rstAsserted = true →
    exec .rstNRelease s = .next { s with pwr := { s.pwr with rstAsserted := false, dawnAt := s.clk.t } }) ∧
  (∀ (b d : Bool) (f g : BitVec 6) (s : State), s.pwr.rstAsserted = true → exec (.dawnEnd b ⟨f, g⟩ d) s = .next s)

/-- Power-good takes the module from the Night state into the Dawn sequence; a failed boot, a comparator test that fails or an
injected difference that does not set the module fault latch ends in the Dusk state with cause 6; otherwise the power-cycle counter has counted, SREADY is high, and the state is Config without a sealed configuration, else Run or Stop as
the RESTART target, AUTO_RUN and the image set decide (R62, R167, R434, R435, R491, R493, R495). -/
def Sys2Proof.Claims.DawnSequence : Prop :=
  (∀ s : State, s.sup.st = .night → s.pwr.good = false → ∃ t, exec .powerGood s = .next t ∧ AtStepOne s t 0 ∧ t.pwr.good = true ∧
    Reports s t .STATE_CHANGE 0x13 [0, 1]) ∧
  (∀ s : State, s.pwr.good = true → exec .powerGood s = .next s) ∧
  (∀ s : State, s.sup.st = .dawn → s.pwr.good = true → s.pwr.rstAsserted = false →
    (∀ (d : Bool) (f g : BitVec 6), ∃ u t, exec (.dawnEnd true ⟨f, g⟩ d) s = .next t ∧ WentDusk u t 6 ∧ t.sup.sready = true ∧
      t.pwr.pcc = (s.pwr.pcc + 1) % 2 ^ 32 ∧ t.ident = { s.ident with pos := s.pwr.posPins } ∧
      t.clk.t = max s.clk.t (s.pwr.dawnAt + 110 * msUt)) ∧
    (∀ (d : Bool) (f g : BitVec 6) (u : Nat), u < 6 → s.unitFitted u = true → (f.getLsbD u = true ∨ g.getLsbD u = true) →
      ∃ v t, exec (.dawnEnd false ⟨f, g⟩ d) s = .next t ∧
      WentDusk v t 6 ∧ t.sup.sready = true ∧ t.pwr.pcc = (s.pwr.pcc + 1) % 2 ^ 32) ∧
    (∀ (d : Bool) (f g : BitVec 6), (∀ u, u < 6 → s.unitFitted u = true → f.getLsbD u = false ∧ g.getLsbD u = false) →
      ∃ t, exec (.dawnEnd false ⟨f, g⟩ d) s = .next t ∧
      t.sup.sready = true ∧ t.sup.faultLatch = false ∧ t.clk.frcOn = true ∧ t.pwr.midnight = none ∧
      t.pwr.pcc = (s.pwr.pcc + 1) % 2 ^ 32 ∧ t.ident = { s.ident with pos := s.pwr.posPins } ∧
      (s.sup.cfgLen = 0 → t.sup.st = .config) ∧ (t.sealed = false → t.sup.st = .config) ∧
      (t.sealed = true → t.sup.st = .run ∨ t.sup.st = .stop) ∧
      (t.sealed = true → (t.imgDamaged = true ∨ s.sup.target = 0 ∨ s.sup.target = 2 ∧ t.cflag 0 = false) → t.sup.st = .stop) ∧
      (t.runnable = true → (s.sup.target = 1 ∨ s.sup.target = 2 ∧ t.cflag 0 = true) → t.sup.st = .run)))

/-- The supply-fail warning is given when the hold-up store is down or MATE opens, and never twice; 1 ms later power-good is withdrawn and
the module is in the Night state with nothing that only the supply held (R407, R434, R492, R509). -/
def Sys2Proof.Claims.SupplyLoss : Prop :=
  (∀ (mv : Nat) (s : State), s.alive = true → s.pwr.good = true → s.pwr.warned = false → s.pwr.holdupSince.isSome = true →
    ∃ t, exec (.supplyFail mv) s = .next t ∧ Warned s t) ∧
  (∀ (mv : Nat) (s : State), s.pwr.warned = true → exec (.supplyFail mv) s = .next s) ∧
  (∀ s : State, s.alive = true → s.pwr.good = true → s.pwr.warned = false → ∃ t, exec .mateOpen s = .next t ∧ Warned s t ∧
    t.pwr.mated = false) ∧
  (∀ s : State, s.pwr.warned = true → exec .mateOpen s = .next { s with pwr := { s.pwr with mated := false } }) ∧
  (∀ s : State, s.pwr.good = true → s.pwr.warned = true → ∃ t, exec .powerGoodWithdraw s = .next t ∧ t.sup.st = .night ∧
    t.pwr.good = false ∧ t.pwr.warned = false ∧ t.clk.t = max s.clk.t (s.pwr.warnedAt + msUt) ∧ t.clk.frcOn = false ∧ t.clk.opOn = false ∧
    t.optime = (s.advance (s.pwr.warnedAt + msUt)).optime ∧ t.sio = State.reset.sio ∧ t.pairs = State.reset.pairs ∧ t.rcd.intake = [] ∧
    t.rcd.reported = [] ∧ t.sup.longOp = none ∧ t.sup.waiting = []) ∧
  (∀ s : State, s.pwr.warned = false → exec .powerGoodWithdraw s = .next s)

/-- A wake source acts in the Midnight state while its WAKE bit is set and its condition holds, the timer TIMER_S seconds after entry; the
Dawn sequence that follows is warm, with start cause 3, the wake source and the MIDNIGHT target (R434, R495, R501). -/
def Sys2Proof.Claims.MidnightWakes : Prop :=
  (∀ (src : Fin 4) (m : MidnightReq) (s : State), s.sup.st = .midnight → s.pwr.good = true → s.pwr.midnight = some m →
    (m.wake.testBit src = true → s.wakeAble src = true → ∃ u t : State, exec (.midnightWake src) s = .next t ∧
      u = (if src.val = 3 then s.advance (m.since + m.timerS * 800000000) else s) ∧ AtStepOne u t 3 ∧ t.sup.warm = true ∧
      t.sup.wakeBit = src.val ∧ t.sup.target = m.target ∧ t.pwr.midnight = some m ∧ t.freeCtr = u.freeCtr ∧
      Reports u t .STATE_CHANGE 0x13 [8, 1] ∧
      (∀ a, ddrBase ≤ a → a < ddrBase + u.ddrSize → t.rd8 a = u.rd8 a)) ∧
    (m.wake.testBit src = false ∨ s.wakeAble src = false → exec (.midnightWake src) s = .next s)) ∧
  (∀ (src : Fin 4) (s : State), s.sup.st ≠ .midnight → exec (.midnightWake src) s = .next s)

/-! ### Instructions of a pair and accesses to the address map (R7, R13 to R15, R44 to R47, R59) -/

namespace Sys2Proof.Claims
open Sys2Proof Sys2Proof.Machine

/-- The length in bytes of an instruction word. -/
def lengthOf (len4 : Bool) : Nat := if len4 then 4 else 2

/-- Pair `p` retires at `pc` with `v` in integer register `rd` (nothing written for x0); no other register and nothing but the pair
changes. -/
def RetiresWith (s t : State) (p pc rd : Nat) (v : DWord) : Prop :=
  Retired s t p pc ∧ (0 < rd → (t.pair p).x rd = v) ∧ (∀ r, r ≠ rd → (t.pair p).x r = (s.pair p).x r) ∧
  (t.pair p).x 0 = 0 ∧ (t.pair p).curBank.f = (s.pair p).curBank.f ∧ (t.pair p).curBank.fcsr = (s.pair p).curBank.fcsr ∧
  (∀ b, b ≠ (s.pair p).cur → (t.pair p).bank b = (s.pair p).bank b) ∧ PairsBut s t p ∧ t = { s with pairs := t.pairs }

/-- Pair `p` issues an instruction whose fetch ends well, in state `u`: what the reads of its caches corrected is reported there, and nothing
of the instruction itself has happened (R43, R44, R71). -/
def Fetched (s u : State) (p : Nat) (len4 : Bool) (r : PairReads) : Prop :=
  Issues s p ∧ r.errs = [] ∧ ((s.execBegin p).rvReads p r).rvFetch p (lengthOf len4) = .ok u 0

/-- `n` bytes at `a` lie in SRAM, below the HX private area, in one line that holds no uncorrectable error (R46, R122, R123, R152). -/
def PlainSram (s : State) (a n : Nat) : Prop :=
  0x10000000 ≤ a ∧ a + n ≤ 0x11F00000 ∧ 0 < n ∧ a / 64 = (a + n - 1) / 64 ∧ ∀ b, a ≤ b → b < a + n → s.poisoned b = false

/-- The pair's other state is unchanged but the reservations of the line stored to (R59). -/
def OthersBut (s t : State) (p a n : Nat) : Prop :=
  (∀ q, q ≠ p → t.pair q = s.pair q ∨ t.pair q = { s.pair q with resv := none }) ∧
  (∀ q l, q < 4 → q ≠ p → (s.pair q).resv = some l → a / 64 ≤ l → l * 64 < a + n → (t.pair q).resv = none) ∧
  t = { s with pairs := t.pairs, mem := t.mem }

end Sys2Proof.Claims

/-- An integer instruction of a pair writes rd (x0 discards the write), moves the pc past itself or to its target, and changes nothing
else; the arithmetic is that of RV64IM; single-bit errors of the caches that its reads meet are corrected and reported (R43, R44, log 12). -/
def Sys2Proof.Claims.PairIntegerInstructions : Prop :=
  ∀ (p : Fin 4) (len4 : Bool) (reads : PairReads) (rd rs1 rs2 : Fin 32) (imm : DWord) (s u : State), Fetched s u p len4 reads →
    let q := u.pair p
    let next := q.pc + lengthOf len4
    let a := q.x rs1
    let b := q.x rs2
    let gives (i : RvInsn) (v : DWord) : Prop :=
      ∃ t, exec (.pairInstruction p i ⟨len4, reads⟩) s = .next t ∧ RetiresWith u t p next rd v
    ((s.pair p).umode = false → u = { s with rcd := { s.rcd with reported := u.rcd.reported } } ∧
      u.rcd.reported.map (fun e => (e.code, e.words)) = s.rcd.reported.map (fun e => (e.code, e.words)) ++
        reads.cache.map fun c => (.CACHE_CORRECTED, [p.val, c.1.val, c.2].map (BitVec.ofNat 32))) ∧
    gives (.lui rd imm) imm ∧ gives (.auipc rd imm) (BitVec.ofNat 64 q.pc + imm) ∧
    (∃ t, exec (.pairInstruction p (.jal rd imm) ⟨len4, reads⟩) s = .next t ∧
      RetiresWith u t p (BitVec.ofNat 64 q.pc + imm).toNat rd (BitVec.ofNat 64 next)) ∧
    (∃ t, exec (.pairInstruction p (.jalr rd rs1 imm) ⟨len4, reads⟩) s = .next t ∧
      RetiresWith u t p ((a + imm).toNat / 2 * 2) rd (BitVec.ofNat 64 next)) ∧
    (∀ (c : BrCond) (taken : Bool), (taken = match c with
        | .eq => a == b | .ne => !(a == b) | .lt => a.slt b | .ge => !(a.slt b) | .ltu => a.ult b | .geu => !(a.ult b)) →
      ∃ t, exec (.pairInstruction p (.branch c rs1 rs2 imm) ⟨len4, reads⟩) s = .next t ∧
        RetiresWith u t p (if taken then (BitVec.ofNat 64 q.pc + imm).toNat else next) 0 0) ∧
    (∀ o, gives (.op o rd rs1 rs2) (aluOp o a b) ∧ gives (.opImm o rd rs1 imm) (aluOp o a imm) ∧
      gives (.opW o rd rs1 rs2) (aluOpW o a b) ∧ gives (.opImmW o rd rs1 imm) (aluOpW o a imm)) ∧
    gives (.op .sub rd rs1 rs2) (a - b) ∧ gives (.op .slt rd rs1 rs2) (if a.slt b then 1 else 0) ∧
    gives (.op .sltu rd rs1 rs2) (if a.ult b then 1 else 0) ∧
    (b = 0 → gives (.op .div rd rs1 rs2) (BitVec.allOnes 64) ∧ gives (.op .rem rd rs1 rs2) a) ∧
    (b = BitVec.allOnes 64 → a = BitVec.intMin 64 → gives (.op .div rd rs1 rs2) a ∧ gives (.op .rem rd rs1 rs2) 0) ∧
    gives (.opImmW .add rd rs1 imm) ((a + imm).setWidth 32 |>.signExtend 64) ∧
    (∃ t, exec (.pairInstruction p .fence ⟨len4, reads⟩) s = .next t ∧ RetiresWith u t p next 0 0) ∧
    (∃ t, exec (.pairInstruction p .fenceI ⟨len4, reads⟩) s = .next t ∧ RetiresWith u t p next 0 0)

/-- In machine mode a load from SRAM gives the bytes extended (of the HX private area a free value), and mhpmcounter3 counts a refill of the
data cache where there is one, which is a free value; a store to the machine region or
QSTORE writes them and ends the reservations of other pairs on the line, and one elsewhere in SRAM takes a store access fault; LR reserves the line, SC stores and gives 0 only while the reservation covers it, and ends it; an AMO gives the old
value and stores the new one (R46, R48, R59, R124). -/
def Obligations.PairMemoryInstructions : Prop :=
  ∀ (p : Fin 4) (len4 : Bool) (rd rs1 rs2 : Fin 32) (ofs : DWord) (s : State), (s.pair p).umode = false →
    Fetched s s p len4 ⟨[], []⟩ →
    let q := s.pair p
    let next := q.pc + lengthOf len4
    (∀ (wd : MemW) (u : Bool), PlainSram s (q.x rs1 + ofs).toNat (2 ^ memSize wd) →
      (∃ t, exec (.pairInstruction p (.load wd u rd rs1 ofs) ⟨len4, ⟨[], []⟩⟩) s = .next t ∧
        RetiresWith (s.refills p) t p next rd (BitVec.ofNat 64 (rackExt (memSize wd) u (s.rdLe (q.x rs1 + ofs).toNat (2 ^ memSize wd)))) ∧
        MemSame s t) ∧
      ((s.inMachSram (q.x rs1 + ofs).toNat = true ∨ inQstore (q.x rs1 + ofs).toNat = true) →
        ∃ t, exec (.pairInstruction p (.store wd rs2 rs1 ofs) ⟨len4, ⟨[], []⟩⟩) s = .next t ∧
        t.rdLe (q.x rs1 + ofs).toNat (2 ^ memSize wd) = (q.x rs2).toNat % 2 ^ (8 * 2 ^ memSize wd) ∧
        MemBut s t (q.x rs1 + ofs).toNat (2 ^ memSize wd) ∧ Retired s t p next ∧ SameRegisters s t p ∧
        OthersBut s t p (q.x rs1 + ofs).toNat (2 ^ memSize wd))) ∧
    (∀ (wd : MemW) (u : Bool) (a : Nat), a = (q.x rs1 + ofs).toNat → 0x10000000 ≤ a → a + 2 ^ memSize wd ≤ 0x12000000 →
      a / 64 = (a + 2 ^ memSize wd - 1) / 64 →
      (0x11F00000 ≤ a → (∀ b, s.poisoned b = false) → ∃ t v, exec (.pairInstruction p (.load wd u rd rs1 ofs) ⟨len4, ⟨[], []⟩⟩) s = .next t ∧
        RetiresWith (s.refills p).free t p next rd v ∧ t.freeCtr = s.freeCtr + 2) ∧
      (s.inMachSram a = false → inQstore a = false → q.mtvec ≠ 0 →
        ∃ t, exec (.pairInstruction p (.store wd rs2 rs1 ofs) ⟨len4, ⟨[], []⟩⟩) s = .next t ∧ TakesTrap s t p 7 a ∧ MemSame s t)) ∧
    (∀ (dbl : Bool) (w : Nat), w = (if dbl then 3 else 2) → PlainSram s (q.x rs1).toNat (2 ^ w) → (q.x rs1).toNat % 2 ^ w = 0 →
      (∃ t, exec (.pairInstruction p (.lr dbl rd rs1) ⟨len4, ⟨[], []⟩⟩) s = .next t ∧
        RetiresWith (s.refills p) t p next rd (BitVec.ofNat 64 (rackExt w false (s.rdLe (q.x rs1).toNat (2 ^ w)))) ∧
        (t.pair p).resv = some ((q.x rs1).toNat / 64)) ∧
      (q.resv ≠ some ((q.x rs1).toNat / 64) → ∃ t, exec (.pairInstruction p (.sc dbl rd rs1 rs2) ⟨len4, ⟨[], []⟩⟩) s = .next t ∧
        RetiresWith s t p next rd 1 ∧ (t.pair p).resv = none ∧ MemSame s t) ∧
      (s.inMachSram (q.x rs1).toNat = true → q.resv = some ((q.x rs1).toNat / 64) →
        ∃ t, exec (.pairInstruction p (.sc dbl rd rs1 rs2) ⟨len4, ⟨[], []⟩⟩) s = .next t ∧ (0 < rd.val → (t.pair p).x rd = 0) ∧
        (∀ r, r ≠ rd.val → (t.pair p).x r = q.x r) ∧ Retired s t p next ∧ (t.pair p).resv = none ∧
        t.rdLe (q.x rs1).toNat (2 ^ w) = (q.x rs2).toNat % 2 ^ (8 * 2 ^ w) ∧ MemBut s t (q.x rs1).toNat (2 ^ w) ∧
        OthersBut s t p (q.x rs1).toNat (2 ^ w)) ∧
      (∀ o, s.inMachSram (q.x rs1).toNat = true → ∃ t, exec (.pairInstruction p (.amo o dbl rd rs1 rs2) ⟨len4, ⟨[], []⟩⟩) s = .next t ∧
        (0 < rd.val → (t.pair p).x rd = BitVec.ofNat 64 (rackExt w false (s.rdLe (q.x rs1).toNat (2 ^ w)))) ∧
        (∀ r, r ≠ rd.val → (t.pair p).x r = q.x r) ∧ Retired s t p next ∧
        t.rdLe (q.x rs1).toNat (2 ^ w) =
          amoOp o (8 * 2 ^ w) (s.rdLe (q.x rs1).toNat (2 ^ w)) ((q.x rs2).toNat % 2 ^ (8 * 2 ^ w)) % 2 ^ (8 * 2 ^ w) ∧
        MemBut s t (q.x rs1).toNat (2 ^ w) ∧ OthersBut s t p (q.x rs1).toNat (2 ^ w)))

/-- An instruction that the pair cannot execute takes its exception: a fetch outside memory, a word that is no instruction, ECALL in
machine mode, a floating-point instruction with FS off, an access across a line, and a misaligned AMO, LR or SC; in the apertures of
engines and CAN controllers an access that is not aligned to its size takes an access fault (R46, R47, R50, R170, R361). -/
def Sys2Proof.Claims.PairInstructionTraps : Prop :=
  ∀ (p : Fin 4) (len4 : Bool) (s : State), Issues s p → (s.pair p).mtvec ≠ 0 → (s.pair p).umode = false →
    (∀ i, inMap (s.pair p).pc = false → ∃ t, exec (.pairInstruction p i ⟨len4, ⟨[], []⟩⟩) s = .next t ∧ TakesTrap s t p 1 (s.pair p).pc) ∧
    (Fetched s s p len4 ⟨[], []⟩ →
      let traps (i : RvInsn) (cause tval : Nat) : Prop := ∃ t, exec (.pairInstruction p i ⟨len4, ⟨[], []⟩⟩) s = .next t ∧ TakesTrap s t p cause tval
      (∀ w : Word, traps (.illegal w) 2 w.toNat) ∧ traps .ecall 11 0 ∧
      (∀ (n rm : Nat) (rd rs1 rs2 rs3 : Fin 32) (dbl : Bool) (ofs : DWord),
        ((s.pair p).curBank.fs = 0 → traps (.fload dbl rd rs1 ofs) 2 0 ∧ traps (.fstore dbl rs2 rs1 ofs) 2 0) ∧
        ((s.pair p).curBank.fs = 0 ∨ fpPlain n = false ∧ (s.pair p).rounding rm = none →
          traps (.fop n rm rd rs1 rs2 rs3) 2 0 ∧ traps (.fopX n rm rd rs1 rs2) 2 0 ∧ traps (.fopF n rm rd rs1) 2 0)) ∧
      (∀ (wd : MemW) (u : Bool) (rd rs1 rs2 : Fin 32) (ofs : DWord) (a : Nat), a = ((s.pair p).x rs1 + ofs).toNat →
        (inLe a = false → inCan a = false → a / 64 ≠ (a + 2 ^ memSize wd - 1) / 64 →
          traps (.load wd u rd rs1 ofs) 4 a ∧ traps (.store wd rs2 rs1 ofs) 6 a) ∧
        (inLe a = true ∨ inCan a = true → s.absentAt a = false → s.absentAt (a + 2 ^ memSize wd - 1) = false → a % 2 ^ memSize wd ≠ 0 →
          traps (.load wd u rd rs1 ofs) 5 a ∧ traps (.store wd rs2 rs1 ofs) 7 a)) ∧
      (∀ (dbl : Bool) (rd rs1 rs2 : Fin 32) (o : AmoOp) (a : Nat), a = ((s.pair p).x rs1).toNat →
        (inLe a = false → inCan a = false → a % (if dbl then 8 else 4) ≠ 0 →
          traps (.lr dbl rd rs1) 4 a ∧ traps (.sc dbl rd rs1 rs2) 6 a ∧ traps (.amo o dbl rd rs1 rs2) 6 a) ∧
        (inLe a = true ∨ inCan a = true → s.absentAt a = false →
          traps (.lr dbl rd rs1) 5 a ∧ traps (.sc dbl rd rs1 rs2) 7 a ∧ traps (.amo o dbl rd rs1 rs2) 7 a)))

/-- An F or D operation with FS on and a rounding mode writes its result, NaN-boxed in single precision, accrues its flags in fcsr and
retires; arithmetic is that of IEEE 754-2019: a representable number rounds to itself in every mode without a flag, an integer that the
format holds converts to it and back exactly, a NaN operand gives the canonical NaN with NV where it signals, infinities of unlike sign
add to it with NV, and a finite number divided by zero is an infinity with DZ (R47, log 12). -/
def Sys2Proof.Claims.PairFloatInstructions : Prop :=
  (∀ (p : Fin 4) (len4 : Bool) (reads : PairReads) (n rm m : Nat) (rd rs1 rs2 rs3 : Fin 32) (s u : State), Fetched s u p len4 reads →
    (u.pair p).curBank.fs ≠ 0 → (if fpPlain n then some rm else (u.pair p).rounding rm) = some m →
    let q := u.pair p
    let done (t : State) (fl : BitVec 5) : Prop := (t.pair p).curBank.fcsr = q.curBank.fcsr ||| fl.setWidth 32 ∧
      Retired u t p (q.pc + lengthOf len4) ∧ PairsBut u t p ∧ t = { u with pairs := t.pairs }
    let takesF (t : State) (v : DWord) : Prop := (t.pair p).fr rd = v ∧ (∀ k, k ≠ rd.val → (t.pair p).fr k = q.fr k) ∧
      (∀ k, (t.pair p).x k = q.x k) ∧ (t.pair p).curBank.fs = 3
    (∀ v fl, fpResult n m (q.fr rs1) (q.fr rs2) (q.fr rs3) = some (v, fl) →
      ∃ t, exec (.pairInstruction p (.fop n rm rd rs1 rs2 rs3) ⟨len4, reads⟩) s = .next t ∧ takesF t v ∧ done t fl) ∧
    (∀ v fl, fpFromX n m (q.x rs1) = some (v, fl) →
      ∃ t, exec (.pairInstruction p (.fopF n rm rd rs1) ⟨len4, reads⟩) s = .next t ∧ takesF t v ∧ done t fl) ∧
    (∀ v fl, fpToX n m (q.fr rs1) (q.fr rs2) = some (v, fl) →
      ∃ t, exec (.pairInstruction p (.fopX n rm rd rs1 rs2) ⟨len4, reads⟩) s = .next t ∧ done t fl ∧ (0 < rd.val → (t.pair p).x rd = v) ∧
        (∀ k, k ≠ rd.val → (t.pair p).x k = q.x k) ∧ ∀ k, (t.pair p).fr k = q.fr k)) ∧
  (∀ (dbl : Bool) (m b : Nat), m < 5 → ∀ f, f = fpFmt dbl →
    (∀ neg mag exp, b < 2 ^ f.width → f.val b = .fin neg mag exp → f.round m neg mag exp = (b, 0)) ∧
    (∀ (v lo hi : Int), v.natAbs < 2 ^ (f.m + 1) → lo ≤ v → v ≤ hi →
      (f.ofInt m v).2 = 0 ∧ fpToInt m lo hi (f.val (f.ofInt m v).1) = (v, 0)) ∧
    (∀ x y, (x.isNan || y.isNan) = true → f.add m x y = (f.nanBits, if x.isSnan || y.isSnan then fpNv else 0) ∧
      f.mul m x y = f.add m x y ∧ f.div m x y = f.add m x y) ∧
    (∀ neg, f.add m (.inf neg) (.inf !neg) = (f.nanBits, fpNv)) ∧
    (∀ na nb mag xa xb, mag ≠ 0 → f.div m (.fin na mag xa) (.fin nb 0 xb) = (f.infBits (na != nb), fpDz)))

/-- A CSR instruction gives the old value and writes the new one, plx_bankdat being the register of the bank in view that plx_bankidx
names; the counters 5 to 31 read 0; one that the mode may not access, that is read-only or that does not exist is an illegal instruction
(R45, R48, R54). -/
def Sys2Proof.Claims.PairCsrInstructions : Prop :=
  ∀ (p : Fin 4) (len4 : Bool) (reads : PairReads) (rd rs1 : Fin 32) (s u : State), Fetched s u p len4 reads →
    let q := u.pair p
    let next := q.pc + lengthOf len4
    (q.umode = false →
      (∃ t, exec (.pairInstruction p (.csr .rw rd rs1 0x340) ⟨len4, reads⟩) s = .next t ∧
        RetiresWith u t p next rd (BitVec.ofNat 64 q.mscratch) ∧ (t.pair p).mscratch = (q.x rs1).toNat) ∧
      (0 < rs1.val → ∃ t, exec (.pairInstruction p (.csr .rs rd rs1 0x340) ⟨len4, reads⟩) s = .next t ∧
        (t.pair p).mscratch = (BitVec.ofNat 64 q.mscratch ||| q.x rs1).toNat) ∧
      (∃ t, exec (.pairInstruction p (.csr .rw rd rs1 0x7C3) ⟨len4, reads⟩) s = .next t ∧ (t.pair p).bankIdx = (q.x rs1).toNat % 128 ∧
        ((q.x rs1).getLsbD 31 = true → (t.pair p).bankErr = false)) ∧
      (∃ t, exec (.pairInstruction p (.csr .rs rd 0 0x7C4) ⟨len4, reads⟩) s = .next t ∧
        RetiresWith u t p next rd ((q.bank q.view).reg q.bankIdx)) ∧
      (∃ t, exec (.pairInstruction p (.csr .rw rd rs1 0x305) ⟨len4, reads⟩) s = .next t ∧ (t.pair p).mtvec = (q.x rs1).toNat / 4 * 4) ∧
      (∃ t, exec (.pairInstruction p (.csr .rs rd 0 0xF14) ⟨len4, reads⟩) s = .next t ∧ RetiresWith u t p next rd (BitVec.ofNat 64 p) ∧
        t.pair p = (q.setX rd (BitVec.ofNat 64 p)).retireTo next) ∧
      (∀ c : BitVec 12, 0xB05 ≤ c.toNat → c.toNat < 0xB20 → ∃ t, exec (.pairInstruction p (.csr .rs rd 0 c) ⟨len4, reads⟩) s = .next t ∧
        RetiresWith u t p next rd 0) ∧
      (q.mtvec ≠ 0 → ∃ t, exec (.pairInstruction p (.csr .rw rd rs1 0xF14) ⟨len4, reads⟩) s = .next t ∧ TakesTrap u t p 2 0)) ∧
    (q.umode = true → q.mtvec ≠ 0 → ∀ (o : CsrOp) (c : BitVec 12), 0x300 ≤ c.toNat → c.toNat < 0x800 →
      ∃ t, exec (.pairInstruction p (.csr o rd rs1 c) ⟨len4, reads⟩) s = .next t ∧ TakesTrap u t p 2 0)

/-- A machine-mode store to a register without behaviour of its own: RW bits take the value, W1C bits are cleared where it is 1,
reserved and read-only bits stay; CFG bits take it in the Config state alone, and an attempt to change them elsewhere is recorded; no
other register changes; a store that no region of the map takes ends in an access fault, which is the model's reading (R13, R14, R15; log
6). -/
def Sys2Proof.Claims.RegisterWrites : Prop :=
  (∀ (p : Fin 4) (off : Nat) (v : Word) (r : RegRow) (s : State), s.executes p = true → (s.pair p).umode = false → off < 0x100000 →
    foreignBank p (0x40000000 + off) = false → inPort (0x40000000 + off) = false →
    off % 4 = 0 → s.offFitted off = true → regRow off = some r → (∀ x w m, State.regWrite x p off w m = x.plainWrite off w m) →
    s.sup.st ≠ .config →
    ∃ t, exec (.registerWrite p off v) s = .next t ∧ RegsBut s t [off] ∧
      (∀ b, b < 32 → (r.accMask .w1c).getLsbD b = false →
        (t.reg off).getLsbD b = if (r.accMask .rw).getLsbD b then v.getLsbD b else (s.reg off).getLsbD b) ∧
      (∀ b, b < 32 → (r.accMask .w1c).getLsbD b = true → (r.accMask .rw).getLsbD b = false →
        (t.reg off).getLsbD b = ((s.reg off).getLsbD b && !(v.getLsbD b))) ∧
      ((v ^^^ s.reg off) &&& cfgMask r ≠ 0 → ∃ e, t.rcd.reported = s.rcd.reported ++ [e] ∧ e.code = .CFG_WRITE_REFUSED) ∧
      ((v ^^^ s.reg off) &&& cfgMask r = 0 → t.rcd = s.rcd) ∧ t = { s with regs := t.regs, rcd := t.rcd }) ∧
  (∀ (p : Fin 4) (off : Nat) (v : Word) (r : RegRow) (s : State), s.executes p = true → (s.pair p).umode = false → off < 0x100000 →
    foreignBank p (0x40000000 + off) = false → inPort (0x40000000 + off) = false →
    off % 4 = 0 → s.offFitted off = true → regRow off = some r → (∀ x w m, State.regWrite x p off w m = x.plainWrite off w m) →
    s.sup.st = .config → ∃ (t : State) (w : Word), exec (.registerWrite p off v) s = .next t ∧ t.reg off = cfgStored off w ∧
      (∀ b, b < 32 → (r.accMask .w1c).getLsbD b = false →
        w.getLsbD b = if (r.accMask .rw).getLsbD b || (cfgMask r).getLsbD b then v.getLsbD b else (s.reg off).getLsbD b) ∧
      RegsBut s t [off] ∧ t = { s with regs := t.regs }) ∧
  (∀ (p : Fin 4) (off : Nat) (v : Word) (s : State), (s.executes p = false ∨ (s.pair p).umode = true) →
    exec (.registerWrite p off v) s = .next s) ∧
  (∀ (p : Fin 4) (off : Nat) (v : Word) (s : State), s.executes p = true → (s.pair p).umode = false → (s.pair p).mtvec ≠ 0 → off % 4 = 0 →
    inMap (0x40000000 + off) = false → ∃ t, exec (.registerWrite p off v) s = .next t ∧ TakesTrap s t p 7 (0x40000000 + off))

/-- An access in the window of an absent unit ends in an error response: the probe is recorded and the pair takes a load or store access
fault; an address of a fitted unit is no such access; one that no region of the map holds ends in the access fault alone, which is the
model's reading (R7, R8; log 6). -/
def Sys2Proof.Claims.AbsentUnits : Prop :=
  (∀ (p : Fin 4) (a : Nat) (store : Bool) (s : State), s.executes p = true → s.absentAt a = true →
    (s.pair p).mtvec ≠ 0 → ∃ u t : State, exec (.absentUnitAccess p a store) s = .next t ∧
      u = { s with rcd := { s.rcd with reported := u.rcd.reported } } ∧ Reports s u .ABSENT_PROBE 0x30 [a - 0x40000000] ∧
      TakesTrap u t p (if store then 7 else 5) a) ∧
  (∀ (p : Fin 4) (off : Nat) (v : Word) (s : State), off < 0x100000 → off % 4 = 0 → s.executes p = true → (s.pair p).umode = false →
    s.offFitted off = false → (s.pair p).mtvec ≠ 0 → ∃ u t : State, exec (.registerWrite p off v) s = .next t ∧
      u = { s with rcd := { s.rcd with reported := u.rcd.reported } } ∧ Reports s u .ABSENT_PROBE 0x30 [off] ∧
      TakesTrap u t p 7 (0x40000000 + off)) ∧
  (∀ (p : Fin 4) (a : Nat) (store : Bool) (s : State), inMap a = true → s.absentAt a = false →
    exec (.absentUnitAccess p a store) s = .next s) ∧
  (∀ (p : Fin 4) (a : Nat) (store : Bool) (s : State), inMap a = false → s.executes p = true → (s.pair p).mtvec ≠ 0 →
    ∃ t, exec (.absentUnitAccess p a store) s = .next t ∧ TakesTrap s t p (if store then 7 else 5) a)

/-! ### The identity registers (R2 to R5) -/

/-- SYS_CAP0 and SYS_CAP1 read the values of the variant in every state, through the register window too; a field bit reads 1 exactly when
its unit is fitted, and the units fitted and the DDR size are those of the variant (R2, R4, R5). -/
def Obligations.IdentityRegisters : Prop :=
  ∀ s : State,
    s.readReg 0x10 = (match s.ident.variant with | .tvm9410 => 0x000FFFFF | .tvm9310 => 0x00073FFF | .tvm9210 => 0x00010ED3) ∧
    s.readReg 0x14 = (match s.ident.variant with | .tvm9210 => 0x00022040 | _ => 0x00042040) ||| (if s.ident.coated then 1 else 0) ∧
    (∀ (p : Fin 4) (len4 u : Bool) (rd rs1 : Fin 32) (ofs : DWord) (off : Nat), off = 0x10 ∨ off = 0x14 →
      (s.pair p).umode = false → Fetched s s p len4 ⟨[], []⟩ → ((s.pair p).x rs1 + ofs).toNat = 0x40000000 + off →
      ∃ t, exec (.pairInstruction p (.load .w u rd rs1 ofs) ⟨len4, ⟨[], []⟩⟩) s = .next t ∧
        RetiresWith s t p ((s.pair p).pc + lengthOf len4) rd ((s.readReg off).setWidth 64)) ∧
    (∀ p, p < 4 → s.pairFitted p = (s.readReg 0x10).getLsbD p) ∧ (∀ e, e < 2 → s.engineFitted e = (s.readReg 0x10).getLsbD (4 + e)) ∧
    (∀ n, n < 6 → s.canFitted n = (s.readReg 0x10).getLsbD (10 + n)) ∧ s.chFitted 0 = (s.readReg 0x10).getLsbD 7 ∧
    s.chFitted 1 = (s.readReg 0x10).getLsbD 8 ∧ s.ethFitted 0 = (s.readReg 0x10).getLsbD 16 ∧ s.ethFitted 1 = (s.readReg 0x10).getLsbD 16 ∧
    s.ethFitted 2 = (s.readReg 0x10).getLsbD 17 ∧ s.ethFitted 3 = (s.readReg 0x10).getLsbD 17 ∧ s.lrbFitted = (s.readReg 0x10).getLsbD 18 ∧
    s.sioFitted = (s.readReg 0x10).getLsbD 19 ∧
    (∀ p, p < 4 → s.pairFitted p = (s.ident.variant != .tvm9210 || decide (p < 2))) ∧
    s.engineFitted 0 = true ∧ s.engineFitted 1 = (s.ident.variant != .tvm9210) ∧ s.lrbFitted = (s.ident.variant != .tvm9210) ∧
    s.sioFitted = (s.ident.variant == .tvm9410) ∧ s.ddrSize = (if s.ident.variant = .tvm9210 then 2 else 4) * 2 ^ 30

/-! ### The machine as a whole -/

/-- A step takes the command at the front of the queue and carries it out with the queue's rest; with no command waiting one microtick
passes, which is the model's choice (log 2). -/
def Obligations.StepRunsTheFrontCommand : Prop :=
  (∀ (c : Instr) (r : List Instr) (s : State), step { s with pending := c :: r } = exec c { s with pending := r }) ∧
  (∀ s : State, s.pending = [] → ∃ t, step s = .next t ∧ t.clk.t = s.clk.t + 1 ∧ t.pending = [])

/-- At reset the module is at step 1 of its first Dawn sequence with no configuration sealed, no image set, FRC not counting and nothing
commanded; the registers hold the reset values their chapters give, and each pair is in machine mode (R14, R48, R86, R87, R434, R493,
R530; the identity is the model's choice, log 11). -/
def Sys2Proof.Claims.ResetState : Prop :=
  State.reset.sup.st = .dawn ∧ State.reset.sealed = false ∧ State.reset.sup.activeSet = none ∧ State.reset.clk.frcOn = false ∧
  State.reset.pending = [] ∧ State.reset.get F.TVL_STAT_HELD = 0 ∧
  (∀ c ∈ [(0x2010C, 50000), (0x30008, 500), (0x30010, 0x0A3C3C01), (0x38018, 24), (0x50004, 0x03000003), (0x70004, 0x80100064),
      (0x70008, 1), (0x8000C, 0x4444), (0x80010, 0xD080), (0xA0058, 24), (0xA011C, 255), (0xB0004, 0xA00), (0xC000C, 0x006400C8),
      (0xC0010, 0x000A00C8), (0xF0008, 200), (0xF000C, 200), (0x40000, 0), (0x60004, 0), (0x90004, 0), (0xD0000, 0), (0xE0004, 0)],
    (State.reset.reg c.1).toNat = c.2) ∧
  (∀ n, n < 512 → State.reset.masked n = true ∧ State.reset.get (F.VDX_SRCCFG_PRIO n) = 0) ∧
  (∀ p, (State.reset.pair p).umode = false ∧ (State.reset.pair p).mtvec = 0 ∧ (State.reset.pair p).mcounteren = 0 ∧
    (State.reset.pair p).ven = false ∧ (State.reset.pair p).resv = none)

/-- The words of the worked program of chapter 6 decode to the instructions it names, and a reserved opcode, a disallowed space and a
misaligned word address decode to none (R175, R177, R178). -/
def Obligations.EngineWords : Prop :=
  ∀ e : Fin 2,
    decodeLe e 0x80000020 = some (.leLdw e ⟨0, 0x20⟩) ∧ decodeLe e 0xC700001E = some (.leLtw e ⟨3, 30⟩) ∧
    decodeLe e 0x1C000080 = some (.leAnd e ⟨0, 0x80⟩) ∧ decodeLe e 0x5F00000C = some (.leTon e ⟨3, 12⟩) ∧
    decodeLe e 0x38000082 = some (.leAndBr e ⟨0, 0x82⟩) ∧ decodeLe e 0x50000000 = some (.leClose e) ∧
    decodeLe e 0x0D000200 = some (.leSt e ⟨1, 0x200⟩) ∧ decodeLe e 0x56000100 = some (.leEp e ⟨2, 0x100⟩) ∧
    decodeLe e 0x830F4240 = some (.leLdw e ⟨3, 1000000⟩) ∧ decodeLe e 0x6E001000 = some (.leCtu e ⟨2, 0x1000⟩) ∧
    decodeLe e 0xFC000000 = some (.leEnd e) ∧
    decodeLe e 0x7C000000 = none ∧ decodeLe e 0x0C000200 = none ∧ decodeLe e 0x80000021 = none

/-- The engine decoder and encoder agree: every word of a well-formed engine instruction decodes to that instruction with every operand
field, and every word that decodes is the word of the instruction it gives (R175, R176, R177, R178). -/
def Obligations.EngineRoundTrip : Prop :=
  (∀ (i : Instr) (opc : Nat) (e : Fin 2) (f : LeForm) (o : Opnd), i.le = some (opc, e, f, o) → f.ok o = true →
    ∃ w, encodeLe i = some w ∧ decodeLe e w = some i ∧ w.toNat / 2 ^ 26 = opc ∧ w.toNat / 2 ^ 24 % 4 = o.sp.val ∧
      w.toNat % 2 ^ 24 = o.opnd.toNat) ∧
  (∀ (e : Fin 2) (w : Word) (i : Instr), decodeLe e w = some i → encodeLe i = some w ∧
    ∃ opc f o, i.le = some (opc, e, f, o) ∧ f.ok o = true)

/-- Memory and the register store are in canonical form at reset. -/
def Sys2Proof.Claims.ResetIsCanonical : Prop := State.reset.Canonical

/-- A step from a state whose memory and register store are in canonical form, and that answers a next state, leaves them so: equal
contents are equal data in every state that a run reaches (the model's own forms of memory and registers). -/
def Obligations.StepKeepsCanonicalForm : Prop :=
  ∀ s t : State, s.Canonical → step s = .next t → t.Canonical

/-- What no command takes back: the clock, the variant, and what has left the module, of which alone a Gheif frame that the guardian cuts
loses its end (R2, R277). -/
def Sys2Proof.Claims.Keeps (s t : State) : Prop :=
  s.clk.t ≤ t.clk.t ∧ t.ident.variant = s.ident.variant ∧
  s.out.map (fun e => (e.iface, e.unit, e.kind, e.tm)) <+: t.out.map (fun e => (e.iface, e.unit, e.kind, e.tm)) ∧
  ∀ (k : Nat) (e : Emit), s.out[k]? = some e → e.iface ≠ .gheif → t.out[k]? = some e

/-- Every command in every state ends in a next state; no command and no step turns the clock back, changes the variant, touches the
commands still waiting, or takes back anything that has left the module, but for the end of a Gheif frame that the guardian cuts (R2, R277,
R432). -/
def Obligations.StepKeepsTimeAndRecord : Prop :=
  (∀ (i : Instr) (s : State), ∃ t, exec i s = .next t ∧ Keeps s t ∧ t.pending = s.pending) ∧
  (∀ s : State, ∃ t, step s = .next t ∧ Keeps s t ∧ t.pending = s.pending.tail)

/-! ### Statements made of parts -/

/-- The bit instructions of the logic engines: LA, the operand bit, the scan shadow and their frame. -/
def Obligations.LeBitInstructions : Prop :=
  Sys2Proof.Claims.LeBitOperations ∧ Sys2Proof.Claims.LeBitStores

/-- Brackets, jumps, calls, END and traps of the logic engines. -/
def Obligations.LeControlFlow : Prop :=
  Sys2Proof.Claims.LeBrackets ∧ Sys2Proof.Claims.LeJumps ∧ Sys2Proof.Claims.LeEnd ∧ Sys2Proof.Claims.LeTrapEffects

/-- Edge, timer and counter instructions of the logic engines. -/
def Obligations.LeEdgesTimersAndCounters : Prop :=
  Sys2Proof.Claims.LeEdges ∧ Sys2Proof.Claims.LeTimers ∧ Sys2Proof.Claims.LeCounters

/-- Word arithmetic, logic, shifts and comparisons of the logic engines. -/
def Obligations.LeWordInstructions : Prop :=
  Sys2Proof.Claims.LeArithmetic ∧ Sys2Proof.Claims.LeWordOperations ∧ Sys2Proof.Claims.LeCompares

/-- COMMIT and RELEASE of a credit queue, by the writer's role. -/
def Obligations.QueueOperations : Prop :=
  Sys2Proof.Claims.QueueCommit ∧ Sys2Proof.Claims.QueueBoth ∧ Sys2Proof.Claims.QueueRelease

/-- Upkeep of the credit queues and the queue instructions of the logic engines. -/
def Obligations.QueueUpkeepAndEngineQueues : Prop :=
  Sys2Proof.Claims.QueueUpkeep ∧ Sys2Proof.Claims.LeQueues

/-- Exceptions of a pair, with and without a trap entry installed. -/
def Obligations.PairTraps : Prop :=
  Sys2Proof.Claims.PairExceptions ∧ Sys2Proof.Claims.PairTrapUnset

/-- Commit, entry and completion of a vector. -/
def Obligations.VectorDelivery : Prop :=
  Sys2Proof.Claims.PairVectorEntry ∧ Sys2Proof.Claims.VdxCommitAndComplete

/-- MRET, WFI, the fences and the debug halts of a pair. -/
def Obligations.PairReturnWaitFenceAndHalt : Prop :=
  Sys2Proof.Claims.PairReturnAndWait ∧ Sys2Proof.Claims.PairHalts ∧ Sys2Proof.Claims.PairFences

/-- The register banks, PLX_VBASE and the CSR instructions of a pair. -/
def Obligations.PairBanksAndCsrs : Prop :=
  Sys2Proof.Claims.PairBankAndVbase ∧ Sys2Proof.Claims.PairCsrInstructions

/-- The integer and floating-point instructions of a pair and the exceptions of its instructions. -/
def Obligations.PairInstructions : Prop :=
  Sys2Proof.Claims.PairIntegerInstructions ∧ Sys2Proof.Claims.PairFloatInstructions ∧ Sys2Proof.Claims.PairInstructionTraps

/-- Raising, sensing and selecting the sources of the vector dispatcher. -/
def Obligations.VdxSources : Prop :=
  Sys2Proof.Claims.VdxRaise ∧ Sys2Proof.Claims.VdxSource ∧ Sys2Proof.Claims.VdxSelection

/-- Comparator mismatches stop every pair and lead to the Dusk state; comparator self-tests. -/
def Obligations.Comparators : Prop :=
  Sys2Proof.Claims.ComparatorMismatch ∧ Sys2Proof.Claims.ComparatorTests

/-- The start of a window on an engine and on a pair. -/
def Obligations.WindowStarts : Prop :=
  Sys2Proof.Claims.WindowStartEngine ∧ Sys2Proof.Claims.WindowStartPair

/-- Budget ends, overruns and quantum ends. -/
def Obligations.BudgetEnds : Prop :=
  Sys2Proof.Claims.BudgetOver ∧ Sys2Proof.Claims.BudgetAndQuantumEnds

/-- Context preloads and deferred bank switches. -/
def Obligations.PreloadsAndSwitches : Prop :=
  Sys2Proof.Claims.Preloads ∧ Sys2Proof.Claims.DeferredSwitch

/-- DONE, YIELD, CYCLE_INFO and the register commands of the hardware executive. -/
def Obligations.ExecutiveCallsAndRegisters : Prop :=
  Sys2Proof.Claims.ExecutiveCalls ∧ Sys2Proof.Claims.ExecutiveRegisters

/-- The page operations of a partition. -/
def Obligations.PageOperations : Prop :=
  Sys2Proof.Claims.PageOperations ∧ Sys2Proof.Claims.PageOpCompletes

/-- Staging, page misses, scrubbing and memory errors. -/
def Obligations.Paging : Prop :=
  Sys2Proof.Claims.Staging ∧ Sys2Proof.Claims.PageMisses ∧ Sys2Proof.Claims.MemoryUpkeep

/-- Freeze and publication of a cycle group, with quality and substitution. -/
def Obligations.FreezeAndPublish : Prop :=
  Sys2Proof.Claims.FreezeAndPublish ∧ Sys2Proof.Claims.FreezeLatch

/-- Output close, output instant and presence counting. -/
def Obligations.OutputsAndPresence : Prop :=
  Sys2Proof.Claims.OutputSteps ∧ Sys2Proof.Claims.PresenceCounting

/-- Wake requests and the budget arbiter. -/
def Obligations.PowerArbitration : Prop :=
  Sys2Proof.Claims.WakeRequests ∧ Sys2Proof.Claims.Arbitration

/-- Clock and supervisor faults, power measurements and the Night domain. -/
def Obligations.FaultsAndPower : Prop :=
  Sys2Proof.Claims.ClockAndSupervisorFaults ∧ Sys2Proof.Claims.PowerMeasurements ∧ Sys2Proof.Claims.NightDomain

/-- Online change and retentive saves. -/
def Obligations.OnlineChangeAndSaves : Prop :=
  Sys2Proof.Claims.ChangeSteps ∧ Sys2Proof.Claims.SaveBursts

/-- Frames and links of the Tri-link. -/
def Obligations.TriLink : Prop :=
  Sys2Proof.Claims.TriLinkFrames ∧ Sys2Proof.Claims.TriLinks

/-- Input agreement, its classes and the vote. -/
def Obligations.AgreementAndVote : Prop :=
  Sys2Proof.Claims.Agreement ∧ Sys2Proof.Claims.AgreementClasses ∧ Sys2Proof.Claims.VoteTable

/-- Claims, ends and handover of the output-group leases. -/
def Obligations.Leases : Prop :=
  Sys2Proof.Claims.LeaseClaims ∧ Sys2Proof.Claims.LeaseEnds ∧ Sys2Proof.Claims.LeaseHandover

/-- Entry into the member set, proposals, reintegration and presence. -/
def Obligations.Membership : Prop :=
  Sys2Proof.Claims.RunEntry ∧ Sys2Proof.Claims.Proposals ∧ Sys2Proof.Claims.Reintegration ∧ Sys2Proof.Claims.PresenceFrames

/-- Reception and sending of Gheif frames. -/
def Obligations.GheifFrames : Prop :=
  Sys2Proof.Claims.GheifReception ∧ Sys2Proof.Claims.GheifSending

/-- Startup and clock correction of the Gheif controller, guardian and counters. -/
def Obligations.GheifTiming : Prop :=
  Sys2Proof.Claims.GheifStartup ∧ Sys2Proof.Claims.GheifTiming ∧ Sys2Proof.Claims.GuardianAndCounters

/-- Correction and duties of the timebase. -/
def Obligations.Timebase : Prop :=
  Sys2Proof.Claims.TimebaseCorrection ∧ Sys2Proof.Claims.TimebaseDuties

/-- Ethernet reception and sending. -/
def Obligations.Ethernet : Prop :=
  Sys2Proof.Claims.EthernetReception ∧ Sys2Proof.Claims.EthernetSending

/-- CAN FD reception and receive queues. -/
def Obligations.CanReceiving : Prop :=
  Sys2Proof.Claims.CanReception ∧ Sys2Proof.Claims.CanQueues

/-- CAN FD requests, transmission and errors. -/
def Obligations.CanSending : Prop :=
  Sys2Proof.Claims.CanRequests ∧ Sys2Proof.Claims.CanTransmission ∧ Sys2Proof.Claims.CanErrors

/-- Accesses and exclusive accesses of the legacy rack bus. -/
def Obligations.RackAccesses : Prop :=
  Sys2Proof.Claims.RackAccesses ∧ Sys2Proof.Claims.RackExclusives

/-- Arbitration and cycles of the legacy rack bus. -/
def Obligations.RackCycles : Prop :=
  Sys2Proof.Claims.RackArbitration ∧ Sys2Proof.Claims.RackCycles

/-- Inbound cycles, lists and lines of the legacy rack bus. -/
def Obligations.RackInboundAndLists : Prop :=
  Sys2Proof.Claims.RackInbound ∧ Sys2Proof.Claims.RackLists

/-- Local safety inputs, test pulses, output faults and the field supply. -/
def Obligations.LocalSafetyIo : Prop :=
  Sys2Proof.Claims.LocalInputs ∧ Sys2Proof.Claims.TestPulses ∧ Sys2Proof.Claims.OutputFaults ∧ Sys2Proof.Claims.FieldSupply

/-- The checks of a supervisor request and its replies. -/
def Obligations.RequestChecks : Prop :=
  Sys2Proof.Claims.RequestChecks ∧ Sys2Proof.Claims.SupervisorReplies

/-- State reports and the commands that change the module state. -/
def Obligations.StateCommands : Prop :=
  Sys2Proof.Claims.StateReports ∧ Sys2Proof.Claims.StateCommands

/-- Configuration and image-set commands. -/
def Obligations.ConfigurationAndImages : Prop :=
  Sys2Proof.Claims.ConfigurationCommands ∧ Sys2Proof.Claims.ImageSetCommands

/-- Forces and variables. -/
def Obligations.ForcesAndVariables : Prop :=
  Sys2Proof.Claims.ForceCommands ∧ Sys2Proof.Claims.VariableCommands

/-- The recorder: judging, the ring and its configuration. -/
def Obligations.Recorder : Prop :=
  Sys2Proof.Claims.RecorderJudging ∧ Sys2Proof.Claims.RecorderRing ∧ Sys2Proof.Claims.RecorderConfiguration

/-- Time, network, test, budget and Midnight commands. -/
def Obligations.OperatingCommands : Prop :=
  Sys2Proof.Claims.TimeCommands ∧ Sys2Proof.Claims.NetworkCommands ∧ Sys2Proof.Claims.TestAndBudgetCommands

/-- Service and debug commands. -/
def Obligations.ServiceCommands : Prop :=
  Sys2Proof.Claims.ServiceCommands ∧ Sys2Proof.Claims.DebugCommands

/-- Long operations, ports and sessions of the supervisor. -/
def Obligations.SupervisorPorts : Prop :=
  Sys2Proof.Claims.LongOperations ∧ Sys2Proof.Claims.SupervisorPorts

/-- RST_N, the Dawn sequence, supply failure and wakes from Midnight mode. -/
def Obligations.PowerUpAndDown : Prop :=
  Sys2Proof.Claims.ResetPin ∧ Sys2Proof.Claims.DawnSequence ∧ Sys2Proof.Claims.SupplyLoss ∧ Sys2Proof.Claims.MidnightWakes

/-- Register writes by access code, and accesses to absent units. -/
def Obligations.RegisterAccesses : Prop :=
  Sys2Proof.Claims.RegisterWrites ∧ Sys2Proof.Claims.AbsentUnits

/-- The state at reset, in canonical form. -/
def Obligations.ResetState : Prop :=
  Sys2Proof.Claims.ResetState ∧ Sys2Proof.Claims.ResetIsCanonical
end

