-- ==== Sys2Proof/Laws/Tbl.lean ====
section
/-!
SUPPORT. The laws of sparse tables: a read after a write, and that a write keeps the canonical form.
-/
namespace Sys2Proof.Machine

variable {α : Type}

@[simp] theorem tget_nil (d : Nat → α) (k : Nat) : tget d [] k = d k := rfl

theorem tget_terase_same (d : Nat → α) (t : Tbl α) (k : Nat) : tget d (terase t k) k = d k := by
  induction t with
  | nil => rfl
  | cons c t ih =>
    obtain ⟨a, v⟩ := c
    by_cases h : a = k <;> simp [terase, tget, h, ih]

theorem tget_terase_other (d : Nat → α) (t : Tbl α) (k j : Nat) (h : j ≠ k) :
    tget d (terase t k) j = tget d t j := by
  induction t with
  | nil => rfl
  | cons c t ih =>
    obtain ⟨a, v⟩ := c
    by_cases ha : a = k
    · subst ha; simp [terase, tget, ih, Ne.symm h]
    · simp [terase, tget, ha, ih]

theorem tget_tinsert_same (d : Nat → α) (t : Tbl α) (k : Nat) (v : α) (h : ∀ c ∈ t, c.1 ≠ k) :
    tget d (tinsert t k v) k = v := by
  induction t with
  | nil => simp [tinsert, tget]
  | cons c t ih =>
    obtain ⟨a, w⟩ := c
    have ha : a ≠ k := h (a, w) (by simp)
    by_cases hk : k < a
    · simp [tinsert, tget, hk]
    · simp [tinsert, tget, hk, ha, ih (fun c hc => h c (by simp [hc]))]

theorem tget_tinsert_other (d : Nat → α) (t : Tbl α) (k j : Nat) (v : α) (h : j ≠ k) :
    tget d (tinsert t k v) j = tget d t j := by
  induction t with
  | nil => simp [tinsert, tget, Ne.symm h]
  | cons c t ih =>
    obtain ⟨a, w⟩ := c
    by_cases hk : k < a
    · simp [tinsert, tget, hk, Ne.symm h]
    · simp [tinsert, tget, hk, ih]

theorem terase_not_mem (t : Tbl α) (k : Nat) : ∀ c ∈ terase t k, c.1 ≠ k := by
  induction t with
  | nil => simp [terase]
  | cons c t ih =>
    obtain ⟨a, v⟩ := c
    by_cases h : a = k
    · simpa [terase, h] using ih
    · intro c hc
      simp only [terase, h, if_false, List.mem_cons] at hc
      rcases hc with rfl | hc
      · exact h
      · exact ih c hc

/-- A read of the key just written gives the value written. -/
@[simp] theorem tget_tput_same [DecidableEq α] (d : Nat → α) (t : Tbl α) (k : Nat) (v : α) :
    tget d (tput d t k v) k = v := by
  unfold tput
  split
  · rename_i h; rw [tget_terase_same, h]
  · exact tget_tinsert_same d _ k v (terase_not_mem t k)

/-- A write leaves every other key as it was. -/
@[simp] theorem tget_tput_other [DecidableEq α] (d : Nat → α) (t : Tbl α) (k j : Nat) (v : α) (h : j ≠ k) :
    tget d (tput d t k v) j = tget d t j := by
  unfold tput
  split
  · exact tget_terase_other d t k j h
  · rw [tget_tinsert_other d _ k j v h, tget_terase_other d t k j h]

theorem tget_tput [DecidableEq α] (d : Nat → α) (t : Tbl α) (k j : Nat) (v : α) :
    tget d (tput d t k v) j = if j = k then v else tget d t j := by
  by_cases h : j = k
  · subst h; simp
  · simp [h]

theorem tsorted_weaken (t : Tbl α) (lo lo' : Nat) (h : lo' ≤ lo) (ht : tsorted (some lo) t = true) :
    tsorted (some lo') t = true := by
  cases t with
  | nil => rfl
  | cons c t =>
    obtain ⟨a, v⟩ := c
    simp only [tsorted, Bool.and_eq_true, decide_eq_true_eq] at ht ⊢
    exact ⟨by omega, ht.2⟩

theorem tsorted_none_of_some (t : Tbl α) (lo : Nat) (ht : tsorted (some lo) t = true) :
    tsorted none t = true := by
  cases t with
  | nil => rfl
  | cons c t => obtain ⟨a, v⟩ := c; simp only [tsorted, Bool.and_eq_true] at ht ⊢; exact ht.2

theorem tsorted_terase_some (t : Tbl α) (lo k : Nat) (ht : tsorted (some lo) t = true) :
    tsorted (some lo) (terase t k) = true := by
  induction t generalizing lo with
  | nil => rfl
  | cons c t ih =>
    obtain ⟨a, v⟩ := c
    simp only [tsorted, Bool.and_eq_true, decide_eq_true_eq] at ht
    by_cases h : a = k
    · simp only [terase, h, if_true]
      exact ih lo (tsorted_weaken t a lo (by omega) ht.2)
    · simp only [terase, h, if_false, tsorted, Bool.and_eq_true, decide_eq_true_eq]
      exact ⟨ht.1, ih a ht.2⟩

theorem tsorted_terase (t : Tbl α) (k : Nat) (ht : tsorted none t = true) :
    tsorted none (terase t k) = true := by
  cases t with
  | nil => rfl
  | cons c t =>
    obtain ⟨a, v⟩ := c
    simp only [tsorted] at ht
    by_cases h : a = k
    · simp only [terase, h, if_true]
      exact tsorted_none_of_some _ a (tsorted_terase_some t a k ht)
    · simp only [terase, h, if_false, tsorted]
      exact tsorted_terase_some t a k ht

theorem tsorted_tinsert_some (t : Tbl α) (lo k : Nat) (v : α) (hk : lo < k) (hne : ∀ c ∈ t, c.1 ≠ k)
    (ht : tsorted (some lo) t = true) : tsorted (some lo) (tinsert t k v) = true := by
  induction t generalizing lo with
  | nil => simp [tinsert, tsorted, hk]
  | cons c t ih =>
    obtain ⟨a, w⟩ := c
    simp only [tsorted, Bool.and_eq_true, decide_eq_true_eq] at ht
    have ha : a ≠ k := hne (a, w) (by simp)
    by_cases h : k < a
    · simp only [tinsert, h, if_true, tsorted, Bool.and_eq_true, decide_eq_true_eq]
      exact ⟨hk, trivial, ht.2⟩
    · simp only [tinsert, h, if_false, tsorted, Bool.and_eq_true, decide_eq_true_eq]
      exact ⟨ht.1, ih a (by omega) (fun c hc => hne c (by simp [hc])) ht.2⟩

theorem tsorted_tinsert (t : Tbl α) (k : Nat) (v : α) (hne : ∀ c ∈ t, c.1 ≠ k)
    (ht : tsorted none t = true) : tsorted none (tinsert t k v) = true := by
  cases t with
  | nil => rfl
  | cons c t =>
    obtain ⟨a, w⟩ := c
    simp only [tsorted] at ht
    have ha : a ≠ k := hne (a, w) (by simp)
    by_cases h : k < a
    · simp only [tinsert, h, if_true, tsorted, Bool.and_eq_true, decide_eq_true_eq]
      exact ⟨trivial, ht⟩
    · simp only [tinsert, h, if_false, tsorted]
      exact tsorted_tinsert_some t a k v (by omega) (fun c hc => hne c (by simp [hc])) ht

theorem tnodef_terase [DecidableEq α] (d : Nat → α) (t : Tbl α) (k : Nat) (ht : tnodef d t = true) :
    tnodef d (terase t k) = true := by
  induction t with
  | nil => rfl
  | cons c t ih =>
    obtain ⟨a, v⟩ := c
    simp only [tnodef, Bool.and_eq_true] at ht
    by_cases h : a = k
    · simp only [terase, h, if_true]; exact ih ht.2
    · simp only [terase, h, if_false, tnodef, Bool.and_eq_true]; exact ⟨ht.1, ih ht.2⟩

theorem tnodef_tinsert [DecidableEq α] (d : Nat → α) (t : Tbl α) (k : Nat) (v : α) (hv : v ≠ d k)
    (ht : tnodef d t = true) : tnodef d (tinsert t k v) = true := by
  induction t with
  | nil => simp [tinsert, tnodef, hv]
  | cons c t ih =>
    obtain ⟨a, w⟩ := c
    have ht' := ht
    simp only [tnodef, Bool.and_eq_true] at ht
    by_cases h : k < a
    · simp only [tinsert, h, if_true]
      simp only [tnodef, Bool.and_eq_true, decide_eq_true_eq] at ht' ⊢
      exact ⟨hv, ht'⟩
    · simp only [tinsert, h, if_false, tnodef, Bool.and_eq_true]; exact ⟨ht.1, ih ht.2⟩

/-- A write keeps the canonical form. -/
theorem twf_tput [DecidableEq α] (d : Nat → α) (t : Tbl α) (k : Nat) (v : α) (ht : twf d t = true) :
    twf d (tput d t k v) = true := by
  simp only [twf, Bool.and_eq_true] at ht ⊢
  unfold tput
  split
  · exact ⟨tsorted_terase t k ht.1, tnodef_terase d t k ht.2⟩
  · rename_i hv
    exact ⟨tsorted_tinsert _ k v (terase_not_mem t k) (tsorted_terase t k ht.1),
      tnodef_tinsert d _ k v hv (tnodef_terase d t k ht.2)⟩

theorem twf_tputs [DecidableEq α] (d : Nat → α) (t : Tbl α) (l : List (Nat × α)) (ht : twf d t = true) :
    twf d (tputs d t l) = true := by
  induction l generalizing t with
  | nil => exact ht
  | cons c l ih => obtain ⟨k, v⟩ := c; exact ih _ (twf_tput d t k v ht)

theorem twf_tputList [DecidableEq α] (d : Nat → α) (t : Tbl α) (k : Nat) (l : List α) (ht : twf d t = true) :
    twf d (tputList d t k l) = true := by
  induction l generalizing t k with
  | nil => exact ht
  | cons v l ih => exact ih _ _ (twf_tput d t k v ht)

theorem twf_nil [DecidableEq α] (d : Nat → α) : twf d ([] : Tbl α) = true := rfl

/-- A run of consecutive writes leaves every key outside the run as it was. -/
theorem tget_tputList_other [DecidableEq α] (d : Nat → α) (t : Tbl α) (k j : Nat) (l : List α)
    (h : j < k ∨ k + l.length ≤ j) : tget d (tputList d t k l) j = tget d t j := by
  induction l generalizing t k with
  | nil => rfl
  | cons v l ih =>
    simp only [List.length_cons] at h
    rw [tputList, ih _ (k + 1) (by omega), tget_tput_other _ _ _ _ _ (by omega)]

/-- The run just written reads back. -/
theorem tgetList_tputList [DecidableEq α] (d : Nat → α) (t : Tbl α) (k : Nat) (l : List α) :
    tgetList d (tputList d t k l) k l.length = l := by
  induction l generalizing t k with
  | nil => rfl
  | cons v l ih =>
    simp only [tputList, List.length_cons, tgetList, ih]
    rw [tget_tputList_other _ _ _ _ _ (by omega), tget_tput_same]

end Sys2Proof.Machine
end

