-- ==== Sys2Proof/Laws/Mem.lean ====
section
/-!
SUPPORT. Memory: a read after a write, what a write, a clearing and a copy leave as it was, and that every memory operation keeps the
canonical form.
-/
namespace Sys2Proof.Machine

/-! ### Tables filtered -/

theorem tsorted_filter_some {α : Type} (t : Tbl α) (p : Nat × α → Bool) (lo : Nat) (h : tsorted (some lo) t = true) :
    tsorted (some lo) (t.filter p) = true := by
  induction t generalizing lo with
  | nil => rfl
  | cons c t ih =>
    obtain ⟨a, v⟩ := c
    simp only [tsorted, Bool.and_eq_true, decide_eq_true_eq] at h
    by_cases hp : p (a, v)
    · simp only [List.filter_cons, hp, if_true, tsorted, Bool.and_eq_true, decide_eq_true_eq]
      exact ⟨h.1, ih a h.2⟩
    · simp only [List.filter_cons, hp, Bool.false_eq_true, if_false]
      exact ih lo (tsorted_weaken t a lo (by omega) h.2)

theorem tsorted_filter {α : Type} (t : Tbl α) (p : Nat × α → Bool) (h : tsorted none t = true) : tsorted none (t.filter p) = true := by
  cases t with
  | nil => rfl
  | cons c t =>
    obtain ⟨a, v⟩ := c
    simp only [tsorted] at h
    by_cases hp : p (a, v)
    · simp only [List.filter_cons, hp, if_true, tsorted]
      exact tsorted_filter_some t p a h
    · simp only [List.filter_cons, hp, Bool.false_eq_true, if_false]
      exact tsorted_none_of_some _ a (tsorted_filter_some t p a h)

theorem tnodef_filter {α : Type} [DecidableEq α] (d : Nat → α) (t : Tbl α) (p : Nat × α → Bool) (h : tnodef d t = true) :
    tnodef d (t.filter p) = true := by
  induction t with
  | nil => rfl
  | cons c t ih =>
    obtain ⟨a, v⟩ := c
    simp only [tnodef, Bool.and_eq_true] at h
    by_cases hp : p (a, v)
    · simp only [List.filter_cons, hp, if_true, tnodef, Bool.and_eq_true]
      exact ⟨h.1, ih h.2⟩
    · simp only [List.filter_cons, hp, Bool.false_eq_true, if_false]
      exact ih h.2

/-- Entries dropped from a table leave the canonical form. -/
theorem twf_filter {α : Type} [DecidableEq α] (d : Nat → α) (t : Tbl α) (p : Nat × α → Bool) (h : twf d t = true) :
    twf d (t.filter p) = true := by
  simp only [twf, Bool.and_eq_true] at h ⊢
  exact ⟨tsorted_filter t p h.1, tnodef_filter d t p h.2⟩

/-! ### Canonical form -/

/-- Clearing a range is dropping its entries. -/
theorem memClear_eq (m : Tbl Byte) (lo hi : Nat) : memClear m lo hi = m.filter fun c => !decide (lo ≤ c.1 ∧ c.1 < hi) := by
  induction m with
  | nil => rfl
  | cons c m ih =>
    obtain ⟨a, v⟩ := c
    by_cases h : lo ≤ a ∧ a < hi
    · simp only [memClear, h, and_self, if_true, ih, List.filter_cons, decide_true, Bool.not_true, Bool.false_eq_true, if_false]
    · simp only [memClear, h, if_false, ih, List.filter_cons, decide_false, Bool.not_false, if_true]

theorem memClear_wf (m : Tbl Byte) (lo hi : Nat) (h : Memory.wf m) : Memory.wf (memClear m lo hi) := by
  rw [memClear_eq]
  exact twf_filter _ _ _ h

theorem memCopy_wf (m : Tbl Byte) (dst src n : Nat) (h : Memory.wf m) : Memory.wf (memCopy m dst src n) :=
  twf_tputs _ _ _ (memClear_wf m _ _ h)

theorem memLoad_wf (m : Tbl Byte) (dst : Nat) (t : Tbl Byte) (ofs n : Nat) (h : Memory.wf m) : Memory.wf (memLoad m dst t ofs n) :=
  twf_tputs _ _ _ (memClear_wf m _ _ h)

theorem State.wr8_wf (s : State) (a : Nat) (v : Byte) (h : Memory.wf s.mem) : Memory.wf (s.wr8 a v).mem := twf_tput _ _ _ _ h

theorem State.wrBytes_wf (s : State) (a : Nat) (l : List Byte) (h : Memory.wf s.mem) : Memory.wf (s.wrBytes a l).mem :=
  twf_tputList _ _ _ _ h

theorem State.wrLe_wf (s : State) (a n v : Nat) (h : Memory.wf s.mem) : Memory.wf (s.wrLe a n v).mem := s.wrBytes_wf _ _ h

/-! ### A read after a write -/

theorem leBytes_length (n v : Nat) : (leBytes n v).length = n := by
  induction n generalizing v with
  | zero => rfl
  | succ n ih => simp [leBytes, ih]

/-- The number whose bytes were laid out, cut to their number. -/
theorem leNat_leBytes (n v : Nat) : leNat (leBytes n v) = v % 2 ^ (8 * n) := by
  induction n generalizing v with
  | zero => simp [leBytes, leNat, Nat.mod_one]
  | succ n ih =>
    simp only [leBytes, leNat, ih, BitVec.toNat_ofNat]
    have h : 2 ^ (8 * (n + 1)) = 256 * 2 ^ (8 * n) := by rw [Nat.mul_add, Nat.pow_add]; omega
    rw [h, Nat.mod_mul]

theorem State.rd8_wr8 (s : State) (a b : Nat) (v : Byte) : (s.wr8 a v).rd8 b = if b = a then v else s.rd8 b := tget_tput byteD s.mem a b v

/-- The bytes just stored read back. -/
theorem State.rdBytes_wrBytes (s : State) (a : Nat) (l : List Byte) : (s.wrBytes a l).rdBytes a l.length = l := tgetList_tputList byteD s.mem a l

/-- Every byte outside the stored ones reads as before. -/
theorem State.rd8_wrBytes_other (s : State) (a b : Nat) (l : List Byte) (h : b < a ∨ a + l.length ≤ b) : (s.wrBytes a l).rd8 b = s.rd8 b :=
  tget_tputList_other byteD s.mem a b l h

/-- The number just stored reads back, cut to its bytes. -/
theorem State.rdLe_wrLe (s : State) (a n v : Nat) : (s.wrLe a n v).rdLe a n = v % 2 ^ (8 * n) := by
  have h : (s.wrLe a n v).rdBytes a n = leBytes n v := by
    have := s.rdBytes_wrBytes a (leBytes n v)
    rwa [leBytes_length] at this
  rw [State.rdLe, h, leNat_leBytes]

theorem State.rd8_wrLe_other (s : State) (a b n v : Nat) (h : b < a ∨ a + n ≤ b) : (s.wrLe a n v).rd8 b = s.rd8 b :=
  s.rd8_wrBytes_other _ _ _ (by rwa [leBytes_length])

/-- Reads of a run of bytes agree where every byte of the run does. -/
theorem tgetList_congr {α : Type} (d : Nat → α) (t u : Tbl α) (a n : Nat) (h : ∀ b, a ≤ b → b < a + n → tget d u b = tget d t b) :
    tgetList d u a n = tgetList d t a n := by
  induction n generalizing a with
  | zero => rfl
  | succ n ih =>
    simp only [tgetList]
    rw [h a (by omega) (by omega), ih (a + 1) fun b h1 h2 => h b (by omega) (by omega)]

/-! ### Clearing and copying -/

theorem tget_memClear (m : Tbl Byte) (lo hi b : Nat) : tget byteD (memClear m lo hi) b = if lo ≤ b ∧ b < hi then 0 else tget byteD m b := by
  induction m with
  | nil => simp [memClear, tget, byteD]
  | cons c m ih =>
    obtain ⟨a, v⟩ := c
    by_cases h : lo ≤ a ∧ a < hi
    · simp only [memClear, h, and_self, if_true, ih, tget]
      by_cases hb : lo ≤ b ∧ b < hi
      · simp [hb]
      · have : a ≠ b := fun e => hb (e ▸ h)
        simp [hb, this]
    · simp only [memClear, h, if_false, tget, ih]
      by_cases hb : a = b
      · subst hb; simp [h]
      · simp [hb]

theorem tget_tputs_other {α : Type} [DecidableEq α] (d : Nat → α) (t : Tbl α) (l : List (Nat × α)) (j : Nat) (h : ∀ c ∈ l, c.1 ≠ j) :
    tget d (tputs d t l) j = tget d t j := by
  induction l generalizing t with
  | nil => rfl
  | cons c l ih =>
    obtain ⟨k, v⟩ := c
    rw [tputs, ih _ fun c hc => h c (by simp [hc]), tget_tput_other _ _ _ _ _ (Ne.symm (h (k, v) (by simp)))]

/-- A copy leaves every byte outside its destination as it was. -/
theorem memCopy_other (m : Tbl Byte) (dst src n b : Nat) (h : b < dst ∨ dst + n ≤ b) : tget byteD (memCopy m dst src n) b = tget byteD m b := by
  rw [memCopy, tget_tputs_other, tget_memClear, if_neg (by omega)]
  intro c hc
  simp only [List.mem_map, List.mem_filter, decide_eq_true_eq] at hc
  obtain ⟨x, ⟨_, hx⟩, rfl⟩ := hc
  simp only
  omega

theorem memLoad_other (m : Tbl Byte) (dst : Nat) (t : Tbl Byte) (ofs n b : Nat) (h : b < dst ∨ dst + n ≤ b) :
    tget byteD (memLoad m dst t ofs n) b = tget byteD m b := by
  rw [memLoad, tget_tputs_other, tget_memClear, if_neg (by omega)]
  intro c hc
  simp only [List.mem_map, List.mem_filter, decide_eq_true_eq] at hc
  obtain ⟨x, ⟨_, hx⟩, rfl⟩ := hc
  simp only
  omega

end Sys2Proof.Machine
end

