-- ==== Sys2Proof/Laws/State.lean ====
section
/-!
SUPPORT. One lemma per field of State per named update: which field an update changes and that it leaves the others as they are; and
what a register field reads after a register field was written.
-/
namespace Sys2Proof.Machine

@[simp] theorem State.setReg_ident (s : State) (o : Nat) (v : Word) : (s.setReg o v).ident = s.ident := rfl
@[simp] theorem State.setReg_clk (s : State) (o : Nat) (v : Word) : (s.setReg o v).clk = s.clk := rfl
@[simp] theorem State.setReg_mem (s : State) (o : Nat) (v : Word) : (s.setReg o v).mem = s.mem := rfl
@[simp] theorem State.setReg_poison (s : State) (o : Nat) (v : Word) : (s.setReg o v).poison = s.poison := rfl
@[simp] theorem State.setReg_pairs (s : State) (o : Nat) (v : Word) : (s.setReg o v).pairs = s.pairs := rfl
@[simp] theorem State.setReg_vdx (s : State) (o : Nat) (v : Word) : (s.setReg o v).vdx = s.vdx := rfl
@[simp] theorem State.setReg_hx (s : State) (o : Nat) (v : Word) : (s.setReg o v).hx = s.hx := rfl
@[simp] theorem State.setReg_hxm (s : State) (o : Nat) (v : Word) : (s.setReg o v).hxm = s.hxm := rfl
@[simp] theorem State.setReg_queues (s : State) (o : Nat) (v : Word) : (s.setReg o v).queues = s.queues := rfl
@[simp] theorem State.setReg_engines (s : State) (o : Nat) (v : Word) : (s.setReg o v).engines = s.engines := rfl
@[simp] theorem State.setReg_cyc (s : State) (o : Nat) (v : Word) : (s.setReg o v).cyc = s.cyc := rfl
@[simp] theorem State.setReg_cfg (s : State) (o : Nat) (v : Word) : (s.setReg o v).cfg = s.cfg := rfl
@[simp] theorem State.setReg_prog (s : State) (o : Nat) (v : Word) : (s.setReg o v).prog = s.prog := rfl
@[simp] theorem State.setReg_tvl (s : State) (o : Nat) (v : Word) : (s.setReg o v).tvl = s.tvl := rfl
@[simp] theorem State.setReg_gh (s : State) (o : Nat) (v : Word) : (s.setReg o v).gh = s.gh := rfl
@[simp] theorem State.setReg_tmb (s : State) (o : Nat) (v : Word) : (s.setReg o v).tmb = s.tmb := rfl
@[simp] theorem State.setReg_sup (s : State) (o : Nat) (v : Word) : (s.setReg o v).sup = s.sup := rfl
@[simp] theorem State.setReg_rcd (s : State) (o : Nat) (v : Word) : (s.setReg o v).rcd = s.rcd := rfl
@[simp] theorem State.setReg_pwr (s : State) (o : Nat) (v : Word) : (s.setReg o v).pwr = s.pwr := rfl
@[simp] theorem State.setReg_sio (s : State) (o : Nat) (v : Word) : (s.setReg o v).sio = s.sio := rfl
@[simp] theorem State.setReg_eth (s : State) (o : Nat) (v : Word) : (s.setReg o v).eth = s.eth := rfl
@[simp] theorem State.setReg_ixs (s : State) (o : Nat) (v : Word) : (s.setReg o v).ixs = s.ixs := rfl
@[simp] theorem State.setReg_can (s : State) (o : Nat) (v : Word) : (s.setReg o v).can = s.can := rfl
@[simp] theorem State.setReg_lrb (s : State) (o : Nat) (v : Word) : (s.setReg o v).lrb = s.lrb := rfl
@[simp] theorem State.setReg_out (s : State) (o : Nat) (v : Word) : (s.setReg o v).out = s.out := rfl
@[simp] theorem State.setReg_freeCtr (s : State) (o : Nat) (v : Word) : (s.setReg o v).freeCtr = s.freeCtr := rfl
@[simp] theorem State.setReg_pending (s : State) (o : Nat) (v : Word) : (s.setReg o v).pending = s.pending := rfl

@[simp] theorem State.set_ident (s : State) (f : Field) (v : Nat) : (s.set f v).ident = s.ident := rfl
@[simp] theorem State.set_clk (s : State) (f : Field) (v : Nat) : (s.set f v).clk = s.clk := rfl
@[simp] theorem State.set_mem (s : State) (f : Field) (v : Nat) : (s.set f v).mem = s.mem := rfl
@[simp] theorem State.set_poison (s : State) (f : Field) (v : Nat) : (s.set f v).poison = s.poison := rfl
@[simp] theorem State.set_pairs (s : State) (f : Field) (v : Nat) : (s.set f v).pairs = s.pairs := rfl
@[simp] theorem State.set_vdx (s : State) (f : Field) (v : Nat) : (s.set f v).vdx = s.vdx := rfl
@[simp] theorem State.set_hx (s : State) (f : Field) (v : Nat) : (s.set f v).hx = s.hx := rfl
@[simp] theorem State.set_hxm (s : State) (f : Field) (v : Nat) : (s.set f v).hxm = s.hxm := rfl
@[simp] theorem State.set_queues (s : State) (f : Field) (v : Nat) : (s.set f v).queues = s.queues := rfl
@[simp] theorem State.set_engines (s : State) (f : Field) (v : Nat) : (s.set f v).engines = s.engines := rfl
@[simp] theorem State.set_cyc (s : State) (f : Field) (v : Nat) : (s.set f v).cyc = s.cyc := rfl
@[simp] theorem State.set_cfg (s : State) (f : Field) (v : Nat) : (s.set f v).cfg = s.cfg := rfl
@[simp] theorem State.set_prog (s : State) (f : Field) (v : Nat) : (s.set f v).prog = s.prog := rfl
@[simp] theorem State.set_tvl (s : State) (f : Field) (v : Nat) : (s.set f v).tvl = s.tvl := rfl
@[simp] theorem State.set_gh (s : State) (f : Field) (v : Nat) : (s.set f v).gh = s.gh := rfl
@[simp] theorem State.set_tmb (s : State) (f : Field) (v : Nat) : (s.set f v).tmb = s.tmb := rfl
@[simp] theorem State.set_sup (s : State) (f : Field) (v : Nat) : (s.set f v).sup = s.sup := rfl
@[simp] theorem State.set_rcd (s : State) (f : Field) (v : Nat) : (s.set f v).rcd = s.rcd := rfl
@[simp] theorem State.set_pwr (s : State) (f : Field) (v : Nat) : (s.set f v).pwr = s.pwr := rfl
@[simp] theorem State.set_sio (s : State) (f : Field) (v : Nat) : (s.set f v).sio = s.sio := rfl
@[simp] theorem State.set_eth (s : State) (f : Field) (v : Nat) : (s.set f v).eth = s.eth := rfl
@[simp] theorem State.set_ixs (s : State) (f : Field) (v : Nat) : (s.set f v).ixs = s.ixs := rfl
@[simp] theorem State.set_can (s : State) (f : Field) (v : Nat) : (s.set f v).can = s.can := rfl
@[simp] theorem State.set_lrb (s : State) (f : Field) (v : Nat) : (s.set f v).lrb = s.lrb := rfl
@[simp] theorem State.set_out (s : State) (f : Field) (v : Nat) : (s.set f v).out = s.out := rfl
@[simp] theorem State.set_freeCtr (s : State) (f : Field) (v : Nat) : (s.set f v).freeCtr = s.freeCtr := rfl
@[simp] theorem State.set_pending (s : State) (f : Field) (v : Nat) : (s.set f v).pending = s.pending := rfl

@[simp] theorem State.incBy_ident (s : State) (f : Field) (k : Nat) : (s.incBy f k).ident = s.ident := rfl
@[simp] theorem State.incBy_clk (s : State) (f : Field) (k : Nat) : (s.incBy f k).clk = s.clk := rfl
@[simp] theorem State.incBy_mem (s : State) (f : Field) (k : Nat) : (s.incBy f k).mem = s.mem := rfl
@[simp] theorem State.incBy_poison (s : State) (f : Field) (k : Nat) : (s.incBy f k).poison = s.poison := rfl
@[simp] theorem State.incBy_pairs (s : State) (f : Field) (k : Nat) : (s.incBy f k).pairs = s.pairs := rfl
@[simp] theorem State.incBy_vdx (s : State) (f : Field) (k : Nat) : (s.incBy f k).vdx = s.vdx := rfl
@[simp] theorem State.incBy_hx (s : State) (f : Field) (k : Nat) : (s.incBy f k).hx = s.hx := rfl
@[simp] theorem State.incBy_hxm (s : State) (f : Field) (k : Nat) : (s.incBy f k).hxm = s.hxm := rfl
@[simp] theorem State.incBy_queues (s : State) (f : Field) (k : Nat) : (s.incBy f k).queues = s.queues := rfl
@[simp] theorem State.incBy_engines (s : State) (f : Field) (k : Nat) : (s.incBy f k).engines = s.engines := rfl
@[simp] theorem State.incBy_cyc (s : State) (f : Field) (k : Nat) : (s.incBy f k).cyc = s.cyc := rfl
@[simp] theorem State.incBy_cfg (s : State) (f : Field) (k : Nat) : (s.incBy f k).cfg = s.cfg := rfl
@[simp] theorem State.incBy_prog (s : State) (f : Field) (k : Nat) : (s.incBy f k).prog = s.prog := rfl
@[simp] theorem State.incBy_tvl (s : State) (f : Field) (k : Nat) : (s.incBy f k).tvl = s.tvl := rfl
@[simp] theorem State.incBy_gh (s : State) (f : Field) (k : Nat) : (s.incBy f k).gh = s.gh := rfl
@[simp] theorem State.incBy_tmb (s : State) (f : Field) (k : Nat) : (s.incBy f k).tmb = s.tmb := rfl
@[simp] theorem State.incBy_sup (s : State) (f : Field) (k : Nat) : (s.incBy f k).sup = s.sup := rfl
@[simp] theorem State.incBy_rcd (s : State) (f : Field) (k : Nat) : (s.incBy f k).rcd = s.rcd := rfl
@[simp] theorem State.incBy_pwr (s : State) (f : Field) (k : Nat) : (s.incBy f k).pwr = s.pwr := rfl
@[simp] theorem State.incBy_sio (s : State) (f : Field) (k : Nat) : (s.incBy f k).sio = s.sio := rfl
@[simp] theorem State.incBy_eth (s : State) (f : Field) (k : Nat) : (s.incBy f k).eth = s.eth := rfl
@[simp] theorem State.incBy_ixs (s : State) (f : Field) (k : Nat) : (s.incBy f k).ixs = s.ixs := rfl
@[simp] theorem State.incBy_can (s : State) (f : Field) (k : Nat) : (s.incBy f k).can = s.can := rfl
@[simp] theorem State.incBy_lrb (s : State) (f : Field) (k : Nat) : (s.incBy f k).lrb = s.lrb := rfl
@[simp] theorem State.incBy_out (s : State) (f : Field) (k : Nat) : (s.incBy f k).out = s.out := rfl
@[simp] theorem State.incBy_freeCtr (s : State) (f : Field) (k : Nat) : (s.incBy f k).freeCtr = s.freeCtr := rfl
@[simp] theorem State.incBy_pending (s : State) (f : Field) (k : Nat) : (s.incBy f k).pending = s.pending := rfl

@[simp] theorem State.inc_ident (s : State) (f : Field) : (s.inc f).ident = s.ident := rfl
@[simp] theorem State.inc_clk (s : State) (f : Field) : (s.inc f).clk = s.clk := rfl
@[simp] theorem State.inc_mem (s : State) (f : Field) : (s.inc f).mem = s.mem := rfl
@[simp] theorem State.inc_poison (s : State) (f : Field) : (s.inc f).poison = s.poison := rfl
@[simp] theorem State.inc_pairs (s : State) (f : Field) : (s.inc f).pairs = s.pairs := rfl
@[simp] theorem State.inc_vdx (s : State) (f : Field) : (s.inc f).vdx = s.vdx := rfl
@[simp] theorem State.inc_hx (s : State) (f : Field) : (s.inc f).hx = s.hx := rfl
@[simp] theorem State.inc_hxm (s : State) (f : Field) : (s.inc f).hxm = s.hxm := rfl
@[simp] theorem State.inc_queues (s : State) (f : Field) : (s.inc f).queues = s.queues := rfl
@[simp] theorem State.inc_engines (s : State) (f : Field) : (s.inc f).engines = s.engines := rfl
@[simp] theorem State.inc_cyc (s : State) (f : Field) : (s.inc f).cyc = s.cyc := rfl
@[simp] theorem State.inc_cfg (s : State) (f : Field) : (s.inc f).cfg = s.cfg := rfl
@[simp] theorem State.inc_prog (s : State) (f : Field) : (s.inc f).prog = s.prog := rfl
@[simp] theorem State.inc_tvl (s : State) (f : Field) : (s.inc f).tvl = s.tvl := rfl
@[simp] theorem State.inc_gh (s : State) (f : Field) : (s.inc f).gh = s.gh := rfl
@[simp] theorem State.inc_tmb (s : State) (f : Field) : (s.inc f).tmb = s.tmb := rfl
@[simp] theorem State.inc_sup (s : State) (f : Field) : (s.inc f).sup = s.sup := rfl
@[simp] theorem State.inc_rcd (s : State) (f : Field) : (s.inc f).rcd = s.rcd := rfl
@[simp] theorem State.inc_pwr (s : State) (f : Field) : (s.inc f).pwr = s.pwr := rfl
@[simp] theorem State.inc_sio (s : State) (f : Field) : (s.inc f).sio = s.sio := rfl
@[simp] theorem State.inc_eth (s : State) (f : Field) : (s.inc f).eth = s.eth := rfl
@[simp] theorem State.inc_ixs (s : State) (f : Field) : (s.inc f).ixs = s.ixs := rfl
@[simp] theorem State.inc_can (s : State) (f : Field) : (s.inc f).can = s.can := rfl
@[simp] theorem State.inc_lrb (s : State) (f : Field) : (s.inc f).lrb = s.lrb := rfl
@[simp] theorem State.inc_out (s : State) (f : Field) : (s.inc f).out = s.out := rfl
@[simp] theorem State.inc_freeCtr (s : State) (f : Field) : (s.inc f).freeCtr = s.freeCtr := rfl
@[simp] theorem State.inc_pending (s : State) (f : Field) : (s.inc f).pending = s.pending := rfl

@[simp] theorem State.setStamp_ident (s : State) (n st : Nat) : (s.setStamp n st).ident = s.ident := rfl
@[simp] theorem State.setStamp_clk (s : State) (n st : Nat) : (s.setStamp n st).clk = s.clk := rfl
@[simp] theorem State.setStamp_mem (s : State) (n st : Nat) : (s.setStamp n st).mem = s.mem := rfl
@[simp] theorem State.setStamp_poison (s : State) (n st : Nat) : (s.setStamp n st).poison = s.poison := rfl
@[simp] theorem State.setStamp_pairs (s : State) (n st : Nat) : (s.setStamp n st).pairs = s.pairs := rfl
@[simp] theorem State.setStamp_vdx (s : State) (n st : Nat) : (s.setStamp n st).vdx = s.vdx := rfl
@[simp] theorem State.setStamp_hx (s : State) (n st : Nat) : (s.setStamp n st).hx = s.hx := rfl
@[simp] theorem State.setStamp_hxm (s : State) (n st : Nat) : (s.setStamp n st).hxm = s.hxm := rfl
@[simp] theorem State.setStamp_queues (s : State) (n st : Nat) : (s.setStamp n st).queues = s.queues := rfl
@[simp] theorem State.setStamp_engines (s : State) (n st : Nat) : (s.setStamp n st).engines = s.engines := rfl
@[simp] theorem State.setStamp_cyc (s : State) (n st : Nat) : (s.setStamp n st).cyc = s.cyc := rfl
@[simp] theorem State.setStamp_cfg (s : State) (n st : Nat) : (s.setStamp n st).cfg = s.cfg := rfl
@[simp] theorem State.setStamp_prog (s : State) (n st : Nat) : (s.setStamp n st).prog = s.prog := rfl
@[simp] theorem State.setStamp_tvl (s : State) (n st : Nat) : (s.setStamp n st).tvl = s.tvl := rfl
@[simp] theorem State.setStamp_gh (s : State) (n st : Nat) : (s.setStamp n st).gh = s.gh := rfl
@[simp] theorem State.setStamp_tmb (s : State) (n st : Nat) : (s.setStamp n st).tmb = s.tmb := rfl
@[simp] theorem State.setStamp_sup (s : State) (n st : Nat) : (s.setStamp n st).sup = s.sup := rfl
@[simp] theorem State.setStamp_rcd (s : State) (n st : Nat) : (s.setStamp n st).rcd = s.rcd := rfl
@[simp] theorem State.setStamp_pwr (s : State) (n st : Nat) : (s.setStamp n st).pwr = s.pwr := rfl
@[simp] theorem State.setStamp_sio (s : State) (n st : Nat) : (s.setStamp n st).sio = s.sio := rfl
@[simp] theorem State.setStamp_eth (s : State) (n st : Nat) : (s.setStamp n st).eth = s.eth := rfl
@[simp] theorem State.setStamp_ixs (s : State) (n st : Nat) : (s.setStamp n st).ixs = s.ixs := rfl
@[simp] theorem State.setStamp_can (s : State) (n st : Nat) : (s.setStamp n st).can = s.can := rfl
@[simp] theorem State.setStamp_lrb (s : State) (n st : Nat) : (s.setStamp n st).lrb = s.lrb := rfl
@[simp] theorem State.setStamp_out (s : State) (n st : Nat) : (s.setStamp n st).out = s.out := rfl
@[simp] theorem State.setStamp_freeCtr (s : State) (n st : Nat) : (s.setStamp n st).freeCtr = s.freeCtr := rfl
@[simp] theorem State.setStamp_pending (s : State) (n st : Nat) : (s.setStamp n st).pending = s.pending := rfl

@[simp] theorem State.wr8_ident (s : State) (a : Nat) (v : Byte) : (s.wr8 a v).ident = s.ident := rfl
@[simp] theorem State.wr8_clk (s : State) (a : Nat) (v : Byte) : (s.wr8 a v).clk = s.clk := rfl
@[simp] theorem State.wr8_regs (s : State) (a : Nat) (v : Byte) : (s.wr8 a v).regs = s.regs := rfl
@[simp] theorem State.wr8_poison (s : State) (a : Nat) (v : Byte) : (s.wr8 a v).poison = s.poison := rfl
@[simp] theorem State.wr8_pairs (s : State) (a : Nat) (v : Byte) : (s.wr8 a v).pairs = s.pairs := rfl
@[simp] theorem State.wr8_vdx (s : State) (a : Nat) (v : Byte) : (s.wr8 a v).vdx = s.vdx := rfl
@[simp] theorem State.wr8_hx (s : State) (a : Nat) (v : Byte) : (s.wr8 a v).hx = s.hx := rfl
@[simp] theorem State.wr8_hxm (s : State) (a : Nat) (v : Byte) : (s.wr8 a v).hxm = s.hxm := rfl
@[simp] theorem State.wr8_queues (s : State) (a : Nat) (v : Byte) : (s.wr8 a v).queues = s.queues := rfl
@[simp] theorem State.wr8_engines (s : State) (a : Nat) (v : Byte) : (s.wr8 a v).engines = s.engines := rfl
@[simp] theorem State.wr8_cyc (s : State) (a : Nat) (v : Byte) : (s.wr8 a v).cyc = s.cyc := rfl
@[simp] theorem State.wr8_cfg (s : State) (a : Nat) (v : Byte) : (s.wr8 a v).cfg = s.cfg := rfl
@[simp] theorem State.wr8_prog (s : State) (a : Nat) (v : Byte) : (s.wr8 a v).prog = s.prog := rfl
@[simp] theorem State.wr8_tvl (s : State) (a : Nat) (v : Byte) : (s.wr8 a v).tvl = s.tvl := rfl
@[simp] theorem State.wr8_gh (s : State) (a : Nat) (v : Byte) : (s.wr8 a v).gh = s.gh := rfl
@[simp] theorem State.wr8_tmb (s : State) (a : Nat) (v : Byte) : (s.wr8 a v).tmb = s.tmb := rfl
@[simp] theorem State.wr8_sup (s : State) (a : Nat) (v : Byte) : (s.wr8 a v).sup = s.sup := rfl
@[simp] theorem State.wr8_rcd (s : State) (a : Nat) (v : Byte) : (s.wr8 a v).rcd = s.rcd := rfl
@[simp] theorem State.wr8_pwr (s : State) (a : Nat) (v : Byte) : (s.wr8 a v).pwr = s.pwr := rfl
@[simp] theorem State.wr8_sio (s : State) (a : Nat) (v : Byte) : (s.wr8 a v).sio = s.sio := rfl
@[simp] theorem State.wr8_eth (s : State) (a : Nat) (v : Byte) : (s.wr8 a v).eth = s.eth := rfl
@[simp] theorem State.wr8_ixs (s : State) (a : Nat) (v : Byte) : (s.wr8 a v).ixs = s.ixs := rfl
@[simp] theorem State.wr8_can (s : State) (a : Nat) (v : Byte) : (s.wr8 a v).can = s.can := rfl
@[simp] theorem State.wr8_lrb (s : State) (a : Nat) (v : Byte) : (s.wr8 a v).lrb = s.lrb := rfl
@[simp] theorem State.wr8_out (s : State) (a : Nat) (v : Byte) : (s.wr8 a v).out = s.out := rfl
@[simp] theorem State.wr8_freeCtr (s : State) (a : Nat) (v : Byte) : (s.wr8 a v).freeCtr = s.freeCtr := rfl
@[simp] theorem State.wr8_pending (s : State) (a : Nat) (v : Byte) : (s.wr8 a v).pending = s.pending := rfl

@[simp] theorem State.wrBytes_ident (s : State) (a : Nat) (l : List Byte) : (s.wrBytes a l).ident = s.ident := rfl
@[simp] theorem State.wrBytes_clk (s : State) (a : Nat) (l : List Byte) : (s.wrBytes a l).clk = s.clk := rfl
@[simp] theorem State.wrBytes_regs (s : State) (a : Nat) (l : List Byte) : (s.wrBytes a l).regs = s.regs := rfl
@[simp] theorem State.wrBytes_poison (s : State) (a : Nat) (l : List Byte) : (s.wrBytes a l).poison = s.poison := rfl
@[simp] theorem State.wrBytes_pairs (s : State) (a : Nat) (l : List Byte) : (s.wrBytes a l).pairs = s.pairs := rfl
@[simp] theorem State.wrBytes_vdx (s : State) (a : Nat) (l : List Byte) : (s.wrBytes a l).vdx = s.vdx := rfl
@[simp] theorem State.wrBytes_hx (s : State) (a : Nat) (l : List Byte) : (s.wrBytes a l).hx = s.hx := rfl
@[simp] theorem State.wrBytes_hxm (s : State) (a : Nat) (l : List Byte) : (s.wrBytes a l).hxm = s.hxm := rfl
@[simp] theorem State.wrBytes_queues (s : State) (a : Nat) (l : List Byte) : (s.wrBytes a l).queues = s.queues := rfl
@[simp] theorem State.wrBytes_engines (s : State) (a : Nat) (l : List Byte) : (s.wrBytes a l).engines = s.engines := rfl
@[simp] theorem State.wrBytes_cyc (s : State) (a : Nat) (l : List Byte) : (s.wrBytes a l).cyc = s.cyc := rfl
@[simp] theorem State.wrBytes_cfg (s : State) (a : Nat) (l : List Byte) : (s.wrBytes a l).cfg = s.cfg := rfl
@[simp] theorem State.wrBytes_prog (s : State) (a : Nat) (l : List Byte) : (s.wrBytes a l).prog = s.prog := rfl
@[simp] theorem State.wrBytes_tvl (s : State) (a : Nat) (l : List Byte) : (s.wrBytes a l).tvl = s.tvl := rfl
@[simp] theorem State.wrBytes_gh (s : State) (a : Nat) (l : List Byte) : (s.wrBytes a l).gh = s.gh := rfl
@[simp] theorem State.wrBytes_tmb (s : State) (a : Nat) (l : List Byte) : (s.wrBytes a l).tmb = s.tmb := rfl
@[simp] theorem State.wrBytes_sup (s : State) (a : Nat) (l : List Byte) : (s.wrBytes a l).sup = s.sup := rfl
@[simp] theorem State.wrBytes_rcd (s : State) (a : Nat) (l : List Byte) : (s.wrBytes a l).rcd = s.rcd := rfl
@[simp] theorem State.wrBytes_pwr (s : State) (a : Nat) (l : List Byte) : (s.wrBytes a l).pwr = s.pwr := rfl
@[simp] theorem State.wrBytes_sio (s : State) (a : Nat) (l : List Byte) : (s.wrBytes a l).sio = s.sio := rfl
@[simp] theorem State.wrBytes_eth (s : State) (a : Nat) (l : List Byte) : (s.wrBytes a l).eth = s.eth := rfl
@[simp] theorem State.wrBytes_ixs (s : State) (a : Nat) (l : List Byte) : (s.wrBytes a l).ixs = s.ixs := rfl
@[simp] theorem State.wrBytes_can (s : State) (a : Nat) (l : List Byte) : (s.wrBytes a l).can = s.can := rfl
@[simp] theorem State.wrBytes_lrb (s : State) (a : Nat) (l : List Byte) : (s.wrBytes a l).lrb = s.lrb := rfl
@[simp] theorem State.wrBytes_out (s : State) (a : Nat) (l : List Byte) : (s.wrBytes a l).out = s.out := rfl
@[simp] theorem State.wrBytes_freeCtr (s : State) (a : Nat) (l : List Byte) : (s.wrBytes a l).freeCtr = s.freeCtr := rfl
@[simp] theorem State.wrBytes_pending (s : State) (a : Nat) (l : List Byte) : (s.wrBytes a l).pending = s.pending := rfl

@[simp] theorem State.wrLe_ident (s : State) (a n v : Nat) : (s.wrLe a n v).ident = s.ident := rfl
@[simp] theorem State.wrLe_clk (s : State) (a n v : Nat) : (s.wrLe a n v).clk = s.clk := rfl
@[simp] theorem State.wrLe_regs (s : State) (a n v : Nat) : (s.wrLe a n v).regs = s.regs := rfl
@[simp] theorem State.wrLe_poison (s : State) (a n v : Nat) : (s.wrLe a n v).poison = s.poison := rfl
@[simp] theorem State.wrLe_pairs (s : State) (a n v : Nat) : (s.wrLe a n v).pairs = s.pairs := rfl
@[simp] theorem State.wrLe_vdx (s : State) (a n v : Nat) : (s.wrLe a n v).vdx = s.vdx := rfl
@[simp] theorem State.wrLe_hx (s : State) (a n v : Nat) : (s.wrLe a n v).hx = s.hx := rfl
@[simp] theorem State.wrLe_hxm (s : State) (a n v : Nat) : (s.wrLe a n v).hxm = s.hxm := rfl
@[simp] theorem State.wrLe_queues (s : State) (a n v : Nat) : (s.wrLe a n v).queues = s.queues := rfl
@[simp] theorem State.wrLe_engines (s : State) (a n v : Nat) : (s.wrLe a n v).engines = s.engines := rfl
@[simp] theorem State.wrLe_cyc (s : State) (a n v : Nat) : (s.wrLe a n v).cyc = s.cyc := rfl
@[simp] theorem State.wrLe_cfg (s : State) (a n v : Nat) : (s.wrLe a n v).cfg = s.cfg := rfl
@[simp] theorem State.wrLe_prog (s : State) (a n v : Nat) : (s.wrLe a n v).prog = s.prog := rfl
@[simp] theorem State.wrLe_tvl (s : State) (a n v : Nat) : (s.wrLe a n v).tvl = s.tvl := rfl
@[simp] theorem State.wrLe_gh (s : State) (a n v : Nat) : (s.wrLe a n v).gh = s.gh := rfl
@[simp] theorem State.wrLe_tmb (s : State) (a n v : Nat) : (s.wrLe a n v).tmb = s.tmb := rfl
@[simp] theorem State.wrLe_sup (s : State) (a n v : Nat) : (s.wrLe a n v).sup = s.sup := rfl
@[simp] theorem State.wrLe_rcd (s : State) (a n v : Nat) : (s.wrLe a n v).rcd = s.rcd := rfl
@[simp] theorem State.wrLe_pwr (s : State) (a n v : Nat) : (s.wrLe a n v).pwr = s.pwr := rfl
@[simp] theorem State.wrLe_sio (s : State) (a n v : Nat) : (s.wrLe a n v).sio = s.sio := rfl
@[simp] theorem State.wrLe_eth (s : State) (a n v : Nat) : (s.wrLe a n v).eth = s.eth := rfl
@[simp] theorem State.wrLe_ixs (s : State) (a n v : Nat) : (s.wrLe a n v).ixs = s.ixs := rfl
@[simp] theorem State.wrLe_can (s : State) (a n v : Nat) : (s.wrLe a n v).can = s.can := rfl
@[simp] theorem State.wrLe_lrb (s : State) (a n v : Nat) : (s.wrLe a n v).lrb = s.lrb := rfl
@[simp] theorem State.wrLe_out (s : State) (a n v : Nat) : (s.wrLe a n v).out = s.out := rfl
@[simp] theorem State.wrLe_freeCtr (s : State) (a n v : Nat) : (s.wrLe a n v).freeCtr = s.freeCtr := rfl
@[simp] theorem State.wrLe_pending (s : State) (a n v : Nat) : (s.wrLe a n v).pending = s.pending := rfl

@[simp] theorem State.unpoison_ident (s : State) (a n : Nat) : (s.unpoison a n).ident = s.ident := rfl
@[simp] theorem State.unpoison_clk (s : State) (a n : Nat) : (s.unpoison a n).clk = s.clk := rfl
@[simp] theorem State.unpoison_regs (s : State) (a n : Nat) : (s.unpoison a n).regs = s.regs := rfl
@[simp] theorem State.unpoison_mem (s : State) (a n : Nat) : (s.unpoison a n).mem = s.mem := rfl
@[simp] theorem State.unpoison_pairs (s : State) (a n : Nat) : (s.unpoison a n).pairs = s.pairs := rfl
@[simp] theorem State.unpoison_vdx (s : State) (a n : Nat) : (s.unpoison a n).vdx = s.vdx := rfl
@[simp] theorem State.unpoison_hx (s : State) (a n : Nat) : (s.unpoison a n).hx = s.hx := rfl
@[simp] theorem State.unpoison_hxm (s : State) (a n : Nat) : (s.unpoison a n).hxm = s.hxm := rfl
@[simp] theorem State.unpoison_queues (s : State) (a n : Nat) : (s.unpoison a n).queues = s.queues := rfl
@[simp] theorem State.unpoison_engines (s : State) (a n : Nat) : (s.unpoison a n).engines = s.engines := rfl
@[simp] theorem State.unpoison_cyc (s : State) (a n : Nat) : (s.unpoison a n).cyc = s.cyc := rfl
@[simp] theorem State.unpoison_cfg (s : State) (a n : Nat) : (s.unpoison a n).cfg = s.cfg := rfl
@[simp] theorem State.unpoison_prog (s : State) (a n : Nat) : (s.unpoison a n).prog = s.prog := rfl
@[simp] theorem State.unpoison_tvl (s : State) (a n : Nat) : (s.unpoison a n).tvl = s.tvl := rfl
@[simp] theorem State.unpoison_gh (s : State) (a n : Nat) : (s.unpoison a n).gh = s.gh := rfl
@[simp] theorem State.unpoison_tmb (s : State) (a n : Nat) : (s.unpoison a n).tmb = s.tmb := rfl
@[simp] theorem State.unpoison_sup (s : State) (a n : Nat) : (s.unpoison a n).sup = s.sup := rfl
@[simp] theorem State.unpoison_rcd (s : State) (a n : Nat) : (s.unpoison a n).rcd = s.rcd := rfl
@[simp] theorem State.unpoison_pwr (s : State) (a n : Nat) : (s.unpoison a n).pwr = s.pwr := rfl
@[simp] theorem State.unpoison_sio (s : State) (a n : Nat) : (s.unpoison a n).sio = s.sio := rfl
@[simp] theorem State.unpoison_eth (s : State) (a n : Nat) : (s.unpoison a n).eth = s.eth := rfl
@[simp] theorem State.unpoison_ixs (s : State) (a n : Nat) : (s.unpoison a n).ixs = s.ixs := rfl
@[simp] theorem State.unpoison_can (s : State) (a n : Nat) : (s.unpoison a n).can = s.can := rfl
@[simp] theorem State.unpoison_lrb (s : State) (a n : Nat) : (s.unpoison a n).lrb = s.lrb := rfl
@[simp] theorem State.unpoison_out (s : State) (a n : Nat) : (s.unpoison a n).out = s.out := rfl
@[simp] theorem State.unpoison_freeCtr (s : State) (a n : Nat) : (s.unpoison a n).freeCtr = s.freeCtr := rfl
@[simp] theorem State.unpoison_pending (s : State) (a n : Nat) : (s.unpoison a n).pending = s.pending := rfl

@[simp] theorem State.setPair_ident (s : State) (p : Nat) (v : Pair) : (s.setPair p v).ident = s.ident := rfl
@[simp] theorem State.setPair_clk (s : State) (p : Nat) (v : Pair) : (s.setPair p v).clk = s.clk := rfl
@[simp] theorem State.setPair_regs (s : State) (p : Nat) (v : Pair) : (s.setPair p v).regs = s.regs := rfl
@[simp] theorem State.setPair_mem (s : State) (p : Nat) (v : Pair) : (s.setPair p v).mem = s.mem := rfl
@[simp] theorem State.setPair_poison (s : State) (p : Nat) (v : Pair) : (s.setPair p v).poison = s.poison := rfl
@[simp] theorem State.setPair_vdx (s : State) (p : Nat) (v : Pair) : (s.setPair p v).vdx = s.vdx := rfl
@[simp] theorem State.setPair_hx (s : State) (p : Nat) (v : Pair) : (s.setPair p v).hx = s.hx := rfl
@[simp] theorem State.setPair_hxm (s : State) (p : Nat) (v : Pair) : (s.setPair p v).hxm = s.hxm := rfl
@[simp] theorem State.setPair_queues (s : State) (p : Nat) (v : Pair) : (s.setPair p v).queues = s.queues := rfl
@[simp] theorem State.setPair_engines (s : State) (p : Nat) (v : Pair) : (s.setPair p v).engines = s.engines := rfl
@[simp] theorem State.setPair_cyc (s : State) (p : Nat) (v : Pair) : (s.setPair p v).cyc = s.cyc := rfl
@[simp] theorem State.setPair_cfg (s : State) (p : Nat) (v : Pair) : (s.setPair p v).cfg = s.cfg := rfl
@[simp] theorem State.setPair_prog (s : State) (p : Nat) (v : Pair) : (s.setPair p v).prog = s.prog := rfl
@[simp] theorem State.setPair_tvl (s : State) (p : Nat) (v : Pair) : (s.setPair p v).tvl = s.tvl := rfl
@[simp] theorem State.setPair_gh (s : State) (p : Nat) (v : Pair) : (s.setPair p v).gh = s.gh := rfl
@[simp] theorem State.setPair_tmb (s : State) (p : Nat) (v : Pair) : (s.setPair p v).tmb = s.tmb := rfl
@[simp] theorem State.setPair_sup (s : State) (p : Nat) (v : Pair) : (s.setPair p v).sup = s.sup := rfl
@[simp] theorem State.setPair_rcd (s : State) (p : Nat) (v : Pair) : (s.setPair p v).rcd = s.rcd := rfl
@[simp] theorem State.setPair_pwr (s : State) (p : Nat) (v : Pair) : (s.setPair p v).pwr = s.pwr := rfl
@[simp] theorem State.setPair_sio (s : State) (p : Nat) (v : Pair) : (s.setPair p v).sio = s.sio := rfl
@[simp] theorem State.setPair_eth (s : State) (p : Nat) (v : Pair) : (s.setPair p v).eth = s.eth := rfl
@[simp] theorem State.setPair_ixs (s : State) (p : Nat) (v : Pair) : (s.setPair p v).ixs = s.ixs := rfl
@[simp] theorem State.setPair_can (s : State) (p : Nat) (v : Pair) : (s.setPair p v).can = s.can := rfl
@[simp] theorem State.setPair_lrb (s : State) (p : Nat) (v : Pair) : (s.setPair p v).lrb = s.lrb := rfl
@[simp] theorem State.setPair_out (s : State) (p : Nat) (v : Pair) : (s.setPair p v).out = s.out := rfl
@[simp] theorem State.setPair_freeCtr (s : State) (p : Nat) (v : Pair) : (s.setPair p v).freeCtr = s.freeCtr := rfl
@[simp] theorem State.setPair_pending (s : State) (p : Nat) (v : Pair) : (s.setPair p v).pending = s.pending := rfl

@[simp] theorem State.modPair_ident (s : State) (p : Nat) (f : Pair → Pair) : (s.modPair p f).ident = s.ident := rfl
@[simp] theorem State.modPair_clk (s : State) (p : Nat) (f : Pair → Pair) : (s.modPair p f).clk = s.clk := rfl
@[simp] theorem State.modPair_regs (s : State) (p : Nat) (f : Pair → Pair) : (s.modPair p f).regs = s.regs := rfl
@[simp] theorem State.modPair_mem (s : State) (p : Nat) (f : Pair → Pair) : (s.modPair p f).mem = s.mem := rfl
@[simp] theorem State.modPair_poison (s : State) (p : Nat) (f : Pair → Pair) : (s.modPair p f).poison = s.poison := rfl
@[simp] theorem State.modPair_vdx (s : State) (p : Nat) (f : Pair → Pair) : (s.modPair p f).vdx = s.vdx := rfl
@[simp] theorem State.modPair_hx (s : State) (p : Nat) (f : Pair → Pair) : (s.modPair p f).hx = s.hx := rfl
@[simp] theorem State.modPair_hxm (s : State) (p : Nat) (f : Pair → Pair) : (s.modPair p f).hxm = s.hxm := rfl
@[simp] theorem State.modPair_queues (s : State) (p : Nat) (f : Pair → Pair) : (s.modPair p f).queues = s.queues := rfl
@[simp] theorem State.modPair_engines (s : State) (p : Nat) (f : Pair → Pair) : (s.modPair p f).engines = s.engines := rfl
@[simp] theorem State.modPair_cyc (s : State) (p : Nat) (f : Pair → Pair) : (s.modPair p f).cyc = s.cyc := rfl
@[simp] theorem State.modPair_cfg (s : State) (p : Nat) (f : Pair → Pair) : (s.modPair p f).cfg = s.cfg := rfl
@[simp] theorem State.modPair_prog (s : State) (p : Nat) (f : Pair → Pair) : (s.modPair p f).prog = s.prog := rfl
@[simp] theorem State.modPair_tvl (s : State) (p : Nat) (f : Pair → Pair) : (s.modPair p f).tvl = s.tvl := rfl
@[simp] theorem State.modPair_gh (s : State) (p : Nat) (f : Pair → Pair) : (s.modPair p f).gh = s.gh := rfl
@[simp] theorem State.modPair_tmb (s : State) (p : Nat) (f : Pair → Pair) : (s.modPair p f).tmb = s.tmb := rfl
@[simp] theorem State.modPair_sup (s : State) (p : Nat) (f : Pair → Pair) : (s.modPair p f).sup = s.sup := rfl
@[simp] theorem State.modPair_rcd (s : State) (p : Nat) (f : Pair → Pair) : (s.modPair p f).rcd = s.rcd := rfl
@[simp] theorem State.modPair_pwr (s : State) (p : Nat) (f : Pair → Pair) : (s.modPair p f).pwr = s.pwr := rfl
@[simp] theorem State.modPair_sio (s : State) (p : Nat) (f : Pair → Pair) : (s.modPair p f).sio = s.sio := rfl
@[simp] theorem State.modPair_eth (s : State) (p : Nat) (f : Pair → Pair) : (s.modPair p f).eth = s.eth := rfl
@[simp] theorem State.modPair_ixs (s : State) (p : Nat) (f : Pair → Pair) : (s.modPair p f).ixs = s.ixs := rfl
@[simp] theorem State.modPair_can (s : State) (p : Nat) (f : Pair → Pair) : (s.modPair p f).can = s.can := rfl
@[simp] theorem State.modPair_lrb (s : State) (p : Nat) (f : Pair → Pair) : (s.modPair p f).lrb = s.lrb := rfl
@[simp] theorem State.modPair_out (s : State) (p : Nat) (f : Pair → Pair) : (s.modPair p f).out = s.out := rfl
@[simp] theorem State.modPair_freeCtr (s : State) (p : Nat) (f : Pair → Pair) : (s.modPair p f).freeCtr = s.freeCtr := rfl
@[simp] theorem State.modPair_pending (s : State) (p : Nat) (f : Pair → Pair) : (s.modPair p f).pending = s.pending := rfl

@[simp] theorem State.setTask_ident (s : State) (t : Nat) (v : TaskSt) : (s.setTask t v).ident = s.ident := rfl
@[simp] theorem State.setTask_clk (s : State) (t : Nat) (v : TaskSt) : (s.setTask t v).clk = s.clk := rfl
@[simp] theorem State.setTask_regs (s : State) (t : Nat) (v : TaskSt) : (s.setTask t v).regs = s.regs := rfl
@[simp] theorem State.setTask_mem (s : State) (t : Nat) (v : TaskSt) : (s.setTask t v).mem = s.mem := rfl
@[simp] theorem State.setTask_poison (s : State) (t : Nat) (v : TaskSt) : (s.setTask t v).poison = s.poison := rfl
@[simp] theorem State.setTask_pairs (s : State) (t : Nat) (v : TaskSt) : (s.setTask t v).pairs = s.pairs := rfl
@[simp] theorem State.setTask_vdx (s : State) (t : Nat) (v : TaskSt) : (s.setTask t v).vdx = s.vdx := rfl
@[simp] theorem State.setTask_hxm (s : State) (t : Nat) (v : TaskSt) : (s.setTask t v).hxm = s.hxm := rfl
@[simp] theorem State.setTask_queues (s : State) (t : Nat) (v : TaskSt) : (s.setTask t v).queues = s.queues := rfl
@[simp] theorem State.setTask_engines (s : State) (t : Nat) (v : TaskSt) : (s.setTask t v).engines = s.engines := rfl
@[simp] theorem State.setTask_cyc (s : State) (t : Nat) (v : TaskSt) : (s.setTask t v).cyc = s.cyc := rfl
@[simp] theorem State.setTask_cfg (s : State) (t : Nat) (v : TaskSt) : (s.setTask t v).cfg = s.cfg := rfl
@[simp] theorem State.setTask_prog (s : State) (t : Nat) (v : TaskSt) : (s.setTask t v).prog = s.prog := rfl
@[simp] theorem State.setTask_tvl (s : State) (t : Nat) (v : TaskSt) : (s.setTask t v).tvl = s.tvl := rfl
@[simp] theorem State.setTask_gh (s : State) (t : Nat) (v : TaskSt) : (s.setTask t v).gh = s.gh := rfl
@[simp] theorem State.setTask_tmb (s : State) (t : Nat) (v : TaskSt) : (s.setTask t v).tmb = s.tmb := rfl
@[simp] theorem State.setTask_sup (s : State) (t : Nat) (v : TaskSt) : (s.setTask t v).sup = s.sup := rfl
@[simp] theorem State.setTask_rcd (s : State) (t : Nat) (v : TaskSt) : (s.setTask t v).rcd = s.rcd := rfl
@[simp] theorem State.setTask_pwr (s : State) (t : Nat) (v : TaskSt) : (s.setTask t v).pwr = s.pwr := rfl
@[simp] theorem State.setTask_sio (s : State) (t : Nat) (v : TaskSt) : (s.setTask t v).sio = s.sio := rfl
@[simp] theorem State.setTask_eth (s : State) (t : Nat) (v : TaskSt) : (s.setTask t v).eth = s.eth := rfl
@[simp] theorem State.setTask_ixs (s : State) (t : Nat) (v : TaskSt) : (s.setTask t v).ixs = s.ixs := rfl
@[simp] theorem State.setTask_can (s : State) (t : Nat) (v : TaskSt) : (s.setTask t v).can = s.can := rfl
@[simp] theorem State.setTask_lrb (s : State) (t : Nat) (v : TaskSt) : (s.setTask t v).lrb = s.lrb := rfl
@[simp] theorem State.setTask_out (s : State) (t : Nat) (v : TaskSt) : (s.setTask t v).out = s.out := rfl
@[simp] theorem State.setTask_freeCtr (s : State) (t : Nat) (v : TaskSt) : (s.setTask t v).freeCtr = s.freeCtr := rfl
@[simp] theorem State.setTask_pending (s : State) (t : Nat) (v : TaskSt) : (s.setTask t v).pending = s.pending := rfl

@[simp] theorem State.setUnit_ident (s : State) (u : Nat) (v : UnitSt) : (s.setUnit u v).ident = s.ident := rfl
@[simp] theorem State.setUnit_clk (s : State) (u : Nat) (v : UnitSt) : (s.setUnit u v).clk = s.clk := rfl
@[simp] theorem State.setUnit_regs (s : State) (u : Nat) (v : UnitSt) : (s.setUnit u v).regs = s.regs := rfl
@[simp] theorem State.setUnit_mem (s : State) (u : Nat) (v : UnitSt) : (s.setUnit u v).mem = s.mem := rfl
@[simp] theorem State.setUnit_poison (s : State) (u : Nat) (v : UnitSt) : (s.setUnit u v).poison = s.poison := rfl
@[simp] theorem State.setUnit_pairs (s : State) (u : Nat) (v : UnitSt) : (s.setUnit u v).pairs = s.pairs := rfl
@[simp] theorem State.setUnit_vdx (s : State) (u : Nat) (v : UnitSt) : (s.setUnit u v).vdx = s.vdx := rfl
@[simp] theorem State.setUnit_hxm (s : State) (u : Nat) (v : UnitSt) : (s.setUnit u v).hxm = s.hxm := rfl
@[simp] theorem State.setUnit_queues (s : State) (u : Nat) (v : UnitSt) : (s.setUnit u v).queues = s.queues := rfl
@[simp] theorem State.setUnit_engines (s : State) (u : Nat) (v : UnitSt) : (s.setUnit u v).engines = s.engines := rfl
@[simp] theorem State.setUnit_cyc (s : State) (u : Nat) (v : UnitSt) : (s.setUnit u v).cyc = s.cyc := rfl
@[simp] theorem State.setUnit_cfg (s : State) (u : Nat) (v : UnitSt) : (s.setUnit u v).cfg = s.cfg := rfl
@[simp] theorem State.setUnit_prog (s : State) (u : Nat) (v : UnitSt) : (s.setUnit u v).prog = s.prog := rfl
@[simp] theorem State.setUnit_tvl (s : State) (u : Nat) (v : UnitSt) : (s.setUnit u v).tvl = s.tvl := rfl
@[simp] theorem State.setUnit_gh (s : State) (u : Nat) (v : UnitSt) : (s.setUnit u v).gh = s.gh := rfl
@[simp] theorem State.setUnit_tmb (s : State) (u : Nat) (v : UnitSt) : (s.setUnit u v).tmb = s.tmb := rfl
@[simp] theorem State.setUnit_sup (s : State) (u : Nat) (v : UnitSt) : (s.setUnit u v).sup = s.sup := rfl
@[simp] theorem State.setUnit_rcd (s : State) (u : Nat) (v : UnitSt) : (s.setUnit u v).rcd = s.rcd := rfl
@[simp] theorem State.setUnit_pwr (s : State) (u : Nat) (v : UnitSt) : (s.setUnit u v).pwr = s.pwr := rfl
@[simp] theorem State.setUnit_sio (s : State) (u : Nat) (v : UnitSt) : (s.setUnit u v).sio = s.sio := rfl
@[simp] theorem State.setUnit_eth (s : State) (u : Nat) (v : UnitSt) : (s.setUnit u v).eth = s.eth := rfl
@[simp] theorem State.setUnit_ixs (s : State) (u : Nat) (v : UnitSt) : (s.setUnit u v).ixs = s.ixs := rfl
@[simp] theorem State.setUnit_can (s : State) (u : Nat) (v : UnitSt) : (s.setUnit u v).can = s.can := rfl
@[simp] theorem State.setUnit_lrb (s : State) (u : Nat) (v : UnitSt) : (s.setUnit u v).lrb = s.lrb := rfl
@[simp] theorem State.setUnit_out (s : State) (u : Nat) (v : UnitSt) : (s.setUnit u v).out = s.out := rfl
@[simp] theorem State.setUnit_freeCtr (s : State) (u : Nat) (v : UnitSt) : (s.setUnit u v).freeCtr = s.freeCtr := rfl
@[simp] theorem State.setUnit_pending (s : State) (u : Nat) (v : UnitSt) : (s.setUnit u v).pending = s.pending := rfl

@[simp] theorem State.setEng_ident (s : State) (e : Nat) (v : Engine) : (s.setEng e v).ident = s.ident := rfl
@[simp] theorem State.setEng_clk (s : State) (e : Nat) (v : Engine) : (s.setEng e v).clk = s.clk := rfl
@[simp] theorem State.setEng_regs (s : State) (e : Nat) (v : Engine) : (s.setEng e v).regs = s.regs := rfl
@[simp] theorem State.setEng_mem (s : State) (e : Nat) (v : Engine) : (s.setEng e v).mem = s.mem := rfl
@[simp] theorem State.setEng_poison (s : State) (e : Nat) (v : Engine) : (s.setEng e v).poison = s.poison := rfl
@[simp] theorem State.setEng_pairs (s : State) (e : Nat) (v : Engine) : (s.setEng e v).pairs = s.pairs := rfl
@[simp] theorem State.setEng_vdx (s : State) (e : Nat) (v : Engine) : (s.setEng e v).vdx = s.vdx := rfl
@[simp] theorem State.setEng_hx (s : State) (e : Nat) (v : Engine) : (s.setEng e v).hx = s.hx := rfl
@[simp] theorem State.setEng_hxm (s : State) (e : Nat) (v : Engine) : (s.setEng e v).hxm = s.hxm := rfl
@[simp] theorem State.setEng_queues (s : State) (e : Nat) (v : Engine) : (s.setEng e v).queues = s.queues := rfl
@[simp] theorem State.setEng_cyc (s : State) (e : Nat) (v : Engine) : (s.setEng e v).cyc = s.cyc := rfl
@[simp] theorem State.setEng_cfg (s : State) (e : Nat) (v : Engine) : (s.setEng e v).cfg = s.cfg := rfl
@[simp] theorem State.setEng_prog (s : State) (e : Nat) (v : Engine) : (s.setEng e v).prog = s.prog := rfl
@[simp] theorem State.setEng_tvl (s : State) (e : Nat) (v : Engine) : (s.setEng e v).tvl = s.tvl := rfl
@[simp] theorem State.setEng_gh (s : State) (e : Nat) (v : Engine) : (s.setEng e v).gh = s.gh := rfl
@[simp] theorem State.setEng_tmb (s : State) (e : Nat) (v : Engine) : (s.setEng e v).tmb = s.tmb := rfl
@[simp] theorem State.setEng_sup (s : State) (e : Nat) (v : Engine) : (s.setEng e v).sup = s.sup := rfl
@[simp] theorem State.setEng_rcd (s : State) (e : Nat) (v : Engine) : (s.setEng e v).rcd = s.rcd := rfl
@[simp] theorem State.setEng_pwr (s : State) (e : Nat) (v : Engine) : (s.setEng e v).pwr = s.pwr := rfl
@[simp] theorem State.setEng_sio (s : State) (e : Nat) (v : Engine) : (s.setEng e v).sio = s.sio := rfl
@[simp] theorem State.setEng_eth (s : State) (e : Nat) (v : Engine) : (s.setEng e v).eth = s.eth := rfl
@[simp] theorem State.setEng_ixs (s : State) (e : Nat) (v : Engine) : (s.setEng e v).ixs = s.ixs := rfl
@[simp] theorem State.setEng_can (s : State) (e : Nat) (v : Engine) : (s.setEng e v).can = s.can := rfl
@[simp] theorem State.setEng_lrb (s : State) (e : Nat) (v : Engine) : (s.setEng e v).lrb = s.lrb := rfl
@[simp] theorem State.setEng_out (s : State) (e : Nat) (v : Engine) : (s.setEng e v).out = s.out := rfl
@[simp] theorem State.setEng_freeCtr (s : State) (e : Nat) (v : Engine) : (s.setEng e v).freeCtr = s.freeCtr := rfl
@[simp] theorem State.setEng_pending (s : State) (e : Nat) (v : Engine) : (s.setEng e v).pending = s.pending := rfl

@[simp] theorem State.setGrp_ident (s : State) (g : Nat) (v : GroupSt) : (s.setGrp g v).ident = s.ident := rfl
@[simp] theorem State.setGrp_clk (s : State) (g : Nat) (v : GroupSt) : (s.setGrp g v).clk = s.clk := rfl
@[simp] theorem State.setGrp_regs (s : State) (g : Nat) (v : GroupSt) : (s.setGrp g v).regs = s.regs := rfl
@[simp] theorem State.setGrp_mem (s : State) (g : Nat) (v : GroupSt) : (s.setGrp g v).mem = s.mem := rfl
@[simp] theorem State.setGrp_poison (s : State) (g : Nat) (v : GroupSt) : (s.setGrp g v).poison = s.poison := rfl
@[simp] theorem State.setGrp_pairs (s : State) (g : Nat) (v : GroupSt) : (s.setGrp g v).pairs = s.pairs := rfl
@[simp] theorem State.setGrp_vdx (s : State) (g : Nat) (v : GroupSt) : (s.setGrp g v).vdx = s.vdx := rfl
@[simp] theorem State.setGrp_hx (s : State) (g : Nat) (v : GroupSt) : (s.setGrp g v).hx = s.hx := rfl
@[simp] theorem State.setGrp_hxm (s : State) (g : Nat) (v : GroupSt) : (s.setGrp g v).hxm = s.hxm := rfl
@[simp] theorem State.setGrp_queues (s : State) (g : Nat) (v : GroupSt) : (s.setGrp g v).queues = s.queues := rfl
@[simp] theorem State.setGrp_engines (s : State) (g : Nat) (v : GroupSt) : (s.setGrp g v).engines = s.engines := rfl
@[simp] theorem State.setGrp_cfg (s : State) (g : Nat) (v : GroupSt) : (s.setGrp g v).cfg = s.cfg := rfl
@[simp] theorem State.setGrp_prog (s : State) (g : Nat) (v : GroupSt) : (s.setGrp g v).prog = s.prog := rfl
@[simp] theorem State.setGrp_tvl (s : State) (g : Nat) (v : GroupSt) : (s.setGrp g v).tvl = s.tvl := rfl
@[simp] theorem State.setGrp_gh (s : State) (g : Nat) (v : GroupSt) : (s.setGrp g v).gh = s.gh := rfl
@[simp] theorem State.setGrp_tmb (s : State) (g : Nat) (v : GroupSt) : (s.setGrp g v).tmb = s.tmb := rfl
@[simp] theorem State.setGrp_sup (s : State) (g : Nat) (v : GroupSt) : (s.setGrp g v).sup = s.sup := rfl
@[simp] theorem State.setGrp_rcd (s : State) (g : Nat) (v : GroupSt) : (s.setGrp g v).rcd = s.rcd := rfl
@[simp] theorem State.setGrp_pwr (s : State) (g : Nat) (v : GroupSt) : (s.setGrp g v).pwr = s.pwr := rfl
@[simp] theorem State.setGrp_sio (s : State) (g : Nat) (v : GroupSt) : (s.setGrp g v).sio = s.sio := rfl
@[simp] theorem State.setGrp_eth (s : State) (g : Nat) (v : GroupSt) : (s.setGrp g v).eth = s.eth := rfl
@[simp] theorem State.setGrp_ixs (s : State) (g : Nat) (v : GroupSt) : (s.setGrp g v).ixs = s.ixs := rfl
@[simp] theorem State.setGrp_can (s : State) (g : Nat) (v : GroupSt) : (s.setGrp g v).can = s.can := rfl
@[simp] theorem State.setGrp_lrb (s : State) (g : Nat) (v : GroupSt) : (s.setGrp g v).lrb = s.lrb := rfl
@[simp] theorem State.setGrp_out (s : State) (g : Nat) (v : GroupSt) : (s.setGrp g v).out = s.out := rfl
@[simp] theorem State.setGrp_freeCtr (s : State) (g : Nat) (v : GroupSt) : (s.setGrp g v).freeCtr = s.freeCtr := rfl
@[simp] theorem State.setGrp_pending (s : State) (g : Nat) (v : GroupSt) : (s.setGrp g v).pending = s.pending := rfl

@[simp] theorem State.setQueue_ident (s : State) (b : Nat) (v : QSt) : (s.setQueue b v).ident = s.ident := rfl
@[simp] theorem State.setQueue_clk (s : State) (b : Nat) (v : QSt) : (s.setQueue b v).clk = s.clk := rfl
@[simp] theorem State.setQueue_regs (s : State) (b : Nat) (v : QSt) : (s.setQueue b v).regs = s.regs := rfl
@[simp] theorem State.setQueue_mem (s : State) (b : Nat) (v : QSt) : (s.setQueue b v).mem = s.mem := rfl
@[simp] theorem State.setQueue_poison (s : State) (b : Nat) (v : QSt) : (s.setQueue b v).poison = s.poison := rfl
@[simp] theorem State.setQueue_pairs (s : State) (b : Nat) (v : QSt) : (s.setQueue b v).pairs = s.pairs := rfl
@[simp] theorem State.setQueue_vdx (s : State) (b : Nat) (v : QSt) : (s.setQueue b v).vdx = s.vdx := rfl
@[simp] theorem State.setQueue_hx (s : State) (b : Nat) (v : QSt) : (s.setQueue b v).hx = s.hx := rfl
@[simp] theorem State.setQueue_hxm (s : State) (b : Nat) (v : QSt) : (s.setQueue b v).hxm = s.hxm := rfl
@[simp] theorem State.setQueue_engines (s : State) (b : Nat) (v : QSt) : (s.setQueue b v).engines = s.engines := rfl
@[simp] theorem State.setQueue_cyc (s : State) (b : Nat) (v : QSt) : (s.setQueue b v).cyc = s.cyc := rfl
@[simp] theorem State.setQueue_cfg (s : State) (b : Nat) (v : QSt) : (s.setQueue b v).cfg = s.cfg := rfl
@[simp] theorem State.setQueue_prog (s : State) (b : Nat) (v : QSt) : (s.setQueue b v).prog = s.prog := rfl
@[simp] theorem State.setQueue_tvl (s : State) (b : Nat) (v : QSt) : (s.setQueue b v).tvl = s.tvl := rfl
@[simp] theorem State.setQueue_gh (s : State) (b : Nat) (v : QSt) : (s.setQueue b v).gh = s.gh := rfl
@[simp] theorem State.setQueue_tmb (s : State) (b : Nat) (v : QSt) : (s.setQueue b v).tmb = s.tmb := rfl
@[simp] theorem State.setQueue_sup (s : State) (b : Nat) (v : QSt) : (s.setQueue b v).sup = s.sup := rfl
@[simp] theorem State.setQueue_rcd (s : State) (b : Nat) (v : QSt) : (s.setQueue b v).rcd = s.rcd := rfl
@[simp] theorem State.setQueue_pwr (s : State) (b : Nat) (v : QSt) : (s.setQueue b v).pwr = s.pwr := rfl
@[simp] theorem State.setQueue_sio (s : State) (b : Nat) (v : QSt) : (s.setQueue b v).sio = s.sio := rfl
@[simp] theorem State.setQueue_eth (s : State) (b : Nat) (v : QSt) : (s.setQueue b v).eth = s.eth := rfl
@[simp] theorem State.setQueue_ixs (s : State) (b : Nat) (v : QSt) : (s.setQueue b v).ixs = s.ixs := rfl
@[simp] theorem State.setQueue_can (s : State) (b : Nat) (v : QSt) : (s.setQueue b v).can = s.can := rfl
@[simp] theorem State.setQueue_lrb (s : State) (b : Nat) (v : QSt) : (s.setQueue b v).lrb = s.lrb := rfl
@[simp] theorem State.setQueue_out (s : State) (b : Nat) (v : QSt) : (s.setQueue b v).out = s.out := rfl
@[simp] theorem State.setQueue_freeCtr (s : State) (b : Nat) (v : QSt) : (s.setQueue b v).freeCtr = s.freeCtr := rfl
@[simp] theorem State.setQueue_pending (s : State) (b : Nat) (v : QSt) : (s.setQueue b v).pending = s.pending := rfl

@[simp] theorem State.free_ident (s : State) : (s.free).ident = s.ident := rfl
@[simp] theorem State.free_clk (s : State) : (s.free).clk = s.clk := rfl
@[simp] theorem State.free_regs (s : State) : (s.free).regs = s.regs := rfl
@[simp] theorem State.free_mem (s : State) : (s.free).mem = s.mem := rfl
@[simp] theorem State.free_poison (s : State) : (s.free).poison = s.poison := rfl
@[simp] theorem State.free_pairs (s : State) : (s.free).pairs = s.pairs := rfl
@[simp] theorem State.free_vdx (s : State) : (s.free).vdx = s.vdx := rfl
@[simp] theorem State.free_hx (s : State) : (s.free).hx = s.hx := rfl
@[simp] theorem State.free_hxm (s : State) : (s.free).hxm = s.hxm := rfl
@[simp] theorem State.free_queues (s : State) : (s.free).queues = s.queues := rfl
@[simp] theorem State.free_engines (s : State) : (s.free).engines = s.engines := rfl
@[simp] theorem State.free_cyc (s : State) : (s.free).cyc = s.cyc := rfl
@[simp] theorem State.free_cfg (s : State) : (s.free).cfg = s.cfg := rfl
@[simp] theorem State.free_prog (s : State) : (s.free).prog = s.prog := rfl
@[simp] theorem State.free_tvl (s : State) : (s.free).tvl = s.tvl := rfl
@[simp] theorem State.free_gh (s : State) : (s.free).gh = s.gh := rfl
@[simp] theorem State.free_tmb (s : State) : (s.free).tmb = s.tmb := rfl
@[simp] theorem State.free_sup (s : State) : (s.free).sup = s.sup := rfl
@[simp] theorem State.free_rcd (s : State) : (s.free).rcd = s.rcd := rfl
@[simp] theorem State.free_pwr (s : State) : (s.free).pwr = s.pwr := rfl
@[simp] theorem State.free_sio (s : State) : (s.free).sio = s.sio := rfl
@[simp] theorem State.free_eth (s : State) : (s.free).eth = s.eth := rfl
@[simp] theorem State.free_ixs (s : State) : (s.free).ixs = s.ixs := rfl
@[simp] theorem State.free_can (s : State) : (s.free).can = s.can := rfl
@[simp] theorem State.free_lrb (s : State) : (s.free).lrb = s.lrb := rfl
@[simp] theorem State.free_out (s : State) : (s.free).out = s.out := rfl
@[simp] theorem State.free_pending (s : State) : (s.free).pending = s.pending := rfl

@[simp] theorem State.report_ident (s : State) (c : RCode) (n : Nat) (l : List Nat) : (s.report c n l).ident = s.ident := rfl
@[simp] theorem State.report_clk (s : State) (c : RCode) (n : Nat) (l : List Nat) : (s.report c n l).clk = s.clk := rfl
@[simp] theorem State.report_regs (s : State) (c : RCode) (n : Nat) (l : List Nat) : (s.report c n l).regs = s.regs := rfl
@[simp] theorem State.report_mem (s : State) (c : RCode) (n : Nat) (l : List Nat) : (s.report c n l).mem = s.mem := rfl
@[simp] theorem State.report_poison (s : State) (c : RCode) (n : Nat) (l : List Nat) : (s.report c n l).poison = s.poison := rfl
@[simp] theorem State.report_pairs (s : State) (c : RCode) (n : Nat) (l : List Nat) : (s.report c n l).pairs = s.pairs := rfl
@[simp] theorem State.report_vdx (s : State) (c : RCode) (n : Nat) (l : List Nat) : (s.report c n l).vdx = s.vdx := rfl
@[simp] theorem State.report_hx (s : State) (c : RCode) (n : Nat) (l : List Nat) : (s.report c n l).hx = s.hx := rfl
@[simp] theorem State.report_hxm (s : State) (c : RCode) (n : Nat) (l : List Nat) : (s.report c n l).hxm = s.hxm := rfl
@[simp] theorem State.report_queues (s : State) (c : RCode) (n : Nat) (l : List Nat) : (s.report c n l).queues = s.queues := rfl
@[simp] theorem State.report_engines (s : State) (c : RCode) (n : Nat) (l : List Nat) : (s.report c n l).engines = s.engines := rfl
@[simp] theorem State.report_cyc (s : State) (c : RCode) (n : Nat) (l : List Nat) : (s.report c n l).cyc = s.cyc := rfl
@[simp] theorem State.report_cfg (s : State) (c : RCode) (n : Nat) (l : List Nat) : (s.report c n l).cfg = s.cfg := rfl
@[simp] theorem State.report_prog (s : State) (c : RCode) (n : Nat) (l : List Nat) : (s.report c n l).prog = s.prog := rfl
@[simp] theorem State.report_tvl (s : State) (c : RCode) (n : Nat) (l : List Nat) : (s.report c n l).tvl = s.tvl := rfl
@[simp] theorem State.report_gh (s : State) (c : RCode) (n : Nat) (l : List Nat) : (s.report c n l).gh = s.gh := rfl
@[simp] theorem State.report_tmb (s : State) (c : RCode) (n : Nat) (l : List Nat) : (s.report c n l).tmb = s.tmb := rfl
@[simp] theorem State.report_sup (s : State) (c : RCode) (n : Nat) (l : List Nat) : (s.report c n l).sup = s.sup := rfl
@[simp] theorem State.report_pwr (s : State) (c : RCode) (n : Nat) (l : List Nat) : (s.report c n l).pwr = s.pwr := rfl
@[simp] theorem State.report_sio (s : State) (c : RCode) (n : Nat) (l : List Nat) : (s.report c n l).sio = s.sio := rfl
@[simp] theorem State.report_eth (s : State) (c : RCode) (n : Nat) (l : List Nat) : (s.report c n l).eth = s.eth := rfl
@[simp] theorem State.report_ixs (s : State) (c : RCode) (n : Nat) (l : List Nat) : (s.report c n l).ixs = s.ixs := rfl
@[simp] theorem State.report_can (s : State) (c : RCode) (n : Nat) (l : List Nat) : (s.report c n l).can = s.can := rfl
@[simp] theorem State.report_lrb (s : State) (c : RCode) (n : Nat) (l : List Nat) : (s.report c n l).lrb = s.lrb := rfl
@[simp] theorem State.report_out (s : State) (c : RCode) (n : Nat) (l : List Nat) : (s.report c n l).out = s.out := rfl
@[simp] theorem State.report_freeCtr (s : State) (c : RCode) (n : Nat) (l : List Nat) : (s.report c n l).freeCtr = s.freeCtr := rfl
@[simp] theorem State.report_pending (s : State) (c : RCode) (n : Nat) (l : List Nat) : (s.report c n l).pending = s.pending := rfl

@[simp] theorem State.emit_ident (s : State) (i : Iface) (u k : Nat) (d : List Byte) : (s.emit i u k d).ident = s.ident := rfl
@[simp] theorem State.emit_clk (s : State) (i : Iface) (u k : Nat) (d : List Byte) : (s.emit i u k d).clk = s.clk := rfl
@[simp] theorem State.emit_regs (s : State) (i : Iface) (u k : Nat) (d : List Byte) : (s.emit i u k d).regs = s.regs := rfl
@[simp] theorem State.emit_mem (s : State) (i : Iface) (u k : Nat) (d : List Byte) : (s.emit i u k d).mem = s.mem := rfl
@[simp] theorem State.emit_poison (s : State) (i : Iface) (u k : Nat) (d : List Byte) : (s.emit i u k d).poison = s.poison := rfl
@[simp] theorem State.emit_pairs (s : State) (i : Iface) (u k : Nat) (d : List Byte) : (s.emit i u k d).pairs = s.pairs := rfl
@[simp] theorem State.emit_vdx (s : State) (i : Iface) (u k : Nat) (d : List Byte) : (s.emit i u k d).vdx = s.vdx := rfl
@[simp] theorem State.emit_hx (s : State) (i : Iface) (u k : Nat) (d : List Byte) : (s.emit i u k d).hx = s.hx := rfl
@[simp] theorem State.emit_hxm (s : State) (i : Iface) (u k : Nat) (d : List Byte) : (s.emit i u k d).hxm = s.hxm := rfl
@[simp] theorem State.emit_queues (s : State) (i : Iface) (u k : Nat) (d : List Byte) : (s.emit i u k d).queues = s.queues := rfl
@[simp] theorem State.emit_engines (s : State) (i : Iface) (u k : Nat) (d : List Byte) : (s.emit i u k d).engines = s.engines := rfl
@[simp] theorem State.emit_cyc (s : State) (i : Iface) (u k : Nat) (d : List Byte) : (s.emit i u k d).cyc = s.cyc := rfl
@[simp] theorem State.emit_cfg (s : State) (i : Iface) (u k : Nat) (d : List Byte) : (s.emit i u k d).cfg = s.cfg := rfl
@[simp] theorem State.emit_prog (s : State) (i : Iface) (u k : Nat) (d : List Byte) : (s.emit i u k d).prog = s.prog := rfl
@[simp] theorem State.emit_tvl (s : State) (i : Iface) (u k : Nat) (d : List Byte) : (s.emit i u k d).tvl = s.tvl := rfl
@[simp] theorem State.emit_gh (s : State) (i : Iface) (u k : Nat) (d : List Byte) : (s.emit i u k d).gh = s.gh := rfl
@[simp] theorem State.emit_tmb (s : State) (i : Iface) (u k : Nat) (d : List Byte) : (s.emit i u k d).tmb = s.tmb := rfl
@[simp] theorem State.emit_sup (s : State) (i : Iface) (u k : Nat) (d : List Byte) : (s.emit i u k d).sup = s.sup := rfl
@[simp] theorem State.emit_rcd (s : State) (i : Iface) (u k : Nat) (d : List Byte) : (s.emit i u k d).rcd = s.rcd := rfl
@[simp] theorem State.emit_pwr (s : State) (i : Iface) (u k : Nat) (d : List Byte) : (s.emit i u k d).pwr = s.pwr := rfl
@[simp] theorem State.emit_sio (s : State) (i : Iface) (u k : Nat) (d : List Byte) : (s.emit i u k d).sio = s.sio := rfl
@[simp] theorem State.emit_eth (s : State) (i : Iface) (u k : Nat) (d : List Byte) : (s.emit i u k d).eth = s.eth := rfl
@[simp] theorem State.emit_ixs (s : State) (i : Iface) (u k : Nat) (d : List Byte) : (s.emit i u k d).ixs = s.ixs := rfl
@[simp] theorem State.emit_can (s : State) (i : Iface) (u k : Nat) (d : List Byte) : (s.emit i u k d).can = s.can := rfl
@[simp] theorem State.emit_lrb (s : State) (i : Iface) (u k : Nat) (d : List Byte) : (s.emit i u k d).lrb = s.lrb := rfl
@[simp] theorem State.emit_freeCtr (s : State) (i : Iface) (u k : Nat) (d : List Byte) : (s.emit i u k d).freeCtr = s.freeCtr := rfl
@[simp] theorem State.emit_pending (s : State) (i : Iface) (u k : Nat) (d : List Byte) : (s.emit i u k d).pending = s.pending := rfl

@[simp] theorem State.setSource_ident (s : State) (k : Nat) (v : Source) : (s.setSource k v).ident = s.ident := rfl
@[simp] theorem State.setSource_clk (s : State) (k : Nat) (v : Source) : (s.setSource k v).clk = s.clk := rfl
@[simp] theorem State.setSource_regs (s : State) (k : Nat) (v : Source) : (s.setSource k v).regs = s.regs := rfl
@[simp] theorem State.setSource_mem (s : State) (k : Nat) (v : Source) : (s.setSource k v).mem = s.mem := rfl
@[simp] theorem State.setSource_poison (s : State) (k : Nat) (v : Source) : (s.setSource k v).poison = s.poison := rfl
@[simp] theorem State.setSource_pairs (s : State) (k : Nat) (v : Source) : (s.setSource k v).pairs = s.pairs := rfl
@[simp] theorem State.setSource_vdx (s : State) (k : Nat) (v : Source) : (s.setSource k v).vdx = s.vdx := rfl
@[simp] theorem State.setSource_hx (s : State) (k : Nat) (v : Source) : (s.setSource k v).hx = s.hx := rfl
@[simp] theorem State.setSource_hxm (s : State) (k : Nat) (v : Source) : (s.setSource k v).hxm = s.hxm := rfl
@[simp] theorem State.setSource_queues (s : State) (k : Nat) (v : Source) : (s.setSource k v).queues = s.queues := rfl
@[simp] theorem State.setSource_engines (s : State) (k : Nat) (v : Source) : (s.setSource k v).engines = s.engines := rfl
@[simp] theorem State.setSource_cfg (s : State) (k : Nat) (v : Source) : (s.setSource k v).cfg = s.cfg := rfl
@[simp] theorem State.setSource_prog (s : State) (k : Nat) (v : Source) : (s.setSource k v).prog = s.prog := rfl
@[simp] theorem State.setSource_tvl (s : State) (k : Nat) (v : Source) : (s.setSource k v).tvl = s.tvl := rfl
@[simp] theorem State.setSource_gh (s : State) (k : Nat) (v : Source) : (s.setSource k v).gh = s.gh := rfl
@[simp] theorem State.setSource_tmb (s : State) (k : Nat) (v : Source) : (s.setSource k v).tmb = s.tmb := rfl
@[simp] theorem State.setSource_sup (s : State) (k : Nat) (v : Source) : (s.setSource k v).sup = s.sup := rfl
@[simp] theorem State.setSource_rcd (s : State) (k : Nat) (v : Source) : (s.setSource k v).rcd = s.rcd := rfl
@[simp] theorem State.setSource_pwr (s : State) (k : Nat) (v : Source) : (s.setSource k v).pwr = s.pwr := rfl
@[simp] theorem State.setSource_sio (s : State) (k : Nat) (v : Source) : (s.setSource k v).sio = s.sio := rfl
@[simp] theorem State.setSource_eth (s : State) (k : Nat) (v : Source) : (s.setSource k v).eth = s.eth := rfl
@[simp] theorem State.setSource_ixs (s : State) (k : Nat) (v : Source) : (s.setSource k v).ixs = s.ixs := rfl
@[simp] theorem State.setSource_can (s : State) (k : Nat) (v : Source) : (s.setSource k v).can = s.can := rfl
@[simp] theorem State.setSource_lrb (s : State) (k : Nat) (v : Source) : (s.setSource k v).lrb = s.lrb := rfl
@[simp] theorem State.setSource_out (s : State) (k : Nat) (v : Source) : (s.setSource k v).out = s.out := rfl
@[simp] theorem State.setSource_freeCtr (s : State) (k : Nat) (v : Source) : (s.setSource k v).freeCtr = s.freeCtr := rfl
@[simp] theorem State.setSource_pending (s : State) (k : Nat) (v : Source) : (s.setSource k v).pending = s.pending := rfl

@[simp] theorem State.setDout_ident (s : State) (m : Nat) (v : Dout) : (s.setDout m v).ident = s.ident := rfl
@[simp] theorem State.setDout_clk (s : State) (m : Nat) (v : Dout) : (s.setDout m v).clk = s.clk := rfl
@[simp] theorem State.setDout_regs (s : State) (m : Nat) (v : Dout) : (s.setDout m v).regs = s.regs := rfl
@[simp] theorem State.setDout_mem (s : State) (m : Nat) (v : Dout) : (s.setDout m v).mem = s.mem := rfl
@[simp] theorem State.setDout_poison (s : State) (m : Nat) (v : Dout) : (s.setDout m v).poison = s.poison := rfl
@[simp] theorem State.setDout_pairs (s : State) (m : Nat) (v : Dout) : (s.setDout m v).pairs = s.pairs := rfl
@[simp] theorem State.setDout_vdx (s : State) (m : Nat) (v : Dout) : (s.setDout m v).vdx = s.vdx := rfl
@[simp] theorem State.setDout_hx (s : State) (m : Nat) (v : Dout) : (s.setDout m v).hx = s.hx := rfl
@[simp] theorem State.setDout_hxm (s : State) (m : Nat) (v : Dout) : (s.setDout m v).hxm = s.hxm := rfl
@[simp] theorem State.setDout_queues (s : State) (m : Nat) (v : Dout) : (s.setDout m v).queues = s.queues := rfl
@[simp] theorem State.setDout_engines (s : State) (m : Nat) (v : Dout) : (s.setDout m v).engines = s.engines := rfl
@[simp] theorem State.setDout_cyc (s : State) (m : Nat) (v : Dout) : (s.setDout m v).cyc = s.cyc := rfl
@[simp] theorem State.setDout_cfg (s : State) (m : Nat) (v : Dout) : (s.setDout m v).cfg = s.cfg := rfl
@[simp] theorem State.setDout_prog (s : State) (m : Nat) (v : Dout) : (s.setDout m v).prog = s.prog := rfl
@[simp] theorem State.setDout_tvl (s : State) (m : Nat) (v : Dout) : (s.setDout m v).tvl = s.tvl := rfl
@[simp] theorem State.setDout_gh (s : State) (m : Nat) (v : Dout) : (s.setDout m v).gh = s.gh := rfl
@[simp] theorem State.setDout_tmb (s : State) (m : Nat) (v : Dout) : (s.setDout m v).tmb = s.tmb := rfl
@[simp] theorem State.setDout_sup (s : State) (m : Nat) (v : Dout) : (s.setDout m v).sup = s.sup := rfl
@[simp] theorem State.setDout_rcd (s : State) (m : Nat) (v : Dout) : (s.setDout m v).rcd = s.rcd := rfl
@[simp] theorem State.setDout_pwr (s : State) (m : Nat) (v : Dout) : (s.setDout m v).pwr = s.pwr := rfl
@[simp] theorem State.setDout_eth (s : State) (m : Nat) (v : Dout) : (s.setDout m v).eth = s.eth := rfl
@[simp] theorem State.setDout_ixs (s : State) (m : Nat) (v : Dout) : (s.setDout m v).ixs = s.ixs := rfl
@[simp] theorem State.setDout_can (s : State) (m : Nat) (v : Dout) : (s.setDout m v).can = s.can := rfl
@[simp] theorem State.setDout_lrb (s : State) (m : Nat) (v : Dout) : (s.setDout m v).lrb = s.lrb := rfl
@[simp] theorem State.setDout_out (s : State) (m : Nat) (v : Dout) : (s.setDout m v).out = s.out := rfl
@[simp] theorem State.setDout_freeCtr (s : State) (m : Nat) (v : Dout) : (s.setDout m v).freeCtr = s.freeCtr := rfl
@[simp] theorem State.setDout_pending (s : State) (m : Nat) (v : Dout) : (s.setDout m v).pending = s.pending := rfl

@[simp] theorem State.zeroRegs_ident (s : State) (p : Nat → Bool) : (s.zeroRegs p).ident = s.ident := rfl
@[simp] theorem State.zeroRegs_clk (s : State) (p : Nat → Bool) : (s.zeroRegs p).clk = s.clk := rfl
@[simp] theorem State.zeroRegs_mem (s : State) (p : Nat → Bool) : (s.zeroRegs p).mem = s.mem := rfl
@[simp] theorem State.zeroRegs_poison (s : State) (p : Nat → Bool) : (s.zeroRegs p).poison = s.poison := rfl
@[simp] theorem State.zeroRegs_pairs (s : State) (p : Nat → Bool) : (s.zeroRegs p).pairs = s.pairs := rfl
@[simp] theorem State.zeroRegs_vdx (s : State) (p : Nat → Bool) : (s.zeroRegs p).vdx = s.vdx := rfl
@[simp] theorem State.zeroRegs_hx (s : State) (p : Nat → Bool) : (s.zeroRegs p).hx = s.hx := rfl
@[simp] theorem State.zeroRegs_hxm (s : State) (p : Nat → Bool) : (s.zeroRegs p).hxm = s.hxm := rfl
@[simp] theorem State.zeroRegs_queues (s : State) (p : Nat → Bool) : (s.zeroRegs p).queues = s.queues := rfl
@[simp] theorem State.zeroRegs_engines (s : State) (p : Nat → Bool) : (s.zeroRegs p).engines = s.engines := rfl
@[simp] theorem State.zeroRegs_cyc (s : State) (p : Nat → Bool) : (s.zeroRegs p).cyc = s.cyc := rfl
@[simp] theorem State.zeroRegs_cfg (s : State) (p : Nat → Bool) : (s.zeroRegs p).cfg = s.cfg := rfl
@[simp] theorem State.zeroRegs_prog (s : State) (p : Nat → Bool) : (s.zeroRegs p).prog = s.prog := rfl
@[simp] theorem State.zeroRegs_tvl (s : State) (p : Nat → Bool) : (s.zeroRegs p).tvl = s.tvl := rfl
@[simp] theorem State.zeroRegs_gh (s : State) (p : Nat → Bool) : (s.zeroRegs p).gh = s.gh := rfl
@[simp] theorem State.zeroRegs_tmb (s : State) (p : Nat → Bool) : (s.zeroRegs p).tmb = s.tmb := rfl
@[simp] theorem State.zeroRegs_sup (s : State) (p : Nat → Bool) : (s.zeroRegs p).sup = s.sup := rfl
@[simp] theorem State.zeroRegs_rcd (s : State) (p : Nat → Bool) : (s.zeroRegs p).rcd = s.rcd := rfl
@[simp] theorem State.zeroRegs_pwr (s : State) (p : Nat → Bool) : (s.zeroRegs p).pwr = s.pwr := rfl
@[simp] theorem State.zeroRegs_sio (s : State) (p : Nat → Bool) : (s.zeroRegs p).sio = s.sio := rfl
@[simp] theorem State.zeroRegs_eth (s : State) (p : Nat → Bool) : (s.zeroRegs p).eth = s.eth := rfl
@[simp] theorem State.zeroRegs_ixs (s : State) (p : Nat → Bool) : (s.zeroRegs p).ixs = s.ixs := rfl
@[simp] theorem State.zeroRegs_can (s : State) (p : Nat → Bool) : (s.zeroRegs p).can = s.can := rfl
@[simp] theorem State.zeroRegs_lrb (s : State) (p : Nat → Bool) : (s.zeroRegs p).lrb = s.lrb := rfl
@[simp] theorem State.zeroRegs_out (s : State) (p : Nat → Bool) : (s.zeroRegs p).out = s.out := rfl
@[simp] theorem State.zeroRegs_freeCtr (s : State) (p : Nat → Bool) : (s.zeroRegs p).freeCtr = s.freeCtr := rfl
@[simp] theorem State.zeroRegs_pending (s : State) (p : Nat → Bool) : (s.zeroRegs p).pending = s.pending := rfl

/-! ### Register fields -/

/-- A register after a register was written. -/
theorem State.reg_setReg (s : State) (o q : Nat) (v : Word) : (s.setReg o v).reg q = if q = o then v else s.reg q := by
  simp only [State.reg, State.setReg]
  exact tget_tput regReset s.regs o q v

/-- The written register reads as written. -/
@[simp] theorem State.reg_setReg_same (s : State) (o : Nat) (v : Word) : (s.setReg o v).reg o = v := by
  simp [State.reg_setReg]

/-- A register other than the written one reads as before. -/
theorem State.reg_setReg_other (s : State) (o q : Nat) (v : Word) (h : q ≠ o) : (s.setReg o v).reg q = s.reg q := by
  simp [State.reg_setReg, h]

/-- A register other than the written field's reads as before. -/
theorem State.reg_set_other (s : State) (f : Field) (q v : Nat) (h : q ≠ f.off) : (s.set f v).reg q = s.reg q := by
  unfold State.set
  exact s.reg_setReg_other _ _ _ h

/-- A field of another register reads as before. -/
theorem State.get_set_other (s : State) (f g : Field) (v : Nat) (h : g.off ≠ f.off) : (s.set f v).get g = s.get g := by
  simp only [State.get, s.reg_set_other f g.off v h]

/-- The mask of a field has exactly the bits of the field. -/
theorem getLsbD_fieldMask (lo w i : Nat) : (fieldMask lo w).getLsbD i = (decide (i < 32) && decide (lo ≤ i) && decide (i - lo < w)) := by
  simp only [fieldMask, BitVec.getLsbD_shiftLeft, BitVec.getLsbD_setWidth, BitVec.getLsbD_allOnes]
  by_cases h1 : i < 32 <;> by_cases h2 : i < lo <;> by_cases h3 : i - lo < w <;> simp [h1, h2, h3] <;> omega

/-- A field reads as the low bits of what was put into it. -/
theorem fieldGet_fieldSet_same (r : Word) (lo w v : Nat) (h : lo + w ≤ 32) : fieldGet (fieldSet r lo w v) lo w = v % 2 ^ w := by
  have e : (((fieldSet r lo w v) >>> lo).setWidth w) = BitVec.ofNat w v := by
    apply BitVec.eq_of_getLsbD_eq
    intro i hi
    simp only [fieldSet, BitVec.getLsbD_setWidth, BitVec.getLsbD_ushiftRight, BitVec.getLsbD_or, BitVec.getLsbD_and,
      BitVec.getLsbD_not, getLsbD_fieldMask, BitVec.getLsbD_shiftLeft]
    have h1 : lo + i < 32 := by omega
    simp [hi, h1]
    omega
  simp [fieldGet, e]

/-- A field beside the one written reads as before. -/
theorem fieldGet_fieldSet_other (r : Word) (lo w v lo' w' : Nat) (h : lo' + w' ≤ lo ∨ lo + w ≤ lo') :
    fieldGet (fieldSet r lo w v) lo' w' = fieldGet r lo' w' := by
  have e : ((fieldSet r lo w v) >>> lo').setWidth w' = (r >>> lo').setWidth w' := by
    apply BitVec.eq_of_getLsbD_eq
    intro i hi
    simp only [fieldSet, BitVec.getLsbD_setWidth, BitVec.getLsbD_ushiftRight, BitVec.getLsbD_or, BitVec.getLsbD_and,
      BitVec.getLsbD_not, getLsbD_fieldMask, BitVec.getLsbD_shiftLeft]
    by_cases h32 : lo' + i < 32
    · by_cases hlo : lo' + i < lo
      · have : ¬ lo ≤ lo' + i := by omega
        simp [hi, h32, hlo, this]
      · have h2 : ¬ lo' + i - lo < w := by omega
        have h4 : (BitVec.ofNat w v).getLsbD (lo' + i - lo) = false := BitVec.getLsbD_of_ge _ _ (by omega)
        simp [hi, h32, hlo, h2, h4]
    · simp [h32]
      intro _
      exact BitVec.getLsbD_of_ge _ _ (by omega)
  simp [fieldGet, e]

/-- The written field reads as written, cut to its width. -/
theorem State.get_set_same (s : State) (f : Field) (v : Nat) (h : f.lo + f.w ≤ 32) : (s.set f v).get f = v % 2 ^ f.w := by
  simp only [State.get, State.set, State.reg_setReg_same]
  exact fieldGet_fieldSet_same _ _ _ _ h

/-- Another field of the written register reads as before. -/
theorem State.get_set_beside (s : State) (f g : Field) (v : Nat) (h : g.lo + g.w ≤ f.lo ∨ f.lo + f.w ≤ g.lo) :
    (s.set f v).get g = s.get g := by
  by_cases ho : g.off = f.off
  · simp only [State.get, State.set, ho, State.reg_setReg_same]
    exact fieldGet_fieldSet_other _ _ _ _ _ _ h
  · exact s.get_set_other f g v ho

/-- Writing registers keeps their canonical form. -/
theorem State.setReg_wf (s : State) (o : Nat) (v : Word) (h : twf regReset s.regs = true) : twf regReset (s.setReg o v).regs = true := by
  simp only [State.setReg]
  exact twf_tput _ _ _ _ h

/-- Writing a register field keeps the canonical form. -/
theorem State.set_wf (s : State) (f : Field) (v : Nat) (h : twf regReset s.regs = true) : twf regReset (s.set f v).regs = true :=
  s.setReg_wf _ _ h

/-! ### Numbered groups -/

@[simp] theorem State.pair_setPair_same (s : State) (p : Nat) (v : Pair) : (s.setPair p v).pair p = v := by
  simp [State.pair, State.setPair]
theorem State.pair_setPair_other (s : State) (p q : Nat) (v : Pair) (h : q ≠ p) : (s.setPair p v).pair q = s.pair q := by
  simp [State.pair, State.setPair, h]
@[simp] theorem State.pair_modPair_same (s : State) (p : Nat) (f : Pair → Pair) : (s.modPair p f).pair p = f (s.pair p) := by
  simp [State.modPair]
theorem State.pair_modPair_other (s : State) (p q : Nat) (f : Pair → Pair) (h : q ≠ p) : (s.modPair p f).pair q = s.pair q := by
  simp [State.modPair, State.pair_setPair_other, h]
@[simp] theorem State.eng_setEng_same (s : State) (e : Nat) (v : Engine) : (s.setEng e v).eng e = v := by
  simp [State.eng, State.setEng]
theorem State.eng_setEng_other (s : State) (e q : Nat) (v : Engine) (h : q ≠ e) : (s.setEng e v).eng q = s.eng q := by
  simp [State.eng, State.setEng, h]
@[simp] theorem State.task_setTask_same (s : State) (t : Nat) (v : TaskSt) : (s.setTask t v).task t = v := by
  simp [State.task, State.setTask]
@[simp] theorem State.unit_setUnit_same (s : State) (u : Nat) (v : UnitSt) : (s.setUnit u v).unit u = v := by
  simp [State.unit, State.setUnit]
@[simp] theorem State.grp_setGrp_same (s : State) (g : Nat) (v : GroupSt) : (s.setGrp g v).grp g = v := by
  simp [State.grp, State.setGrp]
@[simp] theorem State.queue_setQueue_same (s : State) (b : Nat) (v : QSt) : (s.setQueue b v).queue b = v := by
  simp [State.queue, State.setQueue]
@[simp] theorem State.dout_setDout_same (s : State) (m : Nat) (v : Dout) : (s.setDout m v).dout m = v := by
  simp [State.dout, State.setDout]
@[simp] theorem State.source_setSource_same (s : State) (k : Nat) (v : Source) : (s.setSource k v).source k = v := by
  simp [State.source, State.setSource]

end Sys2Proof.Machine
end

