-- ==== Sys2Proof/Laws/Ops.lean ====
section
/-!
SUPPORT. What the shared operations can do, said once each: the parts of State that they may change (every other part is as before), the
instant that the clock reaches, and that they keep the canonical forms.
-/
namespace Sys2Proof.Machine

/-! ### Which parts an operation touches -/

/-- `t` is `s` but for registers and the dispatcher. -/
def TouchesSources (s t : State) : Prop := ∃ r v, t = { s with regs := r, vdx := v }

/-- `t` is `s` but for registers and the local outputs. -/
def TouchesOutputs (s t : State) : Prop := ∃ r o, t = { s with regs := r, sio := o }

/-- `t` is `s` but for the pairs. -/
def TouchesPairs (s t : State) : Prop := ∃ p, t = { s with pairs := p }

/-- `t` is `s` at another instant: the clock, the pairs' counters, the dispatcher's pulses and the switches of outputs follow it. -/
def MovesTo (s t : State) : Prop :=
  ∃ c r p v o, t = { s with clk := { s.clk with t := c }, regs := r, pairs := p, vdx := v, sio := o }

theorem TouchesSources.refl (s : State) : TouchesSources s s := ⟨_, _, rfl⟩
theorem TouchesOutputs.refl (s : State) : TouchesOutputs s s := ⟨_, _, rfl⟩
theorem TouchesPairs.refl (s : State) : TouchesPairs s s := ⟨_, rfl⟩

theorem TouchesSources.trans {s t u : State} (h : TouchesSources s t) (k : TouchesSources t u) : TouchesSources s u := by
  obtain ⟨_, _, rfl⟩ := h
  obtain ⟨r, v, rfl⟩ := k
  exact ⟨r, v, rfl⟩
theorem TouchesOutputs.trans {s t u : State} (h : TouchesOutputs s t) (k : TouchesOutputs t u) : TouchesOutputs s u := by
  obtain ⟨_, _, rfl⟩ := h
  obtain ⟨r, v, rfl⟩ := k
  exact ⟨r, v, rfl⟩
theorem TouchesPairs.trans {s t u : State} (h : TouchesPairs s t) (k : TouchesPairs t u) : TouchesPairs s u := by
  obtain ⟨_, rfl⟩ := h
  obtain ⟨p, rfl⟩ := k
  exact ⟨p, rfl⟩

/-- A relation that every step of a fold keeps holds of the whole fold. -/
theorem foldl_rel {α β : Type} {R : α → α → Prop} (refl : ∀ a, R a a) (trans : ∀ {a b c}, R a b → R b c → R a c) (f : α → β → α)
    (h : ∀ a b, R a (f a b)) (l : List β) (a : α) : R a (l.foldl f a) := by
  induction l generalizing a with
  | nil => exact refl a
  | cons b l ih => exact trans (h a b) (ih (f a b))

/-- A property that every step of a fold keeps holds after it. -/
theorem foldl_keeps {α β : Type} (P : α → Prop) (f : α → β → α) (h : ∀ a b, P a → P (f a b)) (l : List β) (a : α) (ha : P a) :
    P (l.foldl f a) := by
  induction l generalizing a with
  | nil => exact ha
  | cons b l ih => exact ih _ (h a b ha)

theorem State.set_sources (s : State) (f : Field) (v : Nat) : TouchesSources s (s.set f v) := ⟨_, _, rfl⟩
theorem State.set_outputs (s : State) (f : Field) (v : Nat) : TouchesOutputs s (s.set f v) := ⟨_, _, rfl⟩

theorem State.arrive_sources (s : State) (n : Nat) : TouchesSources s (s.arrive n) := by
  unfold State.arrive
  dsimp only
  split
  · split <;> exact ⟨_, _, rfl⟩
  · exact ⟨_, _, rfl⟩
  · split <;> exact ⟨_, _, rfl⟩

/-- Raising a source touches registers and the dispatcher alone. -/
theorem State.raise_sources (s : State) (n : Nat) : TouchesSources s (s.raise n) := by
  unfold State.raise
  dsimp only
  split
  · exact .refl s
  · have h : TouchesSources s (match evtField n with | some f => s.set f 1 | none => s) := by
      cases evtField n with
      | none => exact .refl s
      | some f => exact s.set_sources f 1
    exact h.trans ((State.arrive_sources _ n).trans ((State.set_sources _ (F.VDX_SRCSTAT_LINE n) 1).trans ⟨_, _, rfl⟩))

theorem State.lineFalls_sources (s : State) (n : Nat) : TouchesSources s (s.lineFalls n) := by
  unfold State.lineFalls
  dsimp only
  split
  · exact .refl s
  · split
    · split
      · exact ((s.set_sources _ _).trans (State.set_sources _ _ _)).trans (State.set_sources _ _ _)
      · exact (s.set_sources _ _).trans (State.set_sources _ _ _)
    · exact s.set_sources _ _

theorem State.dropPulses_sources (s : State) : TouchesSources s s.dropPulses := by
  unfold State.dropPulses
  exact TouchesSources.trans (t := { s with vdx := { s.vdx with pulses := s.vdx.pulses.filter (fun c => ¬ c.2 < s.fab) } }) ⟨_, _, rfl⟩
    (foldl_rel (R := TouchesSources) .refl .trans _ (fun (a : State) (c : Nat × Nat) => a.lineFalls_sources c.1) _ _)

theorem State.doView_outputs (s : State) (m : Nat) : TouchesOutputs s (s.doView m) := by
  unfold State.doView
  exact TouchesOutputs.trans (t := s.setDout m _) ⟨_, _, rfl⟩ ((State.set_outputs _ _ _).trans (State.set_outputs _ _ _))

theorem State.runSwitches_outputs (s : State) : TouchesOutputs s s.runSwitches := by
  unfold State.runSwitches
  refine foldl_rel (R := TouchesOutputs) .refl .trans _ (fun a m => ?_) _ _
  dsimp only
  split
  · split
    · exact TouchesOutputs.trans (t := a.setDout m _) ⟨_, _, rfl⟩ (State.doView_outputs _ m)
    · exact .refl a
  · exact .refl a

theorem State.modPair_pairs (s : State) (p : Nat) (f : Pair → Pair) : TouchesPairs s (s.modPair p f) := ⟨_, rfl⟩

theorem State.countCycles_pairs (s : State) (dt : Nat) : TouchesPairs s (s.countCycles dt) := by
  unfold State.countCycles
  split
  · exact .refl s
  · refine foldl_rel (R := TouchesPairs) .refl .trans _ (fun a p => ?_) _ _
    split
    · exact a.modPair_pairs _ _
    · exact .refl a

/-- Ending reservations touches the pairs alone. -/
theorem State.unreserve_pairs (s : State) (but a n : Nat) : TouchesPairs s (s.unreserve but a n) := by
  unfold State.unreserve
  refine foldl_rel (R := TouchesPairs) .refl .trans _ (fun b p => ?_) _ _
  split
  · split
    · exact b.modPair_pairs _ _
    · exact .refl b
  · exact .refl b

/-- What moving the clock can change; the clock reaches the instant, and never moves back. -/
theorem State.advance_moves (s : State) (t : Nat) : MovesTo s (s.advance t) ∧ (s.advance t).clk.t = max s.clk.t t := by
  unfold State.advance
  split
  · exact ⟨⟨_, _, _, _, _, rfl⟩, by omega⟩
  · obtain ⟨p, a⟩ := State.countCycles_pairs s (t - s.clk.t)
    rw [a]
    obtain ⟨r, v, b⟩ := State.dropPulses_sources { s with clk := { s.clk with t := t }, pairs := p }
    rw [b]
    obtain ⟨r', o, c⟩ := State.runSwitches_outputs { s with clk := { s.clk with t := t }, pairs := p, regs := r, vdx := v }
    rw [c]
    exact ⟨⟨t, r', p, v, o, rfl⟩, by simp only; omega⟩

theorem State.wait_moves (s : State) (dt : Nat) : MovesTo s (s.wait dt) ∧ (s.wait dt).clk.t = s.clk.t + dt := by
  have h := s.advance_moves (s.clk.t + dt)
  exact ⟨h.1, by unfold State.wait; rw [h.2]; omega⟩

/-- Everything but the clock, registers, pairs, dispatcher and local outputs is the same after the clock has moved. -/
theorem MovesTo.same {s t : State} (h : MovesTo s t) : t.ident = s.ident ∧ t.mem = s.mem ∧ t.poison = s.poison ∧ t.hx = s.hx ∧ t.hxm = s.hxm ∧
    t.queues = s.queues ∧ t.engines = s.engines ∧ t.cyc = s.cyc ∧ t.cfg = s.cfg ∧ t.prog = s.prog ∧ t.tvl = s.tvl ∧ t.gh = s.gh ∧ t.tmb = s.tmb ∧
    t.sup = s.sup ∧ t.rcd = s.rcd ∧ t.pwr = s.pwr ∧ t.eth = s.eth ∧ t.ixs = s.ixs ∧ t.can = s.can ∧ t.lrb = s.lrb ∧ t.out = s.out ∧
    t.freeCtr = s.freeCtr ∧ t.pending = s.pending := by
  obtain ⟨_, _, _, _, _, rfl⟩ := h
  exact ⟨rfl, rfl, rfl, rfl, rfl, rfl, rfl, rfl, rfl, rfl, rfl, rfl, rfl, rfl, rfl, rfl, rfl, rfl, rfl, rfl, rfl, rfl, rfl⟩

/-! ### Canonical form -/

/-- A change of no memory and no register keeps the canonical forms. -/
theorem State.Canonical.of_eq {s t : State} (h : s.Canonical) (m : t.mem = s.mem) (r : t.regs = s.regs) : t.Canonical := by
  unfold State.Canonical at *
  rw [m, r]
  exact h

theorem State.Canonical.set {s : State} (h : s.Canonical) (f : Field) (v : Nat) : (s.set f v).Canonical := ⟨h.1, State.set_wf s f v h.2⟩
theorem State.Canonical.setReg {s : State} (h : s.Canonical) (o : Nat) (v : Word) : (s.setReg o v).Canonical := ⟨h.1, State.setReg_wf s o v h.2⟩
theorem State.Canonical.incBy {s : State} (h : s.Canonical) (f : Field) (k : Nat) : (s.incBy f k).Canonical := h.set f _
theorem State.Canonical.inc {s : State} (h : s.Canonical) (f : Field) : (s.inc f).Canonical := h.set f _
theorem State.Canonical.wrBytes {s : State} (h : s.Canonical) (a : Nat) (l : List Byte) : (s.wrBytes a l).Canonical := ⟨State.wrBytes_wf s a l h.1, h.2⟩
theorem State.Canonical.wrLe {s : State} (h : s.Canonical) (a n v : Nat) : (s.wrLe a n v).Canonical := h.wrBytes _ _
theorem State.Canonical.wr8 {s : State} (h : s.Canonical) (a : Nat) (v : Byte) : (s.wr8 a v).Canonical := ⟨State.wr8_wf s a v h.1, h.2⟩
theorem State.Canonical.setStamp {s : State} (h : s.Canonical) (n st : Nat) : (s.setStamp n st).Canonical := (h.set _ _).set _ _

theorem State.Canonical.zeroRegs {s : State} (h : s.Canonical) (p : Nat → Bool) : (s.zeroRegs p).Canonical :=
  ⟨h.1, twf_filter _ _ _ h.2⟩

theorem State.Canonical.arrive {s : State} (h : s.Canonical) (n : Nat) : (s.arrive n).Canonical := by
  unfold State.arrive
  have k := (h.setStamp n s.stamp).inc (F.VDX_SRCSTAT_COUNT n)
  generalize (s.setStamp n s.stamp).inc (F.VDX_SRCSTAT_COUNT n) = u at k
  have k' : State.Canonical { u with vdx := { u.vdx with arrived := tput noneD u.vdx.arrived n (some u.fab) } } := k.of_eq rfl rfl
  dsimp only
  split
  · split
    · exact k'
    · exact k'.set _ _
  · exact k'.set _ _
  · split
    · exact k'
    · exact (k'.set _ _).of_eq rfl rfl

theorem State.Canonical.raise {s : State} (h : s.Canonical) (n : Nat) : (s.raise n).Canonical := by
  unfold State.raise
  dsimp only
  split
  · exact h
  · have k : (match evtField n with | some f => s.set f 1 | none => s).Canonical := by
      cases evtField n with
      | none => exact h
      | some f => exact h.set f 1
    exact ((k.arrive n).set (F.VDX_SRCSTAT_LINE n) 1).of_eq rfl rfl

theorem State.Canonical.lineFalls {s : State} (h : s.Canonical) (n : Nat) : (s.lineFalls n).Canonical := by
  unfold State.lineFalls
  dsimp only
  split
  · exact h
  · split
    · split
      · exact ((h.set _ _).set _ _).set _ _
      · exact (h.set _ _).set _ _
    · exact h.set _ _

theorem State.Canonical.dropPulses {s : State} (h : s.Canonical) : s.dropPulses.Canonical :=
  foldl_keeps State.Canonical _ (fun _ c k => k.lineFalls c.1) _ _ (h.of_eq rfl rfl)

theorem State.Canonical.doView {s : State} (h : s.Canonical) (m : Nat) : (s.doView m).Canonical :=
  ((State.Canonical.of_eq h rfl rfl : (s.setDout m _).Canonical).set _ _).set _ _

theorem State.Canonical.runSwitches {s : State} (h : s.Canonical) : s.runSwitches.Canonical := by
  unfold State.runSwitches
  refine foldl_keeps State.Canonical _ (fun a m k => ?_) _ _ h
  dsimp only
  split
  · split
    · exact (State.Canonical.of_eq k rfl rfl : (a.setDout m _).Canonical).doView m
    · exact k
  · exact k

/-- Moving the clock keeps the canonical forms. -/
theorem State.Canonical.advance {s : State} (h : s.Canonical) (t : Nat) : (s.advance t).Canonical := by
  unfold State.advance
  split
  · exact h
  · refine State.Canonical.runSwitches (State.Canonical.dropPulses ?_)
    obtain ⟨p, a⟩ := State.countCycles_pairs s (t - s.clk.t)
    rw [a]
    exact h.of_eq rfl rfl

theorem State.Canonical.wait {s : State} (h : s.Canonical) (dt : Nat) : (s.wait dt).Canonical := h.advance _

theorem State.Canonical.unreserve {s : State} (h : s.Canonical) (but a n : Nat) : (s.unreserve but a n).Canonical := by
  obtain ⟨p, k⟩ := State.unreserve_pairs s but a n
  rw [k]
  exact h.of_eq rfl rfl

theorem State.Canonical.presNew {s : State} (h : s.Canonical) (kind id : Nat) : (s.presNew kind id).Canonical := by
  unfold State.presNew
  split
  · split
    · dsimp only
      split
      · exact (h.set _ _).set _ _
      · exact h.set _ _
    · exact h
  · exact h

end Sys2Proof.Machine
end

