-- ==== Sys2Proof/Laws/Le.lean ====
section
/-!
SUPPORT. What the frame of an engine instruction does once it issues: its body runs on the state of its issue, and what the body leaves is
what the step leaves but for pc, cost and depth fields.
-/
namespace Sys2Proof.Machine
open Sys2Proof.Claims

/-- A word that issues runs its body on the state of its issue and then pays its cost. -/
theorem leRun_eq (s : State) (e opc : Nat) (o : Opnd) (c : Nat) (f : State → LeOut) (h : LeIssues s e opc o) :
    s.leRun e opc o c f = State.leFinish e (c + b2n o.indexed) (f (leNow s e)) := by
  obtain ⟨h1, h2, h3, h4⟩ := h
  simp [State.leRun, h1, h2, h3, h4, leNow]

theorem get_leDepths_la (s : State) (e : Nat) : (s.leDepths e).la e = s.la e := by
  simp only [State.la, State.flag, State.leDepths]
  rw [State.get_set_beside, State.get_set_beside]
  · simp [F.LE_STAT_LA, F.LE_STAT_BS_DEPTH]
  · simp [F.LE_STAT_LA, F.LE_STAT_CALL_DEPTH]

@[simp] theorem leDepths_engines (s : State) (e : Nat) : (s.leDepths e).engines = s.engines := by simp [State.leDepths]

theorem get_leDepths_state (s : State) (e : Nat) : (s.leDepths e).get (F.LE_STAT_STATE e) = s.get (F.LE_STAT_STATE e) := by
  simp only [State.leDepths]
  rw [State.get_set_beside, State.get_set_beside]
  · simp [F.LE_STAT_STATE, F.LE_STAT_BS_DEPTH]
  · simp [F.LE_STAT_STATE, F.LE_STAT_CALL_DEPTH]

/-- LA reads as written. -/
theorem la_setLa (s : State) (e : Nat) (v : Bool) : (s.setLa e v).la e = v := by
  simp only [State.la, State.flag, State.setLa]
  rw [State.get_set_same _ _ _ (by simp [F.LE_STAT_LA])]
  cases v <;> simp [b2n, F.LE_STAT_LA]

theorem la_congr (s t : State) (e : Nat) (h : t.regs = s.regs) : t.la e = s.la e := by
  simp [State.la, State.flag, State.get, State.reg, h]

theorem eng_congr (s t : State) (e : Nat) (h : t.engines = s.engines) : t.eng e = s.eng e := by
  simp [State.eng, h]

/-- What an instruction that goes on with the next word leaves, from what its body leaves. -/
theorem leFinish_next (s u : State) (e cost : Nat) (g : Engine) (la : Bool)
    (hla : u.la e = la) (hg : u.eng e = g) (hc : g.cost = (s.eng e).cost) (hpc : g.pc = (s.eng e).pc)
    (hr : RegsBut s u [(F.LE_STAT_LA e).off]) (hst : u.get (F.LE_STAT_STATE e) = s.get (F.LE_STAT_STATE e))
    (hb : EnginesBut s u e)
    (hu : u = { s with regs := u.regs, engines := u.engines }) :
    LeNext s (State.leFinish e cost (.next u)) e cost la g := by
  subst hg
  refine ⟨?_, ?_, ?_, ?_, ?_, ?_⟩
  · simp only [State.leFinish]; rw [get_leDepths_la]; exact hla
  · simp only [State.leFinish]
    rw [eng_congr _ _ _ (leDepths_engines _ _)]
    simp [State.eng_setEng_same, hc, hpc]
  · intro k hk
    simp only [State.leFinish]
    rw [← hb k hk, eng_congr _ _ _ (leDepths_engines _ _), State.eng_setEng_other _ _ _ _ hk]
  · intro q hq
    have hq' : q ≠ 0x40000 + e * 0x8000 := by simpa [F.LE_STAT_LA] using hq
    simp only [State.leFinish, State.leDepths]
    rw [State.reg_set_other _ _ _ _ (by simpa [F.LE_STAT_CALL_DEPTH] using hq'), State.reg_set_other _ _ _ _ (by simpa [F.LE_STAT_BS_DEPTH] using hq')]
    exact hr q hq
  · simp only [State.leFinish]; rw [get_leDepths_state]; exact hst
  · simp only [State.leFinish, State.leDepths, State.set, State.setReg, State.setEng]
    rw [hu]

/-- An instruction that sets LA alone. -/
theorem setLa_next (s : State) (e cost : Nat) (v : Bool) :
    LeNext s (State.leFinish e cost (.next (s.setLa e v))) e cost v (s.eng e) := by
  apply leFinish_next
  · exact la_setLa s e v
  · simp [State.setLa, State.eng]
  · rfl
  · rfl
  · intro q hq
    exact State.reg_set_other _ _ _ _ (by simpa [F.LE_STAT_LA] using hq)
  · simp only [State.setLa]
    exact State.get_set_beside _ _ _ _ (by simp [F.LE_STAT_LA, F.LE_STAT_STATE])
  · intro k _; simp [State.setLa, State.eng]
  · simp [State.setLa, State.set, State.setReg]

/-- A bit operand that can be read is given to the body. -/
theorem leBit_eq (s : State) (e : Nat) (o : Opnd) (b : Bool) (k : Bool → LeOut) (h : LeBitIs s e o b) : s.leBit e o k = k b := by
  rcases h with ⟨h1, h2⟩ | ⟨h1, ⟨h2, h3⟩, h4⟩
  · simp [State.leBit, h1, h2]
  · simp [State.leBit, State.leAt, h1, h2, h3, h4]

/-- A word operand that can be read is given to the body. -/
theorem leWordOp_eq (s : State) (e : Nat) (o : Opnd) (w : Word) (k : Word → LeOut) (h : LeWordIs s e o w) : s.leWordOp e o k = k w := by
  rcases h with ⟨h1, h2⟩ | ⟨h1, ⟨h2, h3⟩, h4⟩
  · simp [State.leWordOp, h1, h2]
  · simp [State.leWordOp, State.leAt, h1, h2, h3, h4]

/-- An instruction that changes its engine alone. -/
theorem setEng_next (s : State) (e cost : Nat) (g : Engine) (hc : g.cost = (s.eng e).cost) (hp : g.pc = (s.eng e).pc) :
    LeNext s (State.leFinish e cost (.next (s.setEng e g))) e cost (s.la e) g :=
  leFinish_next _ _ _ _ _ _ rfl (by simp) hc hp (fun _ _ => rfl) rfl (fun k hk => State.eng_setEng_other _ _ _ _ hk) rfl

/-- An instruction that changes its engine and LA. -/
theorem setEngLa_next (s : State) (e cost : Nat) (g : Engine) (v : Bool) (hc : g.cost = (s.eng e).cost) (hp : g.pc = (s.eng e).pc) :
    LeNext s (State.leFinish e cost (.next ((s.setEng e g).setLa e v))) e cost v g := by
  apply leFinish_next
  · exact la_setLa _ _ _
  · rw [eng_congr (s.setEng e g) _ _ (by simp [State.setLa])]; simp
  · exact hc
  · exact hp
  · intro q hq
    exact State.reg_set_other _ _ _ _ (by simpa [F.LE_STAT_LA] using hq)
  · simp only [State.setLa]
    exact State.get_set_beside _ _ _ _ (by simp [F.LE_STAT_LA, F.LE_STAT_STATE])
  · intro k hk
    rw [eng_congr (s.setEng e g) _ _ (by simp [State.setLa])]
    exact State.eng_setEng_other _ _ _ _ hk
  · simp [State.setLa, State.set, State.setReg, State.setEng]

/-- What an instruction that goes on at a word address leaves. -/
theorem leFinish_goto (s u : State) (e cost pc : Nat) (g : Engine)
    (hg : u.eng e = g) (hc : g.cost = (s.eng e).cost) (hr : u.regs = s.regs)
    (hb : EnginesBut s u e)
    (hu : u = { s with engines := u.engines }) :
    LeAt s (State.leFinish e cost (.goto u pc)) e cost pc (s.la e) g := by
  subst hg
  refine ⟨?_, ?_, ?_, ?_, ?_, ?_⟩
  · simp only [State.leFinish]; rw [get_leDepths_la]; exact la_congr _ _ _ hr
  · simp only [State.leFinish]
    rw [eng_congr _ _ _ (leDepths_engines _ _)]
    simp [State.eng_setEng_same, hc]
  · intro k hk
    simp only [State.leFinish]
    rw [← hb k hk, eng_congr _ _ _ (leDepths_engines _ _), State.eng_setEng_other _ _ _ _ hk]
  · intro q hq
    have hq' : q ≠ 0x40000 + e * 0x8000 := by simpa [F.LE_STAT_LA] using hq
    simp only [State.leFinish, State.leDepths]
    rw [State.reg_set_other _ _ _ _ (by simpa [F.LE_STAT_CALL_DEPTH] using hq'), State.reg_set_other _ _ _ _ (by simpa [F.LE_STAT_BS_DEPTH] using hq')]
    show (u.reg q) = _
    simp [State.reg, hr]
  · simp only [State.leFinish]; rw [get_leDepths_state]; simp [State.get, State.reg, hr]
  · simp only [State.leFinish, State.leDepths, State.set, State.setReg, State.setEng]
    rw [hu]

end Sys2Proof.Machine
end

