-- ==== Sys2Proof/Laws/PerInstr.lean ====
section
/-!
SUPPORT. One lemma per command on its fields: the row of an engine instruction is the one that its opcode names (R178); every other
command is no engine instruction.
-/
namespace Sys2Proof.Laws

/-- A command that is an engine instruction has an opcode of six bits, and its opcode and operand give it back. -/
def Fields.Statement (i : Instr) : Prop :=
  ∀ (opc : Nat) (e : Fin 2) (f : LeForm) (o : Opnd), i.le = some (opc, e, f, o) → opc < 64 ∧ leByOpc e o opc = some i

/-- A command without a row of the engine's table. -/
theorem Fields.of_none {i : Instr} (h : i.le = none) : Fields.Statement i := by
  intro opc e f o h'
  rw [h] at h'
  cases h'

theorem Fields.gheifCycleStart : Fields.Statement (.gheifCycleStart) := Fields.of_none rfl
theorem Fields.freeze (g : Fin 4) : Fields.Statement (.freeze g) := Fields.of_none rfl
theorem Fields.agrPub (g : Fin 4) : Fields.Statement (.agrPub g) := Fields.of_none rfl
theorem Fields.outLatch (g : Fin 4) : Fields.Statement (.outLatch g) := Fields.of_none rfl
theorem Fields.outGo (g : Fin 4) : Fields.Statement (.outGo g) := Fields.of_none rfl
theorem Fields.ungateRequest (p : Fin 4) : Fields.Statement (.ungateRequest p) := Fields.of_none rfl
theorem Fields.pllRestartRequest (p : Fin 4) : Fields.Statement (.pllRestartRequest p) := Fields.of_none rfl
theorem Fields.arbitrationWindow (measured : Nat) (settled : List (Nat × Nat)) : Fields.Statement (.arbitrationWindow measured settled) := Fields.of_none rfl
theorem Fields.pllLocked (p : Fin 4) : Fields.Statement (.pllLocked p) := Fields.of_none rfl
theorem Fields.exceptionTrap (p : Fin 4) (cause : Fin 16) (tval : DWord) : Fields.Statement (.exceptionTrap p cause tval) := Fields.of_none rfl
theorem Fields.vectorEntry (p : Fin 4) : Fields.Statement (.vectorEntry p) := Fields.of_none rfl
theorem Fields.bankSwitch (p : Fin 4) : Fields.Statement (.bankSwitch p) := Fields.of_none rfl
theorem Fields.wfi (p : Fin 4) : Fields.Statement (.wfi p) := Fields.of_none rfl
theorem Fields.mret (p : Fin 4) : Fields.Statement (.mret p) := Fields.of_none rfl
theorem Fields.ebreak (p : Fin 4) : Fields.Statement (.ebreak p) := Fields.of_none rfl
theorem Fields.triggerHit (p : Fin 4) : Fields.Statement (.triggerHit p) := Fields.of_none rfl
theorem Fields.bankdatWrite (p : Fin 4) (v : DWord) : Fields.Statement (.bankdatWrite p v) := Fields.of_none rfl
theorem Fields.vbaseWrite (p : Fin 4) (v : DWord) : Fields.Statement (.vbaseWrite p v) := Fields.of_none rfl
theorem Fields.plxFenceDev (p : Fin 4) : Fields.Statement (.plxFenceDev p) := Fields.of_none rfl
theorem Fields.plxFenceQ (p : Fin 4) : Fields.Statement (.plxFenceQ p) := Fields.of_none rfl
theorem Fields.plxFenceLe (p : Fin 4) : Fields.Statement (.plxFenceLe p) := Fields.of_none rfl
theorem Fields.plxFenceHx (p : Fin 4) : Fields.Statement (.plxFenceHx p) := Fields.of_none rfl
theorem Fields.fenceComplete (p : Fin 4) : Fields.Statement (.fenceComplete p) := Fields.of_none rfl
theorem Fields.pairMismatch (p : Fin 4) (grp : Fin 7) (lane : Nat) (lead trail : Word) : Fields.Statement (.pairMismatch p grp lane lead trail) := Fields.of_none rfl
theorem Fields.cmpSelftest (p : Fin 4) : Fields.Statement (.cmpSelftest p) := Fields.of_none rfl
theorem Fields.cmpTestOverdue (u : Fin 6) : Fields.Statement (.cmpTestOverdue u) := Fields.of_none rfl
theorem Fields.sourceQualified (li : Fin 8) (level : Bool) : Fields.Statement (.sourceQualified li level) := Fields.of_none rfl
theorem Fields.vectorCommit (p : Fin 4) : Fields.Statement (.vectorCommit p) := Fields.of_none rfl
theorem Fields.vdxComplete (p : Fin 4) (v : Word) : Fields.Statement (.vdxComplete p v) := Fields.of_none rfl
theorem Fields.vdxSwtrig (v : Word) : Fields.Statement (.vdxSwtrig v) := Fields.of_none rfl
theorem Fields.vdxSrccfgWrite (n : Fin 512) (v : Word) : Fields.Statement (.vdxSrccfgWrite n v) := Fields.of_none rfl
theorem Fields.vdxMaskWrite (n : Fin 16) (v : Word) : Fields.Statement (.vdxMaskWrite n v) := Fields.of_none rfl
theorem Fields.cntClr (n : Fin 512) : Fields.Statement (.cntClr n) := Fields.of_none rfl
theorem Fields.vdxStrayClr (p : Fin 4) : Fields.Statement (.vdxStrayClr p) := Fields.of_none rfl
theorem Fields.vdxDiagClr : Fields.Statement (.vdxDiagClr) := Fields.of_none rfl
theorem Fields.windowStart (w : Nat) : Fields.Statement (.windowStart w) := Fields.of_none rfl
theorem Fields.preloadStart (p : Fin 4) : Fields.Statement (.preloadStart p) := Fields.of_none rfl
theorem Fields.preloadDone (p : Fin 4) : Fields.Statement (.preloadDone p) := Fields.of_none rfl
theorem Fields.saveDone (p : Fin 4) (b : Fin 4) : Fields.Statement (.saveDone p b) := Fields.of_none rfl
theorem Fields.done (p : Fin 4) : Fields.Statement (.done p) := Fields.of_none rfl
theorem Fields.yield (p : Fin 4) : Fields.Statement (.yield p) := Fields.of_none rfl
theorem Fields.cycleInfo (p : Fin 4) : Fields.Statement (.cycleInfo p) := Fields.of_none rfl
theorem Fields.budgetEnd (u : Fin 6) : Fields.Statement (.budgetEnd u) := Fields.of_none rfl
theorem Fields.abort (writer p : Fin 4) : Fields.Statement (.abort writer p) := Fields.of_none rfl
theorem Fields.bankRel (writer p : Fin 4) : Fields.Statement (.bankRel writer p) := Fields.of_none rfl
theorem Fields.hxIdleWrite (p : Fin 4) (v : Word) : Fields.Statement (.hxIdleWrite p v) := Fields.of_none rfl
theorem Fields.hxTaskstatClr (t : Fin 1024) : Fields.Statement (.hxTaskstatClr t) := Fields.of_none rfl
theorem Fields.slackQuantumEnd (p : Fin 4) : Fields.Statement (.slackQuantumEnd p) := Fields.of_none rfl
theorem Fields.schedSwitch : Fields.Statement (.schedSwitch) := Fields.of_none rfl
theorem Fields.stagingRequest (w : Nat) : Fields.Statement (.stagingRequest w) := Fields.of_none rfl
theorem Fields.pageTransferDone : Fields.Statement (.pageTransferDone) := Fields.of_none rfl
theorem Fields.stageMiss (p : Fin 4) (va : Nat) : Fields.Statement (.stageMiss p va) := Fields.of_none rfl
theorem Fields.wsetViolation (p : Fin 4) (va : Nat) : Fields.Statement (.wsetViolation p va) := Fields.of_none rfl
theorem Fields.demandFill (p : Fin 4) (va : Nat) : Fields.Statement (.demandFill p va) := Fields.of_none rfl
theorem Fields.pageAlloc (p : Fin 4) : Fields.Statement (.pageAlloc p) := Fields.of_none rfl
theorem Fields.pageFree (p : Fin 4) : Fields.Statement (.pageFree p) := Fields.of_none rfl
theorem Fields.pagePrefetch (p : Fin 4) : Fields.Statement (.pagePrefetch p) := Fields.of_none rfl
theorem Fields.pageFlush (p : Fin 4) : Fields.Statement (.pageFlush p) := Fields.of_none rfl
theorem Fields.memInfo (p : Fin 4) : Fields.Statement (.memInfo p) := Fields.of_none rfl
theorem Fields.pageOpComplete (part : Fin 256) : Fields.Statement (.pageOpComplete part) := Fields.of_none rfl
theorem Fields.scrubPass (m : Fin 5) (errs : List LineErr) : Fields.Statement (.scrubPass m errs) := Fields.of_none rfl
theorem Fields.memUncorr (m : Fin 6) (addr : Nat) (r : LineRead) : Fields.Statement (.memUncorr m addr r) := Fields.of_none rfl
theorem Fields.commit (who : Nat) (q : Fin 64) (w : TailWrite) : Fields.Statement (.commit who q w) := Fields.of_none rfl
theorem Fields.release (who : Nat) (q : Fin 64) : Fields.Statement (.release who q) := Fields.of_none rfl
theorem Fields.queueItemVerified (q : Fin 76) : Fields.Statement (.queueItemVerified q) := Fields.of_none rfl
theorem Fields.creditReturn (q : Fin 76) : Fields.Statement (.creditReturn q) := Fields.of_none rfl
theorem Fields.queuePtrErr (q : Fin 76) (a b : Nat) : Fields.Statement (.queuePtrErr q a b) := Fields.of_none rfl
theorem Fields.hxqCntClr (q : Fin 64) : Fields.Statement (.hxqCntClr q) := Fields.of_none rfl
theorem Fields.hxmMemerrClr : Fields.Statement (.hxmMemerrClr) := Fields.of_none rfl
theorem Fields.hxmPartSramClr (part : Fin 256) : Fields.Statement (.hxmPartSramClr part) := Fields.of_none rfl
theorem Fields.leNop (e : Fin 2) : Fields.Statement (.leNop e) := by
  intro _ _ _ _ h
  cases h
  exact ⟨by decide, rfl⟩
theorem Fields.leLd (e : Fin 2) (o : Opnd) : Fields.Statement (.leLd e o) := by
  intro _ _ _ _ h
  cases h
  exact ⟨by decide, rfl⟩
theorem Fields.leLdn (e : Fin 2) (o : Opnd) : Fields.Statement (.leLdn e o) := by
  intro _ _ _ _ h
  cases h
  exact ⟨by decide, rfl⟩
theorem Fields.leSt (e : Fin 2) (o : Opnd) : Fields.Statement (.leSt e o) := by
  intro _ _ _ _ h
  cases h
  exact ⟨by decide, rfl⟩
theorem Fields.leStn (e : Fin 2) (o : Opnd) : Fields.Statement (.leStn e o) := by
  intro _ _ _ _ h
  cases h
  exact ⟨by decide, rfl⟩
theorem Fields.leS (e : Fin 2) (o : Opnd) : Fields.Statement (.leS e o) := by
  intro _ _ _ _ h
  cases h
  exact ⟨by decide, rfl⟩
theorem Fields.leR (e : Fin 2) (o : Opnd) : Fields.Statement (.leR e o) := by
  intro _ _ _ _ h
  cases h
  exact ⟨by decide, rfl⟩
theorem Fields.leAnd (e : Fin 2) (o : Opnd) : Fields.Statement (.leAnd e o) := by
  intro _ _ _ _ h
  cases h
  exact ⟨by decide, rfl⟩
theorem Fields.leAndn (e : Fin 2) (o : Opnd) : Fields.Statement (.leAndn e o) := by
  intro _ _ _ _ h
  cases h
  exact ⟨by decide, rfl⟩
theorem Fields.leOr (e : Fin 2) (o : Opnd) : Fields.Statement (.leOr e o) := by
  intro _ _ _ _ h
  cases h
  exact ⟨by decide, rfl⟩
theorem Fields.leOrn (e : Fin 2) (o : Opnd) : Fields.Statement (.leOrn e o) := by
  intro _ _ _ _ h
  cases h
  exact ⟨by decide, rfl⟩
theorem Fields.leXor (e : Fin 2) (o : Opnd) : Fields.Statement (.leXor e o) := by
  intro _ _ _ _ h
  cases h
  exact ⟨by decide, rfl⟩
theorem Fields.leXorn (e : Fin 2) (o : Opnd) : Fields.Statement (.leXorn e o) := by
  intro _ _ _ _ h
  cases h
  exact ⟨by decide, rfl⟩
theorem Fields.leNot (e : Fin 2) : Fields.Statement (.leNot e) := by
  intro _ _ _ _ h
  cases h
  exact ⟨by decide, rfl⟩
theorem Fields.leAndBr (e : Fin 2) (o : Opnd) : Fields.Statement (.leAndBr e o) := by
  intro _ _ _ _ h
  cases h
  exact ⟨by decide, rfl⟩
theorem Fields.leAndnBr (e : Fin 2) (o : Opnd) : Fields.Statement (.leAndnBr e o) := by
  intro _ _ _ _ h
  cases h
  exact ⟨by decide, rfl⟩
theorem Fields.leOrBr (e : Fin 2) (o : Opnd) : Fields.Statement (.leOrBr e o) := by
  intro _ _ _ _ h
  cases h
  exact ⟨by decide, rfl⟩
theorem Fields.leOrnBr (e : Fin 2) (o : Opnd) : Fields.Statement (.leOrnBr e o) := by
  intro _ _ _ _ h
  cases h
  exact ⟨by decide, rfl⟩
theorem Fields.leXorBr (e : Fin 2) (o : Opnd) : Fields.Statement (.leXorBr e o) := by
  intro _ _ _ _ h
  cases h
  exact ⟨by decide, rfl⟩
theorem Fields.leXornBr (e : Fin 2) (o : Opnd) : Fields.Statement (.leXornBr e o) := by
  intro _ _ _ _ h
  cases h
  exact ⟨by decide, rfl⟩
theorem Fields.leClose (e : Fin 2) : Fields.Statement (.leClose e) := by
  intro _ _ _ _ h
  cases h
  exact ⟨by decide, rfl⟩
theorem Fields.leEp (e : Fin 2) (o : Opnd) : Fields.Statement (.leEp e o) := by
  intro _ _ _ _ h
  cases h
  exact ⟨by decide, rfl⟩
theorem Fields.leEn (e : Fin 2) (o : Opnd) : Fields.Statement (.leEn e o) := by
  intro _ _ _ _ h
  cases h
  exact ⟨by decide, rfl⟩
theorem Fields.leTon (e : Fin 2) (o : Opnd) : Fields.Statement (.leTon e o) := by
  intro _ _ _ _ h
  cases h
  exact ⟨by decide, rfl⟩
theorem Fields.leTof (e : Fin 2) (o : Opnd) : Fields.Statement (.leTof e o) := by
  intro _ _ _ _ h
  cases h
  exact ⟨by decide, rfl⟩
theorem Fields.leTp (e : Fin 2) (o : Opnd) : Fields.Statement (.leTp e o) := by
  intro _ _ _ _ h
  cases h
  exact ⟨by decide, rfl⟩
theorem Fields.leTrd (e : Fin 2) (o : Opnd) : Fields.Statement (.leTrd e o) := by
  intro _ _ _ _ h
  cases h
  exact ⟨by decide, rfl⟩
theorem Fields.leCtu (e : Fin 2) (o : Opnd) : Fields.Statement (.leCtu e o) := by
  intro _ _ _ _ h
  cases h
  exact ⟨by decide, rfl⟩
theorem Fields.leCtd (e : Fin 2) (o : Opnd) : Fields.Statement (.leCtd e o) := by
  intro _ _ _ _ h
  cases h
  exact ⟨by decide, rfl⟩
theorem Fields.leCtld (e : Fin 2) (o : Opnd) : Fields.Statement (.leCtld e o) := by
  intro _ _ _ _ h
  cases h
  exact ⟨by decide, rfl⟩
theorem Fields.leCtrd (e : Fin 2) (o : Opnd) : Fields.Statement (.leCtrd e o) := by
  intro _ _ _ _ h
  cases h
  exact ⟨by decide, rfl⟩
theorem Fields.leLdw (e : Fin 2) (o : Opnd) : Fields.Statement (.leLdw e o) := by
  intro _ _ _ _ h
  cases h
  exact ⟨by decide, rfl⟩
theorem Fields.leStw (e : Fin 2) (o : Opnd) : Fields.Statement (.leStw e o) := by
  intro _ _ _ _ h
  cases h
  exact ⟨by decide, rfl⟩
theorem Fields.leAdd (e : Fin 2) (o : Opnd) : Fields.Statement (.leAdd e o) := by
  intro _ _ _ _ h
  cases h
  exact ⟨by decide, rfl⟩
theorem Fields.leSub (e : Fin 2) (o : Opnd) : Fields.Statement (.leSub e o) := by
  intro _ _ _ _ h
  cases h
  exact ⟨by decide, rfl⟩
theorem Fields.leMul (e : Fin 2) (o : Opnd) : Fields.Statement (.leMul e o) := by
  intro _ _ _ _ h
  cases h
  exact ⟨by decide, rfl⟩
theorem Fields.leDiv (e : Fin 2) (o : Opnd) : Fields.Statement (.leDiv e o) := by
  intro _ _ _ _ h
  cases h
  exact ⟨by decide, rfl⟩
theorem Fields.leMod (e : Fin 2) (o : Opnd) : Fields.Statement (.leMod e o) := by
  intro _ _ _ _ h
  cases h
  exact ⟨by decide, rfl⟩
theorem Fields.leAndw (e : Fin 2) (o : Opnd) : Fields.Statement (.leAndw e o) := by
  intro _ _ _ _ h
  cases h
  exact ⟨by decide, rfl⟩
theorem Fields.leOrw (e : Fin 2) (o : Opnd) : Fields.Statement (.leOrw e o) := by
  intro _ _ _ _ h
  cases h
  exact ⟨by decide, rfl⟩
theorem Fields.leXorw (e : Fin 2) (o : Opnd) : Fields.Statement (.leXorw e o) := by
  intro _ _ _ _ h
  cases h
  exact ⟨by decide, rfl⟩
theorem Fields.leShl (e : Fin 2) (o : Opnd) : Fields.Statement (.leShl e o) := by
  intro _ _ _ _ h
  cases h
  exact ⟨by decide, rfl⟩
theorem Fields.leShr (e : Fin 2) (o : Opnd) : Fields.Statement (.leShr e o) := by
  intro _ _ _ _ h
  cases h
  exact ⟨by decide, rfl⟩
theorem Fields.leAsr (e : Fin 2) (o : Opnd) : Fields.Statement (.leAsr e o) := by
  intro _ _ _ _ h
  cases h
  exact ⟨by decide, rfl⟩
theorem Fields.leGtw (e : Fin 2) (o : Opnd) : Fields.Statement (.leGtw e o) := by
  intro _ _ _ _ h
  cases h
  exact ⟨by decide, rfl⟩
theorem Fields.leGew (e : Fin 2) (o : Opnd) : Fields.Statement (.leGew e o) := by
  intro _ _ _ _ h
  cases h
  exact ⟨by decide, rfl⟩
theorem Fields.leEqw (e : Fin 2) (o : Opnd) : Fields.Statement (.leEqw e o) := by
  intro _ _ _ _ h
  cases h
  exact ⟨by decide, rfl⟩
theorem Fields.leNew (e : Fin 2) (o : Opnd) : Fields.Statement (.leNew e o) := by
  intro _ _ _ _ h
  cases h
  exact ⟨by decide, rfl⟩
theorem Fields.leLtw (e : Fin 2) (o : Opnd) : Fields.Statement (.leLtw e o) := by
  intro _ _ _ _ h
  cases h
  exact ⟨by decide, rfl⟩
theorem Fields.leLew (e : Fin 2) (o : Opnd) : Fields.Statement (.leLew e o) := by
  intro _ _ _ _ h
  cases h
  exact ⟨by decide, rfl⟩
theorem Fields.leLdx (e : Fin 2) (o : Opnd) : Fields.Statement (.leLdx e o) := by
  intro _ _ _ _ h
  cases h
  exact ⟨by decide, rfl⟩
theorem Fields.leJmp (e : Fin 2) (o : Opnd) : Fields.Statement (.leJmp e o) := by
  intro _ _ _ _ h
  cases h
  exact ⟨by decide, rfl⟩
theorem Fields.leJmpc (e : Fin 2) (o : Opnd) : Fields.Statement (.leJmpc e o) := by
  intro _ _ _ _ h
  cases h
  exact ⟨by decide, rfl⟩
theorem Fields.leJmpcn (e : Fin 2) (o : Opnd) : Fields.Statement (.leJmpcn e o) := by
  intro _ _ _ _ h
  cases h
  exact ⟨by decide, rfl⟩
theorem Fields.leCal (e : Fin 2) (o : Opnd) : Fields.Statement (.leCal e o) := by
  intro _ _ _ _ h
  cases h
  exact ⟨by decide, rfl⟩
theorem Fields.leCalc (e : Fin 2) (o : Opnd) : Fields.Statement (.leCalc e o) := by
  intro _ _ _ _ h
  cases h
  exact ⟨by decide, rfl⟩
theorem Fields.leRet (e : Fin 2) : Fields.Statement (.leRet e) := by
  intro _ _ _ _ h
  cases h
  exact ⟨by decide, rfl⟩
theorem Fields.leSendq (e : Fin 2) (o : Opnd) : Fields.Statement (.leSendq e o) := by
  intro _ _ _ _ h
  cases h
  exact ⟨by decide, rfl⟩
theorem Fields.leRecvq (e : Fin 2) (o : Opnd) : Fields.Statement (.leRecvq e o) := by
  intro _ _ _ _ h
  cases h
  exact ⟨by decide, rfl⟩
theorem Fields.leEnd (e : Fin 2) : Fields.Statement (.leEnd e) := by
  intro _ _ _ _ h
  cases h
  exact ⟨by decide, rfl⟩
theorem Fields.leMismatch (e : Fin 2) (grp lane : Nat) (lead trail : Word) : Fields.Statement (.leMismatch e grp lane lead trail) := Fields.of_none rfl
theorem Fields.leCmpSelftest (e : Fin 2) : Fields.Statement (.leCmpSelftest e) := Fields.of_none rfl
theorem Fields.bankReady (e : Fin 2) : Fields.Statement (.bankReady e) := Fields.of_none rfl
theorem Fields.leLineRestore (e : Fin 2) (line : Nat) : Fields.Statement (.leLineRestore e line) := Fields.of_none rfl
theorem Fields.leTrapClr (e : Fin 2) : Fields.Statement (.leTrapClr e) := Fields.of_none rfl
theorem Fields.presenceCount (kind : Fin 8) (src : Nat) : Fields.Statement (.presenceCount kind src) := Fields.of_none rfl
theorem Fields.retainSaveBurst : Fields.Statement (.retainSaveBurst) := Fields.of_none rfl
theorem Fields.carryCopyOut (u : Nat) (bad : List Nat) : Fields.Statement (.carryCopyOut u bad) := Fields.of_none rfl
theorem Fields.changeSwitch : Fields.Statement (.changeSwitch) := Fields.of_none rfl
theorem Fields.changeSetupDone (u : Nat) : Fields.Statement (.changeSetupDone u) := Fields.of_none rfl
theorem Fields.changeDone : Fields.Statement (.changeDone) := Fields.of_none rfl
theorem Fields.rawFrameRx (p : Fin 2) (f : TlFrame) : Fields.Statement (.rawFrameRx p f) := Fields.of_none rfl
theorem Fields.digSend (g : Fin 4) : Fields.Statement (.digSend g) := Fields.of_none rfl
theorem Fields.digFrameRx (p : Fin 2) (f : TlFrame) : Fields.Statement (.digFrameRx p f) := Fields.of_none rfl
theorem Fields.agreementFix (g : Fin 4) : Fields.Statement (.agreementFix g) := Fields.of_none rfl
theorem Fields.outFrameRx (p : Fin 2) (f : TlFrame) : Fields.Statement (.outFrameRx p f) := Fields.of_none rfl
theorem Fields.voteComplete (v : VoteRound) : Fields.Statement (.voteComplete v) := Fields.of_none rfl
theorem Fields.leaseLost (k : Fin 16) : Fields.Statement (.leaseLost k) := Fields.of_none rfl
theorem Fields.guardianLeaseLapse (k : Fin 16) : Fields.Statement (.guardianLeaseLapse k) := Fields.of_none rfl
theorem Fields.claim (k : Fin 16) : Fields.Statement (.claim k) := Fields.of_none rfl
theorem Fields.claimRx (p : Fin 2) (f : TlFrame) (k : Fin 16) (oi : Nat) : Fields.Statement (.claimRx p f k oi) := Fields.of_none rfl
theorem Fields.claimCsignRx (p : Fin 2) (f : TlFrame) (k : Fin 16) (oi : Nat) : Fields.Statement (.claimCsignRx p f k oi) := Fields.of_none rfl
theorem Fields.leaseGained (k : Fin 16) : Fields.Statement (.leaseGained k) := Fields.of_none rfl
theorem Fields.relFrameRx (p : Fin 2) (f : TlFrame) : Fields.Statement (.relFrameRx p f) := Fields.of_none rfl
theorem Fields.handoverPropose (k : Fin 16) (rx : TlRx) : Fields.Statement (.handoverPropose k rx) := Fields.of_none rfl
theorem Fields.handoverAccept (k : Fin 16) (rx : TlRx) (h : Nat) : Fields.Statement (.handoverAccept k rx h) := Fields.of_none rfl
theorem Fields.handoverInstant (k : Fin 16) : Fields.Statement (.handoverInstant k) := Fields.of_none rfl
theorem Fields.handoverGuardStart (k : Fin 16) : Fields.Statement (.handoverGuardStart k) := Fields.of_none rfl
theorem Fields.linkDown (p : Fin 2) : Fields.Statement (.linkDown p) := Fields.of_none rfl
theorem Fields.linkUp (p : Fin 2) : Fields.Statement (.linkUp p) := Fields.of_none rfl
theorem Fields.runEntryProposal (rx : TlRx) (count : Nat) (ids : PeerIds) : Fields.Statement (.runEntryProposal rx count ids) := Fields.of_none rfl
theorem Fields.runBoundary : Fields.Statement (.runBoundary) := Fields.of_none rfl
theorem Fields.activateProposal (rx : TlRx) (v : Vow) (b : Nat) (digest : List Byte) : Fields.Statement (.activateProposal rx v b digest) := Fields.of_none rfl
theorem Fields.forceProposal (rx : TlRx) (v : Vow) (mfc cc ident : Nat) (what : ForceWhat) : Fields.Statement (.forceProposal rx v mfc cc ident what) := Fields.of_none rfl
theorem Fields.syncReq (rx : TlRx) (ids : PeerIds) : Fields.Statement (.syncReq rx ids) := Fields.of_none rfl
theorem Fields.syncFrameRx (p : Fin 2) (f : TlFrame) (items : List SyncItem) (last : Bool) : Fields.Statement (.syncFrameRx p f items last) := Fields.of_none rfl
theorem Fields.syncFail : Fields.Statement (.syncFail) := Fields.of_none rfl
theorem Fields.syncDone : Fields.Statement (.syncDone) := Fields.of_none rfl
theorem Fields.presenceFrameSend : Fields.Statement (.presenceFrameSend) := Fields.of_none rfl
theorem Fields.presenceFrameRx (port : Fin 2) (pos : Nat) : Fields.Statement (.presenceFrameRx port pos) := Fields.of_none rfl
theorem Fields.tvlAgrcntClr : Fields.Statement (.tvlAgrcntClr) := Fields.of_none rfl
theorem Fields.tvlVotecntClr : Fields.Statement (.tvlVotecntClr) := Fields.of_none rfl
theorem Fields.tvlLinkcntClr (p : Fin 2) : Fields.Statement (.tvlLinkcntClr p) := Fields.of_none rfl
theorem Fields.gheifFrameRx (ch : Fin 2) (f : GhFrame) : Fields.Statement (.gheifFrameRx ch f) := Fields.of_none rfl
theorem Fields.gheifSlotTx (ch : Fin 2) (p : Fin 1024) : Fields.Statement (.gheifSlotTx ch p) := Fields.of_none rfl
theorem Fields.dynSlot (ch : Fin 2) : Fields.Statement (.dynSlot ch) := Fields.of_none rfl
theorem Fields.gheifTake (id : Fin 1024) : Fields.Statement (.gheifTake id) := Fields.of_none rfl
theorem Fields.clockCorrection : Fields.Statement (.clockCorrection) := Fields.of_none rfl
theorem Fields.gheifSyncLost : Fields.Statement (.gheifSyncLost) := Fields.of_none rfl
theorem Fields.listenTimeout (idle : Bool) : Fields.Statement (.listenTimeout idle) := Fields.of_none rfl
theorem Fields.casRx (ch : Fin 2) : Fields.Statement (.casRx ch) := Fields.of_none rfl
theorem Fields.startFrameTx : Fields.Statement (.startFrameTx) := Fields.of_none rfl
theorem Fields.echoDecision : Fields.Statement (.echoDecision) := Fields.of_none rfl
theorem Fields.modeChange : Fields.Statement (.modeChange) := Fields.of_none rfl
theorem Fields.guardStrobe (err : Int) : Fields.Statement (.guardStrobe err) := Fields.of_none rfl
theorem Fields.guardCut (ch : Fin 2) : Fields.Statement (.guardCut ch) := Fields.of_none rfl
theorem Fields.lineActivity (ch : Fin 2) (zeros : Nat) : Fields.Statement (.lineActivity ch zeros) := Fields.of_none rfl
theorem Fields.ghcBufsel (v : Word) : Fields.Statement (.ghcBufsel v) := Fields.of_none rfl
theorem Fields.ghcCntclrGhc : Fields.Statement (.ghcCntclrGhc) := Fields.of_none rfl
theorem Fields.ghcCntclrGrd : Fields.Statement (.ghcCntclrGrd) := Fields.of_none rfl
theorem Fields.ghcPrecClr : Fields.Statement (.ghcPrecClr) := Fields.of_none rfl
theorem Fields.tmbCapture (p : Fin 4) : Fields.Statement (.tmbCapture p) := Fields.of_none rfl
theorem Fields.timeFrameRx (b : Bool) : Fields.Statement (.timeFrameRx b) := Fields.of_none rfl
theorem Fields.ptpMeasurement (n : Fin 2) : Fields.Statement (.ptpMeasurement n) := Fields.of_none rfl
theorem Fields.tmbAdjWrite (v : Word) : Fields.Statement (.tmbAdjWrite v) := Fields.of_none rfl
theorem Fields.slewEnd : Fields.Statement (.slewEnd) := Fields.of_none rfl
theorem Fields.sourceChange : Fields.Statement (.sourceChange) := Fields.of_none rfl
theorem Fields.timeFrameSend : Fields.Statement (.timeFrameSend) := Fields.of_none rfl
theorem Fields.rtcWrite : Fields.Statement (.rtcWrite) := Fields.of_none rfl
theorem Fields.leapFlagClear : Fields.Statement (.leapFlagClear) := Fields.of_none rfl
theorem Fields.launch (h : Held) : Fields.Statement (.launch h) := Fields.of_none rfl
theorem Fields.tmbCntClr : Fields.Statement (.tmbCntClr) := Fields.of_none rfl
theorem Fields.ethFrameRx (n : Fin 4) (f : EthFrame) (v : PtpVerdict) : Fields.Statement (.ethFrameRx n f v) := Fields.of_none rfl
theorem Fields.ptpMessageTx (n : Fin 2) (msg : List Byte) (v : PtpVerdict) : Fields.Statement (.ptpMessageTx n msg v) := Fields.of_none rfl
theorem Fields.ethTxItem (q : Fin 64) : Fields.Statement (.ethTxItem q) := Fields.of_none rfl
theorem Fields.ethFrameStart (n : Fin 4) : Fields.Statement (.ethFrameStart n) := Fields.of_none rfl
theorem Fields.pdTake (t : Fin 512) : Fields.Statement (.pdTake t) := Fields.of_none rfl
theorem Fields.ethLinkChange (n : Fin 4) (up : Bool) : Fields.Statement (.ethLinkChange n up) := Fields.of_none rfl
theorem Fields.ethCntclr : Fields.Statement (.ethCntclr) := Fields.of_none rfl
theorem Fields.ixsProducerItem (c : Fin 256) : Fields.Statement (.ixsProducerItem c) := Fields.of_none rfl
theorem Fields.ixsMessageRx (q : Fin 64) : Fields.Statement (.ixsMessageRx q) := Fields.of_none rfl
theorem Fields.ixsAck (v : Word) : Fields.Statement (.ixsAck v) := Fields.of_none rfl
theorem Fields.ixsErrWindow (c : Fin 256) : Fields.Statement (.ixsErrWindow c) := Fields.of_none rfl
theorem Fields.ixsCntclr : Fields.Statement (.ixsCntclr) := Fields.of_none rfl
theorem Fields.canFrameRx (n : Fin 6) (f : CanFrame) : Fields.Statement (.canFrameRx n f) := Fields.of_none rfl
theorem Fields.canTxreq (n : Fin 6) (v : Word) : Fields.Statement (.canTxreq n v) := Fields.of_none rfl
theorem Fields.canTxcan (n : Fin 6) (v : Word) : Fields.Statement (.canTxcan n v) := Fields.of_none rfl
theorem Fields.canFlush (n : Fin 6) : Fields.Statement (.canFlush n) := Fields.of_none rfl
theorem Fields.canRecover (n : Fin 6) : Fields.Statement (.canRecover n) := Fields.of_none rfl
theorem Fields.canModeWrite (n : Fin 6) (v : Word) : Fields.Statement (.canModeWrite n v) := Fields.of_none rfl
theorem Fields.canSupplyItem (n : Fin 6) (b : Fin 32) : Fields.Statement (.canSupplyItem n b) := Fields.of_none rfl
theorem Fields.canRxqRelease (who : Fin 4) (n : Fin 6) (m : Fin 2) (v : Word) : Fields.Statement (.canRxqRelease who n m v) := Fields.of_none rfl
theorem Fields.canArbitration (n : Fin 6) (won : Bool) (tdcv : Nat) : Fields.Statement (.canArbitration n won tdcv) := Fields.of_none rfl
theorem Fields.canTxComplete (n : Fin 6) : Fields.Statement (.canTxComplete n) := Fields.of_none rfl
theorem Fields.canError (n : Fin 6) (kind : Fin 6) (tx : Bool) (add : Fin 9) : Fields.Statement (.canError n kind tx add) := Fields.of_none rfl
theorem Fields.canBusoffEnd (n : Fin 6) : Fields.Statement (.canBusoffEnd n) := Fields.of_none rfl
theorem Fields.filterLineRestore (n : Fin 6) (line : Fin 256) : Fields.Statement (.filterLineRestore n line) := Fields.of_none rfl
theorem Fields.canCntClr (n : Fin 6) : Fields.Statement (.canCntClr n) := Fields.of_none rfl
theorem Fields.rackRead (p : Fin 4) (addr : Nat) (size : Fin 4) (d : RackLd) : Fields.Statement (.rackRead p addr size d) := Fields.of_none rfl
theorem Fields.rackWrite (p : Fin 4) (addr : Nat) (size : Fin 4) (v : DWord) (len : Nat) : Fields.Statement (.rackWrite p addr size v len) := Fields.of_none rfl
theorem Fields.rackAmo (p : Fin 4) (addr : Nat) (dbl : Bool) (op : AmoOp) (v : DWord) (d : RackLd) : Fields.Statement (.rackAmo p addr dbl op v d) := Fields.of_none rfl
theorem Fields.lrW (p : Fin 4) (addr : Nat) (dbl : Bool) (d : RackLd) : Fields.Statement (.lrW p addr dbl d) := Fields.of_none rfl
theorem Fields.scW (p : Fin 4) (addr : Nat) (dbl : Bool) (v : DWord) (d : RackLd) : Fields.Statement (.scW p addr dbl v d) := Fields.of_none rfl
theorem Fields.rackGrant (reqs : BitVec 4) : Fields.Statement (.rackGrant reqs) := Fields.of_none rfl
theorem Fields.rackAck (dtack berr : Bool) (data : Half) (slow lock : Bool) : Fields.Statement (.rackAck dtack berr data slow lock) := Fields.of_none rfl
theorem Fields.lrbTimeout : Fields.Statement (.lrbTimeout) := Fields.of_none rfl
theorem Fields.rackInbound (c : BoardCyc) (tchk : Bool) : Fields.Statement (.rackInbound c tchk) := Fields.of_none rfl
theorem Fields.boardCycleTimeout : Fields.Statement (.boardCycleTimeout) := Fields.of_none rfl
theorem Fields.lrbLockHog : Fields.Statement (.lrbLockHog) := Fields.of_none rfl
theorem Fields.prefetchAge (p : Fin 4) : Fields.Statement (.prefetchAge p) := Fields.of_none rfl
theorem Fields.rackReadList (e : Fin 128) : Fields.Statement (.rackReadList e) := Fields.of_none rfl
theorem Fields.rackWriteList (k : Fin 16) : Fields.Statement (.rackWriteList k) := Fields.of_none rfl
theorem Fields.lrbCntclr : Fields.Statement (.lrbCntclr) := Fields.of_none rfl
theorem Fields.diSample (n : Fin 16) (mv10 : Int) : Fields.Statement (.diSample n mv10) := Fields.of_none rfl
theorem Fields.yState (n : Fin 16) (v brk : Bool) : Fields.Statement (.yState n v brk) := Fields.of_none rfl
theorem Fields.discrepancy (n : Fin 16) : Fields.Statement (.discrepancy n) := Fields.of_none rfl
theorem Fields.yLost (selfTest : Bool) : Fields.Statement (.yLost selfTest) := Fields.of_none rfl
theorem Fields.testPulse (k : Fin 4) : Fields.Statement (.testPulse k) := Fields.of_none rfl
theorem Fields.testPulseEnd (k : Fin 4) (fell rose : Bool) (y : BitVec 16) : Fields.Statement (.testPulseEnd k fell rose y) := Fields.of_none rfl
theorem Fields.tpOvercurrent (k : Fin 4) : Fields.Statement (.tpOvercurrent k) := Fields.of_none rfl
theorem Fields.doOvercurrent (m : Fin 8) : Fields.Statement (.doOvercurrent m) := Fields.of_none rfl
theorem Fields.doReadbackFault (m : Fin 8) (rb : Fin 3) : Fields.Statement (.doReadbackFault m rb) := Fields.of_none rfl
theorem Fields.doRetry (m : Fin 8) : Fields.Statement (.doRetry m) := Fields.of_none rfl
theorem Fields.outputTest (m : Fin 8) : Fields.Statement (.outputTest m) := Fields.of_none rfl
theorem Fields.outputTestEnd (m : Fin 8) (rb : Fin 3) : Fields.Statement (.outputTestEnd m rb) := Fields.of_none rfl
theorem Fields.fltClr (m : Fin 8) : Fields.Statement (.fltClr m) := Fields.of_none rfl
theorem Fields.fsLow (mv10 : Nat) : Fields.Statement (.fsLow mv10) := Fields.of_none rfl
theorem Fields.fsRestored (mv10 : Nat) : Fields.Statement (.fsRestored mv10) := Fields.of_none rfl
theorem Fields.sioFsBudget (ma : Nat) : Fields.Statement (.sioFsBudget ma) := Fields.of_none rfl
theorem Fields.sioCntclr : Fields.Statement (.sioCntclr) := Fields.of_none rfl
theorem Fields.describe (r : Req) : Fields.Statement (.describe r) := Fields.of_none rfl
theorem Fields.getState (r : Req) : Fields.Statement (.getState r) := Fields.of_none rfl
theorem Fields.setMode (r : Req) : Fields.Statement (.setMode r) := Fields.of_none rfl
theorem Fields.restart (r : Req) : Fields.Statement (.restart r) := Fields.of_none rfl
theorem Fields.configBegin (r : Req) : Fields.Statement (.configBegin r) := Fields.of_none rfl
theorem Fields.configWrite (r : Req) : Fields.Statement (.configWrite r) := Fields.of_none rfl
theorem Fields.configSeal (r : Req) : Fields.Statement (.configSeal r) := Fields.of_none rfl
theorem Fields.loadBegin (r : Req) : Fields.Statement (.loadBegin r) := Fields.of_none rfl
theorem Fields.loadBlock (r : Req) : Fields.Statement (.loadBlock r) := Fields.of_none rfl
theorem Fields.loadVerify (r : Req) : Fields.Statement (.loadVerify r) := Fields.of_none rfl
theorem Fields.activate (r : Req) : Fields.Statement (.activate r) := Fields.of_none rfl
theorem Fields.forceSet (r : Req) : Fields.Statement (.forceSet r) := Fields.of_none rfl
theorem Fields.forceClear (r : Req) : Fields.Statement (.forceClear r) := Fields.of_none rfl
theorem Fields.forceList (r : Req) : Fields.Statement (.forceList r) := Fields.of_none rfl
theorem Fields.readVar (r : Req) : Fields.Statement (.readVar r) := Fields.of_none rfl
theorem Fields.writeVar (r : Req) : Fields.Statement (.writeVar r) := Fields.of_none rfl
theorem Fields.recRead (r : Req) : Fields.Statement (.recRead r) := Fields.of_none rfl
theorem Fields.recMark (r : Req) : Fields.Statement (.recMark r) := Fields.of_none rfl
theorem Fields.recConfigSetRate (r : Req) : Fields.Statement (.recConfigSetRate r) := Fields.of_none rfl
theorem Fields.recConfigSetSnapshot (r : Req) : Fields.Statement (.recConfigSetSnapshot r) := Fields.of_none rfl
theorem Fields.recConfigRestore (r : Req) : Fields.Statement (.recConfigRestore r) := Fields.of_none rfl
theorem Fields.recConfigReadCatalogue (r : Req) : Fields.Statement (.recConfigReadCatalogue r) := Fields.of_none rfl
theorem Fields.recConfigReadSettings (r : Req) : Fields.Statement (.recConfigReadSettings r) := Fields.of_none rfl
theorem Fields.timeGet (r : Req) : Fields.Statement (.timeGet r) := Fields.of_none rfl
theorem Fields.timeSet (r : Req) : Fields.Statement (.timeSet r) := Fields.of_none rfl
theorem Fields.netModeReq (r : Req) : Fields.Statement (.netModeReq r) := Fields.of_none rfl
theorem Fields.leaseStatus (r : Req) : Fields.Statement (.leaseStatus r) := Fields.of_none rfl
theorem Fields.leaseRelease (r : Req) : Fields.Statement (.leaseRelease r) := Fields.of_none rfl
theorem Fields.reintegrate (r : Req) : Fields.Statement (.reintegrate r) := Fields.of_none rfl
theorem Fields.selftest (r : Req) (fails : BitVec 6) : Fields.Statement (.selftest r fails) := Fields.of_none rfl
theorem Fields.powerBudget (r : Req) : Fields.Statement (.powerBudget r) := Fields.of_none rfl
theorem Fields.midnight (r : Req) : Fields.Statement (.midnight r) := Fields.of_none rfl
theorem Fields.serviceEnter (r : Req) : Fields.Statement (.serviceEnter r) := Fields.of_none rfl
theorem Fields.serviceExit (r : Req) : Fields.Statement (.serviceExit r) := Fields.of_none rfl
theorem Fields.halt (r : Req) : Fields.Statement (.halt r) := Fields.of_none rfl
theorem Fields.stepPair (r : Req) (x : PairStep) : Fields.Statement (.stepPair r x) := Fields.of_none rfl
theorem Fields.resume (r : Req) : Fields.Statement (.resume r) := Fields.of_none rfl
theorem Fields.peek (r : Req) (trail : Option DWord) : Fields.Statement (.peek r trail) := Fields.of_none rfl
theorem Fields.poke (r : Req) : Fields.Statement (.poke r) := Fields.of_none rfl
theorem Fields.trigger (r : Req) : Fields.Statement (.trigger r) := Fields.of_none rfl
theorem Fields.bootUpdate (r : Req) : Fields.Statement (.bootUpdate r) := Fields.of_none rfl
theorem Fields.longOpComplete : Fields.Statement (.longOpComplete) := Fields.of_none rfl
theorem Fields.scpFetch (full : Bool) : Fields.Statement (.scpFetch full) := Fields.of_none rfl
theorem Fields.supMbsubmit (part : Bool) (n : Fin 256) (v : Word) : Fields.Statement (.supMbsubmit part n v) := Fields.of_none rfl
theorem Fields.sessionTimeout (load : Bool) : Fields.Statement (.sessionTimeout load) := Fields.of_none rfl
theorem Fields.authLockoutEnd (ip : Nat) : Fields.Statement (.authLockoutEnd ip) := Fields.of_none rfl
theorem Fields.svcDetChange (level : Bool) : Fields.Statement (.svcDetChange level) := Fields.of_none rfl
theorem Fields.clockCheck (ppm : Nat) : Fields.Statement (.clockCheck ppm) := Fields.of_none rfl
theorem Fields.pllLockLost (clock : Nat) : Fields.Statement (.pllLockLost clock) := Fields.of_none rfl
theorem Fields.supSelfcheckFail : Fields.Statement (.supSelfcheckFail) := Fields.of_none rfl
theorem Fields.rstNAssert : Fields.Statement (.rstNAssert) := Fields.of_none rfl
theorem Fields.rstNRelease : Fields.Statement (.rstNRelease) := Fields.of_none rfl
theorem Fields.powerGood : Fields.Statement (.powerGood) := Fields.of_none rfl
theorem Fields.dawnEnd (bootFails : Bool) (tests : DawnTests) (damaged : Bool) : Fields.Statement (.dawnEnd bootFails tests damaged) := Fields.of_none rfl
theorem Fields.mateOpen : Fields.Statement (.mateOpen) := Fields.of_none rfl
theorem Fields.holdupEnter : Fields.Statement (.holdupEnter) := Fields.of_none rfl
theorem Fields.supplyDip : Fields.Statement (.supplyDip) := Fields.of_none rfl
theorem Fields.supplyFail (mv : Nat) : Fields.Statement (.supplyFail mv) := Fields.of_none rfl
theorem Fields.powerGoodWithdraw : Fields.Statement (.powerGoodWithdraw) := Fields.of_none rfl
theorem Fields.midnightWake (src : Fin 4) : Fields.Statement (.midnightWake src) := Fields.of_none rfl
theorem Fields.budgetCheck (avg : Nat) : Fields.Statement (.budgetCheck avg) := Fields.of_none rfl
theorem Fields.nightCapLow (vcap : Nat) : Fields.Statement (.nightCapLow vcap) := Fields.of_none rfl
theorem Fields.counterCopy : Fields.Statement (.counterCopy) := Fields.of_none rfl
theorem Fields.optimeRead : Fields.Statement (.optimeRead) := Fields.of_none rfl
theorem Fields.pwrArbcntClr : Fields.Statement (.pwrArbcntClr) := Fields.of_none rfl
theorem Fields.recordEvent : Fields.Statement (.recordEvent) := Fields.of_none rfl
theorem Fields.recRingWrite : Fields.Statement (.recRingWrite) := Fields.of_none rfl
theorem Fields.tokenRefill (c : Fin 1024) : Fields.Statement (.tokenRefill c) := Fields.of_none rfl
theorem Fields.recCntClr : Fields.Statement (.recCntClr) := Fields.of_none rfl
theorem Fields.absentUnitAccess (who : Fin 4) (addr : Nat) (store : Bool) : Fields.Statement (.absentUnitAccess who addr store) := Fields.of_none rfl
theorem Fields.registerWrite (who : Fin 4) (off : Nat) (v : Word) : Fields.Statement (.registerWrite who off v) := Fields.of_none rfl
theorem Fields.pairInstruction (p : Fin 4) (x : RvInsn) (f : InsnFetch) : Fields.Statement (.pairInstruction p x f) := Fields.of_none rfl
theorem Fields.cmpTestDue (u : Fin 6) : Fields.Statement (.cmpTestDue u) := Fields.of_none rfl
theorem Fields.cmpSelftestEnd (u : Fin 6) (fail : Option Nat) : Fields.Statement (.cmpSelftestEnd u fail) := Fields.of_none rfl
theorem Fields.linkExcludeEnd : Fields.Statement (.linkExcludeEnd) := Fields.of_none rfl
theorem Fields.semaphoreExpiry : Fields.Statement (.semaphoreExpiry) := Fields.of_none rfl
theorem Fields.supervisorMismatch : Fields.Statement (.supervisorMismatch) := Fields.of_none rfl
theorem Fields.posChanged (pos : Fin 4) : Fields.Statement (.posChanged pos) := Fields.of_none rfl
theorem Fields.nightValidClear : Fields.Statement (.nightValidClear) := Fields.of_none rfl
theorem Fields.badRequestFrame (kind : Fin 4) (opc : Nat) (r : Req) : Fields.Statement (.badRequestFrame kind opc r) := Fields.of_none rfl

/-- Every command. -/
theorem Fields.all (i : Instr) : Fields.Statement i := by
  cases i <;> first | exact Fields.of_none rfl | (intro _ _ _ _ h; cases h; exact ⟨by decide, rfl⟩)

/-- A row whose form admits the operand: the decoder gives the command back from its word's fields. -/
theorem decodeLe_of_fields {i : Instr} {e : Fin 2} {w : Word} {opc : Nat} {f : LeForm} {o : Opnd} (h : i.le = some (opc, e, f, o))
    (ho : f.ok o = true) (a : leOpc w = opc) (b : leOpnd w = o) : decodeLe e w = some i := by
  simp [decodeLe, a, b, (Fields.all i opc e f o h).2, h, ho]

end Sys2Proof.Laws
end

