-- ==== Sys2Proof/Laws/Sup.lean ====
section
/-!
SUPPORT. What the frame of a supervisor command does: which check decides (R465), and that a request which passes them is judged by the
command itself.
-/
namespace Sys2Proof.Machine
open Sys2Proof.Claims

/-- No request is taken in Night, Dawn and Midnight. -/
theorem State.command_asleep (s : State) (r : Req) (opc : Nat) (ok : List MState) (len : Nat → Bool) (body : State → Ans) (h : s.serving = false) :
    s.command r opc ok len body = s := by
  simp [State.command, h]

/-- A retransmission is answered with the stored reply. -/
theorem State.command_again (s t : State) (r : Req) (opc : Nat) (ok : List MState) (len : Nat → Bool) (body : State → Ans) (h : s.serving = true)
    (k : (s.take r).again r = some t) : s.command r opc ok len body = t := by
  simp [State.command, h, k]

/-- The request taken, with the tag counter kept where the failed check comes after the authentication (R450). -/
def State.takeFor (s : State) (r : Req) (st : Nat) : State :=
  if st = 0x12 ∨ st = 0x30 then s.take r else (s.take r).keepCounter r

/-- A request that fails one of the checks 5 to 10. -/
theorem State.command_early (s : State) (r : Req) (opc st i : Nat) (ok : List MState) (len : Nat → Bool) (body : State → Ans)
    (h : s.serving = true) (k : (s.take r).again r = none) (l : badHeader r = true ∨ (s.take r).lockedOut r = false)
    (e : (s.take r).early r opc ok (s.noPlace r) = some (st, i)) :
    s.command r opc ok len body = (if st = 0x30 then ((s.takeFor r st).refuse r opc st ((s.take r).errBlock 0 0 i)).countAuth r
      else (s.takeFor r st).refuse r opc st ((s.take r).errBlock 0 0 i)) := by
  rcases l with l | l <;> simp [State.command, State.takeFor, h, k, l, e]

/-- A request that passes them is refused for its length, or judged by the command. -/
theorem State.command_asked (s u : State) (r : Req) (opc : Nat) (ok : List MState) (len : Nat → Bool) (body : State → Ans) (h : Asked s r opc ok u) :
    s.command r opc ok len body = (if len r.payload.length then ((s.take r).keepCounter r).conclude r opc (body u)
      else ((s.take r).keepCounter r).refuse r opc 0x11 ((s.take r).keepCounter r).errNone) := by
  obtain ⟨h1, h2, h3, h4, h5⟩ := h
  subst h5
  by_cases hl : len r.payload.length <;> simp [State.command, h1, h2, h3, h4, hl]

end Sys2Proof.Machine
end

