-- ==== Sys2Proof/Tests/Slice0.lean ====
section
/-!
SUPPORT. The author's own tests: terms that WellFormed refuses, words of the engines, states that meet the hypotheses of the statements,
and a few results taken from the spec's worked examples.
-/
namespace Sys2Proof.Tests
open Sys2Proof Sys2Proof.Machine Sys2Proof.Claims
set_option Elab.async false

/-! ### Small states -/

/-- A module in a state, its free-running count counting, with a sealed configuration and P0 and P1 awake. -/
def at_ (m : MState) : State :=
  { State.reset with
    sup := { State.reset.sup with st := m, cfgLen := 100, sready := true }
    clk := { State.reset.clk with frcOn := true, t := 1000 } }

/-- A pair ready to execute: out of the hardware park, with a trap entry. -/
def pairReady : Pair := { Pair.reset with wfi := false, hwPark := false, mtvec := 0x10000100 }

/-- P0 executes in machine mode in the Run state, at an address of SRAM. -/
def machine : State := (at_ .run).setPair 0 (pairReady.setPc 0x10000000)

/-- A group, three partitions, tasks on P0 (0, and 2 of the background class), on LE0 (1) and on P1 (3), and their windows. -/
def sched1 : Sched :=
  { schedId := 7, tgMt := 4000, mfLog2 := 0, flags := 1
    groups := [⟨0, 0, 0, 64, 64, 100, 2000, 2100⟩]
    parts := [⟨16, 64, 0x3F, 2, 2⟩, ⟨16, 64, 0x3F, 2, 0⟩]
    tasks := [⟨0, 0, 0, 0, 0, 0, 16, 0x1000, 0x8000, 0, 1⟩, ⟨0, 0, 0, 4, 0, 16, 16, 0, 0, 0, 0⟩,
      ⟨0, 2, 0, 0, 0, 0, 0, 0x1000, 0x8000, 0, 0⟩, ⟨1, 0, 0, 1, 0, 32, 16, 0x1000, 0x8000, 0, 0⟩]
    windows := [⟨400, 1000, 0, 3⟩, ⟨500, 1000, 1, 3⟩, ⟨600, 1000, 3, 3⟩]
    wset := [⟨0, 1, 0⟩] }

/-- A state with that schedule. -/
def scheduled (m : MState) : State := { at_ m with hx := { (at_ m).hx with sched := sched1, hasSched := true } }

/-- P0 executes task 0 of the schedule in user mode in an open window. -/
def userTask : State :=
  ((scheduled .run).setPair 0 { pairReady.setPc 0x1000 with umode := true, curValid := true }).setUnit 0
    { UnitSt.reset with win := some 0, task := 0, opened := true, ended := false, ext := 100000 }

/-- LE0 scans, with a word at its pc. -/
def scan (w : Word) : State :=
  (((scheduled .run).set (F.LE_STAT_STATE 0) 1).setUnit 4
    { UnitSt.reset with win := some 1, task := 1, opened := true, ended := false, ext := 100000 }).wrLe (leBankAddr 0 0) 4 w.toNat

/-- The same with WA, XR and the stacks given. -/
def scanWith (w wa : Word) (bs : List (Bool × BrOp)) (cs : List Nat) : State :=
  (scan w).setEng 0 { Engine.reset with wa := wa, bs := bs, cs := cs }

/-- Bytes put at consecutive places of an image. -/
def image (l : List (Nat × List Byte)) : Tbl Byte := l.foldl (fun t c => tputList byteD t c.1 c.2) []

/-- An image set with one manifest entry: an engine program for LE0 at byte 4096 with two words of code. -/
def leSet : Tbl Byte :=
  image [(6, leBytes 2 1), (12, leBytes 4 7), (32, [3, 0]), (36, leBytes 4 4096), (40, leBytes 4 256), (44, leBytes 4 0x55),
    (4096 + 0x2C, leBytes 4 2), (4096 + 0x30, leBytes 4 0x80), (4096 + 0x80, leBytes 4 0xFC000000)]

/-- A state whose set A is active and holds that program. -/
def withSet (m : MState) : State :=
  { scheduled m with sup := { (scheduled m).sup with activeSet := some 0, sets := [(0, ⟨leSet, 8192, true, false, List.replicate 32 1⟩)] } }

/-- A long operation of the SCP host, of an opcode, a parameter and an outcome. -/
def longOf (opc arg : Nat) (out : Option (Nat × List Byte)) : LongOp := ⟨opc, .scp 1, 5, 77, none, out, arg, 0⟩

/-- A state with that long operation in progress. -/
def withLong (s : State) (opc arg : Nat) (out : Option (Nat × List Byte)) : State := { s with sup := { s.sup with longOp := some (longOf opc arg out) } }

/-- General queue 0 with 16 entries of 64 bytes, from producer 1 to consumer 2, holding what is given. -/
def withQueue (s : State) (c : QSt) : State :=
  ((((s.set (F.HXQ_CFG_DEPTH_LOG2 0) 4).set (F.HXQ_CFG_ESIZE_LOG2 0) 6).set (F.HXQ_CFG_PROD 0) 1).set (F.HXQ_CFG_CONS 0) 2).setQueue 0x38000 c

/-- The same with an item in its first slot. -/
def withItem (s : State) : State := ((withQueue s ⟨0, 0, 0, 0, [], [], none⟩).qCommitHw ((withQueue s ⟨0, 0, 0, 0, [], [], none⟩).qgeo 0) 0 [1, 2, 3, 4]).1


/-- The schedule's major frame has begun at 0, its group's task cycle runs, and Gheif cycles follow one another. -/
def framed (m : MState) : State :=
  let s := (scheduled m).setGrp 0 { GroupSt.reset with on := true, live := true, frz := 0 }
  { s with hx := { s.hx with frameOn := true }, cyc := { s.cyc with running := true } }

/-- The same with the background task 2 of the schedule executing on P0. -/
def background : State :=
  ((framed .run).setPair 0 { pairReady.setPc 0x1000 with umode := true, curValid := true }).setUnit 0
    { UnitSt.reset with win := some 0, task := 2, opened := true, ended := false, ext := 1000000 }

/-- Partition 0 has a segment of 8 pages in its program image from page 16 on and one of 8 pages to be allocated from page 64 on. -/
def withProg (s : State) : State :=
  { s with prog := { Progs.none with segs := [(0, [⟨16, 8, 1, 7, 0⟩, ⟨64, 8, 3, 3, 0⟩])] }, hxm := { s.hxm with free := [1, 2] } }

/-- A module of a triplex VCU at position 1 with both links up, in a membership state, with the members of a mask. -/
def tri (st members : Nat) : State :=
  let s := (((((framed .run).set F.TVL_CFG_VCU 2).set F.TVL_STAT_MSTATE st).set F.TVL_STAT_MEMBERS members).set (F.TVL_LINKSTAT_UP 0) 1).set
    (F.TVL_LINKSTAT_UP 1) 1
  let s := { s with ident := { s.ident with pos := 1 }, tvl := { s.tvl with lanes := true } }
  s.setPeer 2 { TlPeer.none with mstate := 4 }

/-- A frame of a type from position 2, in a membership state; from a member. -/
def tlFrameOf (mst typ : Nat) (payload : List Byte) : TlFrame := ⟨typ, 2, mst, false, 0, 0, 0, payload.length, 9, false, true, payload⟩

def tlFrame (typ : Nat) (payload : List Byte) : TlFrame := tlFrameOf 4 typ payload

/-- What a frame of position 2, in a membership state, received on port 0 leaves, and whether it is taken. -/
def takingOf (mst : Nat) (s : State) (typ : Nat) (payload : List Byte) : State × Bool := s.tlTake 0 (tlFrameOf mst typ payload) typ
def taking (s : State) (typ : Nat) (payload : List Byte) : State × Bool := takingOf 4 s typ payload

/-! ### Witnesses: the logic engines -/

theorem wit_LeBitOperations :
    (∀ opc ∈ [0x01, 0x02, 0x07, 0x08, 0x09, 0x0A, 0x0B, 0x0C, 0x0E, 0x0F, 0x10, 0x11, 0x12, 0x13],
      LeIssues (scan (leWord opc ⟨0, 0x3FFFF⟩)) 0 opc ⟨0, 0x3FFFF⟩ ∧
      LeBitIs (leNow (scan (leWord opc ⟨0, 0x3FFFF⟩)) 0) 0 ⟨0, 0x3FFFF⟩ false ∧
      LeIssues (scan (leWord opc ⟨3, 1⟩)) 0 opc ⟨3, 1⟩ ∧ LeBitIs (leNow (scan (leWord opc ⟨3, 1⟩)) 0) 0 ⟨3, 1⟩ true) ∧
    (∀ opc ∈ [0x00, 0x0D, 0x14, 0x39, 0x3F], LeIssues (scan (leWord opc Opnd.zero)) 0 opc Opnd.zero) := by
  unfold LeIssues LeBitIs LeReach leNow; decide +kernel

theorem wit_LeBitStores : ∀ opc ∈ [0x03, 0x04, 0x05, 0x06],
    (LeIssues (scan (leWord opc ⟨2, 0x1FFFFF⟩)) 0 opc ⟨2, 0x1FFFFF⟩ ∧
      LeReach (leNow (scan (leWord opc ⟨2, 0x1FFFFF⟩)) 0) 0 ⟨2, 0x1FFFFF⟩
        ((leNow (scan (leWord opc ⟨2, 0x1FFFFF⟩)) 0).leEa 0 ⟨2, 0x1FFFFF⟩ / 8) 1 1 true) ∧
    (LeIssues (scan (leWord opc ⟨1, 0x80⟩)) 0 opc ⟨1, 0x80⟩ ∧
      LeReach (leNow (scan (leWord opc ⟨1, 0x80⟩)) 0) 0 ⟨1, 0x80⟩ ((leNow (scan (leWord opc ⟨1, 0x80⟩)) 0).leEa 0 ⟨1, 0x80⟩ / 8) 1 1
        true) := by
  unfold LeIssues LeReach leNow; decide +kernel

theorem wit_LeBrackets :
    (∀ opc ∈ [0x0E, 0x13], LeIssues (scanWith (leWord opc ⟨3, 0⟩) 0 (List.replicate 16 (true, .and)) []) 0 opc ⟨3, 0⟩ ∧
      LeBitIs (leNow (scanWith (leWord opc ⟨3, 0⟩) 0 (List.replicate 16 (true, .and)) []) 0) 0 ⟨3, 0⟩ false ∧
      16 ≤ ((leNow (scanWith (leWord opc ⟨3, 0⟩) 0 (List.replicate 16 (true, .and)) []) 0).eng 0).bs.length) ∧
    LeIssues (scanWith (leWord 0x14 Opnd.zero) 0 [(true, .orn)] []) 0 0x14 Opnd.zero ∧
    ((leNow (scanWith (leWord 0x14 Opnd.zero) 0 [(true, .orn)] []) 0).eng 0).bs = (true, .orn) :: [] ∧
    ((leNow (scan (leWord 0x14 Opnd.zero)) 0).eng 0).bs = [] := by
  unfold LeIssues LeBitIs LeReach leNow; decide +kernel

theorem wit_LeEdgesAndCounters :
    (∀ opc ∈ [0x15, 0x16], LeIssues (scan (leWord opc ⟨2, 0x100⟩)) 0 opc ⟨2, 0x100⟩ ∧
      LeReach (leNow (scan (leWord opc ⟨2, 0x100⟩)) 0) 0 ⟨2, 0x100⟩ ((leNow (scan (leWord opc ⟨2, 0x100⟩)) 0).leEa 0 ⟨2, 0x100⟩ / 8) 1 1
        true) ∧
    (∀ opc ∈ [0x1B, 0x1C, 0x1D, 0x1E], LeIssues (scan (leWord opc ⟨2, 0x3FFF8⟩)) 0 opc ⟨2, 0x3FFF8⟩ ∧
      LeReach (leNow (scan (leWord opc ⟨2, 0x3FFF8⟩)) 0) 0 ⟨2, 0x3FFF8⟩ ((leNow (scan (leWord opc ⟨2, 0x3FFF8⟩)) 0).leEa 0 ⟨2, 0x3FFF8⟩)
        8 8 false) := by
  unfold LeIssues LeReach leNow; decide +kernel

theorem wit_LeTimers : ∀ opc ∈ [0x17, 0x18, 0x19, 0x1A],
    LeIssues (scanWith (leWord opc ⟨3, 4095⟩) 0x00FFFFFF [] []) 0 opc ⟨3, 4095⟩ ∧
    (leNow (scanWith (leWord opc ⟨3, 4095⟩) 0x00FFFFFF [] []) 0).poisoned (leTimerAddr 0 4095) = false ∧
    ((leNow (scanWith (leWord opc ⟨3, 4095⟩) 0x00FFFFFF [] []) 0).wa 0).toNat ≤ 0x00FFFFFF ∧
    LeIssues (scanWith (leWord opc ⟨3, 4095⟩) 0x01000000 [] []) 0 opc ⟨3, 4095⟩ ∧
    0x00FFFFFF < ((leNow (scanWith (leWord opc ⟨3, 4095⟩) 0x01000000 [] []) 0).wa 0).toNat := by
  unfold LeIssues leNow; decide +kernel

theorem wit_LeWordInstructions :
    (∀ opc ∈ [0x20, 0x22, 0x23, 0x24, 0x25, 0x26, 0x27, 0x28, 0x29, 0x2A, 0x2B, 0x2C, 0x2D, 0x2E, 0x2F, 0x30, 0x31, 0x32, 0x33],
      LeIssues (scanWith (leWord opc ⟨3, 0xFFFFFF⟩) 0x80000000 [] []) 0 opc ⟨3, 0xFFFFFF⟩ ∧
      LeWordIs (leNow (scanWith (leWord opc ⟨3, 0xFFFFFF⟩) 0x80000000 [] []) 0) 0 ⟨3, 0xFFFFFF⟩ 0xFFFFFFFF ∧
      LeIssues (scan (leWord opc ⟨2, 0x3FFFC⟩)) 0 opc ⟨2, 0x3FFFC⟩ ∧ LeWordIs (leNow (scan (leWord opc ⟨2, 0x3FFFC⟩)) 0) 0 ⟨2, 0x3FFFC⟩ 0) ∧
    (scan 0).engineFitted 0 = true ∧
    LeIssues (scan (leWord 0x21 ⟨1, 0x1C⟩)) 0 0x21 ⟨1, 0x1C⟩ ∧
    LeReach (leNow (scan (leWord 0x21 ⟨1, 0x1C⟩)) 0) 0 ⟨1, 0x1C⟩ ((leNow (scan (leWord 0x21 ⟨1, 0x1C⟩)) 0).leEa 0 ⟨1, 0x1C⟩) 4 4 true := by
  unfold LeIssues LeWordIs LeReach leNow; decide +kernel

theorem wit_LeJumps :
    (∀ opc ∈ [0x34, 0x35, 0x36, 0x37, 0x38], LeIssues (scanWith (leWord opc ⟨3, 0x3FFFF⟩) 0 [] (List.replicate 7 1)) 0 opc ⟨3, 0x3FFFF⟩ ∧
      LeIssues ((scanWith (leWord opc ⟨3, 0x3FFFF⟩) 0 [] (List.replicate 8 1)).setLa 0 true) 0 opc ⟨3, 0x3FFFF⟩ ∧
      (leNow ((scanWith (leWord opc ⟨3, 0x3FFFF⟩) 0 [] (List.replicate 8 1)).setLa 0 true) 0).la 0 = true) ∧
    Opnd.indexed ⟨3, 0x3FFFF⟩ = false ∧
    LeIssues (scanWith (leWord 0x39 Opnd.zero) 0 [] [5]) 0 0x39 Opnd.zero ∧
    ((leNow (scanWith (leWord 0x39 Opnd.zero) 0 [] [5]) 0).eng 0).cs = 5 :: [] ∧ ((leNow (scan (leWord 0x39 Opnd.zero)) 0).eng 0).cs = [] := by
  unfold LeIssues leNow; decide +kernel

theorem wit_LeEnd :
    LeIssues (scan (leWord 0x3F Opnd.zero)) 0 0x3F Opnd.zero ∧ ((leNow (scan (leWord 0x3F Opnd.zero)) 0).unit 4).task = 1 ∧
    (leNow (scan (leWord 0x3F Opnd.zero)) 0).taskD? 1 = some ⟨0, 0, 0, 4, 0, 16, 16, 0, 0, 0, 0⟩ ∧
    ((leNow (scan (leWord 0x3F Opnd.zero)) 0).eng 0).start + 2 + 2 * 9 ≤ (leNow (scan (leWord 0x3F Opnd.zero)) 0).budgetAt 4 ∧
    tsorted none ((leNow (scan (leWord 0x3F Opnd.zero)) 0).eng 0).shadow = true ∧
    (∀ c ∈ ((leNow (scan (leWord 0x3F Opnd.zero)) 0).eng 0).shadow, c.1 < 0x8000) ∧
    LeIssues (scanWith (leWord 0x3F Opnd.zero) 0 [] [5]) 0 0x3F Opnd.zero ∧
    LeIssues ((scan (leWord 0x3F Opnd.zero)).setUnit 4 { UnitSt.reset with win := some 1, task := 1, ext := 10 }) 0 0x3F Opnd.zero ∧
    ((scan (leWord 0x3F Opnd.zero)).setUnit 4 { UnitSt.reset with win := some 1, task := 1, ext := 10 }).budgetAt 4 < 2 + 2 * 9 := by
  unfold LeIssues leNow; decide +kernel

theorem wit_LeTrapEffects : (scan 0).engineFitted 0 = true ∧ ((scan 0).unit (4 + 0)).task < 1024 ∧
    (∀ td ∈ (scan 0).taskD? ((scan 0).unit (4 + 0)).task, td.part < 256) := by decide +kernel

theorem wit_LeBanks :
    (withSet .stop).engineFitted 0 = true ∧
    (withLong ((withSet .stop).set (leBankF 0 0) 1) 0x13 0 none).get (leBankF 0 0) = 1 ∧
    (withLong ((withSet .stop).set (leBankF 0 1) 1) 0x13 0 none).get (leBankF 0 1) = 1 ∧
    (withLong ((withSet .stop).set (leBankF 0 1) 1) 0x13 0 none).get (leBankF 0 0) ≠ 1 ∧
    (imgOf ((withSet .stop).setTbl 0) 3 0).isSome = true ∧ twf byteD ((withSet .stop).setTbl 0) = true ∧
    imgLe ((withSet .stop).setTbl 0) (4096 + 0x2C) 4 ≤ 0x40000 ∧
    ((withSet .run).poisonLine (leBankAddr 0 ((withSet .run).get (F.LE_BANK_ACTIVE 0)) + 16383 * 64)).poisoned
      (leBankAddr 0 ((withSet .run).get (F.LE_BANK_ACTIVE 0)) + 16383 * 64) = true ∧
    ((withSet .run).poisonLine (leBankAddr 0 ((withSet .run).get (F.LE_BANK_ACTIVE 0)) + 16383 * 64)).hxm.homePoison = [] := by decide +kernel

/-! ### Witnesses: the credit queues -/

theorem wit_QueueCommit :
    (withQueue (at_ .run) ⟨0, 0, 0, 0, [], [], none⟩).alive = true ∧ (withQueue (at_ .run) ⟨0, 0, 0, 0, [], [], none⟩).qResetNow
      ((withQueue (at_ .run) ⟨0, 0, 0, 0, [], [], none⟩).qgeo 0) = false ∧
    (let s := withQueue (at_ .run) ⟨15, 0, 0, 0, [], [], none⟩
     (s.qgeo 0).prod = 1 ∧ qCredits (s.qgeo 0) (s.qst (s.qgeo 0)) = 1 ∧ 56 + 8 ≤ (s.qgeo 0).esize ∧ s.qResetNow (s.qgeo 0) = false ∧
     NotTxq (s.qCommitHw (s.qgeo 0) 0 []).1 (s.qgeo 0)) ∧
    (let s := withQueue (at_ .run) ⟨0, 0, 0, 0, [], [], some (at_ .run).fab⟩
     qCredits (s.qgeo 0) (s.qst (s.qgeo 0)) = 16 ∧ s.qResetNow (s.qgeo 0) = true) ∧
    (let s := withQueue (at_ .run) ⟨16, 0, 0, 0, [], [], none⟩
     qCredits (s.qgeo 0) (s.qst (s.qgeo 0)) = 0) := by unfold NotTxq; decide +kernel

theorem wit_QueueBoth :
    (let s := withQueue (at_ .run) ⟨16, 1, 0, 0, [], [], none⟩
     s.alive = true ∧ qCredits (s.qgeo 0) (s.qst (s.qgeo 0)) = 1 ∧ 56 + 8 ≤ (s.qgeo 0).esize ∧ s.qResetNow (s.qgeo 0) = false ∧
     qLevel (s.qgeo 0) (s.qst (s.qgeo 0)) = 15 ∧ NotTxq s (s.qgeo 0) ∧ (s.qst (s.qgeo 0)).wr < 2 * (s.qgeo 0).depth ∧
     (s.qst (s.qgeo 0)).rd < 2 * (s.qgeo 0).depth ∧ (s.qst (s.qgeo 0)).holes = []) := by unfold NotTxq; decide +kernel

theorem wit_QueueRelease :
    (let s := withQueue (at_ .run) ⟨1, 0, 0, 0, [], [], none⟩
     (s.qgeo 0).cons = 2 ∧ qLevel (s.qgeo 0) (s.qst (s.qgeo 0)) = 1) ∧
    (let s := withQueue (at_ .run) ⟨0, 0, 0, 0, [], [], none⟩
     qLevel (s.qgeo 0) (s.qst (s.qgeo 0)) = 0) := by decide +kernel

theorem wit_QueueUpkeep :
    (let s := withItem (at_ .run)
     s.anyQ 0 = s.qgeo 0 ∧ QFitted s 0 ∧ NotTxq s (s.qgeo 0) ∧ QFitted s 75 ∧ NotTxq s (s.anyQ 75) ∧
     (s.qst (s.qgeo 0)).unver = 1 ∧ s.qItemOk (s.qgeo 0) 0 = true ∧
     (s.wr8 (qSlot (s.qgeo 0) 0 + 8) 0xFF).qItemOk (s.qgeo 0) 0 = false ∧ ((s.wr8 (qSlot (s.qgeo 0) 0 + 8) 0xFF).qst (s.qgeo 0)).unver = 1) ∧
    ((withQueue (at_ .run) ⟨1, 1, 0, 1, [], [], none⟩).qst ((withQueue (at_ .run) ⟨1, 1, 0, 1, [], [], none⟩).qgeo 0)).unret ≠ 0 := by
  unfold QFitted NotTxq; decide +kernel

theorem wit_LeQueues :
    (let w := leWord 0x3A ⟨3, 0⟩
     let s := withQueue (scan w) ⟨0, 0, 0, 0, [], [], none⟩
     LeIssues s 0 0x3A ⟨3, 0⟩ ∧ qCredits ((leNow s 0).qgeo 0) ((leNow s 0).qst ((leNow s 0).qgeo 0)) ≠ 0 ∧ 12 ≤ ((leNow s 0).qgeo 0).esize ∧
     NotTxq (leNow s 0) ((leNow s 0).qgeo 0) ∧ (leNow s 0).qResetNow ((leNow s 0).qgeo 0) = false ∧
     qCredits ((leNow (withQueue (scan w) ⟨16, 0, 0, 0, [], [], none⟩) 0).qgeo 0)
       ((leNow (withQueue (scan w) ⟨16, 0, 0, 0, [], [], none⟩) 0).qst ((leNow (withQueue (scan w) ⟨16, 0, 0, 0, [], [], none⟩) 0).qgeo 0)) = 0) ∧
    (let w := leWord 0x3B ⟨3, 0⟩
     let s := (withItem (scan w)).setQueue 0x38000 ⟨1, 0, 0, 0, [], [], none⟩
     LeIssues s 0 0x3B ⟨3, 0⟩ ∧ s.engineFitted 0 = true ∧ NotTxq (leNow s 0) ((leNow s 0).qgeo 0) ∧ qLevel ((leNow s 0).qgeo 0) ((leNow s 0).qst ((leNow s 0).qgeo 0)) ≠ 0 ∧
     (leNow s 0).qItemOk ((leNow s 0).qgeo 0) ((leNow s 0).qst ((leNow s 0).qgeo 0)).rd = true ∧
     (leNow (s.wr8 (qSlot (s.qgeo 0) 0 + 8) 0xFF) 0).qItemOk ((leNow s 0).qgeo 0) ((leNow s 0).qst ((leNow s 0).qgeo 0)).rd = false ∧
     qLevel ((leNow (withQueue (scan w) ⟨0, 0, 0, 0, [], [], none⟩) 0).qgeo 0)
       ((leNow (withQueue (scan w) ⟨0, 0, 0, 0, [], [], none⟩) 0).qst ((leNow (withQueue (scan w) ⟨0, 0, 0, 0, [], [], none⟩) 0).qgeo 0)) = 0) := by
  unfold LeIssues leNow NotTxq; decide +kernel

/-! ### Witnesses: pairs, dispatcher, comparators -/

theorem wit_PairExceptions :
    machine.executes 0 = true ∧ machine.trigHit 0 = false ∧ (machine.pair 0).mtvec ≠ 0 ∧ (machine.pair 0).umode = false ∧ machine.sup.st = .run ∧
    userTask.executes 0 = true ∧ userTask.trigHit 0 = false ∧ (userTask.pair 0).umode = true ∧ (userTask.pair 0).mtvec ≠ 0 ∧
    (let s := machine.modPair 0 fun q => { q with mtvec := 0 }
     s.executes 0 = true ∧ (s.pair 0).mtvec = 0) ∧
    (let s := userTask.modPair 0 fun q => { q with mtvec := 0 }
     s.executes 0 = true ∧ (s.pair 0).mtvec = 0 ∧ s.taskOn 0 = some 0) := by decide +kernel

theorem wit_PairVectorEntry :
    (let s := (machine.modPair 0 fun q => { q with mstMie := true, ven := true }).setCommitted 0 (some ⟨0, 0x10000000, 1⟩)
     s.committed 0 = some ⟨0, 0x10000000, 1⟩ ∧ s.sup.st ≠ .dusk ∧ s.pairFitted 0 = true ∧ s.alive = true ∧ (s.pair 0).idle = false ∧ s.awake 0 = true ∧
     s.rackHolds 0 = false ∧ (s.pair 0).accepts = true) ∧
    (machine.pair 0).accepts = false ∧
    (let q := (State.reset.setPair 0 { Pair.reset with ven := true }).pair 0
     q.hwPark = true ∧ q.wfi = true ∧ q.accepts = true) := by decide +kernel

theorem wit_PairReturnAndWait :
    (machine.pair 0).hwPark = false ∧ ((machine.modPair 0 fun q => { q with mstMpp := true }).pair 0).mstMpp = true ∧
    (machine.pair 0).mstMpp = false ∧ machine.taskOn 0 = none ∧ (machine.unit 0).saveDue = none ∧
    (let s := userTask.modPair 0 fun q => { q with umode := false }
     s.executes 0 = true ∧ (s.taskOn 0).isSome = true) ∧
    (let s := machine.setUnit 0 { UnitSt.reset with saveDue := some 0 }
     s.executes 0 = true ∧ (s.unit 0).saveDue = some 0) ∧
    machine.get (F.HX_IDLE_ADDR 0) = 0 ∧ (machine.set (F.HX_IDLE_ADDR 0) 4).get (F.HX_IDLE_ADDR 0) ≠ 0 ∧ (machine.pair 0).parkDue = false ∧
    ((machine.modPair 0 fun q => { q with parkDue := true }).pair 0).parkDue = true := by decide +kernel

theorem wit_PairBanksFencesAndHalts :
    (machine.pair 0).bankSt (machine.pair 0).view ≠ .loading ∧ (machine.pair 0).bankSt (machine.pair 0).view ≠ .preloaded ∧
    (((machine.modPair 0 fun q => { (q.setBankSt 3 .preloaded) with view := 3 }).pair 0).bankSt 3 = .preloaded) ∧
    inSram ((0x10008001 : DWord).toNat % 2 ^ 40 / 2 ^ 15 * 2 ^ 15) = true ∧ inSram ((1 : DWord).toNat % 2 ^ 40 / 2 ^ 15 * 2 ^ 15) = false ∧
    (machine.pair 0).ven = false ∧
    (let s := machine.modPair 0 fun q => { q with fence := 1 }
     (s.pair 0).fence ≠ 0 ∧ (s.pair 0).idle = false ∧ s.fenceDone 0 = true) ∧
    (let s := ((at_ .service).setPair 0 (pairReady.setPc 0x10000000)).modPair 0 fun q => { q with trig := tput noneD q.trig 3 (some 0x10000000) }
     s.executes 0 = true ∧ s.sup.st = .service ∧ (s.pair 0).umode = false ∧ tget noneD (s.pair 0).trig 3 = some (s.pair 0).pc) := by
  decide +kernel

/-- P0 in machine mode issues an instruction of SRAM; its caches correct an error on the way. -/
theorem wit_Fetched :
    (∀ b, Fetched machine machine 0 b ⟨[], []⟩) ∧
    Fetched machine (machine.report .CACHE_CORRECTED 0x20 [0, 1, 5]) 0 true ⟨[], [(1, 5)]⟩ := by
  refine ⟨fun b => ⟨⟨by decide +kernel, by decide +kernel⟩, rfl, ?_⟩, ⟨by decide +kernel, by decide +kernel⟩, rfl, rfl⟩
  cases b <;> rfl

/-- P0 in machine mode, with an address in x1. -/
def machineX1 (a : Nat) : State :=
  (machine.set F.HXM_LAYOUT_MACH_PAGES 16).modPair 0 fun q => { q.setX 1 (BitVec.ofNat 64 a) with resv := some (0x1000003C / 64) }

theorem wit_Fetched_x1 : Fetched (machineX1 0x1000003C) (machineX1 0x1000003C) 0 true ⟨[], []⟩ := ⟨⟨by decide +kernel, by decide +kernel⟩, rfl, rfl⟩

theorem wit_PairInstructions :
    (machine.modPair 0 fun q => q.setPc 0x30000000).executes 0 = true ∧ (machine.modPair 0 fun q => q.setPc 0x30000000).trigHit 0 = false ∧
    inMap ((machine.modPair 0 fun q => q.setPc 0x30000000).pair 0).pc = false ∧ (machine.pair 0).curBank.fs = 0 ∧
    fpPlain 0x00 = false ∧ (machine.pair 0).rounding 5 = none ∧ (machine.pair 0).umode = false ∧ (machine.pair 0).mtvec ≠ 0 ∧
    (let a := (((machineX1 0x1000003E).pair 0).x 1 + 0).toNat
     inLe a = false ∧ inCan a = false ∧ a / 64 ≠ (a + 2 ^ memSize .w - 1) / 64 ∧ a % 4 ≠ 0) ∧
    (let a := (((machineX1 0x41000002).pair 0).x 1 + 0).toNat
     inLe a = true ∧ machine.absentAt a = false ∧ machine.absentAt (a + 2 ^ memSize .w - 1) = false ∧ a % 2 ^ memSize .w ≠ 0) ∧
    (let a := (((machineX1 0x41800004).pair 0).x 1).toNat
     inCan a = true ∧ machine.absentAt a = false) ∧
    (0x300 ≤ (0x340 : BitVec 12).toNat ∧ (0x340 : BitVec 12).toNat < 0x800) ∧
    (0xB05 ≤ (0xB1F : BitVec 12).toNat ∧ (0xB1F : BitVec 12).toNat < 0xB20) := by decide +kernel

theorem wit_PairFloatInstructions :
    (let s := machine.modPair 0 fun q => q.setCur { q.curBank with fs := 1, fcsr := 0x20 }
     (s.pair 0).curBank.fs ≠ 0 ∧ (s.pair 0).rounding 7 = some 1 ∧ fpPlain 0x10 = true) ∧
    fpResult 0x01 0 0x3FF0000000000000 0x4000000000000000 0 = some (0x4008000000000000, 0) ∧
    fpFromX 0x69 0 3 = some (0x4008000000000000, 0) ∧ fpToX 0x61 1 0x4008000000000000 0 = some (3, 0) ∧
    fpSingle.val 0x3F800000 = .fin false 0x800000 (-23) ∧ (FpVal.nan true).isNan = true ∧
    (0x1000003 : Int).natAbs < 2 ^ (fpDouble.m + 1) := by decide +kernel

theorem wit_PairMemoryInstructions :
    (let s := machineX1 0x1000003C
     (s.pair 0).umode = false ∧ ((s.pair 0).x 1 + 0).toNat = 0x1000003C ∧
     s.inMachSram 0x1000003C = true ∧ (s.pair 0).resv = some (((s.pair 0).x 1).toNat / 64) ∧ ((s.pair 0).x 1).toNat % 2 ^ 2 = 0) ∧
    (∀ b ∈ List.range 4, machine.poisoned (0x1000003C + b) = false) ∧ (machine.pair 0).resv ≠ some (0x1000003C / 64) ∧
    (let s := machineX1 0x11FFFFF8
     s.inMachSram ((s.pair 0).x 1).toNat = false ∧ inQstore ((s.pair 0).x 1).toNat = false ∧
     0x11F00000 ≤ ((s.pair 0).x 1).toNat ∧ ((s.pair 0).x 1).toNat + 2 ^ memSize .d ≤ 0x12000000 ∧ s.poison = []) ∧
    (let s := machineX1 0x11EFFFF8
     ((s.pair 0).x 1).toNat + 8 ≤ 0x11F00000 ∧ inQstore ((s.pair 0).x 1).toNat = true) := by decide +kernel

theorem wit_RegisterWrites :
    machine.offFitted 0x20130 = true ∧ machine.offFitted 0x20144 = false ∧ (regRow 0x60008).isSome = true ∧ (regRow 0x0004).isNone = true ∧
    (let s := (at_ .config).setPair 0 (pairReady.setPc 0x10000000)
     s.executes 0 = true ∧ s.sup.st = .config) ∧
    inMap (0x40000000 + 0x100000) = false ∧ State.executes { State.reset with pairs := [] } 0 = false := by decide +kernel

/-- A register that a store reaches by its access codes alone. -/
theorem wit_RegisterWrites_plain : foreignBank 0 0x40080010 = false ∧ inPort 0x40080010 = false ∧ (regRow 0x80010).isSome = true ∧
    ∀ x w m, State.regWrite x 0 0x80010 w m = x.plainWrite 0x80010 w m := ⟨by decide, by decide, by decide +kernel, fun _ _ _ => rfl⟩

theorem wit_AbsentUnits :
    (let s : State := { machine with ident := { machine.ident with variant := .tvm9210 } }
     s.executes 0 = true ∧ inMap 0x40048000 = true ∧ s.absentAt 0x40048000 = true ∧ s.offFitted 0x48000 = false ∧ (s.pair 0).mtvec ≠ 0) ∧
    machine.absentAt 0x40048000 = false ∧ inMap 0x40100000 = false := by decide +kernel

theorem wit_Identity : (machine.modPair 0 fun q => q.setX 1 0x40000010).executes 0 = true ∧
    (((machine.modPair 0 fun q => q.setX 1 0x40000010).pair 0).x 1 + 0).toNat = 0x40000000 + 0x10 := by decide +kernel

theorem wit_Vdx :
    (at_ .run).sourceAbsent 435 = false ∧ (at_ .run).sourceAbsent 436 = true ∧ (at_ .run).sourceAbsent 511 = true ∧ (at_ .run).lrbFitted = true ∧
    tget boolD (at_ .run).vdx.raw (368 + 7) = !true ∧ (at_ .run).alive = true ∧ (at_ .run).masked 375 = true ∧ (at_ .run).flag (F.VDX_SRCSTAT_ACTIVE 375) = false ∧
    fieldGet 0x00200000 20 2 = 2 ∧ fieldGet 0x00300000 20 2 = 3 ∧ ((at_ .run).set (F.VDX_MASK_MASK 0) 0).masked 5 = false ∧
    (at_ .run).Canonical ∧
    (let s := ((((machine.modPair 0 fun q => { q with mstMie := true, ven := true, vbase := 0x10000000 }).set (F.VDX_MASK_MASK 0) 0).set
       (F.VDX_SRCCFG_PRIO 5) 15).set (F.VDX_SRCCFG_MODE 5) 1).raise 5
     s.canCommit 0 = true ∧ s.selection 0 = some 5) ∧
    tget noneD ((at_ .run).raise 5).vdx.arrived 5 = some ((at_ .run).raise 5).fab ∧ tget noneD (at_ .run).vdx.arrived 5 = none ∧
    ((machine.setStack 0 [(5, 3)]).stack 0).any (fun c => c.1 == (5 : Word).toNat % 512) = true ∧
    (machine.stack 0).any (fun c => c.1 == (5 : Word).toNat % 512) = false := by
  unfold State.Canonical; decide +kernel

theorem wit_Comparators :
    machine.pairFitted 0 = true ∧ machine.alive = true ∧ machine.sup.st ≠ .dusk ∧ 63 < cmpLanes 1 ∧ (machine.pair 0).frozen = false ∧ machine.get (F.PWR_PAIRCLK_STATE 0) = 0 ∧
    machine.engineFitted 1 = true ∧ machine.unitFitted 5 = true ∧ machine.clk.opOn = true ∧ machine.cmpDue 5 = false ∧
    (let s := machine.modPair 0 fun q => { q with cmpDue := true }
     s.cmpDue 0 = true ∧ s.testState = true ∧ (s.pair 0).halted = false ∧ (∀ q, q < 4 → (s.pair q).testing = none) ∧
     s.testGap 0 2400 = true) ∧
    (let s := machine.set (F.LE_CMPST_DUE 1) 1
     s.cmpDue (4 + 1) = true ∧ (s.eng 1).testing = none ∧ s.testGap (4 + 1) 1600 = true) ∧
    ((machine.modPair 0 fun q => { q with testing := some 2000 }).pair 0).testing = some 2000 ∧
    ((machine.setEng 1 { Engine.reset with testing := some 2000 }).eng 1).testing = some 2000 := by decide +kernel

/-! ### Witnesses: the executive -/

theorem wit_WindowStartEngine :
    (let s := framed .run
     let u := s.advance (s.mt (startMt s ⟨500, 1000, 1, 3⟩))
     WindowDue s 1 ⟨500, 1000, 1, 3⟩ ⟨0, 0, 0, 4, 0, 16, 16, 0, 0, 0, 0⟩ ∧ (s.task 1).st = .idle ∧ (s.eng 0).testing = none ∧ u.clk.t = 100000) := by
  unfold WindowDue; and_intros <;> decide +kernel

/-- P1 executes in user mode; the context of its window is preloaded in bank 2. -/
def preloadedPair : State :=
  ((framed .run).setPair 1 (({ pairReady.setPc 0x1000 with umode := true, curValid := true, pre := some 2 }).setBankSt 2 .preloaded)).setUnit 1
    { UnitSt.reset with preWin := some 2 }

theorem wit_WindowStartPair :
    (let s := preloadedPair
     let u := s.advance (s.mt (startMt s ⟨600, 1000, 3, 3⟩))
     WindowDue s 2 ⟨600, 1000, 3, 3⟩ ⟨1, 0, 0, 1, 0, 32, 16, 0x1000, 0x8000, 0, 0⟩ ∧ (s.task 3).st = .idle ∧ u.stagedOk 2 (startMt s ⟨600, 1000, 3, 3⟩) = true ∧ (s.unit 1).saveDue = none ∧
     (s.pair 1).pre = some 2 ∧ (s.unit 1).preWin = some 2 ∧ u.awake 1 = true ∧ (s.pair 1).umode = true ∧ (s.pair 1).idle = false ∧
     (s.pair 1).cur ≠ 2 ∧ (s.pair 1).bankSt (s.pair 1).cur = .current) := by
  unfold WindowDue; and_intros <;> decide +kernel

/-- Unit `u` runs task `n` in the window `w`. -/
def inWindow (u w n : Nat) : State :=
  (framed .run).setUnit u { UnitSt.reset with win := some w, task := n, opened := true, ended := false, ext := 100000 }

theorem wit_BudgetOver :
    (let s := inWindow 0 0 0
     ((s.unit 0).win = some 0 ∧ (s.unit 0).ended = false ∧ s.taskD? 0 = some ⟨0, 0, 0, 0, 0, 0, 16, 0x1000, 0x8000, 0, 1⟩ ∧
      s.window? 0 = some ⟨400, 1000, 0, 3⟩ ∧ (3 : Nat).testBit 1 = true ∧ (s.task 0).cont = 0)) ∧
    (inWindow 0 0 2).taskD? 2 = some ⟨0, 2, 0, 0, 0, 0, 0, 0x1000, 0x8000, 0, 0⟩ ∧
    (let s := { inWindow 4 1 1 with hx := { (inWindow 4 1 1).hx with sched := { sched1 with tasks := sched1.tasks.set 1 ⟨0, 0, 1, 4, 0, 16, 16, 0, 0, 0, 0⟩ } } }
     (s.unit 4).win = some 1 ∧ s.taskD? 1 = some ⟨0, 0, 1, 4, 0, 16, 16, 0, 0, 0, 0⟩ ∧ (s.task 1).cont < 1) := by and_intros <;> decide +kernel

theorem wit_BudgetAndQuantumEnds :
    (((inWindow 4 1 1).unit 4).win).isSome = true ∧ (inWindow 4 1 1).timerFrozen 4 = false ∧ (inWindow 4 1 1).dispatching = true ∧
    (((inWindow 3 1 1).unit 3).win).isSome = true ∧ (inWindow 3 1 1).timerFrozen 3 = false ∧
    ((inWindow 3 1 1).setUnit 3 { (inWindow 3 1 1).unit 3 with haltedAt := some 5 }).timerFrozen 3 = true ∧
    (((framed .run).setUnit 2 { UnitSt.reset with slack := some (1, 5000) }).unit 2).slack = some (1, 5000) ∧ UnitSt.reset.haltedAt = none := by and_intros <;> decide +kernel

theorem wit_Preloads :
    ((framed .run).pairFitted 1 = true ∧ (framed .run).alive = true ∧ ((framed .run).pair 1).frozen = false ∧
      (framed .run).wantWin 1 = some (2, 120000) ∧ ((framed .run).unit 1).preWin = none ∧ ((framed .run).pair 1).freeBank = some 1) ∧
    (let s := ((framed .run).modPair 1 fun q => q.setBankSt 3 .loading).setUnit 1 { UnitSt.reset with preWin := some 2 }
     (s.pair 1).frozen = false ∧ (s.pair 1).bankSt 3 = .loading ∧ (∀ c, c < 3 → (s.pair 1).bankSt c ≠ .loading) ∧
     (s.unit 1).slackPre = none ∧ (s.unit 1).preWin = some 2 ∧ s.window? 2 = some ⟨600, 1000, 3, 3⟩ ∧ (s.unit 1).win = none) ∧
    (((framed .run).modPair 1 fun q => q.setBankSt 3 .saving).pair 1).bankSt 3 = .saving := by and_intros <;> decide +kernel

theorem wit_DeferredSwitch :
    (let s := preloadedPair.setUnit 1 { UnitSt.reset with win := some 2, preWin := some 2, start := 500, mm := true, ended := false, opened := false }
     s.pairFitted 1 = true ∧ s.awake 1 = true ∧ (s.unit 1).win = some 2 ∧ (s.unit 1).opened = false ∧ (s.unit 1).ended = false ∧
     (s.unit 1).preWin = some 2 ∧ (s.pair 1).pre = some 2 ∧ (s.pair 1).umode = true ∧ (s.pair 1).idle = false ∧ (s.pair 1).diverged = false ∧ (s.unit 1).mm = true ∧
     tget natD s.pwr.awakeAt 1 ≤ (s.unit 1).start) := by and_intros <;> decide +kernel

theorem wit_ExecutiveCalls :
    (let s := userTask
     Calls s 0 0 ⟨0, 0, 0, 0, 0, 0, 16, 0x1000, 0x8000, 0, 1⟩ ∧ (s.unit 0).slack = none ∧ s.clk.t ≤ s.budgetAt 0 ∧ (s.pair 0).mtvec ≠ 0 ∧
     (s.unit 0).began = false ∧ ((s.execBegin 0).unit 0).began = true) ∧
    Calls background 0 2 ⟨0, 2, 0, 0, 0, 0, 0, 0x1000, 0x8000, 0, 0⟩ := by unfold Calls; and_intros <;> decide +kernel

theorem wit_ExecutiveRegisters :
    (let s := userTask
     s.pairFitted 0 = true ∧ (s.unit 0).opened = true ∧ (s.unit 0).ended = false ∧ (s.unit 0).slack = none ∧ (s.unit 0).task = 0 ∧
     s.taskD? 0 = some ⟨0, 0, 0, 0, 0, 0, 16, 0x1000, 0x8000, 0, 1⟩) ∧
    (3 : Fin 4) ≠ 0 ∧
    (let s := userTask.modPair 0 fun q => q.setBankSt 3 .held
     (s.pair 0).heldBank = some 3) ∧
    inSram (((0x10000004 : Word).toNat) / 4 * 4) = true ∧ inSram (((4 : Word).toNat) / 4 * 4) = false := by and_intros <;> decide +kernel

/-! ### Witnesses: memory and paging -/

/-- The background task calls with an address and a count in a0 and a1. -/
def calling (a n : DWord) : State := (withProg background).modPair 0 fun q => (q.setX 10 a).setX 11 n

theorem wit_PageOperations :
    Calls (calling 0x40000 1) 0 2 ⟨0, 2, 0, 0, 0, 0, 0, 0x1000, 0x8000, 0, 0⟩ ∧
    (calling 0x40000 1).pageStatus .alloc 0 0x40000 1 = 0 ∧ (calling 0x47000 1).pageStatus .alloc 0 0x47000 1 = 0 ∧
    (calling 0x47000 2).pageStatus .alloc 0 0x47000 2 ≠ 0 ∧ (calling 0x10000 8).pageStatus .prefetch 0 0x10000 8 = 0 ∧
    (calling 0x10000 8).pageStatus .flush 0 0x10000 8 = 0 ∧ (calling 0x40000 1).pageStatus .free 0 0x40000 1 = 4 ∧
    ((calling 0x40000 1).setPage (pkey 0 64) { PageSt.absent with exist := true }).pageStatus .free 0 0x40000 1 = 0 ∧
    Calls (withProg userTask) 0 0 ⟨0, 0, 0, 0, 0, 0, 16, 0x1000, 0x8000, 0, 1⟩ := by
  unfold Calls; and_intros <;> decide +kernel

/-- A page fetch waits for the stager, and the frame pool is not empty. -/
def staging : State :=
  let s := (withProg (framed .run)).setPage (pkey 0 16) { PageSt.absent with home := some 3 }
  { s with hxm := { s.hxm with stq := [⟨.window 0, 0, 16, 80000, 0⟩] } }

theorem wit_Staging :
    (let s := withProg (framed .run)
     s.window? 0 = some ⟨400, 1000, 0, 3⟩ ∧ s.taskD? 0 = some ⟨0, 0, 0, 0, 0, 0, 16, 0x1000, 0x8000, 0, 1⟩ ∧ s.alive = true ∧
     s.hx.frameOn = true ∧ s.dusked = false ∧
     (s.startsOf ⟨400, 1000, 0, 3⟩).find? (fun x => decide (s.clk.t ≤ s.mt x) && (s.stagedAt 0 x).isNone) = some 400 ∧
     s.wsetOf ⟨0, 0, 0, 0, 0, 0, 16, 0x1000, 0x8000, 0, 1⟩ = [16] ∧ (s.page (pkey 0 16)).frame = none ∧ (s.page (pkey 0 16)).poisoned = false) ∧
    (let s := staging
     s.nextStage = some ⟨.window 0, 0, 16, 80000, 0⟩ ∧ s.alive = true ∧ s.dusked = false ∧ s.stagerErrs = [] ∧ s.segOf 0 16 = some ⟨16, 8, 1, 7, 0⟩ ∧
     s.page (pkey 0 16) = { s.page (pkey 0 16) with frame := none, home := some 3, poisoned := false } ∧
     s.hxm.homePoison.contains 3 = false ∧ s.part? 0 = some ⟨16, 64, 0x3F, 2, 2⟩ ∧ s.held 0 < 16 ∧ s.hxm.free ≠ [] ∧ Memory.wf s.mem) ∧
    (at_ .dusk).dusked = true := by
  and_intros <;> decide +kernel

theorem wit_PageMisses :
    (let s := withProg userTask
     Calls s 0 0 ⟨0, 0, 0, 0, 0, 0, 16, 0x1000, 0x8000, 0, 1⟩ ∧ s.executes 0 = true ∧ s.umap 0 0x10FFF 1 .read = .miss 16 false ∧
     s.umap 0 0x11000 1 .read = .violation 17 ∧ (s.pair 0).mtvec ≠ 0) ∧
    (let s := withProg background
     Calls s 0 2 ⟨0, 2, 0, 0, 0, 0, 0, 0x1000, 0x8000, 0, 0⟩ ∧ s.executes 0 = true ∧ s.umap 2 0x17FFF 1 .read = .fill 23) ∧
    (let s := (withProg { userTask with hx := { userTask.hx with sched := { sched1 with tasks := sched1.tasks.set 0 ⟨0, 1, 0, 0, 0, 0, 16, 0x1000, 0x8000, 0, 1⟩ } } }).setPage
       (pkey 0 17) { PageSt.absent with exist := true, frame := some 5 }
     Calls s 0 0 ⟨0, 1, 0, 0, 0, 0, 16, 0x1000, 0x8000, 0, 1⟩ ∧ s.umap 0 0x11000 1 .read = .mem (frameAddr 5) (some (pkey 0 17)) ∧
     (s.wsetOf ⟨0, 1, 0, 0, 0, 0, 16, 0x1000, 0x8000, 0, 1⟩).contains 17 = false ∧ (s.unit 0).seen.contains 17 = false) := by
  unfold Calls; and_intros <;> decide +kernel

/-- A page operation of partition 0 waits for its completion. -/
def opWaits (k : PageOpKind) (first n : Nat) : State :=
  let s := withProg (framed .run)
  { s with hxm := { s.hxm with ops := [⟨k, 0, first, n⟩] } }

theorem wit_PageOpCompletes :
    (opWaits .alloc 64 2).hxm.ops.find? (fun x => x.part == 0) = some ⟨.alloc, 0, 64, 2⟩ ∧
    (∀ i, i < 2 → ((opWaits .alloc 64 2).page (pkey 0 (64 + i))).exist = false) ∧
    (opWaits .free 64 2).hxm.ops.find? (fun x => x.part == 0) = some ⟨.free, 0, 64, 2⟩ ∧
    (let s := ((opWaits .free 64 2).setPage (pkey 0 64) { PageSt.absent with exist := true }).setPage (pkey 0 65) { PageSt.absent with exist := true }
     ∀ i, i < 2 → (s.page (pkey 0 (64 + i))).exist = true) ∧
    (opWaits .prefetch 16 8).hxm.ops.find? (fun x => x.part == 0) = some ⟨.prefetch, 0, 16, 8⟩ ∧
    (opWaits .prefetch 16 8).opWaits ⟨.prefetch, 0, 16, 8⟩ .prefetch = false ∧
    (opWaits .flush 16 8).hxm.ops.find? (fun x => x.part == 0) = some ⟨.flush, 0, 16, 8⟩ ∧
    (opWaits .flush 16 8).opWaits ⟨.flush, 0, 16, 8⟩ .flush = false := by and_intros <;> decide +kernel

/-- Page 16 of partition 0 stands in frame 5, at 0x10005000; the machine region has 4 pages. -/
def resident : State :=
  ((withProg (framed .run)).setPage (pkey 0 16) { PageSt.absent with exist := true, frame := some 5, home := some 3 }).set F.HXM_LAYOUT_MACH_PAGES 4

theorem wit_MemoryUpkeep :
    (let s := framed .run
     let e : LineErr := ⟨4, 0, [7, 8, 9], none⟩
     s.alive = true ∧ s.symbols e = [7, 8, 9] ∧ symCorrectable (s.symbols e) = true ∧
     s.clk.t ≤ max (tget natD s.hxm.passAt 4) s.pwr.dawnAt + 2 * s.scrubPeriod 4 ∧ s.hxm.passed.contains 4 = false ∧
     s.hxm.passed.length < 4 ∧ s.sup.st ≠ .dusk) ∧
    (let s := { framed .run with hxm := { (framed .run).hxm with passed := [0, 1, 2, 3] } }
     s.hxm.passed.contains 4 = false ∧ s.hxm.passed.length = 4) ∧
    (let s := { framed .run with clk := { (framed .run).clk with t := 2 * (framed .run).scrubPeriod 0 + 1 } }
     max (tget natD s.hxm.passAt 0) s.pwr.dawnAt + 2 * s.scrubPeriod 0 < s.clk.t) ∧
    (let s := { framed .run with hxm := { (framed .run).hxm with sym := [(5 * 128 + 69, 2)] } }
     s.symbols ⟨0, 0x10005000, [69], none⟩ = [69] ∧ inSram 0x10005000 = true ∧
     tget natD s.hxm.sym ((0x10005000 - sramBase) / 4096 * 128 + 69) = 2 ∧ s.hxm.retired.contains 5 = false) ∧
    Uncorrectable (framed .run) ⟨0, 0x11F00000, [0, 1, 2, 3], none⟩ ∧ Uncorrectable (framed .run) ⟨1, 0x100000000, [70], some []⟩ ∧
    (let s := resident
     Uncorrectable s ⟨0, 0x10005000, [0, 1, 2, 3], none⟩ ∧ inQstore 0x10005000 = false ∧ s.inMachSram 0x10005000 = false ∧
     s.frameKey 5 = some (pkey 0 16) ∧ s.segOf 0 16 = some ⟨16, 8, 1, 7, 0⟩ ∧ (s.page (pkey 0 16)).frame = some 5 ∧
     (s.page (pkey 0 16)).written = false) := by
  unfold Uncorrectable; and_intros <;> decide +kernel

/-! ### Witnesses: the cycle -/

/-- A source of the Ethernet kind offers an item at 900 in cycle 3. -/
def offered : State :=
  (framed .run).setSource (srcKey 2 7) { Source.reset with cur := some ⟨⟨[1, 2], 0, 0⟩, 900, 3⟩, prev := some ⟨⟨[3, 4], 0, 0⟩, 800, 2⟩, held := some ⟨⟨[9], 0, 0⟩, 700, 1⟩ }

/-- The group's task cycle stands at a point of its sequence. -/
def groupAt (published closed voted : Bool) : State :=
  (framed .run).setGrp 0 { GroupSt.reset with on := true, live := true, frz := 0, published := published, closed := closed, voteDone := voted }

theorem wit_CycleStart : (framed .run).ticking = true ∧ (framed .run).engineFirst = false ∧ (framed .run).gh.nextCycle = none ∧
    (let s : State := { framed .run with gh := { (framed .run).gh with own := some (10, 1) }, cyc := { (framed .run).cyc with start := 100 } }
     s.ticking = true ∧ s.gh.nextCycle = none ∧ s.engineFirst = true) ∧ (framed .run).mfLen = 1 ∧ (framed .run).hx.frameOn = true ∧
    ({ framed .run with hx := { (framed .run).hx with sched := { sched1 with mfLog2 := 1 } } } : State).mfLen = 2 := by and_intros <;> decide +kernel

theorem wit_FreezeAndPublish :
    (let s := scheduled .run
     let s : State := { s with cyc := { s.cyc with running := true } }
     s.group? 0 = some ⟨0, 0, 0, 64, 64, 100, 2000, 2100⟩ ∧ s.cycling = true ∧ s.cyc.count % 2 ^ 0 = 0 ∧ (s.grp 0).on = false ∧
     ¬ ((s.grp 0).on = true ∧ (s.grp 0).frzMt = s.cycMt + 0)) ∧
    (let s := groupAt false false false
     s.group? 0 = some ⟨0, 0, 0, 64, 64, 100, 2000, 2100⟩ ∧ s.cycling = true ∧ (s.grp 0).on = true ∧ (s.grp 0).published = false ∧
     s.simplex = true) := by and_intros <;> decide +kernel

theorem wit_FreezeLatch :
    (let c := offered.source (srcKey 2 7)
     offered.srcAbsent 2 7 = false ∧ c.cur = some ⟨⟨[1, 2], 0, 0⟩, 900, 3⟩ ∧ c.prev = some ⟨⟨[3, 4], 0, 0⟩, 800, 2⟩ ∧
     c.before 901 = some ⟨⟨[1, 2], 0, 0⟩, 900, 3⟩ ∧ c.before 900 = some ⟨⟨[3, 4], 0, 0⟩, 800, 2⟩ ∧ c.before 800 = none) ∧
    (let s := offered.setPresence 2 7 2 0 0
     s.srcAbsent 2 7 = true ∧ (s.source (srcKey 2 7)).held = some ⟨⟨[9], 0, 0⟩, 700, 1⟩) ∧
    (offered.setPresence 2 8 2 0 0).srcAbsent 2 8 = true ∧ (offered.source (srcKey 2 8)).held = none := by and_intros <;> decide +kernel

theorem wit_OutputSteps :
    (let s := groupAt true false false
     s.group? 0 = some ⟨0, 0, 0, 64, 64, 100, 2000, 2100⟩ ∧ s.cycling = true ∧ (s.grp 0).on = true ∧ (s.grp 0).closed = false ∧
     s.simplex = true ∧ s.mstate = 0 ∧ s.hx.zero = [] ∧ s.cyc.varWrites = [] ∧ s.cyc.forces = []) ∧
    (let s := groupAt true true false
     s.cycling = true ∧ (s.grp 0).closed = true ∧ (s.grp 0).voteDone = false ∧ s.inRun = true ∧ s.simplex = true) ∧
    (let s := groupAt true true true
     s.cycling = true ∧ (s.grp 0).voteDone = true ∧ s.inRun = true ∧ s.simplex = true ∧ s.mstate = 0) ∧
    (let s := (((groupAt true true true).set (F.SIO_DOCFG_EN 0) 1).set (F.SIO_DOCFG_OGRP 0) 2).set (F.TVL_OGRP_EN 2) 1
     s.connIds = [] ∧ s.sioFitted = true ∧ s.doEn 0 = true ∧ s.flag (F.TVL_OGRP_EN (s.get (F.SIO_DOCFG_OGRP 0))) = true ∧
     s.get (F.TVL_OGRP_CGRP (s.get (F.SIO_DOCFG_OGRP 0))) = 0 ∧ s.tvl.leases = []) := by and_intros <;> decide +kernel

/-- An Ethernet source that the signal map names. -/
def mapped : State := { offered with cfg := { offered.cfg with sigs := [⟨2, 0, 7, 0, 2, 8, 3, 0, 2, 0⟩] } }

theorem wit_PresenceCounting :
    (mapped.countAt 2 7 = some (0 + 4000 * mtUt) ∧ mapped.cycling = true ∧ mapped.keepsPresence 2 7 = true ∧ mapped.limits 2 7 = (3, 2)) ∧
    PresIs (mapped.setPresence 2 7 1 1 0) 2 7 1 1 0 ∧ PresIs (mapped.setPresence 2 7 2 0 0) 2 7 2 0 0 ∧
    PresIs (mapped.setPresence 2 7 2 0 1) 2 7 2 0 1 ∧ PresIs (mapped.setPresence 2 7 1 2 0) 2 7 1 2 0 ∧
    ((mapped.setPresence 2 7 1 1 0).limits 2 7) = (3, 2) := by
  unfold PresIs; and_intros <;> decide +kernel

/-! ### Witnesses: power and clocks -/

/-- P1 is gated (1), stopped (2) or starting (3), and its window 2 is to come. -/
def clockOf (n : Nat) : State := (framed .run).set (F.PWR_PAIRCLK_STATE 1) n

theorem wit_WakeRequests :
    ((clockOf 1).pairFitted 1 = true ∧ (clockOf 1).get (F.PWR_PAIRCLK_STATE 1) = 1 ∧ (clockOf 1).wantWin 1 = some (2, 120000)) ∧
    ((clockOf 2).get (F.PWR_PAIRCLK_STATE 1) = 2 ∧ (∀ q, q < 4 → q ≠ 1 → (clockOf 2).get (F.PWR_PAIRCLK_STATE q) ≠ 2)) ∧
    (clockOf 3).get (F.PWR_PAIRCLK_STATE 1) = 3 := by and_intros <;> decide +kernel

/-- One request waits at the arbiter. -/
def asks (s : State) (r : PwrReq) : State := { s with pwr := { s.pwr with waiting := [r] } }

theorem wit_Arbitration :
    (let s := asks (clockOf 1) ⟨1, 1, 100, 0⟩
     s.alive = true ∧ s.clk.frcOn = true ∧ s.pwr.budgetNext = none ∧ s.pwr.charges = [] ∧ s.pwr.waiting = [⟨1, 1, 100, 0⟩] ∧
     s.get (F.PWR_PAIRCLK_STATE 1) = 1) ∧
    (let s := asks ((clockOf 2).set F.PWR_BUDGET_BUDGET 200) ⟨2, 1, 200, 0⟩
     s.pwr.charges = [] ∧ s.get (F.PWR_PAIRCLK_STATE 1) = 2 ∧ (200 : Int) ≤ (s.get F.PWR_BUDGET_BUDGET : Int) - (0 : Nat)) ∧
    (let s := asks ((clockOf 2).set F.PWR_BUDGET_BUDGET 200) ⟨3, 0, 200, 9⟩
     (s.get F.PWR_BUDGET_BUDGET : Int) - (1 : Nat) < (200 : Nat)) := by and_intros <;> decide +kernel

theorem wit_ClockAndSupervisorFaults :
    (framed .run).alive = true ∧ (framed .run).sup.st ≠ .dusk ∧ (framed .run).clk.frcOn = true ∧ (framed .run).pairFitted 3 = true ∧
    (framed .run).get (F.PWR_PAIRCLK_STATE 3) < 2 := by and_intros <;> decide +kernel

theorem wit_PowerMeasurements :
    (framed .run).alive = true ∧ ((framed .run).set F.PWR_BUDGET_BUDGET 200).get F.PWR_BUDGET_BUDGET < 201 ∧
    200 ≤ ((framed .run).set F.PWR_BUDGET_BUDGET 200).get F.PWR_BUDGET_BUDGET := by and_intros <;> decide +kernel

theorem wit_NightDomain :
    (framed .run).alive = true ∧ (at_ .night).sup.st = .night ∧
    (let s : State := { framed .run with pwr := { (framed .run).pwr with good := true } }
     s.pwr.good = true ∧ s.pwr.holdupSince = none ∧ (2 : Fin 4).val ≠ s.ident.pos) ∧
    (let s : State := { framed .run with pwr := { (framed .run).pwr with holdupSince := some 900 } }
     s.pwr.holdupSince = some 900 ∧ s.pwr.warned = false) := by and_intros <;> decide +kernel

/-! ### Witnesses: online change and retentive saves -/

/-- An online change to set 1 of partition 0. -/
def changing (b : Nat) (sw : Bool) (copied setup : List Nat) (notified : Bool) : State :=
  let s := framed .run
  { s with
    hx := { s.hx with switchPend := some 1, frameStart := 2000 }
    cyc := { s.cyc with change := some ⟨1, b, [0], copied, [], [(0, 5000)], setup, sw, 900, notified⟩ } }

/-- The same with a variable of partition 0 that both sets declare. -/
def carrying : State :=
  let s := changing 1 false [] [] false
  { s with prog := { Progs.none with idents := [(0, 1)] } }

theorem wit_ChangeSteps :
    (let s := changing 0 false [] [] false
     s.hx.switchPend = some 1 ∧ s.cyc.change = some ⟨1, 0, [0], [], [], [(0, 5000)], [], false, 900, false⟩ ∧ s.hx.frameOn = true ∧
     s.get F.TVL_MFC_W = 0) ∧
    (let s := carrying
     (0 : Nat) ∈ [0] ∧ (s.get F.TVL_MFC_W + 1) % 2 ^ 32 = 1 ∧ s.hx.frameOn = true ∧
     ∀ x ∈ (s.advance (s.lastEnd 0)).carriedVars ((s.advance (s.lastEnd 0)).progsOf 1) 0, (s.advance (s.lastEnd 0)).varBad x.2 = false ∧
     ∀ x ∈ (s.advance (s.lastEnd 0)).carriedBlocks ((s.advance (s.lastEnd 0)).progsOf 1) 0, (s.advance (s.lastEnd 0)).blockBad x.2 = false) ∧
    (let s := changing 0 true [0] [0] true
     s.cyc.change = some ⟨1, 0, [0], [0], [], [(0, 5000)], [0], true, 900, true⟩ ∧ s.sup.st ≠ .dusk ∧ ∀ x ∈ [0], x = 0) ∧
    (let s := changing 0 true [0] [0, 257] false
     s.cyc.change = some ⟨1, 0, [0], [0], [], [(0, 5000)], [0, 257], true, 900, false⟩ ∧ (∃ x ∈ [0, 257], x ≠ 0) ∧ 900 < s.hx.frameStart ∧ s.hx.frameOn = true) := by
  and_intros <;> decide +kernel

/-- One snapshot of `n` bytes of block 5 waits, its burst granted, `done` lines of it written; `k` sound copies of the block of 64 bytes are stored. -/
def saving (n done k : Nat) : State :=
  let s := framed .run
  let s : State := { s with
    cyc := { s.cyc with saves := [⟨5, 1, List.replicate n 0, 3, false, done, 0x20500000, 3⟩], copies := [retBase, retBase + 128].take k }
    pwr := { s.pwr with granted := [⟨4, 1, 0, 0⟩] } }
  (s.wrBytes retBase (retImage 5 1 1 (List.replicate 64 0))).wrBytes (retBase + 128) (retImage 5 2 1 (List.replicate 64 0))

theorem wit_SaveBursts :
    ((saving 8192 0 1).sup.st = .run ∧ (saving 8192 0 1).cyc.leaving = false ∧
      ((saving 8192 0 1).pwr.granted.any fun r => r.rank == 4 && r.unit == 1) = true ∧
      (∀ x ∈ (saving 8192 64 1).cyc.saves, 0 < x.done ∧ 64 < x.lines - x.done) ∧ (∀ x ∈ (saving 8192 65 1).cyc.saves, x.lines - x.done ≤ 64)) ∧
    (let s := saving 64 0 0
     (∀ x ∈ s.cyc.saves, x.done = 0 ∧ x.lines ≤ 64) ∧ s.cyc.copies = []) ∧
    (let s := saving 64 0 1
     s.cyc.copies = [retBase] ∧ s.copyHits (s.newPlace 128) 128 retBase = false ∧
     (s.cyc.copies.filter fun c => s.copyIdent c == 5) = [retBase] ∧ s.copyLen retBase = 64) ∧
    (let s := saving 64 0 2
     (s.cyc.copies.filter fun c => s.copyIdent c == 5) = [retBase, retBase + 128] ∧ s.copyLen (retBase + 128) = 64 ∧
     s.copySound retBase = true ∧ s.copySound (retBase + 128) = true ∧ s.olderCopy retBase (retBase + 128) = retBase) := by
  and_intros <;> decide +kernel

/-! ### Witnesses: the Tri-link -/

theorem wit_TriLinkFrames :
    Acceptable (tri 4 7) 0 (tlFrame 4 [1, 2, 3, 4]) 4 ∧ Acceptable (tri 4 7) 0 (tlFrame 1 (List.replicate 64 0)) 1 ∧
    (tri 4 7).mstate = 4 ∧ (tri 4 7).sup.st = .run ∧ ((tri 4 7).peer 2).out = false ∧ (tlFrameOf 1 4 []).mstate ≠ 4 ∧
    (let s := (tri 4 1).setPeer 2 { TlPeer.none with out := true }
     (s.peer 2).out = true ∧ s.isMember 2 = false) ∧
    (tri 4 7).alive = true ∧ (tri 4 7).flag (F.TVL_LINKSTAT_UP 1) = true ∧ tget natD (tri 4 7).tvl.bad 0 < 15 ∧
    (tri 4 7).tlLenOk { tlFrame 4 [1, 2, 3, 4] with sender := 3 } = true ∧ (3 : Nat) ≠ (tri 4 7).cabled 0 ∧
    (tri 4 7).tlLenOk (tlFrame 4 [1, 2, 3]) = false ∧
    15 ≤ tget natD ({ tri 4 7 with tvl := { (tri 4 7).tvl with bad := [(0, 15)] } } : State).tvl.bad 0 := by
  unfold Acceptable; and_intros <;> decide +kernel

/-- The own digest, and those of the peers, of group 0. -/
def digests (own : Nat) (peers : List Nat) : State :=
  let s := tri 4 7
  { s with tvl := { s.tvl with
      own := [(0, some ⟨7, 3, own⟩)]
      digs := (List.zip [2, 3] peers).map fun c => (c.1, some ⟨7, 3, c.2⟩) } }

theorem wit_Agreement :
    (taking (tri 4 7) 1 (List.replicate 64 0)).2 = true ∧ (taking (tri 4 7) 1 (List.replicate 64 0)).1.ownDig 0 = none ∧
    (taking (digests 1 []) 1 (List.replicate 64 0)).2 = true ∧ (taking (digests 1 []) 1 (List.replicate 64 0)).1.ownDig 0 ≠ none ∧
    (taking (tri 4 7) 2 (List.replicate 8 0)).2 = true ∧
    (taking (tri 4 7) 2 (List.replicate 8 0)).1.clk.t + 16 ≤ (taking (tri 4 7) 2 (List.replicate 8 0)).1.agrDl 0 ∧
    (taking ((tri 4 7).advance 19985) 2 (List.replicate 8 0)).2 = true ∧
    (taking ((tri 4 7).advance 19985) 2 (List.replicate 8 0)).1.agrDl 0 < (taking ((tri 4 7).advance 19985) 2 (List.replicate 8 0)).1.clk.t + 16 ∧
    (taking (tri 4 7) 3 (List.replicate 72 0)).2 = true ∧
    (taking (tri 4 7) 3 (List.replicate 72 0)).1.group? 0 = some ⟨0, 0, 0, 64, 64, 100, 2000, 2100⟩ ∧
    (taking (tri 4 7) 3 (List.replicate 72 0)).1.clk.t + 32 ≤ (taking (tri 4 7) 3 (List.replicate 72 0)).1.outInstAt 0 ∧
    (let s := tri 4 7
     s.joined 0 = true ∧ s.simplex = false ∧ (s.grp 0).on = true ∧ s.ownDig 0 = none ∧ (s.grp 0).published = false ∧
     s.rawMissing 0 = true ∧ (tri 4 1).rawMissing 0 = false) ∧
    (let s := digests 1 [2, 2]
     s.ownDig 0 = some ⟨7, 3, 1⟩ ∧ (s.grp 0).on = true ∧ (s.grp 0).published = false ∧ s.joined 0 = true ∧
     ([1, 2, 3].filterMap fun q => if q = s.pos then none else (s.digOf 0 q).map fun c => c.digest) = [2, 2]) ∧
    (let s := digests 1 [2]
     ([1, 2, 3].filterMap fun q => if q = s.pos then none else (s.digOf 0 q).map fun c => c.digest) = [2]) ∧
    (let s := digests 1 [2, 3]
     ([1, 2, 3].filterMap fun q => if q = s.pos then none else (s.digOf 0 q).map fun c => c.digest) = [2, 3]) := by and_intros <;> decide +kernel

theorem wit_AgreementClasses : agrExact [[1], [2], [3]] = none ∧ (agrBit 0 [1, 3, 2]).getLsbD 0 = true := by and_intros <;> decide +kernel

theorem wit_TriLinks :
    (tri 4 7).flag (F.TVL_LINKSTAT_UP 1) = true ∧
    (let s := (tri 4 7).set (F.TVL_LINKSTAT_UP 1) 0
     s.tvl.lanes = true ∧ s.flag (F.TVL_LINKSTAT_UP 1) = false ∧ s.flag (F.TVL_LINKSTAT_POS_ERR 1) = false) ∧
    (let s : State := { tri 5 6 with tvl := { (tri 5 6).tvl with exclPort := some 1 } }
     s.tvl.exclPort = some 1 ∧ s.flag (F.TVL_LINKSTAT_UP 1) = true ∧ s.mstate = 5 ∧ s.tvl.reint = false) ∧
    (let t := [0, 1, 2, 3].foldl (fun (t : State) p => t.modPair p fun q => { q with cmpDawnOk := true }) (tri 5 6)
     let t := (t.set (F.LE_CMPST_DAWN_OK 0) 1).set (F.LE_CMPST_DAWN_OK 1) 1
     let s : State := { t with tvl := { t.tvl with exclPort := some 1, reint := true } }
     s.tvl.reint = true ∧ s.mstate = 5 ∧ s.allTested = true) := by and_intros <;> decide +kernel

/-! ### Witnesses: leases, handover, membership -/

/-- Output group 0 is enabled, with a preferred position and a recorded holder. -/
def leasing (st pref holder : Nat) : State :=
  (((tri st 7).set (F.TVL_OGRP_EN 0) 1).set (F.TVL_OGRP_PREF 0) pref).set (F.TVL_LSTAT_HOLDER 0) holder

/-- A claim of this module at 500000 for which a position must countersign. -/
def claiming (need got : List Nat) : State :=
  (leasing 4 1 0).setLease 0 { Lease.none with claim := some ⟨500000, need, got⟩ }

theorem wit_LeaseClaims :
    (let s := leasing 4 1 0
     let oi := s.claimOi 0
     let v := s.advance (oi - 5 * usUt)
     s.voting = true ∧ s.simplex = false ∧ s.flag (F.TVL_OGRP_EN 0) = true ∧ s.holds 0 = false ∧ (s.lease 0).claim = none ∧
     s.successor 0 = some s.pos ∧ ¬ (s.triplex = true ∧ s.members = [s.pos]) ∧ (s.grp (s.ogGroup 0)).on = true ∧ s.flag (F.TVL_LSTAT_RELEASED 0) = false ∧
     v.afterExpiry 0 oi = true ∧ v.quiet 0 oi = true ∧ v.peerSilent 0 = true) ∧
    (let r := taking (leasing 4 2 0) 4 [1, 2, 3, 4]
     r.2 = true ∧ r.1.successor 0 = some 2 ∧ r.1.isMember 2 = true ∧ r.1.voting = true ∧ r.1.get (F.TVL_LSTAT_HOLDER 0) ≠ r.1.pos ∧
     r.1.afterExpiry 0 500000 = true ∧ r.1.quiet 0 500000 = true) ∧
    (let r := taking ((leasing 4 2 0).setLease 0 { Lease.none with expiry := some 500000 }) 4 [1, 2, 3, 4]
     r.2 = true ∧ r.1.successor 0 = some 2 ∧ r.1.isMember 2 = true ∧ r.1.afterExpiry 0 500000 = false) ∧
    (taking (leasing 4 1 0) 4 [1, 2, 3, 4]).1.successor 0 ≠ some 2 ∧
    (let r := taking (claiming [2] []) 4 [1, 2, 3, 4]
     r.2 = true ∧ (r.1.lease 0).claim = some ⟨500000, [2], []⟩ ∧ r.1.clk.t + usUt ≤ 500000) ∧
    (let r := taking ((claiming [2] []).advance 499201) 4 [1, 2, 3, 4]
     r.2 = true ∧ (r.1.lease 0).claim = some ⟨500000, [2], []⟩ ∧ 500000 < r.1.clk.t + usUt) ∧
    (let r := taking (claiming [3] []) 4 [1, 2, 3, 4]
     r.2 = true ∧ (r.1.lease 0).claim = some ⟨500000, [3], []⟩ ∧ 2 ∉ [3] ∧ (r.1.lease 0).seen = none) ∧
    (let r := taking ((leasing 4 1 0).setLease 0 { Lease.none with seen := some (3, 500000) }) 4 [1, 2, 3, 4]
     r.2 = true ∧ (r.1.lease 0).claim = none ∧ (r.1.lease 0).seen = some (3, 500000)) ∧
    ((∀ q ∈ [2, 3], q ∈ [3, 2]) ∧ (claiming [2, 3] [3, 2]).voting = true ∧ ∃ q ∈ [2, 3], q ∉ [2]) := by and_intros <;> decide +kernel

theorem wit_LeaseEnds :
    (((leasing 4 1 1).setLease 0 { Lease.none with mine := some 5000 }).lease 0).mine = some 5000 ∧
    ((leasing 4 1 1).set (F.TVL_LSTAT_GUARDIAN 0) 1).flag (F.TVL_LSTAT_GUARDIAN 0) = true ∧
    (((leasing 4 1 1).set (F.TVL_LSTAT_GUARDIAN 0) 1).lease 0).mine = none ∧
    (((leasing 4 1 1).set (F.TVL_LSTAT_GUARDIAN 0) 1).lease 0).forever = false ∧
    (let r := taking (leasing 4 1 2) 6 [1, 0]
     r.2 = true ∧ (leNat [(1 : Byte), 0]).testBit 0 = true ∧ r.1.get (F.TVL_LSTAT_HOLDER 0) = 2 ∧
     ∀ k, k < 16 → (leNat [(1 : Byte), 0]).testBit k = true → r.1.get (F.TVL_LSTAT_HOLDER k) = 2) ∧
    (let r := taking (leasing 4 1 2) 6 [1, 0x80]
     r.2 = true ∧ (leNat [(1 : Byte), 0x80]).testBit 15 = true ∧ r.1.get (F.TVL_LSTAT_HOLDER 15) ≠ 2) := by and_intros <;> decide +kernel

/-- A planned handover of output group 0. -/
def planned (s : State) (h : Handover) : State := s.setLease 0 { Lease.none with hand := some h, mine := some 9000 }

theorem wit_LeaseHandover :
    (let s := leasing 4 1 2
     s.voting = true ∧ s.holds 0 = false ∧ s.flag (F.TVL_OGRP_EN 0) = true ∧ s.get (F.TVL_LSTAT_HOLDER 0) ≠ 0 ∧ (s.lease 0).hand = none) ∧
    (let s := planned ((leasing 4 1 1).set F.TVL_STAT_HELD 1) ⟨1, 2, none⟩
     (s.lease 0).hand = some ⟨1, 2, none⟩ ∧ s.voting = true ∧ s.holds 0 = true ∧ (1 : Nat) = s.pos ∧ s.isMember 2 = true) ∧
    (let r := taking (leasing 4 1 1) 4 [1, 2, 3, 4]
     r.2 = true ∧ r.1.isMember 2 = true ∧ r.1.get (F.TVL_LSTAT_HOLDER 0) ≠ 2) ∧
    (let r := taking (planned (leasing 4 1 2) ⟨2, 1, none⟩) 4 [1, 2, 3, 4]
     r.2 = true ∧ (r.1.lease 0).hand = some ⟨2, 1, none⟩) ∧
    ((planned (leasing 4 1 1) ⟨1, 2, some 5000⟩).lease 0).hand = some ⟨1, 2, some 5000⟩ ∧
    (planned (leasing 4 1 2) ⟨2, 1, some 5000⟩).voting = true ∧ ((planned (leasing 4 1 2) ⟨2, 1, some 5000⟩).lease 0).mine ≠ none ∧
    (let s := (leasing 4 1 2).setLease 0 { Lease.none with hand := some ⟨2, 1, some 5000⟩ }
     s.voting = true ∧ (s.lease 0).mine = none ∧ (s.set F.TVL_STAT_MSTATE 5).voting = false) ∧
    (2 : Nat) ≠ (leasing 4 1 2).pos ∧ (3 : Nat) ≠ (leasing 4 1 2).pos := by and_intros <;> decide +kernel

/-- A module in LISTEN whose peer is in LISTEN, too. -/
def listening : State := (tri 1 0).setPeer 2 { TlPeer.none with mstate := 1 }

/-- A joint Run entry is planned for an ordinal. -/
def planning (j : Nat) : State := { listening with tvl := { listening.tvl with boundary := some (j, 0, [1, 2]) } }

/-- The peer's identities are found to differ. -/
def differing : State := { planning 3 with tvl := { (planning 3).tvl with differs := [2] } }

theorem wit_RunEntry :
    (listening.mayStart = true ∧ listening.tvl.boundary = none) ∧
    (let r := takingOf 1 listening 4 [1, 2, 3, 4]
     r.2 = true ∧ r.1.mstate = 1 ∧ r.1.tvl.boundary = none ∧ identMask r.1.ownIds r.1.ownIds = 0 ∧
     identMask r.1.ownIds { r.1.ownIds with cap0 := 1 } = 8 ∧ (r.1.peer 2).mstate ≠ 0 ∧ 2 ∉ r.1.tvl.differs ∧
     (r.1.compareIds 2 r.1.ownIds).mayStart = true) ∧
    (let r := takingOf 1 (planning 3) 4 [1, 2, 3, 4]
     r.2 = true ∧ r.1.mstate = 1 ∧ r.1.tvl.boundary = some (3, 0, [1, 2]) ∧ (r.1.compareIds 2 r.1.ownIds).mayStart = true ∧
     r.1.cyc.n + (2 + 256 - r.1.cyc.count) % 256 < 3 ∧
     r.1.cyc.n + (3 + 256 - r.1.cyc.count) % 256 = 3 ∧ 3 < r.1.cyc.n + (4 + 256 - r.1.cyc.count) % 256) ∧
    (let r := takingOf 1 differing 4 [1, 2, 3, 4]
     r.2 = true ∧ 2 ∈ r.1.tvl.differs) ∧
    (let r := taking (tri 1 0) 4 [1, 2, 3, 4]
     r.2 = true ∧ r.1.mstate = 1 ∧ (r.1.compareIds 2 r.1.ownIds).mayStart = false) ∧
    (let s := planning 3
     s.tvl.boundary = some (3, 0, [1, 2]) ∧ s.mayStart = true ∧ 0 + s.tg ≤ s.cycleAt 3 ∧ ∀ q ∈ [1, 2], 1 ≤ q ∧ q ≤ 3) ∧
    (∃ q ∈ differing.tvl.differs, (differing.peer q).mstate ≠ 0) := by
  and_intros <;> decide +kernel

/-- A force change is proposed. -/
def proposed (s : State) (acks : List Nat) : State := { s with tvl := { s.tvl with forceProp := [⟨8, 1, 5, .clear, acks⟩] } }

/-- An online change to set 1 at major frame 8 is in progress. -/
def changes (s : State) : State := { s with cyc := { s.cyc with change := some ⟨1, 8, [], [], [], [], [], false, 0, false⟩ } }

theorem wit_Proposals :
    (let s := withLong (changes (tri 4 7)) 0x13 0 none
     s.cyc.change = some ⟨1, 8, [], [], [], [], [], false, 0, false⟩ ∧ s.tvl.activateAcks = [] ∧ (longOf 0x13 0 none).opc = 0x13 ∧
     s.sup.longOp = some (longOf 0x13 0 none) ∧ (longOf 0x13 0 none).arg2 ≠ 1 ∧ ∃ q ∈ s.members, q ≠ s.pos) ∧
    (let r := taking { tri 4 7 with sup := { (tri 4 7).sup with sets := [(1, ⟨leSet, 8192, true, false, List.replicate 32 1⟩)] } } 4 [1, 2, 3, 4]
     r.2 = true ∧ r.1.mstate = 4 ∧ r.1.setWith (List.replicate 32 1) = some 1 ∧ r.1.cyc.change = none ∧ r.1.inRun = true ∧
     r.1.setWith (List.replicate 32 2) = none) ∧
    (withSet .run).bankSwitch ((withSet .run).progsOf 0) 0 = none ∧
    (let r := taking (changes (tri 4 7)) 4 [1, 2, 3, 4]
     r.2 = true ∧ r.1.cyc.change = some ⟨1, 8, [], [], [], [], [], false, 0, false⟩ ∧ r.1.sup.longOp = none) ∧
    (∃ x ∈ (proposed (tri 4 7) []).tvl.forceProp, x.mfc = 8 ∧ x.cc = 1 ∧ x.ident = 5 ∧ x.what = .clear ∧ x.acks = []) ∧
    (let r := taking { tri 4 7 with prog := { Progs.none with vars := [⟨5, 0, 0, 0, 0, 0, 4, 0⟩] } } 4 [1, 2, 3, 4]
     r.2 = true ∧ r.1.mstate = 4 ∧ r.1.var? 5 ≠ none ∧ r.1.var? 6 = none) ∧
    (let r := taking (proposed (tri 4 7) [1]) 4 [1, 2, 3, 4]
     r.2 = true ∧ r.1.mstate = 4 ∧ r.1.tvl.forceProp = [⟨8, 1, 5, .clear, [1]⟩]) := by and_intros <;> decide +kernel

theorem wit_Reintegration :
    (let s := tri 1 0
     s.mstate = 1 ∧ ([1, 2, 3].find? fun q => s.peerMember q) = some 2 ∧ identMask s.ownIds { s.ownIds with config := s.configId + 1 } ≠ 0 ∧
     identMask s.ownIds s.ownIds = 0 ∧ s.tvl.differs = []) ∧
    (let s : State := { tri 1 0 with tvl := { (tri 1 0).tvl with differs := [2, 3] } }
     ∀ x ∈ s.tvl.differs, x = 2 ∨ (s.peer x).mstate = 0) ∧
    (let r := taking (tri 4 7) 4 [1, 2, 3, 4]
     r.2 = true ∧ r.1.voting = true ∧ r.1.members.head? = some r.1.pos ∧ identMask r.1.ownIds r.1.ownIds = 0) ∧
    (let r := taking ((tri 2 6).set F.TVL_STAT_DONOR 2) 5 [1, 2]
     r.2 = true ∧ r.1.mstate = 2 ∧ 2 = r.1.get F.TVL_STAT_DONOR ∧ 0 ∉ r.1.tvl.sync.ready) ∧
    (tri 2 0).mstate = 2 ∧ (tri 3 0).mstate = 3 ∧ 1 ≤ (tri 3 0).pos ∧ (tri 3 0).pos ≤ 3 ∧
    ({ tri 3 0 with tvl := { (tri 3 0).tvl with sync := { (tri 3 0).tvl.sync with probEnd := some 5000 } } } : State).tvl.sync.probEnd = some 5000 := by
  and_intros <;> decide +kernel

theorem wit_PresenceFrames :
    (let s := (((tri 4 3).set F.TVL_CFG_VCU 1).set (F.ETH_PORT_CFG_EN 0) 1).set (F.ETH_PORT_CFG_EN 1) 1
     s.alive = true ∧ s.duplex = true ∧ s.ghWitness s.pos = false ∧ s.ghWitness (3 - s.pos) = false ∧ s.ethFitted 1 = true ∧
     s.flag (F.ETH_PORT_CFG_EN 1) = true ∧ 2 + s.pos = 3) := by
  and_intros <;> decide +kernel

/-! ### Witnesses: the Gheif bus -/

/-- A cluster of two nodes: static ID 1 is this node's sync ID, 5 its data ID, 6 the other node's; 100 is dynamic; 2 is the other's sync ID. -/
def cluster : Cluster :=
  { tg := 4000, sw := 20, nStatic := 4, slot := 50, ap := 5, tail := 5, nMini := 40, ms := 10, msAp := 3, dynFirst := 100, pi := 40,
    ofsLimit := 40, rateLimit := 10, syncMin := 2, csNodes := 2, listen := 8000, backoff := 10, csAttempts := 4, passiveReturn := 2,
    passiveMax := 5, modeAlign := 1, startMode := 0, modes := 3
    nodes := [⟨1, 3, 3, 0, 0⟩, ⟨2, 3, 3, 0, 0⟩]
    table := [(1, 1), (2, 5), (3, 6), (4, 2)]
    slots := [⟨1, 1, 255, 4, 1, 0, 0, 0, 255, 3, 8⟩, ⟨5, 1, 255, 2, 1, 0, 0, 0, 0, 0, 8⟩, ⟨6, 2, 255, 2, 1, 0, 0, 0, 255, 0, 8⟩,
      ⟨2, 2, 255, 4, 1, 0, 0, 0, 255, 3, 8⟩, ⟨100, 1, 255, 4, 1, 0, 0, 0, 255, 0, 8⟩, ⟨7, 1, 3, 2, 1, 0, 0, 0, 255, 0, 8⟩] }

/-- The node in a state of the protocol engine, its guardian anchored at the start of the running cycle. -/
def gheif (ps : Nat) : State :=
  let s := (((framed .run).set F.GHC_STAT_CH 3).set F.GHC_STAT_PSTATE ps).set F.GRD_STAT_ANCHORED 1
  { s with cfg := { s.cfg with cluster := some cluster }, gh := { s.gh with gAt := some 0 } }

/-- A frame of a slot ID on channel 0, at a macrotick, with a header and a trailer. -/
def frameOf (m : Nat) (h : BitVec 48) (p : List Byte) (crc : Nat) : GhFrame := ⟨m * 200, ghSampled (beBytes 6 h.toNat ++ p ++ beBytes 4 crc)⟩
/-- The header of a frame of cycle 0, a null frame or a sync frame. -/
def headerOf (id plen : Nat) (null sync : Bool) : BitVec 48 := ghHeader 0 id 0 plen sync null sync sync
/-- The frame of ID 6 with these data, with a right trailer, and the one with a wrong one. -/
def frame6 (p : List Byte) : GhFrame := frameOf 125 (headerOf 6 2 false false) p (fcrcOf 0 (headerOf 6 2 false false) p)
def broken6 (p : List Byte) : GhFrame := frameOf 125 (headerOf 6 2 false false) p (fcrcOf 0 (headerOf 6 2 false false) p + 1)

/-- The same state with a first copy of ID 6, from channel 1. -/
def heard (s : State) (tm : Nat) (d : List Byte) : State :=
  { s with gh := { s.gh with first := [(6, some ⟨1, tm, false, d⟩)], items := [(6, some ⟨0, 1, 3, ⟨d, 0, 0⟩⟩)] } }

/-- The check that a frame fails at its last bit. -/
def checkOf (s : State) (f : GhFrame) : Nat := (lastBit s 0 f).ghCheck cluster 0 f (ghRead f) false

theorem wit_GheifReception :
    (let s := gheif 4
     let f := frame6 [1, 2, 3, 4]
     s.clu = some cluster ∧ s.alive = true ∧ 2 ≤ s.pstate ∧ s.ghAttached 0 = true ∧ checkOf s f = 0 ∧
     cluster.desc (ghSlot (ghRead f).hdr) = some ⟨6, 2, 255, 2, 1, 0, 0, 0, 255, 0, 8⟩ ∧ ghNull (ghRead f).hdr = false ∧
     (ghRead f).payload = [1, 2, 3, 4] ∧ ((lastBit s 0 f).ghPlaceOf cluster 0 f).map (fun pl => (pl.symbol, pl.pos)) = some (false, 3) ∧
     tget noneD (lastBit s 0 f).gh.first 6 = none) ∧
    checkOf (gheif 4) (broken6 [1, 2, 3, 4]) = 10 ∧
    (let f := frameOf 125 (headerOf 6 2 true false) [0, 0, 0, 0] (fcrcOf 0 (headerOf 6 2 true false) [0, 0, 0, 0])
     checkOf (gheif 4) f = 0 ∧ ghNull (ghRead f).hdr = true) ∧
    (let f := frame6 [1, 2, 3, 4]
     let v := lastBit (heard (gheif 4) 900 [1, 2, 3, 4]) 0 f
     checkOf (heard (gheif 4) 900 [1, 2, 3, 4]) f = 0 ∧ tget noneD v.gh.first 6 = some ⟨1, 900, false, [1, 2, 3, 4]⟩ ∧ (900 : Nat) ≠ v.clk.t) ∧
    (let f := frame6 [1, 2, 3, 4]
     let v := lastBit (heard (gheif 4) 26120 [5, 6, 7, 8]) 0 f
     checkOf (heard (gheif 4) 26120 [5, 6, 7, 8]) f = 0 ∧ tget noneD v.gh.first 6 = some ⟨1, 26120, false, [5, 6, 7, 8]⟩ ∧ v.clk.t = 26120 ∧
     tget noneD v.gh.items 6 ≠ none) ∧
    (let h := headerOf 2 4 false true
     let f := frameOf 175 h [0, 0, 0, 0, 1, 2, 3, 4] (fcrcOf 0 h [0, 0, 0, 0, 1, 2, 3, 4])
     checkOf (gheif 4) f = 0 ∧ ghSyncBit (ghRead f).hdr = true) := by and_intros <;> decide +kernel

/-- An item whose transit check holds, and one whose does not. -/
def goodItem (d : List Byte) : Item := ⟨d, crc32c d, 0⟩
def badItem (d : List Byte) : Item := ⟨d, crc32c d + 1, 0⟩

/-- A queued item for ID 5, and the dynamic slot 100 to come at macrotick 300. -/
def sends : State :=
  let s := (withItem (gheif 4)).setQueue 0x38000 ⟨1, 0, 0, 0, [], [], none⟩
  { s with gh := { s.gh with dynNext := [(0, some (100, 300))], single := [(5, some (goodItem [1, 2])), (100, some (goodItem [3, 4]))] } }

theorem wit_GheifSending :
    (let s := sends
     let v := s.advance (s.ghMt (cluster.posAt 2 + cluster.ap))
     s.clu = some cluster ∧ s.alive = true ∧ s.ghAttached 0 = true ∧ s.cyc.running = true ∧ s.clk.t ≤ s.ghMt (cluster.posAt 2 + cluster.ap) ∧
     cluster.desc (cluster.at_ (s.get F.GHC_STAT_MODE) 0 2) = some ⟨5, 1, 255, 2, 1, 0, 0, 0, 0, 0, 8⟩ ∧
     s.ghOwns ⟨5, 1, 255, 2, 1, 0, 0, 0, 0, 0, 8⟩ = true ∧ s.pstate = 4 ∧ s.gh.mute = false ∧
     v.ghLeased ⟨5, 1, 255, 2, 1, 0, 0, 0, 0, 0, 8⟩ = true ∧ v.guardOpen 0 ≠ none ∧
     v.ghReady ⟨5, 1, 255, 2, 1, 0, 0, 0, 0, 0, 8⟩ = some (goodItem [1, 2]) ∧ (goodItem [1, 2]).ok = true ∧ (badItem [1, 2]).ok = false ∧
     (gheif 4).ghReady ⟨5, 1, 255, 2, 1, 0, 0, 0, 0, 0, 8⟩ = none ∧ v.ghLeased ⟨7, 1, 3, 2, 1, 0, 0, 0, 255, 0, 8⟩ = false ∧
     (v.set F.GRD_STAT_ANCHORED 0).guardOpen 0 = none) ∧
    (let s := sends
     let v := s.advance (s.ghMt 300)
     let w := (v.modGh fun g => { g with dynCur := tput noneD g.dynCur 0 (some (100, 300)), dynNext := tput noneD g.dynNext 0 (some (101, 310)) }).advance
       (v.ghMt 303)
     s.dynUpcoming cluster 0 = some (100, 300) ∧ s.pstate ≠ 0 ∧ 300 < cluster.idleAt ∧
     cluster.desc 100 = some ⟨100, 1, 255, 4, 1, 0, 0, 0, 255, 0, 8⟩ ∧ v.ghReady ⟨100, 1, 255, 4, 1, 0, 0, 0, 255, 0, 8⟩ = some (goodItem [3, 4]) ∧
     (goodItem [3, 4]).ok = true ∧ s.ghOwns ⟨100, 1, 255, 4, 1, 0, 0, 0, 255, 0, 8⟩ = true ∧ (1 : Nat).testBit 0 = true ∧ v.ghMaySend = 2 ∧
     v.gh.sent.contains 200 = false ∧ v.ghLeased ⟨100, 1, 255, 4, 1, 0, 0, 0, 255, 0, 8⟩ = true ∧
     v.ghMt (300 + cluster.msAp) + ghTime 2 + cluster.ms * mtUt ≤ v.ghMt cluster.idleAt ∧ w.guardOpen 0 ≠ none ∧ cluster.desc 101 = none) ∧
    (let s : State := { sends with gh := { sends.gh with single := [] } }
     let v := s.advance (s.takeAt cluster ⟨5, 1, 255, 2, 1, 0, 0, 0, 0, 0, 8⟩)
     s.ghPlaced cluster 5 = true ∧ tget noneD s.gh.single 5 = none ∧ qLevel (v.qgeo 0) (v.qst (v.qgeo 0)) = 1 ∧
     SlotDesc.isBound ⟨5, 1, 255, 2, 1, 0, 0, 0, 0, 0, 8⟩ = false ∧
     (v.qTakeAll (v.qgeo 0) 1).2.map (fun i => i.data) = [[1, 2, 3, 4]] ∧ SlotDesc.cap ⟨5, 1, 255, 2, 1, 0, 0, 0, 0, 0, 8⟩ = 4 ∧
     ((v.wr8 (qSlot (v.qgeo 0) 0 + 8) 0xFF).qTakeAll (v.qgeo 0) 1).2 = []) := by
  and_intros <;> decide +kernel

/-- A sync frame of the other node was accepted in the preceding cycle, or in this one. -/
def synced (now prev : List GhSync) (f : Gh → Gh) : State :=
  let s := (gheif 4).modGh fun g => f { g with syncs := now, prevSyncs := prev }
  { s with clk := { s.clk with t := s.cyc.start } }

theorem wit_GheifStartup :
    (let s := gheif 1
     let v := s.advance (s.gh.listenAt + s.gh.listenLen)
     s.clu = some cluster ∧ s.alive = true ∧ s.pstate = 1 ∧ ghColdstart (s.ghMe cluster) = true ∧ s.flag F.GHC_CS_EXHAUSTED = false ∧
     s.get F.GHC_CS_ATTEMPTS < cluster.csAttempts ∧ v.clk.t = 1000 ∧ v.lineIdle 0 = true ∧ v.lineIdle 1 = true ∧ s.sup.faultLatch = false ∧
     ((gheif 1).set F.GHC_CS_EXHAUSTED 1).flag F.GHC_CS_EXHAUSTED = true) ∧
    ((gheif 4).pstate = 4 ∧ (gheif 5).pstate = 5 ∧ (gheif 4).ghAttached 1 = true ∧ (gheif 4).gh.leader = 0 ∧
      (gheif 4).ghMacro (1000 - 0 - 256) < cluster.sw) ∧
    (let s := gheif 2
     let v := s.advance (s.ghMt cluster.ap)
     s.pstate = 2 ∧ s.ghCyc.2 = 0 ∧ s.gh.nextCycle = none ∧ s.clk.t ≤ s.ghMt cluster.ap ∧ v.guardOpen 0 ≠ none) ∧
    (let s : State := { (gheif 2).modGh fun g => { g with leader := 1 } with cyc := { (gheif 2).cyc with count := 1 } }
     s.ghCyc.2 = 1 ∧ s.gh.leader ≠ 0 ∧ s.pstate = 2 ∧ s.gh.judged = false ∧ cluster.csNodes ≠ 1 ∧
     (∀ e ∈ s.gh.syncs, e.id ≠ (s.ghMe cluster).syncId → e.startup = true → e.leader ≠ s.gh.leader)) ∧
    (let s := (gheif 2).modGh fun g => { g with leader := 1, syncs := [⟨2, 0, 3, true, 1, false, 0, 0⟩] }
     (∃ e ∈ s.gh.syncs, e.id ≠ (s.ghMe cluster).syncId ∧ e.startup = true) ∧
     ∀ e ∈ s.gh.syncs ++ s.gh.prevSyncs, e.startup = true → e.leader = s.gh.leader) ∧
    ((gheif 5).gh.passive < cluster.passiveMax ∧ cluster.passiveMax ≤ ((gheif 5).modGh fun g => { g with passive := 5 }).gh.passive ∧
      (gheif 5).gh.sending = []) := by
  and_intros <;> decide +kernel

theorem wit_GheifTiming :
    (let s := synced [⟨2, 0, 3, true, 0, false, 0, 0⟩] [] id
     s.clu = some cluster ∧ s.alive = true ∧ 2 ≤ s.pstate ∧ s.cyc.running = true ∧ s.gh.corrected = false ∧ s.gh.leader = 0) ∧
    (let s := synced [] [⟨2, 0, 3, true, 0, true, 1, 0⟩, ⟨1, 0, 3, true, 0, true, 1, 0⟩] id
     3 ≤ s.pstate ∧ s.gh.judged = false ∧ s.clk.t = s.ghCyc.1 ∧
     s.gh.prevSyncs = [⟨2, 0, 3, true, 0, true, 1, 0⟩, ⟨1, 0, 3, true, 0, true, 1, 0⟩] ∧ 0 = s.ghCyc.2 ∧
     cluster.syncMin ≤ ((s.gh.prevSyncs.map fun y => y.id).eraseDups).length) ∧
    (let s := synced [] [] fun g => { g with prop := some (1, 0, true) }
     s.gh.prevSyncs = [] ∧ s.gh.prop = some (1, s.ghCyc.2, true)) := by and_intros <;> decide +kernel

/-- The running cycle began at 900000, and the guardian's last strobe came one cycle before. -/
def strobes (anchored : Nat) (ok : Option Nat) (a : Option Nat) : State :=
  let s := ((gheif 4).set F.GRD_STAT_ANCHORED anchored).modGh fun g => { g with gOk := ok, gAt := a }
  { s with cyc := { s.cyc with start := 900000 }, clk := { s.clk with t := 900000 } }

/-- A transmission runs on channel 1 until 1001, and its window closes. -/
def sendsUntil (close : Nat) : State := (gheif 4).modGh fun g => { g with sending := [(1, some ⟨5, 2, 900, 1001, close⟩)] }

theorem wit_GuardianAndCounters :
    (let s := strobes 0 none none
     2 ≤ s.pstate ∧ s.gh.gAt ≠ some s.ghCyc.1 ∧ s.flag F.GRD_STAT_ANCHORED = false ∧ s.gh.gAt = none ∧ s.gh.gOk = none) ∧
    (let s := strobes 1 none (some 100000)
     s.gh.gAt ≠ some s.ghCyc.1 ∧ s.flag F.GRD_STAT_ANCHORED = true ∧ strobeOff s cluster 100000 (-(cluster.strobeTol : Int)) ≤ cluster.strobeTol ∧
     cluster.strobeTol < strobeOff s cluster 100000 ((cluster.strobeTol : Int) + 1)) ∧
    ((strobes 0 (some 0) (some 100000)).flag F.GRD_STAT_ANCHORED = false ∧ (strobes 0 (some 1) (some 100000)).gh.gOk = some 1) ∧
    (tget noneD (sendsUntil 1000).gh.sending 1 = some ⟨5, 2, 900, 1001, 1000⟩ ∧ (sendsUntil 1000).alive = true ∧
      (sendsUntil 1001).clk.t < 1001 ∧ (sendsUntil 1001).guardOpen 1 = none) ∧
    (let s := gheif 4
     s.ghPlace cluster 0 (25000 - 80) ≠ none ∧ (s.ghPlace cluster 0 600).map (fun pl => pl.symbol) = some true ∧
     cluster.idleAt ≤ s.ghMacro 130000 ∧ s.ghMacro 600 < cluster.idleAt) ∧
    tget noneD (gheif 4).gh.items ((6 : Word).toNat % 1024) = none ∧
    tget noneD (heard (gheif 4) 900 [1]).gh.items ((6 : Word).toNat % 1024) = some ⟨0, 1, 3, ⟨[1], 0, 0⟩⟩ := by and_intros <;> decide +kernel

/-- Presence of a static slot ID is counted at the end of its last position (R292). -/
theorem wit_PresenceCounting_gheif :
    (gheif 4).countAt 1 6 = some ((gheif 4).mtAt (cluster.posAt 3 + cluster.slot)) ∧ (gheif 4).cycling = true ∧
    (gheif 4).keepsPresence 1 6 = true := by and_intros <;> decide +kernel

/-! ### Witnesses: the timebase -/

/-- A time frame with a fraction of a second, flags and a cycle count. -/
def timeFrame (ns flags cc : Nat) : List Byte := beBytes 8 5 ++ beBytes 4 ns ++ List.replicate 6 0 ++ beBytes 1 flags ++ beBytes 1 cc

/-- A time frame has come under ID 9, the time frame of the cluster. -/
def timed (p : List Byte) : State :=
  let s := ((gheif 4).set F.TMB_GTIME_ID_A 9).set F.TMB_STAT_ACTIVE 1
  { s with gh := { s.gh with items := [(9, some ⟨0, 0, 5, ⟨List.replicate 16 0 ++ p, 0, 0⟩⟩)] } }

/-- The command source 5 is listed and active. -/
def commanded : State := ((framed .run).set F.TMB_SRC_SRC0 5).set F.TMB_STAT_ACTIVE 5

/-- A measurement of PTP port 0 waits. -/
def measured (st : Nat) : State :=
  ((framed .run).set F.ETH_PTP_STAT_STATE_E0 st).setPtp 0 { PtpPort.none with sync := some ([], 1, 5, 0, some 3), due := true }

theorem wit_TimebaseCorrection :
    ((framed .run).pairFitted 3 = true ∧ (framed .run).alive = true) ∧
    (let s := timed (timeFrame 1000000000 0 0)
     9 = s.get F.TMB_GTIME_ID_A ∧ (tget noneD s.gh.items 9).map (fun i => (i.cc, i.it.data.drop 16)) = some (s.ghCyc.2, timeFrame 1000000000 0 0) ∧
     (s.tsrc 2).judgedN ≠ some s.cyc.n ∧ 1000000000 ≤ fieldBe (timeFrame 1000000000 0 0) 8 4) ∧
    (let s := timed (timeFrame 999999999 1 0)
     fieldBe (timeFrame 999999999 1 0) 8 4 < 1000000000 ∧ fieldBe (timeFrame 999999999 1 0) 19 1 = 0 ∧
     fieldBe (timeFrame 999999999 1 0) 18 1 < 16 ∧ fieldBe (timeFrame 999999999 1 0) 18 1 % 2 = 1 ∧ s.get F.TMB_STAT_ACTIVE ≠ 2) ∧
    (5 ∉ (framed .run).tmbList ∧ 5 ∈ commanded.tmbList ∧ commanded.get F.TMB_STAT_ACTIVE = 5 ∧ commanded.get F.TMB_GTIME_TX_ID = 0) ∧
    (((measured 9).ptpPort 0).sync = some ([], 1, 5, 0, some 3) ∧ ((measured 9).ptpPort 0).due = true ∧
      (measured 9).get F.ETH_PTP_STAT_STATE_E0 = 9 ∧ (measured 6).get F.ETH_PTP_STAT_STATE_E0 ≠ 9) ∧
    (let s : State := { framed .run with tmb := { (framed .run).tmb with slew := 7, pending := 9 } }
     s.alive = true ∧ s.tmb.slew ≠ 0 ∧ s.get F.TMB_GTIME_TX_ID = 0) := by and_intros <;> decide +kernel

/-- A telegram of output group 3, and its publication due at 2000. -/
def telegramDue (ogrp : Nat) (late : Nat) : State :=
  let s := (framed .run).set F.TMB_LAUNCH_LATE_MAX late
  { s with
    cfg := { s.cfg with telegrams := [(7, some ⟨1, 1, ogrp, 0, 5, 0xE0000001, 0, 0, [], 0, 8, 0, 1, 0, 10, 0, 0⟩)] }
    eth := { s.eth with due := [(7, some ⟨⟨List.replicate 8 0, crc32c (List.replicate 8 0), 0⟩, 1, 2000, 1, false, 0, 0, true⟩)] } }

/-- A software item held for a launch stamp. -/
def headHeld (l : Nat) : State := ((framed .run).set F.TMB_LAUNCH_LATE_MAX 0).setHead 3 (some ⟨0, List.replicate 60 0, some l, false⟩)

/-- Controller 0 works, a bound buffer pending for a launch at 5000; or the head of its transmit queue carries a launch time. -/
def canHeld (x : Nat) : State :=
  let s := (((framed .run).set (F.CAN_CFG_EN 0) 1).set (F.CAN_TBCFG_MODE 0 31) 2).set (F.CAN_TXPEND_W 0) (2 ^ 31)
  (s.wr8 (tbAddr 0 31 + 13) 1).setCan 0 { Can.reset with launch := [(31, some x)] }
def canQueueHeld : State :=
  let s := (((framed .run).set (F.CAN_CFG_EN 0) 1).set (F.CAN_TXQ_QUEUE 0) 0)
  let s := withQueue s ⟨0, 0, 0, 0, [], [], none⟩
  ((s.qCommitHw (s.qgeo 0) 0 (List.replicate 4 0 ++ leBytes 8 0x40000000 ++ [0, 1, 0, 0])).1).setQueue 0x38000 ⟨1, 0, 0, 0, [], [], none⟩

theorem wit_TimebaseDuties :
    ((framed .run).alive = true ∧ (framed .run).validTill ((framed .run).get F.TMB_STAT_ACTIVE) = none ∧
      ((framed .run).set F.TMB_STAT_ACTIVE 1).validTill 1 = none ∧ ((framed .run).set F.TMB_STAT_ACTIVE 1).srcValid 1 = true ∧
      (commanded.validTill 5 = none ∧ commanded.srcValid 5 = false)) ∧
    (let s := (gheif 4).set F.TMB_GTIME_TX_ID 5
     s.clu = some cluster ∧ cluster.desc (s.get F.TMB_GTIME_TX_ID) = some ⟨5, 1, 255, 2, 1, 0, 0, 0, 0, 0, 8⟩ ∧
     s.get F.TMB_GTIME_TX_ID ≠ 0 ∧ s.cyc.running = true ∧ s.tmb.sentN ≠ some s.cyc.n ∧
     ({ s with tmb := { s.tmb with sentN := some s.cyc.n } } : State).tmb.sentN = some s.cyc.n) ∧
    (framed .run).clk.frcOn = true ∧ ((framed .run).set F.TMB_UTC_LEAP61 1).flag F.TMB_UTC_LEAP61 = true ∧
    (framed .run).flag F.TMB_UTC_LEAP61 = false ∧ (framed .run).flag F.TMB_UTC_LEAP59 = false ∧
    (let s := telegramDue 3 0
     (s.pdDue 7).map (fun d => (d.launch, d.ports, d.ready)) = some (2000, 1, false) ∧ (s.telegram 7).isSome = true ∧ s.sup.st ≠ .dusk ∧
     (s.advance 2000).holds 3 = false) ∧
    (let s := telegramDue 255 0
     (s.advance 2000).launchAt 2000 ≠ 3 ∧ (∀ k, k < 4 → (1 : Nat).testBit k = true → (s.advance 2000).ethFree k = false) ∧
     ((s.advance 2001).advance 2000).launchAt 2000 = 3) ∧
    (let s := headHeld 0
     let v := s.advanceTod (stampUnits 0)
     s.head 3 = some ⟨0, List.replicate 60 0, some 0, false⟩ ∧ v.ethFree 0 = false ∧ v.launchCase (stampUnits 0) = 3) ∧
    (let v := (headHeld 100).advanceTod (stampUnits 100)
     v.launchCase (stampUnits 100) = 3) ∧
    (let v := (headHeld 5000).advanceTod (stampUnits 5000)
     v.ethFree 0 = false ∧ v.launchCase (stampUnits 5000) = 2) ∧
    (let s := canHeld 5000
     let v := s.advance 5000
     s.canOn 0 = true ∧ s.canBusOff 0 = false ∧ 31 ∈ s.cands 0 ∧ 31 ∉ (s.canst 0).ready ∧ s.tbMode 0 31 = 2 ∧
     tget noneD (s.canst 0).launch 31 = some 5000 ∧ (v.tbLaunch 0 31).1 = 2) ∧
    (let s := (canHeld 500).set F.TMB_LAUNCH_LATE_MAX 0
     tget noneD (s.canst 0).launch 31 = some 500 ∧ ((s.advance 500).tbLaunch 0 31).1 = 3) ∧
    (let s := canQueueHeld
     let v := s.advanceTod (stampUnits (launchStamp (s.candDesc 0 32)))
     s.canOn 0 = true ∧ 32 ∈ s.cands 0 ∧ 32 ∉ (s.canst 0).ready ∧ (s.txq 0).isSome = true ∧
     v.descCase (v.qPayload (v.qgeo 0) (v.qst (v.qgeo 0)).rd) = 2) ∧
    (let s := canQueueHeld.set F.TMB_LAUNCH_LATE_MAX 0
     let s : State := { s with clk := { s.clk with t := 1600000000 } }
     let v := s.advanceTod (stampUnits (launchStamp (s.candDesc 0 32)))
     v.descCase (v.qPayload (v.qgeo 0) (v.qst (v.qgeo 0)).rd) = 3) := by and_intros <;> decide +kernel

/-! ### Witnesses: Ethernet and Ixsum -/

/-- Port 0 is enabled with its link up, and its address is 10.0.0.1. -/
def ether : State := (((framed .run).set (F.ETH_PORT_CFG_EN 0) 1).set (F.ETH_PORT_STAT_LINK 0) 1).set (F.ETH_IP_W 0) 0x0A000001

/-- A frame to the port of an EtherType. -/
def plainFrame (typ : Nat) : List Byte := ethFrame ((at_ .run).ownMac 0) (beBytes 6 7) none typ []

/-- A datagram to the port. -/
def datagram (dport : Nat) (p : List Byte) : List Byte :=
  ethFrame ((at_ .run).ownMac 0) (beBytes 6 7) none 0x0800 (ipUdp 0x0A000002 0x0A000001 1000 dport 0 false p)

/-- Telegram entry 3 subscribes to ComId 5. -/
def subscribed : State :=
  { ether with cfg := { ether.cfg with telegrams := [(3, some ⟨2, 1, 255, 255, 5, 0x0A000001, 0, 0, [], 0, 8, 0, 1, 0, 0, 0, 0⟩)] } }

/-- Its telegram of sequence number 1 has come on port 2 in this fabric cycle. -/
def duplicate (seq : Nat) : State :=
  { subscribed with eth := { subscribed.eth with refs := [(3, some seq)], items := [(3, some ⟨2, subscribed.clk.t, subscribed.pdItem 2 3 [1]⟩)] } }

/-- A telegram of that ComId. -/
def telegram : List Byte := datagram 17224 (pdHeader 1 5 0 0 8 ++ List.replicate 8 0xAB)

theorem wit_EthernetReception :
    (ether.ethOn 0 = true ∧ ether.flag (F.ETH_PORT_STAT_LINK 0) = true) ∧
    (List.replicate 59 (0 : Byte)).length + 4 < 64 ∧ 1522 < (List.replicate 1519 (0 : Byte)).length + 4 ∧
    ((plainFrame 0x9999).length + 4 = 64 ∧ ethType (plainFrame 0x9999) ≠ 0x8808 ∧ ethStag (plainFrame 0x9999) = false ∧
      ether.vidOk 0 (plainFrame 0x9999) = true ∧ ether.macOk 0 (plainFrame 0x9999) = true ∧ ether.ptpOn 0 = false ∧
      udpOf (plainFrame 0x9999) = none ∧ ether.ruleFor 0 (plainFrame 0x9999) = none) ∧
    ethStag (plainFrame 0x88A8) = true ∧
    ether.vidOk 0 (ethFrame (ether.ownMac 0) (beBytes 6 7) (some 9) 0x9999 []) = false ∧
    ether.macOk 0 (ethFrame (beBytes 6 8) (beBytes 6 7) none 0x9999 []) = false ∧
    ((((ether.set (F.ETH_RULE_EN 7) 1).set (F.ETH_RULE_PORTS 7) 1).set (F.ETH_RULE_VALUE 7) 0x9999).ruleFor 0 (plainFrame 0x9999) = some 7) ∧
    (let s := ether.set F.ETH_CMDPORT_PORT 5000
     let b := datagram 5000 [1, 2]
     ((udpOf b).map fun d => s.udpCase 0 d) = some (2, 0) ∧ ipTest b = 0 ∧ s.sup.authFails = [] ∧ 64 ≤ b.length + 4 ∧
     ipTest (b.set 14 0x46) = 1 ∧ ((udpOf (b.set 22 9)).map fun d => s.udpCase 0 d) = some (2, 0) ∧ ipTest (b.set 22 9) = 1) ∧
    (((udpOf telegram).map fun d => subscribed.udpCase 0 d) = some (3, 3) ∧ ipTest telegram = 0 ∧
      subscribed.telegram 3 = some ⟨2, 1, 255, 255, 5, 0x0A000001, 0, 0, [], 0, 8, 0, 1, 0, 0, 0, 0⟩ ∧
      ((udpOf telegram).map fun d => fieldLe d.payload 36 4 == crc32 (sliceB d.payload 0 36)) = some true ∧
      ((udpOf telegram).map fun d => (fieldBe d.payload 4 1, fieldBe d.payload 20 4 + 40, d.payload.length)) = some (1, 48, 48) ∧
      tget noneD subscribed.eth.refs 3 = none ∧ subscribed.mapped 2 3 = false) ∧
    (let s := duplicate 1
     let b : PdItem := ⟨2, s.clk.t, s.pdItem 2 3 [1]⟩
     s.mapped 2 3 = false ∧ tget noneD s.eth.refs 3 = some 1 ∧ tget noneD s.eth.items 3 = some b ∧ (1 : Fin 4).val < b.port ∧
     b.port < 4 ∧ b.tm / 2 = s.fab ∧ ¬ ((3 : Fin 4).val < b.port)) := by and_intros <;> decide +kernel

/-- Software queue 0 serves port 0 and holds an item. -/
def txItem (item : List Byte) : State :=
  let s := ((((ether.set (F.ETH_TXQ_Q0 0) 0).set (F.ETH_TXQ_Q1 0) 255).set (F.ETH_TXQ_Q2 0) 255).set (F.ETH_TXQ_Q3 0) 255)
  let s := withQueue s ⟨0, 0, 0, 0, [], [], none⟩
  ((s.qCommitHw (s.qgeo 0) 0 item).1).setQueue 0x38000 ⟨1, 0, 0, 0, [], [], none⟩

/-- The head of that queue, ready. -/
def txReady : State := (txItem []).setHead 0 (some ⟨0, List.replicate 60 0, none, true⟩)

/-- A PTP message waits on port 0. -/
def ptpWaits : State := ether.setPtp 0 { PtpPort.none with tx := [List.replicate 44 0xB] }

/-- Telegram entry 7, published from queue 0 each cycle. -/
def published7 : Telegram := ⟨1, 1, 255, 0, 5, 0xE0000001, 0, 0, [], 0, 8, 0, 1, 0, 10, 0, 0⟩

/-- Its telegram, with a right or a wrong transit check, ready to go. -/
def readyDue (bad : Nat) : PdDue := ⟨⟨List.replicate 8 0, crc32c (List.replicate 8 0) + bad, 0⟩, 1, 1200, 1, true, 0, 0, true⟩
def telegramReady (bad : Nat) : State :=
  { ether with cfg := { ether.cfg with telegrams := [(7, some published7)] }, eth := { ether.eth with due := [(7, some (readyDue bad))] } }

def published (level : Nat) : State :=
  let s := withQueue ether ⟨0, 0, 0, 0, [], [], none⟩
  let s := ((s.qCommitHw (s.qgeo 0) 0 (List.replicate 8 3)).1).setQueue 0x38000 ⟨level, 0, 0, 0, [], [], none⟩
  { s with cfg := { s.cfg with telegrams := [(7, some published7)] } }

theorem wit_EthernetSending :
    (let s := (ether.set F.ETH_PTP_CFG_MODE 3).set (F.ETH_PORT_CFG_EN 1) 1
     s.ethOn 1 = true ∧ s.ptpOn 1 = true ∧ s.sup.st ≠ .dusk) ∧
    (let b := [0, 0, 0, 0, 0, 0, 0, 0, 0, 0, 0, 0, 0, 0, 0, 0] ++ List.replicate 12 (5 : Byte)
     let s := txItem b
     let r := s.qTakeHw (s.qgeo 0)
     s.qPorts 0 = [0] ∧ s.alive = true ∧ s.head 0 = none ∧ qLevel (s.qgeo 0) (s.qst (s.qgeo 0)) = 1 ∧ (r.2.map Item.data) = some b ∧ b.length = 28 ∧
     0 ∈ r.1.qPorts 0 ∧ r.1.ethOn 0 = true ∧ r.1.flag (F.ETH_PORT_STAT_LINK 0) = true) ∧
    (let s := (txItem [0]).wr8 (qSlot ((txItem [0]).qgeo 0) 0 + 8) 0xFF
     (s.qTakeHw (s.qgeo 0)).2 = none) ∧
    (let s := txItem ([0, 4] ++ List.replicate 26 (0 : Byte))
     ((s.qTakeHw (s.qgeo 0)).2.map fun b => fieldLe b.data 1 1) = some 4) ∧
    (txReady.ethFree 0 = true ∧ (txReady.dropLate 0).nextFrame 0 = some (3, 0) ∧ (txReady.dropLate 0).guardAt 0 = none ∧
      (txReady.dropLate 0).head 0 = some ⟨0, List.replicate 60 0, none, true⟩) ∧
    ((ptpWaits.dropLate 0).nextFrame 0 = some (1, 0) ∧ ((ptpWaits.dropLate 0).ptpPort 0).tx = [List.replicate 44 0xB] ∧
      ptpWaits.ethFree 0 = true ∧ (ptpWaits.dropLate 0).guardAt 0 = none) ∧
    (ether.dropLate 0).nextFrame 0 = none ∧
    (let s : State := { ptpWaits with
       cfg := { ptpWaits.cfg with telegrams := [(7, some published7)] }
       eth := { ptpWaits.eth with due := [(7, some ⟨⟨List.replicate 8 0, 0, 0⟩, 1, 1200, 1, false, 0, 0, true⟩)] } }
     let v := s.dropLate 0
     v.nextFrame 0 = some (1, 0) ∧ v.guardAt 0 = some 1200 ∧ 1200 < v.clk.t + frameTime 0 (v.frameLen 0 (1, 0)) + 80) ∧
    (let v := (telegramReady 0).dropLate 0
     v.nextFrame 0 = some (2, 7) ∧ v.guardAt 0 = none ∧ v.pdDue 7 = some (readyDue 0) ∧ v.telegram 7 = some published7 ∧
     (readyDue 0).it.ok = true ∧ (readyDue 1).it.ok = false ∧ (telegramReady 0).ethFree 0 = true) ∧
    (let s := published 1
     let v := s.advance (s.cyc.start + 10 * usUt - 2 * usUt)
     s.telegram 7 = some published7 ∧ s.sup.st = .run ∧ s.cyc.count % 1 = 0 ∧ published7.launchUs = 10 ∧
     (v.qTakeAll (v.qgeo 0) (qLevel (v.qgeo 0) (v.qst (v.qgeo 0)))).2.map Item.data = [List.replicate 8 3] ∧ v.ethOn 0 = true ∧
     v.flag (F.ETH_PORT_STAT_LINK 0) = true) ∧
    (let s := published 0
     let v := s.advance (s.cyc.start + 10 * usUt - 2 * usUt)
     (v.qTakeAll (v.qgeo 0) (qLevel (v.qgeo 0) (v.qst (v.qgeo 0)))).2 = [] ∧ tget noneD s.eth.held 7 = none) ∧
    ether.flag (F.ETH_PORT_STAT_LINK 0) = !false := by and_intros <;> decide +kernel

/-- The consumer connection 5 and the producer connection 6. -/
def consumer : IxsConn := ⟨0x1234, 77, 2, 1, 3, 4, 255, 255, 0, 2, 1000, 1000, 3, 0, 10, false⟩
def producer : IxsConn := ⟨0x1234, 77, 1, 1, 5, 4, 255, 0, 0, 2, 1000, 1000, 3, 0, 10, false⟩

/-- The delivery queue 0 of carrier 1 holds a safe message; connection 5 is in a state with a reference 9. -/
def delivered (st : Nat) (m : List Byte) : State :=
  let s := withQueue ((((framed .run).set (F.IXS_CSTAT_STATE 5) st).set (F.IXS_CSSN_W 5) 9).set F.TMB_STAT_TSET 1) ⟨0, 0, 0, 0, [], [], none⟩
  let s := (s.set (F.HXQ_CFG_PROD 0) 0x120).set (F.HXQ_CFG_CONS 0) 0x122
  let s := ((s.qCommitHw (s.qgeo 0) 0 (leBytes 2 3 ++ List.replicate 14 0 ++ m)).1).setQueue 0x38000 ⟨1, 0, 0, 0, [], [], none⟩
  { s with cfg := { s.cfg with cluster := some cluster, conns := [(5, some consumer), (6, some producer)] }, ixs := [(5, { IxsCon.reset with hasRef := true })] }

/-- The queue's head has been taken. -/
def ixTaken (s : State) : State := (s.qTakeHw (s.qgeo 0)).1

/-- A safe message of connection 5 with a number and a source identifier. -/
def safeMessage (ssn sid : Nat) : List Byte := ixMessage { consumer with sid := sid } ssn 0 [1, 2, 3, 4]

theorem wit_IxsumSafety :
    (let s := delivered 2 (safeMessage 10 77)
     let u := ixTaken s
     s.ixsOn = true ∧ (s.qgeo 0).cons = 0x122 ∧ ((s.qTakeHw (s.qgeo 0)).2.map fun b => b.data.drop 16) = some (safeMessage 10 77) ∧
     u.conn 5 = some consumer ∧ (s.qgeo 0).prod = 0x120 ∧
     ((s.qTakeHw (s.qgeo 0)).2.map fun b => u.ixConsumer 1 (fieldLe b.data 0 2)) = some (some 5) ∧
     (safeMessage 10 77).length = 20 + consumer.dlen ∧
     fieldBe (safeMessage 10 77) (16 + consumer.dlen) 4 = ixCheck consumer.connId ((safeMessage 10 77).take (16 + consumer.dlen)) ∧
     ixSid (safeMessage 10 77) = consumer.sid ∧ u.ixState 5 = 2 ∧ (u.con 5).hasRef = true ∧ ixSsn (safeMessage 10 77) = u.get (F.IXS_CSSN_W 5) + 1 ∧
     u.ixAge (ixStamp (safeMessage 10 77)) ≤ 1000000 ∧ -1000000 ≤ u.ixAge (ixStamp (safeMessage 10 77)) ∧ u.flag F.TMB_STAT_TSET = true ∧
     1 ≤ consumer.seqWin ∧ consumer.queue = 0xFF) ∧
    (ixSid (safeMessage 10 78) ≠ consumer.sid ∧ ixSsn (safeMessage 9 77) = (ixTaken (delivered 2 (safeMessage 9 77))).get (F.IXS_CSSN_W 5) ∧
      (safeMessage 10 77).take 23 ≠ safeMessage 10 77 ∧ (ixTaken (delivered 1 (safeMessage 10 78))).ixState 5 ≠ 2 ∧
      consumer.errMax < ((ixTaken (delivered 2 [])).con 5).errs + 1 ∧ ((ixTaken (delivered 2 [])).con 5).errs + 1 ≤ { consumer with errMax := 3 }.errMax) ∧
    (let s := ((delivered 3 []).set (F.IXS_CSTAT_ACK_PEND 5) 1).set (F.IXS_CSTAT_REJOIN_CNT 5) 3
     (5 : Word).toNat % 512 = 5 ∧ s.conn 5 = some consumer ∧ s.ixsOn = true ∧ s.ixState 5 = 3 ∧ s.flag (F.IXS_CSTAT_ACK_PEND 5) = true ∧
     consumer.rejoinN ≤ s.get (F.IXS_CSTAT_REJOIN_CNT 5) ∧ (s.con 5).ackSet ≠ some s.fab ∧ (delivered 3 []).get (F.IXS_CSTAT_REJOIN_CNT 5) < consumer.rejoinN) ∧
    (let s := ((delivered 3 []).set (F.IXS_CSTAT_ACK_PEND 5) 1).setCon 5 { IxsCon.reset with ackSet := some (delivered 3 []).fab }
     s.ixState 5 = 3 ∧ s.flag (F.IXS_CSTAT_ACK_PEND 5) = true ∧ (s.con 5).ackSet = some s.fab) ∧
    (delivered 2 []).clk.frcOn = true ∧
    (let s := (((delivered 2 []).set (F.HXQ_CFG_PROD 0) 1).set (F.HXQ_CFG_CONS 0) 0x122).setQueue 0x38000 ⟨0, 0, 0, 0, [], [], none⟩
     let s := ((s.qCommitHw (s.qgeo 0) 0 [1, 2, 3, 4]).1).setQueue 0x38000 ⟨1, 0, 0, 0, [], [], none⟩
     s.conn 6 = some producer ∧ (ixTaken s).ixSupply producer = 0 ∧ s.inRun = true ∧ qLevel (s.qgeo 0) (s.qst (s.qgeo 0)) ≠ 0 ∧
     (s.qTakeHw (s.qgeo 0)).2.map Item.data = some [1, 2, 3, 4] ∧
     ((s.wr8 (qSlot (s.qgeo 0) 0 + 8) 0xFF).qTakeHw (s.qgeo 0)).2 = none) := by and_intros <;> decide +kernel

/-! ### Witnesses: CAN -/

/-- Controller 0 works in the Run state. -/
def canLive : State := ((framed .run).set (F.CAN_CFG_EN 0) 1).set (F.CAN_TXQ_QUEUE 0) 255

/-- Filter element 0 takes identifier 0x123 with an action, a latch bit and a queue. -/
def filtered (act : Nat) (latch : Bool) : State :=
  ((canLive.wrLe (canAddr 0 0) 4 (0x123 + 2 ^ 31)).wrLe (canAddr 0 4) 4 (0x123 + act * 2 ^ 29)).wrLe (canAddr 0 8) 4 (b2n latch * 2 ^ 23)

/-- Buffer `b`'s descriptor asks for a launch beyond the next 16 seconds. -/
def farOff (s : State) (b : Nat) : State := (s.wr8 (tbAddr 0 b + 13) 1).wr8 (tbAddr 0 b + 11) 1

/-- The same with RXQ0 of 2 entries of 64 bytes, holding some. -/
def rxQueue (held : Nat) : State :=
  (((filtered 1 false).set (F.CAN_RXQ_CFG_DEPTH_LOG2 0 0) 1).set (F.CAN_RXQ_CFG_ESIZE_LOG2 0 0) 6).setQueue 0xA0040 ⟨held, 0, 0, 0, [], [], none⟩

/-- A frame of 8 bytes, or of 64. -/
def canF (dlc : Fin 16) (rtr : Bool) : CanFrame := ⟨0x123, false, true, false, false, rtr, dlc, List.replicate 64 5⟩

theorem wit_CanReception :
    (CanLive canLive 0 ∧ canLive.get (F.CAN_CTRL_MODE 0) ≠ 1 ∧ canLive.sup.st ≠ .dusk ∧ (canLive.canst 0).recv ≤ 127 ∧
      CanLive (canLive.setCan 0 { Can.reset with recv := 128 }) 0 ∧ CanLive (canLive.set (F.CAN_CTRL_MODE 0) 1) 0 ∧
      (canLive.set (F.CAN_CTRL_MODE 0) 1).get (F.CAN_CTRL_MODE 0) = 1 ∧ (canF 8 true).rtr = true ∧
      Claims.CanStays canLive 0) ∧
    canLive.filterFor 0 0x123 false = none ∧
    ((filtered 0 false).filterFor 0 0x123 false = some 0 ∧ (filtered 0 false).filterWord 0 0 1 / 2 ^ 29 = 0) ∧
    ((filtered 4 true).filterFor 0 0x123 false = some 0 ∧ (filtered 4 true).filterWord 0 0 1 / 2 ^ 29 = 4 ∧
      ((filtered 4 true).filterWord 0 0 2).testBit 23 = true) ∧
    (let s := rxQueue 0
     let g := canTarget s 0 0
     CanLive s 0 ∧ s.filterFor 0 0x123 false = some 0 ∧ s.filterWord 0 0 1 / 2 ^ 29 = 1 ∧ (s.filterWord 0 0 2).testBit 23 = false ∧
     g.esize = 64 ∧ dlcLen true 8 + 24 ≤ g.esize ∧ g.esize < dlcLen true 15 + 24 ∧ qCredits g (s.qst g) = 2 ∧
     qCredits (canTarget (rxQueue 2) 0 0) ((rxQueue 2).qst (canTarget (rxQueue 2) 0 0)) = 0 ∧
     s.qResetNow g = false ∧ NotTxq s g) := by
  unfold CanLive Claims.CanStays NotTxq; and_intros <;> decide +kernel

theorem wit_CanRequests :
    (canLive.canOn 0 = true ∧ canLive.tbMode 0 31 = 0 ∧ canLive.tbPending 0 31 = false ∧ descOk (canLive.tbDesc 0 31) = true ∧
      Claims.CanTimely canLive 0 (canLive.tbDesc 0 31) ∧ descOk ((farOff canLive 31).tbDesc 0 31) = true ∧
      ¬ Claims.CanTimely (farOff canLive 31) 0 ((farOff canLive 31).tbDesc 0 31) ∧
      descOk ((canLive.wr8 (tbAddr 0 31 + 13) 2).tbDesc 0 31) = false ∧ (canLive.set (F.CAN_TXPEND_W 0) 2).tbPending 0 1 = true ∧
      (canLive.canst 0).started ≠ some 1 ∧ ((canLive.setCan 0 { Can.reset with started := some 1 }).canst 0).started = some 1) ∧
    (let s := canQueueHeld
     s.canFitted 0 = true ∧ s.alive = true ∧ s.txq 0 = some (s.qgeo 0) ∧ (s.qst (s.qgeo 0)).holes = [] ∧ (s.qst (s.qgeo 0)).unver = 0 ∧
     (s.qst (s.qgeo 0)).rd < 2 * (s.qgeo 0).depth ∧ (s.qst (s.qgeo 0)).wr < 2 * (s.qgeo 0).depth ∧ (s.canst 0).started ≠ some 32) ∧
    (canLive.set (F.CAN_STAT_ESTATE 0) 2).get (F.CAN_STAT_ESTATE 0) = 2 := by
  unfold Claims.CanTimely; and_intros <;> decide +kernel

/-- Buffer 0 takes its content, `n` bytes, from queue 0, which holds 4 bytes. -/
def supplied (n : Nat) : State :=
  let s := ((withItem canLive).setQueue 0x38000 ⟨1, 0, 0, 0, [], [], none⟩).set (F.CAN_TBCFG_MODE 0 0) 1
  (s.set (F.CAN_TBCFG_QUEUE 0 0) 0).wr8 (tbAddr 0 0 + 12) n

theorem wit_CanQueues :
    (let s := supplied 4
     let g := s.qgeo 0
     s.canOn 0 = true ∧ s.tbMode 0 0 = 1 ∧ (s.canst 0).started ≠ some 0 ∧ g = s.qgeo (s.get (F.CAN_TBCFG_QUEUE 0 0)) ∧
     qLevel g (s.qst g) ≠ 0 ∧ s.qItemOk g (s.qst g).rd = true ∧ (s.qPayload g (s.qst g).rd).length = s.tbLen 0 0 ∧
     NotTxq s g ∧ Claims.CanTimely s 0 (s.tbDesc 0 0)) ∧
    (let s := farOff (supplied 4) 0
     (s.qPayload (s.qgeo 0) 0).length = s.tbLen 0 0 ∧ ¬ Claims.CanTimely s 0 (s.tbDesc 0 0)) ∧
    ((supplied 5).qPayload ((supplied 5).qgeo 0) 0).length ≠ (supplied 5).tbLen 0 0 ∧
    (let s := (supplied 4).wr8 (qSlot ((supplied 4).qgeo 0) 0 + 8) 0xFF
     s.qItemOk (s.qgeo 0) (s.qst (s.qgeo 0)).rd = false) ∧
    (let s := (rxQueue 1).set (F.CAN_RXQ_CFG_PAIR 0 0) 3
     s.canFitted 0 = true ∧ s.alive = true ∧ (3 : Fin 4).val = s.get (F.CAN_RXQ_CFG_PAIR 0 0) ∧ qLevel (s.rxq 0 0) (s.qst (s.rxq 0 0)) ≠ 0 ∧
     (0x80000000 : Word).getLsbD 30 = false ∧ (0x80000000 : Word).getLsbD 31 = true ∧
     (1 : Fin 4).val ≠ s.get (F.CAN_RXQ_CFG_PAIR 0 0)) := by
  unfold Claims.CanTimely NotTxq; and_intros <;> decide +kernel

/-- Buffers 0 and 1 are pending, their transit checks right. -/
def candidates : State :=
  let s := canLive.set (F.CAN_TXPEND_W 0) 3
  s.setCan 0 { Can.reset with ready := [0, 1], tchk := [(0, crc32c (s.tbBytes 0 0)), (1, crc32c (s.tbBytes 0 1))] }

/-- Buffer 1 has started. -/
def started (late : Bool) : State := (canLive.set (F.CAN_TXPEND_W 0) 2).setCan 0 { Can.reset with started := some 1, lateCancel := late }

theorem wit_CanTransmission :
    (CanLive candidates 0 ∧ candidates.get (F.CAN_CTRL_MODE 0) ≠ 1 ∧ (candidates.canst 0).started = none ∧ candidates.rivals 0 ≠ [] ∧
      candidates.flag (F.CAN_STAT_RESTRICTED 0) = false ∧
      ∀ b ∈ candidates.rivals 0, candidates.candDescOk 0 b = true ∧ candidates.candOk 0 b = true ∧ candidates.tbMode 0 b ≠ 2) ∧
    (CanLive (started true) 0 ∧ ((started true).canst 0).started = some 1 ∧ tget noneD ((started true).canst 0).next 1 = none ∧
      ((started false).canst 0).lateCancel = false) ∧
    (let s := (canQueueHeld.set (F.HXQ_CFG_CONS 0) 0x130).setCan 0 { Can.reset with started := some 32 }
     s.canOn 0 = true ∧ (s.canst 0).started = some 32 ∧ s.txq 0 = some (s.qgeo 0) ∧ (s.txqHead 0).isSome = true ∧
     Claims.CanStays s 0 ∧ s.canBusOff 0 = false ∧ s.txqOf (s.qgeo 0) = some 0 ∧
     qLevel (s.qgeo 0) (qPopped (s.qgeo 0) (s.qst (s.qgeo 0))) = 0) := by
  unfold CanLive Claims.CanStays; and_intros <;> decide +kernel

theorem wit_CanErrors :
    (CanLive canLive 0 ∧ canLive.flag (F.CAN_STAT_RESTRICTED 0) = false ∧ canLive.get (F.CAN_STAT_ESTATE 0) = 0 ∧
      (canLive.set (F.CAN_STAT_RESTRICTED 0) 1).flag (F.CAN_STAT_RESTRICTED 0) = true ∧
      CanLive (canLive.setCan 0 { Can.reset with tec := 248 }) 0) ∧
    ((canLive.set (F.CAN_STAT_ESTATE 0) 3).canOn 0 = true ∧ (canLive.set (F.CAN_STAT_ESTATE 0) 3).get (F.CAN_STAT_ESTATE 0) = 3 ∧
      ((started false).set (F.CAN_STAT_ESTATE 0) 3).tbPending 0 1 = true ∧ (((started false).setCan 0 Can.reset).canst 0).started ≠ some 1 ∧
      (((started false).set (F.CAN_STAT_ESTATE 0) 3).tbLaunch 0 1).1 = 2) ∧
    (({ canLive with poison := [(0x41800000 + 64 * 87) / 64] } : State).poisoned (canAddr 0 (64 * 87)) = true ∧ 64 * 87 < 0x1600 ∧
      canLive.canFitted 0 = true ∧ canLive.alive = true) := by
  unfold CanLive; and_intros <;> decide +kernel

/-! ### Witnesses: the rack bridge -/

/-- The bridge is enabled, with an inbound window of one 64 KiB block at 0x10000. -/
def bridge : State := (((machine.set F.LRB_CFG_EN 1).set F.LRB_INWIN_EN 1).set F.LRB_INWIN_BASE 1).set F.LRB_INWIN_SIZE 1

/-- A register for a load. -/
def rackLd : RackLd := ⟨5, false, true, 4⟩

/-- The same on an X1, which has no bridge. -/
def absentBridge : State := { bridge with ident := { bridge.ident with variant := .tvm9210 } }

/-- A transaction runs, with cycles to come and halves read. -/
def running (kind : RackKind) (size : Nat) (cycles : List RackCyc) (got : List Nat) : State :=
  bridge.modLrb fun l => { l with run := some ⟨kind, 0, 0x20000, size, 900, cycles, got, false⟩, open_ := true }

theorem wit_RackAccesses :
    (RackMay bridge 0 0x20000 2 ∧ tget noneD bridge.lrb.held 0 = none ∧ tget noneD bridge.lrb.pf 0 = none ∧ bridge.prefetchable 0x20000 = false ∧
      RackMay bridge 0 0xFFFF 0 ∧ RackMay bridge 0 0xFFFFFC 2) ∧
    (let s := bridge.modLrb fun l => { l with held := [(0, some ⟨0x20000, 2, 77, 900⟩)] }
     RackMay s 0 0x20000 2 ∧ tget noneD s.lrb.held 0 = some ⟨0x20000, 2, 77, 900⟩ ∧ s.clk.t ≤ 900 + 10 * usUt) ∧
    (let s := bridge.modLrb fun l => { l with pf := [(0, some ⟨[(0x20002, 9)], [0x20002], 900⟩)] }
     RackMay s 0 0x20002 1 ∧ tget noneD s.lrb.pf 0 = some ⟨[(0x20002, 9)], [0x20002], 900⟩ ∧
     ([(0x20002, 9)].find? fun c => c.1 == 0x20002) = some (0x20002, 9)) ∧
    (bridge.executes 0 = true ∧ (bridge.pair 0).umode = false ∧ (bridge.pair 0).mtvec ≠ 0 ∧ bridge.lrbFitted = true ∧
      bridge.inWin 0x10000 = true ∧ bridge.inWin 0x1FFFF = true ∧ bridge.inWin 0x20000 = false) ∧
    (Issues absentBridge 0 ∧ (absentBridge.pair 0).umode = false ∧ absentBridge.lrbFitted = false ∧ (absentBridge.pair 0).mtvec ≠ 0) := by
  unfold RackMay; and_intros <;> decide +kernel

/-- LR.W of P0 has set the semaphore on word 0x20000. -/
def semaphore : State :=
  ((bridge.set F.LRB_STAT_SEM_VALID 1).modPair 0 fun q => { q with resv := some ((0x60000000 + 0x20000) / 64) }).modLrb
    fun l => { l with semAddr := 0x20000, semTill := 9000 }

theorem wit_RackExclusives :
    (RackMay semaphore 0 0x20000 2 ∧ tget noneD semaphore.lrb.held 0 = none ∧ tget noneD semaphore.lrb.pf 0 = none ∧ semaphore.lrb.run = none ∧ semaphore.lrb.waiting = [] ∧
      semaphore.lrb.lists = [] ∧ semaphore.semLive = true ∧ semaphore.get F.LRB_STAT_SEM_PAIR = 0 ∧ semaphore.lrb.semAddr = 0x20000) ∧
    bridge.semLive = false ∧ (bridge.pair 0).mtvec ≠ 0 := by
  unfold RackMay; and_intros <;> decide +kernel

theorem wit_RackArbitration :
    (let s := (running .write 1 [⟨0x20000, true, true, true, 7, false⟩] []).modLrb fun l => { l with open_ := false }
     s.lrbOn = true ∧ s.get F.LRB_STAT_OWNER = 0 ∧ s.lrbOut = true ∧ s.flag F.LRB_STAT_LOCKED = false ∧ s.get F.LRB_STAT_YIELDS < 16 ∧
     16 ≤ (s.set F.LRB_STAT_YIELDS 16).get F.LRB_STAT_YIELDS) ∧
    ((running (.amo .add 1 rackLd) 2 [⟨0x20000, false, true, true, 0, true⟩, ⟨0x20002, false, true, true, 0, true⟩] []).lrb.run.map
      fun x => x.kind) = some (.amo .add 1 rackLd) ∧
    (1 = (bridge.lrb.lastBoard + 2) % 4 ∧ (2 : BitVec 4).getLsbD 1 = true ∧
      ∀ j, j < 2 → 1 ≤ j → (2 : BitVec 4).getLsbD ((bridge.lrb.lastBoard + j) % 4) = false) ∧
    (bridge.lrb.run = none ∧ bridge.flag F.LRB_STAT_LOCKED = false ∧ (bridge.set F.LRB_STAT_LOCKED 1).flag F.LRB_STAT_LOCKED = true ∧
      (2 : BitVec 4).getLsbD ((bridge.set F.LRB_STAT_SLOT 1).get F.LRB_STAT_SLOT) = true) ∧
    (let s := (running (.writeList 3) 0 [⟨0x20000, true, true, true, 7, false⟩] []).modLrb fun l => { l with open_ := false }
     let s := { s with cfg := { s.cfg with rack := [(3, some ⟨2, 4, 0, 0x20000, 2, 0, 0⟩)] } }
     s.holds 4 = false ∧ tget noneD s.cfg.rack 3 ≠ none ∧ s.lrb.waiting = [] ∧ s.lrb.lists = []) := by and_intros <;> decide +kernel

theorem wit_RackCycles :
    (let s := running (.read rackLd) 2 (rackCycles 0x20000 2 false 0) []
     s.lrbOn = true ∧ s.lrb.open_ = true ∧ rackCycles 0x20000 2 false 0 = [⟨0x20000, false, true, true, 0, true⟩, ⟨0x20002, false, true, true, 0, false⟩] ∧
     (s.pair 0).frozen = false ∧ (s.pair 0).mtvec ≠ 0 ∧ s.lrb.waiting = [] ∧ s.lrb.lists = []) ∧
    ([7] ++ [(9 : Half).toNat]).length = 2 ∧ (running (.lr rackLd) 2 [⟨0x20002, false, true, true, 0, false⟩] [7]).lrb.open_ = true ∧
    (running (.amo .add 1 rackLd) 2 [⟨0x20002, false, true, true, 0, true⟩] [7]).lrbOn = true ∧
    ((running .write 1 [⟨0x20000, true, true, true, 7, false⟩] []).alive = true ∧ bridge.lrbFitted = true) := by
  and_intros <;> decide +kernel

/-- A board has the bus. -/
def board : State := bridge.set F.LRB_STAT_OWNER 2

theorem wit_RackInbound :
    (board.lrbOn = true ∧ board.get F.LRB_STAT_OWNER = 2 ∧ board.lrb.boardAt = none ∧ board.sup.st ≠ .dusk ∧ board.flag F.LRB_INWIN_EN = true ∧
      board.inWin 0x1FFFE = true ∧ board.inWin 0x20000 = false) ∧
    ((board.set F.LRB_INWIN_EN 0).flag F.LRB_INWIN_EN = false) ∧
    (let s := { board with sup := { board.sup with st := .dusk } }
     s.lrbOn = true ∧ s.sup.st = .dusk) ∧
    (bridge.lrb.open_ = false ∧ (board.modLrb fun l => { l with boardAt := some 900 }).lrb.boardAt ≠ none) ∧
    ((board.modLrb fun l => { l with boardAt := some 900, lockAt := some 900 }).lrb.lockAt = some 900) := by and_intros <;> decide +kernel

theorem wit_RackLists :
    (let s : State := { bridge with cfg := { bridge.cfg with rack := [(127, some ⟨1, 255, 0, 0x20000, 2, 0, 10⟩)] }, cyc := { bridge.cyc with running := true } }
     tget noneD s.cfg.rack 127 = some ⟨1, 255, 0, 0x20000, 2, 0, 10⟩ ∧ s.lrbOut = true ∧ s.cyc.running = true ∧ s.lrb.run = none ∧ s.lrb.lists = []) ∧
    (let s := (running .write 1 [] []).set (F.TVL_OGRP_EN 15) 1
     s.lrbOut = true ∧ s.flag (F.TVL_OGRP_EN 15) = true ∧ s.lrb.run ≠ none) ∧
    (tget noneD (bridge.modLrb fun l => { l with pf := [(3, some ⟨[(0x20002, 9)], [0x20002], 900⟩)] }).lrb.pf 3 = some ⟨[(0x20002, 9)], [0x20002], 900⟩) ∧
    semaphore.flag F.LRB_STAT_SEM_VALID = true ∧ bridge.lrbFitted = true := by and_intros <;> decide +kernel

/-! ### Witnesses: local safety inputs and outputs -/

/-- Input 15 is enabled, fed by TP 3, and channel Y delivers; TP 3 is enabled; the field supply is there. -/
def field : State :=
  ((((((framed .run).set (F.SIO_DICFG_EN 15) 1).set (F.SIO_DICFG_TPSEL 15) 3).set F.SIO_STAT_Y_OK 1).set F.SIO_TPCFG_EN 8).set
    F.SIO_STAT_FS_OK 1).set F.SIO_STAT_SW_FS 1

theorem wit_LocalInputs :
    (field.sioOn = true ∧ field.flag (F.SIO_DICFG_EN 15) = true ∧ (field.advance (field.sampleAt 15)).blanked 15 = false ∧
      diBand 139 = 0 ∧ diBand 140 = 1 ∧ diBand 499 = 1 ∧ diBand 500 = 2 ∧ diBand 1099 = 2 ∧ diBand 1100 = 3 ∧
      (field.set (F.SIO_DICFG_WB_EN 15) 1).flag (F.SIO_DICFG_WB_EN 15) = true ∧ field.flag (F.SIO_DICFG_WB_EN 15) = false) ∧
    (let s := field.setTp 3 { Tp.reset with pulse := some 900 }
     (s.advance (s.sampleAt 15)).blanked 15 = true) ∧
    field.flag F.SIO_STAT_Y_OK = true ∧ field.flag (F.SIO_DISTAT_XQ 15) = false ∧ (field.di 15).wb = false ∧ (field.di 15).wbY = false ∧ (field.di 15).discAt = none ∧
    (let s := field.setDi 15 { Di.reset with discAt := some 900 }
     (s.di 15).discAt = some 900 ∧ (s.di 15).disc = false) := by and_intros <;> decide +kernel

theorem wit_TestPulses :
    (field.sioOn = true ∧ (field.get F.SIO_TPCFG_EN).testBit 3 = true ∧ (field.tp 3).pulse = none ∧ field.clk.frcOn = true ∧
      (field.tp 3).on = true ∧ field.tpFault 3 = false ∧ field.fedBy 15 3 = true) ∧
    (((field.setTp 3 { Tp.reset with pulse := some 900 }).tp 3).pulse = some 900 ∧ field.flag F.SIO_STAT_FS_OK = true ∧
      (field.set F.SIO_STAT_FS_OK 0).flag F.SIO_STAT_FS_OK = false) := by and_intros <;> decide +kernel

/-- Output 7 is enabled, of a safety-class group or not, commanded and driven or not. -/
def output (safety cmd : Nat) : State :=
  let s := ((((field.set (F.SIO_DOCFG_EN 7) 1).set (F.SIO_DOCFG_OGRP 7) 2).set (F.TVL_OGRP_SAFETY 2) safety).set (F.SIO_DOSTAT_CMD 7) cmd).set
    (F.SIO_DOSTAT_DRIVE 7) cmd
  s.advance 200000

theorem wit_OutputFaults :
    ((output 1 1).sioFitted = true ∧ (output 1 1).flag (F.SIO_DOSTAT_DRIVE 7) = true) ∧
    ((output 1 1).sioOn = true ∧ (output 1 1).doEn 7 = true ∧ (output 1 1).flag F.SIO_STAT_FS_OK = true ∧
      (output 1 1).flag F.SIO_STAT_SW_FS = true ∧ ((output 1 1).dout 7).chgAt + 150 * usUt ≤ (output 1 1).clk.t ∧
      ((output 1 1).dout 7).testAt = none ∧ ((output 1 1).dout 7).latch = none ∧ (output 1 1).flag (F.SIO_DOSTAT_CMD 7) = true ∧
      (output 1 0).flag (F.SIO_DOSTAT_CMD 7) = false ∧ (output 1 0).doSafety 7 = true ∧ (output 0 0).doSafety 7 = false) ∧
    (let s := ((output 1 1).set (F.SIO_DOCFG_RETRY 7) 1).setDout 7 { Dout.reset with latch := some 1, retries := 2 }
     s.flag (F.SIO_DOCFG_RETRY 7) = true ∧ (s.dout 7).latch = some 1 ∧ (s.dout 7).retrying = false ∧ (s.dout 7).retries < 3 ∧
     s.flag (F.SIO_DOSTAT_CMD 7) = true ∧ (s.dout 7).swAt = none ∧ (s.dout 7).testAt = none) ∧
    (((output 1 1).set (F.SIO_DOCFG_TEST_EN 7) 1).flag (F.SIO_DOCFG_TEST_EN 7) = true ∧ ((output 1 1).dout 7).swAt = none) ∧
    ((((output 1 1).setDout 7 { Dout.reset with testAt := some 900 }).dout 7).testAt = some 900) := by and_intros <;> decide +kernel

theorem wit_FieldSupply :
    field.sioOn = true ∧ field.flag F.SIO_STAT_FS_OK = true ∧ (field.set F.SIO_STAT_FS_OK 0).flag F.SIO_STAT_FS_OK = false ∧
    field.get F.SIO_FSCFG_BUDGET < 65536 ∧ field.sioFitted = true := by and_intros <;> decide +kernel

/-! ### Witnesses: requests -/

/-- A request of the SCP host, of another sequence number than the stored one. -/
def rq (payload : List Byte) : Req := ⟨.scp 1, 8, 9, 0, 0, payload, none⟩

/-- A request of a host on Ethernet port 0, without a TAG. -/
def rqEth (payload : List Byte) : Req := ⟨.eth 0 0x0A000001 0 0 0, 8, 9, 0, 0, payload, none⟩

/-- A request at P1's local port. -/
def rqPort (payload : List Byte) : Req := ⟨.pairPort 1, 8, 9, 0, 0, payload, none⟩

/-- The state in which the command itself is judged. -/
def judged (s : State) (r : Req) (opc : Nat) : State := ((s.take r).keepCounter r).acceptMark r opc

/-- The conditions of `Asked`. -/
def askable (s : State) (r : Req) (opc : Nat) (ok : List MState) : Bool :=
  s.serving && ((s.take r).again r).isNone && !(s.take r).lockedOut r && ((s.take r).early r opc ok (s.noPlace r)).isNone

theorem asked (s : State) (r : Req) (opc : Nat) (ok : List MState) (h : askable s r opc ok = true) :
    Claims.Asked s r opc ok (judged s r opc) := by
  simp only [askable, Bool.and_eq_true, Bool.not_eq_true', Option.isNone_iff_eq_none] at h
  exact ⟨h.1.1.1, h.1.1.2, h.1.2, h.2, rfl⟩

/-- A configuration session of the SCP host, and one of P1's local port. -/
def session (s : State) (o : Origin) : State := { s with sup := { s.sup with cfgSess := some ⟨o, 64, [], 0⟩ } }

/-- The Service state entered from Dusk. -/
def fromDusk : State := { at_ .service with sup := { (at_ .service).sup with fromDusk := true } }

/-- A stored request of the origin. -/
def asking (s : State) : State := s.answer (rq []) 0x01 0 []

theorem wit_RequestChecks_rows (fails : BitVec 6) (x : PairStep) (trail : Option DWord) :
    Claims.SupTable fails x trail ⟨.describe, 0x01, [.config, .stop, .run, .hold, .service, .dusk], fun n => n == 0⟩ ∧
    Claims.SupTable fails x trail ⟨.setMode, 0x03, [.stop, .run, .hold], fun n => n == 1⟩ ∧
    Claims.SupTable fails x trail ⟨.configWrite, 0x09, [.config], fun n => decide (5 ≤ n)⟩ ∧
    Claims.SupTable fails x trail ⟨.halt, 0x72, [.service], fun n => n == 1⟩ := by simp [Claims.SupTable]

theorem wit_RequestChecks :
    ((asking (at_ .run)).serving = true ∧ ((asking (at_ .run)).lastReq (originKey (rq []).origin)).map (fun l => (l.seq, l.trailer)) = some (8, 9)) ∧
    (let s := at_ .run
     (((s.take (rq [])).again (rq [])).isNone = true ∧ badHeader { rq [] with byte7 := 1 } = true ∧ badHeader (rq []) = false ∧
      ((s.take (rq [])).lockedOut (rq [])) = false ∧ (s.take (rq [])).authOk (rq []) 0x03 = true ∧
      (s.take (rqPort [0])).authOk (rqPort [0]) 0x03 = false ∧ (s.take (rqEth [])).authOk (rqEth []) 0x01 = true ∧
      (s.take (rqEth [0])).authOk (rqEth [0]) 0x03 = false ∧
      (s.take (rq [])).legal 0x09 [.config] = false ∧ (s.take (rq [])).legal 0x03 [.stop, .run, .hold] = true ∧
      (s.take (rq [])).sessionLock (rq []) 0x03 = none ∧ (s.take (rq [])).evidence 0x03 = false ∧
      s.noPlace (rq []) = false ∧ (s.take (rq [])).busy (rq [0]) 0x03 = false)) ∧
    (let s : State := { at_ .run with sup := { (at_ .run).sup with authFails := [⟨0x0A000001, [], some 2000⟩] } }
     (s.take (rqEth [])).lockedOut (rqEth []) = true ∧ ((s.take (rqEth [])).again (rqEth [])).isNone = true) ∧
    (let s := session (at_ .config) (.pairPort 1)
     (s.take (rq [])).sessionLock (rq []) 0x09 = some 0xF1 ∧ ((session (at_ .config) (.scp 1)).take (rq [])).sessionLock (rq []) 0x09 = none) ∧
    (fromDusk.legal 0x72 [.service] = true ∧ (fromDusk.take (rq [1])).evidence 0x72 = true ∧ fromDusk.evidence 0x01 = false) ∧
    ((withLong (at_ .run) 0x12 0 none).busy (rq [0]) 0x03 = true ∧
      ({ at_ .run with sup := { (at_ .run).sup with portWait := 17 } } : State).noPlace (rqPort []) = true ∧
      ({ at_ .run with sup := { (at_ .run).sup with portWait := 16 } } : State).noPlace (rqPort []) = false) := by
  and_intros <;> decide +kernel

theorem wit_SupervisorReplies :
    ((at_ .run).sup.waiting.length < 16 ∧ (at_ .run).sup.sready = true ∧ reqLocal (rqPort []) = true ∧
      reqLocal (rq []) = false ∧ originKey (rqPort []).origin ≠ originKey (rq []).origin) ∧
    ((at_ .run).serving = true ∧ (((at_ .run).take (rq [])).again (rq [])).isNone = true ∧ (at_ .run).alive = true ∧
      ({ at_ .run with sup := { (at_ .run).sup with sready := false } } : State).sup.sready = false) := by
  and_intros <;> decide +kernel

/-! ### Witnesses: the supervisor's commands of states, configuration and image sets -/

/-- A schedule image of one partition and one background task with one window, identity 7, T_G of 1 ms. -/
def schedImage : Tbl Byte :=
  image [(4096, leBytes 4 0x49535850 ++ leBytes 2 1 ++ leBytes 2 64 ++ leBytes 4 132 ++ leBytes 4 7 ++ leBytes 4 4000 ++ [0, 0] ++ leBytes 2 1 ++
      leBytes 2 1 ++ leBytes 2 1 ++ leBytes 4 64 ++ leBytes 4 64 ++ leBytes 4 80 ++ leBytes 4 112 ++ leBytes 4 128),
    (4160, leBytes 2 16 ++ [0, 0] ++ leBytes 4 64 ++ [0x3F]), (4176, [0, 2, 0, 0xFF, 0, 0, 0, 0] ++ leBytes 8 0x100000 ++ leBytes 8 0x108000),
    (4208, leBytes 4 400 ++ leBytes 4 1000), (4224, leBytes 4 0x8703c78e)]

/-- The manifest of a set of that image, under key 3, with the image's SHA-256 and an Ed25519 signature of the secret key of test 1 of RFC 8032. -/
def schedSet : Tbl Byte :=
  tputList byteD (tputList byteD (tputList byteD schedImage 0 (leBytes 4 0x53544553 ++ leBytes 2 1 ++ leBytes 2 1 ++ leBytes 4 4228 ++ leBytes 4 7 ++ leBytes 4 3)) 32
    ([1, 0, 0, 0] ++ leBytes 4 4096 ++ leBytes 4 132 ++ leBytes 4 0 ++ beBytes 32 0x3a189f43e4d1c6c94d9c5a75091c80f58f32d6755dc0a8d0c215c0eceb539fe4)) 80
    (beBytes 64 0x73bf115e86f9a698429548b7fcef696cda49265d50a7f843975d055099fd84b6ac1bbbbefa1191250bf1bbae8db199859b07746b8994f0cb26892080b76e2d03)

/-- A configuration image of identity 0x11 that names the schedule image 7, holds key 3 and gives machine mode 16 pages. -/
def cfgImage : Tbl Byte :=
  image [(0, leBytes 4 0x50464743 ++ leBytes 2 1 ++ leBytes 2 64 ++ leBytes 4 152 ++ leBytes 4 0x11 ++ leBytes 4 7), (0x1C, leBytes 2 2),
    (0x20, leBytes 4 64), (64, leBytes 2 25 ++ [0, 0] ++ leBytes 4 96 ++ leBytes 4 36), (80, leBytes 2 2 ++ [0, 0] ++ leBytes 4 132 ++ leBytes 4 16),
    (96, leBytes 4 3 ++ beBytes 32 0xd75a980182b10ab7d54bfed3c964073a0ee172f3daa62325af021a68f707511a), (132, leBytes 4 0x30000 ++ leBytes 4 16 ++ leBytes 4 0xF000C ++ leBytes 4 120),
    (148, leBytes 4 0xbe3ebdea)]

/-- That configuration is sealed; set 0 is active, set 1 is loaded and verified, or neither. -/
def loaded (m : MState) (verified : Bool) : State :=
  let s := at_ m
  let s : State := { s with hx := { s.hx with sched := setSched schedSet, hasSched := true } }
  let s : State := { s with sup := { s.sup with cfgImage := cfgImage, cfgLen := 152, schedId := 7, activeSet := some 0 } }
  { s with sup := { s.sup with sets := [(0, ⟨schedSet, 4228, true, false, []⟩), (1, ⟨schedSet, 4228, verified, false, []⟩)] } }

/-- A load session of the SCP host on set 1. -/
def loading (m : MState) : State :=
  let s := loaded m false
  { s with sup := { s.sup with loadSess := some ⟨.scp 1, 1, 4228, 0⟩ } }

/-- A state in which an ACTIVATE awaits its boundary. -/
def awaiting : State :=
  let s := withLong (loaded .run true) 0x13 1 none
  { s with cyc := { s.cyc with change := some ⟨1, 8, [], [], [], [], [], false, 0, false⟩ } }

/-- A retentive block to be saved. -/
def withBlock (s : State) : State := { s with prog := { s.prog with blocks := [⟨1, 0x1000, 64, 0, 0, 1, 0, 0, 0⟩] } }

theorem wit_StateReports :
    Claims.Asked (at_ .dusk) (rq []) 0x01 Claims.anyState (judged (at_ .dusk) (rq []) 0x01) ∧
    Claims.Asked (at_ .config) (rqPort []) 0x02 Claims.anyState (judged (at_ .config) (rqPort []) 0x02) ∧ (rq []).payload = [] := by
  and_intros <;> first | exact asked _ _ _ _ (by decide +kernel) | rfl

/-- A SET_MODE, RESTART and MIDNIGHT that may be judged. -/
def modeAsked (s : State) (p : List Byte) : Bool := askable s (rq p) 0x03 [.stop, .run, .hold]

theorem wit_StateCommands_setMode :
    (modeAsked (at_ .stop) [0] ∧ (judged (at_ .stop) (rq [0]) 3).sup.st = .stop) ∧
    (modeAsked (at_ .run) [1] ∧ (judged (at_ .run) (rq [1]) 3).sup.st = .run ∧ (judged (at_ .run) (rq [1]) 3).cyc.leaving = false) ∧
    (modeAsked (at_ .hold) [2] ∧ modeAsked (at_ .stop) [3] ∧ modeAsked (at_ .stop) [2]) ∧
    (modeAsked (at_ .stop) [1] ∧ (judged (at_ .stop) (rq [1]) 3).runnable = false) ∧
    (modeAsked (loaded .stop false) [1] ∧ (judged (loaded .stop false) (rq [1]) 3).runnable = true) ∧
    (modeAsked (withBlock (at_ .run)) [2] ∧ (judged (withBlock (at_ .run)) (rq [2]) 3).prog.blocks.length = 1 ∧
      (judged (withBlock (at_ .run)) (rq [2]) 3).activateWaits = false) ∧
    (modeAsked (at_ .run) [0] ∧ (judged (at_ .run) (rq [0]) 3).prog.blocks = [] ∧ (judged (at_ .run) (rq [0]) 3).activateWaits = false) ∧
    (modeAsked (at_ .hold) [0] ∧ (judged (at_ .hold) (rq [0]) 3).activateWaits = false ∧ awaiting.activateWaits = true) := by
  and_intros <;> decide +kernel

theorem wit_StateCommands :
    (askable (at_ .dusk) (rq [2, 0]) 0x04 Claims.anyState ∧ askable (at_ .stop) (rq [0, 3]) 0x04 Claims.anyState ∧
      askable (at_ .run) (rq [1, 2]) 0x04 Claims.anyState ∧ askable (at_ .config) (rq [0, 2]) 0x04 Claims.anyState ∧
      (judged (at_ .config) (rq [0, 2]) 4).sup.st = .config) ∧
    (askable (at_ .stop) (rq [8, 1, 0, 0, 0, 0, 0, 0]) 0x58 [.stop, .run] ∧ askable (at_ .stop) (rq [15, 1, 0, 0, 1, 0, 0, 0]) 0x58 [.stop, .run] ∧
      (judged (at_ .stop) (rq [15, 1, 0, 0, 1, 0, 0, 0]) 0x58).sup.st = .stop) := by and_intros <;> decide +kernel

/-- The state with a configuration session that holds an image. -/
def sealing (b : Tbl Byte) (n : Nat) : State :=
  let s := withLong (at_ .config) 0x0A 0 none
  { s with sup := { s.sup with cfgSess := some ⟨.scp 1, n, b, 0⟩ } }

theorem wit_ConfigurationCommands :
    (askable (at_ .stop) (rq (leBytes 4 63)) 0x08 [.config, .stop] ∧ askable (at_ .config) (rq (leBytes 4 983041)) 0x08 [.config, .stop] ∧
      askable (at_ .stop) (rq (leBytes 4 64)) 0x08 [.config, .stop] ∧ askable (at_ .config) (rq (leBytes 4 983040)) 0x08 [.config, .stop] ∧
      askable (at_ .config) (rq (leBytes 4 0)) 0x08 [.config, .stop] ∧ (at_ .config).sealed = true) ∧
    (askable (at_ .config) (rq [0, 0, 0, 0, 1]) 0x09 [.config] ∧ (judged (at_ .config) (rq [0, 0, 0, 0, 1]) 9).sup.cfgSess.isNone ∧
      askable (session (at_ .config) (.scp 1)) (rq [63, 0, 0, 0, 1]) 0x09 [.config] ∧
      askable (session (at_ .config) (.scp 1)) (rq [64, 0, 0, 0, 1]) 0x09 [.config] ∧
      (judged (session (at_ .config) (.scp 1)) (rq [63, 0, 0, 0, 1]) 9).sup.cfgSess = some ⟨.scp 1, 64, [], 1000⟩) ∧
    (askable (at_ .config) (rq []) 0x0A [.config] ∧ askable (session (at_ .config) (.scp 1)) (rq []) 0x0A [.config]) ∧
    ((sealing [] 64).sealFail [] 64 true = some ⟨0x13, 1, 0, 0⟩ ∧ (sealing cfgImage 152).sealFail cfgImage 152 true = none ∧
      ((sealing cfgImage 152).sup.longOp.map fun o => (o.opc, o.outcome)) = some (0x0A, none)) := by and_intros <;> decide +kernel

/-- Set 1 of `loaded` passes LOAD_VERIFY and ACTIVATE: its digest and its signature are right. -/
theorem wit_ImageSetCommands_good :
    (judged (loading .run) (rq []) 0x12).verifyFail 1 4228 = none ∧ (judged (loaded .stop true) (rq [1]) 0x13).activateFail 1 = none ∧
    (judged (loaded .run true) (rq [1]) 0x13).activateFail 1 = none := by and_intros <;> decide +kernel

theorem wit_ImageSetCommands :
    (askable (loaded .run false) (rq ([2, 0, 0, 0] ++ leBytes 4 4228)) 0x10 loadStates ∧
      askable (loaded .run false) (rq ([0, 0, 0, 0] ++ leBytes 4 4228)) 0x10 loadStates ∧
      askable (loaded .run false) (rq ([1, 0, 0, 0] ++ leBytes 4 0x8000000)) 0x10 loadStates ∧ (loaded .run false).sup.activeSet = some 0) ∧
    (askable (loaded .run false) (rq [0, 0, 0, 0, 1, 1, 1, 1]) 0x11 loadStates ∧ askable (loading .run) (rq [2, 0, 0, 0, 1, 1, 1, 1]) 0x11 loadStates ∧
      askable (loading .run) (rq (leBytes 4 4224 ++ [1, 1, 1, 1])) 0x11 loadStates ∧
      (judged (loading .run) (rq []) 0x11).sup.loadSess = some ⟨.scp 1, 1, 4228, 1000⟩) ∧
    (askable (loaded .run false) (rq []) 0x12 loadStates ∧ askable (loading .run) (rq []) 0x12 loadStates ∧
      (judged (loading .run) (rq []) 0x12).verifyFail 1 4227 = some ⟨0x13, 22, 0, 0xFFFFFFFF⟩) ∧
    (((withLong (loading .run) 0x12 1 none).sup.longOp.map fun o => (o.opc, o.outcome)) = some (0x12, none) ∧
      (List.range 2).all fun e => (List.range 2).all fun b => (withLong (loading .run) 0x12 1 none).get (leBankF e b) != 1) ∧
    (askable (loaded .stop true) (rq [2]) 0x13 [.stop, .run] ∧ askable (loaded .stop true) (rq [1]) 0x13 [.stop, .run] ∧
      askable (loaded .run true) (rq [1]) 0x13 [.stop, .run] ∧ (judged (loaded .run true) (rq [1]) 0x13).cyc.change = none ∧
      (judged (loaded .run true) (rq [1]) 0x13).simplex = true ∧
      (judged (loaded .run true) (rq [1]) 0x13).changeFail 1 ((judged (loaded .run true) (rq [1]) 0x13).changeIntervals 1) = none ∧
      (judged (loaded .stop false) (rq [1]) 0x13).activateFail 1 = some ⟨0x12, 22, 0, 1⟩) ∧
    (let s : State := { awaiting with sup := { awaiting.sup with longOp := none } }
     askable s (rq [1]) 0x13 [.stop, .run] ∧ (judged s (rq [1]) 0x13).cyc.change.isSome) := by and_intros <;> decide +kernel

/-! ### Witnesses: forces and variables -/

/-- Variables: 1 a REAL in input group 0, 2 a buffer of 12 bytes of partition 0, 3 a DINT of the partition, 4 of a type and a space that take no force. -/
def withVars (s : State) : State :=
  { s with prog := { s.prog with vars := [⟨1, 5, 1, 0, 0, 8, 4, 0⟩, ⟨2, 0x20, 0, 0, 0, 0x1000, 12, 0⟩, ⟨3, 4, 0, 0, 0, 0x1010, 4, 0⟩, ⟨4, 9, 3, 0, 0, 0, 4, 0⟩] } }

/-- The same with a force of variable `n` in the table. -/
def forced (n : Nat) : State :=
  let s := withVars (at_ .run)
  { s with cyc := { s.cyc with forces := [⟨n, 5, 1, 0, 8, 0, 4, 7, true, false⟩] } }

def fs (ident res : Nat) : Req := rq (leBytes 4 ident ++ leBytes 4 res ++ leBytes 8 7)
def wv (ident n : Nat) : Req := rq (leBytes 4 ident ++ leBytes 2 0 ++ leBytes 2 0 ++ List.replicate n 1)
def service4 : List MState := [.stop, .run, .hold, .service]

theorem wit_ForceCommands :
    (askable (withVars (at_ .run)) (fs 9 0) 0x18 service4 ∧ (judged (withVars (at_ .run)) (fs 9 0) 0x18).var? 9 = none) ∧
    (askable (withVars (at_ .run)) (fs 1 1) 0x18 service4 ∧ askable (withVars (at_ .run)) (fs 4 0) 0x18 service4 ∧
      ((judged (withVars (at_ .run)) (fs 1 1) 0x18).var? 1).map (fun v => (v.typ, v.space)) = some (5, 1) ∧
      ((judged (withVars (at_ .run)) (fs 4 0) 0x18).var? 4).map (fun v => v.typ) = some 9) ∧
    (askable (forced 1) (fs 1 0) 0x18 service4 ∧ (judged (forced 1) (fs 1 0) 0x18).cyc.forces.length = 1 ∧
      (judged (forced 1) (fs 1 0) 0x18).forceLocked ⟨1, 5, 1, 0, 0, 8, 4, 0⟩ = false ∧
      ({ forced 1 with cfg := { (forced 1).cfg with sigs := [⟨4, 0, 0, 8, 4, 0xFFFF, 0, 1, 0, 0⟩] } } : State).forceLocked ⟨1, 5, 1, 0, 0, 8, 4, 0⟩ = true) ∧
    ((List.replicate 256 (⟨2, 5, 1, 0, 8, 0, 4, 7, true, false⟩ : Force)).length = 256) ∧
    (askable (forced 1) (rq (leBytes 4 1)) 0x19 service4 ∧ askable (forced 1) (rq (leBytes 4 0xFFFFFFFF)) 0x19 service4 ∧
      askable (forced 1) (rq (leBytes 4 2)) 0x19 service4 ∧ ((judged (forced 1) (rq (leBytes 4 1)) 0x19).cyc.forces.map fun f => f.ident) = [1]) ∧
    (askable (forced 1) (rq [0, 0]) 0x1A allStates) ∧
    ((forced 1).simplex = true ∧ (tri 4 3).simplex = false ∧ (tri 4 3).get F.TVL_STAT_MSTATE = 4) := by and_intros <;> decide +kernel

theorem wit_VariableCommands :
    (askable (withVars (at_ .run)) (rq (leBytes 4 2 ++ leBytes 2 4 ++ leBytes 2 8)) 0x20 [.stop, .run, .hold, .service, .dusk] ∧
      (withVars (at_ .run)).var? 9 = none ∧ ((withVars (at_ .run)).var? 2).map (fun v => (v.typ, v.size)) = some (0x20, 12) ∧
      ((withVars (at_ .run)).var? 3).map (fun v => (v.typ, v.size)) = some (4, 4)) ∧
    (askable (withVars (at_ .run)) (wv 9 4) 0x21 service4 ∧ askable (withVars (at_ .run)) (wv 1 4) 0x21 service4 ∧
      askable (withVars (at_ .run)) (wv 3 3) 0x21 service4 ∧ askable (withVars (at_ .run)) (wv 3 4) 0x21 service4 ∧
      varSpan ⟨3, 4, 0, 0, 0, 0x1010, 4, 0⟩ 0 0 = some (0, 4) ∧
      (judged (withVars (at_ .run)) (wv 3 4) 0x21).writeLocked ⟨3, 4, 0, 0, 0, 0x1010, 4, 0⟩ = false) ∧
    (let s := withVars (((scheduled .run).set (F.TVL_OGRP_EN 0) 1).set (F.TVL_OGRP_SAFETY 0) 1)
     let s := s.set (F.TVL_OGRP_LEN8 0) 8
     s.writeLocked ⟨3, 4, 0, 0, 0, 0x1010, 4, 0⟩ = true) := by and_intros <;> decide +kernel

/-! ### Witnesses: the recorder -/

/-- A report of a code, and a state with reports, with a bucket of the code 0x0A0, with an intake queue. -/
def reporting (c : RCode) (stamp : Nat) : Report := ⟨c, 3, stamp, true, 0, [1]⟩
def reported (l : List Report) : State := { at_ .run with rcd := { (at_ .run).rcd with reported := l } }
def strayCat : CatEntry := catRow .STRAY_COMPLETE 0x0A0 1 false false 0x30 4 250
def powerCat : CatEntry := catRow .POWER_ON 0x001 0 true false 0x00 4 0
def recOf (n : Nat) : RecItem := ⟨n, 1, 3, false, false, false, false, 0, 0, 900, [], 0, none⟩
def withBucket (s : State) (b : Bucket) : State := s.setBucket 0x0A0 b
def intakeOf (s : State) (n : Nat) : State := { s with rcd := { s.rcd with intake := List.replicate n (recOf 1) } }

theorem wit_RecorderJudging :
    (nextReport [reporting .STRAY_COMPLETE 5, reporting .POWER_ON 4] = some (reporting .POWER_ON 4) ∧
      (reported [reporting .STRAY_COMPLETE 5]).sup.st = .run ∧ (reported []).catOf .STRAY_COMPLETE = some strayCat ∧
      (reported []).hasToken strayCat = true ∧ (withBucket (reported []) ⟨0, some 7, none, 0, 2⟩).hasToken strayCat = false ∧
      ((reported []).rateOf strayCat).2 = 250 ∧ ((reported []).rateOf powerCat).2 = 0) ∧
    ((intakeOf (reported []) 55).rcd.intake.length < 56 ∧ 56 ≤ (intakeOf (reported []) 56).rcd.intake.length) ∧
    ((reported []).catNum 0x0A0 = some strayCat ∧ ((withBucket (reported []) ⟨0, some 7, none, 0, 2⟩).bucket strayCat).refill = some 7 ∧
      ((withBucket (reported []) ⟨0, some 7, some (recOf 0x0A0), 1, 2⟩).bucket strayCat).kept = some (recOf 0x0A0)) := by and_intros <;> decide +kernel

/-- The supply-fail warning has been given. -/
def warned (s : State) : State := { s with pwr := { s.pwr with warned := true } }

theorem wit_RecorderRing :
    ((warned (intakeOf (at_ .run) 1)).recRuns = true ∧ (warned (intakeOf (at_ .run) 1)).pwr.warned = true ∧
      (intakeOf (at_ .run) 1).rcd.intake = [recOf 1] ∧ (intakeOf (at_ .run) 1).rcd.droppedSince = 0) ∧
    (let s := intakeOf (at_ .run) 1
     let s : State := { s with pwr := { s.pwr with granted := [⟨4, 0, 3, 0⟩] } }
     s.recRuns = true ∧ s.pwr.warned = false ∧ (s.pwr.granted.any fun r => r.rank == 4 && r.unit == 0) = true) ∧
    (askable (at_ .dusk) (rq (leBytes 4 0 ++ leBytes 2 63)) 0x28 allStates ∧ askable (at_ .dusk) (rq (leBytes 4 0 ++ leBytes 2 64)) 0x28 allStates ∧
      (at_ .dusk).rcd.empty = true) ∧
    (askable (at_ .run) (rq [0xFF, 2]) 0x29 allStates ∧ askable (at_ .run) (rq [0x80, 3]) 0x29 allStates ∧
      askable (at_ .run) (rq [0x7F, 3, 1]) 0x29 allStates ∧
      (let v := judged (at_ .run) (rq [0x7F, 3, 1]) 0x29
       ((v.judgeAll v.rcd.reported.length).catNum 0x37F).isSome ∧ (v.judgeAll v.rcd.reported.length).rcd.intake.length < 56) ∧
      ((at_ .run).catNum 0x37F).any (fun e => (at_ .run).hasToken e)) := by and_intros <;> decide +kernel

def recAsked (p : List Byte) : Bool := askable (at_ .stop) (rq p) 0x2A [.config, .stop]

theorem wit_RecorderConfiguration :
    (recAsked [5, 0, 0, 0] ∧ recAsked [2, 0, 0] ∧ recAsked [4, 1, 0, 0] ∧ recAsked [0, 0, 0xFF, 1, 1, 0, 0, 0] ∧ (at_ .stop).catNum 0x1FF = none) ∧
    (recAsked [0, 0, 0xA0, 0, 0, 0, 0, 0] ∧ recAsked [0, 0, 1, 0, 1, 0, 0, 0] ∧ recAsked [0, 0, 0xA0, 0, 1, 0, 0, 0] ∧
      ((at_ .stop).catNum 1).map (fun e => e.always) = some true ∧ ((at_ .stop).catNum 0xA0).map (fun e => e.always) = some false) ∧
    (recAsked [1, 0, 0x80, 0, 1, 0, 0, 0, 0, 0, 0, 0] ∧ recAsked ([1, 0, 0xA0, 0, 1, 0, 0, 0] ++ leBytes 4 0x60200) ∧
      ((at_ .stop).catNum 0x80).map (fun e => e.fixedSnap) = some true ∧ ((at_ .stop).catNum 0xA0).map (fun e => e.fixedSnap) = some false ∧
      snapOffset 0x60200 = false ∧ snapOffset 0 = true ∧ (at_ .stop).offFitted 0 = true) ∧
    (recAsked [2, 0, 0xA0, 0] ∧ recAsked [3, 0, 0xA0, 0] ∧ recAsked [4, 0, 0xA0, 0]) := by and_intros <;> decide +kernel

/-! ### Witnesses: time, network, leases, tests and power -/

def timeAsked (p : List Byte) : Bool := askable (at_ .stop) (rq p) 0x31 [.stop]
def onSource : State := (at_ .stop).set F.TMB_STAT_ACTIVE 2

theorem wit_TimeCommands :
    askable (at_ .dusk) (rqEth []) 0x30 allStates ∧
    (timeAsked [2, 0, 0, 0] ∧ timeAsked (leBytes 4 0 ++ leBytes 8 7 ++ leBytes 4 1000000000) ∧
      timeAsked (leBytes 4 0 ++ leBytes 8 7 ++ leBytes 4 999999999)) ∧
    (timeAsked [1, 0, 0, 0] ∧ (judged (at_ .stop) (rq [1, 0, 0, 0]) 0x31).get F.TMB_STAT_ACTIVE < 2) ∧
    (let s := onSource.setTsrc 2 { TmbSrc.reset with newest := some 5 }
     askable s (rq [1, 0, 0, 0]) 0x31 [.stop] ∧ (judged s (rq [1, 0, 0, 0]) 0x31).get F.TMB_STAT_ACTIVE = 2 ∧
     ((judged s (rq [1, 0, 0, 0]) 0x31).tsrc 2).newest = some 5) := by and_intros <;> decide +kernel

theorem wit_NetworkCommands :
    (askable (at_ .run) (rq [0]) 0x38 service4 ∧ (at_ .run).cfg.cluster = none) ∧
    (askable (gheif 4) (rq [8]) 0x38 service4 ∧ askable (gheif 4) (rq [1]) 0x38 service4 ∧
      (judged (gheif 4) (rq [1]) 0x38).cfg.cluster = some cluster ∧ ((judged (gheif 4) (rq [1]) 0x38).ghMe cluster).syncId = 1 ∧
      cluster.modes.testBit 1 = true ∧ ((judged (gheif 4) (rq [1]) 0x38).ghMe cluster).permit.testBit 1 = true ∧
      (judged (gheif 4) (rq [1]) 0x38).gh.prop = none ∧ (judged (gheif 4) (rq [1]) 0x38).gh.leader = 0 ∧
      (judged (gheif 4) (rq [1]) 0x38).get F.GHC_STAT_PSTATE = 4 ∧ (gheif 3).get F.GHC_STAT_PSTATE ≠ 4) ∧
    (askable (at_ .dusk) (rq []) 0x40 allStates) ∧ (askable (at_ .run) (rq [1, 0x80]) 0x41 [.run]) ∧
    (askable (at_ .run) (rq []) 0x42 [.run, .hold] ∧ (at_ .run).get F.TVL_STAT_MSTATE ≠ 5 ∧ askable (tri 5 0) (rq []) 0x42 [.run, .hold] ∧
      (judged (tri 5 0) (rq []) 0x42).get F.TVL_STAT_MSTATE = 5 ∧ (tri 5 0).tvl.exclPort = none ∧ (tri 5 0).allTested = false ∧
      ((List.range 4).foldl (fun (s : State) p => s.modPair p fun q => { q with cmpDawnOk := true })
        (((tri 5 0).set (F.LE_CMPST_DAWN_OK 0) 1).set (F.LE_CMPST_DAWN_OK 1) 1)).allTested = true) := by and_intros <;> decide +kernel

theorem wit_TestAndBudgetCommands :
    (askable (at_ .stop) (rq [4]) 0x48 [.stop, .service] ∧ askable (at_ .stop) (rq [3]) 0x48 [.stop, .service] ∧
      (judged (at_ .stop) (rq [3]) 0x48).unitFitted 0 = true ∧ (3 : Nat).testBit (0 / 4) = true ∧ (1 : BitVec 6).getLsbD 0 = true) ∧
    (let b5 : List MState := [.config, .stop, .run, .hold, .service]
     askable (at_ .run) (rq [119, 0]) 0x50 b5 ∧ askable (at_ .run) (rq [221, 0]) 0x50 b5 ∧ askable (at_ .run) (rq [0, 0]) 0x50 b5 ∧
     askable (at_ .run) (rq [220, 0]) 0x50 b5) := by and_intros <;> decide +kernel

/-! ### Witnesses: the Service state -/

/-- P0 halted in the Service state; P1 is not halted. -/
def halted (s : State) : State := s.modPair 0 fun q => { q with halted := true }

/-- The selector, pair, address and length of a PEEK or POKE, with its data. -/
def pk (space pair a n : Nat) (d : List Byte) : Req :=
  rq ([BitVec.ofNat 8 space, BitVec.ofNat 8 pair, 0, 0] ++ leBytes 8 a ++ leBytes 2 n ++ d)

def svc (r : Req) (opc : Nat) : Bool := askable (at_ .service) r opc [.service]

theorem wit_ServiceCommands :
    (askable (at_ .dusk) (rq []) 0x70 [.stop, .dusk] ∧ askable (at_ .stop) (rq []) 0x70 [.stop, .dusk]) ∧
    (askable fromDusk (rq []) 0x71 [.service] ∧ (judged fromDusk (rq []) 0x71).sup.fromDusk = true ∧ svc (rq []) 0x71 ∧
      (judged (at_ .service) (rq []) 0x71).sup.fromDusk = false) ∧
    (svc (rq [16]) 0x72 ∧ svc (rq [15]) 0x74 ∧ svc (rq [1]) 0x72 ∧ askable (halted (at_ .service)) (rq [1]) 0x74 [.service] ∧
      ((judged (halted (at_ .service)) (rq [1]) 0x74).pair 0).halted = true ∧ (at_ .service).pairFitted 0 = true ∧
      ({ at_ .service with ident := { (at_ .service).ident with variant := .tvm9210 } } : State).pairFitted 3 = false) ∧
    (svc (rq [4]) 0x73 ∧ svc (rq [3]) 0x73 ∧ ((judged (at_ .service) (rq [3]) 0x73).pair 3).halted = false ∧
      askable (halted (at_ .service)) (rq [0]) 0x73 [.service] ∧ ((judged (halted (at_ .service)) (rq [0]) 0x73).pair 0).halted = true) := by
  and_intros <;> decide +kernel

theorem wit_DebugCommands :
    (svc (pk 2 0 0 8 []) 0x75 ∧ svc (pk 0 4 0 8 []) 0x75 ∧ svc (pk 0 0 0 0 []) 0x75 ∧ svc (pk 0 0 0 4001 []) 0x75 ∧ svc (pk 1 0 5 4 []) 0x75 ∧
      svc (pk 0 0 0x10000000 4000 []) 0x75 ∧ svc (pk 1 0 0x3FF 8 []) 0x75 ∧
      (let u := judged (halted (at_ .service)) (pk 0 0 0x10000000 4 []) 0x75
       u.peekRefuse (pk 0 0 0x10000000 4 []) = none ∧ (State.peekMem 0 4 u 0x10000000 4).map (fun c => c.2) = some [0, 0, 0, 0]) ∧
      (let u : State := { judged (halted (at_ .service)) (pk 0 0 0x10000000 4 []) 0x75 with poison := [0x10000000 / 64] }
       u.peekRefuse (pk 0 0 0x10000000 4 []) = none ∧ (State.peekMem 0 4 u 0x10000000 4).isNone) ∧
      (judged (halted (at_ .service)) (pk 1 0 5 8 []) 0x75).peekRefuse (pk 1 0 5 8 []) = none) ∧
    (svc (pk 0 0 0x10000000 2 [1]) 0x76 ∧ (judged (halted (at_ .service)) (pk 0 0 0x10000000 1 [1]) 0x76).peekRefuse (pk 0 0 0x10000000 1 [1]) = none ∧
      (at_ .service).mayStore 0x20000000 = false ∧ (at_ .service).mayStore 0x11C00000 = true ∧
      ((at_ .service).set (leBankF 0 1) 3).inActiveBank 0x41100000 = true ∧ (at_ .service).inActiveBank 0x20000000 = false ∧ svc (pk 1 0 5 8 (List.replicate 8 1)) 0x76 ∧
      (judged (halted (at_ .service)) (pk 1 0 5 8 (List.replicate 8 1)) 0x76).peekRefuse (pk 1 0 5 8 (List.replicate 8 1)) = none) ∧
    (svc (rq ([4, 0, 1, 0] ++ leBytes 8 0)) 0x77 ∧ svc (rq ([0, 3, 1, 0] ++ leBytes 8 0x1000)) 0x77 ∧ svc (rq ([1, 0, 0, 0] ++ leBytes 8 0)) 0x77) ∧
    (svc (rq (leBytes 4 0 ++ [2, 0, 0, 0])) 0x78 ∧ svc (rq (leBytes 4 0x200000 ++ [0, 0, 0, 0, 1])) 0x78 ∧
      svc (rq (leBytes 4 0x1FFFFF ++ [0, 0, 0, 0, 1])) 0x78 ∧ svc (rq (leBytes 4 0 ++ [1, 0, 0, 0, 1])) 0x78 ∧
      (Config.bootVerify [1] = true ∨ Config.bootVerify [1] = false)) := by
  and_intros <;> first | decide +kernel | exact Bool.eq_false_or_eq_true _

/-! ### Witnesses: ports, sessions, long operations -/

/-- A waiting reply, and a waiting notice. -/
def replyPacket : Packet := ⟨0x01, 1, 8, 1, 0, [], none⟩
def noticePacket : Packet := ⟨0x00, 2, 0, 0, 0, [], none⟩

def sending (l : List (Packet × Bool)) (dropped : Nat) : State :=
  { at_ .run with sup := { (at_ .run).sup with waiting := l, dropped := dropped } }

theorem wit_LongOperations :
    ((withLong (at_ .run) 0x12 1 (some (0x13, [1]))).sup.longOp.map fun o => o.outcome) = some (some (0x13, [1])) ∧
    ((withLong (at_ .run) 0x03 1 (some (0, []))).sup.longOp.map fun o => o.outcome) = some (some (0, [])) ∧
    ((withLong (gheif 4) 0x38 1 none).sup.longOp.map fun o => (o.opc, o.outcome)) = some (0x38, none) ∧
    (withLong (gheif 4) 0x38 1 none).gh.prop = none ∧ (at_ .run).sup.longOp = none := by and_intros <;> decide +kernel

theorem wit_SupervisorPorts :
    ((at_ .run).sup.sready = true ∧ (at_ .run).sup.waiting = [] ∧
      (sending [(noticePacket, false), (replyPacket, false)] 0).sup.waiting.find? (fun c => c.1.flags.testBit 0) = some (replyPacket, false) ∧
      noticePacket.flags.testBit 0 = false ∧ (sending [(noticePacket, false)] 0).sup.waiting.head? = some (noticePacket, false) ∧
      (sending [(noticePacket, false)] 3).sup.dropped ≠ 0) ∧
    ((scheduled .run).alive = true ∧ (scheduled .run).pairFitted 3 = true ∧ ((scheduled .run).part? 0).map (fun d => d.pflags.testBit 1) = some true ∧
      ((scheduled .run).set (F.SUP_MBSTAT_BUSY 3) 1).flag (F.SUP_MBSTAT_BUSY 3) = true ∧ (scheduled .run).flag (F.SUP_MBSTAT_BUSY 0xF30) = false) ∧
    ((session (at_ .config) (.scp 1)).sup.cfgSess = some ⟨.scp 1, 64, [], 0⟩ ∧ (loading .run).sup.loadSess = some ⟨.scp 1, 1, 4228, 0⟩ ∧
      ([⟨7, [], some 2000⟩].find? fun (a : AuthFail) => a.ip == 7) = some ⟨7, [], some 2000⟩) := by and_intros <;> decide +kernel

/-! ### Witnesses: the start of the module -/

/-- Power-good is given in a state, or not. -/
def powered (s : State) : State := { s with pwr := { s.pwr with good := true } }
def unpowered (s : State) : State := { s with pwr := { s.pwr with good := false } }

theorem wit_PowerStates :
    ((unpowered (at_ .night)).sup.st = .night ∧ (unpowered (at_ .night)).pwr.good = false ∧ (powered (at_ .dawn)).sup.st = .dawn ∧ (powered (at_ .dawn)).pwr.rstAsserted = false ∧
      (powered (at_ .dawn)).unitFitted 5 = true ∧ (at_ .run).pwr.mated = true ∧
      ({ at_ .run with pwr := { (at_ .run).pwr with mated := false } } : State).pwr.mated = false ∧ (at_ .night).pwr.mated = true ∧ (0x20 : BitVec 6).getLsbD 5 = true) ∧
    ((powered (at_ .run)).alive = true ∧ (powered (at_ .run)).pwr.warned = false ∧
      (let s := powered (at_ .run)
       ({ s with pwr := { s.pwr with holdupSince := some 5 } } : State).pwr.holdupSince.isSome = true) ∧
      (warned (powered (at_ .run))).pwr.warned = true) ∧
    (let s := powered (at_ .midnight)
     let s : State := { s with pwr := { s.pwr with midnight := some ⟨8, 10, 1, 0⟩ } }
     s.sup.st = .midnight ∧ (8 : Nat).testBit 3 = true ∧ s.wakeAble 3 = true ∧ (8 : Nat).testBit 0 = false) := by and_intros <;> decide +kernel

/-- The first Dawn sequence ends in Config; with a configuration sealed, in Stop or Run. -/
theorem test_dawn_config : ∃ t, exec (.dawnEnd false ⟨0, 0⟩ false) (powered State.reset) = .next t ∧ t.sup.st = .config ∧ t.sealed = false :=
  ⟨_, rfl, by decide +kernel, by decide +kernel⟩

/-! ### The engine's encodings (the worked translation of chapter 6) -/

theorem test_decode_words_0_to_7 :
    decodeLe 0 0x80000020 = some (.leLdw 0 ⟨0, 0x20⟩) ∧ decodeLe 0 0xC700001E = some (.leLtw 0 ⟨3, 30⟩) ∧
    decodeLe 0 0x1C000080 = some (.leAnd 0 ⟨0, 0x80⟩) ∧ decodeLe 0 0x83000014 = some (.leLdw 0 ⟨3, 20⟩) ∧
    decodeLe 0 0x5F00000C = some (.leTon 0 ⟨3, 12⟩) ∧ decodeLe 0 0x20000081 = some (.leAndn 0 ⟨0, 0x81⟩) ∧
    decodeLe 0 0x38000082 = some (.leAndBr 0 ⟨0, 0x82⟩) ∧ decodeLe 0 0x24000088 = some (.leOr 0 ⟨0, 0x88⟩) := by decide +kernel

theorem test_decode_words_8_to_14 :
    decodeLe 1 0x50000000 = some (.leClose 1) ∧ decodeLe 1 0x0D000200 = some (.leSt 1 ⟨1, 0x200⟩) ∧
    decodeLe 1 0x56000100 = some (.leEp 1 ⟨2, 0x100⟩) ∧ decodeLe 1 0x830F4240 = some (.leLdw 1 ⟨3, 1000000⟩) ∧
    decodeLe 1 0x6E001000 = some (.leCtu 1 ⟨2, 0x1000⟩) ∧ decodeLe 1 0x0D000201 = some (.leSt 1 ⟨1, 0x201⟩) ∧
    decodeLe 1 0xFC000000 = some (.leEnd 1) := by decide +kernel

theorem test_decode_refuses : decodeLe 0 0x7C000000 = none ∧ decodeLe 0 0x0C000200 = none ∧ decodeLe 0 0x80000021 = none ∧
    decodeLe 0 0x83000000 = some (.leLdw 0 ⟨3, 0⟩) ∧ decodeLe 0 0x80008000 = none ∧ decodeLe 0 0x80800001 = some (.leLdw 0 ⟨0, 0x800001⟩) := by
  decide +kernel

/-- The worst cases of each operand form meet the hypotheses of the round trip. -/
theorem wit_EngineRoundTrip : (Instr.leLd 0 ⟨3, 1⟩).le = some (1, 0, .bitB, ⟨3, 1⟩) ∧ LeForm.bitB.ok ⟨3, 1⟩ = true ∧ LeForm.bitD.ok ⟨2, 0x1FFFFF⟩ = true ∧
    LeForm.bitM.ok ⟨2, 0xFFFFFF⟩ = true ∧ LeForm.timer.ok ⟨3, 4095⟩ = true ∧ LeForm.record.ok ⟨2, 0x3FFF8⟩ = true ∧ LeForm.wordW.ok ⟨0, 0x7FFC⟩ = true ∧
    LeForm.wordD.ok ⟨1, 0x7FFC⟩ = true ∧ LeForm.target.ok ⟨3, 0x3FFFF⟩ = true ∧ LeForm.queue.ok ⟨3, 63⟩ = true ∧ LeForm.none.ok ⟨0, 0⟩ = true ∧
    decodeLe 0 (leWord 0x20 ⟨0, 0x7FFC⟩) = some (.leLdw 0 ⟨0, 0x7FFC⟩) := by decide +kernel

/-! ### Ill-formed commands are refused -/

/-- Each operand form refuses what lies just outside it. -/
theorem test_ill_formed_operands : LeForm.none.ok ⟨0, 1⟩ = false ∧ LeForm.none.ok ⟨3, 0⟩ = false ∧ LeForm.bitB.ok ⟨3, 2⟩ = false ∧
    LeForm.bitB.ok ⟨0, 0x40000⟩ = false ∧ LeForm.bitD.ok ⟨0, 0⟩ = false ∧ LeForm.bitD.ok ⟨3, 0⟩ = false ∧ LeForm.bitM.ok ⟨1, 0⟩ = false ∧
    LeForm.bitM.ok ⟨2, 0x200000⟩ = false ∧ LeForm.timer.ok ⟨3, 4096⟩ = false ∧ LeForm.timer.ok ⟨2, 0⟩ = false ∧ LeForm.record.ok ⟨2, 4⟩ = false ∧
    LeForm.record.ok ⟨2, 0x40000⟩ = false ∧ LeForm.wordW.ok ⟨0, 2⟩ = false ∧ LeForm.wordW.ok ⟨1, 0x8000⟩ = false ∧ LeForm.wordD.ok ⟨3, 0⟩ = false ∧
    LeForm.target.ok ⟨3, 0x40000⟩ = false ∧ LeForm.target.ok ⟨0, 0⟩ = false ∧ LeForm.queue.ok ⟨3, 64⟩ = false := by decide +kernel

theorem test_ill_formed_requests : (rq []).wf = true ∧ ({ rq [] with seq := 65536 } : Req).wf = false ∧ ({ rq [] with trailer := 2 ^ 32 } : Req).wf = false ∧
    ({ rq [] with flags := 256 } : Req).wf = false ∧ ({ rq [] with byte7 := 256 } : Req).wf = false ∧ ({ rq [] with tag := some (0, []) } : Req).wf = false ∧
    ({ rq [] with origin := .scp 256 } : Req).wf = false ∧ ({ rq [] with origin := .eth 0 0 0 4 0 } : Req).wf = false ∧
    ({ rq [] with origin := .pairPort 4 } : Req).wf = false ∧ ({ rq [] with origin := .partPort 256 } : Req).wf = false ∧
    (rq (List.replicate 4097 0)).wf = false := by decide +kernel

theorem test_ill_formed_frames : (⟨List.replicate 13 0, true, true⟩ : EthFrame).wf = false ∧ (⟨List.replicate 14 0, true, true⟩ : EthFrame).wf = true ∧
    (⟨0x800, false, true, false, false, false, 0, []⟩ : CanFrame).wf = false ∧ (⟨0x800, true, true, false, false, false, 0, []⟩ : CanFrame).wf = true ∧
    (⟨1, false, true, false, false, false, 15, List.replicate 65 0⟩ : CanFrame).wf = false := by decide +kernel

theorem test_ill_formed_instructions : RvInsn.wf (.lui 1 1) = false ∧ RvInsn.wf (.jal 1 1) = false ∧ RvInsn.wf (.jal 1 0x100000) = false ∧
    RvInsn.wf (.jalr 1 1 2048) = false ∧ RvInsn.wf (.branch .eq 1 1 1) = false ∧ RvInsn.wf (.load .d true 1 1 0) = false ∧
    RvInsn.wf (.store .w 1 1 2048) = false ∧ RvInsn.wf (.opImm .sll 1 1 64) = false ∧ RvInsn.wf (.opImm .sub 1 1 0) = false ∧
    RvInsn.wf (.opImmW .sll 1 1 32) = false ∧ RvInsn.wf (.opImmW .xor 1 1 0) = false ∧ RvInsn.wf (.opW .mulh 1 1 1) = false ∧
    RvInsn.wf (.fload true 1 1 2048) = false ∧ RvInsn.wf (.fop 2 0 1 1 1 1) = false ∧ RvInsn.wf (.fop 0x10 3 1 1 1 1) = false ∧
    RvInsn.wf (.fopX 0x50 3 1 1 1) = false ∧ RvInsn.wf (.fopF 0x78 1 1 1) = false ∧ PairStep.wf (.insn (.lui 1 1) true) = false := by
  decide +kernel

theorem test_ill_formed_commands (c : BoardCyc) (h : c.addr = 2 ^ 24) :
    (Instr.leTon 0 ⟨2, 0⟩).wf = false ∧ (Instr.describe { rq [] with seq := 65536 }).wf = false ∧ (Instr.rackInbound c true).wf = false ∧
    (Instr.registerWrite 0 (2 ^ 40) 0).wf = false ∧ (Instr.absentUnitAccess 0 (2 ^ 40) true).wf = false ∧
    (Instr.pairInstruction 0 (.lui 1 1) ⟨true, [], []⟩).wf = false := by
  refine ⟨by decide +kernel, by decide +kernel, ?_, by decide +kernel, by decide +kernel, by decide +kernel⟩
  simp [Instr.wf, Instr.le, Instr.req, h]

/-- The last lane of a comparator group, the first beyond it; the last symbol and cache line, and the first beyond. -/
theorem test_ill_formed_reports : ((List.range 7).map cmpLanes).sum = 248 ∧ (Instr.pairMismatch 0 2 7 0 0).wf = true ∧ (Instr.pairMismatch 0 2 8 0 0).wf = false ∧
    (⟨0, 0, [74], none⟩ : LineErr).wf = true ∧ (⟨0, 0, [75], none⟩ : LineErr).wf = false ∧
    (⟨[], [(0, 511)]⟩ : PairReads).wf = true ∧ (⟨[], [(0, 512)]⟩ : PairReads).wf = false ∧ (Instr.pairInstruction 0 .fence ⟨true, [], [(0, 512)]⟩).wf = false ∧
    (Instr.scrubPass 0 [⟨0, 0, [75], none⟩]).wf = false ∧ (Instr.memUncorr 0 0 ⟨[75], none, none⟩).wf = false := by decide +kernel

/-! ### Worked examples and values of the manual -/

/-- The windows of the example of R64 on P3, in macroticks, and as the integrator moved them. -/
def gapSched (first last : Nat) : Sched :=
  { Sched.none with
    tgMt := 4000
    parts := [⟨16, 64, 0x3F, 2, 0⟩]
    tasks := [⟨0, 0, 0, 3, 0, 0, 0, 0, 0, 0, 0⟩]
    windows := [⟨first, 1240 - first, 0, 3⟩, ⟨1244, 1200, 0, 3⟩, ⟨2448, last - 2448, 0, 3⟩] }

theorem test_gap_example : (gapSched 40 3992).gap 3 = some 48 ∧ gapsFail (gapSched 40 3992) = none ∧ (gapSched 4 3996).gap 3 = some 8 ∧
    gapsFail (gapSched 4 3996) = some ⟨0x12, 6, 0, 3⟩ := by decide +kernel

/-- Window 17 of the worked encoding of R98. -/
theorem test_window_encoding :
    (parseSched (image [(0x1A, [1]), (0x28, [64]), (64, [0x1C, 5, 0, 0, 0xF0, 0, 0, 0, 5, 0, 3, 0, 0, 0, 0, 0])]) 0).windows = [⟨1308, 240, 5, 3⟩] := by
  decide +kernel

/-- SHA-256 of FIPS 180-4 (the example "abc") and of a message of two blocks; SHA-512 of "abc". -/
theorem test_sha2 : beNat (sha256 [0x61, 0x62, 0x63]) = 0xba7816bf8f01cfea414140de5dae2223b00361a396177a9cb410ff61f20015ad ∧
    beNat (sha256 ("abcdbcdecdefdefgefghfghighijhijkijkljklmklmnlmnomnopnopq".toList.map fun c => BitVec.ofNat 8 c.toNat)) =
      0x248d6a61d20638b8e5c026930c3e6039a33ce45964ff2167f6ecedd419db06c1 ∧
    beNat (sha512 [0x61, 0x62, 0x63]) =
      0xddaf35a193617abacc417349ae20413112e6fa4e89a97ea20a9eeee64b55d39a2192992a274fc1a836ba3c23a3feebbd454d4423643ce80e2a9ac94fa54ca49f := by
  decide +kernel

/-- Test case 2 of RFC 4231: HMAC-SHA-256 under the key "Jefe". -/
theorem test_hmac : beNat (hmac [0x4a, 0x65, 0x66, 0x65] ("what do ya want for nothing?".toList.map fun c => BitVec.ofNat 8 c.toNat)) =
    0x5bdcc146bf60754e6a042426089575c75a003f089d2739839dec58b964ec3843 := by decide +kernel

/-- Test 3 of RFC 8032 7.1, and the same with another message. -/
theorem test_ed25519 :
    let key := beBytes 32 0xfc51cd8e6218a1a38da47ed00230f0580816ed13ba3303ac5deb911548908025
    let sig := beBytes 64 0x6291d657deec24024827e69c3abe01a30ce548a284743a445e3680d7db5ac3ac18ff9b538d16f290ae67f760984dc6594a7c15e9716ed28dc027beceea1ec40a
    ed25519 key [0xaf, 0x82] sig = true ∧ ed25519 key [0xaf, 0x83] sig = false := by decide +kernel

/-- CRC-32C of the nine digits, and the trailer that a schedule image of 128 zero bytes would have. -/
theorem test_crc32c : crc32c ("123456789".toList.map fun c => BitVec.ofNat 8 c.toNat) = 0xE3069283 := by decide +kernel

/-- The first token of a bucket with PERIOD_MS = 250 that empties at 0.3 ms comes at 250.3 ms (the example of R477). -/
theorem test_token_refill : refillAt 240000 250 = 240000 + 200000000 ∧
    (let s := { at_ .run with clk := { (at_ .run).clk with frcBase := 0, t := 240000 } }
     ((((s.takeToken strayCat).takeToken strayCat).takeToken strayCat).takeToken strayCat).hasToken strayCat = false ∧
     (((s.takeToken strayCat).takeToken strayCat).bucket strayCat).refill = some 200240000) := by decide +kernel

/-- A step runs the command in front, and an idle module lets one microtick pass. -/
theorem test_step : (State.reset.Canonical) ∧ (∃ t, step { State.reset with pending := [.leNop 0] } = .next t ∧ t.pending = []) ∧
    (∃ t, step State.reset = .next t ∧ t.clk.t = State.reset.clk.t + 1) := by
  refine ⟨by unfold State.Canonical; decide +kernel, ⟨_, rfl, by decide +kernel⟩, ⟨_, rfl, by decide +kernel⟩⟩

end Sys2Proof.Tests
end

section
/-!
SUPPORT. What no part of the model takes back. `Follows s t`: `t` is the state some part of the model makes of `s`. Every function from state
to state, and every outcome that carries one, has here its one lemma, in the model's order; the commands and the step follow from them.
-/
namespace Sys2Proof.Machine
open Sys2Proof.Claims
set_option Elab.async false

/-- What every part of the model keeps of a state: the clock is not turned back, the variant and the commands waiting stay, what has left the
module stays, and canonical memory and registers stay canonical. -/
structure Follows (s t : State) : Prop where
  keeps : Keeps s t
  pending : t.pending = s.pending
  canonical : s.Canonical → t.Canonical

/-- Every state that an engine's outcome holds follows from `s₀`. -/
def LeOut.From (s₀ : State) : LeOut → Prop
  | .next s | .goto s _ | .trap s _ _ | .memErr s _ _ | .done s => Follows s₀ s

/-- Every state that a command's own answer holds follows from `s₀`. -/
def Ans.From (s₀ : State) : Ans → Prop
  | .refuse _ _ _ _ => True
  | .reply _ s | .fault s | .accepted _ s | .later s => Follows s₀ s

/-- The state that a pair's access to memory leaves follows from `s₀`. -/
def MemOut.From (s₀ : State) : MemOut → Prop
  | .ok s _ | .stop s => Follows s₀ s

variable {s₀ s : State}

theorem LeOut.From.next {r : LeOut} (h : LeOut.From s₀ r) {u : State} (e : r = .next u) : Follows s₀ u := by
  subst e; exact h

theorem MemOut.From.ok {m : MemOut} (h : MemOut.From s₀ m) {u : State} {v : Nat} (e : m = .ok u v) : Follows s₀ u := by
  subst e; exact h

theorem MemOut.From.stop {m : MemOut} (h : MemOut.From s₀ m) {u : State} (e : m = .stop u) : Follows s₀ u := by
  subst e; exact h

namespace Follows

/-! ### The rules -/

theorem refl (s : State) : Follows s s :=
  ⟨⟨Nat.le_refl _, rfl, List.prefix_rfl, fun _ _ h _ => h⟩, rfl, id⟩

theorem trans {t u : State} (h : Follows s t) (k : Follows t u) : Follows s u := by
  obtain ⟨⟨ht, hv, hp, ho⟩, hq, hc⟩ := h
  obtain ⟨⟨kt, kv, kp, ko⟩, kq, kc⟩ := k
  exact ⟨⟨ht.trans kt, kv.trans hv, hp.trans kp, fun n e he hi => ko n e (ho n e he hi) hi⟩, kq.trans hq, kc ∘ hc⟩

/-- A change that leaves the record of what has left the module and the commands waiting as they are. -/
theorem change {t : State} (h : Follows s₀ s) (hv : t.ident.variant = s.ident.variant) (ht : s.clk.t ≤ t.clk.t)
    (ho : t.out = s.out) (hp : t.pending = s.pending) (hc : s.Canonical → t.Canonical) : Follows s₀ t :=
  h.trans ⟨⟨ht, hv, ho ▸ List.prefix_rfl, fun _ _ e _ => ho ▸ e⟩, hp, hc⟩

/-- A change of the memory alone, and of what `Follows` does not speak of. -/
theorem withMem (h : Follows s₀ s) {mem : Tbl Byte} {poison : List Nat} {pairs : Tbl Pair} {vdx : Vdx} {hx : Hx} {hxm : Hxm} {queues : Tbl QSt}
    {engines : Tbl Engine} {cyc : Cyc} {cfg : Cfg} {prog : Progs} {tvl : Tvl} {gh : Gh} {tmb : Tmb} {sup : Sup} {rcd : Rec} {pwr : Pwr}
    {sio : Sio} {eth : Eth} {ixs : Tbl IxsCon} {can : Tbl Can} {lrb : Lrb} {freeCtr : Nat} (hm : Memory.wf s.mem → Memory.wf mem) :
    Follows s₀ ⟨s.ident, s.clk, s.regs, mem, poison, pairs, vdx, hx, hxm, queues, engines, cyc, cfg, prog, tvl, gh, tmb, sup, rcd, pwr, sio,
      eth, ixs, can, lrb, s.out, freeCtr, s.pending⟩ :=
  h.change rfl (Nat.le_refl _) rfl rfl (And.imp_left hm)

/-- A change of the clock's counters, which leaves the instant, and of what `Follows` does not speak of. -/
theorem withClk (h : Follows s₀ s) {frcOn : Bool} {frcBase : Nat} {opOn : Bool} {opAcc opSince : Nat} {poison : List Nat} {pairs : Tbl Pair}
    {vdx : Vdx} {hx : Hx} {hxm : Hxm} {queues : Tbl QSt} {engines : Tbl Engine} {cyc : Cyc} {cfg : Cfg} {prog : Progs} {tvl : Tvl} {gh : Gh}
    {tmb : Tmb} {sup : Sup} {rcd : Rec} {pwr : Pwr} {sio : Sio} {eth : Eth} {ixs : Tbl IxsCon} {can : Tbl Can} {lrb : Lrb} {freeCtr : Nat} :
    Follows s₀ ⟨s.ident, ⟨s.clk.t, frcOn, frcBase, opOn, opAcc, opSince⟩, s.regs, s.mem, poison, pairs, vdx, hx, hxm, queues, engines, cyc, cfg,
      prog, tvl, gh, tmb, sup, rcd, pwr, sio, eth, ixs, can, lrb, s.out, freeCtr, s.pending⟩ :=
  h.change rfl (Nat.le_refl _) rfl rfl id

/-- A change of what `Follows` does not speak of. -/
theorem other (h : Follows s₀ s) {poison : List Nat} {pairs : Tbl Pair} {vdx : Vdx} {hx : Hx} {hxm : Hxm} {queues : Tbl QSt}
    {engines : Tbl Engine} {cyc : Cyc} {cfg : Cfg} {prog : Progs} {tvl : Tvl} {gh : Gh} {tmb : Tmb} {sup : Sup} {rcd : Rec} {pwr : Pwr}
    {sio : Sio} {eth : Eth} {ixs : Tbl IxsCon} {can : Tbl Can} {lrb : Lrb} {freeCtr : Nat} :
    Follows s₀ ⟨s.ident, s.clk, s.regs, s.mem, poison, pairs, vdx, hx, hxm, queues, engines, cyc, cfg, prog, tvl, gh, tmb, sup, rcd, pwr, sio,
      eth, ixs, can, lrb, s.out, freeCtr, s.pending⟩ :=
  h.withMem id

theorem either {c : Prop} {_ : Decidable c} {t u : State} (ht : Follows s₀ t) (hu : Follows s₀ u) : Follows s₀ (if c then t else u) := by
  split <;> assumption

theorem fold {α : Type} {f : State → α → State} {l : List α} (hf : ∀ u a, Follows s₀ u → Follows s₀ (f u a)) (h : Follows s₀ s) :
    Follows s₀ (l.foldl f s) :=
  foldl_keeps (Follows s₀) f hf l s h

/-- The state of a pair that a function answers. -/
theorem ofFst {β : Type} {c : State × β} {t : State} {b : β} (h : Follows s₀ c.1) (e : c = (t, b)) : Follows s₀ t := by
  subst e; exact h

/-- A fold that carries something beside the state. -/
theorem foldFst {α β : Type} {f : State × β → α → State × β} {l : List α} {c : State × β}
    (hf : ∀ c a, Follows s₀ c.1 → Follows s₀ (f c a).1) (h : Follows s₀ c.1) : Follows s₀ (l.foldl f c).1 :=
  foldl_keeps (fun c => Follows s₀ c.1) f hf l c h


/-! ### Ops -/

theorem setReg {off v} (h : Follows s₀ s) : Follows s₀ (s.setReg off v) :=
  h.change rfl (Nat.le_refl _) rfl rfl fun k => k.setReg off v
theorem set {f v} (h : Follows s₀ s) : Follows s₀ (s.set f v) := h.setReg
theorem incBy {f k} (h : Follows s₀ s) : Follows s₀ (s.incBy f k) := h.set
theorem inc {f} (h : Follows s₀ s) : Follows s₀ (s.inc f) := h.incBy
theorem wr8 {a v} (h : Follows s₀ s) : Follows s₀ (s.wr8 a v) :=
  h.change rfl (Nat.le_refl _) rfl rfl fun k => k.wr8 a v
theorem wrBytes {a l} (h : Follows s₀ s) : Follows s₀ (s.wrBytes a l) :=
  h.change rfl (Nat.le_refl _) rfl rfl fun k => k.wrBytes a l
theorem wrLe {a n v} (h : Follows s₀ s) : Follows s₀ (s.wrLe a n v) := h.wrBytes
theorem unpoison {a n} (h : Follows s₀ s) : Follows s₀ (s.unpoison a n) := h.other
theorem poisonLine {a} (h : Follows s₀ s) : Follows s₀ (s.poisonLine a) := either h h.other
theorem setPair {p v} (h : Follows s₀ s) : Follows s₀ (s.setPair p v) := h.other
theorem modPair {p f} (h : Follows s₀ s) : Follows s₀ (s.modPair p f) := h.setPair

theorem unreserve {but a n} (h : Follows s₀ s) : Follows s₀ (s.unreserve but a n) := by
  unfold State.unreserve
  refine .fold (fun _ _ h1 => ?_) h
  split
  exacts [.either h1.modPair h1, h1]

theorem setTask {t v} (h : Follows s₀ s) : Follows s₀ (s.setTask t v) := h.other
theorem setUnit {u v} (h : Follows s₀ s) : Follows s₀ (s.setUnit u v) := h.other
theorem setEng {e v} (h : Follows s₀ s) : Follows s₀ (s.setEng e v) := h.other
theorem setGrp {g v} (h : Follows s₀ s) : Follows s₀ (s.setGrp g v) := h.other
theorem setQueue {b v} (h : Follows s₀ s) : Follows s₀ (s.setQueue b v) := h.other
theorem free (h : Follows s₀ s) : Follows s₀ s.free := h.other
theorem report {code src words} (h : Follows s₀ s) : Follows s₀ (s.report code src words) := h.other

/-- What leaves the module comes after what has left it. -/
theorem emit {i unit kind data} (h : Follows s₀ s) : Follows s₀ (s.emit i unit kind data) := by
  refine h.trans ⟨⟨Nat.le_refl _, rfl, ?_, fun n e he _ => ?_⟩, rfl, id⟩
  · simp [State.emit]
  · exact (List.getElem?_append_left (List.getElem?_eq_some_iff.mp he).1).trans he

theorem setSource {k v} (h : Follows s₀ s) : Follows s₀ (s.setSource k v) := h.other
theorem transitFail {src port stamp} (h : Follows s₀ s) : Follows s₀ (s.transitFail src port stamp) := h.report
theorem offerItem {kind id it} (h : Follows s₀ s) : Follows s₀ (s.offerItem kind id it) := h.setSource
theorem offer {kind id data} (h : Follows s₀ s) : Follows s₀ (s.offer kind id data) := h.offerItem
theorem holdSource {kind id} (h : Follows s₀ s) : Follows s₀ (s.holdSource kind id) := h.setSource
theorem dropSource {kind id} (h : Follows s₀ s) : Follows s₀ (s.dropSource kind id) := h.setSource

theorem presNew {kind id} (h : Follows s₀ s) : Follows s₀ (s.presNew kind id) := by
  unfold State.presNew
  split
  exacts [.either (.either h.set.set h.set) h, h]

theorem zeroRegs {p} (h : Follows s₀ s) : Follows s₀ (s.zeroRegs p) :=
  h.change rfl (Nat.le_refl _) rfl rfl fun k => k.zeroRegs p
theorem setStamp {n st} (h : Follows s₀ s) : Follows s₀ (s.setStamp n st) := h.set.set

theorem arrive {n} (h : Follows s₀ s) : Follows s₀ (s.arrive n) := by
  unfold State.arrive
  extract_lets u k v w k1
  have hu : Follows s₀ u := h.setStamp.inc
  have hv : Follows s₀ v := hu.other
  have hw : Follows s₀ w := hv.set
  split
  exacts [.either hv hv.set, hv.set, .either hv hw.other]

theorem raise {n} (h : Follows s₀ s) : Follows s₀ (s.raise n) := by
  unfold State.raise
  split
  · exact h
  · extract_lets u v k
    have hu : Follows s₀ u := by
      unfold u
      split
      exacts [h.set, h]
    have hv : Follows s₀ v := hu.arrive.set
    exact hv.other

theorem lineFalls {n} (h : Follows s₀ s) : Follows s₀ (s.lineFalls n) :=
  either h (.either (either h.set.set h.set).set h.set)
theorem dropPulses (h : Follows s₀ s) : Follows s₀ s.dropPulses := fold (fun _ _ h2 => h2.lineFalls) h.other
theorem setDout {m v} (h : Follows s₀ s) : Follows s₀ (s.setDout m v) := h.other
theorem doView {m} (h : Follows s₀ s) : Follows s₀ (s.doView m) := h.setDout.set.set

theorem runSwitches (h : Follows s₀ s) : Follows s₀ s.runSwitches := by
  unfold State.runSwitches
  refine .fold (fun _ _ h1 => ?_) h
  extract_lets d
  split
  exacts [.either h1.setDout.doView h1, h1]

theorem countCycles {dt} (h : Follows s₀ s) : Follows s₀ (s.countCycles dt) :=
  either h (.fold (fun _ _ h1 => .either h1.modPair h1) h)

theorem advance {t} (h : Follows s₀ s) : Follows s₀ (s.advance t) := by
  obtain ⟨⟨_, _, _, _, _, e⟩, ht⟩ := s.advance_moves t
  have same : (s.advance t).ident = s.ident ∧ (s.advance t).out = s.out ∧ (s.advance t).pending = s.pending := by
    rw [e]
    exact ⟨rfl, rfl, rfl⟩
  exact h.change (congrArg _ same.1) (by omega) same.2.1 same.2.2 fun k => k.advance t

theorem wait {dt} (h : Follows s₀ s) : Follows s₀ (s.wait dt) := h.advance
theorem absentAccess {off} (h : Follows s₀ s) : Follows s₀ (s.absentAccess off) := h.report
theorem noteCycTod (h : Follows s₀ s) : Follows s₀ s.noteCycTod := h.other
theorem execStart {n} (h : Follows s₀ s) : Follows s₀ (s.execStart n) := h.setTask

theorem execStop {n} (h : Follows s₀ s) : Follows s₀ (s.execStop n) := by
  unfold State.execStop
  split
  exacts [h.setTask, h]

theorem execBegin {u} (h : Follows s₀ s) : Follows s₀ (s.execBegin u) := by
  unfold State.execBegin
  split
  exacts [.either h h.execStart.setUnit, h]

theorem haltPair {p} (h : Follows s₀ s) : Follows s₀ (s.haltPair p) := by
  unfold State.haltPair
  extract_lets q u k
  have hu : Follows s₀ u := by
    unfold u
    split
    exacts [h.execStop, h]
  exact .either h hu.modPair.setUnit

theorem asInsn {p f} (h : Follows s₀ s) (hf : ∀ u, Follows s₀ u → Follows s₀ (f u)) : Follows s₀ (s.asInsn p f) :=
  either (hf _ h) (.either h.haltPair (hf _ h.execBegin))
theorem launchDrop {x1 l} (h : Follows s₀ s) : Follows s₀ (s.launchDrop x1 l) :=
  (either h.inc h.inc).raise.report

/-! ### Sio -/

theorem setDi {n v} (h : Follows s₀ s) : Follows s₀ (s.setDi n v) := h.other
theorem setTp {k v} (h : Follows s₀ s) : Follows s₀ (s.setTp k v) := h.other
theorem diJudge {n} (h : Follows s₀ s) : Follows s₀ (s.diJudge n) := h.set.set
theorem diFault {n cause} (h : Follows s₀ s) : Follows s₀ (s.diFault n cause) := h.set.diJudge.raise.report
theorem diCombine {n} (h : Follows s₀ s) : Follows s₀ (s.diCombine n) := h.setDi.set.diJudge
theorem diOffer {n} (h : Follows s₀ s) : Follows s₀ (s.diOffer n) := either h.offerItem h

theorem diPulseSample {n band} (h : Follows s₀ s) : Follows s₀ (s.diPulseSample n band) := by
  unfold State.diPulseSample
  extract_lets k d
  split
  exacts [.either h.setDi h, h]

theorem diUnblanked {n band} (h : Follows s₀ s) : Follows s₀ (s.diUnblanked n band) :=
  either h.setDi (.either (.either h.setDi h.setDi.inc.diFault) (.either h.setDi.set h.setDi))
theorem diSample {n v} (h : Follows s₀ s) : Follows s₀ (Machine.diSample n v s) :=
  either (either h.advance.setDi.set.diPulseSample h.advance.setDi.set.diUnblanked).diCombine.diOffer h
theorem yDelivers (h : Follows s₀ s) : Follows s₀ s.yDelivers :=
  either h.other (.fold (fun _ _ h2 => h2.diCombine) h.other.set)
theorem yState {n v brk} (h : Follows s₀ s) : Follows s₀ (Machine.yState n v brk s) :=
  either (either h.yDelivers.set.setDi.inc.diFault h.yDelivers.set.setDi).diCombine h

theorem discrepancy {n} (h : Follows s₀ s) : Follows s₀ (Machine.discrepancy n s) := by
  unfold Machine.discrepancy
  split
  exacts [.either h.advance.setDi.inc.diFault h, h]

theorem yLost {selfTest} (h : Follows s₀ s) : Follows s₀ (Machine.yLost selfTest s) :=
  either (.report (.raise (.fold (fun _ _ h4 => .either h4.setDi.diFault h4.setDi) (either h h.advance).set.other))) h
theorem testPulse {k} (h : Follows s₀ s) : Follows s₀ (Machine.testPulse k s) :=
  either (.fold (fun _ _ h3 => .either h3.setDi h3) h.advance.setTp) h
theorem tpFails {k} (h : Follows s₀ s) : Follows s₀ (s.tpFails k) :=
  either h.setTp (.fold (fun _ _ h3 => .either h3.diFault h3) h.setTp.set.raise)
theorem tpPasses {k} (h : Follows s₀ s) : Follows s₀ (s.tpPasses k) :=
  either (.fold (fun _ _ h2 => h2.diJudge) h.setTp.set) h.setTp
theorem crossCheck {n y} (h : Follows s₀ s) : Follows s₀ (s.crossCheck n y) :=
  either (.either h h.setDi.diFault) (.either h h.setDi.diJudge)

theorem testPulseEnd {k fell rose y} (h : Follows s₀ s) : Follows s₀ (Machine.testPulseEnd k fell rose y s) := by
  unfold Machine.testPulseEnd
  split
  · exact .either (.either (.fold (fun _ _ h4 => .either h4.crossCheck h4) (.either h.advance.setTp.tpPasses h.advance.setTp.tpFails))
      h.advance.setTp) h
  · exact h

theorem tpOvercurrent {k} (h : Follows s₀ s) : Follows s₀ (Machine.tpOvercurrent k s) :=
  either h.setTp.tpFails h
theorem eachDo {f} (h : Follows s₀ s) (hf : ∀ u x1, Follows s₀ u → Follows s₀ (f u x1)) : Follows s₀ (s.eachDo f) :=
  fold (fun _ _ h1 => (hf _ _ h1)) h
theorem doOff {m} (h : Follows s₀ s) : Follows s₀ (s.doOff m) := h.set.setDout.doView
theorem doHold {m} (h : Follows s₀ s) : Follows s₀ (s.doHold m) := either h.set.setDout h
theorem doGroupOff {k} (h : Follows s₀ s) : Follows s₀ (s.doGroupOff k) :=
  either (h.eachDo fun _ _ h1 => .either (.either h1.doOff h1.doHold) h1) h
theorem doSafetyOff (h : Follows s₀ s) : Follows s₀ s.doSafetyOff :=
  either (h.eachDo fun _ _ h1 => .either (.either h1.doOff h1.doHold) h1) h
theorem doAllOff (h : Follows s₀ s) : Follows s₀ s.doAllOff := either (h.eachDo fun _ _ h1 => h1.doOff) h
theorem doStagger {sel} (h : Follows s₀ s) : Follows s₀ (s.doStagger sel) :=
  foldFst (fun _ _ h1 => h1.setDout) h
theorem dropTest {m} (h : Follows s₀ s) : Follows s₀ (s.dropTest m) := either h.setDout.doView h
theorem doOutGo {g held} (h : Follows s₀ s) : Follows s₀ (s.doOutGo g held) :=
  either (.doStagger (.fold (fun _ _ h3 => h3.set) (h.eachDo fun _ _ h1 => h1.dropTest))) h
theorem fsOpen {m} (h : Follows s₀ s) : Follows s₀ (s.fsOpen m) :=
  either (.report (.raise (h.set.eachDo fun _ _ h1 => h1.doView))) h
theorem doFault {m code} (h : Follows s₀ s) : Follows s₀ (s.doFault m code) :=
  either h.setDout.inc.doView.raise.report.fsOpen h.setDout.inc.doView.raise.report
theorem doOvercurrent {m} (h : Follows s₀ s) : Follows s₀ (Machine.doOvercurrent m s) := either h.doFault h
theorem doReadbackFault {m rb} (h : Follows s₀ s) : Follows s₀ (Machine.doReadbackFault m rb s) :=
  either (.either (.either h.set.doFault h.set) (.either h.set.doFault h.set)) h
theorem doRetry {m} (h : Follows s₀ s) : Follows s₀ (Machine.doRetry m s) := either h.advance.setDout.doView h
theorem outputTest {m} (h : Follows s₀ s) : Follows s₀ (Machine.outputTest m s) :=
  either h.advance.setDout.doView h

theorem outputTestEnd {m rb} (h : Follows s₀ s) : Follows s₀ (Machine.outputTestEnd m rb s) := by
  unfold Machine.outputTestEnd
  split
  exacts [.either (.either h.advance.set.setDout.doView h.advance.set.setDout.doFault) h, h]

theorem fltClr {m} (h : Follows s₀ s) : Follows s₀ (Machine.fltClr m s) :=
  either h.setDout.doView h.absentAccess

theorem sioProgramStart (h : Follows s₀ s) : Follows s₀ s.sioProgramStart := by
  unfold State.sioProgramStart
  split
  · extract_lets u high
    have hu : Follows s₀ u := h.eachDo fun _ _ h1 => h1.setDout
    exact (either hu hu.set).eachDo fun _ _ h1 => h1.doView
  · exact h

theorem fsLow {mv10} (h : Follows s₀ s) : Follows s₀ (Machine.fsLow mv10 s) :=
  either (.raise (h.set.set.eachDo fun _ _ h1 => h1.doView)) h
theorem fsRestored {mv10} (h : Follows s₀ s) : Follows s₀ (Machine.fsRestored mv10 s) :=
  either (.raise (h.set.set.doStagger.eachDo fun _ _ h2 => h2.doView)) h
theorem sioFsBudget {ma} (h : Follows s₀ s) : Follows s₀ (Machine.sioFsBudget ma s) :=
  either h.set.raise.report h
theorem sioCntclr (h : Follows s₀ s) : Follows s₀ (Machine.sioCntclr s) :=
  either (eachDo (.fold (fun _ _ h1 => h1.set.set) h) fun _ _ h3 => h3.set) h.absentAccess

/-! ### Tvl -/

theorem setLease {k v} (h : Follows s₀ s) : Follows s₀ (s.setLease k v) := h.other
theorem setPeer {q v} (h : Follows s₀ s) : Follows s₀ (s.setPeer q v) := h.other
theorem tlOut {typ b} (h : Follows s₀ s) : Follows s₀ (s.tlOut typ b) :=
  fold (fun _ _ h1 => .either h1.emit h1) h
theorem tlGroupFrame {typ g abstain payload} (h : Follows s₀ s) : Follows s₀ (s.tlGroupFrame typ g abstain payload) :=
  h.tlOut
theorem tlFlush (h : Follows s₀ s) : Follows s₀ s.tlFlush := either h (.fold (fun _ _ h1 => h1.tlOut) h.other)
theorem tlSeq {typ group now payload} (h : Follows s₀ s) : Follows s₀ (s.tlSeq typ group now payload) :=
  either h.other.tlFlush.tlOut h.other.other
theorem ctrl {what args} (h : Follows s₀ s) : Follows s₀ (s.ctrl what args) := h.tlSeq
theorem ctrlNow {what args} (h : Follows s₀ s) : Follows s₀ (s.ctrlNow what args) := h.tlSeq
theorem setMembers {m} (h : Follows s₀ s) : Follows s₀ (s.setMembers m) := either h h.set.raise.report
theorem addMember {q} (h : Follows s₀ s) : Follows s₀ (s.addMember q) := h.setPeer.setMembers
theorem removeMember {q} (h : Follows s₀ s) : Follows s₀ (s.removeMember q) := either h.setPeer.setMembers h
theorem expel {q} (h : Follows s₀ s) : Follows s₀ (s.expel q) := either h.setPeer.removeMember h
theorem linkFalls {p} (h : Follows s₀ s) : Follows s₀ (s.linkFalls p) :=
  either (either h.set.set.inc h.set.set.inc.setPeer).raise.other h
theorem linkDown {p} (h : Follows s₀ s) : Follows s₀ (Machine.linkDown p s) := h.linkFalls
theorem linkUp {p} (h : Follows s₀ s) : Follows s₀ (Machine.linkUp p s) := either h.set.set.raise.other h
theorem tlViolation {p} (h : Follows s₀ s) : Follows s₀ (s.tlViolation p) := h.inc
theorem tlViolationRec {p typ} (h : Follows s₀ s) : Follows s₀ (s.tlViolationRec p typ) :=
  h.tlViolation.raise.report
theorem tlNote {p f} (h : Follows s₀ s) : Follows s₀ (s.tlNote p f) :=
  either (.either h.setPeer.set.addMember h.setPeer.set) h.setPeer.set.removeMember

theorem tlTake {p f typ} (h : Follows s₀ s) : Follows s₀ (s.tlTake p f typ).1 := by
  unfold State.tlTake
  split
  · exact h
  · split
    · exact .either h.inc.transitFail.other.linkFalls h.inc.transitFail.other
    · extract_lets k u
      have hu : Follows s₀ u := h.other
      split
      · exact hu.tlViolationRec
      · split
        · exact hu.set.set.linkFalls
        · split
          · exact hu.tlViolation
          · split
            · exact hu
            · split
              exacts [.either hu hu.tlViolation, hu.tlNote]

theorem tlClear {g} (h : Follows s₀ s) : Follows s₀ (s.tlClear g) := other (.fold (fun _ _ h1 => h1.setPeer) h)
theorem rawFrameRx {p f} (h : Follows s₀ s) : Follows s₀ (Machine.rawFrameRx p f s) :=
  either h.tlTake.other h.tlTake
theorem digSend {g} (h : Follows s₀ s) : Follows s₀ (Machine.digSend g s) :=
  either (either h.advance h).other.tlGroupFrame h
theorem digFrameRx {p f} (h : Follows s₀ s) : Follows s₀ (Machine.digFrameRx p f s) :=
  either h.tlTake.other h.tlTake
theorem leaseClear {k} (h : Follows s₀ s) : Follows s₀ (s.leaseClear k) := h.setLease.set.set

theorem release {mask} (h : Follows s₀ s) : Follows s₀ (s.release mask) := by
  unfold State.release
  extract_lets ks u v m
  have hu : Follows s₀ u := fold (fun _ _ h1 => h1.leaseClear.set.doGroupOff) h
  have hv : Follows s₀ v := fold (fun _ _ h1 => h1.setLease) hu
  exact .either h (either hv hv.tlSeq).raise

theorem releaseAll (h : Follows s₀ s) : Follows s₀ s.releaseAll := h.release
theorem exclude {port} (h : Follows s₀ s) : Follows s₀ (s.exclude port) :=
  other (.set (.fold (fun _ _ h3 => h3.setGrp) (.either h.releaseAll.set.setMembers h.releaseAll.set)))
theorem syncFails (h : Follows s₀ s) : Follows s₀ s.syncFails := h.exclude.raise.report

theorem linkRule {g p} (h : Follows s₀ s) : Follows s₀ (s.linkRule g p) := by
  unfold State.linkRule
  split
  · exact h
  · extract_lets k u far third
    have hu : Follows s₀ u := h.other
    split
    · exact hu
    · split
      exacts [.either (.either hu.exclude.report hu.expel) hu, hu]

theorem missRule {g q} (h : Follows s₀ s) : Follows s₀ (s.missRule g q) :=
  either h (.either (.either h.setPeer.setPeer.expel h.setPeer) h.setPeer)

theorem agreementFix {g} (h : Follows s₀ s) : Follows s₀ (Machine.agreementFix g s) := by
  unfold Machine.agreementFix
  split
  · split
    · extract_lets u peers mark mask r all ready k v w x y
      have hu : Follows s₀ u := h.advance
      have hv : Follows s₀ v := hu.setGrp
      have hw : Follows s₀ w := hv.incBy
      have hx : Follows s₀ x := either hw.inc.raise (.either hw.inc.raise hw)
      have hy : Follows s₀ y := fold (fun _ _ h1 => h1.linkRule) hx
      exact .either (.either (.fold (fun _ _ h1 => h1.missRule) hy) hy) hx
    · exact h
  · exact h

theorem outFrameRx {p f} (h : Follows s₀ s) : Follows s₀ (Machine.outFrameRx p f s) :=
  either h.tlTake.other h.tlTake

theorem voteOutcome {k v e vs} (h : Follows s₀ s) : Follows s₀ (s.voteOutcome k v e vs) := by
  unfold State.voteOutcome
  split
  exacts [h, h.inc.raise.report, h.inc.raise, .either (.either h h.report.raise.exclude) h.inc.report.raise]

theorem voteGroup {g k vs} (h : Follows s₀ s) : Follows s₀ (s.voteGroup g k vs).1 := h.setGrp.voteOutcome
theorem adopt {k e} (h : Follows s₀ s) : Follows s₀ (s.adopt k e) := either h.setLease h.setLease.set

theorem renewMine {g k} (h : Follows s₀ s) : Follows s₀ (s.renewMine g k) := by
  unfold State.renewMine
  extract_lets l signers u v
  have hu : Follows s₀ u := by
    unfold u
    split
    exacts [either h h.adopt, fold (fun _ _ h1 => h1.tlViolationRec) h]
  have hv : Follows s₀ v := by
    unfold v
    split
    exacts [either hu.adopt hu, hu]
  exact hv.setLease

theorem recordReq {g k q e} (h : Follows s₀ s) : Follows s₀ (s.recordReq g k q e) := by
  unfold State.recordReq
  split
  exacts [.either h (.either h.tlViolationRec (.either h (.either h.setLease.set.set.other.setLease.ctrl h.setLease.set.set))), h]

theorem leaseVote {g k e} (h : Follows s₀ s) : Follows s₀ (s.leaseVote g k e) := by
  unfold State.leaseVote
  extract_lets has stray asked u v w
  have hu : Follows s₀ u := fold (fun _ _ h1 => h1.tlViolationRec) h
  have hv : Follows s₀ v := either hu.renewMine hu
  have hw : Follows s₀ w := either (fold (fun _ _ h1 => either h1 h1.recordReq) hv) hv
  exact either h hw.setLease

theorem voteAll {g} (h : Follows s₀ s) : Follows s₀ (s.voteAll g).1 :=
  foldFst (fun _ _ h1 => h1.voteGroup.leaseVote) h

theorem compareLimit {g ends} (h : Follows s₀ s) : Follows s₀ (s.compareLimit g ends) := by
  unfold State.compareLimit
  split
  · exact h
  · split
    · extract_lets n k u v w
      have hu : Follows s₀ u := h.other
      have hv : Follows s₀ v := fold (fun _ _ h1 => .either h1.modPair h1) hu
      have hw : Follows s₀ w := fold (fun _ _ h1 => .either h1.set h1) hv
      exact .either (.either hw.exclude hw) hu
    · exact h.other

theorem probation {g} (h : Follows s₀ s) : Follows s₀ (s.probation g) := either (.either h.syncFails h) h
theorem expelDissent {ends seen} (h : Follows s₀ s) : Follows s₀ (s.expelDissent ends seen) :=
  fold (fun _ _ h1 => .either h1.expel h1) h
theorem voteCompletes {g seen} (h : Follows s₀ s) : Follows s₀ (s.voteCompletes g seen) :=
  h.advance.setGrp.voteAll.other.expelDissent.compareLimit.probation
theorem tvlAgrcntClr (h : Follows s₀ s) : Follows s₀ (Machine.tvlAgrcntClr s) := h.set.set.set
theorem tvlVotecntClr (h : Follows s₀ s) : Follows s₀ (Machine.tvlVotecntClr s) := h.set.set.set
theorem tvlLinkcntClr {p} (h : Follows s₀ s) : Follows s₀ (Machine.tvlLinkcntClr p s) := h.set.set.set

/-! ### Lease -/

theorem claim {k} (h : Follows s₀ s) : Follows s₀ (Machine.claim k s) := by
  unfold Machine.claim
  split
  · extract_lets oi u need k1
    have hu : Follows s₀ u := either h h.advance
    exact .either hu.setLease.ctrlNow hu
  · exact h

theorem claimRx {p f k oi} (h : Follows s₀ s) : Follows s₀ (Machine.claimRx p f k oi s) :=
  either h.tlTake (.either h.tlTake.tlViolationRec (.either h.tlTake.setLease.set.set.setLease.ctrlNow h.tlTake.setLease))

theorem claimCsignRx {p f k oi} (h : Follows s₀ s) : Follows s₀ (Machine.claimCsignRx p f k oi s) := by
  unfold Machine.claimCsignRx
  split
  next t ok e =>
    have ht : Follows s₀ t := h.tlTake.ofFst e
    split
    · exact ht
    · dsimp only
      split
      exacts [either (either ht.setLease ht) (either ht ht.tlViolationRec), either ht ht.tlViolationRec]

theorem unbind {k} (h : Follows s₀ s) : Follows s₀ (s.unbind k) := by
  unfold State.unbind
  split
  exacts [h.other, h]

theorem gain {k e guardian} (h : Follows s₀ s) : Follows s₀ (s.gain k e guardian) :=
  h.unbind.setLease.set.set.set.set.raise

theorem leaseGained {k} (h : Follows s₀ s) : Follows s₀ (Machine.leaseGained k s) := by
  unfold Machine.leaseGained
  split
  exacts [.either h.advance.setLease.gain h.advance.setLease, h]

theorem leaseLost {k} (h : Follows s₀ s) : Follows s₀ (Machine.leaseLost k s) := by
  unfold Machine.leaseLost
  split
  exacts [h.advance.setLease.set.doGroupOff.raise.report, h]

theorem guardianLeaseLapse {k} (h : Follows s₀ s) : Follows s₀ (Machine.guardianLeaseLapse k s) :=
  either (.either h.set.raise.report h.set) h

theorem relFrameRx {p f} (h : Follows s₀ s) : Follows s₀ (Machine.relFrameRx p f s) := by
  unfold Machine.relFrameRx
  split
  next t ok e =>
    have ht : Follows s₀ t := h.tlTake.ofFst e
    split
    · exact ht
    · extract_lets mask named good u v
      have hu : Follows s₀ u := fold (fun _ _ h1 => h1.set.setLease) ht
      have hv : Follows s₀ v := either hu hu.raise
      exact either hv hv.tlViolationRec

theorem handoverPropose {k rx} (h : Follows s₀ s) : Follows s₀ (Machine.handoverPropose k rx s) := by
  unfold Machine.handoverPropose
  split
  exacts [.either h.setLease.ctrl h, .either h.tlTake.setLease h.tlTake]

theorem handoverAccept {k rx h'} (h : Follows s₀ s) : Follows s₀ (Machine.handoverAccept k rx h' s) := by
  unfold Machine.handoverAccept
  split
  · split
    exacts [either h.setLease.ctrl h, h]
  · split
    next t ok e =>
      have ht : Follows s₀ t := h.tlTake.ofFst e
      split
      exacts [either ht.setLease ht, ht]

theorem handoverInstant {k} (h : Follows s₀ s) : Follows s₀ (Machine.handoverInstant k s) := by
  unfold Machine.handoverInstant
  split
  · exact either h.advance.leaseClear.doGroupOff.set.setLease
      (either (either h.advance (either h.advance.gain h.advance.setLease)) h.advance.setLease.set)
  · exact h

theorem handoverGuardStart {k} (h : Follows s₀ s) : Follows s₀ (Machine.handoverGuardStart k s) := by
  unfold Machine.handoverGuardStart
  split
  exacts [.either h.advance.set.setLease h, h]

theorem leaseDue {t k} (h : Follows s₀ s) : Follows s₀ (s.leaseDue t k) := by
  unfold State.leaseDue
  extract_lets u v
  have hu : Follows s₀ u := by
    unfold u
    split
    exacts [either h.handoverInstant h, h]
  have hv : Follows s₀ v := by
    unfold v
    split
    exacts [either hu.leaseGained hu, hu]
  split
  exacts [either hv.leaseLost hv, hv]

theorem syncFrameRx {p f items last} (h : Follows s₀ s) : Follows s₀ (Machine.syncFrameRx p f items last s) :=
  either h.tlTake.other h.tlTake
theorem syncFail (h : Follows s₀ s) : Follows s₀ (Machine.syncFail s) := either h.syncFails h
theorem forgetLeases (h : Follows s₀ s) : Follows s₀ s.forgetLeases := fold (fun _ _ h2 => h2.set.set) h.other
theorem learnHolders (h : Follows s₀ s) : Follows s₀ s.learnHolders := fold (fun _ _ h1 => h1.setLease) h

theorem syncDone (h : Follows s₀ s) : Follows s₀ (Machine.syncDone s) := by
  unfold Machine.syncDone
  split
  exacts [.either h.advance.set.set.other.learnHolders.addMember.raise h, h]

theorem leaveExcluded (h : Follows s₀ s) : Follows s₀ s.leaveExcluded := either h.forgetLeases.set.other h

theorem linkExcludeEnd (h : Follows s₀ s) : Follows s₀ (Machine.linkExcludeEnd s) := by
  unfold Machine.linkExcludeEnd
  split
  exacts [.either h.advance.other.leaveExcluded h, h]

theorem presenceFrameSend (h : Follows s₀ s) : Follows s₀ (Machine.presenceFrameSend s) :=
  either (.fold (fun _ _ h1 => .either h1.emit h1) h) h
theorem presenceFrameRx {port pos} (h : Follows s₀ s) : Follows s₀ (Machine.presenceFrameRx port pos s) :=
  either h.other h

/-! ### Queue -/

theorem setCan {n v} (h : Follows s₀ s) : Follows s₀ (s.setCan n v) := h.other
theorem qShow {g c} (h : Follows s₀ s) : Follows s₀ (s.qShow g c) := h.setQueue.set.set.set.set.set.set
theorem qSet {g c} (h : Follows s₀ s) : Follows s₀ (s.qSet g c) :=
  either h.qShow.set.inc.raise (.either h.qShow.set.inc.raise h.qShow)

theorem txqJudge {g n k} (h : Follows s₀ s) : Follows s₀ (s.txqJudge g n k) := by
  induction k generalizing s with
  | zero => exact h
  | succ k ih =>
    unfold State.txqJudge
    exact either h.setCan (either h (either (ih h.qSet.launchDrop) h.setCan))

theorem qSettle {g} (h : Follows s₀ s) : Follows s₀ (s.qSettle g) := by
  unfold State.qSettle
  split
  exacts [.either h.txqJudge h, h]

theorem qPut {g c} (h : Follows s₀ s) : Follows s₀ (s.qPut g c) := h.qSet.qSettle
theorem qWrite {g ptr flags it} (h : Follows s₀ s) : Follows s₀ (s.qWrite g ptr flags it) :=
  (either h.setQueue.unpoison h.setQueue).wrBytes.unreserve
theorem qPush {g} (h : Follows s₀ s) : Follows s₀ (s.qPush g) := h.qPut

theorem qCommitItem {g flags it} (h : Follows s₀ s) : Follows s₀ (s.qCommitItem g flags it).1 := by
  unfold State.qCommitItem
  split
  · exact h
  · split
    exacts [h.inc, h.qWrite.qPush]

theorem qCommitHw {g flags payload} (h : Follows s₀ s) : Follows s₀ (s.qCommitHw g flags payload).1 :=
  h.qCommitItem
theorem qPop {g} (h : Follows s₀ s) : Follows s₀ (s.qPop g) := h.qPut
theorem qDiscard {g ptr} (h : Follows s₀ s) : Follows s₀ (s.qDiscard g ptr) := h.inc.transitFail

theorem qTakeHw {g} (h : Follows s₀ s) : Follows s₀ (s.qTakeHw g).1 := by
  unfold State.qTakeHw
  split
  · exact h
  · extract_lets ptr
    split
    exacts [h.qPop, h.qDiscard.qPop]

theorem qTakeAll {g n} (h : Follows s₀ s) : Follows s₀ (s.qTakeAll g n).1 := by
  induction n generalizing s with
  | zero => exact h
  | succ n ih =>
    unfold State.qTakeAll
    split
    exacts [h, ih h.qTakeHw]

theorem qCommitSw {g who len} (h : Follows s₀ s) : Follows s₀ (s.qCommitSw g who len) :=
  either h.inc (.either h.inc h.qWrite.qPush)
theorem qReleaseSw {g who} (h : Follows s₀ s) : Follows s₀ (s.qReleaseSw g who) :=
  either h.inc (.either h.inc h.qPop)
theorem qBoth {g who len by_} (h : Follows s₀ s) : Follows s₀ (s.qBoth g who len by_) :=
  either h.qCommitSw.qReleaseSw h.qWrite.qShow
theorem qVerify {g} (h : Follows s₀ s) : Follows s₀ (s.qVerify g) := either h (.either h.qPut h.qDiscard.qPut)
theorem qLose {g line} (h : Follows s₀ s) : Follows s₀ (s.qLose g line) :=
  fold (fun _ _ h1 => .either h1 h1.qDiscard.qPut) h
theorem qReturn {g} (h : Follows s₀ s) : Follows s₀ (s.qReturn g) := either h h.qPut
theorem qReset {g a b} (h : Follows s₀ s) : Follows s₀ (s.qReset g a b) := h.incBy.qPut.inc.set.raise.report
theorem qClear {g} (h : Follows s₀ s) : Follows s₀ (s.qClear g) := h.set.set.setReg
theorem qInit {g} (h : Follows s₀ s) : Follows s₀ (s.qInit g) := h.setQueue.qPut

theorem commit {who q len rel} (h : Follows s₀ s) : Follows s₀ (Machine.commit who q len rel s) := by
  unfold Machine.commit
  split
  · exact h
  · split
    exacts [h.qBoth, h.qCommitSw]

theorem releaseCommand {who q} (h : Follows s₀ s) : Follows s₀ (Machine.release who q s) :=
  either h.qReleaseSw h
theorem queueItemVerified {q} (h : Follows s₀ s) : Follows s₀ (Machine.queueItemVerified q s) := h.qVerify
theorem creditReturn {q} (h : Follows s₀ s) : Follows s₀ (Machine.creditReturn q s) := h.qReturn
theorem queuePtrErr {q a b} (h : Follows s₀ s) : Follows s₀ (Machine.queuePtrErr q a b s) := either h h.qReset
theorem hxqCntClr {q} (h : Follows s₀ s) : Follows s₀ (Machine.hxqCntClr q s) := h.qClear

/-! ### Mem -/

theorem setPage {k v} (h : Follows s₀ s) : Follows s₀ (s.setPage k v) := h.other
theorem modPage {k f} (h : Follows s₀ s) : Follows s₀ (s.modPage k f) := h.setPage
theorem setHeld {part n} (h : Follows s₀ s) : Follows s₀ (s.setHeld part n) := either h.set.set h.set
theorem setFree {l} (h : Follows s₀ s) : Follows s₀ (s.setFree l) := h.set.other
theorem freeFrame {f} (h : Follows s₀ s) : Follows s₀ (s.freeFrame f) := either h h.setFree

theorem allocFrame (h : Follows s₀ s) : Follows s₀ s.allocFrame.1 := by
  unfold State.allocFrame
  split
  exacts [h, h.free.setFree]

theorem writeBack {k} (h : Follows s₀ s) : Follows s₀ (s.writeBack k) := by
  unfold State.writeBack
  dsimp only
  split
  exacts [unreserve (h.setPage.withMem (memCopy_wf _ _ _ _)), h]

theorem dropFrame {k} (h : Follows s₀ s) : Follows s₀ (s.dropFrame k) := by
  unfold State.dropFrame
  split
  exacts [h.modPage.freeFrame.setHeld, h]

theorem takeFrame {part} (h : Follows s₀ s) : Follows s₀ (s.takeFrame part).1 := by
  unfold State.takeFrame
  extract_lets quota
  split
  next t cost e =>
    have ht : Follows s₀ t := by
      refine ofFst ?_ e
      split
      · exact h
      · split
        · split
          exacts [h.writeBack.dropFrame, h.dropFrame]
        · exact h
    split
    · dsimp only
      split
      exacts [ht.allocFrame.setHeld, ht.allocFrame]
    · exact ht

theorem fillPage {part up} (h : Follows s₀ s) : Follows s₀ (s.fillPage part up).1 := by
  unfold State.fillPage
  split
  · exact h
  · next g _ =>
    dsimp only
    split
    · exact h
    · split
      · exact h.setPage
      · have hf : Follows s₀ (s.takeFrame part).1 := h.takeFrame
        split
        · exact hf
        · refine setPage (unreserve (unpoison (hf.withMem fun k => ?_)))
          split
          exacts [memLoad_wf _ _ _ _ _ k, memCopy_wf _ _ _ _ k]

theorem unpin {c} (h : Follows s₀ s) : Follows s₀ (s.unpin c) := other (.fold (fun _ _ h1 => h1.modPage) h)

theorem unstage {w start} (h : Follows s₀ s) : Follows s₀ (s.unstage w start) := by
  unfold State.unstage
  split
  exacts [h.unpin, h]

theorem stagingRequest {w} (h : Follows s₀ s) : Follows s₀ (Machine.stagingRequest w s) := by
  unfold Machine.stagingRequest
  split
  · split
    exacts [.either (.other (.fold (fun _ _ h2 => h2.modPage) h.advance)) h, h]
  · exact h

theorem unstall {part up} (h : Follows s₀ s) : Follows s₀ (s.unstall part up) := by
  unfold State.unstall
  refine .fold (fun _ _ h1 => ?_) h
  extract_lets here
  split
  exacts [.either h1.modPair h1, .either h1.modPair h1, h1]

theorem setLatent {m line l} (h : Follows s₀ s) : Follows s₀ (s.setLatent m line l) := h.other

theorem transferDone (h : Follows s₀ s) : Follows s₀ s.transferDone := by
  unfold State.transferDone
  split
  · exact h
  · split
    · exact h
    · extract_lets k u k1
      have hu : Follows s₀ u := h.other
      split
      exacts [.either hu.writeBack.wait hu, hu.setLatent, hu.fillPage.wait.unstall]

theorem askPage {p part up why st} (h : Follows s₀ s) : Follows s₀ (s.askPage p part up why st) :=
  either h.modPair h.modPair.other
theorem stageMiss {p task part up} (h : Follows s₀ s) : Follows s₀ (s.stageMiss p task part up) :=
  h.inc.raise.report.askPage
theorem wsetMark {task up} (h : Follows s₀ s) : Follows s₀ (s.wsetMark task up) := h.raise.report
theorem wsetResident {p task up} (h : Follows s₀ s) : Follows s₀ (s.wsetResident p task up) :=
  either h h.setUnit.wsetMark.inc.raise.report
theorem callRet {p status} (h : Follows s₀ s) : Follows s₀ (s.callRet p status) := h.modPair
theorem pageRefused {p status} (h : Follows s₀ s) : Follows s₀ (s.pageRefused p status) :=
  h.raise.report.callRet

theorem pageOp {p kind} (h : Follows s₀ s) : Follows s₀ (s.pageOp p kind) := by
  unfold State.pageOp
  split
  · split
    · extract_lets addr count st ups k u k1 v
      have hu : Follows s₀ u := h.other
      have hv : Follows s₀ v := by
        unfold v
        split
        exacts [hu, hu.other, hu.other, hu]
      exact .either h (.either h.pageRefused (.either h.pageRefused hv.callRet))
    · exact h
  · exact h

theorem pageAlloc {p} (h : Follows s₀ s) : Follows s₀ (Machine.pageAlloc p s) := h.pageOp
theorem pageFree {p} (h : Follows s₀ s) : Follows s₀ (Machine.pageFree p s) := h.pageOp
theorem pagePrefetch {p} (h : Follows s₀ s) : Follows s₀ (Machine.pagePrefetch p s) := h.pageOp
theorem pageFlush {p} (h : Follows s₀ s) : Follows s₀ (Machine.pageFlush p s) := h.pageOp

theorem memInfo {p} (h : Follows s₀ s) : Follows s₀ (Machine.memInfo p s) := by
  unfold Machine.memInfo
  split
  · split
    exacts [.either h.modPair.callRet h, h]
  · exact h

theorem newHome (h : Follows s₀ s) : Follows s₀ s.newHome.1 := by
  unfold State.newHome
  split
  next t k e =>
    have ht : Follows s₀ t := by
      split at e
      all_goals cases e; exact h.other
    exact unreserve (ht.withMem (memClear_wf _ _ _))

theorem setReserved {part n} (h : Follows s₀ s) : Follows s₀ (s.setReserved part n) := h.set
theorem createPage {k} (h : Follows s₀ s) : Follows s₀ (s.createPage k) :=
  either h h.newHome.setPage.setReserved

theorem destroyPage {k} (h : Follows s₀ s) : Follows s₀ (s.destroyPage k) := by
  unfold State.destroyPage
  split
  · exact h
  · extract_lets u k1 v k2 w
    have hu : Follows s₀ u := h.dropFrame
    have hv : Follows s₀ v := by
      unfold v
      split
      exacts [hu.other, hu]
    have hw : Follows s₀ w := hv.other
    exact hw.setPage.setReserved

theorem pageOpComplete {part} (h : Follows s₀ s) : Follows s₀ (Machine.pageOpComplete part s) := by
  unfold Machine.pageOpComplete
  split
  · exact h
  · extract_lets keys done
    split
    · exact .other (.fold (fun _ _ h1 => h1.createPage) h)
    · exact .other (.fold (fun _ _ h1 => h1.destroyPage) h)
    · exact .either h h.other
    · exact .either h h.other

theorem memCorrected {m line bad scrub} (h : Follows s₀ s) : Follows s₀ (s.memCorrected m line bad scrub) :=
  either h.inc.report.setLatent (.either h.inc.report.setLatent.other h.inc.report.setLatent)
theorem hardSymbol {frame sym} (h : Follows s₀ s) : Follows s₀ (s.hardSymbol frame sym) :=
  either h (either (either h.other.setFree.set h.other).inc h).raise.report
theorem countSymbols {keys} (h : Follows s₀ s) : Follows s₀ (s.countSymbols keys) :=
  fold (fun _ _ h2 => .either h2.hardSymbol h2) h.other

theorem passDone {m} (h : Follows s₀ s) : Follows s₀ (s.passDone m) := by
  unfold State.passDone
  extract_lets last u passed k v w k1
  have hu : Follows s₀ u := either h.raise.report h
  have hv : Follows s₀ v := hu.other
  have hw : Follows s₀ w := hv.raise
  exact .either hw.other hv

theorem hxmMemerrClr (h : Follows s₀ s) : Follows s₀ (Machine.hxmMemerrClr s) := h.set.set
theorem hxmPartSramClr {part} (h : Follows s₀ s) : Follows s₀ (Machine.hxmPartSramClr part s) := h.set

/-! ### Gheif -/

theorem modGh {f} (h : Follows s₀ s) : Follows s₀ (s.modGh f) := h.other
theorem setPs {n} (h : Follows s₀ s) : Follows s₀ (s.setPs n) := either h h.set.raise

/-- The guardian cuts the data of a Gheif frame alone. -/
theorem cutTx {ch x} (h : Follows s₀ s) : Follows s₀ (s.cutTx ch x) := by
  unfold State.cutTx
  split
  · extract_lets u hit v
    have hu : Follows s₀ u := h.modGh
    have hv : Follows s₀ v := hu.inc.raise.report
    refine either (hv.trans ⟨⟨Nat.le_refl _, rfl, ?_, fun n e he hi => ?_⟩, rfl, id⟩) hu
    · simp [Function.comp_def, apply_ite Emit.iface, apply_ite Emit.unit, apply_ite Emit.kind, apply_ite Emit.tm]
    · simp [he, hit, hi]
  · exact h

theorem cutBoth (h : Follows s₀ s) : Follows s₀ s.cutBoth := h.cutTx.cutTx
theorem ghUnanchor (h : Follows s₀ s) : Follows s₀ s.ghUnanchor := h.set.modGh

theorem ghListen {extended} (h : Follows s₀ s) : Follows s₀ (s.ghListen extended) := by
  unfold State.ghListen
  split
  exacts [h.cutBoth.setPs.ghUnanchor.modGh, h]

theorem ghStart (h : Follows s₀ s) : Follows s₀ s.ghStart := by
  unfold State.ghStart
  split
  exacts [.either h.report (.either h h.set.set.ghListen), h]

theorem ghStop (h : Follows s₀ s) : Follows s₀ s.ghStop := either h h.cutBoth.setPs.ghUnanchor.set.modGh
theorem rxCount {ch i} (h : Follows s₀ s) : Follows s₀ (s.rxCount ch i) := either h.inc h.inc
theorem txCount {i} (h : Follows s₀ s) : Follows s₀ (s.txCount i) := either h.inc h.inc
theorem ghReject {ch check slot} (h : Follows s₀ s) : Follows s₀ (s.ghReject ch check slot) :=
  h.rxCount.raise.report
theorem ghEndorse {c m x} (h : Follows s₀ s) : Follows s₀ (s.ghEndorse c m x) :=
  either h (.either (.either h h.report) (.either h.set.set.modGh h))
theorem ghSync {c ch f r pl} (h : Follows s₀ s) : Follows s₀ (s.ghSync c ch f r pl) :=
  either h.modGh (.either h.modGh.ghEndorse h.modGh)
theorem ghCurrent {c d ch pos it} (h : Follows s₀ s) : Follows s₀ (s.ghCurrent c d ch pos it) :=
  (either h.modGh.set.set (.either h.modGh.set.set.modGh.set.set h.modGh.set.set.modGh.set)).offerItem
theorem ghStore {c d ch pos data} (h : Follows s₀ s) : Follows s₀ (s.ghStore c d ch pos data) :=
  either h.ghCurrent (.either h.ghCurrent.qCommitItem h.ghCurrent.qCommitItem.txCount)

theorem ghSwap {c d ch pos data} (h : Follows s₀ s) : Follows s₀ (s.ghSwap c d ch pos data) := by
  unfold State.ghSwap
  split
  exacts [.either h.ghCurrent (.either h.ghCurrent.qWrite h.ghCurrent), h]

theorem ghOther {d ch same} (h : Follows s₀ s) : Follows s₀ (s.ghOther d ch same) :=
  either h.txCount h.txCount.raise.report

theorem ghHandle {c d ch pos null data} (h : Follows s₀ s) : Follows s₀ (s.ghHandle c d ch pos null data) := by
  unfold State.ghHandle
  extract_lets mark
  split
  · exact .either h (either h.ghSwap.modGh h).ghOther
  · exact .either h.rxCount.modGh (.either h.modGh (.either h.rxCount.raise.report h.ghStore.modGh))

theorem ghDynEnd {c ch id pos last} (h : Follows s₀ s) : Follows s₀ (s.ghDynEnd c ch id pos last) := by
  unfold State.ghDynEnd
  exact h.modGh

theorem ghDynSeen {c ch f r} (h : Follows s₀ s) : Follows s₀ (s.ghDynSeen c ch f r) := by
  unfold State.ghDynSeen
  split
  exacts [.either h.ghDynEnd h, h]

theorem ghAccept {c ch f r} (h : Follows s₀ s) : Follows s₀ (s.ghAccept c ch f r) := by
  unfold State.ghAccept
  split
  · exact h
  · extract_lets u v w k
    have hu : Follows s₀ u := h.rxCount.modGh
    have hv : Follows s₀ v := either hu.ghSync hu
    have hw : Follows s₀ w := either hv.rxCount hv
    split
    · extract_lets x
      have hx : Follows s₀ x := either hw.other hw
      exact .either hx hx.ghHandle
    · exact hw

theorem setCyc {start count} (h : Follows s₀ s) : Follows s₀ (s.setCyc start count) := h.other.set
theorem takeTiming {c start count} (h : Follows s₀ s) : Follows s₀ (s.takeTiming c start count) :=
  (either h.modGh.modGh h.modGh.setCyc.modGh).noteCycTod

theorem ghHear {c ch f r} (h : Follows s₀ s) : Follows s₀ (s.ghHear c ch f r) := by
  unfold State.ghHear
  extract_lets n id sof lead startF u v
  have hu : Follows s₀ u := h.setPs.modGh
  have hv : Follows s₀ v := h.setPs.modGh
  split
  · exact h
  · split
    · exact hu.set.set.takeTiming
    · split
      · split
        exacts [.either h hv.set.takeTiming, h]
      · exact h

theorem gheifFrameRx {ch f} (h : Follows s₀ s) : Follows s₀ (Machine.gheifFrameRx ch f s) := by
  unfold Machine.gheifFrameRx
  split
  · exact .either h (.either h.advance.modGh.ghHear
      (either h.advance.modGh.ghAccept (either h.advance.modGh.modGh h.advance.modGh).ghReject).other)
  · exact h

theorem ghDrive {ch id pos kind data dur} (h : Follows s₀ s) : Follows s₀ (s.ghDrive ch id pos kind data dur).1 := by
  unfold State.ghDrive
  split
  · dsimp only
    exact h.emit.modGh
  · exact h.inc.raise.report

theorem guardStrobe {err} (h : Follows s₀ s) : Follows s₀ (Machine.guardStrobe err s) := by
  unfold Machine.guardStrobe
  split
  · extract_lets k ok u
    have hu : Follows s₀ u := h.modGh
    split
    · exact h
    · split
      · exact hu.cutBoth.set.inc.raise.modGh
      · split
        · exact hu
        · split
          exacts [hu.modGh, hu.set.modGh]
  · exact h

theorem guardCut {ch} (h : Follows s₀ s) : Follows s₀ (Machine.guardCut ch s) := by
  unfold Machine.guardCut
  split
  exacts [.either h (.either h.advance.cutTx (.either h.cutTx h)), h]

theorem ghMark {c d ch} (h : Follows s₀ s) : Follows s₀ (s.ghMark c d ch) := either h.modGh.modGh h.modGh

theorem ghFrame {c ch d pos data} (h : Follows s₀ s) : Follows s₀ (s.ghFrame c ch d pos data).1 := by
  unfold State.ghFrame
  extract_lets isSync body payload hd r u v
  have hr : Follows s₀ r.1 := h.ghDrive
  have hv : Follows s₀ v := either hr.txCount.txCount hr.txCount.ghMark
  split
  · dsimp only
    exact hv.modGh
  · exact hr

theorem ghSend {c ch d pos it} (h : Follows s₀ s) : Follows s₀ (s.ghSend c ch d pos it).1 := by
  unfold State.ghSend
  split
  · split
    · exact h.ghFrame
    · extract_lets u
      have hu : Follows s₀ u := h.txCount.raise.transitFail.modGh
      split
      exacts [hu.ghFrame, hu]
  · split
    exacts [h.ghFrame, h]

theorem gheifSlotTx {ch p} (h : Follows s₀ s) : Follows s₀ (Machine.gheifSlotTx ch p s) := by
  unfold Machine.gheifSlotTx
  split
  · extract_lets t u may
    have hu : Follows s₀ u := h.advance
    split
    · exact h
    · split
      exacts [.either hu (.either hu.txCount hu.ghSend), hu]
  · exact h

theorem dynSlot {ch} (h : Follows s₀ s) : Follows s₀ (Machine.dynSlot ch s) := by
  unfold Machine.dynSlot
  split
  · split
    · split
      · exact h
      · extract_lets u v
        have hu : Follows s₀ u := h.advance
        have hv : Follows s₀ v := hu.modGh
        split
        · split
          exacts [.either (.either hv.txCount (.either hv.advance.ghSend.ghDynEnd hv.advance.ghSend)) hv, hv]
        · exact hv
    · exact h
  · exact h

theorem txCountBy {i n} (h : Follows s₀ s) : Follows s₀ (s.txCountBy i n) := fold (fun _ _ h1 => h1.txCount) h

theorem ghFits {d i} (h : Follows s₀ s) : Follows s₀ (s.ghFits d i).1 := by
  unfold State.ghFits
  split
  · dsimp only
    exact h.txCount.raise
  · exact h

theorem gheifTake {id} (h : Follows s₀ s) : Follows s₀ (Machine.gheifTake id s) := by
  unfold Machine.gheifTake
  split
  · split
    · split
      · exact h
      · extract_lets u g n r v
        have hr : Follows s₀ r.1 := h.advance.qTakeAll
        have hv : Follows s₀ v := either hr.txCountBy.raise hr
        split
        next t got e =>
          have ht : Follows s₀ t := by
            refine ofFst (foldFst (fun c i h1 => ?_) ?_) e
            exacts [h1.ghFits, hv]
          split
          exacts [ht.txCountBy.modGh, ht.txCountBy]
    · exact h
  · exact h

theorem ghRelease {g} (h : Follows s₀ s) : Follows s₀ (s.ghRelease g) := by
  unfold State.ghRelease
  split
  exacts [.fold (fun _ _ h1 => .either (either h1.txCount h1).modGh h1) h, h]

theorem clockCorrection (h : Follows s₀ s) : Follows s₀ (Machine.clockCorrection s) := by
  unfold Machine.clockCorrection
  split
  exacts [.either h (either h.advance.set.set.set.set.set h.advance.set.set.set.set).modGh, h]

theorem ghActive {c} (h : Follows s₀ s) : Follows s₀ (s.ghActive c) :=
  either h.modGh.set.set.setPs h.modGh.setPs.raise

theorem ghStep {c l} (h : Follows s₀ s) : Follows s₀ (s.ghStep c l) := by
  unfold State.ghStep
  split
  · exact .either h.ghActive h
  · exact .either (.either (.either h.ghActive h.modGh) h) (.either (.either h.ghActive h.modGh) (.either h.ghListen h.modGh))
  · exact .either h.setPs.raise.modGh h
  · exact .either h.modGh (.either h.ghActive h.modGh)
  · exact h

theorem ghFollow {c} (h : Follows s₀ s) : Follows s₀ (s.ghFollow c) := by
  unfold State.ghFollow
  extract_lets g ids
  split
  exacts [.either h.set.raise.report.modGh h, h]

theorem ghCycleStart (h : Follows s₀ s) : Follows s₀ s.ghCycleStart := by
  unfold State.ghCycleStart
  split
  exacts [.either h h.modGh.ghFollow.ghStep.modGh, h]

theorem engineCycle (h : Follows s₀ s) : Follows s₀ s.engineCycle := h.modGh.noteCycTod.ghCycleStart

theorem timerCycle (h : Follows s₀ s) : Follows s₀ s.timerCycle := by
  unfold State.timerCycle
  split
  exacts [.either (.either h.modGh h.modGh.ghCycleStart) h, h.ghCycleStart]

theorem gheifSyncLost (h : Follows s₀ s) : Follows s₀ (Machine.gheifSyncLost s) := by
  unfold Machine.gheifSyncLost
  split
  exacts [.either h.ghListen.raise.report h, h]

theorem leadCycle {t} (h : Follows s₀ s) : Follows s₀ (s.leadCycle t) := either h.modGh h.modGh

theorem listenTimeout {idle} (h : Follows s₀ s) : Follows s₀ (Machine.listenTimeout idle s) := by
  unfold Machine.listenTimeout
  split
  · exact .either h (.either (.leadCycle (.fold (fun _ _ h4 => .either h4.ghDrive h4) h.advance.setPs.set.set.modGh)) h.advance.modGh)
  · exact h

theorem ghActivity {c ch zeros} (h : Follows s₀ s) : Follows s₀ (s.ghActivity c ch zeros) := by
  unfold State.ghActivity
  extract_lets u off
  have hu : Follows s₀ u := h.modGh
  split
  · exact hu
  · split
    · exact hu.rxCount
    · split
      · exact hu
      · split
        · exact hu.rxCount
        · split
          exacts [.either (.either hu.rxCount hu) (.either hu.rxCount hu), hu]

theorem casRx {ch} (h : Follows s₀ s) : Follows s₀ (Machine.casRx ch s) := by
  unfold Machine.casRx
  split
  exacts [.either h (.either h.ghActivity.modGh h.ghActivity), h]

theorem lineActivity {ch zeros} (h : Follows s₀ s) : Follows s₀ (Machine.lineActivity ch zeros s) := by
  unfold Machine.lineActivity
  split
  exacts [.either h.ghActivity h, h]

theorem startFrameTx (h : Follows s₀ s) : Follows s₀ (Machine.startFrameTx s) := by
  unfold Machine.startFrameTx
  split
  exacts [.either (.fold (fun _ _ h2 => .either h2.ghDrive h2) h.advance) h, h]

theorem ghAbort {c} (h : Follows s₀ s) : Follows s₀ (s.ghAbort c) :=
  (either h.inc.raise.report.set.raise.report h.inc.raise.report).ghListen

theorem echoDecision (h : Follows s₀ s) : Follows s₀ (Machine.echoDecision s) := by
  unfold Machine.echoDecision
  split
  exacts [.either (.either h.advance.modGh h.advance.modGh.ghAbort) h, h]

theorem ghPropose {m t} (h : Follows s₀ s) (e : s.ghPropose m = some t) : Follows s₀ t := by
  unfold State.ghPropose at e
  split at e
  · split at e
    · cases e
    · cases e; exact h.set.set.modGh
  · cases e

theorem ghDropProp (h : Follows s₀ s) : Follows s₀ s.ghDropProp := h.set.set.modGh

theorem modeChange (h : Follows s₀ s) : Follows s₀ (Machine.modeChange s) := by
  have hp {t : State} {x m : Nat} {mine : Bool} (ht : Follows s₀ t) : Follows s₀
      (if x = s.ghCyc.2 then (if mine then ((t.raise 230).report .MODE_CHANGE_FAIL (srcGhc 0) [m]).ghDropProp else t.ghDropProp) else t) :=
    either (either ht.raise.report.ghDropProp ht.ghDropProp) ht
  unfold Machine.modeChange
  dsimp only
  split
  · split
    · exact h
    · split
      · split
        · exact h.set.raise.report.ghDropProp
        · split
          exacts [hp h, h]
      · split
        exacts [hp h, h]
  · exact h

theorem ghcBufsel {v} (h : Follows s₀ s) : Follows s₀ (Machine.ghcBufsel v s) := by
  unfold Machine.ghcBufsel
  extract_lets id u
  have hu : Follows s₀ u := h.set
  split
  exacts [hu.set.modGh, hu.set]

theorem ghcCntclrGhc (h : Follows s₀ s) : Follows s₀ (Machine.ghcCntclrGhc s) :=
  fold (fun _ _ h3 => h3.setReg) (.fold (fun _ _ h1 => h1.setReg.setReg) h)
theorem ghcCntclrGrd (h : Follows s₀ s) : Follows s₀ (Machine.ghcCntclrGrd s) := h.setReg
theorem ghcPrecClr (h : Follows s₀ s) : Follows s₀ (Machine.ghcPrecClr s) := h.set

/-! ### Tmb -/

theorem setRates {freq slew} (h : Follows s₀ s) : Follows s₀ (s.setRates freq slew) := h.other.set.set.set
theorem setPending {p} (h : Follows s₀ s) : Follows s₀ (s.setPending p) := h.other
theorem advanceTod {tod} (h : Follows s₀ s) : Follows s₀ (s.advanceTod tod) := either h.advance h
theorem tmbCapture {p} (h : Follows s₀ s) : Follows s₀ (Machine.tmbCapture p s) :=
  either h h.set.set.set.set.set.set
theorem setUtc {u} (h : Follows s₀ s) : Follows s₀ (s.setUtc u) := h.set.set.set.other
theorem leapFlagClear (h : Follows s₀ s) : Follows s₀ (Machine.leapFlagClear s) := either h h.advanceTod.set.set
theorem setTsrc {c v} (h : Follows s₀ s) : Follows s₀ (s.setTsrc c v) := h.other
theorem holdover (h : Follows s₀ s) : Follows s₀ s.holdover := either h.set.raise h.set

theorem activate {c idx} (h : Follows s₀ s) : Follows s₀ (s.activate c idx) := by
  unfold State.activate
  extract_lets old k u k1 v k2 w x y
  have hu : Follows s₀ u := h.setTsrc
  have hv : Follows s₀ v := hu.setTsrc
  have hw : Follows s₀ w := hv.other
  have hx : Follows s₀ x := hw.set.set
  have hy : Follows s₀ y := by
    unfold y
    split
    exacts [hx.setUtc, hx]
  exact hy.raise.report.holdover

theorem tmbStart (h : Follows s₀ s) : Follows s₀ s.tmbStart := h.set.set.holdover

theorem riseTo {c} (h : Follows s₀ s) : Follows s₀ (s.riseTo c) := by
  unfold State.riseTo
  split
  exacts [.either h.activate h, h]

theorem sourceChange (h : Follows s₀ s) : Follows s₀ (Machine.sourceChange s) := by
  unfold Machine.sourceChange
  split
  · exact h
  · extract_lets c u i r
    have hu : Follows s₀ u := by
      unfold u
      split
      exacts [h.advance, h]
    exact .either hu hu.activate

theorem takeRates {freq deferFreq slew} (h : Follows s₀ s) : Follows s₀ (s.takeRates freq deferFreq slew) :=
  either h.other (.either h.setRates.other h.setRates)
theorem track {e} (h : Follows s₀ s) : Follows s₀ (s.track e) :=
  either (.either h.other.set.raise h.other) (.either h.other.set.raise h.other)
theorem correct {c e given} (h : Follows s₀ s) : Follows s₀ (s.correct c e given) :=
  (either h.set.setPending.takeRates.raise.report h.set.setPending.takeRates).track

theorem measure {c e given utc} (h : Follows s₀ s) : Follows s₀ (s.measure c e given utc) := by
  have hu {b : Bool} : Follows s₀ (if b then s.correct c e given else s) := either h.correct h
  unfold State.measure
  refine riseTo (setTsrc ?_)
  split
  exacts [hu.setUtc, hu]

theorem timeFrameRx {b} (h : Follows s₀ s) : Follows s₀ (Machine.timeFrameRx b s) := by
  unfold Machine.timeFrameRx
  extract_lets id c src mark
  split
  · exact h
  · split
    exacts [h, .either h (.either h.inc.raise.setTsrc (.either h.setTsrc h.measure))]

theorem tmbAdjWrite {v} (h : Follows s₀ s) : Follows s₀ (Machine.tmbAdjWrite v s) :=
  either h (.either h.measure h.inc)
theorem endSlew (h : Follows s₀ s) : Follows s₀ s.endSlew := h.setRates.setPending
theorem slewEnd (h : Follows s₀ s) : Follows s₀ (Machine.slewEnd s) :=
  either h (.either (.either h.endSlew h) h.advance.endSlew)

theorem tmbCycle {len} (h : Follows s₀ s) : Follows s₀ (s.tmbCycle len) := by
  unfold State.tmbCycle
  extract_lets u v w x k
  have hu : Follows s₀ u := either h.noteCycTod h
  have hv : Follows s₀ v := either hu.endSlew hu
  have hw : Follows s₀ w := by
    unfold w
    split
    exacts [hv.setRates.other, hv]
  have hx : Follows s₀ x := hw.setRates
  exact .either hx.other hw

theorem stepTod {new} (h : Follows s₀ s) : Follows s₀ (s.stepTod new) := h.endSlew.other.set.raise.report

theorem timeFrameSend (h : Follows s₀ s) : Follows s₀ (Machine.timeFrameSend s) := by
  unfold Machine.timeFrameSend
  extract_lets id act flags t frame
  split
  · split
    exacts [.either h h.qCommitHw.other, h]
  · exact h

theorem writeRtc (h : Follows s₀ s) : Follows s₀ s.writeRtc := h.set.other
theorem rtcWrite (h : Follows s₀ s) : Follows s₀ (Machine.rtcWrite s) := either h.advance.writeRtc h
theorem tmbCntClr (h : Follows s₀ s) : Follows s₀ (Machine.tmbCntClr s) := h.setReg

/-! ### Eth -/

theorem rxc {n i} (h : Follows s₀ s) : Follows s₀ (s.rxc n i) := either h.inc h.inc
theorem txc {n i} (h : Follows s₀ s) : Follows s₀ (s.txc n i) := either h.inc h.inc
theorem txcAll {ports i} (h : Follows s₀ s) : Follows s₀ (s.txcAll ports i) :=
  fold (fun _ _ h1 => .either h1.txc h1) h
theorem modEth {f} (h : Follows s₀ s) : Follows s₀ (s.modEth f) := h.other
theorem setPtp {n v} (h : Follows s₀ s) : Follows s₀ (s.setPtp n v) := h.modEth
theorem ptpStates {v} (h : Follows s₀ s) : Follows s₀ (s.ptpStates v) := either h h.set.set.raise
theorem ptpViol {n} (h : Follows s₀ s) : Follows s₀ (s.ptpViol n) := h.inc.rxc.raise

theorem ptpRx {n m len v} (h : Follows s₀ s) : Follows s₀ (s.ptpRx n m len v) := by
  have hu {c : Prop} {_ : Decidable c} {f} : Follows s₀ (if c then s.modEth f else s) := either h.modEth h
  unfold State.ptpRx
  refine either h.ptpViol (ptpStates ?_)
  dsimp only
  split
  · exact hu.setPtp
  · split
    exacts [hu.setPtp, hu]
  · split
    exacts [either hu.set hu, hu]
  · exact hu.setPtp
  · exact hu

theorem ptpMeasurement {n} (h : Follows s₀ s) : Follows s₀ (Machine.ptpMeasurement n s) := by
  unfold Machine.ptpMeasurement
  extract_lets c slave
  split
  exacts [.either h h.setPtp.measure, h]

theorem ptpMessageTx {n msg v} (h : Follows s₀ s) : Follows s₀ (Machine.ptpMessageTx n msg v s) :=
  either h h.ptpStates.setPtp
theorem setLate {t k} (h : Follows s₀ s) : Follows s₀ (s.setLate t k) := h.modEth
theorem pdReject {n t counter check} (h : Follows s₀ s) : Follows s₀ (s.pdReject n t counter check) :=
  h.setLate.rxc.inc.raise.report
theorem pdCurrent {n t it} (h : Follows s₀ s) : Follows s₀ (s.pdCurrent n t it) := h.modEth.set.offerItem

theorem pdAccept {n t seq e data} (h : Follows s₀ s) : Follows s₀ (s.pdAccept n t seq e data) :=
  either h.modEth.setLate.presNew.pdCurrent
    (.either h.modEth.setLate.presNew.pdCurrent.qCommitItem h.modEth.setLate.presNew.pdCurrent.qCommitItem.rxc.raise)

theorem pdDup {n t e data} (h : Follows s₀ s) : Follows s₀ (s.pdDup n t e data) := by
  unfold State.pdDup
  extract_lets u it v g ptr
  have hu : Follows s₀ u := h.setLate
  have hv : Follows s₀ v := hu.pdCurrent
  split
  exacts [.either (either hv.qWrite hv).rxc hu.rxc, hu.rxc]

theorem pdRx {n t e p} (h : Follows s₀ s) : Follows s₀ (s.pdRx n t e p) := by
  unfold State.pdRx
  extract_lets len seq etb opt lost
  split
  · exact h.pdReject
  · split
    · exact h.pdReject
    · split
      · exact h.pdReject.raise
      · split
        exacts [.either h.pdAccept (.either h.pdDup (.either h.pdReject h.pdAccept)), h.pdAccept]

theorem cmdRx {ip} (h : Follows s₀ s) : Follows s₀ (s.cmdRx ip) := either h h.other

theorem ethRules {n b pd} (h : Follows s₀ s) : Follows s₀ (s.ethRules n b pd) := by
  unfold State.ethRules
  split
  exacts [.either h.qCommitHw h.qCommitHw.rxc.raise, h.rxc]

theorem ethClassify {n b v} (h : Follows s₀ s) : Follows s₀ (s.ethClassify n b v) := by
  unfold State.ethClassify
  split
  · exact h.ptpRx
  · split
    · exact h.ethRules
    · split
      · exact h.ethRules
      · exact h.ethRules
      · split
        · exact h.rxc.raise
        · exact h.rxc.raise
        · split
          · exact h.ptpRx
          · split
            · exact h.cmdRx
            · split
              exacts [h.pdRx, h]

theorem ethFrameRx {n f v} (h : Follows s₀ s) : Follows s₀ (Machine.ethFrameRx n f v s) := by
  unfold Machine.ethFrameRx
  split
  · exact h
  · extract_lets b bad
    split
    · exact h.rxc.raise
    · split
      · exact h.rxc.raise
      · split
        · exact h.rxc.raise
        · split
          exacts [h.rxc.raise, .either h.rxc (.either h.rxc (.either h.rxc (.either h.rxc h.rxc.ethClassify)))]

theorem setHead {q x2} (h : Follows s₀ s) : Follows s₀ (s.setHead q x2) := h.modEth

theorem setDue {t d} (h : Follows s₀ s) : Follows s₀ (s.setDue t d) := by
  unfold State.setDue
  exact h.modEth

theorem headJudge {q} (h : Follows s₀ s) : Follows s₀ (s.headJudge q) := by
  unfold State.headJudge
  split
  · split
    · split
      exacts [h, h.setHead, h.setHead.launchDrop]
    · exact h
  · exact h

theorem ethTxItem {q} (h : Follows s₀ s) : Follows s₀ (Machine.ethTxItem q s) := by
  unfold Machine.ethTxItem
  split
  · exact h
  · split
    · exact h
    · extract_lets r u
      have hu : Follows s₀ u := h.qTakeHw
      split
      exacts [h.qTakeHw.txc.raise, .either hu.txc.raise (.either hu.txc.raise hu.setHead.headJudge)]

theorem ethSend {n kind f} (h : Follows s₀ s) : Follows s₀ (s.ethSend n kind f) := by
  unfold State.ethSend
  exact h.emit.txc.modEth

theorem ethGo {n c} (h : Follows s₀ s) : Follows s₀ (s.ethGo n c) := by
  unfold State.ethGo
  split
  · split
    exacts [h.setPtp.modEth.ethSend, h]
  · split
    exacts [.either h.setDue.txcAll.raise.transitFail (either h.setDue.modEth h.setDue).ethSend.txc, h]
  · split
    exacts [h.setHead.ethSend, h]

theorem dropLate {n} (h : Follows s₀ s) : Follows s₀ (s.dropLate n) := by
  unfold State.dropLate
  extract_lets u
  have hu : Follows s₀ u := by
    unfold u
    refine .fold (fun _ _ h1 => ?_) h
    split
    exacts [.either h1.setDue.launchDrop h1, h1]
  refine .fold (fun _ _ h1 => ?_) hu
  split
  exacts [.either h1.headJudge h1, h1]

theorem ethFrameStart {n} (h : Follows s₀ s) : Follows s₀ (Machine.ethFrameStart n s) := by
  unfold Machine.ethFrameStart
  split
  · exact h
  · extract_lets u
    have hu : Follows s₀ u := h.dropLate
    split
    · exact hu
    · extract_lets stop
      split
      exacts [.either (.either hu hu.txc.modEth) hu.ethGo, hu.ethGo]

theorem ethLinkChange {n up} (h : Follows s₀ s) : Follows s₀ (Machine.ethLinkChange n up s) := by
  unfold Machine.ethLinkChange
  split
  · exact h
  · extract_lets u v w
    have hu : Follows s₀ u := h.set.raise
    have hv : Follows s₀ v := hu.inc
    have hw : Follows s₀ w := by
      unfold w
      refine .fold (fun _ _ h1 => ?_) hv
      split
      exacts [.either h1.setHead.txc.raise h1, h1]
    split
    · exact hu
    · refine .fold (fun _ _ h1 => ?_) hw
      split
      exacts [.either h1.setDue h1, h1]

theorem pdSet {t e it seq launch} (h : Follows s₀ s) : Follows s₀ (s.pdSet t e it seq launch) := by
  unfold State.pdSet
  extract_lets u ports
  have hu : Follows s₀ u := by
    unfold u
    split
    exacts [h.txcAll, h]
  exact hu.setDue

theorem ethRelease {g} (h : Follows s₀ s) : Follows s₀ (s.ethRelease g) := by
  unfold State.ethRelease
  refine .fold (fun _ _ h1 => ?_) h
  split
  exacts [.either h1.pdSet h1, h1]

theorem pdTake {t} (h : Follows s₀ s) : Follows s₀ (Machine.pdTake t s) := by
  unfold Machine.pdTake
  split
  · extract_lets st may next cc go u g n r v good w x y
    have hv : Follows s₀ v := fold (fun _ _ h1 => h1.txcAll.raise) h.advance.qTakeAll
    have hw : Follows s₀ w := fold (fun _ _ h1 => h1.txcAll.raise) hv
    have hx : Follows s₀ x := fold (fun _ _ h1 => h1.txcAll) hw
    have hy : Follows s₀ y := by
      unfold y
      split
      exacts [hx.modEth, hx]
    split
    · exact h
    · split
      exacts [hy.pdSet, hy]
  · exact h

theorem pdLaunch {t} (h : Follows s₀ s) : Follows s₀ (s.pdLaunch t) := by
  unfold State.pdLaunch
  split
  · exact .either h (.either h.advance.setDue.txcAll
      (.either h.advance.setDue.launchDrop (.fold (fun _ _ h3 => .either h3.ethFrameStart h3) h.advance.setDue)))
  · exact h

theorem headLaunch {q} (h : Follows s₀ s) : Follows s₀ (s.headLaunch q) := by
  unfold State.headLaunch
  split
  · split
    exacts [.either h h.advanceTod.headJudge.ethFrameStart, h]
  · exact h

theorem ethProgramStart (h : Follows s₀ s) : Follows s₀ s.ethProgramStart := h.modEth
theorem ethCntclr (h : Follows s₀ s) : Follows s₀ (Machine.ethCntclr s) :=
  fold (fun _ _ h3 => h3.set) h.zeroRegs.set

/-! ### Ixs -/

theorem setCon {c v} (h : Follows s₀ s) : Follows s₀ (s.setCon c v) := h.other
theorem setIxState {c st} (h : Follows s₀ s) : Follows s₀ (s.setIxState c st) :=
  (either (either h.set (.either h.set h)).set (.either (either h.set (.either h.set h)).set (.either h.set (.either h.set h)))).set
theorem ixDeliver {c d flags tstamp ssn data} (h : Follows s₀ s) : Follows s₀ (s.ixDeliver c d flags tstamp ssn data) :=
  either h h.qCommitHw

theorem ixFail {c d cause} (h : Follows s₀ s) : Follows s₀ (s.ixFail c d cause) := by
  unfold State.ixFail
  extract_lets k ssn u ack v w x y
  have hu : Follows s₀ u := h.setIxState.set.set.inc
  have hv : Follows s₀ v := either hu.set hu
  have hw : Follows s₀ w := hv.raise.report
  have hx : Follows s₀ x := either hw.raise hw
  have hy : Follows s₀ y := hx.setCon
  exact hy.ixDeliver

theorem ixRejoin {c d} (h : Follows s₀ s) : Follows s₀ (s.ixRejoin c d) :=
  either h.setCon.setIxState.raise.report h
theorem ixReject {c} (h : Follows s₀ s) : Follows s₀ (s.ixReject c) := either h h.set
theorem ixCheckErr {c d} (h : Follows s₀ s) : Follows s₀ (s.ixCheckErr c d) :=
  either h.inc.raise.inc.ixReject.setCon.raise.ixFail h.inc.raise.inc.ixReject.setCon

theorem ixAccept {c d m} (h : Follows s₀ s) : Follows s₀ (s.ixAccept c d m) := by
  unfold State.ixAccept
  extract_lets k dd data valid u near v w x y first k1 z
  have hu : Follows s₀ u := either h.incBy h
  have hv : Follows s₀ v := hu.set
  have hw : Follows s₀ w := hv.setCon
  have hx : Follows s₀ x := hw.offer
  have hy : Follows s₀ y := by
    unfold y
    exact .either hx (either hx.inc hx).ixRejoin
  have hz : Follows s₀ z := either hy.setCon hy
  exact hz.ixDeliver

theorem ixCheckMsg {c d m} (h : Follows s₀ s) : Follows s₀ (s.ixCheckMsg c d m) := by
  unfold State.ixCheckMsg
  extract_lets k dd valid u
  have hu : Follows s₀ u := h.inc.raise.ixReject
  split
  · exact h.ixCheckErr
  · split
    · exact h.ixCheckErr
    · split
      · exact .either hu.ixFail hu
      · split
        · exact h
        · exact .either h.inc.raise (.either h.inc.raise.ixReject (.either h.inc.raise.ixReject (.either h.inc.raise.ixReject h.ixAccept)))

theorem ixsMessageRx {q} (h : Follows s₀ s) : Follows s₀ (Machine.ixsMessageRx q s) := by
  unfold Machine.ixsMessageRx
  extract_lets g r
  split
  · exact h
  · split
    · exact h.qTakeHw
    · extract_lets b key
      split
      · split
        exacts [h.qTakeHw.ixCheckMsg, h.qTakeHw]
      · exact h.qTakeHw

theorem ixTime {c} (h : Follows s₀ s) : Follows s₀ (s.ixTime c) := by
  unfold State.ixTime
  split
  exacts [.either h (.either h (.either h.ixFail h.ixReject)), h]

theorem ixTimeAll (h : Follows s₀ s) : Follows s₀ s.ixTimeAll := fold (fun _ _ h1 => h1.ixTime) h
theorem ixTimeGroup {g} (h : Follows s₀ s) : Follows s₀ (s.ixTimeGroup g) :=
  fold (fun _ _ h1 => .either h1.ixTime h1) h

theorem ixProgramStart (h : Follows s₀ s) : Follows s₀ s.ixProgramStart := by
  unfold State.ixProgramStart
  refine .fold (fun _ _ h1 => ?_) h
  split
  exacts [.either h1.setIxState.set.set.set.setCon (.either h1.set h1), h1]

theorem ixInit (h : Follows s₀ s) : Follows s₀ s.ixInit := by
  unfold State.ixInit
  refine .fold (fun _ _ h1 => ?_) h
  split
  exacts [.either h1 h1.setIxState, h1]

theorem ixFollow (h : Follows s₀ s) : Follows s₀ s.ixFollow := by
  unfold State.ixFollow
  split
  · exact h
  · refine .fold (fun _ _ h1 => ?_) h
    split
    exacts [.either h1.set h1, h1]

theorem ixsAck {v} (h : Follows s₀ s) : Follows s₀ (Machine.ixsAck v s) := by
  unfold Machine.ixsAck
  extract_lets c
  split
  exacts [.either h h.set.ixRejoin, h]

theorem ixsErrWindow {c} (h : Follows s₀ s) : Follows s₀ (Machine.ixsErrWindow c s) := by
  unfold Machine.ixsErrWindow
  split
  exacts [.either h h.advance.setCon.set, h]

theorem ixsCntclr (h : Follows s₀ s) : Follows s₀ (Machine.ixsCntclr s) := h.zeroRegs
theorem ixLost {c} (h : Follows s₀ s) : Follows s₀ (s.ixLost c) := h.inc.raise

theorem ixsProducerItem {c} (h : Follows s₀ s) : Follows s₀ (Machine.ixsProducerItem c s) := by
  unfold Machine.ixsProducerItem
  split
  · split
    · exact h
    · extract_lets r k ssn u q
      have hu : Follows s₀ u := h.qTakeHw.set.set.setCon
      split
      exacts [h.qTakeHw.ixLost, .either h.qTakeHw.ixLost (.either hu.ixLost (.either hu.qCommitHw hu.qCommitHw.ixLost))]
  · exact h

theorem ixBound {g} (h : Follows s₀ s) : Follows s₀ (s.ixBound g) := by
  unfold State.ixBound
  refine .fold (fun _ _ h1 => ?_) h
  split
  exacts [.either h1.setGrp.set.set h1, h1]

/-! ### Can -/

theorem canc {n i} (h : Follows s₀ s) : Follows s₀ (s.canc n i) := either h.inc h.inc
theorem setBit {f b} (h : Follows s₀ s) : Follows s₀ (s.setBit f b) := h.set
theorem clrBit {f b} (h : Follows s₀ s) : Follows s₀ (s.clrBit f b) := either h.set h
theorem canFree {n b free} (h : Follows s₀ s) : Follows s₀ (s.canFree n b free) := h.setCan
theorem tbDrop {n b} (h : Follows s₀ s) : Follows s₀ (s.tbDrop n b) := h.clrBit.clrBit.canFree
theorem tbJudge {n b} (h : Follows s₀ s) : Follows s₀ (s.tbJudge n b) :=
  either h (.either h.tbDrop.launchDrop h.canFree)
theorem tbPend {n b launch chk stamp} (h : Follows s₀ s) : Follows s₀ (s.tbPend n b launch chk stamp) :=
  either h.setCan.setBit.setBit h.setCan.setBit.tbJudge

theorem headJudgeCan {n} (h : Follows s₀ s) : Follows s₀ (s.headJudgeCan n) := by
  unfold State.headJudgeCan
  split
  exacts [h.setCan.txqJudge, h]

theorem canJudgeHeld {n} (h : Follows s₀ s) : Follows s₀ (s.canJudgeHeld n) := by
  unfold State.canJudgeHeld
  extract_lets u
  have hu : Follows s₀ u := fold (fun _ _ h1 => .either h1 h1.tbJudge) h
  exact .either hu hu.headJudgeCan

theorem canJudge {n} (h : Follows s₀ s) : Follows s₀ (s.canJudge n) :=
  headJudgeCan (.fold (fun _ _ h1 => .either h1 h1.tbJudge) h)
theorem canIdle {n} (h : Follows s₀ s) : Follows s₀ (s.canIdle n) := either h.set.set.canJudge h.set.set
theorem canLatch {n e it} (h : Follows s₀ s) : Follows s₀ (s.canLatch n e it) :=
  h.wrBytes.setCan.presNew.offerItem

theorem canFrameRx {n f} (h : Follows s₀ s) : Follows s₀ (Machine.canFrameRx n f s) := by
  unfold Machine.canFrameRx
  split
  · exact h
  · extract_lets u c r v w x y len idw
    have hu : Follows s₀ u := h.canIdle
    have hv : Follows s₀ v := either hu.free hu
    have hw : Follows s₀ w := hv.setCan.set.set
    have hx : Follows s₀ x := either hu (.either hw.set.raise hw)
    have hy : Follows s₀ y := hx.canc
    split
    · exact hx.canc
    · split
      · exact hy.canc
      · extract_lets w1 w2 act it z g q
        have hz : Follows s₀ z := either hy.canLatch hy
        exact .either hy (.either (.either hz.canc.raise.report (.either hz.qCommitItem hz.qCommitItem.canc.raise)) hz)

theorem canRxqRelease {who n m v} (h : Follows s₀ s) : Follows s₀ (Machine.canRxqRelease who n m v s) := by
  unfold Machine.canRxqRelease
  split
  · exact h
  · extract_lets g bit u
    have hu : Follows s₀ u := either h.inc h
    exact .either hu.qReleaseSw hu

theorem canTxreq {n v} (h : Follows s₀ s) : Follows s₀ (Machine.canTxreq n v s) :=
  either h (.fold (fun _ _ h1 => .either (.either h1.tbPend h1.canc.raise) h1) h)
theorem tbLoad {n b it launch} (h : Follows s₀ s) : Follows s₀ (s.tbLoad n b it launch) :=
  (either h.canc h).wrBytes.tbPend

theorem canSupplyItem {n b} (h : Follows s₀ s) : Follows s₀ (Machine.canSupplyItem n b s) := by
  unfold Machine.canSupplyItem
  extract_lets g r
  split
  · exact h
  · split
    exacts [h.qTakeHw.canc.raise, .either h.qTakeHw.canc.raise h.qTakeHw.tbLoad]

theorem tbRelease {n b it launch} (h : Follows s₀ s) : Follows s₀ (s.tbRelease n b it launch) :=
  either h.setCan h.tbLoad
theorem canRelease {g} (h : Follows s₀ s) : Follows s₀ (s.canRelease g) :=
  fold (fun _ _ h1 => .either h1 (.fold (fun _ _ h2 => .either h2.tbRelease h2) h1)) h

theorem txqPop {n} (h : Follows s₀ s) : Follows s₀ (s.txqPop n) := by
  unfold State.txqPop
  split
  exacts [h.qPop, h]

theorem candDrop {n b} (h : Follows s₀ s) : Follows s₀ (s.candDrop n b) := either h.tbDrop h.txqPop

theorem candFail {n b} (h : Follows s₀ s) : Follows s₀ (s.candFail n b) := by
  unfold State.candFail
  extract_lets u
  have hu : Follows s₀ u := by
    unfold u
    split
    · exact h.tbDrop.transitFail
    · split
      exacts [h.qDiscard.qPop, h]
  exact hu.canc.raise

theorem canPick {n k} (h : Follows s₀ s) : Follows s₀ (s.canPick n k).1 := by
  induction k generalizing s with
  | zero => exact h
  | succ k ih =>
    unfold State.canPick
    split
    · exact h
    · split
      · exact ih h.candFail
      · split
        · exact ih h.candDrop.canc.raise
        · split
          exacts [ih h.candDrop.canc, h]

theorem tbNext {n b} (h : Follows s₀ s) : Follows s₀ (s.tbNext n b) := by
  unfold State.tbNext
  extract_lets c
  split
  exacts [h.setCan.tbLoad, h]

theorem canFails {n} (h : Follows s₀ s) : Follows s₀ (s.canFails n) := by
  unfold State.canFails
  extract_lets c u
  have hu : Follows s₀ u := h.setCan
  split
  · extract_lets v
    have hv : Follows s₀ v := either hu.tbDrop.setBit.raise hu
    exact .either hv.tbNext hv
  · exact h

theorem canArbitration {n won tdcv} (h : Follows s₀ s) : Follows s₀ (Machine.canArbitration n won tdcv s) := by
  unfold Machine.canArbitration
  split
  · exact h
  · split
    · exact .either h h.canFails
    · extract_lets u r v k
      have hu : Follows s₀ u := h.canIdle
      have hv : Follows s₀ v := hu.canPick
      split
      · exact hu
      · split
        exacts [hu.canPick, .either hv (.either (.either hv.setCan.set.canc hv.setCan.set) hv.setCan)]

theorem canTxComplete {n} (h : Follows s₀ s) : Follows s₀ (Machine.canTxComplete n s) := by
  unfold Machine.canTxComplete
  extract_lets c t
  split
  · split
    · exact h
    · extract_lets bytes u v w x y z
      have hu : Follows s₀ u := h.emit.canc.raise
      have hv : Follows s₀ v := hu.setCan.set
      have hw : Follows s₀ w := either hv.set.raise hv
      have hx : Follows s₀ x := hw.tbDrop.setBit
      have hy : Follows s₀ y := either hx.setBit hx
      have hz : Follows s₀ z := either hy.tbNext hw.txqPop
      exact hz.canIdle
  · exact h

theorem canTxcan {n v} (h : Follows s₀ s) : Follows s₀ (Machine.canTxcan n v s) :=
  either h (.fold (fun _ _ h1 => .either (.either h1.setCan h1.tbDrop.setBit.raise) h1) h)

theorem canFlush {n} (h : Follows s₀ s) : Follows s₀ (Machine.canFlush n s) := by
  unfold Machine.canFlush
  split
  exacts [.either h (.qPut (.fold (fun _ _ h1 => h1.canc) h)), h]

theorem canGoOff {n} (h : Follows s₀ s) : Follows s₀ (s.canGoOff n) :=
  either h.set.report.set.set.set h.set.report.set.set

theorem canError {n kind tx add} (h : Follows s₀ s) : Follows s₀ (Machine.canError n kind tx add s) := by
  unfold Machine.canError
  split
  · exact h
  · extract_lets u v c c1 w x y
    have hu : Follows s₀ u := h.set
    have hv : Follows s₀ v := hu.canc
    have hw : Follows s₀ w := hv.setCan
    have hx : Follows s₀ x := hw.set.set.set
    have hy : Follows s₀ y := either hx.canFails hx
    exact .either hv.set.canFails (.either hy.canFails.canGoOff.raise (.either hy.set.raise hy))

theorem canRecover {n} (h : Follows s₀ s) : Follows s₀ (Machine.canRecover n s) := either h.set h
theorem canBusoffEnd {n} (h : Follows s₀ s) : Follows s₀ (Machine.canBusoffEnd n s) :=
  either h h.setCan.set.set.set.set.set.set.raise.raise.report.canJudge
theorem canModeWrite {n v} (h : Follows s₀ s) : Follows s₀ (Machine.canModeWrite n v s) := either h h.set
theorem filterLineRestore {n line} (h : Follows s₀ s) : Follows s₀ (Machine.filterLineRestore n line s) :=
  either h (.other (.fold (fun _ _ h1 => .either h1.wr8 h1) h))
theorem canCntClr {n} (h : Follows s₀ s) : Follows s₀ (Machine.canCntClr n s) := h.zeroRegs
theorem canFollow (h : Follows s₀ s) : Follows s₀ s.canFollow :=
  ixFollow (.fold (fun _ _ h1 => .either h1 (.either h1.set (.either (.either h1 h1.canJudgeHeld) h1.setCan.set))) h)

theorem canLaunch {n b} (h : Follows s₀ s) : Follows s₀ (s.canLaunch n b) := by
  unfold State.canLaunch
  split
  · exact h
  · split
    · split
      exacts [h.advance.tbJudge, h]
    · exact .either h.advanceTod.tbJudge h.advanceTod.headJudgeCan

theorem launch {x0} (h : Follows s₀ s) : Follows s₀ (Machine.launch x0 s) := by
  unfold Machine.launch
  split
  · exact h
  · split
    exacts [h.headLaunch, h.pdLaunch, h.canLaunch, h.canLaunch]

theorem rejudge (h : Follows s₀ s) : Follows s₀ s.rejudge := by
  unfold State.rejudge
  extract_lets u
  have hu : Follows s₀ u := by
    unfold u
    refine .fold (fun _ _ h1 => ?_) h
    split
    exacts [.either h1 h1.headJudge, h1]
  exact .fold (fun _ _ h1 => .either h1.canJudgeHeld h1) hu

theorem setTod {new} (h : Follows s₀ s) : Follows s₀ (s.setTod new) := h.stepTod.rejudge

/-! ### Mode -/

theorem announce (h : Follows s₀ s) : Follows s₀ s.announce := either h.emit h

theorem scpQueue {k unsol} (h : Follows s₀ s) : Follows s₀ (s.scpQueue k unsol) := by
  unfold State.scpQueue
  extract_lets k1 k2 u
  have hu : Follows s₀ u := by
    unfold u
    split
    · exact h.other
    · split
      all_goals exact h.other
  exact hu.announce

theorem notice {code data} (h : Follows s₀ s) : Follows s₀ (s.notice code data) := h.other.scpQueue

theorem deliver {o k} (h : Follows s₀ s) : Follows s₀ (s.deliver o k) := by
  unfold State.deliver
  split
  · exact h.scpQueue
  · exact .fold (fun _ _ h1 => h1.emit) h
  · extract_lets n b u v k1 w
    have hu : Follows s₀ u := h.wrBytes
    have hv : Follows s₀ v := hu.set.set.set
    have hw : Follows s₀ w := hv.other
    split
    exacts [hw.set.raise, hw.raise]
  · extract_lets n b u v k1 w
    have hu : Follows s₀ u := h.wrBytes
    have hv : Follows s₀ v := hu.set.set.set
    have hw : Follows s₀ w := hv.other
    split
    all_goals exact hw.set.raise

theorem setLast {o l} (h : Follows s₀ s) : Follows s₀ (s.setLast o l) := h.other

theorem longEnd {status payload} (h : Follows s₀ s) : Follows s₀ (s.longEnd status payload) := by
  unfold State.longEnd
  split
  exacts [h.other.setLast.deliver, h]

theorem stateChange {new cause src inst} (h : Follows s₀ s) : Follows s₀ (s.stateChange new cause src inst) :=
  either h.other.report.raise h.other.report.raise.notice
theorem tlOff (h : Follows s₀ s) : Follows s₀ s.tlOff := either h h.set.set.setMembers.other
theorem outputsRelease (h : Follows s₀ s) : Follows s₀ s.outputsRelease := h.releaseAll.doSafetyOff
theorem freezePairs (h : Follows s₀ s) : Follows s₀ s.freezePairs :=
  fold (fun _ _ h1 => .either h1.modPair h1) h

theorem pfDiscard {p} (h : Follows s₀ s) : Follows s₀ (s.pfDiscard p) := by
  unfold State.pfDiscard
  split
  exacts [.other (.fold (fun _ _ h1 => h1.inc.raise.report) h), h]

theorem lrbDusk (h : Follows s₀ s) : Follows s₀ s.lrbDusk :=
  other (.set (.set (.fold (fun _ _ h1 => h1.pfDiscard) h)))

theorem enterDusk {cause} (h : Follows s₀ s) : Follows s₀ (s.enterDusk cause) := by
  unfold State.enterDusk
  split
  exacts [h, h, h, h.other.freezePairs.ghStop.doSafetyOff.releaseAll.tlOff.lrbDusk.report.stateChange.longEnd.notice.canFollow]

/-! ### Vdx -/

theorem setStack {p l} (h : Follows s₀ s) : Follows s₀ (s.setStack p l) := h.other
theorem setCommitted {p v} (h : Follows s₀ s) : Follows s₀ (s.setCommitted p v) := h.other

theorem wakePair {p rank} (h : Follows s₀ s) : Follows s₀ (s.wakePair p rank) := by
  unfold State.wakePair
  extract_lets charge u k v w k1
  have hu : Follows s₀ u := h.other.set
  have hv : Follows s₀ v := h.other.set
  have hw : Follows s₀ w := hv.inc
  split
  exacts [hu.other, hw.other, h]

theorem commitSource {p n} (h : Follows s₀ s) : Follows s₀ (s.commitSource p n) :=
  (either h.set.set.set h.set.set.set.set).setStack.setCommitted.wakePair

theorem reapply {n} (h : Follows s₀ s) : Follows s₀ (s.reapply n) := by
  unfold State.reapply
  split
  exacts [h.set, h, h.set.other]

theorem completeSource {p n} (h : Follows s₀ s) : Follows s₀ (s.completeSource p n) :=
  either h.setStack.set.reapply h.inc.set.report
theorem sourceQualified {li level} (h : Follows s₀ s) : Follows s₀ (Machine.sourceQualified li level s) :=
  either h (.either h.other.arrive.set h.other.lineFalls)

theorem vectorCommit {p} (h : Follows s₀ s) : Follows s₀ (Machine.vectorCommit p s) := by
  unfold Machine.vectorCommit
  split
  · split
    exacts [h.commitSource, h]
  · exact h

theorem vdxComplete {p v} (h : Follows s₀ s) : Follows s₀ (Machine.vdxComplete p v s) :=
  either h.completeSource h.absentAccess
theorem vdxSwtrig {v} (h : Follows s₀ s) : Follows s₀ (Machine.vdxSwtrig v s) := either h.raise h.inc

theorem srccfgApply {n v} (h : Follows s₀ s) : Follows s₀ (s.srccfgApply n v) := by
  unfold State.srccfgApply
  extract_lets u mode line w x k
  have hu : Follows s₀ u := h.setReg
  have hw : Follows s₀ w := hu.set
  have hx : Follows s₀ x := either hw.set hw
  exact .either hx hx.other

theorem vdxSrccfgWrite {n v} (h : Follows s₀ s) : Follows s₀ (Machine.vdxSrccfgWrite n v s) :=
  either h.inc (.either h.inc.report h.srccfgApply)
theorem vdxMaskWrite {n v} (h : Follows s₀ s) : Follows s₀ (Machine.vdxMaskWrite n v s) := h.set
theorem cntClr {n} (h : Follows s₀ s) : Follows s₀ (Machine.cntClr n s) := h.set
theorem vdxStrayClr {p} (h : Follows s₀ s) : Follows s₀ (Machine.vdxStrayClr p s) := either h.set h.absentAccess
theorem vdxDiagClr (h : Follows s₀ s) : Follows s₀ (Machine.vdxDiagClr s) := h.set

/-! ### Hx -/

theorem saveCtx {p n} (h : Follows s₀ s) : Follows s₀ (s.saveCtx p n) := h.setTask

theorem toIdle {p} (h : Follows s₀ s) : Follows s₀ (s.toIdle p) := by
  unfold State.toIdle
  exact h.modPair

theorem takeSave {p pc} (h : Follows s₀ s) : Follows s₀ (s.takeSave p pc) := by
  unfold State.takeSave
  split
  exacts [h.setTask.setUnit, h]

theorem scanStart {e n t} (h : Follows s₀ s) : Follows s₀ (s.scanStart e n t) := h.setEng.set.set.set

theorem tryOpen {u} (h : Follows s₀ s) : Follows s₀ (s.tryOpen u) := by
  unfold State.tryOpen
  extract_lets k q v
  have hv : Follows s₀ v := h.takeSave
  split
  · exact h
  · split
    · exact h
    · split
      · split
        exacts [.either h h.setUnit.scanStart, h]
      · split
        · split
          · extract_lets w k1 x k2 y z
            have hw : Follows s₀ w := hv.modPair
            have hx : Follows s₀ x := hw.setUnit
            have hy : Follows s₀ y := hx.setTask
            have hz : Follows s₀ z := either hy.raise.report hy
            exact .either hz.raise.report hz
          · exact h
        · exact h

theorem partStop {p} (h : Follows s₀ s) : Follows s₀ (s.partStop p) := by
  unfold State.partStop
  extract_lets u k k1 v
  have hu : Follows s₀ u := h.set.raise.report
  have hv : Follows s₀ v := hu.other
  split
  exacts [.either hv.enterDusk hv, hv]

theorem faulted {p} (h : Follows s₀ s) : Follows s₀ (s.faulted p) := by
  unfold State.faulted
  extract_lets u
  have hu : Follows s₀ u := h.inc
  split
  exacts [.either hu.partStop hu, hu]

theorem taskIdle {n} (h : Follows s₀ s) : Follows s₀ (s.taskIdle n) := h.setTask

theorem abandon {n why} (h : Follows s₀ s) : Follows s₀ (s.abandon n why) := by
  unfold State.abandon
  extract_lets u
  have hu : Follows s₀ u := h.inc.raise.report.taskIdle
  split
  exacts [.either hu hu.faulted, hu]

theorem freshWork {n t} (h : Follows s₀ s) : Follows s₀ (s.freshWork n t) := h.other
theorem commitWork {n t} (h : Follows s₀ s) : Follows s₀ (s.commitWork n t) := h.other

theorem completed {n} (h : Follows s₀ s) : Follows s₀ (s.completed n) := by
  unfold State.completed
  extract_lets u v w
  have hu : Follows s₀ u := h.execStop
  have hv : Follows s₀ v := either hu.set hu
  have hw : Follows s₀ w := hv.taskIdle
  split
  exacts [hw.set, hw]

theorem sleep {p} (h : Follows s₀ s) : Follows s₀ (s.sleep p) := either (.either h.set (.either h.set h)) h

theorem slackDrop {p} (h : Follows s₀ s) : Follows s₀ (s.slackDrop p) := by
  unfold State.slackDrop
  split
  exacts [.either h h.modPair.setUnit, h]

theorem slackStart {p} (h : Follows s₀ s) : Follows s₀ (s.slackStart p) := by
  unfold State.slackStart
  extract_lets u k q
  have hu : Follows s₀ u := h.slackDrop
  split
  exacts [.either hu.modPair.setUnit.setTask hu, hu]

theorem settle {u} (h : Follows s₀ s) : Follows s₀ (s.settle u) := by
  unfold State.settle
  split
  · exact h
  · extract_lets v k
    have hv : Follows s₀ v := h.tryOpen
    split
    · exact hv
    · split
      · split
        exacts [.either hv hv.toIdle.slackStart.sleep, hv.toIdle.slackStart.sleep]
      · exact hv.slackStart.sleep

theorem stopPair {p n keep} (h : Follows s₀ s) : Follows s₀ (s.stopPair p n keep) :=
  either h (.either h.saveCtx (.either (.either h.setUnit.takeSave h.setUnit) h))
theorem parkLater {p} (h : Follows s₀ s) : Follows s₀ (s.parkLater p) := either h h.modPair

theorem slackPause {p} (h : Follows s₀ s) : Follows s₀ (s.slackPause p) := by
  unfold State.slackPause
  split
  exacts [h.execStop.stopPair.parkLater.setTask.setUnit, h]

theorem scanStop {e} (h : Follows s₀ s) : Follows s₀ (s.scanStop e) := h.setEng.set

theorem budgetOver {u} (h : Follows s₀ s) : Follows s₀ (s.budgetOver u) := by
  unfold State.budgetOver
  extract_lets k n
  split
  · exact h
  · extract_lets v k1 w x y k2 c z u1 k3
    have hv : Follows s₀ v := h.unstage
    have hw : Follows s₀ w := hv.setUnit
    have hx : Follows s₀ x := hw.execStop
    have hy : Follows s₀ y := either hx.parkLater hx
    have hz : Follows s₀ z := hy.inc.report.raise
    have hu1 : Follows s₀ u1 := either hz.scanStop hz
    split
    · exact hw
    · split
      · exact .either (.either hy.setTask.stopPair hy.setTask) (.either (.either hu1.setTask.stopPair hu1.setTask) hu1.abandon)
      · exact hy

theorem dispatch {n t d u} (h : Follows s₀ s) (e : s.dispatch n t d = some u) : Follows s₀ u := by
  unfold State.dispatch at e
  extract_lets c v fresh at e
  have hf : Follows s₀ fresh := either h.setTask h.setTask.freshWork
  split at e
  · cases e; exact either hf h.setTask
  · split at e
    · cases e; exact either h.setTask hf
    · split at e
      · cases e; exact h.setTask
      · cases e

theorem beginWin {w m d u opened ended} (h : Follows s₀ s) : Follows s₀ (s.beginWin w m d u opened ended) :=
  h.setUnit

theorem windowStart {w} (h : Follows s₀ s) : Follows s₀ (Machine.windowStart w s) := by
  unfold Machine.windowStart
  split
  · exact h
  · split
    · exact h
    · next d _ t _ =>
      extract_lets m u x st a b miss c
      have ha : Follows s₀ a := h.advance
      have hb : Follows s₀ b := ha.budgetOver.slackPause
      refine either h (either ?_ (either hb.beginWin.settle (either hb.beginWin.raise.report.abandon.settle ?_)))
      · split
        exacts [ha.unstage.beginWin, ha]
      · split
        · next v e => exact either (hb.dispatch e).beginWin.tryOpen (hb.dispatch e).beginWin.settle
        · exact hb.beginWin.settle

theorem budgetEnd {u} (h : Follows s₀ s) : Follows s₀ (Machine.budgetEnd u s) :=
  either h.advance.budgetOver.settle h

theorem slackQuantumEnd {p} (h : Follows s₀ s) : Follows s₀ (Machine.slackQuantumEnd p s) := by
  unfold Machine.slackQuantumEnd
  split
  exacts [.either h h.advance.slackPause.settle, h]

theorem dropPreload {p} (h : Follows s₀ s) : Follows s₀ (s.dropPreload p) := h.modPair.setUnit

theorem reclaim {p} (h : Follows s₀ s) : Follows s₀ (s.reclaim p) := by
  unfold State.reclaim
  extract_lets q
  split
  exacts [.either h h.modPair.raise.report, h]

theorem loadWin {p w} (h : Follows s₀ s) : Follows s₀ (s.loadWin p w) := by
  unfold State.loadWin
  split
  exacts [h.modPair.setUnit, h]

theorem loadSlack {p} (h : Follows s₀ s) : Follows s₀ (s.loadSlack p) := by
  unfold State.loadSlack
  extract_lets u k
  have hu : Follows s₀ u := h.slackDrop
  split
  · exact hu
  · split
    exacts [hu.modPair.setUnit, hu]

theorem preloadStart {p} (h : Follows s₀ s) : Follows s₀ (Machine.preloadStart p s) := by
  unfold Machine.preloadStart
  split
  · exact h
  · split
    · split
      · exact h.loadSlack
      · extract_lets u
        have hu : Follows s₀ u := either h.dropPreload h
        exact .either hu.loadWin hu.advance.reclaim.loadWin
    · exact h.loadSlack

theorem preloadDone {p} (h : Follows s₀ s) : Follows s₀ (Machine.preloadDone p s) := by
  unfold Machine.preloadDone
  extract_lets q k sb
  split
  · exact h
  · split
    · split
      exacts [(either h.modPair.raise.report h.modPair).tryOpen, h.dropPreload]
    · split
      exacts [.either h.modPair.slackStart h, h]

theorem saveDone {p b} (h : Follows s₀ s) : Follows s₀ (Machine.saveDone p b s) := either h.modPair h
theorem bankSwitch {p} (h : Follows s₀ s) : Follows s₀ (Machine.bankSwitch p s) :=
  either h.advance.tryOpen h.slackStart
theorem endHere {p} (h : Follows s₀ s) : Follows s₀ (s.endHere p) := (either h.setUnit h.setUnit).settle
theorem retire {p} (h : Follows s₀ s) : Follows s₀ (s.retire p) := h.modPair

theorem done {p} (h : Follows s₀ s) : Follows s₀ (Machine.done p s) := by
  unfold Machine.done
  split
  · extract_lets k inTime u v
    have hu : Follows s₀ u := h.retire
    have hv : Follows s₀ v := by
      unfold v
      split
      exacts [.either hu hu.commitWork, hu]
    exact .either h hv.completed.endHere
  · exact h

theorem cycleInfo {p} (h : Follows s₀ s) : Follows s₀ (Machine.cycleInfo p s) := by
  unfold Machine.cycleInfo
  split
  exacts [.either h (either h.free h).modPair.callRet, h]

theorem abortAct {p n} (h : Follows s₀ s) : Follows s₀ (s.abortAct p n) := by
  unfold State.abortAct
  extract_lets u v k w x
  have hu : Follows s₀ u := h.execStop
  have hv : Follows s₀ v := hu.inc.raise.report
  have hw : Follows s₀ w := either hv.setUnit hv.setUnit
  have hx : Follows s₀ x := hw.taskIdle.modPair
  split
  exacts [hx.faulted, hx]

theorem abort {writer p} (h : Follows s₀ s) : Follows s₀ (Machine.abort writer p s) :=
  either h.absentAccess (.either h.report h.abortAct)

theorem bankRel {writer p} (h : Follows s₀ s) : Follows s₀ (Machine.bankRel writer p s) := by
  unfold Machine.bankRel
  split
  · exact h.absentAccess
  · split
    · exact h.report
    · split
      exacts [h.modPair, h]

theorem hxIdleWrite {p v} (h : Follows s₀ s) : Follows s₀ (Machine.hxIdleWrite p v s) :=
  either h.absentAccess (.either h.set h.report)
theorem hxTaskstatClr {t} (h : Follows s₀ s) : Follows s₀ (Machine.hxTaskstatClr t s) := h.setReg.setReg.setReg

theorem stopTasks {bg} (h : Follows s₀ s) : Follows s₀ (s.stopTasks bg) := by
  unfold State.stopTasks
  refine fold (fun _ _ h1 => either h1.settle h1)
    (fold (fun _ _ h1 => either h1.abandon (either h1.taskIdle h1)) (fold (fun t u h1 => ?_) h))
  have ht : Follows s₀ (if bg then t.slackPause u else t) := either h1.slackPause h1
  exact either (either (either ht.execStop.stopPair.setTask.setUnit ht) (setUnit (either ht.taskIdle.scanStop ht.taskIdle))) ht

/-! ### Pwr -/

theorem modPwr {f} (h : Follows s₀ s) : Follows s₀ (s.modPwr f) := h.other
theorem request {rank unit cost} (h : Follows s₀ s) : Follows s₀ (s.request rank unit cost) := either h h.modPwr

theorem ungateRequest {p} (h : Follows s₀ s) : Follows s₀ (Machine.ungateRequest p s) := by
  unfold Machine.ungateRequest
  split
  · split
    exacts [h.advance.request, h]
  · exact h

theorem pllRestartRequest {p} (h : Follows s₀ s) : Follows s₀ (Machine.pllRestartRequest p s) := by
  unfold Machine.pllRestartRequest
  extract_lets l
  split
  exacts [h.advance.request, h]

theorem grant {r} (h : Follows s₀ s) : Follows s₀ (s.grant r) := by
  unfold State.grant
  extract_lets u k
  have hu : Follows s₀ u := h.modPwr
  split
  exacts [.either hu.set.modPwr hu, .either hu.set.inc.modPwr hu, hu.other, hu.modPwr]

theorem judge {avail l} (h : Follows s₀ s) : Follows s₀ (s.judge avail l) := by
  induction l generalizing s avail with
  | nil => exact h
  | cons r l ih =>
    unfold State.judge
    exact either (ih h.grant) (either h (either (ih h.grant) h))

theorem arbitrationWindow {measured settled} (h : Follows s₀ s) : Follows s₀ (Machine.arbitrationWindow measured settled s) := by
  unfold Machine.arbitrationWindow
  split
  · exact h
  · extract_lets u v w unsettled x y z
    have hv : Follows s₀ v := by
      unfold v
      split
      exacts [h.advance.set.modPwr, h.advance]
    have hx : Follows s₀ x := hv.modPwr.judge
    have hy : Follows s₀ y := either hx hx.inc
    exact fold (fun _ _ h1 => h1.inc.raise) hy.modPwr

theorem burstEnd {unit} (h : Follows s₀ s) : Follows s₀ (s.burstEnd unit) := h.modPwr
theorem pllLocked {p} (h : Follows s₀ s) : Follows s₀ (Machine.pllLocked p s) :=
  either h.advance.set.modPwr.tryOpen h
theorem clockFault {clock} (h : Follows s₀ s) : Follows s₀ (s.clockFault clock) := h.raise.report.enterDusk
theorem clockCheck {ppm} (h : Follows s₀ s) : Follows s₀ (Machine.clockCheck ppm s) := either h.clockFault h
theorem pllLockLost {clock} (h : Follows s₀ s) : Follows s₀ (Machine.pllLockLost clock s) :=
  either h.clockFault h
theorem supSelfcheckFail (h : Follows s₀ s) : Follows s₀ (Machine.supSelfcheckFail s) := either h.enterDusk h
theorem supervisorMismatch (h : Follows s₀ s) : Follows s₀ (Machine.supervisorMismatch s) :=
  either h.enterDusk h
theorem budgetCheck {avg} (h : Follows s₀ s) : Follows s₀ (Machine.budgetCheck avg s) :=
  either h (.either h.set.inc.raise.report h.set)
theorem nightCapLow {vcap} (h : Follows s₀ s) : Follows s₀ (Machine.nightCapLow vcap s) :=
  either (.either h.set.raise h.set) h
theorem pwrArbcntClr (h : Follows s₀ s) : Follows s₀ (Machine.pwrArbcntClr s) := h.setReg
theorem copyCounters (h : Follows s₀ s) : Follows s₀ s.copyCounters := h.modPwr
theorem counterCopy (h : Follows s₀ s) : Follows s₀ (Machine.counterCopy s) := either h.copyCounters h
theorem optimeRead (h : Follows s₀ s) : Follows s₀ (Machine.optimeRead s) := h.modPwr

theorem nightValidClear (h : Follows s₀ s) : Follows s₀ (Machine.nightValidClear s) := by
  unfold Machine.nightValidClear
  exact either h.withClk h

theorem holdupEnter (h : Follows s₀ s) : Follows s₀ (Machine.holdupEnter s) := either h.set.raise.modPwr h

theorem supplyDip (h : Follows s₀ s) : Follows s₀ (Machine.supplyDip s) := by
  unfold Machine.supplyDip
  split
  exacts [.either h h.set.raise.report.modPwr, h]

theorem posChanged {pos} (h : Follows s₀ s) : Follows s₀ (Machine.posChanged pos s) :=
  (either h.report h).modPwr

/-! ### Pair -/

theorem leaveRack {p} (h : Follows s₀ s) : Follows s₀ (s.leaveRack p) := h.other
theorem completeAll {p} (h : Follows s₀ s) : Follows s₀ (s.completeAll p) :=
  fold (fun _ _ h1 => h1.completeSource) h

theorem abandonAndPark {p} (h : Follows s₀ s) : Follows s₀ (s.abandonAndPark p) := by
  unfold State.abandonAndPark
  extract_lets k u
  have hu : Follows s₀ u := by
    unfold u
    split
    exacts [h.setTask, h]
  exact hu.toIdle.settle

theorem trap {p cause tval} (h : Follows s₀ s) : Follows s₀ (s.trap p cause tval) := by
  unfold State.trap
  extract_lets q user pc u v
  have hu : Follows s₀ u := h.modPair.leaveRack
  have hv : Follows s₀ v := hu.report
  split
  · exact hu.modPair
  · split
    exacts [hv.abortAct.toIdle.settle, hv.completeAll.abandonAndPark]

theorem mretGo {p} (h : Follows s₀ s) : Follows s₀ (s.mretGo p) :=
  either h.modPair.settle (.either h.modPair (.either h.modPair.takeSave h.modPair.takeSave.settle))
theorem mret {p} (h : Follows s₀ s) : Follows s₀ (Machine.mret p s) := either h (.either h.trap h.mretGo)
theorem wfi {p} (h : Follows s₀ s) : Follows s₀ (Machine.wfi p s) :=
  either h (.either h.trap (.either h.modPair.takeSave (.either h.modPair.takeSave.toIdle.settle h.modPair.takeSave.settle)))

theorem vectorEntry {p} (h : Follows s₀ s) : Follows s₀ (Machine.vectorEntry p s) := by
  unfold Machine.vectorEntry
  split
  · exact h
  · extract_lets u q parked mepc v
    have hu : Follows s₀ u := either h.advance h
    have hv : Follows s₀ v := either hu.free hu
    exact .either hu hv.modPair.leaveRack.setCommitted

theorem thaw {p} (h : Follows s₀ s) : Follows s₀ (s.thaw p) := by
  unfold State.thaw
  extract_lets k dt u
  have hu : Follows s₀ u := h.modPair.setUnit
  split
  exacts [.either hu.execStart hu, hu]

theorem resumePair {p} (h : Follows s₀ s) : Follows s₀ (s.resumePair p) :=
  either h (.either h.thaw h.thaw.settle)
theorem ebreak {p} (h : Follows s₀ s) : Follows s₀ (Machine.ebreak p s) := either h (.either h.haltPair h.trap)
theorem triggerHit {p} (h : Follows s₀ s) : Follows s₀ (Machine.triggerHit p s) := either h.haltPair h
theorem writeVbase {p v} (h : Follows s₀ s) : Follows s₀ (s.writeVbase p v) := either h.modPair h.modPair.report

theorem csrWrite {p csr v} (h : Follows s₀ s) : Follows s₀ (s.csrWrite p csr v) := by
  unfold State.csrWrite
  extract_lets n fc
  split
  · exact h.modPair
  · exact h.modPair
  · exact h.modPair
  · exact h.modPair
  · exact h.modPair
  · exact h.modPair
  · exact h.modPair
  · exact h.modPair
  · exact h.modPair
  · exact h.modPair
  · exact h.modPair
  · exact h.modPair
  · exact h.modPair
  · exact h.modPair
  · exact h.modPair
  · exact h.modPair
  · exact h.modPair
  · exact h.writeVbase
  · exact h.modPair
  · exact h.modPair
  · exact h

theorem bankdatWrite {p v} (h : Follows s₀ s) : Follows s₀ (Machine.bankdatWrite p v s) :=
  either h (.either h.trap h.modPair)
theorem vbaseWrite {p v} (h : Follows s₀ s) : Follows s₀ (Machine.vbaseWrite p v s) :=
  either h (.either h.trap h.modPair.writeVbase)
theorem fenceWrite {p mask} (h : Follows s₀ s) : Follows s₀ (s.fenceWrite p mask) := either h.modPair h.modPair
theorem plxFenceDev {p} (h : Follows s₀ s) : Follows s₀ (Machine.plxFenceDev p s) := either h.fenceWrite h
theorem plxFenceLe {p} (h : Follows s₀ s) : Follows s₀ (Machine.plxFenceLe p s) := either h.fenceWrite h
theorem plxFenceQ {p} (h : Follows s₀ s) : Follows s₀ (Machine.plxFenceQ p s) := either h.fenceWrite h
theorem plxFenceHx {p} (h : Follows s₀ s) : Follows s₀ (Machine.plxFenceHx p s) := either h.fenceWrite h
theorem fenceComplete {p} (h : Follows s₀ s) : Follows s₀ (Machine.fenceComplete p s) := either h.modPair h
theorem pageFault {p tn va cause a} (h : Follows s₀ s) : Follows s₀ (s.pageFault p tn va cause a) :=
  h.set.set.trap
theorem resident {p tn va key} (h : Follows s₀ s) : Follows s₀ (s.resident p tn va key) :=
  either h.wsetResident h

theorem mapStop {p tn va a m} (h : Follows s₀ s) : Follows s₀ (s.mapStop p tn va a m) := by
  unfold State.mapStop
  split
  · exact h
  · split
    exacts [h.pageFault, h.wsetMark.pageFault, (either h.wsetMark h).stageMiss, h.askPage, h.resident, h]

theorem userAccess {p va a sel} (h : Follows s₀ s) : Follows s₀ (s.userAccess p va a sel) := by
  unfold State.userAccess
  split
  exacts [.either h.mapStop h, h]

theorem stageMissCommand {p va} (h : Follows s₀ s) : Follows s₀ (Machine.stageMiss p va s) := h.userAccess
theorem wsetViolation {p va} (h : Follows s₀ s) : Follows s₀ (Machine.wsetViolation p va s) := h.userAccess
theorem demandFill {p va} (h : Follows s₀ s) : Follows s₀ (Machine.demandFill p va s) := h.userAccess

theorem yield {p} (h : Follows s₀ s) : Follows s₀ (Machine.yield p s) := by
  unfold Machine.yield
  split
  · split
    · exact h
    · split
      exacts [.either h.retire.execStop.taskIdle.endHere h.trap, h]
  · exact h

theorem exceptionTrap {p cause tval} (h : Follows s₀ s) : Follows s₀ (Machine.exceptionTrap p cause tval s) := by
  unfold Machine.exceptionTrap
  split
  · exact h
  · extract_lets user va page
    split
    · exact .either h.userAccess h
    · exact .either h.userAccess h
    · exact .either h.userAccess h
    · exact .either h.trap h
    · exact .either h h.trap
    · exact h.trap
    · exact h.trap
    · exact h.trap
    · exact h.trap
    · exact h.trap
    · exact h.trap
    · exact h.trap
    · exact h.trap
    · exact h

/-! ### Lrb -/

theorem modLrb {f} (h : Follows s₀ s) : Follows s₀ (s.modLrb f) := h.other
theorem lrbCount {i} (h : Follows s₀ s) : Follows s₀ (s.lrbCount i) := h.inc
theorem lrbErr {out kind addr} (h : Follows s₀ s) : Follows s₀ (s.lrbErr out kind addr) := h.set.set.set
theorem semTouch {p addr} (h : Follows s₀ s) : Follows s₀ (s.semTouch p addr) := either h.set h

theorem pfOverlap {addr n} (h : Follows s₀ s) : Follows s₀ (s.pfOverlap addr n) := by
  unfold State.pfOverlap
  refine .fold (fun _ _ h1 => ?_) h
  split
  exacts [.either h1.pfDiscard h1, h1]

theorem rackReturn {p d v} (h : Follows s₀ s) : Follows s₀ (s.rackReturn p d v) := by
  unfold State.rackReturn
  exact h.modPair

theorem lrbNext {n} (h : Follows s₀ s) : Follows s₀ (s.lrbNext n) := by
  induction n generalizing s with
  | zero => exact h
  | succ n ih =>
    unfold State.lrbNext
    split
    · exact h
    · split
      · exact h.modLrb
      · split
        · exact h
        · extract_lets u
          have hu : Follows s₀ u := h.modLrb
          split
          · exact either hu.set.modLrb (ih hu.set.lrbCount.rackReturn)
          · exact hu.modLrb

theorem lrbGo (h : Follows s₀ s) : Follows s₀ s.lrbGo := h.lrbNext
theorem rackAccept {x} (h : Follows s₀ s) : Follows s₀ (s.rackAccept x) := h.modLrb.lrbGo
theorem rackRefuse {addr} (h : Follows s₀ s) : Follows s₀ (s.rackRefuse addr) := h.lrbCount.raise.lrbErr

theorem rackAccess {p addr size cause read e k} (h : Follows s₀ s) (he : ∀ u, Follows s₀ u → Follows s₀ (e u))
    (hk : ∀ u, Follows s₀ u → Follows s₀ (k u)) : Follows s₀ (s.rackAccess p addr size cause read e k) := by
  unfold State.rackAccess
  split
  · exact h
  · split
    · exact h.absentAccess.trap
    · split
      · exact (he _ h.rackRefuse)
      · split
        exacts [.either (hk _ h) (hk _ h.lrbCount.modLrb), (hk _ h)]

theorem rackStall {p read} (h : Follows s₀ s) : Follows s₀ (s.rackStall p read) := h.modPair
theorem rackTrap {p addr cause} (h : Follows s₀ s) : Follows s₀ (Machine.rackTrap p addr cause s) := h.trap

theorem pfOutside {p addr} (h : Follows s₀ s) : Follows s₀ (s.pfOutside p addr) := by
  unfold State.pfOutside
  split
  exacts [.either h h.pfDiscard, h]

theorem rackRead {p addr size d} (h : Follows s₀ s) : Follows s₀ (Machine.rackRead p addr size d s) := by
  unfold Machine.rackRead
  refine h.rackAccess (fun _ h1 => h1.rackTrap) fun _ h2 => ?_
  split
  · exact h2.modLrb.rackReturn
  · extract_lets hit u more
    have hu : Follows s₀ u := h2.pfDiscard
    split
    exacts [h2.modLrb.rackReturn, hu.rackStall.rackAccept]

theorem rackWrite {p addr size v len} (h : Follows s₀ s) : Follows s₀ (Machine.rackWrite p addr size v len s) :=
  h.rackAccess (fun _ h1 => h1.modPair) fun _ h2 => h2.modPair.rackAccept
theorem rackAmo {p addr dbl op v d} (h : Follows s₀ s) : Follows s₀ (Machine.rackAmo p addr dbl op v d s) :=
  h.rackAccess (fun _ h1 => h1.rackTrap) fun _ h2 => h2.pfOutside.rackStall.rackAccept
theorem lrW {p addr dbl d} (h : Follows s₀ s) : Follows s₀ (Machine.lrW p addr dbl d s) :=
  h.rackAccess (fun _ h1 => h1.rackTrap) fun _ h2 => h2.pfOutside.rackStall.rackAccept
theorem scW {p addr dbl v d} (h : Follows s₀ s) : Follows s₀ (Machine.scW p addr dbl v d s) :=
  h.rackAccess (fun _ h1 => h1.rackTrap) fun _ h2 => h2.rackStall.rackAccept

theorem lrbWithhold (h : Follows s₀ s) : Follows s₀ s.lrbWithhold := by
  unfold State.lrbWithhold
  split
  · split
    exacts [.either h.lrbCount.modLrb.lrbGo h, h]
  · exact h

theorem lrbHead {n} (h : Follows s₀ s) : Follows s₀ (s.lrbHead n) := by
  induction n generalizing s with
  | zero => exact h
  | succ n ih =>
    unfold State.lrbHead
    exact either h (ih h.lrbWithhold)

theorem openCycle (h : Follows s₀ s) : Follows s₀ s.openCycle := by
  unfold State.openCycle
  split
  · split
    · extract_lets u
      have hu : Follows s₀ u := by
        unfold u
        split
        exacts [.either h h.set.lrbCount, h]
      exact hu.modLrb.emit
    · exact h
  · exact h

theorem grantBoard {b} (h : Follows s₀ s) : Follows s₀ (s.grantBoard b) := h.set.set.modLrb

theorem rackGrant {reqs} (h : Follows s₀ s) : Follows s₀ (Machine.rackGrant reqs s) := by
  have hu {n} : Follows s₀ (s.lrbHead n) := h.lrbHead
  unfold Machine.rackGrant
  refine either h (either (either hu.grantBoard hu) (either ?_ ?_))
  · split
    exacts [either hu.lrbCount.set.grantBoard hu.lrbCount.raise.set.set.modLrb.openCycle, hu.set.set.modLrb.openCycle]
  · split
    exacts [hu.grantBoard, hu]

theorem lrbIdle (h : Follows s₀ s) : Follows s₀ s.lrbIdle := h.set.set.modLrb

theorem listItem {e got} (h : Follows s₀ s) : Follows s₀ (s.listItem e got) := by
  unfold State.listItem
  split
  exacts [h.lrbCount.offer.presNew, h]

theorem rackDone {x} (h : Follows s₀ s) : Follows s₀ (s.rackDone x) := by
  unfold State.rackDone
  extract_lets k n rest u v
  have hu : Follows s₀ u := either h h.modLrb
  have hv : Follows s₀ v := h.set.set.modLrb
  split
  exacts [.either hu.modLrb hu.rackReturn, .either h.modLrb hv.rackReturn.modPair, h.rackReturn, h.rackReturn, h, h.listItem, h]

theorem rackError {x kind addr} (h : Follows s₀ s) : Follows s₀ (s.rackError x kind addr) := by
  unfold State.rackError
  extract_lets done u v w
  have hv : Follows s₀ v := h.lrbCount.raise.lrbErr.report
  have hw : Follows s₀ w := by
    unfold w
    split
    exacts [either hv.report hv, hv.lrbCount.raise, hv.lrbCount.raise, hv]
  split
  exacts [hw, hw, hw, either hw hw.trap]

theorem rackOver (h : Follows s₀ s) : Follows s₀ s.rackOver := h.lrbIdle.modLrb.lrbGo

theorem cycleOk {x c data} (h : Follows s₀ s) : Follows s₀ (s.cycleOk x c data) := by
  unfold State.cycleOk
  extract_lets u v y z w
  have hu : Follows s₀ u := h.lrbCount
  have hv : Follows s₀ v := by
    refine either (pfOverlap ?_) hu
    split
    exacts [hu, hu.semTouch]
  exact either hv.rackDone.rackOver (either hv.modLrb.openCycle hv.modLrb.lrbIdle)

theorem cycleErr {x kind addr} (h : Follows s₀ s) : Follows s₀ (s.cycleErr x kind addr) := by
  unfold State.cycleErr
  split
  exacts [.either h.rackDone.rackOver h.rackError.rackOver, h.rackError.rackOver]

theorem boardViol (h : Follows s₀ s) : Follows s₀ s.boardViol := h.lrbCount.raise
theorem boardBerr (h : Follows s₀ s) : Follows s₀ s.boardBerr := h.emit
theorem boardEnd {lock} (h : Follows s₀ s) : Follows s₀ (s.boardEnd lock) := h.modLrb.set.set

theorem rackAck {dtack berr data slow lock} (h : Follows s₀ s) : Follows s₀ (Machine.rackAck dtack berr data slow lock s) := by
  unfold Machine.rackAck
  split
  · exact h
  · extract_lets u
    have hu : Follows s₀ u := either h.boardViol.modLrb h
    split
    · split
      exacts [.either hu.cycleErr hu.cycleOk, hu]
    · exact .either hu.boardEnd hu.boardViol

theorem lrbTimeout (h : Follows s₀ s) : Follows s₀ (Machine.lrbTimeout s) := by
  unfold Machine.lrbTimeout
  split
  exacts [.either (.either h.advance.cycleErr.set h.advance.cycleErr) h, h]

theorem rackInbound {c tchk} (h : Follows s₀ s) : Follows s₀ (Machine.rackInbound c tchk s) := by
  unfold Machine.rackInbound
  split
  · exact h
  · split
    · exact h.boardBerr.boardEnd
    · split
      · exact h.modLrb
      · split
        · exact h.boardViol.lrbErr.boardBerr.boardEnd
        · exact .either (.either h.lrbCount.lrbCount.raise.lrbErr.boardBerr.boardEnd
            (either h.lrbCount.wrBytes (.either h.lrbCount.wr8 h.lrbCount.wr8)).unreserve.pfOverlap.boardEnd) h.lrbCount.emit.boardEnd

theorem boardCycleTimeout (h : Follows s₀ s) : Follows s₀ (Machine.boardCycleTimeout s) := by
  unfold Machine.boardCycleTimeout
  split
  exacts [.either h.advance.boardViol.boardBerr.boardEnd h, h]

theorem lrbLockHog (h : Follows s₀ s) : Follows s₀ (Machine.lrbLockHog s) := by
  unfold Machine.lrbLockHog
  split
  exacts [.either h.advance.boardViol.boardBerr.report.boardEnd h, h]

theorem prefetchAge {p} (h : Follows s₀ s) : Follows s₀ (Machine.prefetchAge p s) := by
  unfold Machine.prefetchAge
  split
  exacts [h.advance.pfDiscard, h]

theorem listDue {x} (h : Follows s₀ s) : Follows s₀ (s.listDue x) := h.modLrb.lrbGo

theorem rackReadList {e} (h : Follows s₀ s) : Follows s₀ (Machine.rackReadList e s) := by
  unfold Machine.rackReadList
  split
  exacts [.either h.advance.listDue h, h]

theorem rackWriteList {k} (h : Follows s₀ s) : Follows s₀ (Machine.rackWriteList k s) := by
  unfold Machine.rackWriteList
  split
  · refine .fold (fun _ _ h1 => ?_) h
    split
    exacts [.either h1.listDue h1, h1]
  · exact h

theorem lrbCntclr (h : Follows s₀ s) : Follows s₀ (Machine.lrbCntclr s) := either h.zeroRegs h.absentAccess
theorem semaphoreExpiry (h : Follows s₀ s) : Follows s₀ (Machine.semaphoreExpiry s) := either h.advance.set h

/-! ### Img -/

theorem loadBank {e b t} (h : Follows s₀ s) : Follows s₀ (s.loadBank e b t) := by
  unfold State.loadBank
  split
  · exact h
  · exact set (setEng (h.unpoison.withMem fun k => memLoad_wf _ _ _ _ _ (memClear_wf _ _ _ k)))

theorem declareTimer {e n d} (h : Follows s₀ s) : Follows s₀ (s.declareTimer e n d) := either h h.wrBytes
theorem activateBank {e b} (h : Follows s₀ s) : Follows s₀ (s.activateBank e b) :=
  raise (.fold (fun _ _ h3 => h3.declareTimer) (either h.set h).set.set.set)

/-! ### Operands -/

theorem engPut {e a v} (h : Follows s₀ s) : Follows s₀ (s.engPut e a v) := h.setEng.wr8
theorem pairPut {e a v} (h : Follows s₀ s) : Follows s₀ (s.pairPut e a v) := either h h.setEng.wr8

theorem engPuts {e a l} (h : Follows s₀ s) : Follows s₀ (s.engPuts e a l) := by
  induction l generalizing s a with
  | nil => exact h
  | cons v l ih => exact ih h.engPut

theorem pairPuts {e a l} (h : Follows s₀ s) : Follows s₀ (s.pairPuts e a l) := by
  induction l generalizing s a with
  | nil => exact h
  | cons v l ih => exact ih h.pairPut

theorem leWrite {e sp a l} (h : Follows s₀ s) : Follows s₀ (s.leWrite e sp a l) := either h.setEng h.engPuts

theorem leAt {e o a n align write ea k} (h : Follows s₀ s) (hk : ∀ x0, LeOut.From s₀ (k x0)) : LeOut.From s₀
    (s.leAt e o a n align write ea k) := by
  unfold State.leAt
  split
  · exact h
  · split
    exacts [h, (hk _)]

theorem leBit {e o k} (h : Follows s₀ s) (hk : ∀ x0, LeOut.From s₀ (k x0)) : LeOut.From s₀ (s.leBit e o k) := by
  unfold State.leBit
  split
  exacts [(hk _), h.leAt fun _ => (hk _)]

theorem lePutBit {e o v} (h : Follows s₀ s) : LeOut.From s₀ (s.lePutBit e o v) := by
  unfold State.lePutBit
  extract_lets ea
  refine h.leAt fun _ => ?_
  split
  exacts [h.leWrite, h]

theorem leWordOp {e o k} (h : Follows s₀ s) (hk : ∀ x0, LeOut.From s₀ (k x0)) : LeOut.From s₀ (s.leWordOp e o k) := by
  unfold State.leWordOp
  split
  exacts [(hk _), h.leAt fun _ => (hk _)]

theorem lePutWord {e o v} (h : Follows s₀ s) : LeOut.From s₀ (s.lePutWord e o v) := by
  unfold State.lePutWord
  refine h.leAt fun a => ?_
  exact h.leWrite

theorem leRecord {e o k} (h : Follows s₀ s) (hk : ∀ x0, LeOut.From s₀ (k x0)) : LeOut.From s₀ (s.leRecord e o k) :=
  h.leAt fun _ => (hk _)
theorem setLa {e v} (h : Follows s₀ s) : Follows s₀ (s.setLa e v) := h.set
theorem setWa {e v} (h : Follows s₀ s) : Follows s₀ (s.setWa e v) := h.setEng

/-! ### Flags -/

theorem setLeFlag {e f} (h : Follows s₀ s) : Follows s₀ (s.setLeFlag e f) := either h h.set.raise
theorem waSat {e i} (h : Follows s₀ s) : Follows s₀ (s.waSat e i) := (either h.setLeFlag h).setWa
theorem waDiv {e op} (h : Follows s₀ s) : Follows s₀ (s.waDiv e op) := either h.setLeFlag.setWa h.waSat
theorem waMod {e op} (h : Follows s₀ s) : Follows s₀ (s.waMod e op) := either h.setLeFlag.setWa h.setWa

/-! ### Le -/

theorem leMemErr {e a} (h : Follows s₀ s) : Follows s₀ (s.leMemErr e a) := by
  unfold State.leMemErr
  extract_lets o line
  split
  · split
    exacts [h.wrBytes.unpoison, h]
  · exact .either h.wrBytes.unpoison h

theorem leTrap {e code ea} (h : Follows s₀ s) : Follows s₀ (s.leTrap e code ea) := by
  unfold State.leTrap
  extract_lets g n b k u v w x y k1 z
  have hu : Follows s₀ u := h.set.set.inc
  have hv : Follows s₀ v := hu.set.set.set
  have hw : Follows s₀ w := hv.raise.report
  have hx : Follows s₀ x := hw.execStop.scanStop
  have hy : Follows s₀ y := hx.inc.raise.report
  have hz : Follows s₀ z := hy.setUnit.taskIdle
  split
  exacts [hz.faulted, hz]

theorem leDepths {e} (h : Follows s₀ s) : Follows s₀ (s.leDepths e) := h.set.set

theorem leFinish {e cost r} (h : LeOut.From s₀ r) : Follows s₀ (State.leFinish e cost r) := by
  cases r with
  | next u => exact (show Follows s₀ u from h).setEng.leDepths
  | goto u pc => exact (show Follows s₀ u from h).setEng.leDepths
  | trap u code ea => exact (show Follows s₀ u from h).leTrap
  | memErr u ea a => exact (show Follows s₀ u from h).leTrap.leMemErr
  | done u => exact h

theorem leRun {e opc o cost f} (h : Follows s₀ s) (hf : ∀ u, Follows s₀ u → LeOut.From s₀ (f u)) : Follows s₀ (s.leRun e opc o cost f) := by
  unfold State.leRun
  exact either (either h.advance.leTrap (either (leFinish (hf _ h.advance)) h)) h

theorem leBitOp {e opc o f} (h : Follows s₀ s) : Follows s₀ (s.leBitOp e opc o f) :=
  h.leRun fun _ h1 => h1.leBit fun _ => h1.setLa

theorem leOpen {e opc o op} (h : Follows s₀ s) : Follows s₀ (s.leOpen e opc o op) := by
  unfold State.leOpen
  refine h.leRun fun _ h1 => h1.leBit fun _ => ?_
  extract_lets g
  split
  exacts [h1, h1.setEng.setLa]

theorem leEdge {e opc o f} (h : Follows s₀ s) : Follows s₀ (s.leEdge e opc o f) := by
  refine h.leRun fun u hu => hu.leBit fun b => ?_
  have hp : LeOut.From s₀ (u.lePutBit e o (some (u.la e))) := hu.lePutBit
  dsimp only
  split
  · next v hv => exact (hp.next hv).setLa
  · exact hp

theorem leNop {e} (h : Follows s₀ s) : Follows s₀ (Machine.leNop e s) := h.leRun fun _ h1 => h1
theorem leLd {e o} (h : Follows s₀ s) : Follows s₀ (Machine.leLd e o s) := h.leBitOp
theorem leLdn {e o} (h : Follows s₀ s) : Follows s₀ (Machine.leLdn e o s) := h.leBitOp
theorem leSt {e o} (h : Follows s₀ s) : Follows s₀ (Machine.leSt e o s) := h.leRun fun _ h1 => h1.lePutBit
theorem leStn {e o} (h : Follows s₀ s) : Follows s₀ (Machine.leStn e o s) := h.leRun fun _ h1 => h1.lePutBit
theorem leS {e o} (h : Follows s₀ s) : Follows s₀ (Machine.leS e o s) := h.leRun fun _ h1 => h1.lePutBit
theorem leR {e o} (h : Follows s₀ s) : Follows s₀ (Machine.leR e o s) := h.leRun fun _ h1 => h1.lePutBit
theorem leAnd {e o} (h : Follows s₀ s) : Follows s₀ (Machine.leAnd e o s) := h.leBitOp
theorem leAndn {e o} (h : Follows s₀ s) : Follows s₀ (Machine.leAndn e o s) := h.leBitOp
theorem leOr {e o} (h : Follows s₀ s) : Follows s₀ (Machine.leOr e o s) := h.leBitOp
theorem leOrn {e o} (h : Follows s₀ s) : Follows s₀ (Machine.leOrn e o s) := h.leBitOp
theorem leXor {e o} (h : Follows s₀ s) : Follows s₀ (Machine.leXor e o s) := h.leBitOp
theorem leXorn {e o} (h : Follows s₀ s) : Follows s₀ (Machine.leXorn e o s) := h.leBitOp
theorem leNot {e} (h : Follows s₀ s) : Follows s₀ (Machine.leNot e s) := h.leRun fun _ h1 => h1.setLa
theorem leAndBr {e o} (h : Follows s₀ s) : Follows s₀ (Machine.leAndBr e o s) := h.leOpen
theorem leAndnBr {e o} (h : Follows s₀ s) : Follows s₀ (Machine.leAndnBr e o s) := h.leOpen
theorem leOrBr {e o} (h : Follows s₀ s) : Follows s₀ (Machine.leOrBr e o s) := h.leOpen
theorem leOrnBr {e o} (h : Follows s₀ s) : Follows s₀ (Machine.leOrnBr e o s) := h.leOpen
theorem leXorBr {e o} (h : Follows s₀ s) : Follows s₀ (Machine.leXorBr e o s) := h.leOpen
theorem leXornBr {e o} (h : Follows s₀ s) : Follows s₀ (Machine.leXornBr e o s) := h.leOpen

theorem leClose {e} (h : Follows s₀ s) : Follows s₀ (Machine.leClose e s) := by
  unfold Machine.leClose
  refine h.leRun fun _ h1 => ?_
  split
  exacts [h1.setEng.setLa, h1]

theorem leEp {e o} (h : Follows s₀ s) : Follows s₀ (Machine.leEp e o s) := h.leEdge
theorem leEn {e o} (h : Follows s₀ s) : Follows s₀ (Machine.leEn e o s) := h.leEdge
theorem setLeTimer {e a t} (h : Follows s₀ s) : Follows s₀ (s.setLeTimer e a t) := h.engPuts

theorem leTime {e opc typ o} (h : Follows s₀ s) : Follows s₀ (s.leTime e opc typ o) := by
  unfold State.leTime
  refine h.leRun fun _ h1 => ?_
  extract_lets a pt t
  split
  · exact h1
  · split
    exacts [h1, h1.setLeTimer.setLa]

theorem leTon {e o} (h : Follows s₀ s) : Follows s₀ (Machine.leTon e o s) := h.leTime
theorem leTof {e o} (h : Follows s₀ s) : Follows s₀ (Machine.leTof e o s) := h.leTime
theorem leTp {e o} (h : Follows s₀ s) : Follows s₀ (Machine.leTp e o s) := h.leTime

theorem leTrd {e o} (h : Follows s₀ s) : Follows s₀ (Machine.leTrd e o s) := by
  unfold Machine.leTrd
  refine h.leRun fun _ h1 => ?_
  extract_lets a
  split
  exacts [h1, h1.setWa]

theorem setCv {e a v} (h : Follows s₀ s) : Follows s₀ (s.setCv e a v) := h.leWrite
theorem setEdge {e a bit v} (h : Follows s₀ s) : Follows s₀ (s.setEdge e a bit v) := h.leWrite
theorem leCount {e opc o bit d q} (h : Follows s₀ s) : Follows s₀ (s.leCount e opc o bit d q) :=
  h.leRun fun _ h1 => h1.leRecord fun _ => h1.setCv.setEdge.setLa
theorem leCtu {e o} (h : Follows s₀ s) : Follows s₀ (Machine.leCtu e o s) := h.leCount
theorem leCtd {e o} (h : Follows s₀ s) : Follows s₀ (Machine.leCtd e o s) := h.leCount
theorem leCtld {e o} (h : Follows s₀ s) : Follows s₀ (Machine.leCtld e o s) :=
  h.leRun fun _ h1 => h1.leRecord fun _ => either h1.setCv h1
theorem leCtrd {e o} (h : Follows s₀ s) : Follows s₀ (Machine.leCtrd e o s) :=
  h.leRun fun _ h1 => h1.leRecord fun _ => h1.setWa

theorem leWordRun {e opc cost o f} (h : Follows s₀ s) (hf : ∀ u x1, Follows s₀ u → Follows s₀ (f u x1)) : Follows s₀
    (s.leWordRun e opc cost o f) :=
  h.leRun fun _ h1 => h1.leWordOp fun _ => (hf _ _ h1)

theorem leLdw {e o} (h : Follows s₀ s) : Follows s₀ (Machine.leLdw e o s) := h.leWordRun fun _ _ h1 => h1.setWa
theorem leStw {e o} (h : Follows s₀ s) : Follows s₀ (Machine.leStw e o s) := h.leRun fun _ h1 => h1.lePutWord
theorem leAdd {e o} (h : Follows s₀ s) : Follows s₀ (Machine.leAdd e o s) := h.leWordRun fun _ _ h1 => h1.waSat
theorem leSub {e o} (h : Follows s₀ s) : Follows s₀ (Machine.leSub e o s) := h.leWordRun fun _ _ h1 => h1.waSat
theorem leMul {e o} (h : Follows s₀ s) : Follows s₀ (Machine.leMul e o s) := h.leWordRun fun _ _ h1 => h1.waSat
theorem leDiv {e o} (h : Follows s₀ s) : Follows s₀ (Machine.leDiv e o s) := h.leWordRun fun _ _ h1 => h1.waDiv
theorem leMod {e o} (h : Follows s₀ s) : Follows s₀ (Machine.leMod e o s) := h.leWordRun fun _ _ h1 => h1.waMod
theorem leAndw {e o} (h : Follows s₀ s) : Follows s₀ (Machine.leAndw e o s) :=
  h.leWordRun fun _ _ h1 => h1.setWa
theorem leOrw {e o} (h : Follows s₀ s) : Follows s₀ (Machine.leOrw e o s) := h.leWordRun fun _ _ h1 => h1.setWa
theorem leXorw {e o} (h : Follows s₀ s) : Follows s₀ (Machine.leXorw e o s) :=
  h.leWordRun fun _ _ h1 => h1.setWa
theorem leShl {e o} (h : Follows s₀ s) : Follows s₀ (Machine.leShl e o s) := h.leWordRun fun _ _ h1 => h1.setWa
theorem leShr {e o} (h : Follows s₀ s) : Follows s₀ (Machine.leShr e o s) := h.leWordRun fun _ _ h1 => h1.setWa
theorem leAsr {e o} (h : Follows s₀ s) : Follows s₀ (Machine.leAsr e o s) := h.leWordRun fun _ _ h1 => h1.setWa
theorem leGtw {e o} (h : Follows s₀ s) : Follows s₀ (Machine.leGtw e o s) := h.leWordRun fun _ _ h1 => h1.setLa
theorem leGew {e o} (h : Follows s₀ s) : Follows s₀ (Machine.leGew e o s) := h.leWordRun fun _ _ h1 => h1.setLa
theorem leEqw {e o} (h : Follows s₀ s) : Follows s₀ (Machine.leEqw e o s) := h.leWordRun fun _ _ h1 => h1.setLa
theorem leNew {e o} (h : Follows s₀ s) : Follows s₀ (Machine.leNew e o s) := h.leWordRun fun _ _ h1 => h1.setLa
theorem leLtw {e o} (h : Follows s₀ s) : Follows s₀ (Machine.leLtw e o s) := h.leWordRun fun _ _ h1 => h1.setLa
theorem leLew {e o} (h : Follows s₀ s) : Follows s₀ (Machine.leLew e o s) := h.leWordRun fun _ _ h1 => h1.setLa
theorem leLdx {e o} (h : Follows s₀ s) : Follows s₀ (Machine.leLdx e o s) := h.leWordRun fun _ _ h1 => h1.setEng

theorem leCallTo {e o} (h : Follows s₀ s) : LeOut.From s₀ (s.leCallTo e o) := by
  unfold State.leCallTo
  extract_lets g
  split
  exacts [h, h.setEng]

theorem leJmp {e o} (h : Follows s₀ s) : Follows s₀ (Machine.leJmp e o s) := h.leRun fun _ h1 => h1

theorem leJmpc {e o} (h : Follows s₀ s) : Follows s₀ (Machine.leJmpc e o s) := by
  unfold Machine.leJmpc
  refine h.leRun fun _ h1 => ?_
  split
  all_goals exact h1

theorem leJmpcn {e o} (h : Follows s₀ s) : Follows s₀ (Machine.leJmpcn e o s) := by
  unfold Machine.leJmpcn
  refine h.leRun fun _ h1 => ?_
  split
  all_goals exact h1

theorem leCal {e o} (h : Follows s₀ s) : Follows s₀ (Machine.leCal e o s) := h.leRun fun _ h1 => h1.leCallTo

theorem leCalc {e o} (h : Follows s₀ s) : Follows s₀ (Machine.leCalc e o s) := by
  unfold Machine.leCalc
  refine h.leRun fun _ h1 => ?_
  split
  exacts [h1.leCallTo, h1]

theorem leRet {e} (h : Follows s₀ s) : Follows s₀ (Machine.leRet e s) := by
  unfold Machine.leRet
  refine h.leRun fun _ h1 => ?_
  split
  exacts [h1.setEng, h1]

theorem leSendq {e o} (h : Follows s₀ s) : Follows s₀ (Machine.leSendq e o s) :=
  h.leRun fun _ h1 => h1.qCommitHw.setLa

theorem leRecvq {e o} (h : Follows s₀ s) : Follows s₀ (Machine.leRecvq e o s) := by
  unfold Machine.leRecvq
  refine h.leRun fun _ h1 => ?_
  extract_lets g r
  split
  · exact h1.setLa
  · split
    exacts [h1.qTakeHw.setWa.setLa, h1.qTakeHw.raise.setLa]

theorem leCommit {e t} (h : Follows s₀ s) : Follows s₀ (s.leCommit e t) :=
  fold (fun _ _ h1 => h1.other.engPut) h

theorem leEnd {e} (h : Follows s₀ s) : Follows s₀ (Machine.leEnd e s) := by
  unfold Machine.leEnd
  refine h.leRun fun _ h1 => ?_
  extract_lets g n
  split
  · exact h
  · split
    · exact h1
    · extract_lets cost fin u k v k1 w k2
      have hu : Follows s₀ u := h1.advance.leCommit
      have hv : Follows s₀ v := hu.setEng.set
      have hw : Follows s₀ w := hv.set.setTask.completed
      split
      exacts [h, hw.setUnit.raise]

theorem bankReady {e} (h : Follows s₀ s) : Follows s₀ (Machine.bankReady e s) := by
  unfold Machine.bankReady
  split
  · split
    exacts [h.loadBank.set.raise, h]
  · exact h

theorem leLineRestore {e line} (h : Follows s₀ s) : Follows s₀ (Machine.leLineRestore e line s) := by
  unfold Machine.leLineRestore
  dsimp only
  split
  · split
    exacts [either (unpoison (h.withMem (memLoad_wf _ _ _ _ _))) h, h]
  · exact h

theorem leTrapClr {e} (h : Follows s₀ s) : Follows s₀ (Machine.leTrapClr e s) := either h.set h.absentAccess

/-! ### Cmp -/

theorem pairFails {p code words} (h : Follows s₀ s) : Follows s₀ (s.pairFails p code words) :=
  h.modPair.report.enterDusk
theorem pairMismatch {p grp lane lead trail} (h : Follows s₀ s) : Follows s₀ (Machine.pairMismatch p grp lane lead trail s) :=
  either h.pairFails h
theorem leFails {e code words} (h : Follows s₀ s) : Follows s₀ (s.leFails e code words) :=
  h.setEng.report.enterDusk
theorem leMismatch {e grp lane lead trail} (h : Follows s₀ s) : Follows s₀ (Machine.leMismatch e grp lane lead trail s) :=
  either h.leFails h
theorem cmpTestDue {u} (h : Follows s₀ s) : Follows s₀ (Machine.cmpTestDue u s) :=
  either (.either h.advance.modPair h.advance.set) h
theorem cmpTestOverdue {u} (h : Follows s₀ s) : Follows s₀ (Machine.cmpTestOverdue u s) :=
  either (.either h.advance.raise.report.modPair h.advance.raise.report.setEng) h
theorem pairTest {p} (h : Follows s₀ s) : Follows s₀ (s.pairTest p) := h.modPair
theorem leTest {e} (h : Follows s₀ s) : Follows s₀ (s.leTest e) := h.setEng.set
theorem cmpSelftest {p} (h : Follows s₀ s) : Follows s₀ (Machine.cmpSelftest p s) := either h.pairTest h
theorem leCmpSelftest {e} (h : Follows s₀ s) : Follows s₀ (Machine.leCmpSelftest e s) := either h.leTest h
theorem testPassed {u} (h : Follows s₀ s) : Follows s₀ (s.testPassed u) := either h.modPair h.setEng.set.inc.set

theorem cmpSelftestEnd {u fail} (h : Follows s₀ s) : Follows s₀ (Machine.cmpSelftestEnd u fail s) := by
  unfold Machine.cmpSelftestEnd
  split
  · exact h
  · extract_lets v
    have hv : Follows s₀ v := h.advance
    split
    exacts [.either hv.pairFails hv.leFails, hv.testPassed.leaveExcluded.tryOpen.settle]

/-! ### Vars -/

theorem userPut {part va b} (h : Follows s₀ s) : Follows s₀ (s.userPut part va b) := by
  unfold State.userPut
  split
  exacts [h.wr8.unreserve.modPage, h]

theorem userWrite {part va l} (h : Follows s₀ s) : Follows s₀ (s.userWrite part va l) := by
  induction l generalizing s va with
  | nil => exact h
  | cons b l ih => exact ih h.userPut

theorem putVar {v ofs data} (h : Follows s₀ s) : Follows s₀ (s.putVar v ofs data) := by
  unfold State.putVar
  extract_lets d
  split
  exacts [h.userWrite, h.wrBytes, h.wrBytes, h]

theorem longDone {opc status data} (h : Follows s₀ s) : Follows s₀ (s.longDone opc status data) := by
  unfold State.longDone
  split
  exacts [.either h.other h, h]

theorem applyForces {space g} (h : Follows s₀ s) : Follows s₀ (s.applyForces space g) := by
  unfold State.applyForces
  extract_lets mine new gone l k u v
  have hu : Follows s₀ u := h.other
  have hv : Follows s₀ v := either hu.longDone hu
  exact .either hv.longDone hv

theorem layForce {v value} (h : Follows s₀ s) : Follows s₀ (s.layForce v value) := h.other
theorem liftForce {ident} (h : Follows s₀ s) : Follows s₀ (s.liftForce ident) := h.other
theorem layWrite {v ofs data} (h : Follows s₀ s) : Follows s₀ (s.layWrite v ofs data) := h.other

theorem layChange {ident w} (h : Follows s₀ s) : Follows s₀ (s.layChange ident w) := by
  unfold State.layChange
  split
  · split
    exacts [h.layForce, h]
  · exact h.liftForce
  · split
    exacts [h.layWrite, h]

theorem takeProps {g} (h : Follows s₀ s) : Follows s₀ (s.takeProps g) :=
  fold (fun _ _ h2 => .either h2.layChange h2.longDone) h.other
theorem putBlock {b l} (h : Follows s₀ s) : Follows s₀ (s.putBlock b l) := either h.userWrite h.wrBytes

theorem putSync {g x} (h : Follows s₀ s) : Follows s₀ (s.putSync g x) := by
  unfold State.putSync
  split
  · split
    exacts [h.putBlock, h]
  · exact h.setLeTimer
  · exact h.setGrp.set.other

/-! ### Cycle -/

theorem startCycles (h : Follows s₀ s) : Follows s₀ s.startCycles := either h h.setCyc.noteCycTod.ghStart
theorem stopCycles (h : Follows s₀ s) : Follows s₀ s.stopCycles := h.other.ghStop
theorem lateSaves (h : Follows s₀ s) : Follows s₀ s.lateSaves := other (.fold (fun _ _ h1 => h1.report) h)

theorem frameBegin (h : Follows s₀ s) : Follows s₀ s.frameBegin := by
  unfold State.frameBegin
  extract_lets t u service counting k v w x y z u1 k1 k2
  have hu : Follows s₀ u := h.lateSaves
  have hv : Follows s₀ v := hu.other
  have hw : Follows s₀ w := either hv.set hv
  have hx : Follows s₀ x := hu.other
  have hy : Follows s₀ y := hx.set
  have hz : Follows s₀ z := either hy.set hy
  have hu1 : Follows s₀ u1 := either (.either hw.set hw) (.either (.either hz.longDone hz) hu)
  split
  exacts [.either hu1.other hu1, hu1]

theorem startSources (h : Follows s₀ s) : Follows s₀ s.startSources := h.other

theorem timerStart {start count} (h : Follows s₀ s) : Follows s₀ (s.timerStart start count) :=
  either h.advance.setCyc.startSources.timerCycle.tmbCycle.raise.ixTimeAll.frameBegin
    h.advance.setCyc.startSources.timerCycle.tmbCycle.raise.ixTimeAll

theorem gheifCycleStart (h : Follows s₀ s) : Follows s₀ (Machine.gheifCycleStart s) := by
  unfold Machine.gheifCycleStart
  split
  · exact h
  · split
    exacts [h.timerStart, .either h.advance.engineCycle h.timerStart]

theorem verifySource {kind id} (h : Follows s₀ s) : Follows s₀ (s.verifySource kind id) := by
  unfold State.verifySource
  dsimp only
  split
  exacts [h, setSource (fold (fun _ _ h1 => h1.transitFail) h)]

theorem verifyGroup {g} (h : Follows s₀ s) : Follows s₀ (s.verifyGroup g) :=
  fold (fun _ _ h1 => h1.verifySource) h

theorem freeze {g} (h : Follows s₀ s) : Follows s₀ (Machine.freeze g s) := by
  unfold Machine.freeze
  split
  · exact h
  · extract_lets m t u k v w k1 x n k2 y z
    have hu : Follows s₀ u := h.advance.ixTimeGroup.verifyGroup
    have hv : Follows s₀ v := hu.setGrp
    have hw : Follows s₀ w := hv.takeProps.applyForces
    have hx : Follows s₀ x := either hw.setGrp hw
    have hy : Follows s₀ y := hx.setGrp
    have hz : Follows s₀ z := hy.tlClear
    exact .either h (.either hz.tlGroupFrame hz)

theorem pruneVersions (h : Follows s₀ s) : Follows s₀ s.pruneVersions := h.other
theorem leInput {e g} (h : Follows s₀ s) : Follows s₀ (s.leInput e g) := either h.unpoison.wrBytes h
theorem publish {g img} (h : Follows s₀ s) : Follows s₀ (s.publish g img) :=
  h.setGrp.other.leInput.leInput.pruneVersions
theorem agrPub {g} (h : Follows s₀ s) : Follows s₀ (Machine.agrPub g s) :=
  either h (.either h.advance.tlFlush (.either h.advance.tlFlush.publish h.advance.tlFlush.publish))

theorem zeroRegions {g} (h : Follows s₀ s) : Follows s₀ (s.zeroRegions g) := by
  unfold State.zeroRegions
  extract_lets mine u k
  have hu : Follows s₀ u := by
    unfold u
    refine .fold (fun _ _ h1 => ?_) h
    split
    exacts [h1.other, h1]
  exact hu.other

theorem doWrites {g} (h : Follows s₀ s) : Follows s₀ (s.doWrites g) := by
  unfold State.doWrites
  extract_lets now k u
  have hu : Follows s₀ u := h.other
  refine .fold (fun _ _ h1 => ?_) hu
  split
  exacts [h1.putVar.longDone, h1.longDone]

theorem snapshots {g} (h : Follows s₀ s) : Follows s₀ (s.snapshots g) :=
  either h (.either h.other (either h h.request).other)

theorem donate {g} (h : Follows s₀ s) : Follows s₀ (s.donate g) := by
  unfold State.donate
  split
  exacts [.either (.either h.other (.fold (fun _ _ h2 => h2.tlSeq) h.other)) h, h]

theorem join {g} (h : Follows s₀ s) : Follows s₀ (s.join g) := by
  unfold State.join
  extract_lets y u z _ v
  have hv : Follows s₀ v := other (fold (fun _ _ h1 => h1.putSync) h)
  exact either (either (other hv.set) hv) h

theorem sendOut {g} (h : Follows s₀ s) : Follows s₀ (s.sendOut g) :=
  tlGroupFrame (.fold (fun _ _ h3 => h3.setLease) (.fold (fun _ _ h1 => h1.setLease) h))

theorem outLatch {g} (h : Follows s₀ s) : Follows s₀ (Machine.outLatch g s) := by
  unfold Machine.outLatch
  split
  · exact h
  · exact .either h (either h.advance.zeroRegions.doWrites.applyForces.setGrp.snapshots.sendOut
      h.advance.zeroRegions.doWrites.applyForces.setGrp.snapshots).donate.join

theorem voteComplete {g seen} (h : Follows s₀ s) : Follows s₀ (Machine.voteComplete g seen s) :=
  either h.voteCompletes h
theorem holdAll {g} (h : Follows s₀ s) : Follows s₀ (s.holdAll g) :=
  either h (.fold (fun _ _ h1 => .either h1 h1.setLease.set.set.set.set.raise) h)

theorem outGo {g} (h : Follows s₀ s) : Follows s₀ (Machine.outGo g s) := by
  unfold Machine.outGo
  split
  · exact h
  · exact .either h (.canRelease (.ethRelease
      (.ghRelease (.doOutGo (.ixBound (.holdAll (.fold (fun _ _ h2 => h2.leaseDue) h.advance.tlFlush)))))))

theorem setPresence {kind id st miss rejoin} (h : Follows s₀ s) : Follows s₀ (s.setPresence kind id st miss rejoin) := by
  unfold State.setPresence
  extract_lets k k1 u k2
  have hu : Follows s₀ u := by
    unfold u
    split
    exacts [h.set.set.set, h.setSource]
  exact hu.setSource

theorem stationEvent {kind id back} (h : Follows s₀ s) : Follows s₀ (s.stationEvent kind id back) := by
  unfold State.stationEvent
  extract_lets u
  have hu : Follows s₀ u := h.report
  split
  exacts [hu.raise, hu.raise, hu]

theorem presCount {kind id new} (h : Follows s₀ s) : Follows s₀ (s.presCount kind id new) := by
  unfold State.presCount
  exact either (either (either h.setPresence.stationEvent h.setPresence) h.setPresence)
    (either h.setPresence (either h.holdSource.setPresence.stationEvent h.setPresence))

theorem presenceCount {kind src} (h : Follows s₀ s) : Follows s₀ (Machine.presenceCount kind src s) := by
  unfold Machine.presenceCount
  split
  exacts [.either (.either h.advance.modGh.presCount h.advance.presCount) h, h]

/-! ### View -/

theorem setBucket {n b} (h : Follows s₀ s) : Follows s₀ (s.setBucket n b) := h.other

/-! ### Rec -/

theorem recPlace {always x} (h : Follows s₀ s) : Follows s₀ (s.recPlace always x) := by
  unfold State.recPlace
  split
  · extract_lets k u v
    have hu : Follows s₀ u := h.other
    have hv : Follows s₀ v := either hu.raise hu
    exact .either hv.request hv
  · exact h.other.inc.raise

theorem takeToken {e} (h : Follows s₀ s) : Follows s₀ (s.takeToken e) := either h h.setBucket
theorem takeSuppr {e always x} (h : Follows s₀ s) : Follows s₀ (s.takeSuppr e always x) :=
  (either h.setBucket h).recPlace
theorem suppress {e x} (h : Follows s₀ s) : Follows s₀ (s.suppress e x) := (either h.inc.raise h.inc).setBucket

theorem placeKept {e b} (h : Follows s₀ s) : Follows s₀ (s.placeKept e b) := by
  unfold State.placeKept
  split
  exacts [h.setBucket.recPlace, h.setBucket]

theorem judgeReport {e x} (h : Follows s₀ s) : Follows s₀ (s.judgeReport e x) :=
  either h.takeToken.takeSuppr h.suppress

theorem recordEvent (h : Follows s₀ s) : Follows s₀ (Machine.recordEvent s) := by
  unfold Machine.recordEvent
  split
  · extract_lets k u
    have hu : Follows s₀ u := h.other
    split
    · exact hu
    · exact hu
    · split
      exacts [hu.judgeReport, hu]
  · exact h

theorem judgeAll {n} (h : Follows s₀ s) : Follows s₀ (s.judgeAll n) := by
  induction n generalizing s with
  | zero => exact h
  | succ n ih =>
    unfold State.judgeAll
    exact either h (ih h.recordEvent)

theorem tokenRefill {c} (h : Follows s₀ s) : Follows s₀ (Machine.tokenRefill c s) := by
  unfold Machine.tokenRefill
  split
  · extract_lets b b1
    split
    exacts [h.advance.placeKept, h]
  · exact h

theorem writeRec {x burst} (h : Follows s₀ s) : Follows s₀ (s.writeRec x burst) := by
  unfold State.writeRec
  extract_lets n u k v w
  have hu : Follows s₀ u := h.unpoison.wrBytes
  have hv : Follows s₀ v := hu.other
  have hw : Follows s₀ w := either hv.raise hv
  split
  exacts [hw.setLast.deliver, hw]

theorem overflowRec {burst} (h : Follows s₀ s) : Follows s₀ (s.overflowRec burst) := by
  unfold State.overflowRec
  split
  exacts [.either h h.other.writeRec, h]

theorem writeIntake {burst n} (h : Follows s₀ s) : Follows s₀ (s.writeIntake burst n) :=
  either h (.fold (fun _ _ h2 => h2.writeRec) h.other.overflowRec)
theorem flushIntake {burst} (h : Follows s₀ s) : Follows s₀ (s.flushIntake burst) := h.writeIntake
theorem recRingWrite (h : Follows s₀ s) : Follows s₀ (Machine.recRingWrite s) :=
  either h (.either h.flushIntake (.either (.either h.burstEnd.writeIntake h.burstEnd.writeIntake.request) h))
theorem recCntClr (h : Follows s₀ s) : Follows s₀ (Machine.recCntClr s) := h.set.set

theorem restoreRing (h : Follows s₀ s) : Follows s₀ s.restoreRing.1 := by
  unfold State.restoreRing
  dsimp only
  split
  · dsimp only
    exact h.other.set.raise
  · exact either h.other.set h.other.set.raise

theorem recRestore (h : Follows s₀ s) : Follows s₀ s.recRestore := by
  have hu : Follows s₀ (s.restoreRing.1.set F.REC_STAT_STATE 1) := h.restoreRing.set
  unfold State.recRestore
  dsimp only
  split
  exacts [hu.other, hu]

/-! ### Start -/

theorem pageContent {dst src} (h : Follows s₀ s) : Follows s₀ (s.pageContent dst src) := by
  have hu : Follows s₀ ((s.unpoison dst 4096).unreserve 4 dst 4096) := h.unpoison.unreserve
  unfold State.pageContent
  dsimp only
  split
  exacts [hu.withMem (memLoad_wf _ _ _ _ _), hu.withMem (memClear_wf _ _ _)]

theorem setUpPage {part up home src} (h : Follows s₀ s) : Follows s₀ (s.setUpPage part up home src) := by
  unfold State.setUpPage
  split
  · extract_lets r k
    split
    exacts [h.takeFrame.pageContent.setPage, h.takeFrame]
  · exact h.newHome.pageContent.setPage

theorem clearPart {part} (h : Follows s₀ s) : Follows s₀ (s.clearPart part) :=
  set (.fold (fun _ _ h1 => h1.destroyPage) h)
theorem initPart {part} (h : Follows s₀ s) : Follows s₀ (s.initPart part) :=
  set (.fold (fun _ _ h2 => .either (.fold (fun _ _ h3 => h3.setUpPage) h2) h2) h.clearPart)

theorem initEngine {e cold} (h : Follows s₀ s) : Follows s₀ (s.initEngine e cold) := by
  unfold State.initEngine
  extract_lets m u v d
  have hu : Follows s₀ u := unpoison (either h.unpoison h)
  have hv : Follows s₀ v := hu.withMem fun k => memClear_wf _ _ _ (memClear_wf _ _ _ k)
  exact fold (fun _ _ h1 => h1.wrBytes) hv

theorem initOwner {u cold} (h : Follows s₀ s) : Follows s₀ (s.initOwner u cold) :=
  either h.initPart h.initEngine

theorem restoreBlock {b} (h : Follows s₀ s) : Follows s₀ (s.restoreBlock b) := by
  unfold State.restoreBlock
  split
  exacts [h.putBlock, h.other.report]

theorem freeCopy {a} (h : Follows s₀ s) : Follows s₀ (s.freeCopy a) :=
  h.withMem (memClear_wf _ _ _)
theorem discardCopies {u} (h : Follows s₀ s) : Follows s₀ (s.discardCopies u) :=
  fold (fun _ _ h1 => h1.freeCopy) h

theorem startOwner {kind u stream} (h : Follows s₀ s) : Follows s₀ (s.startOwner kind u stream) := by
  unfold State.startOwner
  extract_lets forced v cold w
  have hv : Follows s₀ v := either h.report h
  have hw : Follows s₀ w := hv.initOwner
  exact .either hw.discardCopies (.either hw (.fold (fun _ _ h1 => h1.restoreBlock) hw))

theorem noPresence (h : Follows s₀ s) : Follows s₀ s.noPresence := fold (fun _ _ h1 => h1.setReg) h

theorem startRest {kind} (h : Follows s₀ s) : Follows s₀ (s.startRest kind) := by
  unfold State.startRest
  extract_lets u _ _ _ v w x
  have hu : Follows s₀ u := fold (fun _ _ h1 => h1.withMem (memClear_wf _ _ _)) h
  have hw : Follows s₀ w := fold (fun _ _ h1 => h1.setGrp) hu.other
  exact hw.zeroRegs.noPresence.ethProgramStart.ixProgramStart.sioProgramStart

theorem programStart {kind stream} (h : Follows s₀ s) : Follows s₀ (s.programStart kind stream) :=
  either h.report.other (.fold (fun _ _ h4 => h4.startOwner) h.report.other.other.startRest)

/-! ### Change -/

theorem copyOut {c u bad} (h : Follows s₀ s) : Follows s₀ (s.copyOut c u bad) :=
  other (.fold (fun _ _ h1 => h1.report) h)

theorem switchSched {set} (h : Follows s₀ s) : Follows s₀ (s.switchSched set) :=
  raise (.set (.other (.fold (fun _ _ h7 => h7.dropPreload.modPair.setUnit)
    (.fold (fun _ _ h5 => h5.unstage) (.fold (fun _ _ h3 => .either h3.abandon h3) (.fold (fun _ _ h1 => h1.slackPause) h))))))

theorem switchBanks {n} (h : Follows s₀ s) : Follows s₀ (s.switchBanks n) := by
  unfold State.switchBanks
  refine .fold (fun _ _ h1 => ?_) h
  split
  exacts [h1.activateBank, h1]

theorem pendBanks {n} (h : Follows s₀ s) : Follows s₀ (s.pendBanks n) :=
  fold (fun _ _ h1 => .either h1.set h1) h
theorem unpendBanks (h : Follows s₀ s) : Follows s₀ s.unpendBanks := fold (fun _ _ h1 => h1.set) h
theorem rebindForces {n} (h : Follows s₀ s) : Follows s₀ (s.rebindForces n) :=
  other (.fold (fun _ _ h1 => h1.report) h)
theorem takeSet {set} (h : Follows s₀ s) : Follows s₀ (s.takeSet set) :=
  either h.rebindForces.switchBanks.unpendBanks.other.other h.rebindForces.switchBanks.unpendBanks.other

theorem switchSet {c} (h : Follows s₀ s) : Follows s₀ (s.switchSet c) := by
  unfold State.switchSet
  extract_lets u v w x
  have hu : Follows s₀ u := by
    refine fold (fun _ _ h1 => ?_) h
    split
    exacts [h1.copyOut, h1]
  have hv : Follows s₀ v := either hu.switchSched hu
  have hx : Follows s₀ x := fold (fun _ _ h1 => h1.clearPart) hv.takeSet
  split
  exacts [either (other hx.other) hx.other, hx]

theorem setUpOwner {c u} (h : Follows s₀ s) : Follows s₀ (s.setUpOwner c u) := by
  unfold State.setUpOwner
  extract_lets v mine w pid
  have hv : Follows s₀ v := h.initOwner
  have hw : Follows s₀ w := by
    unfold w
    refine .fold (fun _ _ h1 => ?_) hv
    split
    · exact h1.putVar
    · split
      exacts [h1.putBlock, h1]
  exact .fold (fun _ _ h1 => .either h1.wrBytes h1) hw

theorem changeOver (h : Follows s₀ s) : Follows s₀ s.changeOver := by
  unfold State.changeOver
  split
  exacts [.either h.other h, h]

theorem ownerReady {c u} (h : Follows s₀ s) : Follows s₀ (s.ownerReady c u) :=
  (either h.setUpOwner.other.other h.setUpOwner.other).changeOver

theorem changeNotify {c} (h : Follows s₀ s) : Follows s₀ (s.changeNotify c) := by
  unfold State.changeNotify
  exact h.report.longDone.other.changeOver

theorem switchNow (h : Follows s₀ s) : Follows s₀ s.switchNow := by
  unfold State.switchNow
  split
  · extract_lets u v
    have hu : Follows s₀ u := either h h.switchSet
    have hv : Follows s₀ v := by
      refine fold (fun _ _ h1 => ?_) hu
      split
      exacts [h1.ownerReady, h1]
    split
    exacts [either hv hv.changeNotify, hv]
  · exact h

theorem schedSwitch (h : Follows s₀ s) : Follows s₀ (Machine.schedSwitch s) := by
  unfold Machine.schedSwitch
  split
  exacts [.either h.switchSched h, h]

theorem carryCopyOut {u bad} (h : Follows s₀ s) : Follows s₀ (Machine.carryCopyOut u bad s) := by
  unfold Machine.carryCopyOut
  split
  exacts [.either h.advance.copyOut h, h]

theorem changeSwitch (h : Follows s₀ s) : Follows s₀ (Machine.changeSwitch s) := by
  unfold Machine.changeSwitch
  split
  exacts [.either h.switchSet h, h]

theorem changeSetupDone {u} (h : Follows s₀ s) : Follows s₀ (Machine.changeSetupDone u s) := by
  unfold Machine.changeSetupDone
  split
  exacts [.either h.advance.ownerReady h, h]

theorem changeDone (h : Follows s₀ s) : Follows s₀ (Machine.changeDone s) := by
  unfold Machine.changeDone
  split
  exacts [.either h.changeNotify h, h]

theorem longReply {status payload} (h : Follows s₀ s) : Follows s₀ (s.longReply status payload) := by
  unfold State.longReply
  split
  exacts [h.setLast.deliver, h]

theorem activateAnswer (h : Follows s₀ s) : Follows s₀ s.activateAnswer := by
  unfold State.activateAnswer
  split
  exacts [.either h.longReply.other h, h]

theorem dropChange (h : Follows s₀ s) : Follows s₀ s.dropChange := by
  unfold State.dropChange
  extract_lets u k k1 k2 v w k3
  have hu : Follows s₀ u := h.unpendBanks
  have hv : Follows s₀ v := hu.other
  have hw : Follows s₀ w := hv.longReply
  split
  exacts [.either hw.other hv.longDone, hv]

theorem layChangeTo {set b cp} (h : Follows s₀ s) : Follows s₀ (s.layChangeTo set b cp) := h.other.pendBanks

theorem activateProposal {rx v b digest} (h : Follows s₀ s) : Follows s₀ (Machine.activateProposal rx v b digest s) := by
  unfold Machine.activateProposal
  split
  · split
    exacts [either h.other.ctrl.activateAnswer h, h]
  · split
    next t ok e =>
      have ht : Follows s₀ t := h.tlTake.ofFst e
      split
      · exact ht
      · split
        · split
          exacts [either ht.layChangeTo.ctrl ht.ctrl, ht.ctrl]
        · split
          exacts [either ht.other.activateAnswer ht, ht]
        · split
          exacts [either ht.dropChange ht, ht]

theorem forceProposal {rx v mfc cc ident what} (h : Follows s₀ s) : Follows s₀ (Machine.forceProposal rx v mfc cc ident what s) := by
  unfold Machine.forceProposal
  extract_lets same
  split
  · exact either h.other.ctrl h
  · split
    next t ok e =>
      have ht : Follows s₀ t := h.tlTake.ofFst e
      split
      · exact ht
      · split
        exacts [either ht.other.ctrl ht.ctrl, ht.other, either ht.other.longDone ht]

theorem compareIds {q ids} (h : Follows s₀ s) : Follows s₀ (s.compareIds q ids) :=
  either h.other (either h h.report).other
theorem adoptBoundary {j count l} (h : Follows s₀ s) : Follows s₀ (s.adoptBoundary j count l) := h.other.ctrl

theorem runEntryProposal {rx count ids} (h : Follows s₀ s) : Follows s₀ (Machine.runEntryProposal rx count ids s) := by
  unfold Machine.runEntryProposal
  split
  · exact either h.adoptBoundary h
  · split
    next p f _ t ok e =>
      have ht : Follows s₀ t := h.tlTake.ofFst e
      have hu : Follows s₀ (t.compareIds f.sender ids) := ht.compareIds
      split
      · exact ht
      · dsimp only
        split
        · exact hu
        · split
          exacts [either hu.adoptBoundary (either hu.other hu), hu.adoptBoundary]

theorem runBoundary (h : Follows s₀ s) : Follows s₀ (Machine.runBoundary s) := by
  unfold Machine.runBoundary
  split
  exacts [.either (.other (.setMembers (.fold (fun _ _ h4 => h4.setPeer) h.advance.other.set.set))) h.advance.other, h]

theorem syncReq {rx ids} (h : Follows s₀ s) : Follows s₀ (Machine.syncReq rx ids s) := by
  unfold Machine.syncReq
  split
  · split
    exacts [.either h (.either h.compareIds h.compareIds.set.set.other.programStart.ctrl), h]
  · exact .either h.tlTake.other h.tlTake

/-! ### Uncorr -/

theorem damage {set} (h : Follows s₀ s) : Follows s₀ (s.damage set) := either h h.other.report

theorem readerFault {reader addr} (h : Follows s₀ s) : Follows s₀ (s.readerFault reader addr) := by
  unfold State.readerFault
  split
  exacts [.either h.trap h, h]

theorem poolErr {addr reader} (h : Follows s₀ s) : Follows s₀ (s.poolErr addr reader) := by
  unfold State.poolErr
  extract_lets fetch
  split
  · exact h.poisonLine
  · extract_lets part up home0 keep u
    have hu : Follows s₀ u := by
      unfold u
      exact (either h.modPage.raise h.dropFrame.modPage).poisonLine
    split
    · split
      exacts [.either hu (.either hu.pageFault hu.stageMiss), hu.readerFault]
    · exact hu

theorem sramErr {addr reader} (h : Follows s₀ s) : Follows s₀ (s.sramErr addr reader) :=
  either h.enterDusk (.either (.readerFault (.fold (fun _ _ h1 => .either h1.qLose h1) h.poisonLine))
    (.either h.poisonLine.readerFault h.poolErr))

theorem ddrErr {addr reader} (h : Follows s₀ s) : Follows s₀ (s.ddrErr addr reader) :=
  either h.poisonLine.readerFault (either h h.other).readerFault
theorem storeErr {ofs} (h : Follows s₀ s) : Follows s₀ (s.storeErr ofs) := (either h h.other).damage

theorem hxErr {line} (h : Follows s₀ s) : Follows s₀ (s.hxErr line) := by
  unfold State.hxErr
  split
  · split
    exacts [h.report.raise.abandon, h.report.raise.abandon, h]
  · exact h.enterDusk

theorem engineErr {e ofs addr} (h : Follows s₀ s) : Follows s₀ (s.engineErr e ofs addr) :=
  either h.set.set h.poisonLine

theorem canErr {n ofs} (h : Follows s₀ s) : Follows s₀ (s.canErr n ofs) :=
  either h.poisonLine (.either (.fold (fun _ _ h1 => .either h1 (.either h1.canTxcan h1.tbDrop)) h)
    (.fold (fun _ _ h5 => .either h5.dropSource h5) (.fold (fun _ _ h3 => h3.qLose) h.poisonLine)))

theorem bufferErr {off} (h : Follows s₀ s) : Follows s₀ (s.bufferErr off) :=
  either h.other.dropSource (.either h.other.dropSource (.either h.dropSource (.either h.dropSource h)))
theorem unitErr {addr reader} (h : Follows s₀ s) : Follows s₀ (s.unitErr addr reader) :=
  either h.engineErr.readerFault (.either h.canErr.readerFault h.bufferErr)
theorem uncorrMark {m addr} (h : Follows s₀ s) : Follows s₀ (s.uncorrMark m addr) :=
  h.inc.set.set.set.raise.report

theorem uncorr {m addr reader} (h : Follows s₀ s) : Follows s₀ (s.uncorr m addr reader) := by
  unfold State.uncorr
  extract_lets u
  have hu : Follows s₀ u := h.uncorrMark
  split
  exacts [hu.sramErr, hu.poisonLine.readerFault, hu.ddrErr, hu.storeErr, hu.hxErr, hu.unitErr]

theorem putLine {e d} (h : Follows s₀ s) : Follows s₀ (s.putLine e d) := by
  unfold State.putLine
  split
  exacts [h.other, h, h.wrBytes]

theorem lineErr {e scrub reader} (h : Follows s₀ s) : Follows s₀ (s.lineErr e scrub reader) := by
  unfold State.lineErr
  extract_lets bad
  split
  · exact h
  · split
    · exact h.memCorrected
    · split
      exacts [h.putLine.memCorrected, h.uncorr]

theorem lineErrs {errs scrub} (h : Follows s₀ s) : Follows s₀ (s.lineErrs errs scrub) :=
  fold (fun _ _ h1 => h1.lineErr) h
theorem memUncorr {e reader} (h : Follows s₀ s) : Follows s₀ (Machine.memUncorr e reader s) :=
  either h.lineErr h
theorem pageTransferDone (h : Follows s₀ s) : Follows s₀ (Machine.pageTransferDone s) :=
  either h.lineErrs.transferDone h
theorem scrubPass {m errs} (h : Follows s₀ s) : Follows s₀ (Machine.scrubPass m errs s) :=
  either h (either h.lineErrs.countSymbols h.lineErrs).passDone

/-! ### CfgImg -/

theorem applyReg {e} (h : Follows s₀ s) : Follows s₀ (s.applyReg e) := by
  unfold State.applyReg
  split
  exacts [h.setReg, h]

theorem applyImage {b} (h : Follows s₀ s) : Follows s₀ (s.applyImage b) :=
  other (.set (.fold (fun _ _ h1 => h1.applyReg) h))
theorem layMemory (h : Follows s₀ s) : Follows s₀ s.layMemory := h.other.setFree.set.set
theorem layQueues (h : Follows s₀ s) : Follows s₀ s.layQueues :=
  fold (fun _ _ h3 => .fold (fun _ _ h4 => .either h4.qInit h4) h3) (.fold (fun _ _ h1 => .either h1.qInit h1) h)
theorem layCan (h : Follows s₀ s) : Follows s₀ s.layCan := fold (fun _ _ h1 => .either h1.wr8 h1) h
theorem layOut (h : Follows s₀ s) : Follows s₀ s.layOut := h.layMemory.layQueues.layCan.tmbStart

/-! ### Leave -/

theorem autoSet (h : Follows s₀ s) : Follows s₀ s.autoSet := either h.setTod h
theorem newFrames (h : Follows s₀ s) : Follows s₀ s.newFrames := h.other
theorem tlListen (h : Follows s₀ s) : Follows s₀ s.tlListen :=
  either h (.either h.forgetLeases.set.set.setMembers.other h.forgetLeases.set.set.setMembers.other.request.request)

theorem enterRun {kind cause src inst} (h : Follows s₀ s) : Follows s₀ (s.enterRun kind cause src inst) := by
  unfold State.enterRun
  extract_lets u v
  have hu : Follows s₀ u := either h.autoSet h
  have hv : Follows s₀ v := by
    unfold v
    split
    exacts [hu.programStart, hu]
  exact hv.newFrames.tlListen.stateChange

theorem closingSaves (h : Follows s₀ s) : Follows s₀ s.closingSaves := h.other
theorem opChange {o new} (h : Follows s₀ s) : Follows s₀ (s.opChange o new) := h.stateChange
theorem toStop {o} (h : Follows s₀ s) : Follows s₀ (s.toStop o) := h.stopTasks.tlOff.other.opChange

theorem midnightEnter {o} (h : Follows s₀ s) : Follows s₀ (s.midnightEnter o) := by
  unfold State.midnightEnter
  extract_lets u old inst v w x y z _ _ _ _ _ q
  have hv : Follows s₀ v := h.stopTasks.tlOff.stopCycles.report.raise
  have hw : Follows s₀ w := either hv hv.notice
  have hz : Follows s₀ z := fold (fun _ _ h1 => h1.ethLinkChange) hw.judgeAll.flushIntake.writeRtc.copyCounters.longReply
  have hq : Follows s₀ q := hz.withClk
  exact hq.canFollow

/-- Of the memory a Dawn sequence keeps what survives; the registers are those of reset. -/
theorem beginDawn {cause} (h : Follows s₀ s) : Follows s₀ (s.beginDawn cause) :=
  set (h.change rfl (Nat.le_refl _) rfl rfl fun k => ⟨twf_filter _ _ _ k.1, rfl⟩)

theorem restartNow {o} (h : Follows s₀ s) : Follows s₀ (s.restartNow o) := h.opChange.other.beginDawn

theorem finishLeave (h : Follows s₀ s) : Follows s₀ s.finishLeave := by
  unfold State.finishLeave
  extract_lets k u
  have hu : Follows s₀ u := h.other
  split
  exacts [.either (either hu.opChange hu.toStop).longDone (.either hu.restartNow (.either (.either hu hu.midnightEnter) hu)), hu]

theorem leaveRun (h : Follows s₀ s) : Follows s₀ s.leaveRun := by
  unfold State.leaveRun
  extract_lets u _ v
  have hv : Follows s₀ v := h.outputsRelease.stopTasks.other.closingSaves
  exact either hv.finishLeave hv.request

theorem beginCopy {x} (h : Follows s₀ s) : Follows s₀ (s.beginCopy x).1 := by
  unfold State.beginCopy
  extract_lets mine u n v p w k
  have hu : Follows s₀ u := fold (fun _ _ h1 => h1.freeCopy) h
  have hv : Follows s₀ v := either hu (.fold (fun _ _ h1 => h1.freeCopy) hu)
  have hw : Follows s₀ w := fold (fun _ _ h1 => h1.freeCopy) hv
  split
  exacts [hu, hw.other]

theorem copyLines {x n} (h : Follows s₀ s) : Follows s₀ (s.copyLines x n) := h.unpoison.wrBytes

theorem writeSaves {l n} (h : Follows s₀ s) : Follows s₀ (State.writeSaves l n s) := by
  induction l generalizing s n with
  | nil => exact h.other
  | cons x r ih =>
    have hb : Follows s₀ (if x.done = 0 then s.beginCopy x else (s, x)).1 := by
      split
      exacts [h.beginCopy, h]
    unfold State.writeSaves
    exact either h.other (either (ih hb.copyLines) hb.copyLines.other)

theorem retainSaveBurst (h : Follows s₀ s) : Follows s₀ (Machine.retainSaveBurst s) :=
  either h (.either h.burstEnd.writeSaves.request (.either h.burstEnd.writeSaves.finishLeave h.burstEnd.writeSaves))

/-! ### Dawn -/

theorem dawnBoot (h : Follows s₀ s) : Follows s₀ s.dawnBoot := by
  unfold State.dawnBoot
  extract_lets _ _ _ u v
  have hu : Follows s₀ u := h.change rfl (Nat.le_refl _) rfl rfl id
  have hv : Follows s₀ v := hu.set
  exact either hu (report hv.withClk)

theorem initTod {newest} (h : Follows s₀ s) : Follows s₀ (s.initTod newest) := h.other.set
theorem dawnPass {u} (h : Follows s₀ s) : Follows s₀ (s.dawnPass u) := either h.modPair h.setEng.set
theorem dawnFail {u} (h : Follows s₀ s) : Follows s₀ (s.dawnFail u) := either h.free.report h.free.report
theorem dawnTest {u laneFails latchFails} (h : Follows s₀ s) : Follows s₀ (s.dawnTest u laneFails latchFails).1 :=
  (either h.other.dawnPass h.other.dawnFail).other
theorem dawnTests {laneFails latchFails} (h : Follows s₀ s) : Follows s₀ (s.dawnTests laneFails latchFails).1 :=
  foldFst (fun _ _ h1 => h1.dawnTest) h
theorem dawnBank {e n} (h : Follows s₀ s) : Follows s₀ (s.dawnBank e n) :=
  either (.fold (fun _ _ h2 => h2.wrBytes) h.loadBank.set.set) h
theorem dawnSet {n} (h : Follows s₀ s) : Follows s₀ (s.dawnSet n) :=
  fold (fun _ _ h2 => h2.dawnBank) h.other.set
theorem dawnSignature {n} (h : Follows s₀ s) : Follows s₀ (s.dawnSignature n) := either h h.damage

theorem dawnConfig {damaged} (h : Follows s₀ s) : Follows s₀ (s.dawnConfig damaged) := by
  unfold State.dawnConfig
  extract_lets ok k u v w x
  have hu : Follows s₀ u := either h.other h
  have hv : Follows s₀ v := either hu.applyImage hu
  have hw : Follows s₀ w := hv.set
  have hx : Follows s₀ x := hw.set.layOut.ixInit
  split
  · extract_lets y
    have hy : Follows s₀ y := either hx.dawnSignature.dawnSet hx
    exact .either hy.damage hy
  · exact hx

theorem dawnForces (h : Follows s₀ s) : Follows s₀ s.dawnForces := either h.other.report h
theorem dawnDusk (h : Follows s₀ s) : Follows s₀ s.dawnDusk := h.other.enterDusk.notice

theorem dawnDone (h : Follows s₀ s) : Follows s₀ s.dawnDone := by
  unfold State.dawnDone
  extract_lets dest _ _ u v w x
  have hv : Follows s₀ v := by
    unfold v dest
    split
    exacts [h.other.enterRun.startCycles, either h.other.stateChange.startCycles h.other.stateChange]
  have hx : Follows s₀ x := by
    unfold x
    split
    exacts [either hv.notice.canFollow.longEnd hv.notice.canFollow, hv.notice.canFollow]
  exact request (fold (fun _ _ h1 => h1.sleep) hx)

theorem dawnEnd {bootFails testFails latchFails damaged} (h : Follows s₀ s) :
    Follows s₀ (Machine.dawnEnd bootFails testFails latchFails damaged s) := by
  unfold Machine.dawnEnd
  extract_lets p wake u _ v w x newest y z t q
  have hu : Follows s₀ u := h.advance
  clear_value u
  have hv : Follows s₀ v := hu.withClk
  have hy : Follows s₀ y := hv.advance.dawnBoot.advance.recRestore
  have ht : Follows s₀ t.1 := hy.advance.initTod.advance.dawnTests
  exact either h (either hy.dawnDusk (either ht.dawnDusk ht.advance.dawnConfig.dawnForces.dawnDone))

theorem rstNAssert (h : Follows s₀ s) : Follows s₀ (Machine.rstNAssert s) := by
  unfold Machine.rstNAssert
  split
  · exact h
  · extract_lets u
    have hu : Follows s₀ u := h.modPwr
    split
    · exact hu
    · extract_lets v w k k1
      have hv : Follows s₀ v := either hu hu.longEnd
      have hw : Follows s₀ w := either hv hv.stateChange
      exact hw.other.beginDawn

theorem rstNRelease (h : Follows s₀ s) : Follows s₀ (Machine.rstNRelease s) := either h.modPwr h
theorem powerGood (h : Follows s₀ s) : Follows s₀ (Machine.powerGood s) :=
  either h h.modPwr.other.stateChange.beginDawn

theorem warn {mv} (h : Follows s₀ s) : Follows s₀ (s.warn mv) := by
  unfold State.warn
  extract_lets u v w x y z
  have hu : Follows s₀ u := h.set.modPwr
  have hv : Follows s₀ v := hu.raise
  have hw : Follows s₀ w := hv.judgeAll
  have hx : Follows s₀ x := hw.report
  have hy : Follows s₀ y := hx.judgeAll
  have hz : Follows s₀ z := either hy.flushIntake hy
  split
  exacts [hu, hu, (either hz.writeRtc hz).copyCounters]

theorem supplyFail {mv} (h : Follows s₀ s) : Follows s₀ (Machine.supplyFail mv s) := either h.warn h
theorem mateOpen (h : Follows s₀ s) : Follows s₀ (Machine.mateOpen s) := either h.modPwr.free.warn h.modPwr

theorem powerGoodWithdraw (h : Follows s₀ s) : Follows s₀ (Machine.powerGoodWithdraw s) := by
  unfold Machine.powerGoodWithdraw
  extract_lets u c v
  have hu : Follows s₀ u := h.advance.doAllOff
  have hv : Follows s₀ v := hu.modPwr.beginDawn
  exact either h hv.withClk

theorem midnightWake {src} (h : Follows s₀ s) : Follows s₀ (Machine.midnightWake src s) := by
  unfold Machine.midnightWake
  split
  exacts [.either (either h.advance h).stateChange.other.beginDawn h, h]

/-! ### Sup -/

theorem answer {r opc status data} (h : Follows s₀ s) : Follows s₀ (s.answer r opc status data) :=
  either h.setLast h.setLast.deliver
theorem refuse {r opc status data} (h : Follows s₀ s) : Follows s₀ (s.refuse r opc status data) :=
  h.report.answer

theorem countAuth {r} (h : Follows s₀ s) : Follows s₀ (s.countAuth r) := by
  unfold State.countAuth
  split
  exacts [.either h.other.report h.other, h]

theorem keepCounter {r} (h : Follows s₀ s) : Follows s₀ (s.keepCounter r) := by
  unfold State.keepCounter
  split
  exacts [h.other, h]

theorem touch {r} (h : Follows s₀ s) : Follows s₀ (s.touch r) := h.other
theorem acceptMark {r opc} (h : Follows s₀ s) : Follows s₀ (s.acceptMark r opc) :=
  either h (.either h.report h.report.raise)

theorem take {r} (h : Follows s₀ s) : Follows s₀ (s.take r) := by
  unfold State.take
  extract_lets u k
  have hu : Follows s₀ u := h.touch
  split
  exacts [hu.other, hu]

theorem again {r t} (h : Follows s₀ s) (e : s.again r = some t) : Follows s₀ t := by
  unfold State.again at e
  split at e
  · split at e
    · cases e; exact h.deliver
    · cases e
  · cases e

theorem conclude {r opc a} (h : Follows s₀ s) (ha : Ans.From s₀ a) : Follows s₀ (s.conclude r opc a) := by
  unfold State.conclude
  cases a with
  | refuse st sec check index => exact h.refuse
  | reply data t => exact answer ha
  | fault t => exact answer ha
  | accepted data t => exact answer ha
  | later t => exact ha

theorem command {r opc ok len body} (h : Follows s₀ s) (hb : ∀ u, Follows s₀ u → Ans.From s₀ (body u)) :
    Follows s₀ (s.command r opc ok len body) := by
  unfold State.command
  split
  · exact h
  · extract_lets full u
    have hu : Follows s₀ u := h.take
    split
    · next t e => exact hu.again e
    · split
      · exact hu
      · split
        · next st i _ =>
          have ht : Follows s₀ (if st = 0x12 ∨ st = 0x30 then u else u.keepCounter r) := either hu hu.keepCounter
          exact either ht.refuse.countAuth ht.refuse
        · exact either hu.keepCounter.refuse (hu.keepCounter.conclude (hb _ hu.keepCounter.acceptMark))

theorem begin_ {r opc arg arg2} (h : Follows s₀ s) : Follows s₀ (s.begin_ r opc arg arg2) := h.other

theorem longFinish {status data} (h : Follows s₀ s) : Follows s₀ (s.longFinish status data) := by
  unfold State.longFinish
  split
  exacts [(either h h.report).longEnd, h]

theorem yieldActivate (h : Follows s₀ s) : Follows s₀ s.yieldActivate := by
  unfold State.yieldActivate
  split
  · exact h
  · split
    · split
      · exact h.dropChange
      · extract_lets u
        have hu : Follows s₀ u := h.switchNow
        split
        · split
          all_goals exact hu.longEnd
        · exact hu
    · exact h

theorem describe {r} (h : Follows s₀ s) : Follows s₀ (Machine.describe r s) := h.command fun _ h1 => h1
theorem getState {r} (h : Follows s₀ s) : Follows s₀ (Machine.getState r s) := h.command fun _ h1 => h1

theorem setMode {r} (h : Follows s₀ s) : Follows s₀ (Machine.setMode r s) := by
  refine h.command fun u hu => ?_
  have hv {x y z} : Follows s₀ (u.yieldActivate.begin_ x y z 0) := hu.yieldActivate.begin_
  dsimp only
  split
  · trivial
  · split
    · exact hu
    · split
      · trivial
      · split
        · split
          exacts [trivial, hu.begin_.enterRun]
        · split
          · exact hv.leaveRun
          · refine longDone ?_
            split
            exacts [hv.toStop, hv]

theorem restart {r} (h : Follows s₀ s) : Follows s₀ (Machine.restart r s) := by
  refine h.command fun u hu => ?_
  extract_lets kind target change a b listed c
  have hb : Follows s₀ b := either hu.longEnd.switchNow hu.longEnd
  have hc : Follows s₀ c := hb.begin_
  split
  · trivial
  · split
    · exact either hc hc.leaveRun
    · show Follows s₀ _
      split
      exacts [hc.restartNow, hc]

theorem configBegin {r} (h : Follows s₀ s) : Follows s₀ (Machine.configBegin r s) := by
  unfold Machine.configBegin
  refine h.command fun _ h1 => ?_
  extract_lets n k u v k1
  have hu : Follows s₀ u := h1.other
  have hv : Follows s₀ v := h1.other
  split
  · exact either hu.stateChange.startCycles hu
  · split
    exacts [trivial, either hv.other.stopCycles.stateChange hv]

theorem configWrite {r} (h : Follows s₀ s) : Follows s₀ (Machine.configWrite r s) := by
  unfold Machine.configWrite
  refine h.command fun _ h1 => ?_
  split
  · extract_lets d k
    split
    exacts [trivial, h1.other]
  · exact trivial

theorem configSeal {r} (h : Follows s₀ s) : Follows s₀ (Machine.configSeal r s) := by
  unfold Machine.configSeal
  refine h.command fun _ h1 => ?_
  split
  exacts [h1.begin_, trivial]

theorem takeKey {b} (h : Follows s₀ s) : Follows s₀ (s.takeKey b) := by
  unfold State.takeKey
  split
  exacts [h.other, h]

theorem candidate {b} (h : Follows s₀ s) : Follows s₀ (s.candidate b).1 := by
  have hu : Follows s₀ (State.applyImage { s with sup := { s.sup with cfgImage := b } } b) := h.other.applyImage
  unfold State.candidate
  dsimp only
  split
  exacts [hu.other, hu]

theorem sealNow {o} (h : Follows s₀ s) : Follows s₀ (s.sealNow o) := by
  unfold State.sealNow
  split
  · exact h.longEnd
  · extract_lets scp u v k k1 w x y z u1
    have hu : Follows s₀ u := h.takeKey
    have hv : Follows s₀ v := hu.applyImage
    have hw : Follows s₀ w := hv.other
    have hx : Follows s₀ x := hw.layOut.ixInit
    have hy : Follows s₀ y := either hx.report hx
    have hz : Follows s₀ z := by
      unfold z
      split
      exacts [.either hy hy.dawnSet, hy]
    have hu1 : Follows s₀ u1 := hz.opChange.startCycles
    split
    exacts [h.longFinish, hu1.longEnd]

theorem cleanStore {n} (h : Follows s₀ s) : Follows s₀ (s.cleanStore n) := h.other

theorem loadBegin {r} (h : Follows s₀ s) : Follows s₀ (Machine.loadBegin r s) := by
  unfold Machine.loadBegin
  refine h.command fun _ h1 => ?_
  extract_lets n len k k1 k2
  split
  · exact trivial
  · split
    exacts [trivial, h1.other.cleanStore]

theorem loadBlock {r} (h : Follows s₀ s) : Follows s₀ (Machine.loadBlock r s) := by
  unfold Machine.loadBlock
  refine h.command fun _ h1 => ?_
  split
  · extract_lets d k k1
    split
    exacts [trivial, h1.other]
  · exact trivial

theorem bankLoad {n e} (h : Follows s₀ s) : Follows s₀ (s.bankLoad n e) := by
  unfold State.bankLoad
  split
  exacts [.either h h.set, h]

theorem loadVerify {r} (h : Follows s₀ s) : Follows s₀ (Machine.loadVerify r s) := by
  unfold Machine.loadVerify
  refine h.command fun _ h1 => ?_
  split
  · extract_lets u
    have hu : Follows s₀ u := h1.begin_
    split
    exacts [hu.longDone, hu.bankLoad.bankLoad]
  · exact trivial

theorem verified {n} (h : Follows s₀ s) : Follows s₀ (s.verified n) := either h h.other.longEnd

/-! ### SupCmd -/

theorem activateStop {n} (h : Follows s₀ s) : Follows s₀ (s.activateStop n) := h.switchSched.takeSet.other

theorem activateCommand {r} (h : Follows s₀ s) : Follows s₀ (Machine.activate r s) := by
  unfold Machine.activate
  refine h.command fun _ h1 => ?_
  extract_lets n dropped cp b joint u k
  have hu : Follows s₀ u := h1.begin_.layChangeTo
  split
  · exact trivial
  · split
    · exact trivial
    · split
      · exact h1.activateStop
      · split
        · exact trivial
        · split
          · exact trivial
          · split
            exacts [hu.other, hu]

theorem askChange {r opc ident g what} (h : Follows s₀ s) : Ans.From s₀ (s.askChange r opc ident g what) := by
  unfold State.askChange
  extract_lets u c k
  have hu : Follows s₀ u := h.begin_
  split
  exacts [hu.other, hu.layChange]

theorem forceSet {r} (h : Follows s₀ s) : Follows s₀ (Machine.forceSet r s) := by
  unfold Machine.forceSet
  refine h.command fun _ h1 => ?_
  extract_lets ident bad
  split
  · split
    · exact trivial
    · split
      · exact trivial
      · split
        exacts [trivial, h1.askChange]
  · exact trivial

theorem forceClear {r} (h : Follows s₀ s) : Follows s₀ (Machine.forceClear r s) := by
  unfold Machine.forceClear
  refine h.command fun _ h1 => ?_
  extract_lets ident
  split
  exacts [h1.askChange, h1.begin_.longDone]

theorem forceList {r} (h : Follows s₀ s) : Follows s₀ (Machine.forceList r s) := h.command fun _ h1 => h1
theorem readVar {r} (h : Follows s₀ s) : Follows s₀ (Machine.readVar r s) := h.command fun _ h1 => h1

theorem writeVar {r} (h : Follows s₀ s) : Follows s₀ (Machine.writeVar r s) := by
  unfold Machine.writeVar
  refine h.command fun _ h1 => ?_
  extract_lets ident d bad
  split
  · split
    · exact trivial
    · split
      · split
        · exact trivial
        · split
          exacts [trivial, h1.askChange]
      · exact trivial
  · exact trivial

theorem recRead {r} (h : Follows s₀ s) : Follows s₀ (Machine.recRead r s) := by
  unfold Machine.recRead
  refine h.command fun _ h1 => ?_
  extract_lets count first n
  split
  exacts [trivial, h1]

theorem recMark {r} (h : Follows s₀ s) : Follows s₀ (Machine.recMark r s) := by
  unfold Machine.recMark
  refine h.command fun _ h1 => ?_
  extract_lets code u text snap words
  have hu : Follows s₀ u := h1.judgeAll
  split
  · exact trivial
  · split
    · split
      exacts [trivial, hu.takeToken.takeSuppr]
    · exact trivial

theorem newRate {e x} (h : Follows s₀ s) : Follows s₀ (s.newRate e x) := h.other.placeKept

theorem recSetRate {r e} (h : Follows s₀ s) : Ans.From s₀ (s.recSetRate r e) := by
  unfold State.recSetRate
  extract_lets burst k
  split
  · exact trivial
  · split
    exacts [trivial, h.newRate]

theorem recSetSnap {r e} (h : Follows s₀ s) : Ans.From s₀ (s.recSetSnap r e) := by
  unfold State.recSetSnap
  extract_lets n offs k k1 k2
  split
  · exact trivial
  · split
    · exact trivial
    · split
      exacts [trivial, h.other]

theorem recRestore1 {n} (h : Follows s₀ s) : Follows s₀ (s.recRestore1 n) := by
  unfold State.recRestore1
  split
  exacts [.either h.newRate h.other, h]

theorem recConfig {r} (h : Follows s₀ s) : Follows s₀ (s.recConfig r) := by
  unfold State.recConfig
  extract_lets func n len code
  refine h.command fun _ h1 => ?_
  split
  · exact trivial
  · split
    · exact fold (fun _ _ h1 => h1.recRestore1) h1
    · split
      · exact trivial
      · split
        · exact h1.recSetRate
        · split
          · exact h1.recSetSnap
          · split
            · exact h1.recRestore1
            · split
              all_goals exact h1

theorem recConfigSetRate {r} (h : Follows s₀ s) : Follows s₀ (Machine.recConfigSetRate r s) := h.recConfig
theorem recConfigSetSnapshot {r} (h : Follows s₀ s) : Follows s₀ (Machine.recConfigSetSnapshot r s) :=
  h.recConfig
theorem recConfigRestore {r} (h : Follows s₀ s) : Follows s₀ (Machine.recConfigRestore r s) := h.recConfig
theorem recConfigReadCatalogue {r} (h : Follows s₀ s) : Follows s₀ (Machine.recConfigReadCatalogue r s) :=
  h.recConfig
theorem recConfigReadSettings {r} (h : Follows s₀ s) : Follows s₀ (Machine.recConfigReadSettings r s) :=
  h.recConfig
theorem timeGet {r} (h : Follows s₀ s) : Follows s₀ (Machine.timeGet r s) := h.command fun _ h1 => h1

theorem timeSet {r} (h : Follows s₀ s) : Follows s₀ (Machine.timeSet r s) := by
  unfold Machine.timeSet
  extract_lets mode
  refine h.command fun _ h1 => ?_
  split
  · exact trivial
  · split
    · split
      exacts [trivial, h1.setTod]
    · extract_lets c
      split
      exacts [h1.setTod, trivial]

theorem netModeReq {r} (h : Follows s₀ s) : Follows s₀ (Machine.netModeReq r s) := by
  refine h.command fun u hu => ?_
  dsimp only
  split
  · split
    · trivial
    · split
      · trivial
      · split
        · next t e => exact (hu.ghPropose e).begin_
        · trivial
  · trivial

theorem leaseStatus {r} (h : Follows s₀ s) : Follows s₀ (Machine.leaseStatus r s) := h.command fun _ h1 => h1
theorem leaseRelease {r} (h : Follows s₀ s) : Follows s₀ (Machine.leaseRelease r s) :=
  h.command fun _ h1 => h1.release

theorem reintegrate {r} (h : Follows s₀ s) : Follows s₀ (Machine.reintegrate r s) := by
  unfold Machine.reintegrate
  refine h.command fun _ h1 => ?_
  split
  exacts [trivial, h1.other.leaveExcluded]

theorem selftest {r fails} (h : Follows s₀ s) : Follows s₀ (Machine.selftest r fails s) := by
  refine h.command fun u hu => ?_
  dsimp only
  split
  · trivial
  · split
    · have hv {l} : Follows s₀ (List.foldl (fun (s : State) v => s.testPassed v) u l) := fold (fun _ _ h1 => h1.testPassed) hu
      exact either hv.free.pairFails hv.free.leFails
    · exact fold (fun _ _ h1 => h1.testPassed) hu

theorem powerBudget {r} (h : Follows s₀ s) : Follows s₀ (Machine.powerBudget r s) := by
  unfold Machine.powerBudget
  refine h.command fun _ h1 => ?_
  extract_lets b now
  split
  exacts [trivial, either h1 h1.modPwr]

theorem midnight {r} (h : Follows s₀ s) : Follows s₀ (Machine.midnight r s) := by
  refine h.command fun u hu => ?_
  extract_lets wake target timer v
  have hv : Follows s₀ v := hu.yieldActivate.begin_
  split
  · trivial
  · refine either hv.leaveRun ?_
    split
    exacts [hv.midnightEnter, hv]

theorem longOpComplete (h : Follows s₀ s) : Follows s₀ (Machine.longOpComplete s) := by
  unfold Machine.longOpComplete
  split
  · exact h
  · split
    exacts [h.longFinish, .either h.sealNow (.either h.verified (.either (.either h.longEnd h.longEnd) h))]

theorem scpFetch {full} (h : Follows s₀ s) : Follows s₀ (Machine.scpFetch full s) := by
  unfold Machine.scpFetch
  split
  · exact .either h.other h
  · split
    exacts [h, .either (.either h.emit.other h.emit.other.other.notice) h.other]

theorem supMbsubmit {part n v} (h : Follows s₀ s) : Follows s₀ (Machine.supMbsubmit part n v s) :=
  either h (.either h.inc h.set.report.other)
theorem svcDetChange {level} (h : Follows s₀ s) : Follows s₀ (Machine.svcDetChange level s) := h.other
theorem frameReply {r opc status data} (h : Follows s₀ s) : Follows s₀ (s.frameReply r opc status data) :=
  h.report.answer

theorem badRequestFrame {kind opc r} (h : Follows s₀ s) : Follows s₀ (Machine.badRequestFrame kind opc r s) := by
  unfold Machine.badRequestFrame
  extract_lets _ u
  have hu : Follows s₀ u := h.take
  refine either (either h.other h) (either h (either hu.frameReply (either hu.frameReply ?_)))
  split
  · next t e => exact hu.again e
  · exact hu.refuse

theorem sessionTimeout {load} (h : Follows s₀ s) : Follows s₀ (Machine.sessionTimeout load s) := by
  unfold Machine.sessionTimeout
  split
  · split
    exacts [h.advance.other, h]
  · split
    exacts [h.advance.other, h]

theorem authLockoutEnd {ip} (h : Follows s₀ s) : Follows s₀ (Machine.authLockoutEnd ip s) := by
  unfold Machine.authLockoutEnd
  split
  · split
    exacts [h.advance.other, h]
  · exact h

/-! ### Reg -/

theorem plainWrite {off v m} (h : Follows s₀ s) : Follows s₀ (s.plainWrite off v m) := by
  unfold State.plainWrite
  split
  exacts [h, .either h.setReg.report h.setReg]

theorem vdxReg {off v m} (h : Follows s₀ s) : Follows s₀ (s.vdxReg off v m) := by
  unfold State.vdxReg
  extract_lets k
  split
  · exact .either h.vdxDiagClr h
  · split
    · exact h.vdxComplete
    · split
      · exact .either h.vdxStrayClr h
      · split
        exacts [h.vdxSwtrig, .either h.vdxMaskWrite (.either h.vdxSrccfgWrite (.either (.either h.cntClr h) h.plainWrite))]

theorem hxReg {p off v m} (h : Follows s₀ s) : Follows s₀ (s.hxReg p off v m) := by
  unfold State.hxReg
  extract_lets k k1 u
  have hu : Follows s₀ u := either h.abort h
  exact .either h.hxIdleWrite (.either (.either hu.bankRel hu) (.either (.either h.hxTaskstatClr h) h.plainWrite))

theorem hxmReg {p off v m} (h : Follows s₀ s) : Follows s₀ (s.hxmReg p off v m) := by
  unfold State.hxmReg
  extract_lets k q who u
  have hu : Follows s₀ u := either h.hxqCntClr h
  split
  · exact .either h.hxmMemerrClr h
  · exact .either (.either h.hxmPartSramClr h)
      (.either (.either h.commit (.either h.releaseCommand h)) (.either hu.plainWrite h.plainWrite))

theorem tvlReg {off v m} (h : Follows s₀ s) : Follows s₀ (s.tvlReg off v m) :=
  either (.either h.tvlAgrcntClr h) (.either (.either h.tvlVotecntClr h) (.either (.either h.tvlLinkcntClr h) h.plainWrite))

theorem ghcReg {off v m} (h : Follows s₀ s) : Follows s₀ (s.ghcReg off v m) := by
  unfold State.ghcReg
  extract_lets k u
  have hu : Follows s₀ u := either h.ghcCntclrGhc h
  exact .either (.either h.ghcPrecClr h) (.either (.either hu.ghcCntclrGrd hu) (.either h.ghcBufsel h.plainWrite))

theorem canReg {p off v m} (h : Follows s₀ s) : Follows s₀ (s.canReg p off v m) := by
  unfold State.canReg
  extract_lets k n u
  have hu : Follows s₀ u := either h.canModeWrite h
  split
  · exact .either hu.canRecover hu
  · exact (either h.canCntClr h).plainWrite
  · exact h.canRxqRelease
  · exact h.canRxqRelease
  · exact (either h.qClear h).plainWrite
  · exact (either h.qClear h).plainWrite
  · exact h.canTxreq
  · exact h.canTxcan
  · exact (either h.canFlush h).plainWrite
  · exact h.plainWrite

theorem regWrite {p off v m} (h : Follows s₀ s) : Follows s₀ (s.regWrite p off v m) := by
  unfold State.regWrite
  extract_lets k
  split
  · exact .either (.either h.set h) (.either h.supMbsubmit h)
  · split
    · exact h.vdxReg
    · exact h.hxReg
    · exact h.hxmReg
    · exact .either (.either h.leTrapClr h) h.plainWrite
    · exact h.tvlReg
    · exact h.ghcReg
    · exact .either h.tmbAdjWrite (.either (.either h.tmbCntClr h) h.plainWrite)
    · exact .either (.either h.ethCntclr h) h.plainWrite
    · exact .either (.either h.ixsCntclr h) (.either h.ixsAck h.plainWrite)
    · exact h.canReg
    · exact .either (.either h.lrbCntclr h) h.plainWrite
    · exact .either (.either h.sioCntclr h) (.either (.either h.fltClr h) h.plainWrite)
    · exact .either h.supMbsubmit h.plainWrite
    · exact .either (.either h.recCntClr h) h.plainWrite
    · exact .either (.either h.pwrArbcntClr h) h.plainWrite
    · exact h.plainWrite

theorem regRead {p off} (h : Follows s₀ s) : Follows s₀ (s.regRead p off).1 := by
  unfold State.regRead
  split
  · exact h.tmbCapture
  · split
    · exact h.optimeRead
    · split
      exacts [h.free, h]

theorem regLoad {p off n} (h : Follows s₀ s) : Follows s₀ (s.regLoad p off n).1 :=
  foldFst (fun _ _ h1 => h1.regRead) h
theorem regStore {p off n v} (h : Follows s₀ s) : Follows s₀ (s.regStore p off n v) :=
  fold (fun _ _ h1 => h1.regWrite) h

theorem busLoad {p a n r} (h : Follows s₀ s) (e : s.busLoad p a n = .ok r) : Follows s₀ r.1 := by
  unfold State.busLoad at e
  split at e
  · cases e
  · split at e
    · cases e; exact h.regLoad
    · split at e
      · cases e
      · split at e
        · cases e; exact h.free
        · split at e
          all_goals cases e; exact h

theorem busStore {p a n v t} (h : Follows s₀ s) (e : s.busStore p a n v = .ok t) : Follows s₀ t := by
  unfold State.busStore at e
  split at e
  · cases e
  · split at e
    · cases e
    · split at e
      · cases e; exact h.regStore
      · split at e
        · split at e
          · cases e
          · cases e; exact h.pairPuts
        · cases e; exact h.wrLe.unreserve

theorem busTrap {p cause a e} (h : Follows s₀ s) : Follows s₀ (s.busTrap p cause a e) := by
  cases e
  exacts [h.absentAccess.trap, h.trap]

theorem absentUnitAccess {p a store} (h : Follows s₀ s) : Follows s₀ (Machine.absentUnitAccess p a store s) :=
  either h (.either h.busTrap (.either h.busTrap h))

theorem registerWrite {p off v} (h : Follows s₀ s) : Follows s₀ (Machine.registerWrite p off v s) := by
  unfold Machine.registerWrite
  split
  · exact h
  · split
    · next t e => exact h.busStore e
    · exact h.busTrap

/-! ### Rv -/

theorem pageUsed {key write} (h : Follows s₀ s) : Follows s₀ (s.pageUsed key write) := by
  unfold State.pageUsed
  split
  exacts [h.modPage, h]

theorem badLine {p tn va key a} (h : Follows s₀ s) : Follows s₀ (s.badLine p tn va key a) := by
  unfold State.badLine
  split
  exacts [h.pageFault, h.trap]

theorem refills {p} (h : Follows s₀ s) : Follows s₀ (s.refills p) := h.free.modPair

theorem userLoad {p tn va n} (h : Follows s₀ s) : MemOut.From s₀ (s.userLoad p tn va n) := by
  unfold State.userLoad
  split
  · split
    · split
      exacts [h.regLoad, h]
    · split
      exacts [h.badLine, h.refills.resident.pageUsed]
  · exact h.refills
  · exact h.refills
  · exact h.regLoad
  · exact h.mapStop

theorem userStore {p tn va n v} (h : Follows s₀ s) : MemOut.From s₀ (s.userStore p tn va n v) := by
  unfold State.userStore
  split
  · split
    · split
      exacts [h.regStore, h.wrLe]
    · exact h.resident.wrLe.unreserve.pageUsed
  · exact h.other
  · exact h.regStore
  · exact h.mapStop

theorem rvLoad {p a n} (h : Follows s₀ s) : MemOut.From s₀ (s.rvLoad p a n) := by
  unfold State.rvLoad
  split
  · exact h.trap
  · split
    · exact h.userLoad
    · exact h
    · have hu : Follows s₀ (if inSram a || inEmram a || s.inDdr a then s.refills p else s) := either h.refills h
      split
      · next t v e => exact hu.busLoad e
      · exact h.busTrap

theorem rvStore {p a n v} (h : Follows s₀ s) : MemOut.From s₀ (s.rvStore p a n v) := by
  unfold State.rvStore
  split
  · exact h.trap
  · split
    · exact h.userStore
    · exact h
    · split
      · next t e => exact h.busStore e
      · exact h.busTrap

theorem atomic {p a n cause k f} (h : Follows s₀ s) (hf : ∀ x0, Follows s₀ (f x0)) : Follows s₀ (s.atomic p a n cause k f) := by
  unfold State.atomic
  split
  · exact h.trap
  · split
    exacts [(hf _), .either h.busTrap h.trap]

theorem amoLoad {p a n} (h : Follows s₀ s) : MemOut.From s₀ (s.amoLoad p a n) := by
  unfold State.amoLoad
  split
  · split
    · split
      exacts [h.badLine, h]
    · exact h
    · exact h.mapStop
  · exact h
  · split
    · exact h.trap
    · split
      · next t v e => exact h.busLoad e
      · exact h.busTrap

theorem rvDone {p rd len v} (h : Follows s₀ s) : Follows s₀ (s.rvDone p rd len v) := h.modPair
theorem rvGoto {p rd v pc} (h : Follows s₀ s) : Follows s₀ (s.rvGoto p rd v pc) := h.modPair
theorem rvIllegal {p w} (h : Follows s₀ s) : Follows s₀ (s.rvIllegal p w) := h.trap

theorem rvLoadTo {p len size a unsigned fp rd} (h : Follows s₀ s) : Follows s₀ (s.rvLoadTo p len size a unsigned fp rd) := by
  have hm : MemOut.From s₀ (s.rvLoad p a (2 ^ size)) := h.rvLoad
  unfold State.rvLoadTo
  split
  · exact h.rackRead
  · split
    · next u e => exact hm.stop e
    · next u v e => exact either (hm.ok e).modPair (hm.ok e).rvDone

theorem rvStoreFrom {p len size a v} (h : Follows s₀ s) : Follows s₀ (s.rvStoreFrom p len size a v) := by
  have hm : MemOut.From s₀ (s.rvStore p a (2 ^ size) v.toNat) := h.rvStore
  unfold State.rvStoreFrom
  split
  · exact h.rackWrite
  · split
    · next u e => exact hm.stop e
    · next u _ e => exact (hm.ok e).modPair

theorem rvLr {p len dbl rd a} (h : Follows s₀ s) : Follows s₀ (s.rvLr p len dbl rd a) := by
  have hm {n} : MemOut.From s₀ (s.rvLoad p a n) := h.rvLoad
  refine either h.lrW (h.atomic fun pa => ?_)
  split
  · next u e => exact hm.stop e
  · next u v e => exact (hm.ok e).rvDone.modPair

theorem rvSc {p len dbl rd a v} (h : Follows s₀ s) : Follows s₀ (s.rvSc p len dbl rd a v) := by
  have hm {n} : MemOut.From s₀ (s.rvStore p a n v.toNat) := h.rvStore
  refine either h.scW (h.atomic fun pa => either ?_ h.rvDone.modPair)
  split
  · next u e => exact hm.stop e
  · next u _ e => exact (hm.ok e).rvDone.modPair

theorem rvAmo {p len o dbl rd a v} (h : Follows s₀ s) : Follows s₀ (s.rvAmo p len o dbl rd a v) := by
  have hm {n} : MemOut.From s₀ (s.amoLoad p a n) := h.amoLoad
  refine either h.rackAmo (h.atomic fun _ => ?_)
  split
  · next u e => exact hm.stop e
  · next u old e =>
    have hs {n w} : MemOut.From s₀ (u.rvStore p a n w) := (hm.ok e).rvStore
    dsimp only
    split
    · next t e => exact hs.stop e
    · next t _ e => exact (hs.ok e).rvDone

theorem rvCsr {p len o rd v write csr} (h : Follows s₀ s) : Follows s₀ (s.rvCsr p len o rd v write csr) :=
  either h.rvIllegal (.either h.modPair.fenceWrite (.either h.rvDone.csrWrite h.rvDone))

theorem rvEcall {p} (h : Follows s₀ s) : Follows s₀ (s.rvEcall p) := by
  unfold State.rvEcall
  split
  · exact h.trap
  · split
    exacts [h.done, h.yield, h.cycleInfo, h.pageAlloc, h.pageFree, h.pagePrefetch, h.pageFlush, h.memInfo, h.trap]

theorem rvFp {p len n rm f g} (h : Follows s₀ s) : Follows s₀ (s.rvFp p len n rm f g) := by
  unfold State.rvFp
  extract_lets r
  split
  · exact h.rvIllegal
  · split
    exacts [h.modPair, h.rvIllegal]

theorem rvRun {p len i} (h : Follows s₀ s) : Follows s₀ (s.rvRun p len i) := by
  unfold State.rvRun
  extract_lets q pc link
  split
  · exact h.rvDone
  · exact h.rvDone
  · exact h.rvGoto
  · exact h.rvGoto
  · exact h.rvGoto
  · exact h.rvLoadTo
  · exact h.rvStoreFrom
  · exact h.rvDone
  · exact h.rvDone
  · exact h.rvDone
  · exact h.rvDone
  · exact h.rvLr
  · exact h.rvSc
  · exact h.rvAmo
  · exact h.rvCsr
  · exact h.rvCsr
  · exact h.rvDone
  · exact h.rvDone
  · exact h.rvEcall
  · exact .either h.rvIllegal h.rvLoadTo
  · exact .either h.rvIllegal h.rvStoreFrom
  · exact h.rvFp
  · exact h.rvFp
  · exact h.rvFp
  · exact h.rvIllegal

theorem userFetch {p tn va} (h : Follows s₀ s) : MemOut.From s₀ (s.userFetch p tn va) := by
  unfold State.userFetch
  split
  · split
    exacts [h.badLine, h.resident]
  · exact h.mapStop

theorem rvFetch {p len} (h : Follows s₀ s) : MemOut.From s₀ (s.rvFetch p len) := by
  unfold State.rvFetch
  extract_lets pc ok
  split
  · next tn _ _ =>
    have hm : MemOut.From s₀ (s.userFetch p tn pc) := h.userFetch
    split
    · next u e => exact hm.stop e
    · next u _ e => exact (hm.ok e).userFetch
  · exact h
  · split
    · exact h
    · split
      exacts [h.busTrap, h.trap]

theorem rvReads {p r} (h : Follows s₀ s) : Follows s₀ (s.rvReads p r) :=
  fold (fun _ _ h1 => h1.report) h.lineErrs

theorem pairInstruction {p i len4 r} (h : Follows s₀ s) : Follows s₀ (Machine.pairInstruction p i len4 r s) := by
  have hm : MemOut.From s₀ ((s.rvReads p r).rvFetch p (if len4 then 4 else 2)) := h.rvReads.rvFetch
  unfold Machine.pairInstruction
  refine either h (either h.rvReads ?_)
  split
  · next u e => exact hm.stop e
  · next u _ e => exact (hm.ok e).rvRun

/-! ### Svc -/

theorem cmdChange {r opc new} (h : Follows s₀ s) : Follows s₀ (s.cmdChange r opc new) := h.stateChange
theorem serviceEnter {r} (h : Follows s₀ s) : Follows s₀ (Machine.serviceEnter r s) :=
  h.command fun _ h1 => (either h1.other h1.other.newFrames).cmdChange.canFollow
theorem resumeAll (h : Follows s₀ s) : Follows s₀ s.resumeAll := fold (fun _ _ h1 => h1.resumePair) h

theorem serviceExit {r} (h : Follows s₀ s) : Follows s₀ (Machine.serviceExit r s) := by
  unfold Machine.serviceExit
  refine h.command fun _ h1 => ?_
  split
  exacts [h1.other.cmdChange.canFollow, h1.resumeAll.stopTasks.other.cmdChange]

theorem pairMask {m f} (h : Follows s₀ s) (hf : ∀ u x1, Follows s₀ u → Follows s₀ (f u x1)) : Ans.From s₀ (s.pairMask m f) := by
  unfold State.pairMask
  split
  · exact trivial
  · split
    exacts [trivial, fold (fun _ _ h1 => .either (hf _ _ h1) h1) h]

theorem halt {r} (h : Follows s₀ s) : Follows s₀ (Machine.halt r s) :=
  h.command fun _ h1 => h1.pairMask fun _ _ h2 => h2.haltPair
theorem resume {r} (h : Follows s₀ s) : Follows s₀ (Machine.resume r s) :=
  h.command fun _ h1 => h1.pairMask fun _ _ h2 => h2.resumePair

theorem stepOne {p i} (h : Follows s₀ s) : Follows s₀ (s.stepOne p i) := by
  unfold State.stepOne
  extract_lets u
  have hu : Follows s₀ u := h.execBegin
  split
  exacts [hu.pairInstruction, hu.mret, hu.wfi, hu.ebreak]

theorem stepPair {r i} (h : Follows s₀ s) : Follows s₀ (Machine.stepPair r i s) := by
  unfold Machine.stepPair
  refine h.command fun _ h1 => ?_
  extract_lets p
  split
  · exact trivial
  · split
    · exact trivial
    · split
      exacts [trivial, h1.thaw.stepOne.haltPair]

/-- What refuses a PEEK or POKE holds no state. -/
theorem peekRefuse {r a} (e : s.peekRefuse r = some a) : Ans.From s₀ a := by
  unfold State.peekRefuse at e
  dsimp only at e
  repeat' split at e
  all_goals cases e <;> exact trivial

theorem peekMem {p f a n c} (h : Follows s₀ s) (e : State.peekMem p f s a n = some c) : Follows s₀ c.1 := by
  induction f generalizing s a n c with
  | zero => cases e; exact h
  | succ f ih =>
    unfold State.peekMem at e
    split at e
    · cases e; exact h
    · dsimp only at e
      split at e
      · cases e
      · next t v et =>
        obtain ⟨d, ed, rfl⟩ := Option.map_eq_some_iff.mp e
        have ht : Follows s₀ t := h.busLoad et
        exact (ih ht ed : Follows s₀ d.1)

theorem pokeMem {p f a d} (h : Follows s₀ s) : Follows s₀ (State.pokeMem p f s a d) := by
  induction f generalizing s a d with
  | zero => exact h
  | succ f ih =>
    unfold State.pokeMem
    split
    · exact h
    · dsimp only
      split
      · exact h
      · next t e => exact ih (h.busStore e)

theorem peek {r trail} (h : Follows s₀ s) : Follows s₀ (Machine.peek r trail s) := by
  refine h.command fun u hu => ?_
  dsimp only
  split
  · next a e => exact peekRefuse e
  · split
    · split
      · next c e => exact hu.peekMem e
      · exact hu
    · split
      exacts [hu, hu.report.modPair]

theorem poke {r} (h : Follows s₀ s) : Follows s₀ (Machine.poke r s) := by
  refine h.command fun u hu => ?_
  dsimp only
  split
  · next a e => exact peekRefuse e
  · split
    · trivial
    · split
      · split
        · trivial
        · split
          exacts [trivial, hu.pokeMem.unreserve]
      · split
        · split
          exacts [trivial, hu.csrWrite]
        · exact hu.modPair

theorem trigger {r} (h : Follows s₀ s) : Follows s₀ (Machine.trigger r s) := by
  unfold Machine.trigger
  refine h.command fun _ h1 => ?_
  extract_lets p k en
  split
  · exact trivial
  · split
    exacts [trivial, h1.modPair]

theorem bootUpdate {r} (h : Follows s₀ s) : Follows s₀ (Machine.bootUpdate r s) := by
  unfold Machine.bootUpdate
  refine h.command fun _ h1 => ?_
  extract_lets o last d img k u k1
  have hu : Follows s₀ u := h1.other
  split
  · exact trivial
  · split
    · exact hu
    · split
      exacts [hu.other.free, hu.other.refuse.countAuth]

/-! ### Step -/

theorem idle (h : Follows s₀ s) : Follows s₀ (Machine.idle s) := h.advance

/-! ### Core -/

theorem takeFor {r st} (h : Follows s₀ s) : Follows s₀ (s.takeFor r st) := either h.take h.take.keepCounter

end Follows

/-! ### The commands and the step -/

/-- Every command ends in a next state, which follows from the one it is carried out in. -/
theorem exec_follows {s₀ s : State} (h : Follows s₀ s) (i : Instr) : ∃ t, exec i s = .next t ∧ Follows s₀ t := by
  cases i with
  | gheifCycleStart => exact ⟨_, rfl, h.gheifCycleStart⟩
  | freeze => exact ⟨_, rfl, h.freeze⟩
  | agrPub => exact ⟨_, rfl, h.agrPub⟩
  | outLatch => exact ⟨_, rfl, h.outLatch⟩
  | outGo => exact ⟨_, rfl, h.outGo⟩
  | ungateRequest => exact ⟨_, rfl, h.ungateRequest⟩
  | pllRestartRequest => exact ⟨_, rfl, h.pllRestartRequest⟩
  | arbitrationWindow => exact ⟨_, rfl, h.arbitrationWindow⟩
  | pllLocked => exact ⟨_, rfl, h.pllLocked⟩
  | exceptionTrap => exact ⟨_, rfl, h.asInsn fun _ h1 => h1.exceptionTrap⟩
  | vectorEntry => exact ⟨_, rfl, h.vectorEntry⟩
  | bankSwitch => exact ⟨_, rfl, h.bankSwitch⟩
  | wfi => exact ⟨_, rfl, h.asInsn fun _ h1 => h1.wfi⟩
  | mret => exact ⟨_, rfl, h.asInsn fun _ h1 => h1.mret⟩
  | ebreak => exact ⟨_, rfl, h.asInsn fun _ h1 => h1.ebreak⟩
  | triggerHit => exact ⟨_, rfl, h.triggerHit⟩
  | bankdatWrite => exact ⟨_, rfl, h.asInsn fun _ h1 => h1.bankdatWrite⟩
  | vbaseWrite => exact ⟨_, rfl, h.asInsn fun _ h1 => h1.vbaseWrite⟩
  | plxFenceDev => exact ⟨_, rfl, h.asInsn fun _ h1 => h1.plxFenceDev⟩
  | plxFenceQ => exact ⟨_, rfl, h.asInsn fun _ h1 => h1.plxFenceQ⟩
  | plxFenceLe => exact ⟨_, rfl, h.asInsn fun _ h1 => h1.plxFenceLe⟩
  | plxFenceHx => exact ⟨_, rfl, h.asInsn fun _ h1 => h1.plxFenceHx⟩
  | fenceComplete => exact ⟨_, rfl, h.fenceComplete⟩
  | pairMismatch => exact ⟨_, rfl, h.pairMismatch⟩
  | cmpSelftest => exact ⟨_, rfl, h.cmpSelftest⟩
  | cmpTestOverdue => exact ⟨_, rfl, h.cmpTestOverdue⟩
  | sourceQualified => exact ⟨_, rfl, h.sourceQualified⟩
  | vectorCommit => exact ⟨_, rfl, h.vectorCommit⟩
  | vdxComplete => exact ⟨_, rfl, h.vdxComplete⟩
  | vdxSwtrig => exact ⟨_, rfl, h.vdxSwtrig⟩
  | vdxSrccfgWrite => exact ⟨_, rfl, h.vdxSrccfgWrite⟩
  | vdxMaskWrite => exact ⟨_, rfl, h.vdxMaskWrite⟩
  | cntClr => exact ⟨_, rfl, h.cntClr⟩
  | vdxStrayClr => exact ⟨_, rfl, h.vdxStrayClr⟩
  | vdxDiagClr => exact ⟨_, rfl, h.vdxDiagClr⟩
  | windowStart => exact ⟨_, rfl, h.windowStart⟩
  | preloadStart => exact ⟨_, rfl, h.preloadStart⟩
  | preloadDone => exact ⟨_, rfl, h.preloadDone⟩
  | saveDone => exact ⟨_, rfl, h.saveDone⟩
  | done => exact ⟨_, rfl, h.asInsn fun _ h1 => h1.done⟩
  | yield => exact ⟨_, rfl, h.asInsn fun _ h1 => h1.yield⟩
  | cycleInfo => exact ⟨_, rfl, h.asInsn fun _ h1 => h1.cycleInfo⟩
  | budgetEnd => exact ⟨_, rfl, h.budgetEnd⟩
  | abort => exact ⟨_, rfl, h.abort⟩
  | bankRel => exact ⟨_, rfl, h.bankRel⟩
  | hxIdleWrite => exact ⟨_, rfl, h.hxIdleWrite⟩
  | hxTaskstatClr => exact ⟨_, rfl, h.hxTaskstatClr⟩
  | slackQuantumEnd => exact ⟨_, rfl, h.slackQuantumEnd⟩
  | schedSwitch => exact ⟨_, rfl, h.schedSwitch⟩
  | stagingRequest => exact ⟨_, rfl, h.stagingRequest⟩
  | pageTransferDone => exact ⟨_, rfl, h.pageTransferDone⟩
  | stageMiss => exact ⟨_, rfl, h.asInsn fun _ h1 => h1.stageMissCommand⟩
  | wsetViolation => exact ⟨_, rfl, h.asInsn fun _ h1 => h1.wsetViolation⟩
  | demandFill => exact ⟨_, rfl, h.asInsn fun _ h1 => h1.demandFill⟩
  | pageAlloc => exact ⟨_, rfl, h.asInsn fun _ h1 => h1.pageAlloc⟩
  | pageFree => exact ⟨_, rfl, h.asInsn fun _ h1 => h1.pageFree⟩
  | pagePrefetch => exact ⟨_, rfl, h.asInsn fun _ h1 => h1.pagePrefetch⟩
  | pageFlush => exact ⟨_, rfl, h.asInsn fun _ h1 => h1.pageFlush⟩
  | memInfo => exact ⟨_, rfl, h.asInsn fun _ h1 => h1.memInfo⟩
  | pageOpComplete => exact ⟨_, rfl, h.pageOpComplete⟩
  | scrubPass => exact ⟨_, rfl, h.scrubPass⟩
  | memUncorr => exact ⟨_, rfl, h.memUncorr⟩
  | commit => exact ⟨_, rfl, h.commit⟩
  | release => exact ⟨_, rfl, h.releaseCommand⟩
  | queueItemVerified => exact ⟨_, rfl, h.queueItemVerified⟩
  | creditReturn => exact ⟨_, rfl, h.creditReturn⟩
  | queuePtrErr => exact ⟨_, rfl, h.queuePtrErr⟩
  | hxqCntClr => exact ⟨_, rfl, h.hxqCntClr⟩
  | hxmMemerrClr => exact ⟨_, rfl, h.hxmMemerrClr⟩
  | hxmPartSramClr => exact ⟨_, rfl, h.hxmPartSramClr⟩
  | leNop => exact ⟨_, rfl, h.leNop⟩
  | leLd => exact ⟨_, rfl, h.leLd⟩
  | leLdn => exact ⟨_, rfl, h.leLdn⟩
  | leSt => exact ⟨_, rfl, h.leSt⟩
  | leStn => exact ⟨_, rfl, h.leStn⟩
  | leS => exact ⟨_, rfl, h.leS⟩
  | leR => exact ⟨_, rfl, h.leR⟩
  | leAnd => exact ⟨_, rfl, h.leAnd⟩
  | leAndn => exact ⟨_, rfl, h.leAndn⟩
  | leOr => exact ⟨_, rfl, h.leOr⟩
  | leOrn => exact ⟨_, rfl, h.leOrn⟩
  | leXor => exact ⟨_, rfl, h.leXor⟩
  | leXorn => exact ⟨_, rfl, h.leXorn⟩
  | leNot => exact ⟨_, rfl, h.leNot⟩
  | leAndBr => exact ⟨_, rfl, h.leAndBr⟩
  | leAndnBr => exact ⟨_, rfl, h.leAndnBr⟩
  | leOrBr => exact ⟨_, rfl, h.leOrBr⟩
  | leOrnBr => exact ⟨_, rfl, h.leOrnBr⟩
  | leXorBr => exact ⟨_, rfl, h.leXorBr⟩
  | leXornBr => exact ⟨_, rfl, h.leXornBr⟩
  | leClose => exact ⟨_, rfl, h.leClose⟩
  | leEp => exact ⟨_, rfl, h.leEp⟩
  | leEn => exact ⟨_, rfl, h.leEn⟩
  | leTon => exact ⟨_, rfl, h.leTon⟩
  | leTof => exact ⟨_, rfl, h.leTof⟩
  | leTp => exact ⟨_, rfl, h.leTp⟩
  | leTrd => exact ⟨_, rfl, h.leTrd⟩
  | leCtu => exact ⟨_, rfl, h.leCtu⟩
  | leCtd => exact ⟨_, rfl, h.leCtd⟩
  | leCtld => exact ⟨_, rfl, h.leCtld⟩
  | leCtrd => exact ⟨_, rfl, h.leCtrd⟩
  | leLdw => exact ⟨_, rfl, h.leLdw⟩
  | leStw => exact ⟨_, rfl, h.leStw⟩
  | leAdd => exact ⟨_, rfl, h.leAdd⟩
  | leSub => exact ⟨_, rfl, h.leSub⟩
  | leMul => exact ⟨_, rfl, h.leMul⟩
  | leDiv => exact ⟨_, rfl, h.leDiv⟩
  | leMod => exact ⟨_, rfl, h.leMod⟩
  | leAndw => exact ⟨_, rfl, h.leAndw⟩
  | leOrw => exact ⟨_, rfl, h.leOrw⟩
  | leXorw => exact ⟨_, rfl, h.leXorw⟩
  | leShl => exact ⟨_, rfl, h.leShl⟩
  | leShr => exact ⟨_, rfl, h.leShr⟩
  | leAsr => exact ⟨_, rfl, h.leAsr⟩
  | leGtw => exact ⟨_, rfl, h.leGtw⟩
  | leGew => exact ⟨_, rfl, h.leGew⟩
  | leEqw => exact ⟨_, rfl, h.leEqw⟩
  | leNew => exact ⟨_, rfl, h.leNew⟩
  | leLtw => exact ⟨_, rfl, h.leLtw⟩
  | leLew => exact ⟨_, rfl, h.leLew⟩
  | leLdx => exact ⟨_, rfl, h.leLdx⟩
  | leJmp => exact ⟨_, rfl, h.leJmp⟩
  | leJmpc => exact ⟨_, rfl, h.leJmpc⟩
  | leJmpcn => exact ⟨_, rfl, h.leJmpcn⟩
  | leCal => exact ⟨_, rfl, h.leCal⟩
  | leCalc => exact ⟨_, rfl, h.leCalc⟩
  | leRet => exact ⟨_, rfl, h.leRet⟩
  | leSendq => exact ⟨_, rfl, h.leSendq⟩
  | leRecvq => exact ⟨_, rfl, h.leRecvq⟩
  | leEnd => exact ⟨_, rfl, h.leEnd⟩
  | leMismatch => exact ⟨_, rfl, h.leMismatch⟩
  | leCmpSelftest => exact ⟨_, rfl, h.leCmpSelftest⟩
  | bankReady => exact ⟨_, rfl, h.bankReady⟩
  | leLineRestore => exact ⟨_, rfl, h.leLineRestore⟩
  | leTrapClr => exact ⟨_, rfl, h.leTrapClr⟩
  | presenceCount => exact ⟨_, rfl, h.presenceCount⟩
  | retainSaveBurst => exact ⟨_, rfl, h.retainSaveBurst⟩
  | carryCopyOut => exact ⟨_, rfl, h.carryCopyOut⟩
  | changeSwitch => exact ⟨_, rfl, h.changeSwitch⟩
  | changeSetupDone => exact ⟨_, rfl, h.changeSetupDone⟩
  | changeDone => exact ⟨_, rfl, h.changeDone⟩
  | rawFrameRx => exact ⟨_, rfl, h.rawFrameRx⟩
  | digSend => exact ⟨_, rfl, h.digSend⟩
  | digFrameRx => exact ⟨_, rfl, h.digFrameRx⟩
  | agreementFix => exact ⟨_, rfl, h.agreementFix⟩
  | outFrameRx => exact ⟨_, rfl, h.outFrameRx⟩
  | voteComplete => exact ⟨_, rfl, h.voteComplete⟩
  | leaseLost => exact ⟨_, rfl, h.leaseLost⟩
  | guardianLeaseLapse => exact ⟨_, rfl, h.guardianLeaseLapse⟩
  | claim => exact ⟨_, rfl, h.claim⟩
  | claimRx => exact ⟨_, rfl, h.claimRx⟩
  | claimCsignRx => exact ⟨_, rfl, h.claimCsignRx⟩
  | leaseGained => exact ⟨_, rfl, h.leaseGained⟩
  | relFrameRx => exact ⟨_, rfl, h.relFrameRx⟩
  | handoverPropose => exact ⟨_, rfl, h.handoverPropose⟩
  | handoverAccept => exact ⟨_, rfl, h.handoverAccept⟩
  | handoverInstant => exact ⟨_, rfl, h.handoverInstant⟩
  | handoverGuardStart => exact ⟨_, rfl, h.handoverGuardStart⟩
  | linkDown => exact ⟨_, rfl, h.linkDown⟩
  | linkUp => exact ⟨_, rfl, h.linkUp⟩
  | runEntryProposal => exact ⟨_, rfl, h.runEntryProposal⟩
  | runBoundary => exact ⟨_, rfl, h.runBoundary⟩
  | activateProposal => exact ⟨_, rfl, h.activateProposal⟩
  | forceProposal => exact ⟨_, rfl, h.forceProposal⟩
  | syncReq => exact ⟨_, rfl, h.syncReq⟩
  | syncFrameRx => exact ⟨_, rfl, h.syncFrameRx⟩
  | syncFail => exact ⟨_, rfl, h.syncFail⟩
  | syncDone => exact ⟨_, rfl, h.syncDone⟩
  | presenceFrameSend => exact ⟨_, rfl, h.presenceFrameSend⟩
  | presenceFrameRx => exact ⟨_, rfl, h.presenceFrameRx⟩
  | tvlAgrcntClr => exact ⟨_, rfl, h.tvlAgrcntClr⟩
  | tvlVotecntClr => exact ⟨_, rfl, h.tvlVotecntClr⟩
  | tvlLinkcntClr => exact ⟨_, rfl, h.tvlLinkcntClr⟩
  | gheifFrameRx => exact ⟨_, rfl, h.gheifFrameRx⟩
  | gheifSlotTx => exact ⟨_, rfl, h.gheifSlotTx⟩
  | dynSlot => exact ⟨_, rfl, h.dynSlot⟩
  | gheifTake => exact ⟨_, rfl, h.gheifTake⟩
  | clockCorrection => exact ⟨_, rfl, h.clockCorrection⟩
  | gheifSyncLost => exact ⟨_, rfl, h.gheifSyncLost⟩
  | listenTimeout => exact ⟨_, rfl, h.listenTimeout⟩
  | casRx => exact ⟨_, rfl, h.casRx⟩
  | startFrameTx => exact ⟨_, rfl, h.startFrameTx⟩
  | echoDecision => exact ⟨_, rfl, h.echoDecision⟩
  | modeChange => exact ⟨_, rfl, h.modeChange⟩
  | guardStrobe => exact ⟨_, rfl, h.guardStrobe⟩
  | guardCut => exact ⟨_, rfl, h.guardCut⟩
  | lineActivity => exact ⟨_, rfl, h.lineActivity⟩
  | ghcBufsel => exact ⟨_, rfl, h.ghcBufsel⟩
  | ghcCntclrGhc => exact ⟨_, rfl, h.ghcCntclrGhc⟩
  | ghcCntclrGrd => exact ⟨_, rfl, h.ghcCntclrGrd⟩
  | ghcPrecClr => exact ⟨_, rfl, h.ghcPrecClr⟩
  | tmbCapture => exact ⟨_, rfl, h.tmbCapture⟩
  | timeFrameRx => exact ⟨_, rfl, h.timeFrameRx⟩
  | ptpMeasurement => exact ⟨_, rfl, h.ptpMeasurement⟩
  | tmbAdjWrite => exact ⟨_, rfl, h.tmbAdjWrite⟩
  | slewEnd => exact ⟨_, rfl, h.slewEnd⟩
  | sourceChange => exact ⟨_, rfl, h.sourceChange⟩
  | timeFrameSend => exact ⟨_, rfl, h.timeFrameSend⟩
  | rtcWrite => exact ⟨_, rfl, h.rtcWrite⟩
  | leapFlagClear => exact ⟨_, rfl, h.leapFlagClear⟩
  | launch => exact ⟨_, rfl, h.launch⟩
  | tmbCntClr => exact ⟨_, rfl, h.tmbCntClr⟩
  | ethFrameRx => exact ⟨_, rfl, h.ethFrameRx⟩
  | ptpMessageTx => exact ⟨_, rfl, h.ptpMessageTx⟩
  | ethTxItem => exact ⟨_, rfl, h.ethTxItem⟩
  | ethFrameStart => exact ⟨_, rfl, h.ethFrameStart⟩
  | pdTake => exact ⟨_, rfl, h.pdTake⟩
  | ethLinkChange => exact ⟨_, rfl, h.ethLinkChange⟩
  | ethCntclr => exact ⟨_, rfl, h.ethCntclr⟩
  | ixsProducerItem => exact ⟨_, rfl, h.ixsProducerItem⟩
  | ixsMessageRx => exact ⟨_, rfl, h.ixsMessageRx⟩
  | ixsAck => exact ⟨_, rfl, h.ixsAck⟩
  | ixsErrWindow => exact ⟨_, rfl, h.ixsErrWindow⟩
  | ixsCntclr => exact ⟨_, rfl, h.ixsCntclr⟩
  | canFrameRx => exact ⟨_, rfl, h.canFrameRx⟩
  | canTxreq => exact ⟨_, rfl, h.canTxreq⟩
  | canTxcan => exact ⟨_, rfl, h.canTxcan⟩
  | canFlush => exact ⟨_, rfl, h.canFlush⟩
  | canRecover => exact ⟨_, rfl, h.canRecover⟩
  | canModeWrite => exact ⟨_, rfl, h.canModeWrite⟩
  | canSupplyItem => exact ⟨_, rfl, h.canSupplyItem⟩
  | canRxqRelease => exact ⟨_, rfl, h.canRxqRelease⟩
  | canArbitration => exact ⟨_, rfl, h.canArbitration⟩
  | canTxComplete => exact ⟨_, rfl, h.canTxComplete⟩
  | canError => exact ⟨_, rfl, h.canError⟩
  | canBusoffEnd => exact ⟨_, rfl, h.canBusoffEnd⟩
  | filterLineRestore => exact ⟨_, rfl, h.filterLineRestore⟩
  | canCntClr => exact ⟨_, rfl, h.canCntClr⟩
  | rackRead => exact ⟨_, rfl, h.asInsn fun _ h1 => h1.rackRead⟩
  | rackWrite => exact ⟨_, rfl, h.asInsn fun _ h1 => h1.rackWrite⟩
  | rackAmo => exact ⟨_, rfl, h.asInsn fun _ h1 => h1.rackAmo⟩
  | lrW => exact ⟨_, rfl, h.asInsn fun _ h1 => h1.lrW⟩
  | scW => exact ⟨_, rfl, h.asInsn fun _ h1 => h1.scW⟩
  | rackGrant => exact ⟨_, rfl, h.rackGrant⟩
  | rackAck => exact ⟨_, rfl, h.rackAck⟩
  | lrbTimeout => exact ⟨_, rfl, h.lrbTimeout⟩
  | rackInbound => exact ⟨_, rfl, h.rackInbound⟩
  | boardCycleTimeout => exact ⟨_, rfl, h.boardCycleTimeout⟩
  | lrbLockHog => exact ⟨_, rfl, h.lrbLockHog⟩
  | prefetchAge => exact ⟨_, rfl, h.prefetchAge⟩
  | rackReadList => exact ⟨_, rfl, h.rackReadList⟩
  | rackWriteList => exact ⟨_, rfl, h.rackWriteList⟩
  | lrbCntclr => exact ⟨_, rfl, h.lrbCntclr⟩
  | diSample => exact ⟨_, rfl, h.diSample⟩
  | yState => exact ⟨_, rfl, h.yState⟩
  | discrepancy => exact ⟨_, rfl, h.discrepancy⟩
  | yLost => exact ⟨_, rfl, h.yLost⟩
  | testPulse => exact ⟨_, rfl, h.testPulse⟩
  | testPulseEnd => exact ⟨_, rfl, h.testPulseEnd⟩
  | tpOvercurrent => exact ⟨_, rfl, h.tpOvercurrent⟩
  | doOvercurrent => exact ⟨_, rfl, h.doOvercurrent⟩
  | doReadbackFault => exact ⟨_, rfl, h.doReadbackFault⟩
  | doRetry => exact ⟨_, rfl, h.doRetry⟩
  | outputTest => exact ⟨_, rfl, h.outputTest⟩
  | outputTestEnd => exact ⟨_, rfl, h.outputTestEnd⟩
  | fltClr => exact ⟨_, rfl, h.fltClr⟩
  | fsLow => exact ⟨_, rfl, h.fsLow⟩
  | fsRestored => exact ⟨_, rfl, h.fsRestored⟩
  | sioFsBudget => exact ⟨_, rfl, h.sioFsBudget⟩
  | sioCntclr => exact ⟨_, rfl, h.sioCntclr⟩
  | describe => exact ⟨_, rfl, h.describe⟩
  | getState => exact ⟨_, rfl, h.getState⟩
  | setMode => exact ⟨_, rfl, h.setMode⟩
  | restart => exact ⟨_, rfl, h.restart⟩
  | configBegin => exact ⟨_, rfl, h.configBegin⟩
  | configWrite => exact ⟨_, rfl, h.configWrite⟩
  | configSeal => exact ⟨_, rfl, h.configSeal⟩
  | loadBegin => exact ⟨_, rfl, h.loadBegin⟩
  | loadBlock => exact ⟨_, rfl, h.loadBlock⟩
  | loadVerify => exact ⟨_, rfl, h.loadVerify⟩
  | activate => exact ⟨_, rfl, h.activateCommand⟩
  | forceSet => exact ⟨_, rfl, h.forceSet⟩
  | forceClear => exact ⟨_, rfl, h.forceClear⟩
  | forceList => exact ⟨_, rfl, h.forceList⟩
  | readVar => exact ⟨_, rfl, h.readVar⟩
  | writeVar => exact ⟨_, rfl, h.writeVar⟩
  | recRead => exact ⟨_, rfl, h.recRead⟩
  | recMark => exact ⟨_, rfl, h.recMark⟩
  | recConfigSetRate => exact ⟨_, rfl, h.recConfigSetRate⟩
  | recConfigSetSnapshot => exact ⟨_, rfl, h.recConfigSetSnapshot⟩
  | recConfigRestore => exact ⟨_, rfl, h.recConfigRestore⟩
  | recConfigReadCatalogue => exact ⟨_, rfl, h.recConfigReadCatalogue⟩
  | recConfigReadSettings => exact ⟨_, rfl, h.recConfigReadSettings⟩
  | timeGet => exact ⟨_, rfl, h.timeGet⟩
  | timeSet => exact ⟨_, rfl, h.timeSet⟩
  | netModeReq => exact ⟨_, rfl, h.netModeReq⟩
  | leaseStatus => exact ⟨_, rfl, h.leaseStatus⟩
  | leaseRelease => exact ⟨_, rfl, h.leaseRelease⟩
  | reintegrate => exact ⟨_, rfl, h.reintegrate⟩
  | selftest => exact ⟨_, rfl, h.selftest⟩
  | powerBudget => exact ⟨_, rfl, h.powerBudget⟩
  | midnight => exact ⟨_, rfl, h.midnight⟩
  | serviceEnter => exact ⟨_, rfl, h.serviceEnter⟩
  | serviceExit => exact ⟨_, rfl, h.serviceExit⟩
  | halt => exact ⟨_, rfl, h.halt⟩
  | stepPair => exact ⟨_, rfl, h.stepPair⟩
  | resume => exact ⟨_, rfl, h.resume⟩
  | peek => exact ⟨_, rfl, h.peek⟩
  | poke => exact ⟨_, rfl, h.poke⟩
  | trigger => exact ⟨_, rfl, h.trigger⟩
  | bootUpdate => exact ⟨_, rfl, h.bootUpdate⟩
  | longOpComplete => exact ⟨_, rfl, h.longOpComplete⟩
  | scpFetch => exact ⟨_, rfl, h.scpFetch⟩
  | supMbsubmit => exact ⟨_, rfl, h.supMbsubmit⟩
  | sessionTimeout => exact ⟨_, rfl, h.sessionTimeout⟩
  | authLockoutEnd => exact ⟨_, rfl, h.authLockoutEnd⟩
  | svcDetChange => exact ⟨_, rfl, h.svcDetChange⟩
  | clockCheck => exact ⟨_, rfl, h.clockCheck⟩
  | pllLockLost => exact ⟨_, rfl, h.pllLockLost⟩
  | supSelfcheckFail => exact ⟨_, rfl, h.supSelfcheckFail⟩
  | rstNAssert => exact ⟨_, rfl, h.rstNAssert⟩
  | rstNRelease => exact ⟨_, rfl, h.rstNRelease⟩
  | powerGood => exact ⟨_, rfl, h.powerGood⟩
  | dawnEnd => exact ⟨_, rfl, h.dawnEnd⟩
  | mateOpen => exact ⟨_, rfl, h.mateOpen⟩
  | holdupEnter => exact ⟨_, rfl, h.holdupEnter⟩
  | supplyDip => exact ⟨_, rfl, h.supplyDip⟩
  | supplyFail => exact ⟨_, rfl, h.supplyFail⟩
  | powerGoodWithdraw => exact ⟨_, rfl, h.powerGoodWithdraw⟩
  | midnightWake => exact ⟨_, rfl, h.midnightWake⟩
  | budgetCheck => exact ⟨_, rfl, h.budgetCheck⟩
  | nightCapLow => exact ⟨_, rfl, h.nightCapLow⟩
  | counterCopy => exact ⟨_, rfl, h.counterCopy⟩
  | optimeRead => exact ⟨_, rfl, h.optimeRead⟩
  | pwrArbcntClr => exact ⟨_, rfl, h.pwrArbcntClr⟩
  | recordEvent => exact ⟨_, rfl, h.recordEvent⟩
  | recRingWrite => exact ⟨_, rfl, h.recRingWrite⟩
  | tokenRefill => exact ⟨_, rfl, h.tokenRefill⟩
  | recCntClr => exact ⟨_, rfl, h.recCntClr⟩
  | absentUnitAccess => exact ⟨_, rfl, h.absentUnitAccess⟩
  | registerWrite => exact ⟨_, rfl, h.registerWrite⟩
  | pairInstruction => exact ⟨_, rfl, h.asInsn fun _ h1 => h1.pairInstruction⟩
  | cmpTestDue => exact ⟨_, rfl, h.cmpTestDue⟩
  | cmpSelftestEnd => exact ⟨_, rfl, h.cmpSelftestEnd⟩
  | linkExcludeEnd => exact ⟨_, rfl, h.linkExcludeEnd⟩
  | semaphoreExpiry => exact ⟨_, rfl, h.semaphoreExpiry⟩
  | supervisorMismatch => exact ⟨_, rfl, h.supervisorMismatch⟩
  | posChanged => exact ⟨_, rfl, h.posChanged⟩
  | nightValidClear => exact ⟨_, rfl, h.nightValidClear⟩
  | badRequestFrame => exact ⟨_, rfl, h.badRequestFrame⟩

theorem idle_follows (s : State) : Follows s (idle s) := (Follows.refl s).advance

/-- A step answers what follows from the state without the command at the front of its queue. -/
theorem step_follows (s : State) : ∃ t, step s = .next t ∧ Follows { s with pending := s.pending.tail } t := by
  unfold step
  split
  · next hp =>
    obtain ⟨hk, hq, hc⟩ := idle_follows s
    exact ⟨_, rfl, hk, hq.trans (by simp [hp]), hc⟩
  · next c r hp =>
    rw [hp]
    exact exec_follows (.refl _) c

/-- Settles O60: every command and every step answers a state that follows from the one before. -/
theorem stepKeepsTimeAndRecord : Obligations.StepKeepsTimeAndRecord := by
  refine ⟨fun i s => ?_, fun s => ?_⟩
  · obtain ⟨t, he, h⟩ := exec_follows (.refl s) i
    exact ⟨t, he, h.keeps, h.pending⟩
  · obtain ⟨t, he, h⟩ := step_follows s
    exact ⟨t, he, h.keeps, h.pending⟩

/-- Settles O59: what follows from a state in canonical form is in canonical form. -/
theorem stepKeepsCanonicalForm : Obligations.StepKeepsCanonicalForm := by
  intro s t hs hst
  obtain ⟨u, hu, h⟩ := step_follows s
  cases hu.symm.trans hst
  exact h.canonical hs

end Sys2Proof.Machine
end


section
/-! SUPPORT. The state at reset (R14, R48, R86, R87). -/
namespace Sys2Proof.Machine
open Sys2Proof.Claims
set_option Elab.async false

/-- Every VDX source is masked at reset, at priority 0 (R86, R87). -/
theorem reset_sources_masked : ∀ n, n < 512 → State.reset.masked n = true ∧ State.reset.get (F.VDX_SRCCFG_PRIO n) = 0 := by
  decide +kernel

/-- Nothing is stored at reset, so both stores are in canonical form. -/
theorem reset_canonical : State.reset.Canonical := ⟨twf_nil _, twf_nil _⟩

/-- Settles O56: the registers by their reset rows, the sources by `reset_sources_masked`, the rest as the state is written down. -/
theorem resetState : Obligations.ResetState := by
  refine ⟨⟨rfl, rfl, rfl, rfl, rfl, ?_, ?_, reset_sources_masked, fun p => ⟨rfl, rfl, rfl, rfl, rfl⟩⟩, reset_canonical⟩
  · decide +kernel
  · decide +kernel

end Sys2Proof.Machine
end

section
/-!
SUPPORT. What an instruction of a pair does to the pair (R44, R48), and the way of a machine-mode instruction to its meaning; then the identity
registers (R2 to R5).
-/
namespace Sys2Proof.Machine
open Sys2Proof.Claims
set_option Elab.async false

/-! ### A pair's banks and registers -/

@[simp] theorem Pair.bank_setCur_same (q : Pair) (v : Bank) : (q.setCur v).bank q.cur = v := by
  simp [Pair.setCur, Pair.setBank, Pair.bank]

theorem Pair.bank_setCur_other (q : Pair) (v : Bank) (b : Nat) (h : b ≠ q.cur) : (q.setCur v).bank b = q.bank b := by
  simp [Pair.setCur, Pair.setBank, Pair.bank, h]

@[simp] theorem Pair.curBank_setCur (q : Pair) (v : Bank) : (q.setCur v).curBank = v := q.bank_setCur_same v

@[simp] theorem Pair.cur_setX (q : Pair) (r : Nat) (v : DWord) : (q.setX r v).cur = q.cur := by
  unfold Pair.setX
  split <;> rfl

@[simp] theorem Pair.minstret_setX (q : Pair) (r : Nat) (v : DWord) : (q.setX r v).minstret = q.minstret := by
  unfold Pair.setX
  split <;> rfl

@[simp] theorem Pair.mcountinhibit_setX (q : Pair) (r : Nat) (v : DWord) : (q.setX r v).mcountinhibit = q.mcountinhibit := by
  unfold Pair.setX
  split <;> rfl

/-- A register write changes the integer registers of the bank in use alone. -/
theorem Pair.curBank_setX (q : Pair) (r : Nat) (v : DWord) :
    (q.setX r v).curBank = { q.curBank with x := if r = 0 then q.curBank.x else tput dwordD q.curBank.x r v } := by
  unfold Pair.setX
  split <;> simp

theorem Pair.bank_setX_other (q : Pair) (r b : Nat) (v : DWord) (h : b ≠ q.cur) : (q.setX r v).bank b = q.bank b := by
  unfold Pair.setX
  split
  exacts [rfl, q.bank_setCur_other _ b h]

theorem Pair.x_setX_same (q : Pair) (r : Nat) (v : DWord) (h : 0 < r) : (q.setX r v).x r = v := by
  simp [Pair.x, q.curBank_setX, Nat.ne_of_gt h]

theorem Pair.x_setX_other (q : Pair) (r k : Nat) (v : DWord) (h : k ≠ r) : (q.setX r v).x k = q.x k := by
  unfold Pair.x
  rw [q.curBank_setX]
  by_cases hr : r = 0 <;> simp [hr, h]

/-- A retirement moves the pc of the bank in use and leaves the rest of it. -/
@[simp] theorem Pair.curBank_retireTo (q : Pair) (pc : Nat) : (q.retireTo pc).curBank = { q.curBank with pc := pc % 2 ^ 64 } :=
  Pair.curBank_setCur _ _

@[simp] theorem Pair.cur_retireTo (q : Pair) (pc : Nat) : (q.retireTo pc).cur = q.cur := rfl
@[simp] theorem Pair.pc_retireTo (q : Pair) (pc : Nat) : (q.retireTo pc).pc = pc % 2 ^ 64 := by simp [Pair.pc]
@[simp] theorem Pair.lastPc_retireTo (q : Pair) (pc : Nat) : (q.retireTo pc).lastPc = q.pc := rfl
@[simp] theorem Pair.x_retireTo (q : Pair) (pc k : Nat) : (q.retireTo pc).x k = q.x k := by simp [Pair.x]

@[simp] theorem Pair.minstret_retireTo (q : Pair) (pc : Nat) :
    (q.retireTo pc).minstret = if q.mcountinhibit.testBit 2 then q.minstret else (q.minstret + 1) % 2 ^ 64 := rfl

theorem Pair.bank_retireTo_other (q : Pair) (pc b : Nat) (h : b ≠ q.cur) : (q.retireTo pc).bank b = q.bank b :=
  Pair.bank_setCur_other _ _ b h

@[simp] theorem Pair.pc_setX (q : Pair) (r : Nat) (v : DWord) : (q.setX r v).pc = q.pc := by simp [Pair.pc, q.curBank_setX]

/-- A register write and a retirement, as `RetiresWith` says them. -/
theorem State.retiresWith_modPair (s : State) (p rd pc : Nat) (v : DWord) :
    RetiresWith s (s.modPair p fun q => (q.setX rd v).retireTo pc) p pc rd v := by
  refine ⟨⟨?_, ?_, ?_⟩, fun h => ?_, fun r h => ?_, ?_, ?_, ?_, fun b h => ?_, fun q h => s.pair_modPair_other p q _ h, rfl⟩
  · simp
  · simp
  · simp
  · simp [Pair.x_setX_same _ _ _ h]
  · simp [Pair.x_setX_other _ _ _ _ h]
  · simp [Pair.x]
  · simp [Pair.curBank_setX]
  · simp [Pair.curBank_setX]
  · rw [s.pair_modPair_same, Pair.bank_retireTo_other _ _ _ (by simpa using h), Pair.bank_setX_other _ _ _ _ h]

theorem State.retiresWith_rvDone (s : State) (p rd len : Nat) (v : DWord) : RetiresWith s (s.rvDone p rd len v) p ((s.pair p).pc + len) rd v :=
  s.retiresWith_modPair p rd ((s.pair p).pc + len) v

/-! ### The way of a machine-mode instruction -/

/-- In machine mode no activation's execution time is measured (R115). -/
theorem State.execBegin_machine (s : State) (p : Fin 4) (hm : (s.pair p).umode = false) : s.execBegin p = s := by
  unfold State.execBegin
  split
  · simp [hm]
  · rfl

/-- A fetch in machine mode changes nothing. -/
theorem State.rvFetch_machine (s u : State) (p len n : Nat) (hm : (s.pair p).umode = false) (h : s.rvFetch p len = .ok u n) : u = s := by
  unfold State.rvFetch at h
  simp only [hm] at h
  split at h
  · cases h; rfl
  · split at h <;> cases h

/-- A machine-mode instruction whose fetch ends well, with no reads to report, comes to its meaning. -/
theorem exec_pairInstruction_machine (s : State) (p : Fin 4) (len4 : Bool) (i : RvInsn) (hm : (s.pair p).umode = false)
    (h : Fetched s s p len4 ⟨[], []⟩) : exec (.pairInstruction p i ⟨len4, ⟨[], []⟩⟩) s = .next (s.rvRun p (lengthOf len4) i) := by
  obtain ⟨⟨he, ht⟩, -, hf⟩ := h
  have hb := s.execBegin_machine p hm
  rw [hb] at hf
  have hr : s.rvReads p ⟨[], []⟩ = s := rfl
  rw [hr] at hf
  show Host.Outcome.next (s.asInsn p (pairInstruction p i len4 ⟨[], []⟩)) = _
  have hrun : pairInstruction p i len4 ⟨[], []⟩ s = s.rvRun p (lengthOf len4) i := by
    unfold lengthOf at hf ⊢
    simp [pairInstruction, he, hr, hf]
  simp [State.asInsn, he, ht, hb, hrun]

/-! ### The identity registers -/

theorem State.readReg_cap0 (s : State) : s.readReg 0x10 = BitVec.ofNat 32 (cap0 s.ident.variant) := rfl
theorem State.readReg_cap1 (s : State) : s.readReg 0x14 = BitVec.ofNat 32 (cap1 s.ident) := rfl

theorem cap0_lt (v : Variant) : cap0 v < 2 ^ 31 := by cases v <;> decide

theorem cap1_lt (i : Ident) : cap1 i < 2 ^ 31 := by
  unfold cap1 b2n
  cases i.variant <;> cases i.coated <;> decide

/-- A unit is fitted where SYS_CAP0 has its bit (R4). -/
theorem State.readReg_cap0_bit (s : State) (b : Nat) (h : b < 32) : (s.readReg 0x10).getLsbD b = s.cap b := by
  rw [s.readReg_cap0, BitVec.getLsbD_ofNat, decide_eq_true h, Bool.true_and]
  rfl

/-- A word of 31 bits is the same read signed and unsigned (R44). -/
theorem rackExt_word (u : Bool) (v : Nat) (h : v < 2 ^ 31) : rackExt 2 u v = v := by
  unfold rackExt
  split
  · rfl
  · unfold toSigned ofSigned
    norm_num at h ⊢
    have : v % 4294967296 = v := by omega
    rw [this, if_pos h]
    omega

/-- The registers of the first block stand in every module (R7). -/
theorem State.busStop_identity (s : State) (p off : Nat) (h : off = 0x10 ∨ off = 0x14) : s.busStop p (0x40000000 + off) 4 = none := by
  obtain rfl | rfl := h <;> rfl

/-- One register, read as a word. -/
theorem State.regLoad_word (s : State) (p off : Nat) (h : off % 4 = 0) :
    s.regLoad p off 4 = ((s.regRead p off).1, (s.regRead p off).2.toNat) := by
  have hd : off / 4 * 4 = off := by omega
  have hlt := (s.regRead p off).2.isLt
  simp [State.regLoad, h, hd, List.range_one, Nat.mod_eq_of_lt hlt]

/-- Through the register window a machine-mode load reads an identity register and changes nothing. -/
theorem State.busLoad_identity (s : State) (p off : Nat) (h : off = 0x10 ∨ off = 0x14) :
    s.busLoad p (0x40000000 + off) 4 = .ok (s, (s.readReg off).toNat) := by
  have hr : s.regRead p off = (s, s.readReg off) := by
    unfold State.regRead
    obtain rfl | rfl := h <;> rw [if_neg (by omega)] <;> rfl
  have hw : (inRegs (0x40000000 + off) && !inPort (0x40000000 + off)) = true := by obtain rfl | rfl := h <;> rfl
  unfold State.busLoad
  rw [s.busStop_identity p off h]
  simp only [hw, if_true]
  rw [Nat.add_sub_cancel_left, s.regLoad_word p off (by omega), hr]

/-- A 32-bit load of an identity register retires with its value. -/
theorem State.rvLoadTo_identity (s : State) (p len off : Nat) (u : Bool) (rd : Fin 32) (h : off = 0x10 ∨ off = 0x14)
    (hm : (s.pair p).umode = false) :
    s.rvLoadTo p len 2 (0x40000000 + off) u false rd = s.rvDone p rd len ((s.readReg off).setWidth 64) := by
  have hv : (s.readReg off).toNat < 2 ^ 31 := by
    obtain rfl | rfl := h
    · exact Nat.lt_of_le_of_lt (Nat.mod_le _ _) (cap0_lt _)
    · exact Nat.lt_of_le_of_lt (Nat.mod_le _ _) (cap1_lt _)
  have hrack : inRack (0x40000000 + off) = false := by obtain rfl | rfl := h <;> rfl
  have hline : s.crosses p (0x40000000 + off) (2 ^ 2) = false := by
    have hl : decide ((0x40000000 + off) / 64 ≠ (0x40000000 + off + 2 ^ 2 - 1) / 64) = false := by obtain rfl | rfl := h <;> rfl
    unfold State.crosses
    rw [hl, Bool.false_and]
  have hmem : (inSram (0x40000000 + off) || inEmram (0x40000000 + off) || s.inDdr (0x40000000 + off)) = false := by
    obtain rfl | rfl := h <;> rfl
  have hload : s.rvLoad p (0x40000000 + off) (2 ^ 2) = .ok s (s.readReg off).toNat := by
    unfold State.rvLoad
    simp only [hline, hm, hmem, Bool.false_eq_true, if_false]
    rw [show (2 : Nat) ^ 2 = 4 from rfl, s.busLoad_identity p off h]
  unfold State.rvLoadTo
  simp only [hrack, hload, rackExt_word u _ hv, Bool.and_false, Bool.false_and, Bool.false_eq_true, if_false]
  rw [BitVec.ofNat_toNat]

/-- Settles O54: the two registers are made of the variant's constants, whose bits the fitted units are; a load reads them by
`rvLoadTo_identity`. -/
theorem identityRegisters : Obligations.IdentityRegisters := by
  intro s
  have bit (b : Nat) (h : b < 32) : s.cap b = (s.readReg 0x10).getLsbD b := (s.readReg_cap0_bit b h).symm
  refine ⟨?_, ?_, ?_, ?_, ?_, ?_, bit 7 (by omega), bit 8 (by omega), bit 16 (by omega), bit 16 (by omega), ?_, ?_, bit 18 (by omega),
    bit 19 (by omega), ?_, ?_, ?_, ?_, ?_, ?_⟩
  · rw [s.readReg_cap0]
    cases s.ident.variant <;> rfl
  · rw [s.readReg_cap1]
    unfold cap1
    cases s.ident.variant <;> cases s.ident.coated <;> rfl
  · intro p len4 u rd rs1 ofs off ho hm hf ha
    refine ⟨_, exec_pairInstruction_machine s p len4 _ hm hf, ?_⟩
    have hrun : s.rvRun p (lengthOf len4) (.load .w u rd rs1 ofs) =
        s.rvLoadTo p (lengthOf len4) 2 ((s.pair p).x rs1 + ofs).toNat u false rd := rfl
    rw [hrun, ha, s.rvLoadTo_identity p _ off u rd ho hm]
    exact s.retiresWith_rvDone p rd _ _
  · intro p hp
    simp [State.pairFitted, hp, bit p (by omega)]
  · intro e he
    simp [State.engineFitted, he, bit (4 + e) (by omega)]
  · intro n hn
    simp [State.canFitted, hn, bit (10 + n) (by omega)]
  · exact bit 17 (by omega)
  · exact bit 17 (by omega)
  · intro p hp
    unfold State.pairFitted State.cap
    interval_cases p <;> cases s.ident.variant <;> rfl
  · unfold State.engineFitted State.cap
    cases s.ident.variant <;> rfl
  · unfold State.engineFitted State.cap
    cases s.ident.variant <;> rfl
  · unfold State.lrbFitted State.cap
    cases s.ident.variant <;> rfl
  · unfold State.sioFitted State.cap
    cases s.ident.variant <;> rfl
  · unfold State.ddrSize cap1
    cases s.ident.variant <;> cases s.ident.coated <;> rfl

end Sys2Proof.Machine
end

section
/-! SUPPORT. An exception taken at mtvec.BASE (R50, R55), and what an access of machine mode meets at an address (R7, R8, R13 to R15). -/
namespace Sys2Proof.Machine
open Sys2Proof.Claims
set_option Elab.async false

/-! ### An exception -/

/-- An entry to machine mode is one in the saved registers alone; the banks stay. -/
@[simp] theorem Pair.curBank_enter (q : Pair) (pc cause tval first : Nat) : (q.enter pc cause tval first).curBank = q.curBank := rfl
@[simp] theorem Pair.bank_enter (q : Pair) (pc cause tval first b : Nat) : (q.enter pc cause tval first).bank b = q.bank b := rfl

@[simp] theorem Pair.curBank_setPc (q : Pair) (v : Nat) : (q.setPc v).curBank = { q.curBank with pc := v % 2 ^ 64 } := q.curBank_setCur _
theorem Pair.bank_setPc_other (q : Pair) (v b : Nat) (h : b ≠ q.cur) : (q.setPc v).bank b = q.bank b := q.bank_setCur_other _ b h

@[simp] theorem State.pair_leaveRack (s : State) (p q : Nat) : (s.leaveRack p).pair q = s.pair q := rfl

/-- The pair that has taken an exception with mtvec.BASE set. -/
theorem State.pair_trap (s : State) (p cause tval : Nat) (h : (s.pair p).mtvec ≠ 0) :
    (s.trap p cause tval).pair p =
      ((s.pair p).enter (s.pair p).pc cause tval (s.pair p).mtvec).setPc (s.pair p).mtvec := by
  unfold State.trap
  simp [h]
  rfl

theorem State.takesTrap_trap (s : State) (p cause tval : Nat) (h : (s.pair p).mtvec ≠ 0) : TakesTrap s (s.trap p cause tval) p cause tval := by
  have hp := s.pair_trap p cause tval h
  have hq : ∀ q, q ≠ p → (s.trap p cause tval).pair q = s.pair q := fun q hne => by
    unfold State.trap
    simp [h, State.pair_modPair_other _ _ _ _ hne]
  have hs : s.trap p cause tval = { s with pairs := (s.trap p cause tval).pairs, lrb := (s.trap p cause tval).lrb } := by
    unfold State.trap
    simp only [h, ne_eq, not_false_eq_true, if_true]
    rfl
  have same : SameRegisters s (s.trap p cause tval) p := by
    rw [SameRegisters, hp]
    exact ⟨fun r => by simp [Pair.x], by simp, by simp, rfl, fun b hb => Pair.bank_setPc_other _ _ _ hb⟩
  refine ⟨⟨?_, ?_, ?_⟩, by rw [hs]⟩
  · rw [Saved, hp]
    exact ⟨rfl, rfl, rfl, rfl, rfl, rfl, rfl, rfl, rfl, rfl, rfl, same, rfl, rfl, hq⟩
  · rw [hp]
    simp [Pair.pc]
  · rw [hs]

/-! ### Registers without behaviour of their own -/

/-- A write in every byte lane, bit by bit (R13, R14). -/
theorem RegRow.getLsbD_written (r : RegRow) (config : Bool) (old v : Word) (b : Nat) :
    (r.written config old v (BitVec.allOnes 32)).getLsbD b =
      ((if (r.accMask .rw).getLsbD b || (config && (cfgMask r).getLsbD b) then v.getLsbD b else old.getLsbD b) &&
        !(v.getLsbD b && (r.accMask .w1c).getLsbD b)) := by
  by_cases hb : b < 32
  · simp only [RegRow.written, BitVec.allOnes_and, BitVec.and_allOnes, BitVec.getLsbD_and, BitVec.getLsbD_or, BitVec.getLsbD_not, hb,
      decide_true, Bool.true_and]
    cases config
    · rw [if_neg Bool.false_ne_true, show (0 : Word).getLsbD b = false from BitVec.getLsbD_zero, Bool.false_and]
      cases (r.accMask .rw).getLsbD b <;> simp
    · rw [if_pos rfl, Bool.true_and]
      cases (r.accMask .rw).getLsbD b <;> cases (cfgMask r).getLsbD b <;> simp
  · have hout (x : Word) : x.getLsbD b = false := BitVec.getLsbD_of_ge x b (by omega)
    simp [hout]

/-! ### The way of a machine-mode store to a register -/

/-- A word-aligned offset of the register space is absent where its unit is (R7). -/
theorem State.absentAt_reg (s : State) (off k : Nat) (h : off < 0x100000) (ha : off % 4 = 0) (hk : k < 4) :
    s.absentAt (0x40000000 + off + k) = !(s.offFitted off) := by
  have hin : inRegs (0x40000000 + off + k) = true := by simp [inRegs]; omega
  have ho : (0x40000000 + off + k - 0x40000000) / 4 * 4 = off := by omega
  rw [State.absentAt, if_pos hin, ho]

/-- An aligned word lies in one capture bank, of this pair or another (R302). -/
theorem foreignBank_word (p off : Nat) (ha : off % 4 = 0) : foreignBank p (0x40000000 + off + 3) = foreignBank p (0x40000000 + off) := by
  unfold foreignBank
  rw [decide_eq_decide]
  omega

/-- A word stored to one register is a write of it in every byte lane. -/
theorem State.regStore_word (s : State) (p off : Nat) (v : Word) (h : off % 4 = 0) :
    s.regStore p off 4 v.toNat = s.regWrite p off v (BitVec.allOnes 32) := by
  have hd : off / 4 * 4 = off := by omega
  have hv : v.toNat % 4294967296 = v.toNat := Nat.mod_eq_of_lt v.isLt
  simp [State.regStore, h, hd, List.range_one, hv]

/-- A machine-mode store of a word to a register of a fitted unit is the register's own write. -/
theorem State.busStore_reg (s : State) (p off : Nat) (v : Word) (h : off < 0x100000) (ha : off % 4 = 0) (hf : s.offFitted off = true)
    (hb : foreignBank p (0x40000000 + off) = false) (hp : inPort (0x40000000 + off) = false) :
    s.busStore p (0x40000000 + off) 4 v.toNat = .ok (s.regWrite p off v (BitVec.allOnes 32)) := by
  have hin : inRegs (0x40000000 + off) = true := by simp [inRegs]; omega
  have hstop : s.busStop p (0x40000000 + off) 4 = none := by
    have h0 := s.absentAt_reg off 0 h ha (by omega)
    have h3 := s.absentAt_reg off 3 h ha (by omega)
    have hlast : 0x40000000 + off + 4 - 1 = 0x40000000 + off + 3 := rfl
    rw [State.busStop, hlast, foreignBank_word p off ha, h3, ← Nat.add_zero (0x40000000 + off), h0]
    simp [hf, hin, hb]
  have hmay : s.mayStore (0x40000000 + off) = true := by rw [State.mayStore, if_pos hin]
  rw [State.busStore, hstop]
  simp only [hmay, hin, hp, Bool.not_true, Bool.not_false, Bool.and_self, Bool.false_eq_true, if_false, if_true]
  rw [Nat.add_sub_cancel_left, s.regStore_word p off v ha]

/-- What a machine-mode store to a register does. -/
theorem exec_registerWrite_plain (s : State) (p : Fin 4) (off : Nat) (v : Word) (he : s.executes p = true) (hm : (s.pair p).umode = false)
    (h : off < 0x100000) (hb : foreignBank p (0x40000000 + off) = false) (hp : inPort (0x40000000 + off) = false) (ha : off % 4 = 0)
    (hf : s.offFitted off = true) (hw : ∀ (x : State) (w m : Word), x.regWrite p off w m = x.plainWrite off w m) :
    exec (.registerWrite p off v) s = .next (s.plainWrite off v (BitVec.allOnes 32)) := by
  show Host.Outcome.next (registerWrite p off v s) = _
  unfold registerWrite
  simp only [he, hm, Bool.not_true, Bool.or_self, Bool.false_eq_true, if_false]
  rw [s.busStore_reg p off v h ha hf hb hp, hw]

/-! ### Accesses that no region of the map takes -/

/-- An access that meets an error response at its address is a store that traps. -/
theorem exec_registerWrite_stopped (s : State) (p : Fin 4) (off : Nat) (v : Word) (e : BusErr) (he : s.executes p = true)
    (hm : (s.pair p).umode = false) (hs : s.busStop p (0x40000000 + off) 4 = some e) :
    exec (.registerWrite p off v) s = .next (s.busTrap p 7 (0x40000000 + off) e) := by
  show Host.Outcome.next (registerWrite p off v s) = _
  unfold registerWrite
  simp only [he, hm, Bool.not_true, Bool.or_self, Bool.false_eq_true, if_false]
  rw [State.busStore, hs]

/-- The DDR of every variant lies in its window of the map (R5, R122). -/
theorem State.ddrSize_le (s : State) : s.ddrSize ≤ 0x100000000 := by
  unfold State.ddrSize cap1
  cases s.ident.variant <;> cases s.ident.coated <;> decide

/-- An address outside the map lies in no region of it. -/
theorem inMap_eq_false {a : Nat} (h : inMap a = false) :
    inSram a = false ∧ inEmram a = false ∧ inRegs a = false ∧ inLe a = false ∧ inCan a = false ∧ inRack a = false ∧
      ¬ (0x1000000000 ≤ a ∧ a < 0x1100000000) := by
  simp only [inMap, Bool.or_eq_false_iff, decide_eq_false_iff_not] at h
  obtain ⟨⟨⟨⟨⟨⟨hsram, hemram⟩, hregs⟩, hle⟩, hcan⟩, hrack⟩, hddr⟩ := h
  exact ⟨hsram, hemram, hregs, hle, hcan, hrack, hddr⟩

/-- Outside the map no unit is absent. -/
theorem State.absentAt_outside (s : State) (a : Nat) (h : inMap a = false) : s.absentAt a = false := by
  obtain ⟨-, -, hregs, hle, hcan, hrack, hddr⟩ := inMap_eq_false h
  have hd : ¬ (ddrBase + s.ddrSize ≤ a ∧ a < 0x1100000000) := fun ⟨hlo, hhi⟩ => hddr ⟨by unfold ddrBase at hlo; omega, hhi⟩
  simp [State.absentAt, hregs, hle, hcan, hrack, hd]

/-- The last byte of a word lies between two word addresses where the first one does. -/
theorem between_word {a lo hi : Nat} (h : a % 4 = 0) (hlo : lo % 4 = 0) (hhi : hi % 4 = 0) :
    decide (lo ≤ a + 3 ∧ a + 3 < hi) = decide (lo ≤ a ∧ a < hi) :=
  decide_eq_decide.mpr (by omega)

/-- The regions of the map begin and end at word addresses. -/
theorem inMap_word (a : Nat) (h : a % 4 = 0) : inMap (a + 3) = inMap a := by
  have hsram : inSram (a + 3) = inSram a := between_word h rfl rfl
  have hemram : inEmram (a + 3) = inEmram a := between_word h rfl rfl
  have hregs : inRegs (a + 3) = inRegs a := between_word h rfl rfl
  have hle : inLe (a + 3) = inLe a := between_word h rfl rfl
  have hcan : inCan (a + 3) = inCan a := between_word h rfl rfl
  have hrack : inRack (a + 3) = inRack a := between_word h rfl rfl
  have hddr : decide (0x1000000000 ≤ a + 3 ∧ a + 3 < 0x1100000000) = decide (0x1000000000 ≤ a ∧ a < 0x1100000000) :=
    between_word h rfl rfl
  rw [inMap, inMap, hsram, hemram, hregs, hle, hcan, hrack, hddr]

/-- An access to a word outside the map ends in an error response (log 6). -/
theorem State.busStop_outside (s : State) (p a : Nat) (h : inMap a = false) (ha : a % 4 = 0) : s.busStop p a 4 = some .error := by
  have h0 := s.absentAt_outside a h
  have h3 := s.absentAt_outside (a + 3) ((inMap_word a ha).trans h)
  have hlast : a + 4 - 1 = a + 3 := rfl
  obtain ⟨hsram, hemram, hregs, hle, hcan, -, hddr⟩ := inMap_eq_false h
  have hd : s.inDdr a = false := by
    have := s.ddrSize_le
    rw [State.inDdr, decide_eq_false_iff_not, ddrBase]
    omega
  rw [State.busStop, hlast, h0, h3]
  simp [hsram, hemram, hregs, hle, hcan, hd]

/-! ### The probe of an absent unit -/

/-- The probe is recorded, then the pair takes the access fault (R8). -/
theorem State.busTrap_absent (s : State) (p cause a : Nat) (h : (s.pair p).mtvec ≠ 0) :
    ∃ u : State, u = { s with rcd := { s.rcd with reported := u.rcd.reported } } ∧ Reports s u .ABSENT_PROBE 0x30 [a - 0x40000000] ∧
      TakesTrap u (s.busTrap p cause a .absent) p cause a :=
  ⟨s.absentAccess (a - 0x40000000), rfl, ⟨_, [], rfl, rfl, rfl, rfl, List.prefix_rfl⟩, State.takesTrap_trap _ p cause a h⟩

theorem exec_absentUnitAccess (s : State) (p : Fin 4) (a : Nat) (store : Bool) :
    exec (.absentUnitAccess p a store) s = .next (absentUnitAccess p a store s) := rfl

/-! ### The write itself -/

/-- The bits under which a write in every byte lane would change a CFG field outside Config (R15). -/
theorem RegRow.attempt_running (r : RegRow) (old v : Word) :
    r.attempt false old v (BitVec.allOnes 32) = ((v ^^^ old) &&& cfgMask r != 0) := by
  rw [RegRow.attempt, BitVec.and_allOnes, Bool.not_false, Bool.true_and]

/-- Outside Config a write keeps the CFG fields, and an attempt to change them is recorded (R15). -/
theorem State.plainWrite_running (s : State) (off : Nat) (v : Word) (r : RegRow) (hr : regRow off = some r) (hc : s.sup.st ≠ .config) :
    s.plainWrite off v (BitVec.allOnes 32) =
      (let t := s.setReg off (r.written false (s.reg off) v (BitVec.allOnes 32))
       if (v ^^^ s.reg off) &&& cfgMask r ≠ 0 then t.report .CFG_WRITE_REFUSED (srcSup 3) [off, v.toNat] else t) := by
  have hcfg : (s.sup.st == .config) = false := by simpa using hc
  simp only [State.plainWrite, hr, hcfg, r.attempt_running, bne_iff_ne, Bool.false_eq_true, if_false]

/-- In Config a write is never an attempt (R13, R15). -/
theorem State.plainWrite_config (s : State) (off : Nat) (v : Word) (r : RegRow) (hr : regRow off = some r) (hc : s.sup.st = .config) :
    s.plainWrite off v (BitVec.allOnes 32) = s.setReg off (cfgStored off (r.written true (s.reg off) v (BitVec.allOnes 32))) := by
  simp [State.plainWrite, hr, hc, RegRow.attempt]

/-- The claims on register writes, from `plainWrite` and its bits. -/
theorem registerWrites : RegisterWrites := by
  refine ⟨?_, ?_, ?_, ?_⟩
  · intro p off v r s he hm h hb hp ha hf hr hw hc
    obtain ⟨w, hwdef⟩ : ∃ w, r.written false (s.reg off) v (BitVec.allOnes 32) = w := ⟨_, rfl⟩
    have hbits := fun b => hwdef ▸ r.getLsbD_written false (s.reg off) v b
    have hplain := s.plainWrite_running off v r hr hc
    rw [hwdef] at hplain
    obtain ⟨t, ht⟩ : ∃ t, s.plainWrite off v (BitVec.allOnes 32) = t := ⟨_, rfl⟩
    have hregs : t.regs = (s.setReg off w).regs := by
      rw [← ht, hplain]; dsimp only; split <;> rfl
    have hreg (q : Nat) : t.reg q = (s.setReg off w).reg q := by rw [State.reg, hregs, State.reg]
    refine ⟨t, ht ▸ exec_registerWrite_plain s p off v he hm h hb hp ha hf hw, ?_, ?_, ?_, ?_, ?_, ?_⟩
    · exact fun q hq => (hreg q).trans (s.reg_setReg_other off q w (by simpa using hq))
    · intro b _ hw1c
      rw [hreg, State.reg_setReg_same, hbits, hw1c]
      simp
    · intro b _ hw1c hrw
      rw [hreg, State.reg_setReg_same, hbits, hw1c, hrw]
      simp
    · intro hne
      rw [← ht, hplain, if_pos hne]
      exact ⟨_, rfl, rfl⟩
    · intro heq
      rw [← ht, hplain, if_neg (not_not.mpr heq)]
      rfl
    · rw [← ht, hplain]; dsimp only; split <;> rfl
  · intro p off v r s he hm h hb hp ha hf hr hw hc
    refine ⟨_, _, (exec_registerWrite_plain s p off v he hm h hb hp ha hf hw).trans
      (congrArg _ (s.plainWrite_config off v r hr hc)), s.reg_setReg_same off _, ?_, ?_, rfl⟩
    · intro b _ hw1c
      rw [r.getLsbD_written, hw1c]
      simp
    · exact fun q hq => s.reg_setReg_other off q _ (by simpa using hq)
  · intro p off v s h
    show Host.Outcome.next (registerWrite p off v s) = _
    unfold registerWrite
    rw [if_pos (by rcases h with h | h <;> simp [h])]
  · intro p off v s he hm ht ha h
    refine ⟨_, exec_registerWrite_stopped s p off v .error he hm (s.busStop_outside p _ h (by omega)), ?_⟩
    exact s.takesTrap_trap p 7 _ ht

theorem absentUnits : AbsentUnits := by
  refine ⟨?_, ?_, ?_, ?_⟩
  · intro p a store s he ha ht
    obtain ⟨u, hu, hr, hk⟩ := s.busTrap_absent p (if store then 7 else 5) a ht
    refine ⟨u, _, ?_, hu, hr, hk⟩
    rw [exec_absentUnitAccess, absentUnitAccess]
    simp [he, ha]
  · intro p off v s h ha he hm hf ht
    have hstop : s.busStop p (0x40000000 + off) 4 = some .absent := by
      have h0 := s.absentAt_reg off 0 h ha (by omega)
      rw [Nat.add_zero, hf] at h0
      rw [State.busStop, h0]
      rfl
    obtain ⟨u, hu, hr, hk⟩ := s.busTrap_absent p 7 (0x40000000 + off) ht
    rw [Nat.add_sub_cancel_left] at hr
    exact ⟨u, _, exec_registerWrite_stopped s p off v .absent he hm hstop, hu, hr, hk⟩
  · intro p a store s h ha
    rw [exec_absentUnitAccess, absentUnitAccess]
    simp [h, ha]
  · intro p a store s h he ht
    refine ⟨_, ?_, s.takesTrap_trap p (if store then 7 else 5) a ht⟩
    rw [exec_absentUnitAccess, absentUnitAccess]
    simp [he, h, s.absentAt_outside a h]
    rfl

/-- Settles O53. -/
theorem registerAccesses : Obligations.RegisterAccesses := ⟨registerWrites, absentUnits⟩

end Sys2Proof.Machine
end

section
/-! SUPPORT. A free bridge whose queue an SC.W heads (R383, R386). -/
namespace Sys2Proof.Machine
open Sys2Proof.Claims
set_option Elab.async false

/-- P0 executes in machine mode in the Run state; the bridge runs nothing, and an SC.W of P1 stands in its queue, the semaphore invalid. -/
def scWaiting : State :=
  { State.reset with
    sup := { State.reset.sup with st := .run }
    pairs := tput pairD State.reset.pairs 0 { Pair.reset with wfi := false, hwPark := false }
    lrb := { State.reset.lrb with waiting := [⟨.sc ⟨5, false, true, 4⟩, 1, 0x20000, 2, 0, [], [], false⟩] } }

/-- P0 may load the word at 0x20000 of the rack (R71, R383, R384). -/
theorem rackMay_scWaiting : RackMay scWaiting 0 0x20000 2 := by
  unfold RackMay Issues
  and_intros <;> decide +kernel

/-- The load lets the bridge go on: the SC.W before it ends without its cycles, counted in counter 5 of the bridge (R386, R396). -/
theorem rackRead_scWaiting :
    ∃ t, exec (.rackRead 0 0x20000 2 ⟨6, false, true, 4⟩) scWaiting = .next t ∧ t.reg (lrbCnt 5).off ≠ scWaiting.reg (lrbCnt 5).off :=
  ⟨_, rfl, by decide +kernel⟩

/-- Refutes O40: a load of the window that waits for its cycle need not leave every register as it was. The claim asks so of every state
of the bridge, and in `scWaiting` (one with no transaction running, but one waiting) the load first lets the bridge end an SC.W. -/
theorem not_rackAccesses : ¬ Obligations.RackAccesses := by
  unfold Obligations.RackAccesses
  rintro ⟨⟨hload, -, -⟩, -⟩
  obtain ⟨-, hwait, -⟩ := hload 0 0x20000 2 ⟨6, false, true, 4⟩ scWaiting rackMay_scWaiting
  obtain ⟨t, ht, -, -, hframe⟩ := hwait (by decide +kernel) (by decide +kernel) (by decide +kernel)
  obtain ⟨u, hu, hcnt⟩ := rackRead_scWaiting
  obtain rfl : t = u := Host.Outcome.next.inj (ht.symm.trans hu)
  exact hcnt (by rw [hframe]; rfl)

end Sys2Proof.Machine
end

section
/-! SUPPORT. A consumer connection that goes to FAILSAFE at a Gheif cycle start while a pair holds a reservation (R59, R348, R352). -/
namespace Sys2Proof.Machine
open Sys2Proof.Claims
set_option Elab.async false

/-- A consumer connection that delivers into general queue 0. -/
def failingConn : IxsConn := ⟨1, 1, 2, 1, 0, 0, 0, 0, 0, 1, 1000, 1000, 1, 1, 1, false⟩

/-- Gheif cycles follow one another in the Run state, the time of day unset; connection 0 is VALID, its delivery queue (one entry of 64 bytes at
the start of the queue area) is empty, and P0 holds a reservation on the line of its slot. -/
def reservedSlot : State :=
  { (State.reset.set (F.IXS_CSTAT_STATE 0) 2).set (F.HXQ_CFG_ESIZE_LOG2 0) 6 with
    sup := { State.reset.sup with st := .run }
    cyc := { State.reset.cyc with running := true }
    hx := { State.reset.hx with sched := { State.reset.hx.sched with tgMt := 4000 } }
    cfg := { State.reset.cfg with conns := [(0, some failingConn)] }
    pairs := tput pairD State.reset.pairs 0 { Pair.reset with resv := some (0x11C00000 / 64) } }

theorem ticking_reservedSlot : reservedSlot.ticking = true := by decide +kernel

/-- No protocol engine has a next cycle of its own. -/
theorem nextCycle_reservedSlot : reservedSlot.gh.nextCycle = none ∧ reservedSlot.engineFirst = false := by decide +kernel

/-- The item that the connection commits at the cycle start, with cause 4 (TIME_UNSET), clears the reservation. -/
theorem resv_cycleStart : ∃ t, exec .gheifCycleStart reservedSlot = .next t ∧ (t.pair 0).resv = none := ⟨_, rfl, by decide +kernel⟩

/-- The moving of the clock to that start leaves the reservation as it is. -/
theorem resv_advance :
    ((reservedSlot.advance (reservedSlot.cyc.start + reservedSlot.cycleLen)).pair 0).resv = some (0x11C00000 / 64) := by decide +kernel

/-- Refutes O23: a cycle start need not leave the pairs as the moving of the clock leaves them. The time check of the consumer connections
is made at it (R348), and in `reservedSlot` the item of the connection that goes to FAILSAFE is written to the line that P0 has reserved. -/
theorem not_cycleStart : ¬ Obligations.CycleStart := by
  unfold Obligations.CycleStart
  intro h
  obtain ⟨hnext, hfirst⟩ := nextCycle_reservedSlot
  obtain ⟨t, n, c, ht, hnc, -, -, -, -, hpairs, -⟩ := (h reservedSlot ticking_reservedSlot).1 (.inr hfirst)
  obtain rfl : n = reservedSlot.cyc.start + reservedSlot.cycleLen := by
    rw [hnext] at hnc
    exact congrArg Prod.fst hnc
  obtain ⟨u, hu, hresv⟩ := resv_cycleStart
  obtain rfl : t = u := Host.Outcome.next.inj (ht.symm.trans hu)
  rw [State.pair, hpairs] at hresv
  exact absurd (hresv.symm.trans resv_advance) (by decide)

end Sys2Proof.Machine
end

section
/-!
SUPPORT. What happens beside the tasks and the cycle groups. `Aside R s t`: `t` is the state some operation makes of `s` at the same instant
without touching the tasks and units of the executive, the pairs' banks, the steps of the groups' task cycles, the committed contributions and the
registers `R`; no entry reported and no source raised at this instant is lost. One rule per operation, in the model's order, so that what an
activation or a task cycle is left with can be read off after whatever follows it.
-/
namespace Sys2Proof.Machine
open Sys2Proof.Claims
set_option Elab.async false

/-! ### Registers that no unit writes on its own -/

/-- The task counts (HX_TASKSTAT). -/
def taskCount (q : Nat) : Bool := decide (0x21000 ≤ q) && decide (q < 0x25000)

/-- What the outputs' state is read from: TVL_STAT and SIO_DOSTAT. -/
def outState (q : Nat) : Bool := q == 0x50000 || decide (0xC0220 ≤ q) && decide (q < 0xC0240)

/-- The presence of the telegrams (ETH_PDSTAT). -/
def presState (q : Nat) : Bool := decide (0x81000 ≤ q) && decide (q < 0x82000)

/-- How the outputs are configured: TVL_CFG, TVL_OGRP and SIO_DOCFG. -/
def outConf (q : Nat) : Bool :=
  q == 0x50004 || decide (0x50100 ≤ q) && decide (q < 0x50200) && q % 16 == 0 || decide (0xC0200 ≤ q) && decide (q < 0xC0220)

/-- No event register and no register of a source is among them. -/
def calm (q : Nat) : Bool := taskCount q || outState q || presState q || outConf q

theorem calm_eq_false {q : Nat} : calm q = false ↔ (q < 0x21000 ∨ 0x25000 ≤ q) ∧ q ≠ 0x50000 ∧ q ≠ 0x50004 ∧
    (q < 0x50100 ∨ 0x50200 ≤ q ∨ q % 16 ≠ 0) ∧ (q < 0xC0200 ∨ 0xC0240 ≤ q) ∧ (q < 0x81000 ∨ 0x82000 ≤ q) := by
  simp [calm, taskCount, outState, presState, outConf]
  omega

theorem calm_of_taskCount {q : Nat} (h : taskCount q = true) : calm q = true := by simp [calm, h]
theorem calm_of_outState {q : Nat} (h : outState q = true) : calm q = true := by simp [calm, h]
theorem calm_of_outConf {q : Nat} (h : outConf q = true) : calm q = true := by simp [calm, h]
theorem calm_of_presState {q : Nat} (h : presState q = true) : calm q = true := by simp [calm, h]

/-- A choice of fields, each of which has a property. -/
theorem some_of_ite {P : Field → Prop} {c : Prop} {_ : Decidable c} {f : Field} {r : Option Field} (hf : c → P f) (hr : ∀ g, r = some g → P g) :
    ∀ g, (if c then some f else r) = some g → P g := by
  intro g h
  split at h
  next hc => exact Option.some.inj h ▸ hf hc
  next => exact hr g h

/-- The event registers are not among them. -/
theorem calm_evtField (n : Nat) : ∀ f, evtField n = some f → calm f.off = false := by
  unfold evtField
  have other {c : Prop} {_ : Decidable c} {f : Field} {r : Option Field} (hf : calm f.off = false)
      (hr : ∀ g, r = some g → calm g.off = false) : ∀ g, (if c then some f else r) = some g → calm g.off = false := some_of_ite (fun _ => hf) hr
  exact other rfl <| other rfl <|
    some_of_ite (fun _ => calm_eq_false.2 (by simp only [F.LE_EVT_EVT]; omega)) <|
    other rfl <| other rfl <| other rfl <| other rfl <| other rfl <|
    some_of_ite (fun _ => calm_eq_false.2 (by simp only [F.CAN_EVT_EVT]; omega)) <|
    other rfl <| other rfl <| other rfl <| other rfl <| other rfl <| fun _ h => nomatch h

/-- No source from 436 on exists (R72). -/
theorem State.lt_of_sourceAbsent {s : State} {n : Nat} (h : s.sourceAbsent n = false) : n < 436 := by
  by_contra hlt
  have hn : 436 ≤ n := by omega
  rw [State.sourceAbsent, if_neg (by omega), if_neg (by omega), if_neg (by omega), if_neg (by omega), if_neg (by omega), if_neg (by omega),
    if_neg (by omega), if_neg (by simp; omega), if_neg (by omega), decide_eq_true hn] at h
  exact Bool.noConfusion h

/-! ### The relation -/

/-- What an operation beside the tasks and the groups keeps. -/
structure Aside (R : Nat → Prop) (s t : State) : Prop where
  calm : ∀ q, R q → calm q = true
  ident : t.ident = s.ident
  cfg : t.cfg = s.cfg
  clk : t.clk = s.clk
  reg : ∀ q, R q → t.reg q = s.reg q
  tasks : t.hx.tasks = s.hx.tasks
  units : t.hx.units = s.hx.units
  pair : ∀ p, (t.pair p).bst = (s.pair p).bst ∧ (t.pair p).cur = (s.pair p).cur ∧ (t.pair p).curValid = (s.pair p).curValid
  grp : ∀ g, (t.grp g).closed = (s.grp g).closed ∧ (t.grp g).offered = (s.grp g).offered ∧ (t.grp g).voteDone = (s.grp g).voteDone ∧
    (t.grp g).voted = (s.grp g).voted
  committed : t.cyc.committed = s.cyc.committed
  pulses : ∀ n, (n, s.fab) ∈ s.vdx.pulses → (n, s.fab) ∈ t.vdx.pulses
  reported : s.rcd.reported <+: t.rcd.reported
  dusk : s.sup.st = .dusk → t.sup.st = .dusk

namespace Aside
variable {R : Nat → Prop} {s₀ s : State}

theorem refl (hR : ∀ q, R q → Machine.calm q = true) (s : State) : Aside R s s :=
  ⟨hR, rfl, rfl, rfl, fun _ _ => rfl, rfl, rfl, fun _ => ⟨rfl, rfl, rfl⟩, fun _ => ⟨rfl, rfl, rfl, rfl⟩, rfl, fun _ h => h, List.prefix_rfl, id⟩

theorem fab {t : State} (h : Aside R s t) : t.fab = s.fab := by rw [State.fab, h.clk]; rfl

theorem trans {t u : State} (h : Aside R s t) (k : Aside R t u) : Aside R s u where
  calm := h.calm
  ident := k.ident.trans h.ident
  cfg := k.cfg.trans h.cfg
  clk := k.clk.trans h.clk
  reg q hq := (k.reg q hq).trans (h.reg q hq)
  tasks := k.tasks.trans h.tasks
  units := k.units.trans h.units
  pair p := by
    obtain ⟨a, b, c⟩ := h.pair p
    obtain ⟨a', b', c'⟩ := k.pair p
    exact ⟨a'.trans a, b'.trans b, c'.trans c⟩
  grp g := by
    obtain ⟨a, b, c, d⟩ := h.grp g
    obtain ⟨a', b', c', d'⟩ := k.grp g
    exact ⟨a'.trans a, b'.trans b, c'.trans c, d'.trans d⟩
  committed := k.committed.trans h.committed
  pulses n hn := h.fab ▸ k.pulses n (h.fab.symm ▸ h.pulses n hn)
  reported := h.reported.trans k.reported
  dusk := k.dusk ∘ h.dusk

/-- A change of what `Aside` does not speak of. -/
theorem same {t : State} (h : Aside R s₀ s) (hclk : t.clk = s.clk := by rfl) (hregs : t.regs = s.regs := by rfl)
    (htasks : t.hx.tasks = s.hx.tasks := by rfl) (hunits : t.hx.units = s.hx.units := by rfl) (hpairs : t.pairs = s.pairs := by rfl)
    (hgroups : t.cyc.groups = s.cyc.groups := by rfl) (hcommitted : t.cyc.committed = s.cyc.committed := by rfl)
    (hvdx : t.vdx.pulses = s.vdx.pulses := by rfl) (hrcd : t.rcd.reported = s.rcd.reported := by rfl)
    (hst : t.sup.st = s.sup.st := by rfl) (hident : t.ident = s.ident := by rfl) (hcfg : t.cfg = s.cfg := by rfl) : Aside R s₀ t := by
  refine h.trans ⟨h.calm, hident, hcfg, hclk, fun q _ => ?_, htasks, hunits, fun p => ?_, fun g => ?_, hcommitted, fun n hn => ?_, ?_, fun hd => ?_⟩
  · rw [State.reg, State.reg, hregs]
  · rw [State.pair, hpairs]
    exact ⟨rfl, rfl, rfl⟩
  · rw [State.grp, hgroups]
    exact ⟨rfl, rfl, rfl, rfl⟩
  · rw [hvdx]
    exact hn
  · rw [hrcd]
  · rw [hst, hd]

theorem either {c : Prop} {_ : Decidable c} {t u : State} (ht : Aside R s₀ t) (hu : Aside R s₀ u) : Aside R s₀ (if c then t else u) := by
  split <;> assumption

theorem fold {α : Type} {f : State → α → State} {l : List α} (hf : ∀ u a, Aside R s₀ u → Aside R s₀ (f u a)) (h : Aside R s₀ s) :
    Aside R s₀ (l.foldl f s) :=
  foldl_keeps (Aside R s₀) f hf l s h

/-- A fold over the members of a list. -/
theorem foldOn {α : Type} {f : State → α → State} {l : List α} (h : Aside R s₀ s) (hf : ∀ u a, a ∈ l → Aside R s₀ u → Aside R s₀ (f u a)) :
    Aside R s₀ (l.foldl f s) := by
  induction l generalizing s with
  | nil => exact h
  | cons a l ih => exact ih (hf s a (by simp) h) fun u b hb => hf u b (by simp [hb])

/-! ### Registers, pairs, sources and reports -/

/-- A write of a register that is not among `R`. -/
theorem setReg (h : Aside R s₀ s) {o : Nat} {v : Word} (hf : ¬ R o) : Aside R s₀ (s.setReg o v) := by
  refine h.trans ⟨h.calm, rfl, rfl, rfl, fun q hq => ?_, rfl, rfl, fun p => ⟨rfl, rfl, rfl⟩, fun g => ⟨rfl, rfl, rfl, rfl⟩, rfl, fun _ h => h, List.prefix_rfl,
    id⟩
  refine tget_tput_other _ _ _ _ _ ?_
  rintro rfl
  exact hf hq

theorem free (h : Aside R s₀ s) {o : Nat} (hf : Machine.calm o = false) : ¬ R o := fun hr => by simp [h.calm o hr] at hf

theorem put (h : Aside R s₀ s) {f : Field} {v : Nat} (hf : ¬ R f.off) : Aside R s₀ (s.set f v) := h.setReg hf

theorem set (h : Aside R s₀ s) {f : Field} {v : Nat} (hf : Machine.calm f.off = false := by rfl) : Aside R s₀ (s.set f v) := h.put (h.free hf)

theorem incBy (h : Aside R s₀ s) {f : Field} {k : Nat} (hf : Machine.calm f.off = false := by rfl) : Aside R s₀ (s.incBy f k) := h.set hf

theorem inc (h : Aside R s₀ s) {f : Field} (hf : Machine.calm f.off = false := by rfl) : Aside R s₀ (s.inc f) := h.incBy hf

/-- A change of a pair that leaves the states of its banks. -/
theorem modPair (h : Aside R s₀ s) {p : Nat} {f : Pair → Pair}
    (hf : ∀ q : Pair, (f q).bst = q.bst ∧ (f q).cur = q.cur ∧ (f q).curValid = q.curValid) : Aside R s₀ (s.modPair p f) := by
  refine h.trans ⟨h.calm, rfl, rfl, rfl, fun _ _ => rfl, rfl, rfl, fun q => ?_, fun g => ⟨rfl, rfl, rfl, rfl⟩, rfl, fun _ h => h, List.prefix_rfl, id⟩
  by_cases hq : q = p
  · subst hq
    rw [State.pair_modPair_same]
    exact hf _
  · rw [State.pair_modPair_other _ _ _ _ hq]
    exact ⟨rfl, rfl, rfl⟩

/-- A change of a group that leaves the steps of its task cycle. -/
theorem setGrp (h : Aside R s₀ s) {g : Nat} {v : GroupSt} (hv : v.closed = (s.grp g).closed ∧ v.offered = (s.grp g).offered ∧
    v.voteDone = (s.grp g).voteDone ∧ v.voted = (s.grp g).voted) : Aside R s₀ (s.setGrp g v) := by
  refine h.trans ⟨h.calm, rfl, rfl, rfl, fun _ _ => rfl, rfl, rfl, fun q => ⟨rfl, rfl, rfl⟩, fun k => ?_, rfl, fun _ h => h, List.prefix_rfl, id⟩
  by_cases hk : k = g
  · subst hk
    rw [State.grp_setGrp_same]
    exact hv
  · rw [State.grp, State.setGrp, tget_tput_other _ _ _ _ _ hk]
    exact ⟨rfl, rfl, rfl, rfl⟩

theorem report (h : Aside R s₀ s) {code : RCode} {src : Nat} {words : List Nat} : Aside R s₀ (s.report code src words) :=
  h.trans ⟨h.calm, rfl, rfl, rfl, fun _ _ => rfl, rfl, rfl, fun _ => ⟨rfl, rfl, rfl⟩, fun _ => ⟨rfl, rfl, rfl, rfl⟩, rfl, fun _ h => h, ⟨_, rfl⟩, id⟩

theorem emit (h : Aside R s₀ s) {i : Iface} {unit kind : Nat} {data : List Byte} : Aside R s₀ (s.emit i unit kind data) := h.same

theorem arrive (h : Aside R s₀ s) {n : Nat} (hn : n < 436) : Aside R s₀ (s.arrive n) := by
  have hstat : Machine.calm (F.VDX_SRCSTAT_COUNT n).off = false := by
    rw [calm_eq_false]
    simp [F.VDX_SRCSTAT_COUNT]
    omega
  have hstamp (w : Nat) (hw : w < 2) : Machine.calm (F.VDX_SRCSTAMP_W n w).off = false := by
    rw [calm_eq_false]
    simp [F.VDX_SRCSTAMP_W]
    omega
  have hs : Aside R s₀ (s.setStamp n s.stamp) := (h.set (hstamp 0 (by omega))).set (hstamp 1 (by omega))
  unfold State.arrive
  extract_lets a w b
  have ha : Aside R s₀ a := hs.inc hstat
  have hb : Aside R s₀ b := ha.same
  split
  · exact hb.either (hb.set hstat)
  · exact hb.set hstat
  · exact hb.either (hb.set (f := F.VDX_SRCSTAT_PENDING n) (v := 1) hstat).same

/-- A source that is raised stays raised for the fabric cycle. -/
theorem raise (h : Aside R s₀ s) {n : Nat} : Aside R s₀ (s.raise n) := by
  unfold State.raise
  split
  · exact h
  next hn =>
  have hn := State.lt_of_sourceAbsent (by simpa using hn)
  extract_lets a b
  have ha : Aside R s₀ a := by
    unfold a
    cases he : evtField n with
    | none => exact h
    | some f => exact h.set (calm_evtField n f he)
  have hb : Aside R s₀ b := (ha.arrive hn).set (by rw [calm_eq_false]; simp [F.VDX_SRCSTAT_LINE]; omega)
  refine hb.trans ⟨h.calm, rfl, rfl, rfl, fun _ _ => rfl, rfl, rfl, fun _ => ⟨rfl, rfl, rfl⟩, fun _ => ⟨rfl, rfl, rfl, rfl⟩, rfl, fun k hk => ?_, List.prefix_rfl,
    id⟩
  by_cases hkn : k = n
  · subst hkn
    simp
  · simp [hkn, hk]

end Aside

end Sys2Proof.Machine
end

section
/-! SUPPORT. The way to the Dusk state, and what a fault of an activation leaves beside it (R65, R105, R109). -/
namespace Sys2Proof.Machine
open Sys2Proof.Claims
set_option Elab.async false

theorem taskCount_eq_true {q : Nat} : taskCount q = true ↔ 0x21000 ≤ q ∧ q < 0x25000 := by simp [taskCount]

theorem taskCount_eq_false {q : Nat} : taskCount q = false ↔ q < 0x21000 ∨ 0x25000 ≤ q := by
  simp [taskCount]
  omega

/-- The task counts, as the registers that are kept. -/
def Counts (q : Nat) : Prop := taskCount q = true

/-- What the outputs' state is read from is not among the registers that are kept. -/
def Quiet (R : Nat → Prop) : Prop := ∀ q, R q → outState q = false

theorem Quiet.drives {R : Nat → Prop} (hR : Quiet R) : ∀ q, R q → q < 0xC0220 ∨ 0xC0240 ≤ q := by
  intro q hq
  have h := hR q hq
  simp [outState] at h
  omega

theorem quiet_counts : Quiet Counts := by
  intro q hq
  have h := taskCount_eq_true.1 hq
  simp [outState]
  omega

namespace Aside
variable {R : Nat → Prop} {s₀ s : State}

theorem counts (s : State) : Aside Counts s s := .refl (fun _ hq => calm_of_taskCount hq) s

/-- A register that is no task count. -/
theorem out (h : Aside Counts s₀ s) {f : Field} {v : Nat} (hf : taskCount f.off = false := by rfl) : Aside Counts s₀ (s.set f v) :=
  h.put fun hr => by simp [Counts, hf] at hr

/-- A register of the outputs' state. -/
theorem state (hR : Quiet R) (h : Aside R s₀ s) {f : Field} {v : Nat} (hf : outState f.off = true := by rfl) : Aside R s₀ (s.set f v) :=
  h.put fun hr => by simp [hR _ hr] at hf

/-! ### Gheif -/

theorem modGh (h : Aside R s₀ s) {f : Gh → Gh} : Aside R s₀ (s.modGh f) := h.same

theorem cutTx (h : Aside R s₀ s) {ch x : Nat} : Aside R s₀ (s.cutTx ch x) := by
  unfold State.cutTx
  split
  · extract_lets u hit v
    have hu : Aside R s₀ u := h.modGh
    have hv : Aside R s₀ v := hu.inc.raise.report
    exact .either hv.same hu
  · exact h

theorem cutBoth (h : Aside R s₀ s) : Aside R s₀ s.cutBoth := h.cutTx.cutTx
theorem setPs (h : Aside R s₀ s) {n : Nat} : Aside R s₀ (s.setPs n) := either h h.set.raise
theorem ghUnanchor (h : Aside R s₀ s) : Aside R s₀ s.ghUnanchor := h.set.modGh
theorem ghStop (h : Aside R s₀ s) : Aside R s₀ s.ghStop := either h h.cutBoth.setPs.ghUnanchor.set.modGh

/-! ### The local outputs -/

theorem outState_dostat {m : Nat} (h : m < 8) : outState (0xC0220 + m * 0x4) = true := by
  simp [outState]
  omega

theorem setDout (h : Aside R s₀ s) {m : Nat} {v : Dout} : Aside R s₀ (s.setDout m v) := h.same

/-- DRIVE and FAULT are of SIO_DOSTAT. -/
theorem doView (hR : ∀ q, R q → q < 0xC0220 ∨ 0xC0240 ≤ q) (h : Aside R s₀ s) {m : Nat} (hm : m < 8) : Aside R s₀ (s.doView m) := by
  have hf : ¬ R (0xC0220 + m * 0x4) := fun hr => by
    have := hR _ hr
    omega
  exact (h.setDout.put hf).put hf

theorem doOff (hR : Quiet R) (h : Aside R s₀ s) {m : Nat} (hm : m < 8) : Aside R s₀ (s.doOff m) :=
  doView hR.drives (state hR h (outState_dostat hm)).setDout hm

theorem doHold (hR : Quiet R) (h : Aside R s₀ s) {m : Nat} (hm : m < 8) : Aside R s₀ (s.doHold m) :=
  either (state hR h (outState_dostat hm)).setDout h

/-- A step for each of the eight outputs. -/
theorem eachDo (h : Aside R s₀ s) {f : State → Nat → State} (hf : ∀ u m, m < 8 → Aside R s₀ u → Aside R s₀ (f u m)) : Aside R s₀ (s.eachDo f) :=
  h.foldOn fun u m hm => hf u m (List.mem_range.1 hm)

theorem doSafetyOff (hR : Quiet R) (h : Aside R s₀ s) : Aside R s₀ s.doSafetyOff :=
  either (h.eachDo fun _ _ hm h1 => .either (.either (doOff hR h1 hm) (doHold hR h1 hm)) h1) h

theorem doGroupOff (hR : Quiet R) (h : Aside R s₀ s) {k : Nat} : Aside R s₀ (s.doGroupOff k) :=
  either (h.eachDo fun _ _ hm h1 => .either (.either (doOff hR h1 hm) (doHold hR h1 hm)) h1) h

/-! ### The voting layer -/

theorem tlOut (h : Aside R s₀ s) {typ : Nat} {b : List Byte} : Aside R s₀ (s.tlOut typ b) := fold (fun _ _ h1 => .either h1.emit h1) h
theorem tlGroupFrame (h : Aside R s₀ s) {typ g : Nat} {abstain : Bool} {payload : List Byte} :
    Aside R s₀ (s.tlGroupFrame typ g abstain payload) := h.tlOut
theorem tlFlush (h : Aside R s₀ s) : Aside R s₀ s.tlFlush := either h (fold (fun _ _ h1 => h1.tlOut) h.same)

theorem tlSeq (h : Aside R s₀ s) {typ group : Nat} {now : Bool} {payload : List Byte} : Aside R s₀ (s.tlSeq typ group now payload) := by
  unfold State.tlSeq
  extract_lets w u b
  have hu : Aside R s₀ u := h.same
  exact .either hu.tlFlush.tlOut hu.same

theorem setLease (h : Aside R s₀ s) {k : Nat} {v : Lease} : Aside R s₀ (s.setLease k v) := h.same
theorem setPeer (h : Aside R s₀ s) {q : Nat} {v : TlPeer} : Aside R s₀ (s.setPeer q v) := h.same
theorem setMembers (hR : Quiet R) (h : Aside R s₀ s) {m : Nat} : Aside R s₀ (s.setMembers m) :=
  either h (state hR h).raise.report

/-- TVL_LSTAT stands between the configurations of the output groups. -/
theorem calm_lstat {k : Nat} (h : k < 16) : Machine.calm (0x50108 + k * 0x10) = false := calm_eq_false.2 (by omega)

theorem leaseClear (hR : Quiet R) (h : Aside R s₀ s) {k : Nat} (hk : k < 16) : Aside R s₀ (s.leaseClear k) :=
  (state hR h.setLease rfl).set (calm_lstat hk)

theorem release (hR : Quiet R) (h : Aside R s₀ s) {mask : Nat} : Aside R s₀ (s.release mask) := by
  unfold State.release
  extract_lets ks u v m
  have hk : ∀ k ∈ ks, k < 16 := fun k hk => List.mem_range.1 (List.mem_filter.1 hk).1
  have hu : Aside R s₀ u := h.foldOn fun _ k hm h1 => doGroupOff hR ((leaseClear hR h1 (hk k hm)).set (calm_lstat (hk k hm)))
  have hv : Aside R s₀ v := fold (fun _ _ h1 => h1.setLease) hu
  exact .either h (raise (.either hv hv.tlSeq))

theorem releaseAll (hR : Quiet R) (h : Aside R s₀ s) : Aside R s₀ s.releaseAll := release hR h

theorem tlOff (hR : Quiet R) (h : Aside R s₀ s) : Aside R s₀ s.tlOff := by
  unfold State.tlOff
  extract_lets u
  have hu : Aside R s₀ u := setMembers hR (state hR (state hR h))
  exact .either h hu.same

/-! ### The pairs and the rack bridge -/

theorem freezePairs (h : Aside R s₀ s) : Aside R s₀ s.freezePairs := fold (fun _ _ h1 => .either (h1.modPair fun _ => ⟨rfl, rfl, rfl⟩) h1) h

theorem pfDiscard (h : Aside R s₀ s) {p : Nat} : Aside R s₀ (s.pfDiscard p) := by
  unfold State.pfDiscard
  split
  · extract_lets u
    have hu : Aside R s₀ u := fold (fun _ _ h1 => h1.inc.raise.report) h
    exact hu.same
  · exact h

theorem lrbDusk (h : Aside R s₀ s) : Aside R s₀ s.lrbDusk := by
  unfold State.lrbDusk
  extract_lets u v
  have hu : Aside R s₀ u := fold (fun _ _ h1 => h1.pfDiscard) h
  have hv : Aside R s₀ v := hu.set.set
  exact hv.same

/-! ### Notices and replies -/

theorem announce (h : Aside R s₀ s) : Aside R s₀ s.announce := either h.emit h

theorem scpQueue (h : Aside R s₀ s) {k : Packet} {unsol : Bool} : Aside R s₀ (s.scpQueue k unsol) := by
  unfold State.scpQueue
  extract_lets w n u
  have hu : Aside R s₀ u := by
    unfold u
    split
    · exact h.same
    · split
      all_goals exact h.same
  exact hu.announce

theorem notice (h : Aside R s₀ s) {code : Nat} {data : List Byte} : Aside R s₀ (s.notice code data) := by
  unfold State.notice
  extract_lets k
  exact scpQueue h.same

theorem wrBytes (h : Aside R s₀ s) {a : Nat} {l : List Byte} : Aside R s₀ (s.wrBytes a l) := h.same

theorem calm_mbstat (n : Nat) : Machine.calm (0xD0000 + n * 0x1000) = false := calm_eq_false.2 (by omega)

theorem deliver (h : Aside R s₀ s) {o : Origin} {k : Packet} : Aside R s₀ (s.deliver o k) := by
  unfold State.deliver
  split
  · exact h.scpQueue
  · exact .fold (fun _ _ h1 => h1.emit) h
  all_goals
    extract_lets n b u v k1 w
    have hu : Aside R s₀ u := h.wrBytes
    have hv : Aside R s₀ v := ((hu.set (calm_mbstat n)).set (calm_mbstat n)).set (calm_mbstat n)
    have hw : Aside R s₀ w := hv.same
    split
  exacts [hw.set.raise, hw.raise, hw.set.raise, hw.set.raise]

theorem setLast (h : Aside R s₀ s) {o : Origin} {l : LastReq} : Aside R s₀ (s.setLast o l) := h.same

theorem longEnd (h : Aside R s₀ s) {status : Nat} {payload : List Byte} : Aside R s₀ (s.longEnd status payload) := by
  unfold State.longEnd
  split
  · extract_lets w u k
    have hu : Aside R s₀ u := h.same
    exact hu.setLast.deliver
  · exact h

/-- The change to the Dusk state, which is in force after it. -/
theorem stateChangeDusk (h : Aside R s₀ s) {cause src inst : Nat} :
    Aside R s₀ (s.stateChange .dusk cause src inst) ∧ (s.stateChange .dusk cause src inst).sup.st = .dusk := by
  unfold State.stateChange
  extract_lets old w u v
  have hu : Aside R s₀ u :=
    h.trans ⟨h.calm, rfl, rfl, rfl, fun _ _ => rfl, rfl, rfl, fun _ => ⟨rfl, rfl, rfl⟩, fun _ => ⟨rfl, rfl, rfl, rfl⟩, rfl, fun _ h => h, List.prefix_rfl,
      fun _ => rfl⟩
  have hv (t : State) (ht : Aside R t u) : Aside R t v := ht.report.raise
  have ht (t : State) (ht : Aside R t u) : Aside R t (if inst = 0 ∨ (MState.dusk = .dusk ∧ inst = 3) ∨ MState.dusk = .dawn ∨ old = .dawn then v
      else v.notice 2 [BitVec.ofNat 8 old.code]) := either (hv t ht) (hv t ht).notice
  exact ⟨ht s₀ hu, (ht u (.refl h.calm u)).dusk rfl⟩

/-! ### The units on entry to the Dusk state -/

theorem ixFollow (h : Aside Counts s₀ s) : Aside Counts s₀ s.ixFollow := by
  refine either h (fold (fun u c h1 => ?_) h)
  split
  · exact .either (h1.out (taskCount_eq_false.2 (by simp only [F.IXS_CSTAT_STATE]; omega))) h1
  · exact h1

/-- In the Dusk state every controller of a CAN bus is restricted, and none judges its queue. -/
theorem canFollowDusk (h : Aside Counts s₀ s) (hd : s.sup.st = .dusk) : Aside Counts s₀ s.canFollow := by
  refine h.trans (ixFollow (fold (fun u n h1 => ?_) (.refl h.calm s)))
  rw [if_pos (h1.dusk hd)]
  exact .either h1 (h1.out (taskCount_eq_false.2 (by simp only [F.CAN_STAT_RESTRICTED]; omega)))

theorem enterDusk (h : Aside Counts s₀ s) {cause : Nat} : Aside Counts s₀ (s.enterDusk cause) := by
  unfold State.enterDusk
  split
  · exact h
  · exact h
  · exact h
  · extract_lets _ _ _ u v w x y
    have hu : Aside Counts s₀ u := h.same
    have hv : Aside Counts s₀ v := 
      (tlOff quiet_counts (releaseAll quiet_counts (doSafetyOff quiet_counts hu.freezePairs.ghStop))).lrbDusk
    have hw : Aside Counts s₀ w := hv.report
    obtain ⟨hx, hd⟩ : Aside Counts s₀ x ∧ x.sup.st = .dusk := hw.stateChangeDusk
    have hy (t : State) (ht : Aside Counts t x) : Aside Counts t (y.notice 3 (leBytes 2 cause)) := ht.longEnd.notice
    exact (hy s₀ hx).canFollowDusk ((hy x (.refl h.calm x)).dusk hd)

/-! ### Faults of an activation -/

theorem partStop (h : Aside Counts s₀ s) {p : Nat} : Aside Counts s₀ (s.partStop p) := by
  unfold State.partStop
  extract_lets u z _ v
  have hu : Aside Counts s₀ u := (h.out (taskCount_eq_false.2 (by simp only [F.HX_PARTSTAT_STOPPED]; omega))).raise.report
  have hv : Aside Counts s₀ v := hu.same
  split
  exacts [.either hv.enterDusk hv, hv]

theorem faulted (h : Aside Counts s₀ s) {p : Nat} : Aside Counts s₀ (s.faulted p) := by
  unfold State.faulted
  extract_lets u
  have hu : Aside Counts s₀ u := h.out (taskCount_eq_false.2 (by simp only [F.HX_PARTSTAT_FAULTS]; omega))
  split
  exacts [.either hu.partStop hu, hu]

end Aside

end Sys2Proof.Machine
end

section
/-! SUPPORT. An executive call of a task: the begin of its execution time, and the calls that end an activation (R103, R104, R115). -/
namespace Sys2Proof.Machine
open Sys2Proof.Claims
set_option Elab.async false

/-! ### The first instruction of an activation -/

/-- The first instruction of an activation starts its execution time and marks the unit; every other instruction changes nothing here. -/
theorem State.execBegin_cases (s : State) (p : Nat) : s.execBegin p = s ∨
    ∃ n, s.execBegin p = (s.execStart n).setUnit p { s.unit p with began := true } := by
  unfold State.execBegin
  split
  · split
    exacts [.inl rfl, .inr ⟨_, rfl⟩]
  · exact .inl rfl

theorem State.task_setUnit (s : State) (n p : Nat) (v : UnitSt) : (s.setUnit p v).task n = s.task n := rfl

theorem State.taskOn_execBegin (s : State) (p : Nat) : (s.execBegin p).taskOn p = s.taskOn p := by
  obtain h | ⟨n, h⟩ := s.execBegin_cases p
  · rw [h]
  · rw [h]
    simp [State.taskOn]

theorem State.budgetAt_execBegin (s : State) (p : Nat) : (s.execBegin p).budgetAt p = s.budgetAt p := by
  obtain h | ⟨n, h⟩ := s.execBegin_cases p
  · rw [h]
  · rw [h, State.budgetAt, State.unit_setUnit_same]
    rfl

theorem State.executes_execBegin (s : State) (p : Nat) : (s.execBegin p).executes p = s.executes p := by
  have h := s.taskOn_execBegin p
  unfold State.executes
  rw [h]
  obtain h | ⟨n, h⟩ := s.execBegin_cases p
  · rw [h]
  · rw [h]
    rfl

/-- The begin of an activation's execution time touches nothing but the executive's state, and the schedule stays. -/
theorem State.execBegin_eq (s : State) (p : Nat) :
    s.execBegin p = { s with hx := (s.execBegin p).hx } ∧ s.hx.sched = (s.execBegin p).hx.sched := by
  obtain h | ⟨n, h⟩ := s.execBegin_cases p
  all_goals
    rw [h]
    exact ⟨rfl, rfl⟩

theorem State.pair_execBegin (s : State) (p q : Nat) : (s.execBegin p).pair q = s.pair q := by
  obtain h | ⟨n, h⟩ := s.execBegin_cases p
  · rw [h]
  · rw [h]
    rfl

theorem State.taskD_execBegin (s : State) (p n : Nat) : (s.execBegin p).taskD? n = s.taskD? n := by
  obtain h | ⟨n, h⟩ := s.execBegin_cases p
  · rw [h]
  · rw [h]
    rfl

theorem State.slack_execBegin (s : State) (p : Nat) : ((s.execBegin p).unit p).slack = (s.unit p).slack := by
  obtain h | ⟨n, h⟩ := s.execBegin_cases p
  · rw [h]
  · rw [h, State.unit_setUnit_same]

/-- A task's freeze count and continuations are not touched. -/
theorem State.counts_execBegin (s : State) (p n : Nat) :
    ((s.execBegin p).task n).frzCount = (s.task n).frzCount ∧ ((s.execBegin p).task n).cont = (s.task n).cont := by
  obtain h | ⟨k, h⟩ := s.execBegin_cases p <;> rw [h]
  · exact ⟨rfl, rfl⟩
  · rw [State.task_setUnit, State.execStart]
    by_cases hk : n = k
    · subst hk
      rw [State.task_setTask_same]
      exact ⟨rfl, rfl⟩
    · simp [State.task, State.setTask, hk]

/-! ### What a calling task meets -/

/-- A pair that executes is neither idle nor stalled (R68). -/
theorem State.executes_running {s : State} {p : Nat} (h : s.executes p = true) :
    (s.pair p).idle = false ∧ (s.pair p).stall.isSome = false := by
  simp only [State.executes, Bool.and_eq_true, Bool.not_eq_true'] at h
  refine ⟨h.1.1.1.1.1.2, ?_⟩
  have hs := h.1.1.1.2
  cases hc : (s.pair p).stall <;> simp_all

/-- The task on a pair without a slack quantum holds the window open. -/
theorem State.ended_of_taskOn {s : State} {p n : Nat} (h : s.taskOn p = some n) (hs : (s.unit p).slack = none) :
    (s.unit p).ended = false := by
  simp only [State.taskOn, hs, Option.map_none] at h
  split at h <;> simp_all

/-- Through the trigger check a calling task comes to the call's own meaning. -/
theorem calls_asInsn {s : State} {p n : Nat} {td : Task} (h : Calls s p n td) (f : State → State) : s.asInsn p f = f (s.execBegin p) := by
  obtain ⟨⟨he, ht⟩, -⟩ := h
  simp [State.asInsn, he, ht]

/-- The state in which the call has its effect is itself one in which the task calls, but for the trigger check. -/
theorem calls_begun {s : State} {p n : Nat} {td : Task} (h : Calls s p n td) :
    (s.execBegin p).executes p = true ∧ (s.execBegin p).taskOn p = some n ∧ (s.execBegin p).taskD? n = some td ∧
      ((s.execBegin p).pair p).umode = true := by
  obtain ⟨⟨he, -⟩, hn, htd, hu⟩ := h
  rw [s.executes_execBegin, s.taskOn_execBegin, s.taskD_execBegin, s.pair_execBegin]
  exact ⟨he, hn, htd, hu⟩

/-! ### DONE -/

theorem State.execStop_eq (s : State) (n : Nat) : s.execStop n = { s with hx := (s.execStop n).hx } := by
  unfold State.execStop
  split <;> rfl

theorem State.taskIdle_st (s : State) (n : Nat) : ((s.taskIdle n).task n).st = .idle := by simp [State.taskIdle]

/-- A completed activation's task is idle. -/
theorem State.completed_st (s : State) (n : Nat) : ((s.completed n).task n).st = .idle := by
  unfold State.completed
  extract_lets a b c
  have hc : (c.task n).st = .idle := b.taskIdle_st n
  split
  exacts [hc, hc]

/-- A completion touches the executive's state and registers alone. -/
theorem State.completed_eq (s : State) (n : Nat) :
    s.completed n = { s with hx := (s.completed n).hx, regs := (s.completed n).regs } := by
  unfold State.completed
  rw [s.execStop_eq n]
  dsimp only
  split <;> split <;> rfl

theorem State.cyc_completed (s : State) (n : Nat) : (s.completed n).cyc = s.cyc := by rw [s.completed_eq n]
theorem State.mem_completed (s : State) (n : Nat) : (s.completed n).mem = s.mem := by rw [s.completed_eq n]
theorem State.working_commitWork (s : State) (n : Nat) (td : Task) : (s.commitWork n td).cyc.working = s.cyc.working := rfl
theorem State.mem_commitWork (s : State) (n : Nat) (td : Task) : (s.commitWork n td).mem = s.mem := rfl
theorem State.cyc_retire (s : State) (p : Nat) : (s.retire p).cyc = s.cyc := rfl
theorem State.mem_retire (s : State) (p : Nat) : (s.retire p).mem = s.mem := rfl
theorem State.cyc_taskIdle (s : State) (n : Nat) : (s.taskIdle n).cyc = s.cyc := rfl
theorem State.mem_taskIdle (s : State) (n : Nat) : (s.taskIdle n).mem = s.mem := rfl
theorem State.cyc_execBegin (s : State) (p : Nat) : (s.execBegin p).cyc = s.cyc := by rw [(s.execBegin_eq p).1]
theorem State.mem_execBegin (s : State) (p : Nat) : (s.execBegin p).mem = s.mem := by rw [(s.execBegin_eq p).1]

/-- DONE in time: the contribution is committed, the task completes, and the unit's activation ends. -/
theorem State.done_inTime (s : State) (p n : Nat) (td : Task) (he : s.executes p = true) (hn : s.taskOn p = some n)
    (htd : s.taskD? n = some td) (hu : (s.pair p).umode = true) (hs : (s.unit p).slack = none) (hb : s.clk.t ≤ s.budgetAt p)
    (hc : td.cls ≠ 2) : done p s = ((((s.retire p).commitWork n td).completed n).endHere p) := by
  obtain ⟨hi, hst⟩ := State.executes_running he
  have hend := State.ended_of_taskOn hn hs
  have hr : (s.retire p).taskD? n = some td := htd
  simp [done, hn, hu, hst, hi, hend, hs, hb, hr, hc]

theorem length_tgetList {α : Type} (d : Nat → α) (t : Tbl α) (k n : Nat) : (tgetList d t k n).length = n := by
  induction n generalizing k with
  | zero => rfl
  | succ n ih => simp [tgetList, ih]

/-- What the task had written is read back from the group's committed contribution. -/
theorem State.commitWork_committed (s : State) (n : Nat) (td : Task) :
    tgetList byteD (s.commitWork n td).cyc.committed (commitKey td.group td.outOfs) td.outLen =
      tgetList byteD s.cyc.working (workKey n td.outOfs) td.outLen := by
  have h := tgetList_tputList byteD s.cyc.committed (commitKey td.group td.outOfs) (tgetList byteD s.cyc.working (workKey n td.outOfs) td.outLen)
  rwa [length_tgetList] at h

theorem doneInTime (p : Fin 4) (n : Nat) (td : Task) (s : State) (h : Calls s p n td) (hs : (s.unit p).slack = none)
    (hb : s.clk.t ≤ s.budgetAt p) (hc : td.cls ≠ 2) :
    ∃ u : State, exec (.done p) s = .next (u.endHere p) ∧ (u.task n).st = .idle ∧
      tgetList byteD u.cyc.committed (commitKey td.group td.outOfs) td.outLen =
        tgetList byteD s.cyc.working (workKey n td.outOfs) td.outLen ∧ u.cyc.working = s.cyc.working ∧ u.mem = s.mem := by
  obtain ⟨he, hn, htd, hu⟩ := calls_begun h
  obtain ⟨hb0, -⟩ := s.execBegin_eq p
  have hbud : (s.execBegin p).clk.t ≤ (s.execBegin p).budgetAt p := by
    rw [s.budgetAt_execBegin, hb0]
    exact hb
  have hd := (s.execBegin p).done_inTime p n td he hn htd hu ((s.slack_execBegin p).trans hs) hbud hc
  refine ⟨(((s.execBegin p).retire p).commitWork n td).completed n, ?_, State.completed_st _ _, ?_, ?_, ?_⟩
  · show Host.Outcome.next (s.asInsn p (done p)) = _
    rw [calls_asInsn h, hd]
  · rw [State.cyc_completed, State.commitWork_committed, State.cyc_retire, State.cyc_execBegin]
  · rw [State.cyc_completed, State.working_commitWork, State.cyc_retire, State.cyc_execBegin]
  · rw [State.mem_completed, State.mem_commitWork, State.mem_retire, State.mem_execBegin]

/-! ### YIELD -/

theorem yieldBackground (p : Fin 4) (n : Nat) (td : Task) (s : State) (h : Calls s p n td) (hc : td.cls = 2) :
    ∃ u : State, exec (.yield p) s = .next (u.endHere p) ∧ (u.task n).st = .idle ∧ u.cyc = s.cyc ∧ u.mem = s.mem := by
  obtain ⟨he, hn, htd, hu⟩ := calls_begun h
  obtain ⟨hb0, -⟩ := s.execBegin_eq p
  refine ⟨(((s.execBegin p).retire p).execStop n).taskIdle n, ?_, State.taskIdle_st _ n, ?_, ?_⟩
  · show Host.Outcome.next (s.asInsn p (yield p)) = _
    rw [calls_asInsn h]
    simp [yield, he, hn, hu, htd, hc]
  · rw [State.cyc_taskIdle, State.execStop_eq, ← s.cyc_execBegin p]
    rfl
  · rw [State.mem_taskIdle, State.execStop_eq, ← s.mem_execBegin p]
    rfl

theorem yieldOther (p : Fin 4) (n : Nat) (td : Task) (s : State) (h : Calls s p n td) (hc : td.cls ≠ 2) (hm : (s.pair p).mtvec ≠ 0) :
    ∃ t, exec (.yield p) s = .next t ∧ TakesTrap (s.execBegin p) t p 8 0 := by
  obtain ⟨he, hn, htd, hu⟩ := calls_begun h
  refine ⟨(s.execBegin p).trap p 8 0, ?_, State.takesTrap_trap _ _ _ _ (by rwa [s.pair_execBegin])⟩
  show Host.Outcome.next (s.asInsn p (yield p)) = _
  rw [calls_asInsn h]
  simp [yield, he, hn, hu, htd, hc]

/-! ### CYCLE_INFO -/

/-- What an executive call that answers with a status leaves in the pair's registers, and where the pair goes on. -/
theorem State.retired_callRet (s : State) (p status : Nat) :
    Retired s (s.callRet p status) p ((s.pair p).pc + 4) ∧ ((s.callRet p status).pair p).x 10 = BitVec.ofNat 64 status ∧
      (∀ r, r ≠ 10 → ((s.callRet p status).pair p).x r = (s.pair p).x r) ∧ PairsBut s (s.callRet p status) p := by
  have hx (r : Nat) : ((s.callRet p status).pair p).x r = ((s.pair p).setX 10 (BitVec.ofNat 64 status)).x r := by
    unfold State.callRet
    rw [State.pair_modPair_same]
    show ((((s.pair p).setX 10 (BitVec.ofNat 64 status)).setPc _).x r) = _
    simp [Pair.x]
  refine ⟨⟨?_, ?_, ?_⟩, (hx 10).trans (Pair.x_setX_same _ 10 _ (by omega)), fun r hr => (hx r).trans (Pair.x_setX_other _ 10 r _ hr),
    fun q hq => State.pair_modPair_other _ _ _ _ hq⟩
  all_goals
    unfold State.callRet
    rw [State.pair_modPair_same]
  exact congrArg Bank.pc (Pair.curBank_setPc _ _)

/-- The pair with the second result of CYCLE_INFO. -/
def Pair.second (q : Pair) (a1 : Nat) : Pair := { q.setX 11 (BitVec.ofNat 64 a1) with lastPc := q.pc }

theorem Pair.pc_second (q : Pair) (a1 : Nat) : (q.second a1).pc = q.pc := q.pc_setX 11 (BitVec.ofNat 64 a1)
theorem Pair.minstret_second (q : Pair) (a1 : Nat) : (q.second a1).minstret = q.minstret := q.minstret_setX 11 (BitVec.ofNat 64 a1)
theorem Pair.mcountinhibit_second (q : Pair) (a1 : Nat) : (q.second a1).mcountinhibit = q.mcountinhibit := q.mcountinhibit_setX 11 (BitVec.ofNat 64 a1)
theorem Pair.x_second (q : Pair) (a1 : Nat) : (q.second a1).x 11 = BitVec.ofNat 64 a1 := q.x_setX_same 11 (BitVec.ofNat 64 a1) (by omega)
theorem Pair.x_second_other (q : Pair) (a1 r : Nat) (h : r ≠ 11) : (q.second a1).x r = q.x r := q.x_setX_other 11 r (BitVec.ofNat 64 a1) h

/-- The state after CYCLE_INFO has answered. -/
def State.informed (s : State) (p a0 a1 : Nat) : State := (s.modPair p fun q => q.second a1).callRet p a0

theorem State.informed_eq (s : State) (p a0 a1 : Nat) : s.informed p a0 a1 = { s with pairs := (s.informed p a0 a1).pairs } := by
  obtain ⟨q, h⟩ : TouchesPairs s (s.informed p a0 a1) := by
    unfold State.informed State.callRet
    exact (s.modPair_pairs _ _).trans (State.modPair_pairs _ _ _)
  rw [h]

/-- The answer of CYCLE_INFO: both results, the retirement, and nothing else in the pair's registers. -/
theorem State.informed_spec (s : State) (p a0 a1 : Nat) :
    ((s.informed p a0 a1).pair p).x 10 = BitVec.ofNat 64 a0 ∧ ((s.informed p a0 a1).pair p).x 11 = BitVec.ofNat 64 a1 ∧
      Retired s (s.informed p a0 a1) p ((s.pair p).pc + 4) ∧
      (∀ r, r ≠ 10 → r ≠ 11 → ((s.informed p a0 a1).pair p).x r = (s.pair p).x r) ∧ PairsBut s (s.informed p a0 a1) p := by
  obtain ⟨⟨hpc, hlast, hret⟩, h10, hx, ho⟩ := (s.modPair p fun q => q.second a1).retired_callRet p a0
  rw [State.pair_modPair_same, Pair.pc_second] at hpc hlast
  rw [State.pair_modPair_same, Pair.minstret_second, Pair.mcountinhibit_second] at hret
  rw [State.pair_modPair_same] at hx
  exact ⟨h10, (hx 11 (by omega)).trans (Pair.x_second _ a1), ⟨hpc, hlast, hret⟩,
    fun r ha hb => (hx r ha).trans (Pair.x_second_other _ a1 r hb),
    fun q hq => (ho q hq).trans (State.pair_modPair_other _ _ _ _ hq)⟩

theorem cycleInfoAnswers (p : Fin 4) (n : Nat) (td : Task) (s : State) (h : Calls s p n td) (hc : td.cls ≠ 2) :
    ∃ t, exec (.cycleInfo p) s = .next t ∧ (t.pair p).x 10 = BitVec.ofNat 64 (s.task n).frzCount ∧
      (t.pair p).x 11 = BitVec.ofNat 64 (s.task n).cont ∧ Retired s t p ((s.pair p).pc + 4) ∧
      (∀ r, r ≠ 10 → r ≠ 11 → (t.pair p).x r = (s.pair p).x r) ∧ PairsBut s t p ∧ t = { s.execBegin p with pairs := t.pairs } := by
  obtain ⟨he, hn, htd, hu⟩ := calls_begun h
  obtain ⟨hi, hst⟩ := State.executes_running he
  obtain ⟨hf, hk⟩ := s.counts_execBegin p n
  refine ⟨(s.execBegin p).informed p (s.task n).frzCount (s.task n).cont, ?_, ?_⟩
  · show Host.Outcome.next (s.asInsn p (cycleInfo p)) = _
    rw [calls_asInsn h]
    simp [cycleInfo, hn, hu, hst, hi, htd, hc, hf, hk, State.informed, Pair.second]
  · obtain ⟨h10, h11, hret, hx, ho⟩ := (s.execBegin p).informed_spec p (s.task n).frzCount (s.task n).cont
    rw [Retired, s.pair_execBegin] at hret
    rw [s.pair_execBegin] at hx
    exact ⟨h10, h11, hret, hx, fun q hq => (ho q hq).trans (s.pair_execBegin p q), State.informed_eq _ _ _ _⟩

/-- The claims on the calls of a task. -/
theorem executiveCalls : ExecutiveCalls := by
  refine ⟨fun p n td s => doneInTime p n td s, fun p n td s => yieldBackground p n td s, fun p n td s => yieldOther p n td s,
    fun p n td s => cycleInfoAnswers p n td s, ?_⟩
  intro p n td s h
  obtain ⟨-, hn, -, hu⟩ := id h
  obtain ⟨hb, hs⟩ := s.execBegin_eq p
  refine ⟨hb, hs, fun hf => ?_, fun ht => ?_⟩
  · have he : s.execBegin p = (s.execStart n).setUnit p { s.unit p with began := true } := by simp [State.execBegin, hn, hf, hu]
    rw [he, State.task_setUnit, State.execStart]
    simp
  · simp [State.execBegin, hn, ht]

end Sys2Proof.Machine
end

section
/-! SUPPORT. ABORT, BANK_REL, HX_IDLE and the clearing of the task counts (R105, R107). -/
namespace Sys2Proof.Machine
open Sys2Proof.Claims
set_option Elab.async false

/-! ### Counters and sources -/

theorem satAdd_le (m n k : Nat) : satAdd m n k ≤ m := by
  unfold satAdd
  split <;> omega

/-- A counter counts one, saturating (R14). -/
theorem State.get_inc (s : State) (f : Field) (h : f.lo + f.w ≤ 32) : (s.inc f).get f = satAdd (2 ^ f.w - 1) (s.get f) 1 := by
  have hle := satAdd_le (2 ^ f.w - 1) (s.get f) 1
  have hpos : 0 < 2 ^ f.w := Nat.two_pow_pos _
  rw [State.inc, State.incBy, s.get_set_same f _ h]
  exact Nat.mod_eq_of_lt (by omega)

/-- A source that exists is raised at this instant. -/
theorem State.pulses_raise (s : State) (n : Nat) (h : s.sourceAbsent n = false) : (n, s.fab) ∈ (s.raise n).vdx.pulses := by
  unfold State.raise
  rw [if_neg (by simp [h])]
  have hf : ((match evtField n with | some f => s.set f 1 | none => s).arrive n).fab = s.fab := by
    obtain ⟨r, v, e⟩ : TouchesSources s ((match evtField n with | some f => s.set f 1 | none => s).arrive n) := by
      refine TouchesSources.trans ?_ (State.arrive_sources _ n)
      cases evtField n
      exacts [.refl s, s.set_sources _ _]
    rw [e]
    rfl
  simp [State.fab] at hf ⊢
  exact hf.symm

/-! ### ABORT -/

/-- An aborted activation is counted, raised and recorded. -/
def State.abortNoted (s : State) (n : Nat) : State :=
  (((s.execStop n).inc (F.HX_TASKSTAT1_ABORTS n)).raise 34).report .TASK_ABORT srcHx [n]

/-- The pair without an activation: a bank held before is free, that in use is held. -/
def Pair.aborted (q : Pair) : Pair :=
  let q := match q.heldBank with | some b => q.setBankSt b .free | none => q
  { q.setBankSt q.cur .held with curValid := false, parkDue := true }

/-- The window's activation has ended. -/
def State.abortEnded (s : State) (p n : Nat) : State :=
  ((s.setUnit p { s.unit p with ended := true }).taskIdle n).modPair p Pair.aborted

theorem Pair.aborted_spec (q : Pair) : q.aborted.bankSt q.cur = .held ∧ q.aborted.curValid = false := by
  have hcur : (match q.heldBank with | some b => q.setBankSt b .free | none => q).cur = q.cur := by cases q.heldBank <;> rfl
  refine ⟨?_, rfl⟩
  unfold Pair.aborted
  extract_lets u
  have hu : u.cur = q.cur := hcur
  rw [← hu]
  exact tget_tput_same _ _ _ _

/-- Nothing but a task's measured time, registers and sources is touched by the count of an aborted activation. -/
theorem State.abortRaised_eq (s : State) (n : Nat) :
    ∃ r v, ((s.execStop n).inc (F.HX_TASKSTAT1_ABORTS n)).raise 34 = { s with hx := (s.execStop n).hx, regs := r, vdx := v } := by
  obtain ⟨r, v, e⟩ := ((s.execStop n).inc (F.HX_TASKSTAT1_ABORTS n)).raise_sources 34
  refine ⟨r, v, ?_⟩
  rw [e, s.execStop_eq n]
  rfl

theorem State.abortNoted_unit (s : State) (n p : Nat) : (s.abortNoted n).unit p = s.unit p := by
  obtain ⟨r, v, e⟩ := s.abortRaised_eq n
  rw [State.abortNoted, e]
  show (s.execStop n).unit p = s.unit p
  unfold State.execStop
  split <;> rfl

theorem State.abortNoted_pair (s : State) (n p : Nat) : (s.abortNoted n).pair p = s.pair p := by
  obtain ⟨r, v, e⟩ := s.abortRaised_eq n
  rw [State.abortNoted, e]
  rfl

/-- ABORT on an activation of a window: counted and ended; then the fault counts toward its partition's limit. -/
theorem State.abortAct_eq (s : State) (p n : Nat) (hs : (s.unit p).slack = none) :
    s.abortAct p n = (s.abortNoted n).abortEnded p n ∨ ∃ q, s.abortAct p n = ((s.abortNoted n).abortEnded p n).faulted q := by
  have hx : ((s.abortNoted n).unit p).slack = none := by rw [s.abortNoted_unit, hs]
  unfold State.abortAct
  extract_lets a b x c d
  have hc : c = b.setUnit p { b.unit p with ended := true } := if_neg (by rw [show x.slack = none from hx]; exact Bool.false_ne_true)
  have hd : d = (s.abortNoted n).abortEnded p n := by
    unfold d
    rw [hc]
    rfl
  rw [hd]
  split
  exacts [.inr ⟨_, rfl⟩, .inl rfl]

/-- What is left of an aborted activation is left after its fault has been counted, too. -/
theorem State.aside_abortAct (s : State) (p n : Nat) (hs : (s.unit p).slack = none) :
    Aside Counts ((s.abortNoted n).abortEnded p n) (s.abortAct p n) := by
  have h := Aside.refl (R := Counts) (fun _ hq => calm_of_taskCount hq) ((s.abortNoted n).abortEnded p n)
  obtain e | ⟨q, e⟩ := s.abortAct_eq p n hs
  · exact e ▸ h
  · exact e ▸ h.faulted

theorem State.abortNoted_count (s : State) (n : Nat) (hn : n < 1024) :
    (s.abortNoted n).get (F.HX_TASKSTAT1_ABORTS n) = satAdd 65535 (s.get (F.HX_TASKSTAT1_ABORTS n)) 1 := by
  have hr : Counts (F.HX_TASKSTAT1_ABORTS n).off := 
    taskCount_eq_true.2 (by simp only [F.HX_TASKSTAT1_ABORTS]; omega)
  have ha : Aside Counts ((s.execStop n).inc (F.HX_TASKSTAT1_ABORTS n)) (s.abortNoted n) :=
    (Aside.refl (fun _ hq => calm_of_taskCount hq) _).raise.report
  have he : (s.execStop n).get (F.HX_TASKSTAT1_ABORTS n) = s.get (F.HX_TASKSTAT1_ABORTS n) := by rw [s.execStop_eq n]; rfl
  calc (s.abortNoted n).get (F.HX_TASKSTAT1_ABORTS n)
      = ((s.execStop n).inc (F.HX_TASKSTAT1_ABORTS n)).get (F.HX_TASKSTAT1_ABORTS n) := by rw [State.get, ha.reg _ hr]; rfl
    _ = satAdd 65535 ((s.execStop n).get (F.HX_TASKSTAT1_ABORTS n)) 1 := State.get_inc _ _ (Nat.le_of_ble_eq_true rfl)
    _ = satAdd 65535 (s.get (F.HX_TASKSTAT1_ABORTS n)) 1 := by rw [he]

theorem State.abortNoted_reported (s : State) (n : Nat) :
    (s.abortNoted n).rcd.reported.map (fun r => r.code) = s.rcd.reported.map (fun r => r.code) ++ [.TASK_ABORT] := by
  obtain ⟨r, v, e⟩ := s.abortRaised_eq n
  rw [State.abortNoted, e]
  simp [State.report]

theorem State.abortNoted_raised (s : State) (n : Nat) : (34, s.fab) ∈ (s.abortNoted n).vdx.pulses := by
  have h := State.pulses_raise ((s.execStop n).inc (F.HX_TASKSTAT1_ABORTS n)) 34 rfl
  have hf : ((s.execStop n).inc (F.HX_TASKSTAT1_ABORTS n)).fab = s.fab := by rw [s.execStop_eq n]; rfl
  rw [hf] at h
  exact h

theorem State.abortNoted_fab (s : State) (n : Nat) : (s.abortNoted n).fab = s.fab := by
  obtain ⟨r, v, e⟩ := s.abortRaised_eq n
  rw [State.abortNoted, e]
  rfl

theorem abortEnds (p : Fin 4) (s : State) (hp : s.pairFitted p = true) (ho : (s.unit p).opened = true) (he : (s.unit p).ended = false)
    (hs : (s.unit p).slack = none) (hn : (s.unit p).task < 1024) :
    ∃ t l, exec (.abort p p) s = .next t ∧ (t.task (s.unit p).task).st = .idle ∧ (t.unit p).ended = true ∧
      (t.pair p).bankSt (s.pair p).cur = .held ∧ (t.pair p).curValid = false ∧
      t.get (F.HX_TASKSTAT1_ABORTS (s.unit p).task) = satAdd 65535 (s.get (F.HX_TASKSTAT1_ABORTS (s.unit p).task)) 1 ∧
      t.rcd.reported.map (fun r => r.code) = s.rcd.reported.map (fun r => r.code) ++ [.TASK_ABORT] ++ l ∧ (34, s.fab) ∈ t.vdx.pulses := by
  generalize hnt : (s.unit p).task = n at hn
  have ha := s.aside_abortAct p n hs
  set u := (s.abortNoted n).abortEnded p n with hu
  have hpair : u.pair p = (s.pair p).aborted := by
    rw [hu, State.abortEnded, State.pair_modPair_same]
    exact congrArg Pair.aborted (s.abortNoted_pair n p)
  obtain ⟨hbst, -, hvalid⟩ := ha.pair p
  obtain ⟨hheld, hgone⟩ := (s.pair p).aborted_spec
  obtain ⟨l, hl⟩ := ha.reported
  refine ⟨s.abortAct p n, l.map fun r => r.code, ?_, ?_, ?_, ?_, ?_, ?_, ?_, ?_⟩
  · show Host.Outcome.next (abort p p s) = _
    simp [abort, hp, ho, he, hnt]
  · rw [State.task, ha.tasks]
    exact State.taskIdle_st _ n
  · rw [State.unit, ha.units]
    exact congrArg UnitSt.ended (State.unit_setUnit_same (s.abortNoted n) p { (s.abortNoted n).unit p with ended := true })
  · rw [Pair.bankSt, hbst, hpair]
    exact hheld
  · rw [hvalid, hpair]
    exact hgone
  · rw [State.get, ha.reg _ (taskCount_eq_true.2 (by simp only [F.HX_TASKSTAT1_ABORTS]; omega))]
    exact s.abortNoted_count n hn
  · rw [← hl, List.map_append, ← s.abortNoted_reported n]
    rfl
  · exact s.abortNoted_fab n ▸ ha.pulses 34 ((s.abortNoted_fab n).symm ▸ s.abortNoted_raised n)

/-! ### Commands of another pair, BANK_REL, HX_IDLE and HX_TASKSTAT -/

/-- A report adds one entry to the recorder's intake and touches nothing else. -/
theorem State.report_spec (s : State) (code : RCode) (src : Nat) (words : List Nat) :
    (s.report code src words).rcd.reported.map (fun r => r.code) = s.rcd.reported.map (fun r => r.code) ++ [code] ∧
      s.report code src words = { s with rcd := (s.report code src words).rcd } := ⟨by simp [State.report], rfl⟩

theorem otherPairIgnored (w p : Fin 4) (s : State) (hp : s.pairFitted p = true) (hw : w ≠ p) :
    (∃ t, exec (.abort w p) s = .next t ∧
      t.rcd.reported.map (fun r => r.code) = s.rcd.reported.map (fun r => r.code) ++ [.PAIRCMD_IGNORED] ∧ t = { s with rcd := t.rcd }) ∧
    (∃ t, exec (.bankRel w p) s = .next t ∧
      t.rcd.reported.map (fun r => r.code) = s.rcd.reported.map (fun r => r.code) ++ [.PAIRCMD_IGNORED] ∧ t = { s with rcd := t.rcd }) := by
  have hne : w.val ≠ p.val := fun h => hw (Fin.ext h)
  refine ⟨⟨s.report .PAIRCMD_IGNORED srcHx [w, p, 1], ?_, s.report_spec _ _ _⟩, s.report .PAIRCMD_IGNORED srcHx [w, p, 2], ?_, s.report_spec _ _ _⟩
  · show Host.Outcome.next (abort w p s) = _
    simp [abort, hp, hne]
  · show Host.Outcome.next (bankRel w p s) = _
    simp [bankRel, hp, hne]

theorem bankReleased (p : Fin 4) (b : Nat) (s : State) (hp : s.pairFitted p = true) (hb : (s.pair p).heldBank = some b) :
    ∃ t, exec (.bankRel p p) s = .next t ∧ (t.pair p).bankSt b = (if b = (s.pair p).cur then .current else .free) ∧ PairsBut s t p ∧
      t = { s with pairs := t.pairs } := by
  refine ⟨s.modPair p fun q => q.setBankSt b (if b = q.cur then .current else .free), ?_, ?_, fun q hq => s.pair_modPair_other p q _ hq, rfl⟩
  · show Host.Outcome.next (bankRel p p s) = _
    simp [bankRel, hp, hb]
  · rw [State.pair_modPair_same]
    exact tget_tput_same _ _ _ _

theorem idleWritten (p : Fin 4) (v : Word) (s : State) (hp : s.pairFitted p = true) :
    ((v.toNat / 4 = 0 ∨ inSram (v.toNat / 4 * 4) = true) → ∃ t, exec (.hxIdleWrite p v) s = .next t ∧
      t.get (F.HX_IDLE_ADDR p) * 4 = v.toNat / 4 * 4 ∧ RegsBut s t [(F.HX_IDLE_ADDR p).off] ∧ t = { s with regs := t.regs }) ∧
    (v.toNat / 4 ≠ 0 → inSram (v.toNat / 4 * 4) = false → ∃ t, exec (.hxIdleWrite p v) s = .next t ∧
      t.rcd.reported.map (fun r => r.code) = s.rcd.reported.map (fun r => r.code) ++ [.IDLE_REJECT] ∧ t = { s with rcd := t.rcd }) := by
  refine ⟨fun h => ⟨s.set (F.HX_IDLE_ADDR p) (v.toNat / 4), ?_, ?_, fun q hq => s.reg_set_other _ q _ (by simpa using hq), rfl⟩,
    fun h0 hs => ⟨s.report .IDLE_REJECT srcHx [p, v.toNat], ?_, s.report_spec _ _ _⟩⟩
  · show Host.Outcome.next (hxIdleWrite p v s) = _
    unfold hxIdleWrite
    rw [hp]
    exact congrArg _ (if_pos h)
  · have hv : v.toNat / 4 < 2 ^ 30 := by
      have := v.isLt
      omega
    rw [s.get_set_same _ _ (Nat.le_of_ble_eq_true rfl)]
    exact congrArg (· * 4) (Nat.mod_eq_of_lt hv)
  · show Host.Outcome.next (hxIdleWrite p v s) = _
    simp [hxIdleWrite, hp, h0, hs]

theorem countsCleared (n : Fin 1024) (s : State) : ∃ t, exec (.hxTaskstatClr n) s = .next t ∧ t.get (F.HX_TASKSTAT0_OVERRUNS n) = 0 ∧
    t.get (F.HX_TASKSTAT0_ABANDONS n) = 0 ∧ t.get (F.HX_TASKSTAT1_STAGE_MISS n) = 0 ∧ t.get (F.HX_TASKSTAT1_ABORTS n) = 0 ∧
    t.get (F.HX_TASKSTAT2_MAX_EXEC n) = 0 ∧ RegsBut s t [0x21000 + n.val * 16, 0x21004 + n.val * 16, 0x21008 + n.val * 16] ∧
    t = { s with regs := t.regs } := by
  have h0 : (hxTaskstatClr n s).reg (0x21000 + n.val * 16) = 0 := by simp [hxTaskstatClr, State.reg_setReg]
  have h1 : (hxTaskstatClr n s).reg (0x21004 + n.val * 16) = 0 := by simp [hxTaskstatClr, State.reg_setReg]
  have h2 : (hxTaskstatClr n s).reg (0x21008 + n.val * 16) = 0 := by simp [hxTaskstatClr]
  refine ⟨hxTaskstatClr n s, rfl, ?_, ?_, ?_, ?_, ?_, fun q hq => ?_, rfl⟩
  · exact congrArg (fieldGet · 16 16) h0
  · exact congrArg (fieldGet · 0 16) h0
  · exact congrArg (fieldGet · 16 16) h1
  · exact congrArg (fieldGet · 0 16) h1
  · exact congrArg (fieldGet · 0 32) h2
  · simp only [List.mem_cons, List.not_mem_nil, or_false, not_or] at hq
    obtain ⟨q0, q1, q2⟩ := hq
    simp [hxTaskstatClr, State.reg_setReg, q0, q1, q2]

/-- The claims on the registers of the executive. -/
theorem executiveRegisters : ExecutiveRegisters :=
  ⟨fun p s hp ho he hs hn _ => abortEnds p s hp ho he hs hn, otherPairIgnored, bankReleased, idleWritten, countsCleared⟩

/-- Settles O20. -/
theorem executiveCallsAndRegisters : Obligations.ExecutiveCallsAndRegisters := ⟨executiveCalls, executiveRegisters⟩

end Sys2Proof.Machine
end

section
/-! SUPPORT. The counting of a telegram's presence (R292). -/
namespace Sys2Proof.Machine
open Sys2Proof.Claims
set_option Elab.async false

/-! ### The counting instant -/

theorem State.gh_advance (s : State) (x : Nat) : (s.advance x).gh = s.gh := by
  obtain ⟨_, _, _, _, _, e⟩ := (s.advance_moves x).1
  rw [e]

/-- A Gheif slot's item is new where the protocol engine holds it as fresh; any other source knows itself whether it has offered one. -/
theorem presenceCounted (kind : Fin 8) (src x : Nat) (s : State) (hx : s.countAt kind src = some x) (hc : s.cycling = true)
    (hk : s.keepsPresence kind src = true) :
    (kind.val ≠ 1 → exec (.presenceCount kind src) s =
      .next ((s.advance x).presCount kind src ((s.advance x).source (srcKey kind src)).fresh)) ∧
    (kind.val = 1 → exec (.presenceCount kind src) s =
      .next (((s.advance x).modGh fun h => { h with fresh := h.fresh.filter fun i => i != src }).presCount 1 src (s.gh.fresh.contains src))) := by
  refine ⟨fun hne => ?_, fun h1 => ?_⟩
  · show Host.Outcome.next (presenceCount kind src s) = _
    simp [presenceCount, hx, hc, hk, hne]
  · show Host.Outcome.next (presenceCount kind src s) = _
    rw [h1] at hx hk ⊢
    simp [presenceCount, hx, hc, hk, s.gh_advance]

/-! ### The presence of a telegram -/

theorem presState_presOff (id : Nat) (h : id < 1024) : presState (0x81000 + 4 * id) = true := by
  simp [presState]
  omega

theorem State.presence_of_presOff (s : State) {kind id o : Nat} (h : presOff kind id = some o) :
    s.presence kind id = (s.get (presF o), s.get (missF o), s.get (rejoinF o)) := by
  unfold State.presence
  rw [h]

theorem presOff_telegram (id : Nat) : presOff 2 id = some (0x81000 + 4 * id) := rfl

/-- The presence of a source as the fields of its register stand. -/
theorem presIs_iff (s : State) (o kind id st miss rejoin : Nat) (h : presOff kind id = some o) :
    PresIs s kind id st miss rejoin ↔ s.get (presF o) = st ∧ s.get (missF o) = miss ∧ s.get (rejoinF o) = rejoin := by
  rw [PresIs, State.presence_of_presOff _ h, Prod.mk.injEq, Prod.mk.injEq]

theorem fieldGet_lt (r : Word) (lo w : Nat) : fieldGet r lo w < 2 ^ w := BitVec.isLt _

theorem State.get_setSource (s : State) (k : Nat) (v : Source) (f : Field) : (s.setSource k v).get f = s.get f := rfl

/-- The stored presence is the one set, within the widths of its fields. -/
theorem presIs_setPresence (s : State) (id st miss rejoin : Nat) (hst : st < 4) (hm : miss < 65536) (hr : rejoin < 16) :
    PresIs (s.setPresence 2 id st miss rejoin) 2 id st miss rejoin := by
  have ho := presOff_telegram id
  rw [presIs_iff _ _ 2 id _ _ _ ho]
  generalize 0x81000 + 4 * id = o at ho ⊢
  have hlo : (missF o).lo + (missF o).w ≤ (rejoinF o).lo := Nat.le_of_ble_eq_true rfl
  have hmid : (rejoinF o).lo + (rejoinF o).w ≤ (presF o).lo := Nat.le_of_ble_eq_true rfl
  have hhi : (missF o).lo + (missF o).w ≤ (presF o).lo := Nat.le_of_ble_eq_true rfl
  have hpr (f : Field) : (s.setPresence 2 id st miss rejoin).get f =
      (((s.set (presF o) st).set (missF o) miss).set (rejoinF o) rejoin).get f := by
    unfold State.setPresence
    rw [ho]
    exact State.get_setSource _ _ _ _
  have hw : (presF o).w = 2 ∧ (missF o).w = 16 ∧ (rejoinF o).w = 4 := ⟨rfl, rfl, rfl⟩
  obtain ⟨hws, hwm, hwr⟩ := hw
  refine ⟨?_, ?_, ?_⟩
  · rw [hpr, State.get_set_beside _ _ _ _ (.inr hmid), State.get_set_beside _ _ _ _ (.inr hhi),
      State.get_set_same _ _ _ (Nat.le_of_ble_eq_true rfl), hws]
    omega
  · rw [hpr, State.get_set_beside _ _ _ _ (.inl hlo), State.get_set_same _ _ _ (Nat.le_of_ble_eq_true rfl), hwm]
    omega
  · rw [hpr, State.get_set_same _ _ _ (Nat.le_of_ble_eq_true rfl), hwr]
    omega

theorem PresIs.lt {s : State} {id st miss rejoin : Nat} (h : PresIs s 2 id st miss rejoin) : st < 4 ∧ miss < 65536 ∧ rejoin < 16 := by
  obtain ⟨rfl, rfl, rfl⟩ := (presIs_iff s _ 2 id st miss rejoin (presOff_telegram id)).1 h
  exact ⟨fieldGet_lt _ _ _, fieldGet_lt _ _ _, fieldGet_lt _ _ _⟩

theorem State.setPresence_rcd (s : State) (id st miss rejoin : Nat) : (s.setPresence 2 id st miss rejoin).rcd = s.rcd := rfl
theorem State.setPresence_fab (s : State) (id st miss rejoin : Nat) : (s.setPresence 2 id st miss rejoin).fab = s.fab := rfl

/-- The event of a telegram: recorded and raised, its presence as it was. -/
theorem State.stationEvent_spec (s : State) (id st miss rejoin : Nat) (back : Bool) (hid : id < 1024) (h : PresIs s 2 id st miss rejoin) :
    PresIs (s.stationEvent 2 id back) 2 id st miss rejoin ∧
      (s.stationEvent 2 id back).rcd.reported.map (fun r => r.code) =
        s.rcd.reported.map (fun r => r.code) ++ [if back then .STATION_RETURN else .STATION_ABSENT] ∧
      (if back then 273 else 272, s.fab) ∈ (s.stationEvent 2 id back).vdx.pulses := by
  set u := s.report (if back then .STATION_RETURN else .STATION_ABSENT) (kindRec 2 id) [2, id] with hu
  have he : s.stationEvent 2 id back = u.raise (if back then 273 else 272) := rfl
  have ha : Aside (fun q => presState q = true) s (u.raise (if back then 273 else 272)) :=
    (Aside.refl (fun _ hq => calm_of_presState hq) s).report.raise
  have hreg : (u.raise (if back then 273 else 272)).reg (0x81000 + 4 * id) = s.reg (0x81000 + 4 * id) :=
    ha.reg _ (presState_presOff id hid)
  rw [he]
  refine ⟨?_, ?_, ?_⟩
  · have ho := presOff_telegram id
    rw [presIs_iff _ _ 2 id _ _ _ ho] at h ⊢
    unfold State.get at h ⊢
    generalize 0x81000 + 4 * id = o at h hreg ⊢
    have hp : (presF o).off = o ∧ (missF o).off = o ∧ (rejoinF o).off = o := ⟨rfl, rfl, rfl⟩
    rw [hp.1, hp.2.1, hp.2.2] at h ⊢
    rwa [hreg]
  · obtain ⟨r, v, e⟩ := u.raise_sources (if back then 273 else 272)
    rw [e]
    exact (s.report_spec _ _ _).1
  · exact u.pulses_raise _ (by cases back <;> rfl)

theorem telegramPresence (id miss rejoin : Nat) (s : State) (hid : id < 1024) :
    (∀ st, st ≠ 2 → PresIs s 2 id st miss rejoin → PresIs (s.presCount 2 id true) 2 id st 0 rejoin ∧
      (s.presCount 2 id true).rcd = s.rcd) ∧
    (PresIs s 2 id 2 miss rejoin → rejoin + 1 < (s.limits 2 id).2 → rejoin + 1 < 16 → PresIs (s.presCount 2 id true) 2 id 2 miss (rejoin + 1)) ∧
    (PresIs s 2 id 2 miss rejoin → (s.limits 2 id).2 ≤ rejoin + 1 → PresIs (s.presCount 2 id true) 2 id 1 0 0 ∧
      (s.presCount 2 id true).rcd.reported.map (fun r => r.code) = s.rcd.reported.map (fun r => r.code) ++ [.STATION_RETURN] ∧
      (273, s.fab) ∈ (s.presCount 2 id true).vdx.pulses) ∧
    (∀ st, st ≠ 2 → PresIs s 2 id st miss rejoin → miss + 1 < (s.limits 2 id).1 → miss < 65535 →
      PresIs (s.presCount 2 id false) 2 id st (miss + 1) rejoin ∧ (s.presCount 2 id false).rcd = s.rcd) ∧
    (∀ st, st ≠ 2 → PresIs s 2 id st miss rejoin → (s.limits 2 id).1 ≤ miss + 1 → miss < 65535 →
      PresIs (s.presCount 2 id false) 2 id 2 (miss + 1) 0 ∧
      (s.presCount 2 id false).rcd.reported.map (fun r => r.code) = s.rcd.reported.map (fun r => r.code) ++ [.STATION_ABSENT] ∧
      (272, s.fab) ∈ (s.presCount 2 id false).vdx.pulses) := by
  refine ⟨fun st hst h => ?_, fun h hl hr => ?_, fun h hl => ?_, fun st hst h hl hm => ?_, fun st hst h hl hm => ?_⟩
  all_goals
    obtain ⟨hs4, hm16, hr4⟩ := PresIs.lt h
    unfold State.presCount
    rw [show s.presence 2 id = _ from h]
  · simp only [if_true, hst, if_false]
    exact ⟨presIs_setPresence s id st 0 rejoin hs4 (by omega) hr4, s.setPresence_rcd _ _ _ _⟩
  · simp only [if_true, if_neg (show ¬ (s.limits 2 id).2 ≤ rejoin + 1 by omega)]
    exact presIs_setPresence s id 2 miss (rejoin + 1) hs4 hm16 hr
  · simp only [if_true, if_pos hl]
    have hp := presIs_setPresence s id 1 0 0 (by omega) (by omega) (by omega)
    have he := State.stationEvent_spec _ id 1 0 0 true hid hp
    rwa [State.setPresence_rcd, State.setPresence_fab] at he
  · have hm1 : min 65535 (miss + 1) = miss + 1 := by omega
    simp only [Bool.false_eq_true, hst, if_false, hm1, if_neg (show ¬ (s.limits 2 id).1 ≤ miss + 1 by omega)]
    exact ⟨presIs_setPresence s id st (miss + 1) rejoin hs4 (by omega) hr4, s.setPresence_rcd _ _ _ _⟩
  · have hm1 : min 65535 (miss + 1) = miss + 1 := by omega
    simp only [Bool.false_eq_true, hst, if_false, hm1, if_pos hl]
    have hp := presIs_setPresence (s.holdSource 2 id) id 2 (miss + 1) 0 (by omega) (by omega) (by omega)
    have he := State.stationEvent_spec _ id 2 (miss + 1) 0 false hid hp
    rwa [State.setPresence_rcd, State.setPresence_fab] at he

/-- The claims on the counting of presence. -/
theorem presenceCounting : PresenceCounting := ⟨presenceCounted, fun id miss rejoin s hid => telegramPresence id miss rejoin s hid⟩

end Sys2Proof.Machine
end

section
/-! SUPPORT. The output close of a group (R22 step 5, R109, R203, R211, R240, R462). -/
namespace Sys2Proof.Machine
open Sys2Proof.Claims
set_option Elab.async false

namespace Aside
variable {R : Nat → Prop} {s₀ s : State}

/-! ### Writes of variables and of sync data -/

theorem modPwr (h : Aside R s₀ s) {f : Pwr → Pwr} : Aside R s₀ (s.modPwr f) := h.same
theorem request (h : Aside R s₀ s) {rank unit cost : Nat} : Aside R s₀ (s.request rank unit cost) := either h h.modPwr

theorem unreserve (h : Aside R s₀ s) {but a n : Nat} : Aside R s₀ (s.unreserve but a n) := by
  refine fold (fun u p h1 => ?_) h
  split
  exacts [.either (h1.modPair fun _ => ⟨rfl, rfl, rfl⟩) h1, h1]

theorem wr8 (h : Aside R s₀ s) {a : Nat} {v : Byte} : Aside R s₀ (s.wr8 a v) := h.same
theorem modPage (h : Aside R s₀ s) {k : Nat} {f : PageSt → PageSt} : Aside R s₀ (s.modPage k f) := h.same

theorem userPut (h : Aside R s₀ s) {part va : Nat} {b : Byte} : Aside R s₀ (s.userPut part va b) := by
  unfold State.userPut
  split
  exacts [h.wr8.unreserve.modPage, h]

theorem userWrite (h : Aside R s₀ s) {part va : Nat} {l : List Byte} : Aside R s₀ (s.userWrite part va l) := by
  induction l generalizing s va with
  | nil => exact h
  | cons b l ih => exact ih h.userPut

theorem putVar (h : Aside R s₀ s) {v : VarEntry} {ofs : Nat} {data : List Byte} : Aside R s₀ (s.putVar v ofs data) := by
  unfold State.putVar
  extract_lets d
  split
  exacts [h.userWrite, h.wrBytes, h.wrBytes, h]

theorem longDone (h : Aside R s₀ s) {opc status : Nat} {data : List Byte} : Aside R s₀ (s.longDone opc status data) := by
  unfold State.longDone
  split
  exacts [.either h.same h, h]

theorem doWrites (h : Aside R s₀ s) {g : Nat} : Aside R s₀ (s.doWrites g) := by
  unfold State.doWrites
  extract_lets now _ u
  have hu : Aside R s₀ u := h.same
  refine fold (fun v w h1 => ?_) hu
  split
  exacts [h1.putVar.longDone, h1.longDone]

theorem applyForces (h : Aside R s₀ s) {space g : Nat} : Aside R s₀ (s.applyForces space g) := by
  unfold State.applyForces
  extract_lets mine new gone l _ u v
  have hu : Aside R s₀ u := h.same
  have hv : Aside R s₀ v := .either hu.longDone hu
  exact .either hv.longDone hv

/-! ### What follows the offer -/

theorem snapshots (h : Aside R s₀ s) {g : Nat} : Aside R s₀ (s.snapshots g) := by
  unfold State.snapshots
  extract_lets due _ new u
  have hu : Aside R s₀ u := .either h h.request
  exact .either h (.either h.same hu.same)

theorem sendOut (h : Aside R s₀ s) {g : Nat} : Aside R s₀ (s.sendOut g) := by
  unfold State.sendOut
  extract_lets ks oi alone req sign hand u v
  have hu : Aside R s₀ u := fold (fun _ _ h1 => h1.setLease) h
  have hv : Aside R s₀ v := fold (fun _ _ h1 => h1.setLease) hu
  exact hv.tlGroupFrame

theorem donate (h : Aside R s₀ s) {g : Nat} : Aside R s₀ (s.donate g) := by
  unfold State.donate
  split
  · extract_lets y a b u
    have hu : Aside R s₀ u := h.same
    exact .either (.either h.same (.fold (fun _ _ h1 => h1.tlSeq) hu)) h
  · exact h

theorem setEng (h : Aside R s₀ s) {e : Nat} {v : Engine} : Aside R s₀ (s.setEng e v) := h.same

theorem engPuts (h : Aside R s₀ s) {e a : Nat} {l : List Byte} : Aside R s₀ (s.engPuts e a l) := by
  induction l generalizing s a with
  | nil => exact h
  | cons v l ih => exact ih h.setEng.wr8

theorem putBlock (h : Aside R s₀ s) {b : RetBlock} {l : List Byte} : Aside R s₀ (s.putBlock b l) := either h.userWrite h.wrBytes

theorem putSync (h : Aside R s₀ s) {g : Nat} {i : SyncItem} : Aside R s₀ (s.putSync g i) := by
  cases i with
  | block ident data =>
    unfold State.putSync
    dsimp only
    split
    exacts [h.putBlock, h]
  | timer e n run q elapsed => exact h.engPuts
  | status cg sk ri tc mfc =>
    have hu : Aside R s₀ (s.setGrp g { s.grp g with taskCycles := tc }) := h.setGrp ⟨rfl, rfl, rfl, rfl⟩
    have hv : Aside R s₀ ((s.setGrp g { s.grp g with taskCycles := tc }).set F.TVL_MFC_W mfc) := hu.set
    exact hv.same

theorem join (h : Aside Counts s₀ s) {g : Nat} : Aside Counts s₀ (s.join g) := by
  unfold State.join
  extract_lets y u z _ v w
  have hu : Aside Counts s₀ u := fold (fun _ _ h1 => h1.putSync) h
  have hv : Aside Counts s₀ v := hu.same
  have hw : Aside Counts s₀ w := hv.out (f := F.TVL_STAT_MSTATE)
  exact .either (.either hw.same hv) h

end Aside

/-! ### The output close -/

theorem State.zeroRegions_clk (s : State) (g : Nat) : (s.zeroRegions g).clk = s.clk := by
  unfold State.zeroRegions
  refine foldl_keeps (fun u => u.clk = s.clk) _ (fun u n hu => ?_) _ s rfl
  split
  exacts [hu, hu]

/-- The state in which a group's contributions are offered at its output close. -/
def State.closing (s : State) (g : Nat) : State := (((s.advance (s.outCloseAt g)).zeroRegions g).doWrites g).applyForces 2 g

theorem State.closing_clk (s : State) (g : Nat) : (s.closing g).clk.t = max s.clk.t (s.outCloseAt g) := by
  have h : Aside Counts ((s.advance (s.outCloseAt g)).zeroRegions g) (s.closing g) :=
    (Aside.refl (fun _ hq => calm_of_taskCount hq) _).doWrites.applyForces
  rw [h.clk, State.zeroRegions_clk]
  exact (s.advance_moves _).2

/-- With no region to zero, no write and no force waiting, the contributions stand as they were. -/
theorem State.closing_idle (s : State) (g : Nat) (hz : s.hx.zero = []) (hw : s.cyc.varWrites = []) (hf : s.cyc.forces = []) :
    (s.closing g).cyc.committed = s.cyc.committed ∧ (s.closing g).cyc.forces = [] := by
  obtain ⟨c, r, p, v, o, e⟩ := (s.advance_moves (s.outCloseAt g)).1
  unfold State.closing State.zeroRegions State.doWrites State.applyForces
  rw [e]
  simp [hz, hw, hf]

/-- The image that a group offers. -/
def State.offering (s : State) (g n : Nat) : Tbl Byte :=
  (s.forcesOn 2 g).foldl (fun (img : Tbl Byte) f => f.over img) (ofImage (tgetList byteD s.cyc.committed (commitKey g 0) n))

/-- The group has offered its image and is closed. -/
def State.closed (s : State) (g n : Nat) : State := s.setGrp g { s.grp g with offered := s.offering g n, closed := true }

theorem State.closed_spec (s : State) (g n : Nat) :
    ((s.closed g n).grp g).closed = true ∧ ((s.closed g n).grp g).offered = s.offering g n := by
  rw [State.closed, State.grp_setGrp_same]
  exact ⟨rfl, rfl⟩

theorem State.closed_committed (s : State) (g n : Nat) : (s.closed g n).cyc.committed = s.cyc.committed := rfl

/-- The output close touches nothing of the offer once it is made. -/
theorem outLatch_aside (g : Nat) (d : Group) (s : State) (hg : s.group? g = some d) (hc : s.cycling = true) (ho : (s.grp g).on = true)
    (hn : (s.grp g).closed = false) : Aside Counts ((s.closing g).closed g d.outBytes) (outLatch g s) := by
  have h : Aside Counts ((s.closing g).closed g d.outBytes) ((s.closing g).closed g d.outBytes) := .refl (fun _ hq => calm_of_taskCount hq) _
  have hv : ∀ b : Bool, Aside Counts ((s.closing g).closed g d.outBytes) (if b then (((s.closing g).closed g d.outBytes).snapshots g).sendOut g
      else ((s.closing g).closed g d.outBytes).snapshots g) := fun b => .either h.snapshots.sendOut h.snapshots
  unfold outLatch
  rw [hg]
  simp only [hc, ho, hn, Bool.not_true, Bool.or_self, Bool.false_eq_true, if_false]
  exact (hv _).donate.join

theorem outputClose (g : Fin 4) (d : Group) (s u : State) (hg : s.group? g = some d) (hc : s.cycling = true) (ho : (s.grp g).on = true)
    (hn : (s.grp g).closed = false) (hu : u = (((s.advance (s.outCloseAt g)).zeroRegions g).doWrites g).applyForces 2 g) :
    ∃ t, exec (.outLatch g) s = .next t ∧ (t.grp g).closed = true ∧ t.clk.t = max s.clk.t (s.outCloseAt g) ∧
      (t.grp g).offered = (u.forcesOn 2 g).foldl (fun (img : Tbl Byte) f => f.over img)
        (ofImage (tgetList byteD u.cyc.committed (commitKey g 0) d.outBytes)) ∧
      (s.hx.zero = [] → s.cyc.varWrites = [] → s.cyc.forces = [] → t.cyc.committed = s.cyc.committed ∧
        (t.grp g).offered = ofImage (tgetList byteD s.cyc.committed (commitKey g 0) d.outBytes)) := by
  obtain rfl : u = s.closing g := hu
  have h := outLatch_aside g d s hg hc ho hn
  obtain ⟨hclosed, hoff, -, -⟩ := h.grp g
  obtain ⟨hclosed', hoff'⟩ := (s.closing g).closed_spec g d.outBytes
  have hclk : (outLatch g s).clk.t = max s.clk.t (s.outCloseAt g) := by
    rw [h.clk]
    exact s.closing_clk g
  refine ⟨outLatch g s, rfl, hclosed.trans hclosed', hclk, hoff.trans hoff', fun hz hw hf => ?_⟩
  obtain ⟨hcom, hno⟩ := s.closing_idle g hz hw hf
  refine ⟨h.committed.trans ((State.closed_committed _ _ _).trans hcom), (hoff.trans hoff').trans ?_⟩
  rw [State.offering, State.forcesOn, hno, hcom]
  rfl

end Sys2Proof.Machine
end

section
/-! SUPPORT. The completion of a vote (R225 to R230, R239, R244). -/
namespace Sys2Proof.Machine
open Sys2Proof.Claims
set_option Elab.async false

namespace Aside
variable {R : Nat → Prop} {s₀ s : State}

/-! ### Membership -/

theorem exclude (hR : Quiet R) (h : Aside R s₀ s) {port : Option Nat} : Aside R s₀ (s.exclude port) := by
  unfold State.exclude
  extract_lets u v
  have hu : Aside R s₀ u := state hR (releaseAll hR h)
  have hv : Aside R s₀ v := .either (setMembers hR hu) hu
  have hw : Aside R s₀ ([0, 1, 2, 3].foldl (fun (s : State) g => s.setGrp g { s.grp g with on := false }) v) :=
    fold (fun _ _ h1 => h1.setGrp ⟨rfl, rfl, rfl, rfl⟩) hv
  generalize [0, 1, 2, 3].foldl (fun (s : State) g => s.setGrp g { s.grp g with on := false }) v = w at hw ⊢
  have hx : Aside R s₀ (w.set F.TVL_STAT_DONOR 0) := state hR hw
  exact hx.same

theorem syncFails (hR : Quiet R) (h : Aside R s₀ s) : Aside R s₀ s.syncFails := (exclude hR h).raise.report

theorem removeMember (hR : Quiet R) (h : Aside R s₀ s) {q : Nat} : Aside R s₀ (s.removeMember q) := by
  unfold State.removeMember
  extract_lets _ u
  have hu : Aside R s₀ u := h.setPeer
  exact .either (setMembers hR hu) h

theorem expel (hR : Quiet R) (h : Aside R s₀ s) {q : Nat} : Aside R s₀ (s.expel q) := either (removeMember hR h.setPeer) h

theorem expelDissent (hR : Quiet R) (h : Aside R s₀ s) {ends : List VoteEnd} {seen : Nat} : Aside R s₀ (s.expelDissent ends seen) :=
  fold (fun _ _ h1 => .either (expel hR h1) h1) h

/-! ### The leases at the completion of a vote -/

theorem adopt (h : Aside R s₀ s) {k e : Nat} (hk : k < 16) : Aside R s₀ (s.adopt k e) := by
  unfold State.adopt
  extract_lets _ u
  have hu : Aside R s₀ u := h.setLease
  exact .either hu (hu.set (calm_lstat hk))

theorem portOf_lt (s : State) (q : Nat) : s.portOf q < 2 := by
  unfold State.portOf
  split <;> omega

theorem tlViolationRec (h : Aside R s₀ s) {p typ : Nat} (hp : p < 2) : Aside R s₀ (s.tlViolationRec p typ) :=
  (h.inc (f := F.TVL_LINKCNT_VIOLATION p) (calm_eq_false.2 (by simp only [F.TVL_LINKCNT_VIOLATION]; omega))).raise.report

theorem renewMine (h : Aside R s₀ s) {g k : Nat} (hk : k < 16) : Aside R s₀ (s.renewMine g k) := by
  unfold State.renewMine
  extract_lets l signers u v
  have hu : Aside R s₀ u := by
    unfold u
    split
    exacts [.either h (h.adopt hk), fold (fun v _ h1 => h1.tlViolationRec (portOf_lt _ _)) h]
  have hv : Aside R s₀ v := by
    unfold v
    split
    exacts [.either (hu.adopt hk) hu, hu]
  exact hv.setLease

theorem recordReq (h : Aside R s₀ s) {g k q : Nat} {e : VoteEnd} (hk : k < 16) : Aside R s₀ (s.recordReq g k q e) := by
  unfold State.recordReq
  split
  · extract_lets _ u _ v _
    have hu : Aside R s₀ u := (h.setLease.set (f := F.TVL_LSTAT_HOLDER k) (calm_lstat hk)).set (f := F.TVL_LSTAT_RELEASED k) (calm_lstat hk)
    have hv : Aside R s₀ v := hu.same
    exact .either h (.either (h.tlViolationRec (portOf_lt _ _)) (.either h (.either hv.setLease.tlSeq hu)))
  · exact h

theorem leaseVote (h : Aside R s₀ s) {g k : Nat} {e : VoteEnd} (hk : k < 16) : Aside R s₀ (s.leaseVote g k e) := by
  unfold State.leaseVote
  extract_lets has stray asked u v w
  have hu : Aside R s₀ u := fold (fun _ _ h1 => h1.tlViolationRec (portOf_lt _ _)) h
  have hv : Aside R s₀ v := .either (hu.renewMine hk) hu
  have hw : Aside R s₀ w := .either (fold (fun _ _ h1 => .either h1 (h1.recordReq hk)) hv) hv
  exact .either h hw.setLease

/-! ### The outcome of a vote -/

theorem voteOutcome (hR : Quiet R) (h : Aside R s₀ s) {k : Nat} {v : List Byte} {e : VoteEnd} {vs : List (Nat × List Byte)} :
    Aside R s₀ (s.voteOutcome k v e vs) := by
  cases e with
  | fine => exact h
  | nomaj => exact h.inc.raise.report
  | mismatch => exact h.inc.raise
  | dissent q => exact .either (.either h (exclude hR h.report.raise)) h.inc.report.raise

theorem compareLimit (hR : Quiet R) (h : Aside R s₀ s) {g : Nat} {ends : List VoteEnd} : Aside R s₀ (s.compareLimit g ends) := by
  unfold State.compareLimit
  extract_lets n _ u v w
  have hu : Aside R s₀ u := h.same
  have hv : Aside R s₀ v := fold (fun _ _ h1 => .either (h1.modPair fun _ => ⟨rfl, rfl, rfl⟩) h1) hu
  have hw : Aside R s₀ w := hv.foldOn fun _ e he h1 => .either (h1.set (calm_eq_false.2 (by
    have : e < 2 := by simp at he; omega
    simp only [F.LE_CMPST_DUE]
    omega))) h1
  exact .either h (.either (.either (.either (exclude hR hw) hw) hu) h.same)

theorem probation (hR : Quiet R) (h : Aside R s₀ s) {g : Nat} : Aside R s₀ (s.probation g) := either (.either (syncFails hR h) h) h

end Aside

/-! ### The registers at the moving of the clock -/

/-- A register that stands apart from the sources and from SIO_DOSTAT is as it was at a later instant. -/
theorem State.reg_advance (s : State) (t q : Nat) (hc : calm q = true) (ho : q < 0xC0220 ∨ 0xC0240 ≤ q) : (s.advance t).reg q = s.reg q := by
  have hv (n : Nat) (hn : n < 512) : q ≠ (F.VDX_SRCSTAT_LINE n).off := by
    rintro rfl
    rw [calm_eq_false.2 (by simp only [F.VDX_SRCSTAT_LINE]; omega)] at hc
    exact Bool.false_ne_true hc
  have hfall (u : State) (n : Nat) : (u.lineFalls n).reg q = u.reg q := by
    unfold State.lineFalls
    split
    · rfl
    next hn =>
    have hset (u : State) (f : Field) (v : Nat) (hf : f.off = (F.VDX_SRCSTAT_LINE n).off) : (u.set f v).reg q = u.reg q :=
      u.reg_set_other f q v (hf ▸ hv n (by omega))
    dsimp only
    split
    · rw [hset _ (F.VDX_SRCSTAT_PENDING n) _ rfl]
      split
      · rw [hset _ (F.VDX_SRCSTAT_WITHDRAWN n) _ rfl, hset _ _ _ rfl]
      · exact hset _ _ _ rfl
    · exact hset _ _ _ rfl
  have hdrop (u : State) : u.dropPulses.reg q = u.reg q := by
    unfold State.dropPulses
    extract_lets gone _ w
    have hw : w.reg q = u.reg q := rfl
    exact foldl_keeps (fun v => v.reg q = u.reg q) _ (fun (v : State) (c : Nat × Nat) h => (hfall v c.1).trans h) gone w hw
  have hsw (u : State) : u.runSwitches.reg q = u.reg q := by
    have hR : ∀ r, q = r → r < 0xC0220 ∨ 0xC0240 ≤ r := fun r hr => hr ▸ ho
    refine Aside.reg (R := Eq q) (Aside.foldOn (.refl (fun r hr => by rw [← hr, hc]) u) fun v m hm h => ?_) q rfl
    have hm : m < 8 := List.mem_range.1 hm
    dsimp only
    split
    · exact .either (Aside.doView hR h.setDout hm) h
    · exact h
  unfold State.advance
  split
  · rfl
  · rw [hsw, hdrop]
    obtain ⟨p, e⟩ := s.countCycles_pairs (t - s.clk.t)
    rw [e]
    rfl

theorem outConf_quiet {q : Nat} (h : outConf q = true) : outState q = false := by
  simp [outConf, outState] at h ⊢
  omega

theorem State.reg_advance_conf (s : State) (t q : Nat) (h : outConf q = true) : (s.advance t).reg q = s.reg q :=
  s.reg_advance t q (calm_of_outConf h) (Quiet.drives (R := fun q => outConf q = true) (fun _ => outConf_quiet) q h)

theorem State.simplex_advance (s : State) (t : Nat) : (s.advance t).simplex = s.simplex := by
  have h : (s.advance t).get F.TVL_CFG_VCU = s.get F.TVL_CFG_VCU := by
    rw [State.get, s.reg_advance_conf t _ rfl]
    rfl
  unfold State.simplex State.duplex State.triplex
  rw [h]

/-! ### Images -/

theorem getElem?_tgetList {α : Type} (d : Nat → α) (t : Tbl α) (k n j : Nat) (h : j < n) : (tgetList d t k n)[j]? = some (tget d t (k + j)) := by
  induction n generalizing k j with
  | zero => omega
  | succ n ih =>
    cases j with
    | zero => rfl
    | succ j =>
      rw [tgetList, List.getElem?_cons_succ, ih (k + 1) j (by omega)]
      congr 2
      omega

/-- A list laid down is read back byte by byte. -/
theorem tget_tputList_in {α : Type} [DecidableEq α] (d : Nat → α) (t : Tbl α) (k j : Nat) (l : List α) (h : j < l.length) :
    tget d (tputList d t k l) (k + j) = l[j] := by
  have hg := getElem?_tgetList d (tputList d t k l) k l.length j h
  rw [tgetList_tputList, List.getElem?_eq_getElem h] at hg
  exact (Option.some.inj hg).symm

/-- An image agrees with another on its first `n` bytes. -/
def Agrees (n : Nat) (v o : Tbl Byte) : Prop := ∀ i, i < n → tget byteD v i = tget byteD o i

theorem Agrees.image {n : Nat} {v o : Tbl Byte} (h : Agrees n v o) : image v n = image o n :=
  tgetList_congr byteD o v 0 n fun b _ hb => h b (by omega)

theorem agrees_ofImage (n : Nat) (o : Tbl Byte) : Agrees n (ofImage (image o n)) o := by
  intro i hi
  have hl : i < (Machine.image o n).length := by rwa [Machine.image, length_tgetList]
  have h := tget_tputList_in byteD [] 0 i (Machine.image o n) hl
  rw [Nat.zero_add] at h
  rw [ofImage, h]
  have hg := getElem?_tgetList byteD o 0 n i hi
  rw [Nat.zero_add] at hg
  exact Option.some.inj ((List.getElem?_eq_getElem hl).symm.trans hg)

theorem length_sliceB (l : List Byte) (o n : Nat) : (sliceB l o n).length = n := by
  simp [sliceB, padTo]
  omega

/-- A slice of the image laid down at its own place changes nothing of it. -/
theorem Agrees.tputList_sliceB {n : Nat} {v o : Tbl Byte} (h : Agrees n v o) (ofs len : Nat) :
    Agrees n (tputList byteD v ofs (sliceB (Machine.image o n) ofs len)) o := by
  intro i hi
  by_cases hin : ofs ≤ i ∧ i < ofs + len
  · obtain ⟨j, rfl⟩ : ∃ j, i = ofs + j := ⟨i - ofs, by omega⟩
    have hj : j < (sliceB (Machine.image o n) ofs len).length := by
      rw [length_sliceB]
      omega
    rw [tget_tputList_in byteD v ofs j _ hj]
    have hg := getElem?_tgetList byteD o 0 n (ofs + j) hi
    rw [Nat.zero_add] at hg
    have hs : (sliceB (Machine.image o n) ofs len)[j]? = (Machine.image o n)[ofs + j]? := by
      have hl : (Machine.image o n).length = n := length_tgetList _ _ _ _
      have ht : j < (((Machine.image o n).drop ofs).take len).length := by
        rw [List.length_take, List.length_drop, hl]
        omega
      rw [sliceB, padTo, List.getElem?_append_left ht, List.getElem?_take, if_pos (by omega), List.getElem?_drop]
    rw [List.getElem?_eq_getElem hj] at hs
    exact Option.some.inj (hs.trans hg)
  · rw [tget_tputList_other _ _ _ _ _ (by rw [length_sliceB]; omega)]
    exact h i hi

/-! ### The vote of a group -/

/-- The vote of the group's task cycle is complete at an instant. -/
def Complete (c : Clk) (g : Nat) (u : State) : Prop := u.clk = c ∧ (u.grp g).voteDone = true

theorem Complete.aside {c : Clk} {g : Nat} {u t : State} (h : Complete c g u) (k : Aside Counts u t) : Complete c g t := by
  obtain ⟨hc, hd⟩ := h
  obtain ⟨-, -, kd, -⟩ := k.grp g
  exact ⟨k.clk.trans hc, kd.trans hd⟩

theorem Complete.setVoted {c : Clk} {g : Nat} {u : State} (h : Complete c g u) (v : Tbl Byte) :
    Complete c g (u.setGrp g { u.grp g with voted := v }) := by
  obtain ⟨hc, hd⟩ := h
  refine ⟨hc, ?_⟩
  rw [State.grp_setGrp_same]
  exact hd

theorem Complete.voteGroup {c : Clk} {g : Nat} {u : State} (h : Complete c g u) (k : Nat) (vs : List (Nat × List Byte)) :
    Complete c g (u.voteGroup g k vs).1 := by
  unfold State.voteGroup
  exact (h.setVoted _).aside (Aside.voteOutcome quiet_counts (.counts _))

theorem mem_ogroups {s : State} {g k : Nat} (h : k ∈ s.ogroups g) : k < 16 := List.mem_range.1 (List.mem_filter.1 h).1

/-- A property of a state that every step of a fold over a list keeps. -/
theorem foldl_keepsOn {α β : Type} (P : α → Prop) (f : α → β → α) (l : List β) (h : ∀ a, ∀ b ∈ l, P a → P (f a b)) (a : α) (ha : P a) :
    P (l.foldl f a) := by
  induction l generalizing a with
  | nil => exact ha
  | cons b l ih => exact ih (fun a c hc => h a c (by simp [hc])) _ (h a b (by simp) ha)

theorem Complete.voteAll {c : Clk} {g : Nat} {u : State} (h : Complete c g u) : Complete c g (u.voteAll g).1 := by
  unfold State.voteAll
  refine foldl_keepsOn (fun (r : State × List VoteEnd) => Complete c g r.1) _ _ (fun (r : State × List VoteEnd) k hk hr => ?_) _ h
  exact (hr.voteGroup k _).aside (Aside.leaseVote (.counts _) (mem_ogroups hk))

/-- The group's vote begins with its own offer, or with the last voted values where nobody votes (R225, R228). -/
def State.voting0 (s : State) (g : Nat) : State :=
  let own := ofImage (match (s.voters g).find? (fun c => c.1 == s.pos) with | some c => c.2 | none => s.offer8 g)
  s.setGrp g { s.grp g with voteDone := true, voted := if (s.voters g).isEmpty then (s.grp g).voted else own }

/-- The state after the votes on the output groups, with whether anybody voted. -/
def State.afterVotes (s : State) (g : Nat) (novoter : Bool) : State :=
  { (s.voteAll g).1 with tvl := { (s.voteAll g).1.tvl with noVoter := tput boolD (s.voteAll g).1.tvl.noVoter g novoter } }

theorem State.voteCompletes_eq (s : State) (g seen : Nat) :
    ∃ u n, u = (s.advance (s.outCloseAt g + s.tlTime (s.outBytes g))).voting0 g ∧
      s.voteCompletes g seen = (((u.afterVotes g n).expelDissent (u.voteAll g).2 seen).compareLimit g (u.voteAll g).2).probation g :=
  ⟨_, ((s.advance (s.outCloseAt g + s.tlTime (s.outBytes g))).voters g).isEmpty, rfl, rfl⟩

theorem Complete.afterVotes {c : Clk} {g : Nat} {u : State} (h : Complete c g u) (n : Bool) : Complete c g (u.afterVotes g n) := by
  have hv := h.voteAll
  exact hv.aside (Aside.counts _).same

/-- After its vote a group is marked so, at the instant of the vote. -/
theorem State.complete_voteCompletes (s : State) (g seen : Nat) :
    Complete (s.advance (s.outCloseAt g + s.tlTime (s.outBytes g))).clk g (s.voteCompletes g seen) := by
  obtain ⟨u, n, hu, e⟩ := s.voteCompletes_eq g seen
  have h0 : Complete (s.advance (s.outCloseAt g + s.tlTime (s.outBytes g))).clk g u := by
    rw [hu, State.voting0]
    refine ⟨rfl, ?_⟩
    rw [State.grp_setGrp_same]
  rw [e]
  exact (h0.afterVotes n).aside
    (Aside.probation quiet_counts (Aside.compareLimit quiet_counts (Aside.expelDissent quiet_counts (.counts _))))

/-! ### The vote in simplex -/

/-- In simplex the voted image is the one the group offered, `o` on its first `n` bytes. -/
structure Alone (g n : Nat) (o : Tbl Byte) (u : State) : Prop where
  simplex : u.simplex = true
  bytes : u.outBytes g = n
  offered : (u.grp g).offered = o
  voted : Agrees n (u.grp g).voted o

theorem Alone.setVoted {g n : Nat} {o v : Tbl Byte} {u : State} (h : Alone g n o u) (hv : Agrees n v o) :
    Alone g n o (u.setGrp g { u.grp g with voted := v }) := by
  refine ⟨h.simplex, h.bytes, ?_, ?_⟩
  · rw [State.grp_setGrp_same]
    exact h.offered
  · rw [State.grp_setGrp_same]
    exact hv

/-- With the module's own image the only one, the vote takes its bytes and ends well. -/
theorem Alone.voteGroup {g n : Nat} {o : Tbl Byte} {u : State} (h : Alone g n o u) (k p : Nat) :
    Alone g n o (u.voteGroup g k [(p, image o n)]).1 ∧ (u.voteGroup g k [(p, image o n)]).2 = .fine := by
  have e : u.voteGroup g k [(p, image o n)] = (u.setGrp g { u.grp g with
      voted := tputList byteD (u.grp g).voted (u.ogOfs k) (sliceB (image o n) (u.ogOfs k) (u.ogLen k)) }, .fine) := rfl
  rw [e]
  exact ⟨h.setVoted (h.voted.tputList_sliceB _ _), rfl⟩

theorem Alone.leaseVote {g n : Nat} {o : Tbl Byte} {u : State} (h : Alone g n o u) (k : Nat) (e : VoteEnd) : u.leaseVote g k e = u := by
  rw [State.leaseVote, if_pos h.simplex]

theorem Alone.voters {g n : Nat} {o : Tbl Byte} {u : State} (h : Alone g n o u) : u.voters g = [(u.pos, image o n)] := by
  rw [State.voters, if_pos h.simplex, State.offer8, h.offered, h.bytes]

theorem Alone.voteAll {g n : Nat} {o : Tbl Byte} {u : State} (h : Alone g n o u) :
    Alone g n o (u.voteAll g).1 ∧ ∀ e ∈ (u.voteAll g).2, e = .fine := by
  unfold State.voteAll
  rw [h.voters]
  refine foldl_keeps (fun (r : State × List VoteEnd) => Alone g n o r.1 ∧ ∀ e ∈ r.2, e = .fine) _ (fun r k hr => ?_) _ _ ⟨h, by simp⟩
  obtain ⟨ha, hf⟩ := hr
  obtain ⟨hv, he⟩ := ha.voteGroup k u.pos
  dsimp only
  rw [hv.leaseVote]
  refine ⟨hv, fun e hm => ?_⟩
  rcases List.mem_cons.1 hm with rfl | hm
  exacts [he, hf e hm]

/-- No dissent, no mismatch and no probation stand against the only voter. -/
theorem Alone.rest {g n : Nat} {o : Tbl Byte} {u : State} (h : Alone g n o u) {ends : List VoteEnd} (he : ∀ e ∈ ends, e = .fine) (seen : Nat) :
    ((u.expelDissent ends seen).compareLimit g ends).probation g = u := by
  have hd (q : Nat) : VoteEnd.dissent q ∉ ends := fun hm => VoteEnd.noConfusion (he _ hm)
  have hdup : u.duplex = false := by
    have := h.simplex
    simp [State.simplex] at this
    exact this.1
  have h1 : u.expelDissent ends seen = u := by simp [State.expelDissent, hd]
  have h2 : u.compareLimit g ends = u := by simp [State.compareLimit, hdup]
  have h3 : u.probation g = u := by
    have himg : image (u.grp g).voted (u.outBytes g) = u.offer8 g := by rw [State.offer8, h.bytes, h.offered, h.voted.image]
    simp [State.probation, himg]
  rw [h1, h2, h3]

theorem Alone.afterVotes {g n : Nat} {o : Tbl Byte} {u : State} (h : Alone g n o u) (b : Bool) : Alone g n o (u.afterVotes g b) := by
  obtain ⟨⟨hs, hb, ho, hv⟩, -⟩ := h.voteAll
  exact ⟨hs, hb, ho, hv⟩

theorem State.grp_advance (s : State) (t g : Nat) : (s.advance t).grp g = s.grp g := by
  obtain ⟨_, _, _, _, _, e⟩ := (s.advance_moves t).1
  rw [e]
  rfl

theorem State.group_advance (s : State) (t g : Nat) : (s.advance t).group? g = s.group? g := by
  obtain ⟨_, _, _, _, _, e⟩ := (s.advance_moves t).1
  rw [e]
  rfl

/-- In simplex the vote begins with the module's own offer. -/
theorem State.alone_voting0 (s : State) (g : Nat) (h : s.simplex = true) : Alone g (s.outBytes g) (s.grp g).offered (s.voting0 g) := by
  have hv : s.voters g = [(s.pos, s.offer8 g)] := by rw [State.voters, if_pos h]
  refine ⟨h, rfl, ?_, ?_⟩
  · rw [State.voting0, State.grp_setGrp_same]
  · rw [State.voting0, State.grp_setGrp_same, hv]
    simpa [State.offer8] using agrees_ofImage (s.outBytes g) (s.grp g).offered

/-- In simplex every voted byte is the offered one. -/
theorem State.alone_voteCompletes (s : State) (g seen : Nat) (h : s.simplex = true) :
    Alone g (s.outBytes g) (s.grp g).offered (s.voteCompletes g seen) := by
  obtain ⟨u, b, hu, e⟩ := s.voteCompletes_eq g seen
  have h0 : Alone g (s.outBytes g) (s.grp g).offered u := by
    have ha := State.alone_voting0 _ g ((s.simplex_advance (s.outCloseAt g + s.tlTime (s.outBytes g))).trans h)
    rw [State.outBytes, State.group_advance, State.grp_advance] at ha
    exact hu ▸ ha
  rw [e, (h0.afterVotes b).rest h0.voteAll.2]
  exact h0.afterVotes b

theorem voteEnds (g : Fin 4) (seen : BitVec 3) (d : Group) (s : State) (hg : s.group? g = some d) (hc : s.cycling = true)
    (ho : (s.grp g).on = true) (hl : (s.grp g).closed = true) (hv : (s.grp g).voteDone = false) (hr : s.inRun = true)
    (hs : s.simplex = true ∨ s.joined g = true) :
    ∃ t, exec (.voteComplete ⟨g, seen⟩) s = .next t ∧ (t.grp g).voteDone = true ∧
      t.clk.t = max s.clk.t (s.outCloseAt g + s.tlTime (s.outBytes g)) ∧
      (s.simplex = true → ∀ i, i < d.outBytes → tget byteD (t.grp g).voted i = tget byteD (s.grp g).offered i) := by
  obtain ⟨hclk, hdone⟩ := s.complete_voteCompletes g seen.toNat
  have hall : (s.simplex || s.joined g) = true := by simpa using hs
  refine ⟨s.voteCompletes g seen.toNat, ?_, hdone, ?_, fun h1 => ?_⟩
  · show Host.Outcome.next (voteComplete g seen.toNat s) = _
    simp only [voteComplete, hc, ho, hl, hv, hr, hall, Bool.not_false, Bool.and_self, if_true]
  · rw [hclk]
    exact (s.advance_moves _).2
  · have hb : s.outBytes g = d.outBytes := by rw [State.outBytes, hg]
    exact hb ▸ (s.alone_voteCompletes g seen.toNat h1).voted

end Sys2Proof.Machine
end

section
/-! SUPPORT. The output instant: leases that fall due, the bound messages, and the releases that follow the outputs (R22 step 7, R230, R293,
R330, R345, R368). -/
namespace Sys2Proof.Machine
open Sys2Proof.Claims
set_option Elab.async false

/-- The clock does not move to an instant that is not ahead. -/
theorem State.advance_past {s : State} {t : Nat} (h : t ≤ s.clk.t) : s.advance t = s := if_pos h

namespace Aside
variable {R : Nat → Prop} {s₀ s : State}

/-! ### What falls due for a lease -/

/-- A write of one of the bits of TVL_STAT.HELD. -/
theorem held (hR : Quiet R) (h : Aside R s₀ s) {k v : Nat} : Aside R s₀ (s.set { F.TVL_STAT_HELD with lo := k, w := 1 } v) := state hR h rfl

theorem unbind (h : Aside R s₀ s) {k : Nat} : Aside R s₀ (s.unbind k) := by
  unfold State.unbind
  split
  exacts [h.same, h]

theorem gain (hR : Quiet R) (h : Aside R s₀ s) {k e : Nat} {guardian : Bool} (hk : k < 16) : Aside R s₀ (s.gain k e guardian) := by
  unfold State.gain
  extract_lets _ u _ v
  have hu : Aside R s₀ u := h.unbind.setLease
  have hv : Aside R s₀ v :=
    ((held hR hu).set (f := F.TVL_LSTAT_HOLDER k) (calm_lstat hk)).set (f := F.TVL_LSTAT_RELEASED k) (calm_lstat hk)
  exact (hv.set (f := F.TVL_LSTAT_GUARDIAN k) (calm_lstat hk)).raise

theorem handoverInstant (hR : Quiet R) (h : Aside R s₀ s) {k x : Nat} {a b : Nat} (hk : k < 16) (hx : (s.lease k).hand = some ⟨a, b, some x⟩)
    (ht : x ≤ s.clk.t) : Aside R s₀ (handoverInstant k s) := by
  unfold Machine.handoverInstant
  rw [hx]
  dsimp -zeta only
  rw [State.advance_past ht]
  extract_lets u v
  have hu : Aside R s₀ u := h
  have hv : Aside R s₀ v := (doGroupOff hR (leaseClear hR hu hk)).set (f := F.TVL_LSTAT_HOLDER k) (calm_lstat hk)
  have hw {l : Lease} : Aside R s₀ ((u.setLease k l).set (F.TVL_LSTAT_HOLDER k) b) := hu.setLease.set (calm_lstat hk)
  exact .either hv.setLease (.either (.either hu (.either (gain hR hu hk) hu.setLease)) hw)

theorem leaseGained (hR : Quiet R) (h : Aside R s₀ s) {k : Nat} {c : Claim} (hk : k < 16) (hc : (s.lease k).claim = some c)
    (ht : c.oi ≤ s.clk.t) : Aside R s₀ (leaseGained k s) := by
  unfold Machine.leaseGained
  rw [hc]
  dsimp only
  rw [State.advance_past ht]
  exact .either (gain hR h.setLease hk) h.setLease

theorem leaseLost (hR : Quiet R) (h : Aside R s₀ s) {k e : Nat} (he : (s.lease k).mine = some e) (ht : e ≤ s.clk.t) :
    Aside R s₀ (leaseLost k s) := by
  unfold Machine.leaseLost
  rw [he]
  dsimp only
  rw [State.advance_past ht]
  exact (doGroupOff hR (held hR h.setLease)).raise.report

theorem leaseDue (hR : Quiet R) (h : Aside R s₀ s) {k : Nat} (hk : k < 16) : Aside R s₀ (s.leaseDue s.clk.t k) := by
  have h0 := Aside.refl h.calm s
  unfold State.leaseDue
  extract_lets u v
  have hu : Aside R s u := by
    unfold u
    split
    next x e =>
      split
      next ht => exact handoverInstant hR h0 hk e ht
      next => exact h0
    next => exact h0
  have hv : Aside R s v := by
    unfold v
    split
    next c e =>
      split
      next ht => exact leaseGained hR hu hk e (hu.clk ▸ ht)
      next => exact hu
    next => exact hu
  refine h.trans ?_
  split
  next e he =>
    split
    next ht => exact leaseLost hR hv he (hv.clk ▸ ht)
    next => exact hv
  next => exact hv

/-! ### The releases -/

theorem txCount (h : Aside R s₀ s) {i : Nat} (hi : i < 100) : Aside R s₀ (s.txCount i) :=
  either (h.inc (calm_eq_false.2 (by simp only [F.GHC_TXCNT_LO]; omega))) (h.inc (calm_eq_false.2 (by simp only [F.GHC_TXCNT_HI]; omega)))

theorem ghRelease (h : Aside R s₀ s) {g : Nat} : Aside R s₀ (s.ghRelease g) := by
  unfold State.ghRelease
  split
  · exact .fold (fun _ _ h1 => .either (modGh (.either (h1.txCount (by omega)) h1)) h1) h
  · exact h

theorem setDue (h : Aside R s₀ s) {t : Nat} {d : Option PdDue} : Aside R s₀ (s.setDue t d) := h.same

theorem txc (h : Aside R s₀ s) {n i : Nat} (hn : n < 4) (hi : i < 100) : Aside R s₀ (s.txc n i) :=
  either (h.inc (calm_eq_false.2 (by simp only [F.ETH_TXCNT_LO]; omega))) (h.inc (calm_eq_false.2 (by simp only [F.ETH_TXCNT_HI]; omega)))

theorem txcAll (h : Aside R s₀ s) {ports i : Nat} (hi : i < 100) : Aside R s₀ (s.txcAll ports i) :=
  h.foldOn fun _ _ hn h1 => .either (h1.txc (List.mem_range.1 hn) hi) h1

theorem pdSet (h : Aside R s₀ s) {t : Nat} {e : Telegram} {it : Item} {seq launch : Nat} : Aside R s₀ (s.pdSet t e it seq launch) := by
  unfold State.pdSet
  extract_lets u ports
  have hu : Aside R s₀ u := by
    unfold u
    split
    exacts [h.txcAll (by omega), h]
  exact hu.setDue

theorem ethRelease (h : Aside R s₀ s) {g : Nat} : Aside R s₀ (s.ethRelease g) := by
  refine fold (fun u t h1 => ?_) h
  split
  exacts [.either h1.pdSet h1, h1]

theorem setCan (h : Aside R s₀ s) {n : Nat} {v : Can} : Aside R s₀ (s.setCan n v) := h.same

/-- A register of a CAN controller beside the others. -/
theorem calm_can {n o : Nat} (hn : n < 6) (ho : 0xA0000 ≤ o ∧ o < 0xA1000) : Machine.calm (o + n * 0x1000) = false := calm_eq_false.2 (by omega)

theorem setBit (h : Aside R s₀ s) {f : Field} {b : Nat} (hf : Machine.calm f.off = false) : Aside R s₀ (s.setBit f b) := h.set hf
theorem clrBit (h : Aside R s₀ s) {f : Field} {b : Nat} (hf : Machine.calm f.off = false) : Aside R s₀ (s.clrBit f b) := either (h.set hf) h
theorem canFree (h : Aside R s₀ s) {n b : Nat} {free : Bool} : Aside R s₀ (s.canFree n b free) := h.setCan

theorem calm_txpend {n : Nat} (hn : n < 6) : Machine.calm (F.CAN_TXPEND_W n).off = false := calm_can hn (by omega)
theorem calm_txheld {n : Nat} (hn : n < 6) : Machine.calm (F.CAN_TXHELD_W n).off = false := calm_can hn (by omega)

theorem tbDrop (h : Aside R s₀ s) {n b : Nat} (hn : n < 6) : Aside R s₀ (s.tbDrop n b) :=
  ((h.clrBit (calm_txpend hn)).clrBit (calm_txheld hn)).canFree

theorem launchDrop (h : Aside R s₀ s) {c l : Nat} : Aside R s₀ (s.launchDrop c l) := raise (either h.inc h.inc) |>.report

theorem tbJudge (h : Aside R s₀ s) {n b : Nat} (hn : n < 6) : Aside R s₀ (s.tbJudge n b) := by
  unfold State.tbJudge
  extract_lets r
  exact .either h (.either (h.tbDrop hn).launchDrop h.canFree)

theorem tbPend (h : Aside R s₀ s) {n b : Nat} {launch : Option Nat} {chk stamp : Nat} (hn : n < 6) :
    Aside R s₀ (s.tbPend n b launch chk stamp) := by
  unfold State.tbPend
  extract_lets c u v
  have hv : Aside R s₀ v := setBit h.setCan (calm_txpend hn)
  exact .either (hv.setBit (calm_txheld hn)) (hv.tbJudge hn)

theorem canc (h : Aside R s₀ s) {n i : Nat} (hn : n < 6) (hi : i < 100) : Aside R s₀ (s.canc n i) :=
  either (h.inc (calm_eq_false.2 (by simp only [F.CAN_CNT_LO]; omega))) (h.inc (calm_eq_false.2 (by simp only [F.CAN_CNT_HI]; omega)))

theorem tbLoad (h : Aside R s₀ s) {n b : Nat} {it : Item} {launch : Option Nat} (hn : n < 6) : Aside R s₀ (s.tbLoad n b it launch) := by
  unfold State.tbLoad
  extract_lets u
  have hu : Aside R s₀ u := .either (h.canc hn (by omega)) h
  exact hu.wrBytes.tbPend hn

theorem tbRelease (h : Aside R s₀ s) {n b : Nat} {it : Item} {launch : Option Nat} (hn : n < 6) : Aside R s₀ (s.tbRelease n b it launch) :=
  either h.setCan (h.tbLoad hn)

theorem canRelease (h : Aside R s₀ s) {g : Nat} : Aside R s₀ (s.canRelease g) := by
  refine h.foldOn fun u n hn h1 => ?_
  have hn := List.mem_range.1 hn
  exact .either h1 (fold (fun _ _ h2 => .either (h2.tbRelease hn) h2) h1)

end Aside

end Sys2Proof.Machine
end

section
/-! SUPPORT. The outputs at the output instant (R22 step 7, R28, R229, R409). -/
namespace Sys2Proof.Machine
open Sys2Proof.Claims
set_option Elab.async false

/-! ### The output groups held in simplex -/

theorem State.holds_eq (s : State) {k : Nat} (h : k < 16) : s.holds k = (s.reg 0x50000).getLsbD k := by
  show (((s.reg 0x50000) >>> 0).setWidth 16).toNat.testBit k = _
  rw [BitVec.testBit_toNat]
  simp [h]

/-- A bit of a register that is set through a field of its own. -/
theorem getLsbD_fieldSet_one (r : Word) (k j : Nat) (hk : k < 32) (hj : j < 32) :
    (fieldSet r k 1 1).getLsbD j = (r.getLsbD j || decide (j = k)) := by
  unfold fieldSet
  rw [BitVec.getLsbD_or, BitVec.getLsbD_and, BitVec.getLsbD_not, getLsbD_fieldMask, BitVec.getLsbD_shiftLeft, BitVec.getLsbD_setWidth]
  by_cases h : j = k
  · subst h
    simp [hj]
  · have hkj : k ≤ j → ¬ j - k < 1 := by omega
    have hb : k ≤ j → (1#1 : BitVec 1).getLsbD (j - k) = false := fun hle => BitVec.getLsbD_of_ge _ _ (by have := hkj hle; omega)
    by_cases hle : k ≤ j
    · simp [h, hj, hkj hle, hb hle]
    · simp [h, hj, hle]

/-- A group of outputs is held from now on without expiry, if it was not. -/
def State.keepHeld (s : State) (k : Nat) : State :=
  if s.holds k then s else
  let s := s.setLease k { s.lease k with forever := true }
  let s := ((s.set { F.TVL_STAT_HELD with lo := k, w := 1 } 1).set (F.TVL_LSTAT_HOLDER k) s.pos).set (F.TVL_LSTAT_RELEASED k) 0
  (s.set (F.TVL_LSTAT_GUARDIAN k) 1).raise 214

theorem State.holdAll_eq (s : State) (g : Nat) : s.holdAll g = if !s.simplex then s else (s.ogroups g).foldl State.keepHeld s := rfl

namespace Aside
variable {R : Nat → Prop} {s₀ s : State}

/-- What follows the bit of HELD leaves it. -/
theorem guardian (h : Aside R s₀ s) {k p : Nat} (hk : k < 16) : Aside R s₀
    ((((s.set (F.TVL_LSTAT_HOLDER k) p).set (F.TVL_LSTAT_RELEASED k) 0).set (F.TVL_LSTAT_GUARDIAN k) 1).raise 214) :=
  (((h.set (f := F.TVL_LSTAT_HOLDER k) (calm_lstat hk)).set (f := F.TVL_LSTAT_RELEASED k) (calm_lstat hk)).set (f := F.TVL_LSTAT_GUARDIAN k)
    (calm_lstat hk)).raise

theorem keepHeld (hR : Quiet R) (h : Aside R s₀ s) {k : Nat} (hk : k < 16) : Aside R s₀ (s.keepHeld k) := by
  unfold State.keepHeld
  extract_lets _ u _ v
  have hu : Aside R s₀ u := h.setLease
  exact .either h (guardian (held hR hu) hk)

theorem holdAll (hR : Quiet R) (h : Aside R s₀ s) {g : Nat} : Aside R s₀ (s.holdAll g) :=
  either h (h.foldOn fun _ _ hk h1 => keepHeld hR h1 (mem_ogroups hk))

end Aside

/-- TVL_STAT as a register that is kept. -/
theorem held_calm : ∀ q, 0x50000 = q → calm q = true := by
  rintro q rfl
  rfl

theorem State.holds_of_reg {s t : State} (hr : t.reg 0x50000 = s.reg 0x50000) (k : Nat) : t.holds k = s.holds k := by
  show (fieldGet (t.reg 0x50000) 0 16).testBit k = (fieldGet (s.reg 0x50000) 0 16).testBit k
  rw [hr]

theorem State.holds_keepHeld (s : State) {k j : Nat} (hk : k < 16) (hj : j < 16) : (s.keepHeld k).holds j = (s.holds j || decide (j = k)) := by
  unfold State.keepHeld
  split
  next h =>
    by_cases e : j = k
    · rw [e, h]
      rfl
    · simp [e]
  next h =>
    extract_lets _ u _ v
    have ha : Aside (Eq 0x50000) (u.set { F.TVL_STAT_HELD with lo := k, w := 1 } 1) ((v.set (F.TVL_LSTAT_GUARDIAN k) 1).raise 214) :=
      (Aside.refl held_calm _).guardian hk
    have hr : (u.set { F.TVL_STAT_HELD with lo := k, w := 1 } 1).reg 0x50000 = fieldSet (s.reg 0x50000) k 1 1 := State.reg_setReg_same _ _ _
    rw [State.holds_of_reg (ha.reg _ rfl), State.holds_eq _ hj, hr, getLsbD_fieldSet_one _ _ _ (by omega) (by omega), s.holds_eq hj]

/-- Every group of a list is held after it has been gone through. -/
theorem State.holds_foldl_keepHeld (l : List Nat) (hl : ∀ k ∈ l, k < 16) (s : State) {j : Nat} (hj : j < 16) :
    (l.foldl State.keepHeld s).holds j = (s.holds j || decide (j ∈ l)) := by
  induction l generalizing s with
  | nil => simp
  | cons k l ih =>
    rw [List.foldl_cons, ih (fun k hk => hl k (by simp [hk])), s.holds_keepHeld (hl k (by simp)) hj]
    simp [Bool.or_assoc]

theorem State.holds_holdAll (s : State) {g k : Nat} (hs : s.simplex = true) (hk : k ∈ s.ogroups g) : (s.holdAll g).holds k = true := by
  rw [s.holdAll_eq, hs]
  simp only [Bool.not_true, Bool.false_eq_true, if_false]
  rw [State.holds_foldl_keepHeld _ (fun _ h => mem_ogroups h) s (mem_ogroups hk)]
  simp [hk]

/-! ### The outputs -/

/-- An output's command is toggled. -/
def State.toggle (s : State) (m : Nat) : State := s.set (F.SIO_DOSTAT_CMD m) (1 - s.get (F.SIO_DOSTAT_CMD m))

theorem State.flag_toggle_same (s : State) (m : Nat) : (s.toggle m).flag (F.SIO_DOSTAT_CMD m) = !s.flag (F.SIO_DOSTAT_CMD m) := by
  have hlt : s.get (F.SIO_DOSTAT_CMD m) < 2 ^ 1 := fieldGet_lt _ _ _
  have hw : (F.SIO_DOSTAT_CMD m).w = 1 := rfl
  rw [State.flag, State.toggle, s.get_set_same _ _ (Nat.le_of_ble_eq_true rfl), hw, State.flag]
  generalize s.get (F.SIO_DOSTAT_CMD m) = x at hlt
  interval_cases x <;> rfl

theorem State.flag_toggle_other (s : State) {m n : Nat} (h : n ≠ m) : (s.toggle m).flag (F.SIO_DOSTAT_CMD n) = s.flag (F.SIO_DOSTAT_CMD n) := by
  have ho : (F.SIO_DOSTAT_CMD n).off ≠ (F.SIO_DOSTAT_CMD m).off := by
    simp only [F.SIO_DOSTAT_CMD]
    omega
  rw [State.flag, State.toggle, s.get_set_other _ _ _ ho, State.flag]

theorem State.flag_foldl_toggle (l : List Nat) (hl : l.Nodup) (s : State) (n : Nat) :
    (l.foldl State.toggle s).flag (F.SIO_DOSTAT_CMD n) = (s.flag (F.SIO_DOSTAT_CMD n) != decide (n ∈ l)) := by
  induction l generalizing s with
  | nil => simp
  | cons m l ih =>
    obtain ⟨hm, hl⟩ := List.nodup_cons.1 hl
    rw [List.foldl_cons, ih hl]
    by_cases e : n = m
    · subst e
      rw [s.flag_toggle_same]
      simp [hm]
    · rw [s.flag_toggle_other e]
      simp [e]

namespace Aside
variable {R : Nat → Prop} {s₀ s : State}

theorem dropTest (hR : ∀ q, R q → q < 0xC0220 ∨ 0xC0240 ≤ q) (h : Aside R s₀ s) {m : Nat} (hm : m < 8) : Aside R s₀ (s.dropTest m) :=
  either (doView hR h.setDout hm) h

theorem doStagger (h : Aside R s₀ s) {sel : List Nat} : Aside R s₀ (s.doStagger sel) :=
  foldl_keeps (fun c : State × Nat => Aside R s₀ c.1) _ (fun _ _ h1 => h1.setDout) _ _ h

theorem toggle (hR : ∀ q, R q → q < 0xC0220 ∨ 0xC0240 ≤ q) (h : Aside R s₀ s) {m : Nat} (hm : m < 8) : Aside R s₀ (s.toggle m) := by
  refine h.put fun hr => ?_
  have := hR (0xC0220 + m * 0x4) hr
  omega

theorem doOutGo (hR : ∀ q, R q → q < 0xC0220 ∨ 0xC0240 ≤ q) (h : Aside R s₀ s) {g : Nat} {held : Nat → Bool} :
    Aside R s₀ (s.doOutGo g held) := by
  unfold State.doOutGo
  extract_lets d mine want changed u
  have hd : Aside R s₀ d := h.eachDo fun _ _ hm h1 => dropTest hR h1 hm
  have hu : Aside R s₀ u := hd.foldOn fun _ _ hm h1 => toggle hR h1 (List.mem_range.1 (List.mem_filter.1 hm).1)
  exact .either hu.doStagger h

end Aside

/-! ### The configuration of the outputs -/

/-- The registers that configure the outputs are as they were. -/
def SameConf (s t : State) : Prop := ∀ q, outConf q = true → t.reg q = s.reg q

theorem SameConf.get {s t : State} (h : SameConf s t) {f : Field} (hf : outConf f.off = true) : t.get f = s.get f := by
  rw [State.get, h _ hf, State.get]

theorem SameConf.flag {s t : State} (h : SameConf s t) {f : Field} (hf : outConf f.off = true) : t.flag f = s.flag f := by
  rw [State.flag, h.get hf, State.flag]

theorem SameConf.simplex {s t : State} (h : SameConf s t) : t.simplex = s.simplex := by
  have hv : t.get F.TVL_CFG_VCU = s.get F.TVL_CFG_VCU := h.get rfl
  unfold State.simplex State.duplex State.triplex
  rw [hv]

theorem outConf_ogrp {k : Nat} (h : k < 16) : outConf (0x50100 + k * 0x10) = true := by
  simp [outConf]
  omega

theorem outConf_docfg {m : Nat} (h : m < 8) : outConf (0xC0200 + m * 0x4) = true := by
  simp [outConf]
  omega

theorem SameConf.ogroups {s t : State} (h : SameConf s t) (g : Nat) : t.ogroups g = s.ogroups g := by
  unfold State.ogroups
  refine List.filter_congr fun k hk => ?_
  have hc := outConf_ogrp (List.mem_range.1 hk)
  rw [h.flag (f := F.TVL_OGRP_EN k) hc, h.get (f := F.TVL_OGRP_CGRP k) hc]

/-- The configuration of the outputs, as the registers that are kept. -/
def Confs (q : Nat) : Prop := outConf q = true

theorem quiet_confs : Quiet Confs := fun _ h => outConf_quiet h

theorem Aside.confs (s : State) : Aside Confs s s := .refl (fun _ hq => calm_of_outConf hq) s

theorem Aside.sameConf {s t : State} (h : Aside Confs s t) : SameConf s t := h.reg

/-- The register of an output's command, as the one that is kept. -/
theorem calm_command {m : Nat} (h : m < 8) : ∀ q, (F.SIO_DOSTAT_CMD m).off = q → calm q = true := by
  rintro q rfl
  exact calm_of_outState (Aside.outState_dostat h)

theorem State.flag_command {s t : State} {m : Nat} (h : Aside (Eq (F.SIO_DOSTAT_CMD m).off) s t) :
    t.flag (F.SIO_DOSTAT_CMD m) = s.flag (F.SIO_DOSTAT_CMD m) := by
  rw [State.flag, State.get, h.reg _ rfl, State.flag, State.get]

/-- An enabled output of a group whose output group is held takes its voted bit. -/
theorem State.command_doOutGo (s : State) (g m : Nat) (held : Nat → Bool) (hm : m < 8) (hf : s.sioFitted = true) (hen : s.doEn m = true)
    (hk : s.get (F.SIO_DOCFG_OGRP m) < 16) (hg : s.get (F.TVL_OGRP_CGRP (s.get (F.SIO_DOCFG_OGRP m))) = g)
    (hh : held (s.get (F.SIO_DOCFG_OGRP m)) = true) : (s.doOutGo g held).flag (F.SIO_DOSTAT_CMD m) =
      (tget byteD (s.grp g).voted (s.get (F.SIO_DOCFG_BITADDR m) / 8)).getLsbD (s.get (F.SIO_DOCFG_BITADDR m) % 8) := by
  unfold State.doOutGo
  rw [if_pos hf]
  extract_lets d mine want changed u
  have hd : Aside Confs s d := (Aside.confs s).eachDo fun _ _ hm h1 => Aside.dropTest quiet_confs.drives h1 hm
  obtain ⟨-, -, -, hvoted⟩ := hd.grp g
  have hdo := outConf_docfg hm
  have hog : d.get (F.SIO_DOCFG_OGRP m) = s.get (F.SIO_DOCFG_OGRP m) := hd.sameConf.get hdo
  have hba : d.get (F.SIO_DOCFG_BITADDR m) = s.get (F.SIO_DOCFG_BITADDR m) := hd.sameConf.get hdo
  have hmine : mine m = true := by
    have h1 : d.doEn m = true := (hd.sameConf.flag hdo).trans hen
    have h2 : d.get (F.TVL_OGRP_CGRP (s.get (F.SIO_DOCFG_OGRP m))) = g := (hd.sameConf.get (outConf_ogrp hk)).trans hg
    unfold mine
    rw [hog, h1, h2, hh]
    simp
  have hwant : want m = (tget byteD (s.grp g).voted (s.get (F.SIO_DOCFG_BITADDR m) / 8)).getLsbD (s.get (F.SIO_DOCFG_BITADDR m) % 8) := by
    unfold want
    rw [hvoted, hba]
  have hst : (u.doStagger changed).flag (F.SIO_DOSTAT_CMD m) = u.flag (F.SIO_DOSTAT_CMD m) :=
    State.flag_command (Aside.doStagger (.refl (calm_command hm) u))
  have hu : u = changed.foldl State.toggle d := rfl
  have hmem : decide (m ∈ changed) = (want m != d.flag (F.SIO_DOSTAT_CMD m)) := by
    rw [Bool.eq_iff_iff, decide_eq_true_iff]
    simp only [changed, List.mem_filter, List.mem_range, hm, hmine, Bool.true_and, true_and]
  rw [hst, hu, State.flag_foldl_toggle _ (List.nodup_range.filter _), hmem, ← hwant]
  cases want m <;> cases d.flag (F.SIO_DOSTAT_CMD m) <;> rfl

/-! ### The bound messages -/

/-- The completion of bound messages leaves TVL_STAT. -/
theorem State.reg_ixBound (s : State) (g : Nat) : (s.ixBound g).reg 0x50000 = s.reg 0x50000 := by
  have hset (u : State) (f : Field) (v : Nat) (h : 0x90000 ≤ f.off) : (u.set f v).reg 0x50000 = u.reg 0x50000 :=
    u.reg_set_other f _ v (by omega)
  refine foldl_keeps (fun u : State => u.reg 0x50000 = s.reg 0x50000) _ (fun u c hu => ?_) _ s rfl
  split
  · split
    · extract_lets gs data m v
      rw [hset _ _ _ (by simp only [F.IXS_CSTAT_STATE]; omega), hset _ _ _ (by simp only [F.IXS_CSSN_W]; omega)]
      exact hu
    · exact hu
  · exact hu

theorem Complete.ixBound {c : Clk} {g : Nat} {s : State} (h : Complete c g s) : Complete c g (s.ixBound g) := by
  refine foldl_keeps (Complete c g) _ (fun u k hu => ?_) _ s h
  split
  · split
    · extract_lets gs data m v
      have hv : Complete c g v := hu.setVoted _
      exact hv.aside (((Aside.counts v).out (f := F.IXS_CSSN_W k) (taskCount_eq_false.2 (by simp only [F.IXS_CSSN_W]; omega))).out
        (taskCount_eq_false.2 (by simp only [F.IXS_CSTAT_STATE]; omega)))
    · exact hu
  · exact hu

theorem State.ixBound_none (s : State) (g : Nat) (h : s.connIds = []) : s.ixBound g = s := by
  rw [State.ixBound, h]
  rfl

/-! ### The output instant -/

/-- The leases that fall due at the output instant of a group have taken effect. -/
def State.leasesDue (s : State) (g : Nat) : State := (s.ogroups g).foldl (fun (s : State) k => s.leaseDue s.clk.t k) s.tlFlush

/-- The groups' outputs have been driven. -/
def State.driven (s : State) (g : Nat) : State := s.doOutGo g fun k => s.holds k

/-- The voted values have been released to the buses. -/
def State.released (s : State) (g : Nat) : State := ((s.ghRelease g).ethRelease g).canRelease g

theorem outGo_eq (g : Nat) (d : Group) (s : State) (hg : s.group? g = some d) (hc : s.cycling = true) (ho : (s.grp g).on = true)
    (hv : (s.grp g).voteDone = true) (hr : s.inRun = true) :
    outGo g s = (((((s.advance (s.outInstAt g)).leasesDue g).holdAll g).ixBound g).driven g).released g := by
  unfold outGo
  rw [hg]
  simp only [hc, ho, hv, hr, Bool.not_true, Bool.or_self, Bool.false_eq_true, if_false]
  rfl

theorem Aside.leasesDue {R : Nat → Prop} {s₀ s : State} (hR : Quiet R) (h : Aside R s₀ s) {g : Nat} : Aside R s₀ (s.leasesDue g) :=
  h.tlFlush.foldOn fun _ _ hk h1 => leaseDue hR h1 (mem_ogroups hk)

theorem Aside.released {R : Nat → Prop} {s₀ s : State} (h : Aside R s₀ s) {g : Nat} : Aside R s₀ (s.released g) :=
  h.ghRelease.ethRelease.canRelease

theorem State.tvl_tlFlush_leases (s : State) : s.tlFlush.tvl.leases = s.tvl.leases := by
  have hout (u : State) (typ : Nat) (b : List Byte) : (u.tlOut typ b).tvl = u.tvl :=
    foldl_keeps (fun v : State => v.tvl = u.tvl) _ (fun v p hv => by split <;> exact hv) _ u rfl
  unfold State.tlFlush
  split
  · rfl
  · extract_lets l
    exact foldl_keeps (fun v : State => v.tvl.leases = s.tvl.leases) _ (fun v c hv => by rw [hout]; exact hv) _ _ rfl

/-- With no lease running, nothing falls due. -/
theorem State.leasesDue_none (s : State) (g : Nat) (h : ∀ k, (s.lease k).hand = none ∧ (s.lease k).claim = none ∧ (s.lease k).mine = none) :
    s.leasesDue g = s.tlFlush := by
  have hl (k : Nat) : s.tlFlush.lease k = s.lease k := by rw [State.lease, s.tvl_tlFlush_leases, State.lease]
  refine foldl_keeps (fun u => u = s.tlFlush) _ (fun u k hu => ?_) _ _ rfl
  obtain ⟨hh, hc, hm⟩ := h k
  rw [hu, State.leaseDue]
  simp only [hl, hh, hc, hm]

theorem State.sameConf_advance (s : State) (t : Nat) : SameConf s (s.advance t) := fun q hq => s.reg_advance_conf t q hq

theorem SameConf.trans {s t u : State} (h : SameConf s t) (k : SameConf t u) : SameConf s u := fun q hq => (k q hq).trans (h q hq)

/-- The moving of the clock leaves the groups held. -/
theorem State.holds_advance (s : State) (t k : Nat) : (s.advance t).holds k = s.holds k :=
  State.holds_of_reg (s.reg_advance t _ rfl (by omega)) k

/-- In simplex every group of outputs is held after its output instant. -/
theorem heldInSimplex (g : Nat) (s : State) (hs : s.simplex = true) {k : Nat} (hk : k ∈ s.ogroups g) :
    ((((((s.advance (s.outInstAt g)).leasesDue g).holdAll g).ixBound g).driven g).released g).holds k = true := by
  set u := (s.advance (s.outInstAt g)).leasesDue g with hu
  have hconf : SameConf s u := (s.sameConf_advance _).trans (Aside.leasesDue quiet_confs (.confs _)).sameConf
  have hh : (u.holdAll g).holds k = true := u.holds_holdAll (hconf.simplex.trans hs) (hconf.ogroups g ▸ hk)
  have ha : Aside (Eq 0x50000) ((u.holdAll g).ixBound g) ((((u.holdAll g).ixBound g).driven g).released g) :=
    (Aside.doOutGo (fun q hq => by omega) (.refl held_calm _)).released
  rw [State.holds_of_reg (ha.reg _ rfl), State.holds_of_reg (State.reg_ixBound _ g), hh]

/-- The group's vote stays complete, and the clock stands at the output instant. -/
theorem complete_outGo (g : Nat) (s : State) (hv : (s.grp g).voteDone = true) : Complete (s.advance (s.outInstAt g)).clk g
    ((((((s.advance (s.outInstAt g)).leasesDue g).holdAll g).ixBound g).driven g).released g) := by
  have h0 : Complete (s.advance (s.outInstAt g)).clk g (s.advance (s.outInstAt g)) := ⟨rfl, by rw [s.grp_advance, hv]⟩
  have h1 := (h0.aside (Aside.holdAll quiet_counts (Aside.leasesDue quiet_counts (.counts _) (g := g)) (g := g))).ixBound
  exact h1.aside (Aside.doOutGo quiet_counts.drives (.counts _)).released

/-- With no lease running and no connection, an enabled output whose group is held, or any in simplex, takes its voted bit. -/
theorem commandedVoted (g : Nat) (s : State) (hl : ∀ k, (s.lease k).hand = none ∧ (s.lease k).claim = none ∧ (s.lease k).mine = none)
    (hx : s.connIds = []) (hf : s.sioFitted = true) {m : Nat} (hm : m < 8) (hen : s.doEn m = true)
    (hok : s.flag (F.TVL_OGRP_EN (s.get (F.SIO_DOCFG_OGRP m))) = true) (hg : s.get (F.TVL_OGRP_CGRP (s.get (F.SIO_DOCFG_OGRP m))) = g)
    (hh : s.simplex = true ∨ s.holds (s.get (F.SIO_DOCFG_OGRP m)) = true) :
    ((((((s.advance (s.outInstAt g)).leasesDue g).holdAll g).ixBound g).driven g).released g).flag (F.SIO_DOSTAT_CMD m) =
      (tget byteD (s.grp g).voted (s.get (F.SIO_DOCFG_BITADDR m) / 8)).getLsbD (s.get (F.SIO_DOCFG_BITADDR m) % 8) := by
  have hk16 : s.get (F.SIO_DOCFG_OGRP m) < 16 := fieldGet_lt _ _ _
  have hle (k : Nat) : (s.advance (s.outInstAt g)).lease k = s.lease k := by
    obtain ⟨_, _, _, _, _, e⟩ := (s.advance_moves (s.outInstAt g)).1
    rw [e]
    rfl
  have hlt : (s.advance (s.outInstAt g)).leasesDue g = (s.advance (s.outInstAt g)).tlFlush :=
    State.leasesDue_none _ g (fun k => by rw [hle]; exact hl k)
  rw [hlt]
  set a := s.advance (s.outInstAt g) with ha
  obtain ⟨hid, hcfg⟩ : a.ident = s.ident ∧ a.cfg = s.cfg := by
    obtain ⟨_, _, _, _, _, e⟩ := (s.advance_moves (s.outInstAt g)).1
    rw [ha, e]
    exact ⟨rfl, rfl⟩
  have hu : Aside Confs a (a.tlFlush.holdAll g) := Aside.holdAll quiet_confs (Aside.confs a).tlFlush
  have hconf : SameConf s (a.tlFlush.holdAll g) := (s.sameConf_advance _).trans hu.sameConf
  have hflush : Aside (Eq 0x50000) a a.tlFlush := (Aside.refl held_calm a).tlFlush
  have hheld : (a.tlFlush.holdAll g).holds (s.get (F.SIO_DOCFG_OGRP m)) = true := by
    have hs : a.tlFlush.simplex = s.simplex := ((s.sameConf_advance _).trans (Aside.confs a).tlFlush.sameConf).simplex
    have ho : a.tlFlush.ogroups g = s.ogroups g := ((s.sameConf_advance _).trans (Aside.confs a).tlFlush.sameConf).ogroups g
    by_cases h1 : s.simplex = true
    · refine State.holds_holdAll _ (hs.trans h1) ?_
      rw [ho, State.ogroups, List.mem_filter]
      exact ⟨List.mem_range.2 hk16, by simp [hok, hg]⟩
    · rw [State.holdAll_eq, hs, if_pos (by simpa using h1), State.holds_of_reg (hflush.reg _ rfl), ha, s.holds_advance]
      exact hh.resolve_left h1
  set u := a.tlFlush.holdAll g with hu'
  have hix : u.ixBound g = u := u.ixBound_none g (by rw [State.connIds, hu.cfg, hcfg]; exact hx)
  have hdo := outConf_docfg hm
  have hog : u.get (F.SIO_DOCFG_OGRP m) = s.get (F.SIO_DOCFG_OGRP m) := hconf.get hdo
  have hba : u.get (F.SIO_DOCFG_BITADDR m) = s.get (F.SIO_DOCFG_BITADDR m) := hconf.get hdo
  obtain ⟨-, -, -, hvoted⟩ := hu.grp g
  have hcmd := u.command_doOutGo g m (fun k => u.holds k) hm (by rw [State.sioFitted, State.cap, hu.ident, hid]; exact hf)
    ((hconf.flag hdo).trans hen) (hog.symm ▸ hk16) (by rw [hog, hconf.get (outConf_ogrp hk16), hg]) (by rw [hog, hheld])
  rw [hba, hvoted, ha, s.grp_advance] at hcmd
  rw [hix, State.flag_command ((Aside.refl (calm_command hm) (u.driven g)).released (g := g))]
  exact hcmd

theorem outputInstant (g : Fin 4) (d : Group) (s : State) (hg : s.group? g = some d) (hc : s.cycling = true) (ho : (s.grp g).on = true)
    (hv : (s.grp g).voteDone = true) (hr : s.inRun = true) :
    ∃ t, exec (.outGo g) s = .next t ∧ (s.simplex = true → ∀ k, k ∈ s.ogroups g → t.holds k = true) ∧
      ((∀ k, (s.lease k).hand = none ∧ (s.lease k).claim = none ∧ (s.lease k).mine = none) →
        (t.grp g).voteDone = true ∧ t.clk.t = max s.clk.t (s.outInstAt g)) ∧
      ((∀ k, (s.lease k).hand = none ∧ (s.lease k).claim = none ∧ (s.lease k).mine = none) → s.connIds = [] → s.sioFitted = true →
        ∀ m, m < 8 → s.doEn m = true → s.flag (F.TVL_OGRP_EN (s.get (F.SIO_DOCFG_OGRP m))) = true →
        s.get (F.TVL_OGRP_CGRP (s.get (F.SIO_DOCFG_OGRP m))) = g →
        (s.simplex = true ∨ s.holds (s.get (F.SIO_DOCFG_OGRP m)) = true) →
        t.flag (F.SIO_DOSTAT_CMD m) =
          (tget byteD (s.grp g).voted (s.get (F.SIO_DOCFG_BITADDR m) / 8)).getLsbD (s.get (F.SIO_DOCFG_BITADDR m) % 8)) := by
  refine ⟨outGo g s, rfl, ?_⟩
  rw [outGo_eq g d s hg hc ho hv hr]
  obtain ⟨hclk, hdone⟩ := complete_outGo g s hv
  exact ⟨fun hs k hk => heldInSimplex g s hs hk, fun _ => ⟨hdone, by rw [hclk, (s.advance_moves _).2]⟩,
    fun hl hx hf m hm hen hok hcg hh => commandedVoted g s hl hx hf hm hen hok hcg hh⟩

/-- The claims on the steps of a group's outputs. -/
theorem outputSteps : OutputSteps :=
  ⟨fun g d s u => outputClose g d s u, fun g seen d s => voteEnds g seen d s, fun g d s => outputInstant g d s⟩

/-- Settles O25. -/
theorem outputsAndPresence : Obligations.OutputsAndPresence := ⟨outputSteps, presenceCounting⟩

end Sys2Proof.Machine
end

section
/-! SUPPORT. What the retiring instructions of machine mode do to a pair: MRET, WFI, the fences; and the halts (R49, R58, R71, R106, R107). -/
namespace Sys2Proof.Machine
open Sys2Proof.Claims
set_option Elab.async false

/-! ### Two changes of a pair -/

theorem terase_of_not_mem {α : Type} (t : Tbl α) (k : Nat) (h : ∀ c ∈ t, c.1 ≠ k) : terase t k = t := by
  induction t with
  | nil => rfl
  | cons c t ih =>
    obtain ⟨a, v⟩ := c
    rw [terase, if_neg (h (a, v) (by simp)), ih fun c hc => h c (by simp [hc])]

theorem terase_tinsert {α : Type} (t : Tbl α) (k : Nat) (v : α) (h : ∀ c ∈ t, c.1 ≠ k) : terase (tinsert t k v) k = t := by
  induction t with
  | nil => simp [tinsert, terase]
  | cons c t ih =>
    obtain ⟨a, w⟩ := c
    have ha : a ≠ k := h (a, w) (by simp)
    have ht : ∀ c ∈ t, c.1 ≠ k := fun c hc => h c (by simp [hc])
    by_cases hk : k < a
    · simp [tinsert, terase, hk, ha, terase_of_not_mem t k ht]
    · simp [tinsert, terase, hk, ha, ih ht]

/-- Of two writes of one key the second alone is left. -/
theorem tput_tput {α : Type} [DecidableEq α] (d : Nat → α) (t : Tbl α) (k : Nat) (v w : α) : tput d (tput d t k v) k w = tput d t k w := by
  have h : terase (tput d t k v) k = terase t k := by
    unfold tput
    split
    · exact terase_of_not_mem _ k (terase_not_mem t k)
    · exact terase_tinsert _ k v (terase_not_mem t k)
  rw [tput, h, ← tput]

theorem State.modPair_modPair (s : State) (p : Nat) (f g : Pair → Pair) : (s.modPair p f).modPair p g = s.modPair p fun q => g (f q) := by
  rw [State.modPair, s.pair_modPair_same]
  simp only [State.modPair, State.setPair, tput_tput]

/-! ### The way of an instruction to its meaning -/

/-- An instruction that issues has its effect on the state in which the activation has begun. -/
theorem State.asInsn_issues {s : State} {p : Nat} (h : Issues s p) (f : State → State) : s.asInsn p f = f (s.execBegin p) := by
  obtain ⟨he, ht⟩ := h
  simp [State.asInsn, he, ht]

theorem State.asInsn_machine {s : State} {p : Fin 4} (h : Issues s p) (hm : (s.pair p).umode = false) (f : State → State) :
    s.asInsn p f = f s := by
  rw [State.asInsn_issues h, s.execBegin_machine p hm]

/-- At a trigger's address every instruction halts the pair (R71). -/
theorem State.asInsn_trigger {s : State} {p : Nat} (he : s.executes p = true) (ht : s.trigHit p = true) (f : State → State) :
    s.asInsn p f = s.haltPair p := by
  simp [State.asInsn, he, ht]

/-! ### Retiring -/

/-- An instruction that retires and changes, besides, neither registers nor banks. -/
theorem State.retires_modPair (s : State) (p pc : Nat) (f : Pair → Pair)
    (hf : ∀ q : Pair, (f q).banks = q.banks ∧ (f q).cur = q.cur ∧ (f q).lastPc = q.lastPc ∧ (f q).minstret = q.minstret) :
    Retired s (s.modPair p fun q => f (q.retireTo pc)) p pc ∧ SameRegisters s (s.modPair p fun q => f (q.retireTo pc)) p ∧
      PairsBut s (s.modPair p fun q => f (q.retireTo pc)) p := by
  obtain ⟨hb, hc, hl, hr⟩ := hf ((s.pair p).retireTo pc)
  have hbank (b : Nat) : (f ((s.pair p).retireTo pc)).bank b = ((s.pair p).retireTo pc).bank b := by rw [Pair.bank, hb, Pair.bank]
  have hcur : (f ((s.pair p).retireTo pc)).curBank = { (s.pair p).curBank with pc := pc % 2 ^ 64 } := by
    rw [Pair.curBank, hc, hbank, ← Pair.curBank_retireTo, Pair.curBank]
  refine ⟨?_, ?_, fun q hq => s.pair_modPair_other p q _ hq⟩
  · rw [Retired, s.pair_modPair_same, hl, hr, Pair.pc, hcur]
    exact ⟨rfl, rfl, rfl⟩
  · rw [SameRegisters, s.pair_modPair_same, hc, hcur]
    refine ⟨fun r => by rw [Pair.x, hcur, Pair.x], rfl, rfl, rfl, fun b hne => ?_⟩
    rw [hbank, Pair.bank_retireTo_other _ _ _ hne]

/-! ### A stopped task's context (R106) -/

/-- The taking of a stopped task's context touches the executive's state alone, and nothing where none is due. -/
theorem State.takeSave_eq (s : State) (p pc : Nat) :
    s.takeSave p pc = { s with hx := (s.takeSave p pc).hx } ∧ ((s.unit p).saveDue = none → s.takeSave p pc = s) ∧
      (s.takeSave p pc).taskOn p = s.taskOn p ∧
      (∀ n, (s.unit p).saveDue = some n → ((s.takeSave p pc).unit p).saveDue = none ∧ ((s.takeSave p pc).task n).ctx.pc = pc) := by
  unfold State.takeSave
  cases h : (s.unit p).saveDue with
  | none => exact ⟨rfl, fun _ => rfl, rfl, nofun⟩
  | some n =>
    refine ⟨rfl, nofun, ?_, fun m hm => ?_⟩
    · simp only [State.taskOn, State.unit_setUnit_same]
    · cases hm
      rw [State.unit_setUnit_same, State.task_setUnit, State.task_setTask_same]
      exact ⟨rfl, rfl⟩

/-! ### MRET and WFI -/

/-- The status that MRET restores (R106). -/
def Pair.popped (q : Pair) : Pair := { q with mstMie := q.mstMpie, mstMpie := true, mstMpp := false }

/-- The pair that has stopped issue at WFI, and the context of a task stopped meanwhile. -/
def State.waits (s : State) (p : Nat) : State :=
  (s.modPair p fun q => { q.retireTo ((s.pair p).pc + 4) with wfi := true }).takeSave p (s.pair p).mepc

theorem exec_mret_machine (s : State) (p : Fin 4) (hi : Issues s p) (hm : (s.pair p).umode = false) :
    exec (.mret p) s = .next (s.mretGo p) := by
  show Host.Outcome.next (s.asInsn p (mret p)) = _
  rw [State.asInsn_machine hi hm, mret]
  simp [hi.1, hm]

theorem exec_wfi_machine (s : State) (p : Fin 4) (hi : Issues s p) (hm : (s.pair p).umode = false) :
    exec (.wfi p) s = .next (if (s.taskOn p).isSome then s.waits p
      else if s.get (F.HX_IDLE_ADDR p) = 0 ∨ (s.pair p).parkDue then ((s.waits p).toIdle p).settle p else (s.waits p).settle p) := by
  show Host.Outcome.next (s.asInsn p (wfi p)) = _
  rw [State.asInsn_machine hi hm, wfi]
  obtain ⟨heq, -, hon, -⟩ := State.takeSave_eq (s.modPair p fun q => { q.retireTo ((s.pair p).pc + 4) with wfi := true }) p (s.pair p).mepc
  have hget : (s.waits p).get (F.HX_IDLE_ADDR p) = s.get (F.HX_IDLE_ADDR p) := by rw [State.waits, heq]; rfl
  have hon' : (s.waits p).taskOn p = s.taskOn p := hon
  simp only [hi.1, hm, Bool.not_true, Bool.false_eq_true, if_false]
  rw [← hget, ← hon']
  rfl

/-- MRET returns to the program counter and the status that were saved. -/
theorem mretReturns (p : Fin 4) (s : State) (hi : Issues s p) (hm : (s.pair p).umode = false) (hp : (s.pair p).hwPark = false)
    (hmpp : (s.pair p).mstMpp = true) :
    ∃ t, exec (.mret p) s = .next t ∧ Retired s t p (s.pair p).mepc ∧
      (t.pair p).mstMie = (s.pair p).mstMpie ∧ (t.pair p).mstMpie = true ∧ (t.pair p).mstMpp = false ∧ (t.pair p).umode = false ∧
      SameRegisters s t p ∧ PairsBut s t p ∧ t = { s with pairs := t.pairs } := by
  obtain ⟨hret, hsame, hbut⟩ := s.retires_modPair p (s.pair p).mepc Pair.popped fun q => ⟨rfl, rfl, rfl, rfl⟩
  refine ⟨s.modPair p fun q => (q.retireTo (s.pair p).mepc).popped, ?_, hret, ?_, ?_, ?_, ?_, hsame, hbut, rfl⟩
  · rw [exec_mret_machine s p hi hm, State.mretGo]
    simp [hp, hmpp, State.modPair, Pair.popped]
  all_goals rw [s.pair_modPair_same]
  exacts [rfl, rfl, rfl, hm]

theorem mretLeaves (p : Fin 4) (s : State) (hi : Issues s p) (hm : (s.pair p).umode = false) (hp : (s.pair p).hwPark = false)
    (hmpp : (s.pair p).mstMpp = false) :
    ∃ u : State, Retired s u p (s.pair p).mepc ∧
      (u.pair p).mstMie = (s.pair p).mstMpie ∧ (u.pair p).mstMpie = true ∧ (u.pair p).mstMpp = false ∧ (u.pair p).umode = true ∧
      SameRegisters s u p ∧ PairsBut s u p ∧ u = { s with pairs := u.pairs, hx := u.hx } ∧ ((s.unit p).saveDue = none → u.hx = s.hx) ∧
      (∀ n, (s.unit p).saveDue = some n → (u.unit p).saveDue = none ∧ (u.task n).ctx.pc = (s.pair p).mepc) ∧
      ((s.taskOn p).isSome = true → exec (.mret p) s = .next u) ∧
      (s.taskOn p = none → exec (.mret p) s = .next (u.settle p)) := by
  obtain ⟨hret, hsame, hbut⟩ := s.retires_modPair p (s.pair p).mepc (fun q => { q.popped with umode := true }) fun q => ⟨rfl, rfl, rfl, rfl⟩
  set v := s.modPair p fun q => { (q.retireTo (s.pair p).mepc).popped with umode := true } with hv
  have hpair : v.pair p = { ((s.pair p).retireTo (s.pair p).mepc).popped with umode := true } := s.pair_modPair_same p _
  obtain ⟨heq, hnone, hon, hsome⟩ := v.takeSave_eq p (s.pair p).mepc
  set u := v.takeSave p (s.pair p).mepc with hu
  have hup (q : Nat) : u.pair q = v.pair q := by rw [heq]; rfl
  have hexec : exec (.mret p) s = .next (if (u.taskOn p).isSome then u else u.settle p) := by
    rw [exec_mret_machine s p hi hm, State.mretGo]
    simp only [hp, hmpp, Bool.false_eq_true, if_false]
    rfl
  rw [hon] at hexec
  refine ⟨u, ?_, ?_, ?_, ?_, ?_, ?_, fun q hq => (hup q).trans (hbut q hq), ?_, fun h => (congrArg State.hx (hnone h)).trans rfl, hsome,
    fun h => ?_, fun h => ?_⟩
  · rw [Retired, hup]; exact hret
  · rw [hup, hpair]; rfl
  · rw [hup, hpair]; rfl
  · rw [hup, hpair]; rfl
  · rw [hup, hpair]
  · rw [SameRegisters, hup]; exact hsame
  · rw [heq]; rfl
  · rw [hexec]; exact congrArg _ (if_pos h)
  · rw [hexec]; exact congrArg _ (if_neg (by rw [show v.taskOn p = s.taskOn p from rfl, h]; exact Bool.false_ne_true))

theorem wfiWaits (p : Fin 4) (s : State) (hi : Issues s p) (hm : (s.pair p).umode = false) :
    ∃ u : State, Retired s u p ((s.pair p).pc + 4) ∧
      (u.pair p).wfi = true ∧ (u.pair p).umode = false ∧ (u.pair p).mstMie = (s.pair p).mstMie ∧
      SameRegisters s u p ∧ PairsBut s u p ∧ u = { s with pairs := u.pairs, hx := u.hx } ∧ ((s.unit p).saveDue = none → u.hx = s.hx) ∧
      ((s.taskOn p).isSome = true → exec (.wfi p) s = .next u) ∧
      (s.taskOn p = none → s.get (F.HX_IDLE_ADDR p) ≠ 0 → (s.pair p).parkDue = false → exec (.wfi p) s = .next (u.settle p)) ∧
      (s.taskOn p = none → (s.get (F.HX_IDLE_ADDR p) = 0 ∨ (s.pair p).parkDue = true) →
        exec (.wfi p) s = .next ((u.toIdle p).settle p)) := by
  obtain ⟨hret, hsame, hbut⟩ := s.retires_modPair p ((s.pair p).pc + 4) (fun q => { q with wfi := true }) fun q => ⟨rfl, rfl, rfl, rfl⟩
  obtain ⟨heq, hnone, -, -⟩ := State.takeSave_eq (s.modPair p fun q => { q.retireTo ((s.pair p).pc + 4) with wfi := true }) p (s.pair p).mepc
  have hexec := exec_wfi_machine s p hi hm
  have hup (q : Nat) : (s.waits p).pair q = (s.modPair p fun q => { q.retireTo ((s.pair p).pc + 4) with wfi := true }).pair q := by
    rw [State.waits, heq]; rfl
  refine ⟨s.waits p, ?_, ?_, ?_, ?_, ?_, fun q hq => (hup q).trans (hbut q hq), ?_, fun h => (congrArg State.hx (hnone h)).trans rfl, fun h => ?_,
    fun h h0 h1 => ?_, fun h h0 => ?_⟩
  · rw [Retired, hup]; exact hret
  · rw [hup, s.pair_modPair_same]
  · rw [hup, s.pair_modPair_same]; exact hm
  · rw [hup, s.pair_modPair_same]; rfl
  · rw [SameRegisters, hup]; exact hsame
  · rw [State.waits, heq]; rfl
  · rw [hexec, if_pos h]
  · rw [hexec, h]; simp [h0, h1]
  · rw [hexec, h]; simp [h0]

/-- The way to the idle entry or the hardware park (R107). -/
theorem toIdleParks (p : Fin 4) (s : State) : ((s.toIdle p).pair p).curValid = false ∧ ((s.toIdle p).pair p).umode = false ∧
    ((s.toIdle p).pair p).parkDue = false ∧
    (s.get (F.HX_IDLE_ADDR p) = 0 → ((s.toIdle p).pair p).hwPark = true ∧ ((s.toIdle p).pair p).wfi = true) ∧
    (s.get (F.HX_IDLE_ADDR p) ≠ 0 → ((s.toIdle p).pair p).hwPark = false ∧ ((s.toIdle p).pair p).wfi = false ∧
      ((s.toIdle p).pair p).pc = s.get (F.HX_IDLE_ADDR p) * 4) ∧
    SameRegisters s (s.toIdle p) p ∧ PairsBut s (s.toIdle p) p ∧ s.toIdle p = { s with pairs := (s.toIdle p).pairs } := by
  have hlt : s.get (F.HX_IDLE_ADDR p) < 2 ^ 30 := fieldGet_lt _ _ _
  have hbut : PairsBut s (s.toIdle p) p := fun q hq => s.pair_modPair_other p q _ hq
  generalize hga : s.get (F.HX_IDLE_ADDR p) = a at hlt
  by_cases ha : a = 0
  · have hp : (s.toIdle p).pair p = { s.pair p with
        curValid := false, umode := false, parkDue := false, resv := none, stall := none, fence := 0, hwPark := true, wfi := true } := by
      rw [State.toIdle, hga, s.pair_modPair_same, if_pos (by omega)]
    rw [SameRegisters, hp]
    exact ⟨rfl, rfl, rfl, fun _ => ⟨rfl, rfl⟩, fun h => absurd ha h, ⟨fun _ => rfl, rfl, rfl, rfl, fun _ _ => rfl⟩, hbut, rfl⟩
  · have hp : (s.toIdle p).pair p = Pair.setPc { s.pair p with
        curValid := false, umode := false, parkDue := false, resv := none, stall := none, fence := 0, hwPark := false, wfi := false,
        entryM := a * 4, entryU := 0 } (a * 4) := by
      rw [State.toIdle, hga, s.pair_modPair_same, if_neg (by omega)]
    rw [SameRegisters, hp]
    refine ⟨rfl, rfl, rfl, fun h => absurd h ha, fun _ => ⟨rfl, rfl, ?_⟩,
      ⟨fun _ => ?_, ?_, ?_, rfl, fun b hb => Pair.bank_setPc_other _ _ _ hb⟩, hbut, rfl⟩
    · rw [Pair.pc, Pair.curBank_setPc]
      exact Nat.mod_eq_of_lt (by omega)
    · rw [Pair.x, Pair.curBank_setPc]; rfl
    · rw [Pair.curBank_setPc]; rfl
    · rw [Pair.curBank_setPc]; rfl

theorem pairReturnAndWait : PairReturnAndWait :=
  ⟨fun p s hi hm hp => ⟨mretReturns p s hi hm hp, mretLeaves p s hi hm hp, wfiWaits p s hi hm⟩, toIdleParks⟩

/-! ### Halts -/

/-- A halt of an executing pair leaves it where it stands and freezes its window's timer (R68, R71). -/
theorem State.haltPair_spec (s : State) (p : Nat) (he : s.executes p = true) :
    (s.haltPair p).pair p = { s.pair p with halted := true } ∧ ((s.haltPair p).unit p).haltedAt = some s.clk.t ∧
      PairsBut s (s.haltPair p) p ∧ s.haltPair p = { s with pairs := (s.haltPair p).pairs, hx := (s.haltPair p).hx } := by
  have hf : s.pairFitted p = true := by
    simp only [State.executes, Bool.and_eq_true] at he
    tauto
  have hh : (s.pair p).halted = false := by
    have := (State.executes_running he).1
    simp only [Pair.idle, Bool.or_eq_false_iff] at this
    exact this.1.1
  obtain ⟨h, heq⟩ : ∃ h, s.haltPair p = (State.modPair { s with hx := h } p fun q => { q with halted := true }).setUnit p
      { State.unit { s with hx := h } p with haltedAt := some s.clk.t } := by
    unfold State.haltPair
    simp only [hf, hh, Bool.not_true, Bool.or_self, Bool.false_eq_true, if_false]
    cases s.taskOn p with
    | none => exact ⟨s.hx, rfl⟩
    | some n =>
      refine ⟨(s.execStop n).hx, ?_⟩
      have e := s.execStop_eq n
      generalize (s.execStop n).hx = h at e
      dsimp only
      rw [e]
  rw [heq]
  refine ⟨?_, ?_, fun q hq => ?_, rfl⟩
  · exact State.pair_modPair_same { s with hx := h } p fun q => { q with halted := true }
  · rw [State.unit_setUnit_same]
  · exact State.pair_modPair_other { s with hx := h } p q (fun q => { q with halted := true }) hq

theorem State.trigHit_of {s : State} {p k : Nat} (hs : s.sup.st = .service) (hk : k < 4)
    (ht : tget noneD (s.pair p).trig k = some (s.pair p).pc) : s.trigHit p = true := by
  simp only [State.trigHit, hs, beq_self_eq_true, Bool.true_and, List.any_eq_true, beq_iff_eq]
  exact ⟨k, by simp; omega, ht⟩

theorem pairHalts : PairHalts := by
  intro p s he hs
  obtain ⟨hpair, hunit, hbut, heq⟩ := s.haltPair_spec p he
  refine ⟨fun hm => ⟨s.haltPair p, ?_, hpair, hunit, hbut, heq⟩, fun k hk ht => ?_⟩
  · show Host.Outcome.next (s.asInsn p (ebreak p)) = _
    by_cases ht : s.trigHit p = true
    · rw [State.asInsn_trigger he ht]
    · rw [State.asInsn_machine ⟨he, by simpa using ht⟩ hm, ebreak]
      simp [he, hs, hm]
  · have hhit := State.trigHit_of hs hk ht
    have hgo : exec (.triggerHit p) s = .next (s.haltPair p) := by
      show Host.Outcome.next (triggerHit p s) = _
      rw [triggerHit, he, hhit]
      rfl
    refine ⟨⟨s.haltPair p, hgo, hpair, hunit, hbut, heq⟩, fun c hc => ?_⟩
    rw [hgo]
    obtain rfl | rfl | rfl | ⟨i, len4, reads, rfl⟩ := hc
    all_goals exact congrArg Host.Outcome.next (State.asInsn_trigger he hhit _)

/-! ### Fences -/

/-- A write of a bit of PLX_FENCE stalls the pair at the write (R58). -/
theorem State.fenced (s : State) (p : Fin 4) (m : Nat) (f : State → State) (hi : Issues s p) (hm : m % 16 ≠ 0)
    (hf : ∀ u : State, f u = if u.executes p then u.fenceWrite p m else u) :
    ∃ t, Host.Outcome.next (ρ := Refusal) (φ := Fault) (s.asInsn p f) = .next t ∧ t.pair p = { s.pair p with fence := m % 16 } ∧
      PairsBut s t p ∧ t = { s.execBegin p with pairs := t.pairs } := by
  refine ⟨(s.execBegin p).modPair p fun q => { q with fence := m % 16 }, ?_, ?_, fun q hq => ?_, rfl⟩
  · rw [State.asInsn_issues hi, hf, s.executes_execBegin, if_pos hi.1, State.fenceWrite, if_neg hm]
  · rw [State.pair_modPair_same, s.pair_execBegin]
  · rw [State.pair_modPair_other _ _ _ _ hq, s.pair_execBegin]

theorem pairFences : PairFences := by
  intro p s
  refine ⟨fun hi => ⟨s.fenced p 1 _ hi (by decide) fun _ => rfl, s.fenced p 2 _ hi (by decide) fun _ => rfl,
    s.fenced p 4 _ hi (by decide) fun _ => rfl, s.fenced p 8 _ hi (by decide) fun _ => rfl⟩, fun hne hidle hdone => ?_⟩
  obtain ⟨hret, hsame, hbut⟩ := s.retires_modPair p ((s.pair p).pc + 4) (fun q => { q with fence := 0 }) fun q => ⟨rfl, rfl, rfl, rfl⟩
  refine ⟨_, ?_, ?_, hret, hsame, hbut, rfl⟩
  · show Host.Outcome.next (fenceComplete p s) = _
    rw [fenceComplete, if_pos ⟨hne, by simp [hidle], hdone⟩]
    rfl
  · rw [s.pair_modPair_same]

/-- Settles O10. -/
theorem pairReturnWaitFenceAndHalt : Obligations.PairReturnWaitFenceAndHalt := ⟨pairReturnAndWait, pairHalts, pairFences⟩

end Sys2Proof.Machine
end

section
/-! SUPPORT. The instructions of a pair: how one that is fetched comes to its meaning, the register banks and the CSRs (R43 to R45, R48, R54, R56). -/
namespace Sys2Proof.Machine
open Sys2Proof.Claims
set_option Elab.async false

/-! ### The way of a fetched instruction to its meaning -/

/-- What the reads of the caches corrected is reported, and nothing else happens (R43). -/
theorem State.rvReads_spec (s : State) (p : Nat) (r : PairReads) (he : r.errs = []) :
    s.rvReads p r = { s with rcd := { s.rcd with reported := (s.rvReads p r).rcd.reported } } ∧
      (s.rvReads p r).rcd.reported.map (fun e => (e.code, e.words)) = s.rcd.reported.map (fun e => (e.code, e.words)) ++
        r.cache.map fun c => (.CACHE_CORRECTED, [p, c.1.val, c.2].map (BitVec.ofNat 32)) := by
  have hl : s.lineErrs r.errs false = s := by rw [he]; rfl
  unfold State.rvReads
  rw [hl]
  induction r.cache generalizing s with
  | nil => exact ⟨rfl, by simp⟩
  | cons c l ih =>
    obtain ⟨hs, hm⟩ := ih (s.report .CACHE_CORRECTED (srcPair p) [p, c.1, c.2]) (by rw [he]; rfl)
    rw [List.foldl_cons]
    refine ⟨by rw [hs]; rfl, ?_⟩
    rw [hm]
    simp [State.report]

/-- An instruction that is fetched in state `u` has its effect on `u`. -/
theorem exec_fetched {s u : State} {p : Fin 4} {len4 : Bool} {reads : PairReads} (i : RvInsn) (h : Fetched s u p len4 reads) :
    exec (.pairInstruction p i ⟨len4, reads⟩) s = .next (u.rvRun p (lengthOf len4) i) := by
  obtain ⟨hi, he, hf⟩ := h
  have hx : (s.execBegin p).executes p = true := by rw [s.executes_execBegin, hi.1]
  have hr : ((s.execBegin p).rvReads p reads).executes p = true := by
    rw [((s.execBegin p).rvReads_spec p reads he).1]
    exact hx
  show Host.Outcome.next (s.asInsn p (pairInstruction p i len4 reads)) = _
  rw [State.asInsn_issues hi, pairInstruction]
  simp only [hx, hr, Bool.not_true, Bool.false_eq_true, if_false]
  rw [show (if len4 then 4 else 2) = lengthOf len4 from rfl, hf]

/-! ### PLX_BANKDAT and PLX_VBASE -/

@[simp] theorem Pair.bank_setBank_same (q : Pair) (b : Nat) (v : Bank) : (q.setBank b v).bank b = v := tget_tput_same _ _ _ _
theorem Pair.bank_setBank_other (q : Pair) (b c : Nat) (v : Bank) (h : c ≠ b) : (q.setBank b v).bank c = q.bank c :=
  tget_tput_other _ _ _ _ _ h

/-- A register written through PLX_BANKDAT that is not the program counter leaves it. -/
theorem Bank.pc_setReg (b : Bank) (i : Nat) (v : DWord) (h : i ≠ 0) : (b.setReg i v).pc = b.pc := by
  unfold Bank.setReg
  rw [if_neg h]
  split_ifs <;> rfl

theorem Bank.reg_setReg (b : Bank) (i : Nat) (v : DWord) (h0 : 0 < i) (h : i < 32) : (b.setReg i v).reg i = v := by
  have hi : i ≠ 0 := by omega
  simp [Bank.setReg, Bank.reg, hi, h]

theorem exec_bankdatWrite (s : State) (p : Fin 4) (v : DWord) (hi : Issues s p) (hm : (s.pair p).umode = false) :
    exec (.bankdatWrite p v) s = .next (s.modPair p fun q => (q.retireTo (q.pc + 4)).bankdat v) := by
  show Host.Outcome.next (s.asInsn p (bankdatWrite p v)) = _
  rw [State.asInsn_machine hi hm, bankdatWrite]
  simp [hi.1, hm]

theorem exec_vbaseWrite (s : State) (p : Fin 4) (v : DWord) (hi : Issues s p) (hm : (s.pair p).umode = false) :
    exec (.vbaseWrite p v) s = .next ((s.modPair p fun q => q.retireTo (q.pc + 4)).writeVbase p v) := by
  show Host.Outcome.next (s.asInsn p (vbaseWrite p v)) = _
  rw [State.asInsn_machine hi hm, vbaseWrite]
  simp [hi.1, hm]

theorem bankdatTaken (p : Fin 4) (s : State) (v : DWord) (hi : Issues s p) (hm : (s.pair p).umode = false)
    (hl : (s.pair p).bankSt (s.pair p).view ≠ .loading) (hp : (s.pair p).bankSt (s.pair p).view ≠ .preloaded) :
    ∃ t, exec (.bankdatWrite p v) s = .next t ∧
      ((s.pair p).view ≠ (s.pair p).cur ∨ (s.pair p).bankIdx ≠ 0 → Retired s t p ((s.pair p).pc + 4)) ∧
      ((s.pair p).view ≠ (s.pair p).cur → (∀ r, (t.pair p).x r = (s.pair p).x r) ∧
        (t.pair p).bank (s.pair p).view = ((s.pair p).bank (s.pair p).view).setReg (s.pair p).bankIdx v) ∧
      (0 < (s.pair p).bankIdx → (s.pair p).bankIdx < 32 →
        ((t.pair p).bank (s.pair p).view).reg (s.pair p).bankIdx = v) ∧
      (∀ b, b ≠ (s.pair p).view → b ≠ (s.pair p).cur → (t.pair p).bank b = (s.pair p).bank b) ∧
      PairsBut s t p ∧ t = { s with pairs := t.pairs } := by
  refine ⟨_, exec_bankdatWrite s p v hi hm, ?_⟩
  generalize hq : s.pair p = q at hl hp
  set r := q.retireTo (q.pc + 4) with hr
  have hview : r.view = q.view := rfl
  have hidx : r.bankIdx = q.bankIdx := rfl
  have hput : r.bankdat v = r.setBank q.view ((r.bank q.view).setReg q.bankIdx v) :=
    if_neg (not_or.2 ⟨hl, hp⟩)
  have hbut (b : Nat) (hb : b ≠ q.view) : (r.bankdat v).bank b = r.bank b := by rw [hput, Pair.bank_setBank_other _ _ _ _ hb]
  have hview' : (r.bankdat v).bank q.view = (r.bank q.view).setReg q.bankIdx v := by rw [hput, Pair.bank_setBank_same]
  have hcur : (r.bankdat v).cur = q.cur := by rw [hput]; rfl
  simp only [Retired, s.pair_modPair_same, hq]
  refine ⟨fun h => ⟨?_, by rw [hput]; rfl, by rw [hput]; rfl⟩, fun h => ⟨fun k => ?_, ?_⟩, fun h0 h1 => ?_, fun b hb hc => ?_,
    fun k hk => s.pair_modPair_other p k _ hk, rfl⟩
  · rw [Pair.pc, Pair.curBank, hcur]
    by_cases hc : q.view = q.cur
    · rw [← hc, hview', Bank.pc_setReg _ _ _ (h.resolve_left (not_not.2 hc)), hc]
      exact q.pc_retireTo _
    · rw [hbut _ (Ne.symm hc)]
      exact q.pc_retireTo _
  · rw [Pair.x, Pair.curBank, hcur, hbut _ (Ne.symm h)]
    exact q.x_retireTo _ k
  · rw [hview', Pair.bank_retireTo_other _ _ _ h]
  · rw [hview', Bank.reg_setReg _ _ _ h0 h1]
  · rw [hbut _ hb, Pair.bank_retireTo_other _ _ _ hc]

theorem bankdatRefused (p : Fin 4) (s : State) (v : DWord) (hi : Issues s p) (hm : (s.pair p).umode = false)
    (h : (s.pair p).bankSt (s.pair p).view = .loading ∨ (s.pair p).bankSt (s.pair p).view = .preloaded) :
    ∃ t, exec (.bankdatWrite p v) s = .next t ∧ Retired s t p ((s.pair p).pc + 4) ∧ (t.pair p).bankErr = true ∧
      SameRegisters s t p ∧ PairsBut s t p ∧ t = { s with pairs := t.pairs } := by
  obtain ⟨hret, hsame, hbut⟩ := s.retires_modPair p ((s.pair p).pc + 4) (fun q => { q with bankErr := true }) fun q => ⟨rfl, rfl, rfl, rfl⟩
  refine ⟨_, ?_, hret, ?_, hsame, hbut, rfl⟩
  · exact (exec_bankdatWrite s p v hi hm).trans (congrArg (fun q => Host.Outcome.next (s.setPair p q)) (if_pos h))
  · rw [s.pair_modPair_same]

theorem vbaseTaken (p : Fin 4) (s : State) (v : DWord) (hi : Issues s p) (hm : (s.pair p).umode = false)
    (h : inSram (v.toNat % 2 ^ 40 / 2 ^ 15 * 2 ^ 15) = true) :
    ∃ t, exec (.vbaseWrite p v) s = .next t ∧ Retired s t p ((s.pair p).pc + 4) ∧
      (t.pair p).vbase = v.toNat % 2 ^ 40 / 2 ^ 15 * 2 ^ 15 ∧ (t.pair p).ven = v.getLsbD 0 ∧
      SameRegisters s t p ∧ PairsBut s t p ∧ t = { s with pairs := t.pairs } := by
  obtain ⟨hret, hsame, hbut⟩ := s.retires_modPair p ((s.pair p).pc + 4)
    (fun q => { q with vbase := v.toNat % 2 ^ 40 / 2 ^ 15 * 2 ^ 15, ven := v.getLsbD 0 }) fun q => ⟨rfl, rfl, rfl, rfl⟩
  refine ⟨_, ?_, hret, ?_, ?_, hsame, hbut, rfl⟩
  · rw [exec_vbaseWrite s p v hi hm, State.writeVbase, if_pos h, State.modPair_modPair]
    rfl
  all_goals rw [s.pair_modPair_same]

theorem vbaseRefused (p : Fin 4) (s : State) (v : DWord) (hi : Issues s p) (hm : (s.pair p).umode = false)
    (h : inSram (v.toNat % 2 ^ 40 / 2 ^ 15 * 2 ^ 15) = false) :
    ∃ t, exec (.vbaseWrite p v) s = .next t ∧ Retired s t p ((s.pair p).pc + 4) ∧
      (t.pair p).vbase = (s.pair p).vbase ∧ (t.pair p).ven = false ∧
      t.rcd.reported.map (fun r => r.code) = s.rcd.reported.map (fun r => r.code) ++ [.VBASE_REJECT] ∧
      SameRegisters s t p ∧ PairsBut s t p ∧ t = { s with pairs := t.pairs, rcd := t.rcd } := by
  obtain ⟨hret, hsame, hbut⟩ := s.retires_modPair p ((s.pair p).pc + 4) (fun q => { q with ven := false }) fun q => ⟨rfl, rfl, rfl, rfl⟩
  have hv : (s.modPair p fun q => q.retireTo (q.pc + 4)).writeVbase p v =
      (s.modPair p fun q => { q.retireTo ((s.pair p).pc + 4) with ven := false }).report .VBASE_REJECT (srcPair p) [v.toNat, v.toNat / 2 ^ 32] := by
    rw [State.writeVbase, if_neg (by rw [h]; exact Bool.false_ne_true), State.modPair_modPair]
    rfl
  refine ⟨_, (exec_vbaseWrite s p v hi hm).trans (congrArg _ hv), hret, ?_, ?_, by simp [State.report, State.modPair, State.setPair], hsame, hbut, rfl⟩
  · exact (congrArg Pair.vbase (s.pair_modPair_same p fun q => { q.retireTo ((s.pair p).pc + 4) with ven := false }) :)
  · exact (congrArg Pair.ven (s.pair_modPair_same p fun q => { q.retireTo ((s.pair p).pc + 4) with ven := false }) :)

/-- With EN 0 no source is selected for the pair (R56, R77). -/
theorem vectorCommit_disabled (p : Fin 4) (s : State) (h : (s.pair p).ven = false) : exec (.vectorCommit p) s = .next s := by
  show Host.Outcome.next (vectorCommit p s) = _
  have ha (n : Nat) : s.eligible p n = false := by simp [State.eligible, Pair.accepts, h]
  have hs : s.selection p = none := by
    rw [State.selection, List.filter_eq_nil_iff.2 fun n _ => by simp [ha n]]
    rfl
  rw [vectorCommit, hs]
  split <;> rfl

theorem pairBankAndVbase : PairBankAndVbase := fun p s v hi hm =>
  ⟨bankdatTaken p s v hi hm, bankdatRefused p s v hi hm, vbaseTaken p s v hi hm, vbaseRefused p s v hi hm, vectorCommit_disabled p s⟩

/-! ### The CSR instructions -/

/-- A register write, a retirement and a change of neither banks nor counts are as `RetiresWith` says them. -/
theorem State.retiresWith_then (s : State) (p rd pc : Nat) (v : DWord) (f : Pair → Pair)
    (hf : ∀ q : Pair, (f q).banks = q.banks ∧ (f q).cur = q.cur ∧ (f q).lastPc = q.lastPc ∧ (f q).minstret = q.minstret) :
    RetiresWith s (s.modPair p fun q => f ((q.setX rd v).retireTo pc)) p pc rd v := by
  obtain ⟨hret, hrd, hx, h0, hf', hfc, hb, -, -⟩ := s.retiresWith_modPair p rd pc v
  simp only [RetiresWith, Retired, s.pair_modPair_same] at hret hrd hx h0 hf' hfc hb ⊢
  obtain ⟨kb, kc, kl, kr⟩ := hf (((s.pair p).setX rd v).retireTo pc)
  set q := ((s.pair p).setX rd v).retireTo pc
  have hbank (b : Nat) : (f q).bank b = q.bank b := by rw [Pair.bank, kb, Pair.bank]
  have hcur : (f q).curBank = q.curBank := by rw [Pair.curBank, kc, hbank, Pair.curBank]
  have hxs (r : Nat) : (f q).x r = q.x r := by rw [Pair.x, hcur, Pair.x]
  simp only [Pair.pc, hcur, hxs, hbank, kl, kr]
  exact ⟨hret, hrd, hx, h0, hf', hfc, hb, fun k hk => s.pair_modPair_other p k _ hk, rfl⟩

/-- What a CSR instruction writes where the CSR held `old` (R45). -/
def csrWritten (o : CsrOp) (old v : DWord) : DWord :=
  match o with
  | .rw => v
  | .rs => old ||| v
  | .rc => old &&& ~~~v

/-- What a CSR instruction does that the mode may execute and that is not PLX_FENCE (R45, R54). -/
theorem State.rvCsr_ok (s : State) (p len csr old : Nat) (o : CsrOp) (rd : Fin 32) (v : DWord) (write : Bool) (h : s.csrOk p csr write = true)
    (hold : s.csrRead p csr = some old) (hne : csr ≠ 0x8C0) :
    s.rvCsr p len o rd v write csr =
      (if write then (s.rvDone p rd len (BitVec.ofNat 64 old)).csrWrite p csr
        (csrWritten o (BitVec.ofNat 64 old) v)
      else s.rvDone p rd len (BitVec.ofNat 64 old)) := by
  have hc : (write && csr == 0x8C0) = false := by simp [hne]
  unfold State.rvCsr
  rw [h, hold]
  simp only [Bool.not_true, Bool.false_eq_true, if_false, hc, Option.getD_some]
  cases o <;> rfl

/-- In machine mode every CSR but those of floating point that reads may be read, and below 0xC00 be written (R45, R48). -/
theorem State.csrOk_machine (s : State) (p csr old : Nat) (write : Bool) (hm : (s.pair p).umode = false) (hr : s.csrRead p csr = some old)
    (hw : write = true → csr < 0xC00) (hf : 3 < csr) : s.csrOk p csr write = true := by
  have h1 : (write && decide (0xC00 ≤ csr)) = false := by
    cases write with
    | false => rfl
    | true => simpa using hw rfl
  have h2 : decide (csr = 1 ∨ csr = 2 ∨ csr = 3) = false := decide_eq_false (by omega)
  rw [State.csrOk, hr, hm, h1, h2]
  rfl

/-- A CSR written in machine mode. -/
theorem State.rvRun_csr (s : State) (p len : Nat) (o : CsrOp) (rd rs1 : Fin 32) (c : BitVec 12) (old : Nat) (hm : (s.pair p).umode = false)
    (hr : s.csrRead p c.toNat = some old) (hw : o = .rw ∨ 0 < rs1.val) (hc : c.toNat < 0xC00) (hf : 3 < c.toNat) (hne : c.toNat ≠ 0x8C0) :
    s.rvRun p len (.csr o rd rs1 c) = (s.rvDone p rd len (BitVec.ofNat 64 old)).csrWrite p c.toNat
      (csrWritten o (BitVec.ofNat 64 old) ((s.pair p).x rs1)) := by
  have hwr : (o == .rw || decide (rs1 ≠ 0)) = true := by
    obtain rfl | h := hw
    · rfl
    · have : rs1 ≠ 0 := fun e => by simp [e] at h
      simp [this]
  show s.rvCsr p len o rd ((s.pair p).x rs1) (o == .rw || decide (rs1 ≠ 0)) c.toNat = _
  rw [hwr, s.rvCsr_ok p len c.toNat old o rd _ true (s.csrOk_machine p _ old true hm hr (fun _ => hc) hf) hr hne, if_pos rfl]

/-- A CSR read in machine mode with CSRRS and x0. -/
theorem State.rvRun_csrr (s : State) (p len : Nat) (rd : Fin 32) (c : BitVec 12) (old : Nat) (hm : (s.pair p).umode = false)
    (hr : s.csrRead p c.toNat = some old) (hf : 3 < c.toNat) (hne : c.toNat ≠ 0x8C0) :
    s.rvRun p len (.csr .rs rd 0 c) = s.rvDone p rd len (BitVec.ofNat 64 old) := by
  show s.rvCsr p len .rs rd ((s.pair p).x (0 : Fin 32)) false c.toNat = _
  rw [s.rvCsr_ok p len c.toNat old .rs rd _ false (s.csrOk_machine p _ old false hm hr nofun hf) hr hne]
  rfl

theorem State.rvRun_csrIllegal (s : State) (p len : Nat) (o : CsrOp) (rd rs1 : Fin 32) (c : BitVec 12)
    (h : s.csrOk p c.toNat (o == .rw || decide (rs1 ≠ 0)) = false) : s.rvRun p len (.csr o rd rs1 c) = s.trap p 2 0 := by
  show s.rvCsr p len o rd ((s.pair p).x rs1) (o == .rw || decide (rs1 ≠ 0)) c.toNat = _
  rw [State.rvCsr, h]
  rfl

/-- From 0x300 to 0x7FF no CSR is one of user mode: its level is above it, or (0x400 to 0x4FF) there is none. -/
theorem State.csrOk_user (s : State) (p csr : Nat) (write : Bool) (hm : (s.pair p).umode = true) (hlo : 0x300 ≤ csr) (hhi : csr < 0x800) :
    s.csrOk p csr write = false := by
  by_cases hl : csr / 256 % 4 = 0
  · have hn : s.csrRead p csr = none := by
      unfold State.csrRead
      rw [if_neg (by omega)]
      split
      rotate_right
      · rfl
      all_goals omega
    rw [State.csrOk, hn]
    rfl
  · simp [State.csrOk, hm, hl]

theorem csrMachine (p : Fin 4) (len4 : Bool) (reads : PairReads) (rd rs1 : Fin 32) (s u : State) (h : Fetched s u p len4 reads)
    (hm : (u.pair p).umode = false) :
    (∃ t, exec (.pairInstruction p (.csr .rw rd rs1 0x340) ⟨len4, reads⟩) s = .next t ∧
      RetiresWith u t p ((u.pair p).pc + lengthOf len4) rd (BitVec.ofNat 64 (u.pair p).mscratch) ∧ (t.pair p).mscratch = ((u.pair p).x rs1).toNat) ∧
    (0 < rs1.val → ∃ t, exec (.pairInstruction p (.csr .rs rd rs1 0x340) ⟨len4, reads⟩) s = .next t ∧
      (t.pair p).mscratch = (BitVec.ofNat 64 (u.pair p).mscratch ||| (u.pair p).x rs1).toNat) ∧
    (∃ t, exec (.pairInstruction p (.csr .rw rd rs1 0x7C3) ⟨len4, reads⟩) s = .next t ∧ (t.pair p).bankIdx = ((u.pair p).x rs1).toNat % 128 ∧
      (((u.pair p).x rs1).getLsbD 31 = true → (t.pair p).bankErr = false)) ∧
    (∃ t, exec (.pairInstruction p (.csr .rs rd 0 0x7C4) ⟨len4, reads⟩) s = .next t ∧
      RetiresWith u t p ((u.pair p).pc + lengthOf len4) rd (((u.pair p).bank (u.pair p).view).reg (u.pair p).bankIdx)) ∧
    (∃ t, exec (.pairInstruction p (.csr .rw rd rs1 0x305) ⟨len4, reads⟩) s = .next t ∧ (t.pair p).mtvec = ((u.pair p).x rs1).toNat / 4 * 4) ∧
    (∃ t, exec (.pairInstruction p (.csr .rs rd 0 0xF14) ⟨len4, reads⟩) s = .next t ∧
      RetiresWith u t p ((u.pair p).pc + lengthOf len4) rd (BitVec.ofNat 64 p) ∧
      t.pair p = ((u.pair p).setX rd (BitVec.ofNat 64 p)).retireTo ((u.pair p).pc + lengthOf len4)) ∧
    (∀ c : BitVec 12, 0xB05 ≤ c.toNat → c.toNat < 0xB20 → ∃ t, exec (.pairInstruction p (.csr .rs rd 0 c) ⟨len4, reads⟩) s = .next t ∧
      RetiresWith u t p ((u.pair p).pc + lengthOf len4) rd 0) ∧
    ((u.pair p).mtvec ≠ 0 → ∃ t, exec (.pairInstruction p (.csr .rw rd rs1 0xF14) ⟨len4, reads⟩) s = .next t ∧ TakesTrap u t p 2 0) := by
  have hgo (i : RvInsn) := exec_fetched i h
  have hw (o : CsrOp) (c : BitVec 12) (old : Nat) := u.rvRun_csr p (lengthOf len4) o rd rs1 c old hm
  refine ⟨⟨_, (hgo _).trans (congrArg _ (hw .rw 0x340 _ rfl (.inl rfl) (by decide) (by decide) (by decide))), ?_, ?_⟩,
    fun h0 => ⟨_, (hgo _).trans (congrArg _ (hw .rs 0x340 _ rfl (.inr h0) (by decide) (by decide) (by decide))), ?_⟩,
    ⟨_, (hgo _).trans (congrArg _ (hw .rw 0x7C3 _ rfl (.inl rfl) (by decide) (by decide) (by decide))), ?_, fun hb => ?_⟩,
    ⟨_, (hgo _).trans (congrArg _ (u.rvRun_csrr p _ rd 0x7C4 _ hm rfl (by decide) (by decide))), ?_⟩,
    ⟨_, (hgo _).trans (congrArg _ (hw .rw 0x305 _ rfl (.inl rfl) (by decide) (by decide) (by decide))), ?_⟩,
    ⟨_, (hgo _).trans (congrArg _ (u.rvRun_csrr p _ rd 0xF14 _ hm rfl (by decide) (by decide))), u.retiresWith_rvDone p rd _ _,
      u.pair_modPair_same p _⟩,
    fun c hlo hhi => ⟨_, (hgo _).trans (congrArg _ (u.rvRun_csrr p _ rd c 0 hm ?_ (by omega) (by omega))), u.retiresWith_rvDone p rd _ _⟩,
    fun ht => ⟨_, (hgo _).trans (congrArg _ (u.rvRun_csrIllegal p _ .rw rd rs1 0xF14 rfl)), u.takesTrap_trap p 2 0 ht⟩⟩
  · show RetiresWith u ((u.rvDone p rd (lengthOf len4) _).modPair p fun q => { q with mscratch := _ }) p _ rd _
    rw [State.rvDone, State.modPair_modPair]
    exact u.retiresWith_then p rd _ _ (fun q => { q with mscratch := ((u.pair p).x rs1).toNat }) fun q => ⟨rfl, rfl, rfl, rfl⟩
  · exact congrArg Pair.mscratch (State.pair_modPair_same _ p _)
  · exact congrArg Pair.mscratch (State.pair_modPair_same _ p _)
  · exact congrArg Pair.bankIdx (State.pair_modPair_same _ p _)
  · refine (congrArg Pair.bankErr (State.pair_modPair_same _ p _)).trans ?_
    simp only [← BitVec.getLsbD.eq_1, csrWritten, hb, Bool.not_true, Bool.and_false]
  · have h := u.retiresWith_rvDone p rd (lengthOf len4) (BitVec.ofNat 64 (((u.pair p).bank (u.pair p).view).reg (u.pair p).bankIdx).toNat)
    rwa [BitVec.ofNat_toNat, BitVec.setWidth_eq] at h ⊢
  · exact congrArg Pair.mtvec (State.pair_modPair_same _ p _)
  · unfold State.csrRead
    exact if_pos (.inl ⟨hlo, hhi⟩)

theorem pairCsrInstructions : PairCsrInstructions := by
  intro p len4 reads rd rs1 s u h
  refine ⟨csrMachine p len4 reads rd rs1 s u h, fun hm ht o c hlo hhi => ?_⟩
  exact ⟨_, (exec_fetched _ h).trans (congrArg _ (u.rvRun_csrIllegal p _ o rd rs1 c (u.csrOk_user p _ _ hm hlo hhi))), u.takesTrap_trap p 2 0 ht⟩

/-- Settles O11. -/
theorem pairBanksAndCsrs : Obligations.PairBanksAndCsrs := ⟨pairBankAndVbase, pairCsrInstructions⟩

end Sys2Proof.Machine
end

section
/-! SUPPORT. The integer and floating-point instructions of a pair and the exceptions of its instructions (R43 to R47, R50, R170, R361, log 12). -/
namespace Sys2Proof.Machine
open Sys2Proof.Claims
set_option Elab.async false

/-! ### Integer instructions -/

theorem brTaken_ge (a b : DWord) : brTaken .ge a b = !(a.slt b) := by
  rw [brTaken, BitVec.slt, ← decide_not, decide_eq_decide, not_lt]

theorem brTaken_geu (a b : DWord) : brTaken .geu a b = !(a.ult b) := by
  rw [brTaken, BitVec.ult, ← decide_not, decide_eq_decide, not_lt]

/-- Before an instruction of machine mode nothing but the reports of its cache reads has happened (R43). -/
theorem fetched_machine {s u : State} {p : Fin 4} {len4 : Bool} {reads : PairReads} (h : Fetched s u p len4 reads)
    (hm : (s.pair p).umode = false) : u = { s with rcd := { s.rcd with reported := u.rcd.reported } } ∧
      u.rcd.reported.map (fun e => (e.code, e.words)) = s.rcd.reported.map (fun e => (e.code, e.words)) ++
        reads.cache.map fun c => (.CACHE_CORRECTED, [p.val, c.1.val, c.2].map (BitVec.ofNat 32)) := by
  obtain ⟨-, he, hf⟩ := h
  rw [s.execBegin_machine p hm] at hf
  obtain ⟨hs, hw⟩ := s.rvReads_spec p reads he
  have hu : u = s.rvReads p reads := State.rvFetch_machine _ _ _ _ _ (by rw [hs]; exact hm) hf
  rw [hu]
  exact ⟨hs, hw⟩

theorem pairIntegerInstructions : PairIntegerInstructions := by
  intro p len4 reads rd rs1 rs2 imm s u h
  have hgo (i : RvInsn) := exec_fetched i h
  have hdone (d : Nat) (v : DWord) := u.retiresWith_rvDone p d (lengthOf len4) v
  have hjump (d pc : Nat) (v : DWord) := u.retiresWith_modPair p d pc v
  refine ⟨fetched_machine h, ⟨_, hgo _, hdone _ _⟩, ⟨_, hgo _, hdone _ _⟩, ⟨_, hgo _, hjump _ _ _⟩, ⟨_, hgo _, hjump _ _ _⟩,
    fun c taken ht => ⟨_, hgo _, ?_⟩, fun o => ⟨⟨_, hgo _, hdone _ _⟩, ⟨_, hgo _, hdone _ _⟩, ⟨_, hgo _, hdone _ _⟩, ⟨_, hgo _, hdone _ _⟩⟩,
    ⟨_, hgo _, hdone _ _⟩, ⟨_, hgo _, ?_⟩, ⟨_, hgo _, ?_⟩, fun hb => ⟨⟨_, hgo _, ?_⟩, ⟨_, hgo _, ?_⟩⟩,
    fun hb ha => ⟨⟨_, hgo _, ?_⟩, ⟨_, hgo _, ?_⟩⟩, ⟨_, hgo _, ?_⟩, ⟨_, hgo _, hdone _ _⟩, ⟨_, hgo _, hdone _ _⟩⟩
  · have hc : taken = brTaken c ((u.pair p).x rs1) ((u.pair p).x rs2) := by
      rw [ht]
      cases c with
      | ge => exact (brTaken_ge _ _).symm
      | geu => exact (brTaken_geu _ _).symm
      | eq | ne | lt | ltu => rfl
    rw [hc]
    exact hjump _ _ _
  · have e : aluOp .slt ((u.pair p).x rs1) ((u.pair p).x rs2) = if ((u.pair p).x rs1).slt ((u.pair p).x rs2) then 1 else 0 := by
      simp [aluOp, BitVec.slt]
    rw [← e]
    exact hdone _ _
  · have e : aluOp .sltu ((u.pair p).x rs1) ((u.pair p).x rs2) = if ((u.pair p).x rs1).ult ((u.pair p).x rs2) then 1 else 0 := by
      simp [aluOp, BitVec.ult]
    rw [← e]
    exact hdone _ _
  · rw [show BitVec.allOnes 64 = aluOp .div ((u.pair p).x rs1) ((u.pair p).x rs2) from (if_pos hb).symm]
    exact hdone _ _
  · rw [show (u.pair p).x rs1 = aluOp .rem ((u.pair p).x rs1) ((u.pair p).x rs2) from (if_pos hb).symm]
    exact hdone _ _
  · have e : aluOp .div (BitVec.intMin 64) (BitVec.allOnes 64) = BitVec.intMin 64 := by decide
    rw [ha, ← e, ← hb, ← ha]
    exact hdone _ _
  · have e : aluOp .rem (BitVec.intMin 64) (BitVec.allOnes 64) = 0 := by decide
    rw [← e, ← hb, ← ha]
    exact hdone _ _
  · rw [BitVec.setWidth_add _ _ (by decide)]
    exact hdone _ _

/-! ### The registers of an F or D operation -/

/-- Accruing flags changes fcsr and FS alone, and leaves FS where it is dirty or no flag accrues. -/
theorem Pair.accrue_spec (q : Pair) (fl : BitVec 5) : ∃ d, (q.accrue fl).curBank = { q.curBank with fcsr := q.curBank.fcsr ||| fl.setWidth 32, fs := d } ∧
    (q.curBank.fs = 3 → d = 3) ∧ (q.accrue fl).mcountinhibit = q.mcountinhibit ∧ (q.accrue fl).minstret = q.minstret := by
  unfold Pair.accrue
  split
  case isTrue h => exact ⟨q.curBank.fs, by simp [h], id, rfl, rfl⟩
  case isFalse => exact ⟨3, Pair.curBank_setCur _ _, fun _ => rfl, rfl, rfl⟩

/-- What an F or D operation leaves of a pair: its flags accrued in fcsr, and retired. -/
theorem State.rvFp_retires (u : State) (p pc : Nat) (fl : BitVec 5) (g : Pair → Pair)
    (hg : (g (u.pair p)).curBank.fcsr = (u.pair p).curBank.fcsr ∧ (g (u.pair p)).curBank.pc = (u.pair p).curBank.pc ∧
      (g (u.pair p)).mcountinhibit = (u.pair p).mcountinhibit ∧ (g (u.pair p)).minstret = (u.pair p).minstret) :
    let t := u.modPair p fun q => ((g q).accrue fl).retireTo pc
    (t.pair p).curBank.fcsr = (u.pair p).curBank.fcsr ||| fl.setWidth 32 ∧ Retired u t p pc ∧ PairsBut u t p ∧ t = { u with pairs := t.pairs } := by
  obtain ⟨hfc, hpc, hmi, hin⟩ := hg
  obtain ⟨d, hb, -, hi, hn⟩ := (g (u.pair p)).accrue_spec fl
  refine ⟨?_, ⟨?_, ?_, ?_⟩, fun q hq => u.pair_modPair_other p q _ hq, rfl⟩
  · rw [u.pair_modPair_same, Pair.curBank_retireTo, hb, hfc]
  · rw [u.pair_modPair_same, Pair.pc_retireTo]
  · rw [u.pair_modPair_same, Pair.lastPc_retireTo, Pair.pc, hb, hpc, Pair.pc]
  · rw [u.pair_modPair_same, Pair.minstret_retireTo, hi, hn, hmi, hin]

theorem State.rvFp_eq (u : State) (p len n rm m : Nat) (f : Nat → Option (DWord × BitVec 5)) (g : Pair → DWord → Pair) (v : DWord) (fl : BitVec 5)
    (hs : (u.pair p).curBank.fs ≠ 0) (hm : (if fpPlain n then some rm else (u.pair p).rounding rm) = some m) (hf : f m = some (v, fl)) :
    u.rvFp p len n rm f g = u.modPair p fun q => ((g q v).accrue fl).retireTo ((u.pair p).pc + len) := by
  have h : (if fpPlain n then some rm else (u.pair p).rounding rm).bind f = some (v, fl) := by rw [hm]; exact hf
  have hpc (q : Pair) : (q.accrue fl).pc = q.pc := by
    obtain ⟨d, hb, -⟩ := q.accrue_spec fl
    rw [Pair.pc, hb, Pair.pc]
  unfold State.rvFp
  rw [if_neg hs, h]
  rfl

theorem fpOperation (p : Fin 4) (len4 : Bool) (reads : PairReads) (n rm m : Nat) (rd rs1 rs2 rs3 : Fin 32) (s u : State)
    (h : Fetched s u p len4 reads) (hs : (u.pair p).curBank.fs ≠ 0)
    (hm : (if fpPlain n then some rm else (u.pair p).rounding rm) = some m) :
    let q := u.pair p
    let done (t : State) (fl : BitVec 5) : Prop := (t.pair p).curBank.fcsr = q.curBank.fcsr ||| fl.setWidth 32 ∧
      Retired u t p (q.pc + lengthOf len4) ∧ PairsBut u t p ∧ t = { u with pairs := t.pairs }
    let takesF (t : State) (v : DWord) : Prop := (t.pair p).fr rd = v ∧ (∀ k, k ≠ rd.val → (t.pair p).fr k = q.fr k) ∧
      (∀ k, (t.pair p).x k = q.x k) ∧ (t.pair p).curBank.fs = 3
    (∀ v fl, fpResult n m (q.fr rs1) (q.fr rs2) (q.fr rs3) = some (v, fl) →
      ∃ t, exec (.pairInstruction p (.fop n rm rd rs1 rs2 rs3) ⟨len4, reads⟩) s = .next t ∧ takesF t v ∧ done t fl) ∧
    (∀ v fl, fpFromX n m (q.x rs1) = some (v, fl) →
      ∃ t, exec (.pairInstruction p (.fopF n rm rd rs1) ⟨len4, reads⟩) s = .next t ∧ takesF t v ∧ done t fl) ∧
    (∀ v fl, fpToX n m (q.fr rs1) (q.fr rs2) = some (v, fl) →
      ∃ t, exec (.pairInstruction p (.fopX n rm rd rs1 rs2) ⟨len4, reads⟩) s = .next t ∧ done t fl ∧ (0 < rd.val → (t.pair p).x rd = v) ∧
        (∀ k, k ≠ rd.val → (t.pair p).x k = q.x k) ∧ ∀ k, (t.pair p).fr k = q.fr k) := by
  intro q done takesF
  have hF (v : DWord) (fl : BitVec 5) : let t := u.modPair p fun q => ((q.setF rd v).accrue fl).retireTo (q.pc + lengthOf len4)
      takesF t v ∧ done t fl := by
    have hc : (q.setF rd v).curBank = { q.curBank with f := tput dwordD q.curBank.f rd v, fs := 3 } := Pair.curBank_setCur _ _
    obtain ⟨d, hb, hd, -⟩ := (q.setF rd v).accrue_spec fl
    have hd3 : d = 3 := hd (by rw [hc])
    rw [hc] at hb
    refine ⟨⟨?_, fun k hk => ?_, fun k => ?_, ?_⟩, u.rvFp_retires p _ fl (fun q => q.setF rd v) ⟨by rw [hc], by rw [hc], rfl, rfl⟩⟩
    · simp [Pair.fr, hb, q]
    · simp [Pair.fr, hb, q, hk]
    · simp [Pair.x, hb, q]
    · simp [hb, q, hd3]
  have hX (v : DWord) (fl : BitVec 5) : let t := u.modPair p fun q => ((q.setX rd v).accrue fl).retireTo (q.pc + lengthOf len4)
      done t fl ∧ (0 < rd.val → (t.pair p).x rd = v) ∧ (∀ k, k ≠ rd.val → (t.pair p).x k = q.x k) ∧ ∀ k, (t.pair p).fr k = q.fr k := by
    have hc := q.curBank_setX rd v
    obtain ⟨d, hb, -⟩ := (q.setX rd v).accrue_spec fl
    have hx (k : Nat) : ((q.setX rd v).accrue fl).x k = (q.setX rd v).x k := by rw [Pair.x, hb, Pair.x]
    refine ⟨u.rvFp_retires p _ fl (fun q => q.setX rd v) ⟨by rw [hc], by rw [hc], by simp, by simp⟩, fun h0 => ?_, fun k hk => ?_, fun k => ?_⟩
    · rw [u.pair_modPair_same, Pair.x_retireTo, hx, Pair.x_setX_same _ _ _ h0]
    · rw [u.pair_modPair_same, Pair.x_retireTo, hx, Pair.x_setX_other _ _ _ _ hk]
    · simp [Pair.fr, hb, hc, q]
  refine ⟨fun v fl hv => ?_, fun v fl hv => ?_, fun v fl hv => ?_⟩
  · exact ⟨_, (exec_fetched _ h).trans (congrArg _ (u.rvFp_eq p _ n rm m _ _ v fl hs hm hv)), hF v fl⟩
  · exact ⟨_, (exec_fetched _ h).trans (congrArg _ (u.rvFp_eq p _ n rm m _ _ v fl hs hm hv)), hF v fl⟩
  · exact ⟨_, (exec_fetched _ h).trans (congrArg _ (u.rvFp_eq p _ n rm m _ _ v fl hs hm hv)), hX v fl⟩

/-! ### Encodings -/

/-- A format with room for a number of its own precision: what the two formats of the F and D extensions have in common. -/
def FpFmt.Roomy (f : FpFmt) : Prop := 1 ≤ f.m ∧ 1 ≤ f.bias ∧ f.m + f.bias + 1 < 2 ^ f.e - 1

theorem fpFmt_roomy (dbl : Bool) : (fpFmt dbl).Roomy := by
  cases dbl with
  | false => exact ⟨by decide, by decide, by decide⟩
  | true => exact ⟨by decide, by decide, by decide⟩

theorem FpFmt.sign_eq (f : FpFmt) (neg : Bool) : f.sign neg = neg.toNat * 2 ^ (f.e + f.m) := by cases neg <;> rfl

/-- An encoding is made of its sign, exponent and fraction. -/
theorem FpFmt.bits_eq (f : FpFmt) (b : Nat) (h : b < 2 ^ f.width) :
    b = f.sign (b.testBit (f.e + f.m)) + b / 2 ^ f.m % 2 ^ f.e * 2 ^ f.m + b % 2 ^ f.m := by
  have hs : (b.testBit (f.e + f.m)).toNat = b / 2 ^ (f.e + f.m) := by
    rw [Nat.toNat_testBit, Nat.mod_eq_of_lt]
    rw [Nat.div_lt_iff_lt_mul (by positivity), ← pow_succ']
    rwa [FpFmt.width, show 1 + f.e + f.m = f.e + f.m + 1 by omega] at h
  have h1 := Nat.div_add_mod b (2 ^ f.m)
  have h2 := Nat.div_add_mod (b / 2 ^ f.m) (2 ^ f.e)
  rw [Nat.div_div_eq_div_mul, ← pow_add, Nat.add_comm f.m] at h2
  rw [f.sign_eq, hs]
  calc b = 2 ^ f.m * (2 ^ f.e * (b / 2 ^ (f.e + f.m)) + b / 2 ^ f.m % 2 ^ f.e) + b % 2 ^ f.m := by rw [h2, h1]
    _ = _ := by ring

/-- What an encoding made of its parts stands for, of a number that is not subnormal. -/
theorem FpFmt.val_normal (f : FpFmt) (neg : Bool) (x n : Nat) (hx : 0 < x) (hx' : x < 2 ^ f.e - 1) (hn : 2 ^ f.m ≤ n) (hn' : n < 2 ^ (f.m + 1)) :
    f.val (f.sign neg + x * 2 ^ f.m + (n - 2 ^ f.m)) = .fin neg n ((x : Int) - f.bias - f.m) := by
  rw [pow_succ] at hn'
  obtain ⟨k, rfl⟩ := Nat.exists_eq_add_of_le hn
  rw [Nat.add_sub_cancel_left]
  have hk : k < 2 ^ f.m := by omega
  set b := f.sign neg + x * 2 ^ f.m + k with hb
  have hb' : b = k + 2 ^ f.m * (x + 2 ^ f.e * neg.toNat) := by rw [hb, f.sign_eq]; ring
  have hdiv : b / 2 ^ f.m = x + 2 ^ f.e * neg.toNat := by
    rw [hb', Nat.add_mul_div_left _ _ (by positivity), Nat.div_eq_of_lt hk, Nat.zero_add]
  have hfr : b % 2 ^ f.m = k := by rw [hb', Nat.add_mul_mod_self_left, Nat.mod_eq_of_lt hk]
  have hexp : b / 2 ^ f.m % 2 ^ f.e = x := by rw [hdiv, Nat.add_mul_mod_self_left, Nat.mod_eq_of_lt (by omega)]
  have hneg : b.testBit (f.e + f.m) = neg := by
    rw [Nat.testBit_eq_decide_div_mod_eq, Nat.add_comm, pow_add, ← Nat.div_div_eq_div_mul, hdiv, Nat.add_mul_div_left _ _ (by positivity),
      Nat.div_eq_of_lt (by omega)]
    cases neg <;> rfl
  simp only [FpFmt.val, hexp, hfr, hneg, Nat.ne_of_lt hx', Nat.ne_of_gt hx, if_false]

/-- A number that a format holds is rounded to itself: its magnitude is a multiple of the unit in its last place, and fits. -/
theorem FpFmt.round_fits (f : FpFmt) (rm : Nat) (neg : Bool) (mag n x : Nat) (exp q : Int) (h0 : mag ≠ 0)
    (hq : max (exp + (Nat.log2 mag : Int) - f.m) f.low = q) (hle : q ≤ exp) (hn : n = mag * 2 ^ (exp - q).toNat) (hn' : n < 2 ^ (f.m + 1))
    (hx : x = if n < 2 ^ f.m then 0 else (q + f.bias + f.m).toNat) (hx' : x < 2 ^ f.e - 1) :
    f.round rm neg mag exp = (f.sign neg + x * 2 ^ f.m + (if x = 0 then n else n - 2 ^ f.m), 0) := by
  have hcut : fpCut rm neg mag exp q = (n, true) := by rw [fpCut, if_pos hle, hn]
  have hup : decide (n = 2 ^ (f.m + 1)) = false := decide_eq_false (Nat.ne_of_lt hn')
  unfold FpFmt.round
  simp only [h0, if_false, hq, hcut, hup, Bool.false_eq_true, add_zero, ← hx, if_neg (Nat.not_le.2 hx'), if_true]

/-- A representable number rounds to itself in every mode without a flag (log 12). -/
theorem FpFmt.round_val (f : FpFmt) (hf : f.Roomy) (rm b : Nat) (neg : Bool) (mag : Nat) (exp : Int) (hb : b < 2 ^ f.width)
    (h : f.val b = .fin neg mag exp) : f.round rm neg mag exp = (b, 0) := by
  obtain ⟨hm, hbias, hroom⟩ := hf
  have hfr : b % 2 ^ f.m < 2 ^ f.m := Nat.mod_lt _ (by positivity)
  have hbits := f.bits_eq b hb
  have he : b / 2 ^ f.m % 2 ^ f.e < 2 ^ f.e := Nat.mod_lt _ (by positivity)
  simp only [FpFmt.val] at h
  split at h
  · split at h <;> cases h
  · rename_i hx
    split at h
    · rename_i hx0
      rw [hx0, Nat.zero_mul, Nat.add_zero] at hbits
      cases h
      by_cases hz : b % 2 ^ f.m = 0
      · rw [FpFmt.round, if_pos hz, ← Nat.add_zero (f.sign _), ← hz, ← hbits]
      · have hlog : Nat.log2 (b % 2 ^ f.m) < f.m := (Nat.log2_lt hz).2 hfr
        have hlow : max (f.low + (Nat.log2 (b % 2 ^ f.m) : Int) - f.m) f.low = f.low := by omega
        rw [f.round_fits rm _ _ (b % 2 ^ f.m) 0 f.low f.low hz hlow le_rfl (by simp) (by rw [pow_succ]; omega) (by simp [hfr]) (by omega)]
        rw [if_pos rfl, Nat.zero_mul, Nat.add_zero, ← hbits]
    · rename_i hx0
      cases h
      have hlog : Nat.log2 (2 ^ f.m + b % 2 ^ f.m) = f.m := by
        rw [Nat.log2_eq_iff (by positivity), pow_succ]
        omega
      have hq : max (((b / 2 ^ f.m % 2 ^ f.e : Nat) : Int) - f.bias - f.m + ((Nat.log2 (2 ^ f.m + b % 2 ^ f.m) : Nat) : Int) - f.m) f.low =
          ((b / 2 ^ f.m % 2 ^ f.e : Nat) : Int) - f.bias - f.m := by
        rw [hlog, FpFmt.low]
        omega
      rw [f.round_fits rm _ _ (2 ^ f.m + b % 2 ^ f.m) (b / 2 ^ f.m % 2 ^ f.e) _ _ (by positivity) hq le_rfl (by simp) (by rw [pow_succ]; omega)
        (by rw [if_neg (by omega)]; omega) (by omega), if_neg hx0, Nat.add_sub_cancel_left, ← hbits]

/-! ### Integers -/

/-- Cutting at 2^0 a magnitude that is a multiple of it is exact. -/
theorem fpCut_exact (rm : Nat) (neg : Bool) (mag k : Nat) : fpCut rm neg (mag * 2 ^ k) (-(k : Int)) 0 = (mag, true) := by
  unfold fpCut
  by_cases hk : k = 0
  · simp [hk]
  · have hu : (2 : Nat) ^ k ≠ 0 := by positivity
    have haway : fpAway rm neg (mag.testBit 0) 0 (2 ^ k) = false := by
      unfold fpAway
      split <;> simp [hu.symm]
    rw [if_neg (by omega)]
    simp only [zero_sub, neg_neg, Int.toNat_natCast, Nat.mul_div_cancel _ (Nat.pos_of_ne_zero hu), Nat.mul_mod_left, haway]
    rfl

/-- An integer of the format's precision converts to it and back exactly (log 12). -/
theorem FpFmt.ofInt_exact (f : FpFmt) (hf : f.Roomy) (rm : Nat) (v lo hi : Int) (hv : v.natAbs < 2 ^ (f.m + 1)) (hlo : lo ≤ v) (hhi : v ≤ hi) :
    (f.ofInt rm v).2 = 0 ∧ fpToInt rm lo hi (f.val (f.ofInt rm v).1) = (v, 0) := by
  obtain ⟨hm, hbias, hroom⟩ := hf
  by_cases h0 : v = 0
  · subst h0
    have hz : f.ofInt rm 0 = (0, 0) := by simp [FpFmt.ofInt, FpFmt.round, FpFmt.sign_eq]
    have hval : f.val 0 = .fin false 0 f.low := by
      have : 0 ≠ 2 ^ f.e - 1 := by omega
      simp [FpFmt.val, this]
    obtain ⟨k, hk⟩ : ∃ k : Nat, f.low = -(k : Int) := ⟨f.bias + f.m - 1, by rw [FpFmt.low]; omega⟩
    have hcut : fpCut rm false 0 f.low 0 = (0, true) := by
      rw [hk, ← fpCut_exact rm false 0 k, Nat.zero_mul]
    rw [hz, hval]
    simp only [fpToInt, hcut]
    simp [not_lt.2 hlo, not_lt.2 hhi]
  · have hmag : v.natAbs ≠ 0 := by omega
    set mag := v.natAbs with hmagdef
    have hlog : Nat.log2 mag ≤ f.m := by
      have := (Nat.log2_lt hmag).2 hv
      omega
    obtain ⟨k, hk⟩ := Nat.exists_eq_add_of_le hlog
    have hlo2 : 2 ^ Nat.log2 mag ≤ mag := Nat.log2_self_le hmag
    have hhi2 : mag < 2 ^ (Nat.log2 mag + 1) := Nat.lt_log2_self
    have hn : 2 ^ f.m ≤ mag * 2 ^ k := by
      rw [hk, pow_add]
      exact Nat.mul_le_mul_right _ hlo2
    have hn' : mag * 2 ^ k < 2 ^ (f.m + 1) := by
      rw [hk, Nat.add_right_comm, pow_add]
      exact Nat.mul_lt_mul_of_pos_right hhi2 (by positivity)
    have hx : Nat.log2 mag + f.bias < 2 ^ f.e - 1 := by omega
    have hround : f.round rm (decide (v < 0)) mag 0 =
        (f.sign (decide (v < 0)) + (Nat.log2 mag + f.bias) * 2 ^ f.m + (mag * 2 ^ k - 2 ^ f.m), 0) := by
      rw [f.round_fits rm _ mag (mag * 2 ^ k) (Nat.log2 mag + f.bias) 0 (-(k : Int)) hmag (by rw [FpFmt.low]; omega) (by omega) (by simp) hn'
        (by rw [if_neg (by omega)]; omega) hx, if_neg (by omega)]
    have hexp : ((Nat.log2 mag + f.bias : Nat) : Int) - f.bias - f.m = -(k : Int) := by omega
    have hval := f.val_normal (decide (v < 0)) (Nat.log2 mag + f.bias) (mag * 2 ^ k) (by omega) hx hn hn'
    rw [hexp] at hval
    rw [FpFmt.ofInt, ← hmagdef, hround, hval]
    have hsign : (if decide (v < 0) = true then -(mag : Int) else (mag : Int)) = v := by
      split <;> rename_i hs <;> simp at hs <;> omega
    simp only [fpToInt, fpCut_exact, hsign, not_lt.2 hlo, not_lt.2 hhi, if_false, if_true, and_self]

/-- An operation on a NaN gives the canonical NaN, and NV where one signals (log 12). -/
theorem FpFmt.nan_operand (f : FpFmt) (rm : Nat) (x y : FpVal) (h : (x.isNan || y.isNan) = true) :
    f.add rm x y = (f.nanBits, if x.isSnan || y.isSnan then fpNv else 0) ∧ f.mul rm x y = f.add rm x y ∧ f.div rm x y = f.add rm x y := by
  cases x with
  | nan a => cases y <;> simp [FpFmt.add, FpFmt.mul, FpFmt.div, FpVal.times, FpFmt.invalid, FpVal.isNan, FpVal.isSnan]
  | inf a =>
    cases y with
    | nan b => simp [FpFmt.add, FpFmt.mul, FpFmt.div, FpVal.times, FpFmt.invalid, FpVal.isNan, FpVal.isSnan]
    | inf | fin => cases h
  | fin a ma xa =>
    cases y with
    | nan b => simp [FpFmt.add, FpFmt.mul, FpFmt.div, FpVal.times, FpFmt.invalid, FpVal.isNan, FpVal.isSnan]
    | inf | fin => cases h

theorem pairFloatInstructions : PairFloatInstructions := by
  refine ⟨fpOperation, fun dbl m b hm f hf => ?_⟩
  have hroomy : f.Roomy := hf ▸ fpFmt_roomy dbl
  refine ⟨fun neg mag exp hb hv => f.round_val hroomy m b neg mag exp hb hv, fun v lo hi hv hlo hhi => f.ofInt_exact hroomy m v lo hi hv hlo hhi,
    fun x y hxy => f.nan_operand m x y hxy, fun neg => ?_, fun na nb mag xa xb hmag => ?_⟩
  · cases neg <;> rfl
  · simp [FpFmt.div, hmag, FpVal.signBit]

/-! ### Exceptions -/

/-- A fetch in machine mode from where the map holds nothing (R46). -/
theorem State.rvFetch_outside (s : State) (p len : Nat) (hm : (s.pair p).umode = false) (h : inMap (s.pair p).pc = false) :
    s.rvFetch p len = .stop (s.trap p 1 (s.pair p).pc) := by
  obtain ⟨hsram, hemram, -, -, -, -, hddr⟩ := inMap_eq_false h
  have hd : s.inDdr (s.pair p).pc = false := by
    have := s.ddrSize_le
    simp only [State.inDdr, decide_eq_false_iff_not]
    unfold ddrBase
    omega
  unfold State.rvFetch
  simp [hm, hsram, hemram, hd, s.absentAt_outside _ h]

theorem State.rvFp_illegal (s : State) (p len n rm : Nat) (f : Nat → Option (DWord × BitVec 5)) (g : Pair → DWord → Pair)
    (h : (s.pair p).curBank.fs = 0 ∨ fpPlain n = false ∧ (s.pair p).rounding rm = none) : s.rvFp p len n rm f g = s.trap p 2 0 := by
  unfold State.rvFp
  obtain h | ⟨hn, hr⟩ := h
  · exact if_pos h
  · by_cases hs : (s.pair p).curBank.fs = 0
    · exact if_pos hs
    · simp only [if_neg hs, hn, hr, Bool.false_eq_true, if_false, Option.bind_none]
      rfl

/-- The apertures of engines and CAN controllers lie apart from the rack, the registers and memory. -/
theorem aperture_apart {a : Nat} (h : inLe a = true ∨ inCan a = true) :
    inRack a = false ∧ inRegs a = false ∧ inSram a = false ∧ inEmram a = false ∧ ∀ s : State, s.inDdr a = false := by
  have ha : 0x41000000 ≤ a ∧ a < 0x41860000 := by
    simp only [inLe, inCan, decide_eq_true_eq] at h
    omega
  have hs : sramBase = 0x10000000 := rfl
  have he : emramBase = 0x20000000 := rfl
  refine ⟨decide_eq_false ?_, decide_eq_false ?_, decide_eq_false ?_, decide_eq_false ?_, fun s => decide_eq_false ?_⟩
  · omega
  · omega
  · rw [hs]; omega
  · rw [he]; omega
  · unfold ddrBase; omega

theorem State.aperture_machine (s : State) (p a : Nat) (hm : (s.pair p).umode = false) : s.aperture p a = (inLe a || inCan a) := by
  rw [State.aperture, hm]
  rfl

/-- An access across a line outside the apertures is misaligned (R46). -/
theorem State.crosses_of (s : State) (p a n : Nat) (hm : (s.pair p).umode = false) (hl : inLe a = false) (hc : inCan a = false)
    (hx : a / 64 ≠ (a + n - 1) / 64) : s.crosses p a n = true := by
  rw [State.crosses, s.aperture_machine p a hm, hl, hc, decide_eq_true hx]
  rfl

theorem State.rvLoadTo_crossing (s : State) (p len size a : Nat) (u fp : Bool) (rd : Fin 32) (hx : s.crosses p a (2 ^ size) = true) :
    s.rvLoadTo p len size a u fp rd = s.trap p 4 a := by
  have hne : ¬ a / 64 = (a + 2 ^ size - 1) / 64 := by
    rw [State.crosses, Bool.and_eq_true, decide_eq_true_eq] at hx
    exact hx.1
  unfold State.rvLoadTo State.rvLoad
  simp [hne, hx]

theorem State.rvStoreFrom_crossing (s : State) (p len size a : Nat) (v : DWord) (hx : s.crosses p a (2 ^ size) = true) :
    s.rvStoreFrom p len size a v = s.trap p 6 a := by
  have hne : ¬ a / 64 = (a + 2 ^ size - 1) / 64 := by
    rw [State.crosses, Bool.and_eq_true, decide_eq_true_eq] at hx
    exact hx.1
  unfold State.rvStoreFrom State.rvStore
  simp [hne, hx]

/-- An access of the apertures that is not aligned to its size ends in an error response (R170, R361). -/
theorem State.busStop_unaligned (s : State) (p a n : Nat) (h : inLe a = true ∨ inCan a = true) (ha : s.absentAt a = false)
    (hb : s.absentAt (a + n - 1) = false) (hn : a % n ≠ 0) : s.busStop p a n = some .error := by
  obtain ⟨-, hregs, -⟩ := aperture_apart h
  unfold State.busStop
  simp only [ha, hb, hregs, Bool.or_self, Bool.false_eq_true, if_false]
  cases hl : inLe a with
  | true => simp [hn]
  | false =>
    have hc : inCan a = true := by simpa [hl] using h
    simp [hc, hn]

theorem State.rvLoadTo_unaligned (s : State) (p len size a : Nat) (u fp : Bool) (rd : Fin 32) (hm : (s.pair p).umode = false)
    (h : inLe a = true ∨ inCan a = true) (hb : s.busStop p a (2 ^ size) = some .error) :
    s.rvLoadTo p len size a u fp rd = s.trap p 5 a := by
  obtain ⟨hrack, -, hsram, hemram, hddr⟩ := aperture_apart h
  have hx : s.crosses p a (2 ^ size) = false := by
    rw [State.crosses, s.aperture_machine p a hm, Bool.or_eq_true_iff.2 h, Bool.not_true, Bool.and_false]
  have hload : s.rvLoad p a (2 ^ size) = .stop (s.trap p 5 a) := by
    unfold State.rvLoad
    simp only [hx, hm, hsram, hemram, hddr, Bool.or_self, Bool.false_eq_true, if_false]
    rw [State.busLoad, hb]
    rfl
  unfold State.rvLoadTo
  rw [hrack, hload]
  simp

theorem State.rvStoreFrom_unaligned (s : State) (p len size a : Nat) (v : DWord) (hm : (s.pair p).umode = false)
    (h : inLe a = true ∨ inCan a = true) (hb : s.busStop p a (2 ^ size) = some .error) :
    s.rvStoreFrom p len size a v = s.trap p 7 a := by
  obtain ⟨hrack, -⟩ := aperture_apart h
  have hx : s.crosses p a (2 ^ size) = false := by
    rw [State.crosses, s.aperture_machine p a hm, Bool.or_eq_true_iff.2 h, Bool.not_true, Bool.and_false]
  have hstore : s.rvStore p a (2 ^ size) v.toNat = .stop (s.trap p 7 a) := by
    unfold State.rvStore
    simp only [hx, hm, Bool.false_eq_true, if_false]
    rw [State.busStore, hb]
    rfl
  unfold State.rvStoreFrom
  rw [hrack, hstore]
  simp

/-- A misaligned AMO, LR or SC outside the apertures (R46). -/
theorem State.atomic_misaligned (s : State) (p a n cause : Nat) (k : Acc) (f : Nat → State) (hm : (s.pair p).umode = false)
    (hl : inLe a = false) (hc : inCan a = false) (hn : a % n ≠ 0) : s.atomic p a n cause k f = s.trap p (if cause = 5 then 4 else 6) a := by
  unfold State.atomic
  rw [s.aperture_machine p a hm, hl, hc]
  simp [hn]

/-- An AMO, LR or SC in an aperture (R170, R361). -/
theorem State.atomic_aperture (s : State) (p a n cause : Nat) (k : Acc) (f : Nat → State) (hm : (s.pair p).umode = false)
    (h : inLe a = true ∨ inCan a = true) (ha : s.absentAt a = false) : s.atomic p a n cause k f = s.trap p cause a := by
  obtain ⟨-, -, hsram, -, hddr⟩ := aperture_apart h
  have hat : s.atomicAt p a n k = none := by
    unfold State.atomicAt
    simp [hm, hsram, hddr]
  unfold State.atomic
  rw [s.aperture_machine p a hm, Bool.or_eq_true_iff.2 h, hat]
  simp [ha]

/-- LR, SC and AMO are made by `atomic` outside the rack and where they are misaligned. -/
theorem State.rvAtomics (s : State) (p len : Nat) (dbl : Bool) (rd : Fin 32) (a : Nat) (v : DWord) (o : AmoOp)
    (h : inRack a = false ∨ a % (if dbl then 8 else 4) ≠ 0) :
    (∃ f, s.rvLr p len dbl rd a = s.atomic p a (if dbl then 8 else 4) 5 .read f) ∧
    (∃ f, s.rvSc p len dbl rd a v = s.atomic p a (if dbl then 8 else 4) 7 .write f) ∧
    (∃ f, s.rvAmo p len o dbl rd a v = s.atomic p a (if dbl then 8 else 4) 7 .write f) := by
  have hsize : 2 ^ (if dbl then 3 else 2) = if dbl then 8 else 4 := by cases dbl <;> rfl
  have hno : (!(s.pair p).umode && inRack a && decide (a % 2 ^ (if dbl then 3 else 2) = 0)) = false := by
    obtain h | h := h
    · simp [h]
    · rw [hsize]
      simp [h]
  rw [← hsize]
  exact ⟨⟨_, if_neg (by rw [hno]; exact Bool.false_ne_true)⟩, ⟨_, if_neg (by rw [hno]; exact Bool.false_ne_true)⟩,
    ⟨_, if_neg (by rw [hno]; exact Bool.false_ne_true)⟩⟩

theorem pairInstructionTraps : PairInstructionTraps := by
  intro p len4 s hi ht hm
  have htrap (cause tval : Nat) := s.takesTrap_trap p cause tval ht
  refine ⟨fun i ho => ⟨s.trap p 1 (s.pair p).pc, ?_, htrap _ _⟩, fun h => ?_⟩
  · show Host.Outcome.next (s.asInsn p (pairInstruction p i len4 ⟨[], []⟩)) = _
    have hr : s.rvReads p ⟨[], []⟩ = s := rfl
    rw [State.asInsn_machine hi hm, pairInstruction]
    simp only [hi.1, hr, Bool.not_true, Bool.false_eq_true, if_false]
    rw [s.rvFetch_outside p _ hm ho]
  · have hgo (i : RvInsn) (cause tval : Nat) (e : s.rvRun p (lengthOf len4) i = s.trap p cause tval) :
        ∃ t, exec (.pairInstruction p i ⟨len4, ⟨[], []⟩⟩) s = .next t ∧ TakesTrap s t p cause tval :=
      ⟨_, (exec_fetched i h).trans (congrArg _ e), htrap _ _⟩
    refine ⟨fun w => hgo _ _ _ rfl, hgo _ _ _ ?_, fun n rm rd rs1 rs2 rs3 dbl ofs => ⟨fun hs => ⟨hgo _ _ _ (if_pos hs), hgo _ _ _ (if_pos hs)⟩,
      fun hs => ⟨hgo _ _ _ (s.rvFp_illegal p _ n rm _ _ hs), hgo _ _ _ (s.rvFp_illegal p _ n rm _ _ hs), hgo _ _ _ (s.rvFp_illegal p _ n rm _ _ hs)⟩⟩,
      fun wd u rd rs1 rs2 ofs a ha => ?_, fun dbl rd rs1 rs2 o a ha => ?_⟩
    · show s.rvEcall p = _
      rw [State.rvEcall, hm]
      rfl
    · subst ha
      refine ⟨fun hl hc hx => ?_, fun hap ha hb hn => ?_⟩
      · have hcr := s.crosses_of p _ _ hm hl hc hx
        exact ⟨hgo _ _ _ (s.rvLoadTo_crossing p _ _ _ u false rd hcr), hgo _ _ _ (s.rvStoreFrom_crossing p _ _ _ _ hcr)⟩
      · have hbus := s.busStop_unaligned p _ _ hap ha hb hn
        exact ⟨hgo _ _ _ (s.rvLoadTo_unaligned p _ _ _ u false rd hm hap hbus), hgo _ _ _ (s.rvStoreFrom_unaligned p _ _ _ _ hm hap hbus)⟩
    · subst ha
      refine ⟨fun hl hc hn => ?_, fun hap ha => ?_⟩
      · obtain ⟨⟨f, hf⟩, ⟨g, hg⟩, ⟨k, hk⟩⟩ := s.rvAtomics p (lengthOf len4) dbl rd ((s.pair p).x rs1).toNat ((s.pair p).x rs2) o (.inr hn)
        exact ⟨hgo _ _ _ (hf.trans (s.atomic_misaligned p _ _ 5 _ f hm hl hc hn)), hgo _ _ _ (hg.trans (s.atomic_misaligned p _ _ 7 _ g hm hl hc hn)),
          hgo _ _ _ (hk.trans (s.atomic_misaligned p _ _ 7 _ k hm hl hc hn))⟩
      · obtain ⟨⟨f, hf⟩, ⟨g, hg⟩, ⟨k, hk⟩⟩ := s.rvAtomics p (lengthOf len4) dbl rd ((s.pair p).x rs1).toNat ((s.pair p).x rs2) o
          (.inl (aperture_apart hap).1)
        exact ⟨hgo _ _ _ (hf.trans (s.atomic_aperture p _ _ 5 _ f hm hap ha)), hgo _ _ _ (hg.trans (s.atomic_aperture p _ _ 7 _ g hm hap ha)),
          hgo _ _ _ (hk.trans (s.atomic_aperture p _ _ 7 _ k hm hap ha))⟩

/-- Settles O12. -/
theorem pairInstructions : Obligations.PairInstructions := ⟨pairIntegerInstructions, pairFloatInstructions, pairInstructionTraps⟩

end Sys2Proof.Machine
end

section
/-! SUPPORT. The banks of a pair: preloads, saves and switches; what the clock leaves of a pair (R48, R53, R100, R101). -/
namespace Sys2Proof.Machine
open Sys2Proof.Claims
set_option Elab.async false

/-! ### Pairs, units and tasks stand apart -/

@[simp] theorem State.pair_setUnit (s : State) (p q : Nat) (x : UnitSt) : (s.setUnit p x).pair q = s.pair q := rfl
@[simp] theorem State.pair_setTask (s : State) (n q : Nat) (x : TaskSt) : (s.setTask n x).pair q = s.pair q := rfl
@[simp] theorem State.unit_setTask (s : State) (n u : Nat) (x : TaskSt) : (s.setTask n x).unit u = s.unit u := rfl
@[simp] theorem State.unit_modPair (s : State) (p u : Nat) (f : Pair → Pair) : (s.modPair p f).unit u = s.unit u := rfl
@[simp] theorem State.task_modPair (s : State) (p n : Nat) (f : Pair → Pair) : (s.modPair p f).task n = s.task n := rfl

/-! ### Bank states -/

theorem Pair.bankSt_setBankSt_same (q : Pair) (b : Nat) (v : BankSt) : (q.setBankSt b v).bankSt b = v := tget_tput_same _ _ _ _
theorem Pair.bankSt_setBankSt_other (q : Pair) (b c : Nat) (v : BankSt) (h : c ≠ b) : (q.setBankSt b v).bankSt c = q.bankSt c :=
  tget_tput_other _ _ _ _ _ h

/-! ### Preloads and saves -/

theorem preloadBegins (p : Fin 4) (w st b : Nat) (s : State) (hf : s.pairFitted p = true) (ha : s.alive = true) (hz : (s.pair p).frozen = false)
    (hw : s.wantWin p = some (w, st)) (hn : (s.unit p).preWin = none) (hb : (s.pair p).freeBank = some b) :
    ∃ t, exec (.preloadStart p) s = .next t ∧ (t.pair p).bankSt b = .loading ∧ (t.unit p).preWin = some w ∧
      (∀ c, c ≠ b → (t.pair p).bankSt c = (s.pair p).bankSt c ∧ (t.pair p).bank c = (s.pair p).bank c) ∧ PairsBut s t p ∧
      t = { s with pairs := t.pairs, hx := t.hx } := by
  have hexec : exec (.preloadStart p) s = .next (s.loadWin p w) := by
    show Host.Outcome.next (preloadStart p s) = _
    unfold preloadStart
    simp [hf, ha, hz, hw, hn, hb]
  have hload : s.loadWin p w = (s.modPair p fun q => (q.setBankSt b .loading).setBank b
      { q.bank b with task := ((s.window? w).map fun d => d.task).getD 0 }).setUnit p { s.unit p with preWin := some w } := by
    unfold State.loadWin
    rw [hb]
  have hpair : (s.loadWin p w).pair p = ((s.pair p).setBankSt b .loading).setBank b
      { (s.pair p).bank b with task := ((s.window? w).map fun d => d.task).getD 0 } := by
    rw [hload, State.pair_setUnit, s.pair_modPair_same]
  refine ⟨_, hexec, ?_, ?_, fun c hc => ⟨?_, ?_⟩, fun q hq => ?_, ?_⟩
  · rw [hpair]
    exact Pair.bankSt_setBankSt_same _ _ _
  · rw [hload, State.unit_setUnit_same]
  · rw [hpair]
    exact Pair.bankSt_setBankSt_other _ _ _ _ hc
  · rw [hpair, Pair.bank_setBank_other _ _ _ _ hc]
    rfl
  · rw [hload, State.pair_setUnit, s.pair_modPair_other p q _ hq]
  · rw [hload]
    rfl

/-- No window opens on a unit that none has begun on. -/
theorem State.tryOpen_closed (s : State) (u : Nat) (h : (s.unit u).win = none) : s.tryOpen u = s := by
  unfold State.tryOpen
  simp only [h]

/-- The first of the four banks that satisfies a condition. -/
theorem find_bank {f : Nat → Bool} {b : Nat} (hb : b < 4) (hf : f b = true) (h : ∀ c, c < b → f c = false) : [0, 1, 2, 3].find? f = some b := by
  have h0 := h 0
  have h1 := h 1
  have h2 := h 2
  interval_cases b <;> simp_all

theorem preloadEnds (p : Fin 4) (w b : Nat) (d : Window) (s : State) (hz : (s.pair p).frozen = false) (hb : b < 4)
    (hl : (s.pair p).bankSt b = .loading) (hfirst : ∀ c, c < b → (s.pair p).bankSt c ≠ .loading) (hs : (s.unit p).slackPre = none)
    (hp : (s.unit p).preWin = some w) (hw : s.window? w = some d) (hn : (s.unit p).win = none) :
    ∃ t, exec (.preloadDone p) s = .next t ∧ (t.pair p).bankSt b = .preloaded ∧ (t.pair p).bank b = s.ctxOf d.task ∧
      (t.pair p).pre = some b ∧ PairsBut s t p ∧ t = { s with pairs := t.pairs } := by
  have hfind : [0, 1, 2, 3].find? (fun c => (s.pair p).bankSt c == .loading && (none : Option Nat) != some c) = some b :=
    find_bank hb (by simp [hl]) fun c hc => by simp [hfirst c hc]
  have hexec : exec (.preloadDone p) s = .next (s.modPair p fun q =>
      { (q.setBank b (s.ctxOf d.task)).setBankSt b .preloaded with pre := some b }) := by
    show Host.Outcome.next (preloadDone p s) = _
    have hlate : ((none : Option Nat) == some w) = false := rfl
    unfold preloadDone
    simp only [hz, hs, Option.map_none, hfind, hp, Option.bind_some, hw, hn, Bool.false_eq_true, if_false, hlate, Bool.false_and]
    rw [State.tryOpen_closed _ _ (by rw [State.unit_modPair, hn])]
  refine ⟨_, hexec, ?_, ?_, ?_, fun q hq => s.pair_modPair_other p q _ hq, rfl⟩
  · rw [s.pair_modPair_same]
    exact Pair.bankSt_setBankSt_same _ _ _
  · rw [s.pair_modPair_same]
    exact Pair.bank_setBank_same _ _ _
  · rw [s.pair_modPair_same]

theorem saveEnds (p b : Fin 4) (s : State) (h : (s.pair p).bankSt b = .saving) : ∃ t, exec (.saveDone p b) s = .next t ∧
    (t.pair p).bankSt b = .free ∧ (∀ c, c ≠ b.val → (t.pair p).bankSt c = (s.pair p).bankSt c) ∧ PairsBut s t p ∧
    t = { s with pairs := t.pairs } := by
  have hexec : exec (.saveDone p b) s = .next (s.modPair p fun q => q.setBankSt b .free) := by
    show Host.Outcome.next (saveDone p b s) = _
    rw [saveDone, if_pos h]
  refine ⟨_, hexec, ?_, fun c hc => ?_, fun q hq => s.pair_modPair_other p q _ hq, rfl⟩
  · rw [s.pair_modPair_same, Pair.bankSt_setBankSt_same]
  · rw [s.pair_modPair_same, Pair.bankSt_setBankSt_other _ _ _ _ hc]

theorem preloads : Preloads := ⟨preloadBegins, preloadEnds, saveEnds⟩

/-! ### The opening of a window on a pair -/

/-- Taking a stopped task's context changes nothing but that task's context and the note of it. -/
theorem State.takeSave_unit (s : State) (p pc : Nat) : ∃ d, (s.takeSave p pc).unit p = { s.unit p with saveDue := d } := by
  unfold State.takeSave
  cases h : (s.unit p).saveDue with
  | none => exact ⟨(s.unit p).saveDue, rfl⟩
  | some n => exact ⟨none, State.unit_setUnit_same _ _ _⟩

/-- The pair with its preloaded bank in use. -/
def Pair.openWith (b : Nat) (c : Bank) (q : Pair) : Pair := { q.switchTo b c with pre := none }

/-- The unit with its window open. -/
def UnitSt.opens (x : UnitSt) : UnitSt := { x with opened := true, began := false, preWin := none }

/-- What the opening of a window on a pair does, but for what is recorded of it (R53, R101). -/
def State.openOn (s : State) (p b : Nat) : State :=
  let n := (s.unit p).task
  let v := s.takeSave p (s.pair p).mepc
  ((v.modPair p (Pair.openWith b (v.ctxOf n))).setUnit p (UnitSt.opens (v.unit p))).setTask n { v.task n with st := .running }

/-- What is recorded of an opening: a wake that came late, machine-mode code that delayed it (R53, R116). -/
def State.openNotes (s v : State) (p : Nat) : State :=
  let x := s.unit p
  let q := s.pair p
  let v := if x.start < tget natD v.pwr.awakeAt p then (v.raise 36).report .WAKE_LATE srcHx [p, (v.clk.t - x.start) / 2] else v
  if x.mm then (v.raise 37).report .MMODE_OVERRUN srcHx [p, (v.clk.t - x.start) / 2, q.entryM, q.entryM / 2 ^ 32, q.entryU, q.entryU / 2 ^ 32]
  else v

theorem State.tryOpen_pair (s : State) (p w b : Nat) (hp : p < 4) (hw : (s.unit p).win = some w) (ho : (s.unit p).opened = false)
    (he : (s.unit p).ended = false) (hpw : (s.unit p).preWin = some w) (hb : (s.pair p).pre = some b) (ha : s.awake p = true)
    (hu : (s.pair p).umode = true ∨ (s.pair p).wfi = true) (hi : (s.pair p).idle = false) (hd : (s.pair p).diverged = false) :
    s.tryOpen p = s.openNotes (s.openOn p b) p := by
  have hc : (some w = some w ∧ s.awake p = true ∧ ((s.pair p).umode = true ∨ (s.pair p).wfi = true) ∧ (!(s.pair p).idle) = true ∧
      (!(s.pair p).diverged) = true) := ⟨rfl, ha, hu, by simp [hi], by simp [hd]⟩
  unfold State.tryOpen
  simp only [hw, ho, he, hb, hpw, Bool.or_self, Bool.false_eq_true, if_false, if_neg (Nat.not_le.2 hp)]
  rw [if_pos (by simpa using hc)]
  rfl

/-- What an opening leaves of the pair and its unit. -/
theorem State.openOn_spec (s : State) (p b : Nat) :
    (s.openOn p b).pair p = Pair.openWith b ((s.takeSave p (s.pair p).mepc).ctxOf (s.unit p).task) (s.pair p) ∧
    (∃ d, (s.openOn p b).unit p = { UnitSt.opens (s.unit p) with saveDue := d }) ∧
    (s.openOn p b).task (s.unit p).task = { (s.takeSave p (s.pair p).mepc).task (s.unit p).task with st := .running } ∧
    PairsBut s (s.openOn p b) p ∧ s.openOn p b = { s with pairs := (s.openOn p b).pairs, hx := (s.openOn p b).hx } := by
  obtain ⟨heq, -⟩ := s.takeSave_eq p (s.pair p).mepc
  obtain ⟨d, hd⟩ := s.takeSave_unit p (s.pair p).mepc
  unfold State.openOn
  dsimp only
  generalize s.takeSave p (s.pair p).mepc = v at heq hd
  have hpair (q : Nat) : v.pair q = s.pair q := by rw [heq]; rfl
  refine ⟨?_, ⟨d, ?_⟩, ?_, fun q hq => ?_, ?_⟩
  · rw [State.pair_setTask, State.pair_setUnit, State.pair_modPair_same, hpair]
  · rw [State.unit_setTask, State.unit_setUnit_same, hd]
    rfl
  · rw [State.task_setTask_same]
  · rw [State.pair_setTask, State.pair_setUnit, State.pair_modPair_other _ _ _ _ hq, hpair]
  · rw [heq]
    rfl

/-- The notes of an opening change the records, the sources and registers. -/
theorem State.openNotes_eq (s v : State) (p : Nat) :
    s.openNotes v p = { v with regs := (s.openNotes v p).regs, vdx := (s.openNotes v p).vdx, rcd := (s.openNotes v p).rcd } := by
  have hnote (v : State) (n : Nat) (c : RCode) (src : Nat) (l : List Nat) : ∃ r x d, (v.raise n).report c src l = { v with regs := r, vdx := x, rcd := d } := by
    obtain ⟨r, x, e⟩ := v.raise_sources n
    rw [e]
    exact ⟨_, _, _, rfl⟩
  obtain ⟨r, x, d, e⟩ : ∃ r x d, s.openNotes v p = { v with regs := r, vdx := x, rcd := d } := by
    unfold State.openNotes
    extract_lets _ _ w
    obtain ⟨r, x, d, e⟩ : ∃ r x d, w = { v with regs := r, vdx := x, rcd := d } := by
      unfold w
      split
      exacts [hnote _ _ _ _ _, ⟨_, _, _, rfl⟩]
    split
    · obtain ⟨r', x', d', e'⟩ := hnote w 37 .MMODE_OVERRUN srcHx
        [p, (w.clk.t - (s.unit p).start) / 2, (s.pair p).entryM, (s.pair p).entryM / 2 ^ 32, (s.pair p).entryU, (s.pair p).entryU / 2 ^ 32]
      exact ⟨r', x', d', e'.trans (by rw [e])⟩
    · exact ⟨r, x, d, e⟩
  rw [e]

/-- A switch brings the bank with its context into use, in user mode (R53, R59, R100). -/
theorem Pair.switchTo_spec (q : Pair) (b : Nat) (c : Bank) :
    (q.switchTo b c).cur = b ∧ (q.switchTo b c).umode = true ∧ (q.switchTo b c).wfi = false ∧ (q.switchTo b c).curBank = c ∧
    (q.switchTo b c).bankSt b = .current ∧ (q.switchTo b c).resv = none ∧
    (q.cur ≠ b → q.bankSt q.cur = .current → (q.switchTo b c).bankSt q.cur = .saving) := by
  refine ⟨rfl, rfl, rfl, ?_, ?_, rfl, fun hne hc => ?_⟩
  · exact tget_tput_same _ _ _ _
  · exact tget_tput_same _ _ _ _
  · unfold Pair.switchTo
    rw [if_pos hc]
    exact (tget_tput_other _ _ _ _ _ hne).trans (Pair.bankSt_setBankSt_same _ _ _)

/-- The instants of macroticks follow from the cycle timer, the protocol engine and the configuration in force. -/
theorem State.mt_congr {s t : State} (hcfg : t.cfg = s.cfg) (hcyc : t.cyc = s.cyc) (hgh : t.gh = s.gh) (hsch : t.hx.sched = s.hx.sched) (k : Nat) :
    t.mt k = s.mt k := by
  simp only [State.mt, State.mtAt, State.cycleLen, State.ghLen, State.mtOfs, State.drift, State.tg, State.tgMt, State.clu, hcfg, hcyc, hgh, hsch] <;> rfl

theorem State.sched_takeSave (s : State) (p pc : Nat) : (s.takeSave p pc).hx.sched = s.hx.sched := by
  unfold State.takeSave
  split <;> rfl

theorem deferredSwitch : DeferredSwitch := by
  intro p w b s hf ha hw ho he hpw hb _ hu hi hd hm hs
  have hawake : s.get (F.PWR_PAIRCLK_STATE p) = 0 ∧ tget natD s.pwr.awakeAt p ≤ s.clk.t := by
    simpa [State.awake] using ha
  have hexec : exec (.bankSwitch p) s = .next (s.openNotes (s.openOn p b) p) := by
    show Host.Outcome.next (bankSwitch p s) = _
    unfold bankSwitch
    simp only [hf, hw, ho, he, hawake.1, Option.isSome_some, Bool.not_false, Bool.and_self, beq_self_eq_true, if_true]
    rw [State.advance, if_pos hawake.2, s.tryOpen_pair p w b p.isLt hw ho he hpw hb ha hu hi hd]
  obtain ⟨hpair, ⟨d, hunit⟩, -, hbut, heq⟩ := s.openOn_spec p b
  obtain ⟨hcur, humode, -, hbank, -⟩ := (s.pair p).switchTo_spec b ((s.takeSave p (s.pair p).mepc).ctxOf (s.unit p).task)
  have hkeep := s.openNotes_eq (s.openOn p b) p
  have hnotes : s.openNotes (s.openOn p b) p = ((s.openOn p b).raise 37).report .MMODE_OVERRUN srcHx
      [p, ((s.openOn p b).clk.t - (s.unit p).start) / 2, (s.pair p).entryM, (s.pair p).entryM / 2 ^ 32, (s.pair p).entryU,
        (s.pair p).entryU / 2 ^ 32] := by
    have hpwr : (s.openOn p b).pwr = s.pwr := by rw [heq]
    unfold State.openNotes
    simp only [hm, if_true, hpwr, if_neg (Nat.not_lt.2 hs)]
  generalize s.openNotes (s.openOn p b) p = t at hexec hkeep hnotes
  have hp (q : Nat) : t.pair q = (s.openOn p b).pair q := by rw [hkeep]; rfl
  have hx : t.hx = (s.openOn p b).hx := by rw [hkeep]
  have hun : t.unit p = (s.openOn p b).unit p := by rw [State.unit, hx]; rfl
  have hrest : t.clk = s.clk ∧ t.cfg = s.cfg ∧ t.mem = s.mem ∧ t.cyc = s.cyc ∧ t.gh = s.gh := by
    rw [hkeep, heq]
    exact ⟨rfl, rfl, rfl, rfl, rfl⟩
  obtain ⟨-, hcfg, hmem, hcyc, hgh⟩ := hrest
  have hsched : t.hx.sched = s.hx.sched := by
    rw [hx]
    exact s.sched_takeSave p _
  have hclk : (s.openOn p b).clk = s.clk := by rw [heq]
  refine ⟨t, hexec, ?_, ?_, ?_, ?_, ?_, ?_, ?_, fun q hq => (hp q).trans (hbut q hq), hmem⟩
  · rw [hp, hpair]; exact hcur
  · rw [hp, hpair]; exact hbank
  · rw [hp, hpair]; exact humode
  · rw [hun, hunit]
    rfl
  · rw [State.budgetAt, State.mt_congr hcfg hcyc hgh hsched, hun, hunit]
    rfl
  · have hrcd : ((s.openOn p b).raise 37).rcd = s.rcd := by
      obtain ⟨r, v, e⟩ := (s.openOn p b).raise_sources 37
      rw [e, heq]
    rw [hnotes, hclk]
    exact ⟨_, by rw [State.report, hrcd], rfl, rfl⟩
  · have h := (s.openOn p b).pulses_raise 37 rfl
    rw [State.fab, hclk] at h
    rw [hnotes]
    exact h

/-- Settles O19. -/
theorem preloadsAndSwitches : Obligations.PreloadsAndSwitches := ⟨preloads, deferredSwitch⟩

end Sys2Proof.Machine
end

section
/-! SUPPORT. The start of a window on an engine and on a pair (R53, R100 to R102, R113, R115, R185, R222). -/
namespace Sys2Proof.Machine
open Sys2Proof.Claims
set_option Elab.async false

/-! ### What the clock leaves of a pair -/

/-- `q` is the pair `r` at another instant: its counters alone follow the clock (R48). -/
def Pair.Counted (r q : Pair) : Prop := ∃ c h, q = { r with mcycle := c, hpm4 := h }

theorem Pair.Counted.refl (q : Pair) : q.Counted q := ⟨q.mcycle, q.hpm4, rfl⟩

theorem Pair.Counted.count {r q : Pair} (h : r.Counted q) (dt : Nat) : r.Counted (q.count dt) := by
  obtain ⟨c, k, rfl⟩ := h
  unfold Pair.count
  dsimp only
  split_ifs
  exacts [⟨_, _, rfl⟩, ⟨_, _, rfl⟩, ⟨_, _, rfl⟩, ⟨_, _, rfl⟩]

theorem State.pair_countCycles (s : State) (dt p : Nat) : (s.pair p).Counted ((s.countCycles dt).pair p) := by
  unfold State.countCycles
  split
  · exact .refl _
  · refine foldl_keeps (fun v : State => (s.pair p).Counted (v.pair p)) _ (fun v q h => ?_) _ _ (.refl _)
    split
    · by_cases hq : p = q
      · subst hq
        rw [State.pair_modPair_same]
        exact h.count dt
      · rw [State.pair_modPair_other _ _ _ _ hq]
        exact h
    · exact h

/-- A pair at a later instant. -/
theorem State.pair_advance (s : State) (t p : Nat) : (s.pair p).Counted ((s.advance t).pair p) := by
  unfold State.advance
  split
  · exact .refl _
  · have hc := s.pair_countCycles (t - s.clk.t) p
    generalize s.countCycles (t - s.clk.t) = v at hc
    obtain ⟨r, x, e⟩ := State.dropPulses_sources { v with clk := { s.clk with t := t } }
    rw [e]
    obtain ⟨r', o, e'⟩ := State.runSwitches_outputs { v with clk := { s.clk with t := t }, regs := r, vdx := x }
    rw [e']
    exact hc

/-! ### The beginning of a window -/

/-- A fresh activation of a task (R101, R102, R111). -/
def State.freshTask (s : State) (n : Nat) (t : Task) : TaskSt :=
  { s.task n with st := .running, cont := 0, exec := 0, since := none, ctx := initCtx n t,
                  imgVer := (List.range 4).map fun g => (s.grp g).ver, frzCount := (s.grp t.group).frzCount }

/-- The first window of an idle task dispatches a fresh activation, whose working buffer takes the committed contribution (R27, R102). -/
theorem State.dispatch_fresh (s : State) (n : Nat) (t : Task) (d : Window) (hl : d.wflags.testBit 0 = true) (hi : (s.task n).st = .idle) :
    ∃ c, s.dispatch n t d = some { s.setTask n (s.freshTask n t) with cyc := c } ∧ (4 ≤ t.unit → c = s.cyc) := by
  have hf : s.dispatch n t d = some (if t.cls = 2 ∨ 4 ≤ t.unit then s.setTask n (s.freshTask n t) else (s.setTask n (s.freshTask n t)).freshWork n t) := by
    unfold State.dispatch State.freshTask
    simp only [hi, hl, if_true]
    by_cases hc : t.cls = 2
    · simp only [hc, if_true]
    · simp [hc]
  rw [hf]
  by_cases hc : t.cls = 2 ∨ 4 ≤ t.unit
  · rw [if_pos hc]
    exact ⟨s.cyc, rfl, fun _ => rfl⟩
  · rw [if_neg hc]
    exact ⟨_, rfl, fun h => absurd (.inr h) hc⟩

/-- A window that is due begins at its START with what it dispatches (R113). -/
theorem windowStart_due {s s₁ : State} {w : Nat} {d : Window} {td : Task} (h : WindowDue s w d td)
    (hst : td.cls = 0 → td.unit < 4 → (s.advance (s.mt (startMt s d))).stagedOk w (startMt s d) = true)
    (hd : (s.advance (s.mt (startMt s d))).dispatch d.task td d = some s₁) :
    windowStart w s = if 4 ≤ td.unit then (s₁.beginWin w (startMt s d) d td.unit false false).tryOpen td.unit
      else (s₁.beginWin w (startMt s d) d td.unit false false).settle td.unit := by
  obtain ⟨hw, ht, hdis, hfit, hu, hdue, hlast, hwin, hslack, hruns⟩ := h
  have hfroz : s.timerFrozen td.unit = false := by
    unfold State.timerFrozen
    simp only [hwin]
    cases (s.unit td.unit).haltedAt <;> rfl
  have hx : (s.advance (s.mt (startMt s d))).hx = s.hx := by
    obtain ⟨-, -, -, hx, -⟩ := (s.advance_moves (s.mt (startMt s d))).1.same
    exact hx
  have hjoin (v : State) (hv : v.hx = s.hx) : v.joins td.unit (startMt s d) d = false := by
    have hvu : (v.unit td.unit).win = none := by rw [State.unit, hv]; exact hwin
    unfold State.joins
    simp [hvu]
  have hunit : (s.advance (s.mt (startMt s d))).unit td.unit = s.unit td.unit := by rw [State.unit, hx]; rfl
  have hbudget : (s.advance (s.mt (startMt s d))).budgetOver td.unit = s.advance (s.mt (startMt s d)) := by
    unfold State.budgetOver
    simp only [hunit, hwin]
  have hpause : (s.advance (s.mt (startMt s d))).slackPause td.unit = s.advance (s.mt (startMt s d)) := by
    unfold State.slackPause
    simp only [hunit, hslack]
  have hstart : ¬ s.mt (startMt s d + d.budget) ≤ max (s.mt (startMt s d)) s.clk.t := Nat.not_le.2 hdue
  have hl : ((s.unit td.unit).lastStart == some (startMt s d)) = false := by simpa using hlast
  have hm : s.hx.frameMt + d.start = startMt s d := rfl
  have hat : s.startAt d = s.mt (startMt s d) := rfl
  unfold windowStart
  simp only [hw, ht, hm, hwin, Option.isSome_none, Bool.false_and, Bool.false_eq_true, if_false, hat, hdis, hfit, hfroz, decide_eq_false hstart,
    hl, Bool.not_true, Bool.or_self, hjoin _ hx, hbudget, hpause, hruns, hd]
  rw [if_neg]
  rintro ⟨hc, hu4, hno⟩
  simp [hst hc hu4] at hno

/-- The unit of a window that has begun. -/
theorem State.beginWin_unit (s : State) (w m : Nat) (d : Window) (u : Nat) (o e : Bool) :
    (s.beginWin w m d u o e).unit u = { s.unit u with
      win := some w, task := d.task, endMt := m + d.budget, ext := 0, opened := o, ended := e, start := s.mt m,
      lastStart := some m, lastWin := w, mm := decide (u < 4) && !((s.pair u).umode || (s.pair u).wfi), seen := [] } :=
  State.unit_setUnit_same _ _ _

/-! ### Engines -/

/-- A window that has begun opens on an engine that tests nothing, and a scan starts (R185). -/
theorem State.tryOpen_engine (s : State) (e w : Nat) (td : Task) (hw : (s.unit (4 + e)).win = some w) (ho : (s.unit (4 + e)).opened = false)
    (he : (s.unit (4 + e)).ended = false) (ht : s.taskD? (s.unit (4 + e)).task = some td) (hn : (s.eng e).testing = none) :
    s.tryOpen (4 + e) = (s.setUnit (4 + e) { s.unit (4 + e) with opened := true, began := false }).scanStart e (s.unit (4 + e)).task td := by
  unfold State.tryOpen
  simp only [hw, ho, he, Bool.or_self, Bool.false_eq_true, if_false, if_pos (Nat.le_add_right 4 e), ht, Nat.add_sub_cancel_left, hn,
    Option.isSome_none]

/-- What the start of a scan leaves (R185, R222). -/
theorem State.scanStart_spec (s : State) (e n : Nat) (t : Task) (hn : n < 1024) :
    (s.scanStart e n t).eng e = { s.eng e with
      wa := 0, xr := 0, bs := [], cs := [], pc := t.entry, cost := 0,
      start := max s.clk.t (tget natD (s.grp t.group).leReady e), shadow := [] } ∧
    (s.scanStart e n t).la e = false ∧ (s.scanStart e n t).get (F.LE_STAT_STATE e) = 1 ∧ (s.scanStart e n t).get (F.LE_STAT_TASK e) = n ∧
    EnginesBut s (s.scanStart e n t) e ∧
    s.scanStart e n t = { s with regs := (s.scanStart e n t).regs, engines := (s.scanStart e n t).engines } := by
  unfold State.scanStart
  dsimp only
  refine ⟨State.eng_setEng_same _ _ _, ?_, ?_, ?_, fun k hk => State.eng_setEng_other _ _ _ _ hk, rfl⟩
  · rw [State.la, State.flag, State.get_set_same _ _ _ (Nat.le_of_ble_eq_true rfl)]
    rfl
  · rw [State.get_set_beside _ _ _ _ (.inr (Nat.le_of_ble_eq_true rfl)), State.get_set_beside _ _ _ _ (.inr (Nat.le_of_ble_eq_true rfl)), State.get_set_same _ _ _ (Nat.le_of_ble_eq_true rfl)]
    rfl
  · rw [State.get_set_beside _ _ _ _ (.inr (Nat.le_of_ble_eq_true rfl)), State.get_set_same _ _ _ (Nat.le_of_ble_eq_true rfl)]
    exact Nat.mod_eq_of_lt hn

theorem windowStartEngine : WindowStartEngine := by
  intro w d td s e hdue hu hn hl hc hi ht
  obtain ⟨hmoves, hclk⟩ := s.advance_moves (s.mt (startMt s d))
  obtain ⟨hw, htd, -⟩ := id hdue
  have hkeep : (s.advance (s.mt (startMt s d))).hx = s.hx ∧ (s.advance (s.mt (startMt s d))).engines = s.engines ∧
      (s.advance (s.mt (startMt s d))).cyc = s.cyc ∧ (s.advance (s.mt (startMt s d))).mem = s.mem := by
    obtain ⟨_, _, _, _, _, e⟩ := hmoves
    rw [e]
    exact ⟨rfl, rfl, rfl, rfl⟩
  set v := s.advance (s.mt (startMt s d)) with hv
  obtain ⟨hhx, heng, hcyc, hmem⟩ := hkeep
  obtain ⟨c, hdis, hcc⟩ := v.dispatch_fresh d.task td d hl (by rw [State.task, hhx]; exact hi)
  rw [hcc (by omega)] at hdis
  have hexec := windowStart_due hdue (fun _ h4 => absurd h4 (by omega)) hdis
  rw [if_pos (by omega), hu] at hexec
  change windowStart w s = ((v.setTask d.task (v.freshTask d.task td)).beginWin w (startMt s d) d (4 + e) false false).tryOpen (4 + e) at hexec
  set y := (v.setTask d.task (v.freshTask d.task td)).beginWin w (startMt s d) d (4 + e) false false with hy
  have hyu : y.unit (4 + e) = _ := State.beginWin_unit _ w (startMt s d) d (4 + e) false false
  have hyd : y.taskD? (y.unit (4 + e)).task = some td := by
    rw [hyu]
    show v.hx.sched.tasks[d.task]? = _
    rw [hhx]
    exact htd
  have hye : y.eng e = s.eng e := by show tget _ v.engines e = _; rw [heng]; rfl
  rw [y.tryOpen_engine e w td (by rw [hyu]) (by rw [hyu]) (by rw [hyu]) hyd (by rw [hye]; exact ht)] at hexec
  set z := y.setUnit (4 + e) { y.unit (4 + e) with opened := true, began := false } with hz
  have htask : (y.unit (4 + e)).task = d.task := by rw [hyu]
  rw [htask] at hexec
  obtain ⟨h1, h2, h3, h4, h5, h6⟩ := z.scanStart_spec e d.task td hn
  have hzunit : z.unit (4 + e) = { y.unit (4 + e) with opened := true, began := false } := State.unit_setUnit_same _ _ _
  have hzgrp (g : Nat) : z.grp g = s.grp g := by show tget _ v.cyc.groups g = _; rw [hcyc]; rfl
  have hzeng (k : Nat) : z.eng k = s.eng k := by show tget _ v.engines k = _; rw [heng]; rfl
  have hztask : z.task d.task = v.freshTask d.task td := v.task_setTask_same d.task (v.freshTask d.task td)
  generalize z.scanStart e d.task td = t at hexec h1 h2 h3 h4 h5 h6
  have htc : t.clk.t = v.clk.t := by rw [h6]; rfl
  have htu : t.unit (4 + e) = z.unit (4 + e) := by rw [h6]; rfl
  have htt : t.task d.task = z.task d.task := by rw [h6]; rfl
  refine ⟨t, (congrArg Host.Outcome.next hexec), htc.trans hclk, ?_, h2, h3, h4, ?_, ?_, ?_, fun k hk => (h5 k hk).trans (hzeng k), ?_⟩
  · rw [h1, hzeng, hzgrp, htc]
    rfl
  · rw [htt, hztask]
    rfl
  · rw [htt, hztask]
    rfl
  · rw [hu, Holds, htu, hzunit, hyu]
    exact ⟨rfl, rfl, rfl, rfl, rfl, rfl⟩
  · rw [h6]
    exact hmem

/-! ### Pairs -/

/-- A pair whose window is open is left as it is (R107). -/
theorem State.settle_open (s : State) (u : Nat) (hu : u < 4) (ho : ((s.tryOpen u).unit u).opened = true) (he : ((s.tryOpen u).unit u).ended = false) :
    s.settle u = s.tryOpen u := by
  unfold State.settle
  simp only [if_neg (Nat.not_le.2 hu), ho, he, Bool.not_false, Bool.and_self, Bool.true_or, if_true]

theorem windowStartPair : WindowStartPair := by
  intro w b d td s u hdue hu h4 hl hi hst hb _ hpw ha hum hid hsd
  subst hu
  obtain ⟨hmoves, -⟩ := s.advance_moves (s.mt (startMt s d))
  obtain ⟨hw, htd, -, -, -, -, -, -, -, hruns⟩ := id hdue
  obtain ⟨cm, ch, hpairv⟩ := s.pair_advance (s.mt (startMt s d)) td.unit
  have hkeep : (s.advance (s.mt (startMt s d))).hx = s.hx ∧ (s.advance (s.mt (startMt s d))).mem = s.mem := by
    obtain ⟨_, _, _, _, _, e⟩ := hmoves
    rw [e]
    exact ⟨rfl, rfl⟩
  set v := s.advance (s.mt (startMt s d)) with hv
  obtain ⟨hhx, hmem⟩ := hkeep
  have hunitv (k : Nat) : v.unit k = s.unit k := by rw [State.unit, hhx]; rfl
  obtain ⟨c, hdis, -⟩ := v.dispatch_fresh d.task td d hl (by rw [State.task, hhx]; exact hi)
  have hexec := windowStart_due hdue (fun hc _ => hst hc) hdis
  rw [if_neg (by omega)] at hexec
  set x : State := { v.setTask d.task (v.freshTask d.task td) with cyc := c } with hx
  set y := x.beginWin w (startMt s d) d td.unit false false with hy
  have hyu : y.unit td.unit = _ := x.beginWin_unit w (startMt s d) d td.unit false false
  have hyp (q : Nat) : y.pair q = v.pair q := rfl
  have hdiv : (v.pair td.unit).diverged = false := by
    simp only [State.taskRuns, Bool.and_eq_true, Bool.not_eq_true'] at hruns
    exact hruns.1.2
  have hopen := y.tryOpen_pair td.unit w b h4 (by rw [hyu]) (by rw [hyu]) (by rw [hyu])
    (by rw [hyu]; show (v.unit td.unit).preWin = _; rw [hunitv]; exact hpw) (by rw [hyp, hpairv]; exact hb) ha
    (by rw [hyp, hpairv]; exact hum) (by rw [hyp, hpairv]; exact hid) (by rw [hyp]; exact hdiv)
  obtain ⟨h1, ⟨sd, h2⟩, h3, h5, h6⟩ := y.openOn_spec td.unit b
  have h7 := y.openNotes_eq (y.openOn td.unit b) td.unit
  have htake : y.takeSave td.unit (y.pair td.unit).mepc = y :=
    (y.takeSave_eq td.unit _).2.1 (by rw [hyu]; show (v.unit td.unit).saveDue = _; rw [hunitv]; exact hsd)
  have hytask : (y.unit td.unit).task = d.task := by rw [hyu]
  have hyt : y.task d.task = v.freshTask d.task td := v.task_setTask_same d.task (v.freshTask d.task td)
  have hctx : y.ctxOf d.task = initCtx d.task td := by
    have hd : y.taskD? d.task = some td := by
      show v.hx.sched.tasks[d.task]? = _
      rw [hhx]
      exact htd
    unfold State.ctxOf
    rw [hd, hyt]
    rfl
  rw [htake, hytask] at h1 h3
  rw [hctx] at h1
  rw [hyt] at h3
  obtain ⟨hcur, humode, hwfi, hbank, hbst, hresv, hsave⟩ := (y.pair td.unit).switchTo_spec b (initCtx d.task td)
  generalize y.openNotes (y.openOn td.unit b) td.unit = t at hopen h7
  have htp (q : Nat) : t.pair q = (y.openOn td.unit b).pair q := by rw [h7]; rfl
  have htu : t.unit td.unit = (y.openOn td.unit b).unit td.unit := by rw [h7]; rfl
  have htt : t.task d.task = (y.openOn td.unit b).task d.task := by rw [h7]; rfl
  have htun : t.unit td.unit = { UnitSt.opens (y.unit td.unit) with saveDue := sd } := htu.trans h2
  have hsettle : y.settle td.unit = t := by
    rw [y.settle_open td.unit h4 (by rw [hopen, htun]; rfl) (by rw [hopen, htun, hyu]; rfl), hopen]
  refine ⟨t, congrArg Host.Outcome.next (hexec.trans hsettle), ?_, ?_, ?_, ?_, ?_, ?_, ?_, fun hne hcr => ?_, ?_, ?_, ?_, ?_, ?_, fun q hq => ?_, ?_⟩
  · rw [htp, h1]; exact hcur
  · rw [htp, h1]; exact humode
  · rw [htp, h1]; exact hwfi
  · rw [htp, h1]; exact hbank
  · rw [htp, h1]; exact hbst
  · rw [htp, h1]; rfl
  · rw [htp, h1]; exact hresv
  · rw [hyp, hpairv] at hsave
    rw [htp, h1, hyp, hpairv]
    exact hsave hne hcr
  · rw [htt, h3]
  · rw [htt, h3]; rfl
  · unfold State.taskOn
    rw [htun, hyu]
    rfl
  · rw [htun]; rfl
  · rw [Holds, htun, hyu]
    exact ⟨rfl, rfl, rfl, rfl, rfl, rfl⟩
  · rw [htp, h5 q hq]
    exact hyp q
  · rw [h7, h6]
    exact hmem

/-- Settles O17. -/
theorem windowStarts : Obligations.WindowStarts := ⟨windowStartEngine, windowStartPair⟩

end Sys2Proof.Machine
end

section
/-! SUPPORT. The budget end of a window and the end of a slack quantum (R69, R104, R106, R108, R117, R187). -/
namespace Sys2Proof.Machine
open Sys2Proof.Claims
set_option Elab.async false

/-! ### Stopping -/

/-- Stopping a pair's task takes contexts, and leaves the states of the tasks and the windows. -/
theorem State.stopPair_keeps (s : State) (p n : Nat) (keep : Bool) :
    (∀ k, ((s.stopPair p n keep).task k).st = (s.task k).st) ∧ (∀ k, ((s.stopPair p n keep).unit k).win = (s.unit k).win) ∧
      s.stopPair p n keep = { s with hx := (s.stopPair p n keep).hx } := by
  have htask (v : State) (m k : Nat) (c : Bank) : ((v.setTask m { v.task m with ctx := c }).task k).st = (v.task k).st := by
    by_cases hk : k = m
    · subst hk
      rw [State.task_setTask_same]
    · simp [State.task, State.setTask, hk]
  have hunit (v : State) (k : Nat) (d : Option Nat) : ((v.setUnit p { v.unit p with saveDue := d }).unit k).win = (v.unit k).win := by
    by_cases hk : k = p
    · subst hk
      rw [State.unit_setUnit_same]
    · simp [State.unit, State.setUnit, hk]
  have hsave (v : State) (pc : Nat) : (∀ k, ((v.takeSave p pc).task k).st = (v.task k).st) ∧
      (∀ k, ((v.takeSave p pc).unit k).win = (v.unit k).win) ∧ v.takeSave p pc = { v with hx := (v.takeSave p pc).hx } := by
    unfold State.takeSave
    split
    next m _ => exact ⟨fun k => htask v m k _, fun k => hunit v k none, rfl⟩
    next => exact ⟨fun _ => rfl, fun _ => rfl, rfl⟩
  unfold State.stopPair
  extract_lets q v
  split
  · exact ⟨fun _ => rfl, fun _ => rfl, rfl⟩
  split
  · exact ⟨fun k => htask s n k _, fun _ => rfl, rfl⟩
  split
  · split
    · obtain ⟨h1, h2, h3⟩ := hsave _ q.mepc
      exact ⟨h1, fun k => (h2 k).trans (hunit s k (some n)), h3⟩
    · exact ⟨fun _ => rfl, fun k => hunit s k (some n), rfl⟩
  · exact ⟨fun _ => rfl, fun _ => rfl, rfl⟩

theorem State.parkLater_eq (s : State) (p : Nat) : s.parkLater p = { s with pairs := (s.parkLater p).pairs } := by
  unfold State.parkLater
  split <;> rfl

/-- The end of a window's staging is one of the page tables alone. -/
theorem State.unstage_eq (s : State) (w m : Nat) : ∃ x, s.unstage w m = { s with hxm := x } := by
  unfold State.unstage
  split
  next c _ =>
    obtain ⟨x, e⟩ : ∃ x, c.pages.foldl (fun s up => s.modPage (pkey c.part up) fun p => { p with pins := p.pins - 1 }) s = { s with hxm := x } := by
      refine foldl_keeps (fun v => ∃ x, v = { s with hxm := x }) _ (fun v up h => ?_) c.pages s ⟨s.hxm, rfl⟩
      obtain ⟨x, rfl⟩ := h
      exact ⟨_, rfl⟩
    unfold State.unpin
    rw [e]
    exact ⟨_, rfl⟩
  next => exact ⟨_, rfl⟩

/-- An execution's measured time is all that the end of the measurement changes. -/
theorem State.execStop_keeps (s : State) (n : Nat) :
    (∀ k, ((s.execStop n).task k).cont = (s.task k).cont) ∧ (∀ k, (s.execStop n).unit k = s.unit k) ∧ (s.execStop n).hx.sched = s.hx.sched := by
  unfold State.execStop
  split
  · refine ⟨fun k => ?_, fun _ => rfl, rfl⟩
    by_cases hk : k = n
    · subst hk
      rw [State.task_setTask_same]
    · simp [State.task, State.setTask, hk]
  · exact ⟨fun _ => rfl, fun _ => rfl, rfl⟩

/-! ### Budget ends -/

/-- The unit whose window's budget has ended. -/
def UnitSt.over (x : UnitSt) (t : Nat) : UnitSt := { x with win := none, ended := true, opened := false, mm := false, endedAt := some t }

/-- What a budget end does before it looks at the activation that it ends (R104, R106, R139). -/
def State.windowOver (s : State) (u w : Nat) : State :=
  let v := s.unstage w ((s.unit u).lastStart.getD 0)
  let v := (v.setUnit u (UnitSt.over (v.unit u) v.clk.t)).execStop (s.unit u).task
  if (s.unit u).opened then v.parkLater u else v

theorem State.windowOver_spec (s : State) (u w : Nat) :
    (∃ h x p, s.windowOver u w = { s with hx := h, hxm := x, pairs := p }) ∧
      (s.windowOver u w).hx.sched = s.hx.sched ∧ ((s.windowOver u w).unit u).win = none ∧
      ∀ k, ((s.windowOver u w).task k).cont = (s.task k).cont := by
  unfold State.windowOver
  obtain ⟨x, hv⟩ := s.unstage_eq w ((s.unit u).lastStart.getD 0)
  rw [hv]
  dsimp only
  set v : State := { s with hxm := x }
  obtain ⟨hcont, hunit, hsched⟩ := (v.setUnit u (UnitSt.over (v.unit u) v.clk.t)).execStop_keeps (s.unit u).task
  have hy := (v.setUnit u (UnitSt.over (v.unit u) v.clk.t)).execStop_eq (s.unit u).task
  generalize (v.setUnit u (UnitSt.over (v.unit u) v.clk.t)).execStop (s.unit u).task = y at hcont hunit hsched hy
  have hyunit : (y.unit u).win = none := by
    rw [hunit, State.unit_setUnit_same]
    rfl
  split
  · have hp := y.parkLater_eq u
    generalize (y.parkLater u).pairs = p at hp
    rw [hp]
    exact ⟨⟨y.hx, x, p, by rw [hy]; rfl⟩, hsched, hyunit, hcont⟩
  · exact ⟨⟨y.hx, x, s.pairs, hy⟩, hsched, hyunit, hcont⟩

/-- The task of the ended window keeps its context where the window had opened. -/
def State.stopIf (s : State) (o : Bool) (u n : Nat) : State := if o then s.stopPair u n true else s

theorem State.stopIf_keeps (s : State) (o : Bool) (u n : Nat) :
    (∀ k, ((s.stopIf o u n).task k).st = (s.task k).st) ∧ (∀ k, ((s.stopIf o u n).unit k).win = (s.unit k).win) ∧
      s.stopIf o u n = { s with hx := (s.stopIf o u n).hx } := by
  unfold State.stopIf
  split
  · exact s.stopPair_keeps u n true
  · exact ⟨fun _ => rfl, fun _ => rfl, rfl⟩

/-- An overrun is counted, recorded and raised; an engine's scan stops (R104, R187). -/
def State.overrun (s : State) (u w n c : Nat) : State :=
  let s := ((s.inc (F.HX_TASKSTAT0_OVERRUNS n)).report .OVERRUN srcHx [n, w, c]).raise 32
  if 4 ≤ u then s.scanStop (u - 4) else s

/-- The three ways in which the budget end of a window ends what runs there (R104, R108). -/
theorem State.budgetOver_eq (s : State) (u w : Nat) (d : Window) (td : Task) (hw : (s.unit u).win = some w) (he : (s.unit u).ended = false)
    (ht : s.taskD? (s.unit u).task = some td) (hd : s.window? w = some d) :
    let n := (s.unit u).task
    let v := s.windowOver u w
    (td.cls = 2 ∨ d.wflags.testBit 1 = false →
      s.budgetOver u = (v.setTask n { v.task n with st := .paused }).stopIf (s.unit u).opened u n) ∧
    (td.cls ≠ 2 → d.wflags.testBit 1 = true → (s.task n).cont < td.maxSkip →
      s.budgetOver u = ((v.overrun u w n (s.task n).cont).setTask n { (v.overrun u w n (s.task n).cont).task n with st := .awaiting }).stopIf
        (s.unit u).opened u n) ∧
    (td.cls ≠ 2 → d.wflags.testBit 1 = true → td.maxSkip ≤ (s.task n).cont →
      s.budgetOver u = (v.overrun u w n (s.task n).cont).abandon n .overrun) := by
  intro n v
  obtain ⟨-, hsched, -, hcont⟩ := s.windowOver_spec u w
  have htv : v.taskD? n = some td := by rw [State.taskD?, hsched]; exact ht
  have hdv : v.window? w = some d := by rw [State.window?, hsched]; exact hd
  have hbase : s.budgetOver u = (if td.cls = 2 ∨ (!(d.wflags.testBit 1)) = true then
        (v.setTask n { v.task n with st := .paused }).stopIf (s.unit u).opened u n
      else if (v.task n).cont < td.maxSkip then
        ((v.overrun u w n (v.task n).cont).setTask n { (v.overrun u w n (v.task n).cont).task n with st := .awaiting }).stopIf
          (s.unit u).opened u n
      else (v.overrun u w n (v.task n).cont).abandon n .overrun) := by
    unfold State.budgetOver
    simp only [hw, he, Bool.false_eq_true, if_false]
    change (match v.taskD? n, v.window? w with | some t, some d => _ | _, _ => _) = _
    rw [htv, hdv]
    rfl
  rw [hcont n] at hbase
  refine ⟨fun h => ?_, fun hc hl hlt => ?_, fun hc hl hle => ?_⟩
  · rw [hbase, if_pos (by simpa using h)]
  · rw [hbase, if_neg (by simp [hc, hl]), if_pos hlt]
  · rw [hbase, if_neg (by simp [hc, hl]), if_neg (Nat.not_lt.2 hle)]

/-- The register that counts a task's overruns and abandonments is written by the count alone. -/
theorem State.get_overrun (s : State) (u w n c : Nat) (f : Field) (hu : u < 6) (hn : n < 1024) (hf : f.off = 0x21000 + n * 0x10) :
    (s.overrun u w n c).get f = (s.inc (F.HX_TASKSTAT0_OVERRUNS n)).get f := by
  have hr : Counts f.off := taskCount_eq_true.2 (by omega)
  have h : Aside Counts (s.inc (F.HX_TASKSTAT0_OVERRUNS n)) (((s.inc (F.HX_TASKSTAT0_OVERRUNS n)).report .OVERRUN srcHx [n, w, c]).raise 32) :=
    (Aside.counts _).report.raise
  have hstop : Aside Counts (s.inc (F.HX_TASKSTAT0_OVERRUNS n)) (s.overrun u w n c) := by
    refine Aside.either (Aside.put h.same (h.free ?_)) h
    rw [calm_eq_false]
    simp only [F.LE_STAT_STATE]
    omega
  rw [State.get, hstop.reg _ hr, State.get]

theorem State.overrun_eq (s : State) (u w n c : Nat) :
    (s.overrun u w n c).rcd.reported.map (fun r => r.code) = s.rcd.reported.map (fun r => r.code) ++ [.OVERRUN] ∧
    (32, s.fab) ∈ (s.overrun u w n c).vdx.pulses ∧ ∃ r x d e, s.overrun u w n c = { s with regs := r, vdx := x, rcd := d, engines := e } := by
  have hraised := ((s.inc (F.HX_TASKSTAT0_OVERRUNS n)).report .OVERRUN srcHx [n, w, c]).pulses_raise 32 rfl
  obtain ⟨hcodes, -⟩ := (s.inc (F.HX_TASKSTAT0_OVERRUNS n)).report_spec .OVERRUN srcHx [n, w, c]
  obtain ⟨r, x, e⟩ := ((s.inc (F.HX_TASKSTAT0_OVERRUNS n)).report .OVERRUN srcHx [n, w, c]).raise_sources 32
  unfold State.overrun
  dsimp only
  split
  · refine ⟨?_, hraised, ?_⟩
    · rw [e]
      exact hcodes
    · rw [e]
      exact ⟨_, _, _, _, rfl⟩
  · refine ⟨?_, hraised, ?_⟩
    · rw [e]
      exact hcodes
    · rw [e]
      exact ⟨_, _, _, _, rfl⟩

/-- A scan that stops leaves no shadow, and its engine idle (R187). -/
theorem State.scanStop_spec (s : State) (e : Nat) : ((s.scanStop e).eng e).shadow = [] ∧ (s.scanStop e).get (F.LE_STAT_STATE e) = 0 := by
  refine ⟨?_, ?_⟩
  · have h : (s.scanStop e).eng e = { s.eng e with shadow := [] } := s.eng_setEng_same e { s.eng e with shadow := [] }
    rw [h]
  · rw [State.scanStop, State.get_set_same _ _ _ (Nat.le_of_ble_eq_true rfl), Nat.zero_mod]

/-- On an engine an overrun ends with the stop of the scan. -/
theorem State.overrun_engine (s : State) (e w n c : Nat) :
    ∃ v : State, s.overrun (4 + e) w n c = v.scanStop e := by
  refine ⟨((s.inc (F.HX_TASKSTAT0_OVERRUNS n)).report .OVERRUN srcHx [n, w, c]).raise 32, ?_⟩
  unfold State.overrun
  dsimp only
  rw [if_pos (Nat.le_add_right 4 e), Nat.add_sub_cancel_left]

/-- What an overrun leaves: one more counted, recorded and raised, and everything but registers, sources, records and engines as it was (R104). -/
theorem State.overrun_spec (s : State) (u w n c : Nat) (hu : u < 6) (hn : n < 1024) :
    (s.overrun u w n c).get (F.HX_TASKSTAT0_OVERRUNS n) = satAdd 65535 (s.get (F.HX_TASKSTAT0_OVERRUNS n)) 1 ∧
    (s.overrun u w n c).get (F.HX_TASKSTAT0_ABANDONS n) = s.get (F.HX_TASKSTAT0_ABANDONS n) := by
  refine ⟨?_, ?_⟩
  · rw [s.get_overrun u w n c _ hu hn rfl]
    exact s.get_inc _ (Nat.le_of_ble_eq_true rfl)
  · rw [s.get_overrun u w n c _ hu hn rfl]
    exact s.get_set_beside _ _ _ (.inl (Nat.le_of_ble_eq_true rfl))

/-- An abandonment is counted, raised and recorded, and the task is idle, before its fault counts toward its partition's limit (R108). -/
def State.abandoned (s : State) (n : Nat) (why : Abandon) : State :=
  (((s.inc (F.HX_TASKSTAT0_ABANDONS n)).raise 33).report .TASK_ABANDON srcHx [n, why.code]).taskIdle n

theorem State.aside_abandon (s : State) (n : Nat) (why : Abandon) : Aside Counts (s.abandoned n why) (s.abandon n why) := by
  have h := Aside.counts (s.abandoned n why)
  have e : s.abandon n why = (match (s.abandoned n why).taskD? n with
      | some t => if why = .schedSwitch ∨ why = .modeChange then s.abandoned n why else (s.abandoned n why).faulted t.part
      | none => s.abandoned n why) := rfl
  rw [e]
  split
  · exact h.either h.faulted
  · exact h

theorem State.abandon_spec (s : State) (n : Nat) (why : Abandon) (hn : n < 1024) :
    ((s.abandon n why).task n).st = .idle ∧
    (s.abandon n why).get (F.HX_TASKSTAT0_ABANDONS n) = satAdd 65535 (s.get (F.HX_TASKSTAT0_ABANDONS n)) 1 ∧
    ∃ l, (s.abandon n why).rcd.reported.map (fun r => r.code) = s.rcd.reported.map (fun r => r.code) ++ [.TASK_ABANDON] ++ l := by
  have h := s.aside_abandon n why
  have hr : Counts (F.HX_TASKSTAT0_ABANDONS n).off := taskCount_eq_true.2 (by simp only [F.HX_TASKSTAT0_ABANDONS]; omega)
  have hinc : Aside Counts (s.inc (F.HX_TASKSTAT0_ABANDONS n))
      (((s.inc (F.HX_TASKSTAT0_ABANDONS n)).raise 33).report .TASK_ABANDON srcHx [n, why.code]) := (Aside.counts _).raise.report
  refine ⟨?_, ?_, ?_⟩
  · rw [State.task, h.tasks]
    exact State.taskIdle_st _ n
  · rw [State.get, h.reg _ hr]
    show fieldGet ((((s.inc (F.HX_TASKSTAT0_ABANDONS n)).raise 33).report .TASK_ABANDON srcHx [n, why.code]).reg _) _ _ = _
    rw [hinc.reg _ hr]
    exact s.get_inc _ (Nat.le_of_ble_eq_true rfl)
  · obtain ⟨l, hl⟩ := h.reported
    obtain ⟨r, x, e⟩ := (s.inc (F.HX_TASKSTAT0_ABANDONS n)).raise_sources 33
    refine ⟨l.map fun r => r.code, ?_⟩
    have hb : (s.abandoned n why).rcd.reported.map (fun r => r.code) = s.rcd.reported.map (fun r => r.code) ++ [.TASK_ABANDON] := by
      rw [State.abandoned, e]
      simp [State.report, State.taskIdle, State.setTask, State.inc, State.incBy, State.set, State.setReg]
    rw [← hl, List.map_append, hb]

theorem budgetOver : BudgetOver := by
  intro u w d td s hu hw he ht hd hn _
  obtain ⟨hpause, hawait, habandon⟩ := s.budgetOver_eq u w d td hw he ht hd
  obtain ⟨⟨h, x, p, heq⟩, -, hwin, -⟩ := s.windowOver_spec u w
  set n := (s.unit u).task
  set v := s.windowOver u w
  have hget (f : Field) : v.get f = s.get f := by rw [heq]; rfl
  have hrcd : v.rcd = s.rcd := by rw [heq]
  have hfab : v.fab = s.fab := by rw [heq]; rfl
  refine ⟨fun hc => ?_, fun hc hl hlt => ?_, fun hc hl hle => ?_⟩
  · rw [hpause hc]
    obtain ⟨k1, k2, k3⟩ := (v.setTask n { v.task n with st := .paused }).stopIf_keeps (s.unit u).opened u n
    refine ⟨?_, ?_, ?_⟩
    · rw [k1, State.task_setTask_same]
    · rw [k3]
      exact hrcd
    · rw [k2]
      exact hwin
  · rw [hawait hc hl hlt]
    obtain ⟨h1, -⟩ := v.overrun_spec u w n (s.task n).cont hu hn
    obtain ⟨h3, h4, r, y, c, g, h5⟩ := v.overrun_eq u w n (s.task n).cont
    have h6 (e : Nat) (hue : u = 4 + e) : ((v.overrun u w n (s.task n).cont).eng e).shadow = [] ∧
        (v.overrun u w n (s.task n).cont).get (F.LE_STAT_STATE e) = 0 := by
      rw [hue]
      obtain ⟨z, hz⟩ := v.overrun_engine e w n (s.task n).cont
      rw [hz]
      exact z.scanStop_spec e
    set o := v.overrun u w n (s.task n).cont
    obtain ⟨k1, k2, k3⟩ := (o.setTask n { o.task n with st := .awaiting }).stopIf_keeps (s.unit u).opened u n
    generalize (o.setTask n { o.task n with st := .awaiting }).stopIf (s.unit u).opened u n = t at k1 k2 k3
    have hkeep (f : Field) : t.get f = o.get f := by rw [k3]; rfl
    refine ⟨?_, ?_, ?_, ?_, ?_, fun e hue => ⟨?_, ?_⟩⟩
    · rw [k1, State.task_setTask_same]
    · rw [hkeep, h1, hget]
    · rw [k3]
      exact h3.trans (by rw [hrcd])
    · rw [k3, ← hfab]
      exact h4
    · rw [k2]
      show (o.unit u).win = none
      rw [h5]
      exact hwin
    · rw [k3]
      exact (h6 e hue).1
    · rw [hkeep, (h6 e hue).2]
  · rw [habandon hc hl hle]
    obtain ⟨-, h2⟩ := v.overrun_spec u w n (s.task n).cont hu hn
    obtain ⟨h3, -⟩ := v.overrun_eq u w n (s.task n).cont
    obtain ⟨k1, k2, l, k3⟩ := (v.overrun u w n (s.task n).cont).abandon_spec n .overrun hn
    refine ⟨k1, by rw [k2, h2, hget], l, ?_⟩
    rw [k3, h3, hrcd]
    simp

/-! ### Their instants -/

/-- On an engine nothing settles. -/
theorem State.settle_engine (s : State) (u : Nat) (h : 4 ≤ u) : s.settle u = s := by
  unfold State.settle
  rw [if_pos h]

/-- The end of a slack quantum pauses its activation; of user mode its context is taken (R106, R117). -/
theorem State.slackPause_spec (s : State) (p n x : Nat) (hp : p < 4) (h : (s.unit p).slack = some (n, x)) :
    ((s.slackPause p).unit p).slack = none ∧ ((s.slackPause p).task n).st = .paused ∧ (s.slackPause p).clk = s.clk ∧
      ((s.pair p).umode = true → ((s.slackPause p).task n).ctx = { (s.pair p).curBank with task := n }) := by
  have he : s.slackPause p = ((((s.execStop n).stopPair p n true).parkLater p).setTask n
      { (((s.execStop n).stopPair p n true).parkLater p).task n with st := .paused }).setUnit p
      { (((s.execStop n).stopPair p n true).parkLater p).unit p with slack := none } := by
    unfold State.slackPause
    simp only [h]
  have hstop := s.execStop_eq n
  obtain ⟨-, -, hkeep⟩ := (s.execStop n).stopPair_keeps p n true
  have hpark := ((s.execStop n).stopPair p n true).parkLater_eq p
  rw [he]
  refine ⟨?_, ?_, ?_, fun hm => ?_⟩
  · rw [State.unit_setUnit_same]
  · rw [State.task_setUnit, State.task_setTask_same]
  · show (((s.execStop n).stopPair p n true).parkLater p).clk = s.clk
    rw [hpark, hkeep, hstop]
  · have hpair : (s.execStop n).pair p = s.pair p := by rw [hstop]; rfl
    have hs : (s.execStop n).stopPair p n true = (s.execStop n).saveCtx p n := by
      unfold State.stopPair
      simp [Nat.not_le.2 hp, hpair, hm]
    rw [State.task_setUnit, State.task_setTask_same, hs, State.parkLater]
    rw [if_pos (.inr (by show ((s.execStop n).pair p).umode = true; rw [hpair]; exact hm)), State.saveCtx, State.task_setTask_same, hpair]

theorem budgetAndQuantumEnds : BudgetAndQuantumEnds := by
  refine ⟨fun e s hw hf hd => ?_, fun p s hw hf hd => ?_, fun u s hf => ?_, fun p n x s hs hh => ?_⟩
  · show Host.Outcome.next (budgetEnd (4 + e) s) = _
    rw [budgetEnd, hw, hf, hd, State.settle_engine _ _ (Nat.le_add_right 4 e)]
    rfl
  · show Host.Outcome.next (budgetEnd p s) = _
    rw [budgetEnd, hw, hf, hd]
    rfl
  · show Host.Outcome.next (budgetEnd u s) = _
    rw [budgetEnd, hf]
    simp
  · obtain ⟨hmoves, hclk⟩ := s.advance_moves x
    obtain ⟨-, -, -, hhx, -⟩ := hmoves.same
    obtain ⟨h1, h2, h3, h4⟩ := (s.advance x).slackPause_spec p n x p.isLt (by rw [State.unit, hhx]; exact hs)
    refine ⟨(s.advance x).slackPause p, ?_, h1, h2, by rw [h3, hclk], fun hm => h4 ?_⟩
    · show Host.Outcome.next (slackQuantumEnd p s) = _
      unfold slackQuantumEnd
      simp [hs, hh]
    · obtain ⟨c, k, hp⟩ := s.pair_advance x p
      rw [hp]
      exact hm

/-- Settles O18. -/
theorem budgetEnds : Obligations.BudgetEnds := ⟨budgetOver, budgetAndQuantumEnds⟩

end Sys2Proof.Machine
end

section
/-! SUPPORT. What is announced, recorded and let go beside the work of pairs and engines: registers that stand apart from it, and the state after the
entry to the Dusk state (R65, R434, R436). -/
namespace Sys2Proof.Machine
open Sys2Proof.Claims
set_option Elab.async false

/-! ### Registers at the raising of a source and at the moving of the clock -/

/-- No register of a source (VDX_SRCSTAT, VDX_SRCSTAMP). -/
def offSources (q : Nat) : Prop := q < 0x12000 ∨ 0x12800 ≤ q ∧ q < 0x14000 ∨ 0x15000 ≤ q

theorem State.reg_congr {s t : State} (h : t.regs = s.regs) (q : Nat) : t.reg q = s.reg q := by rw [State.reg, State.reg, h]

theorem State.reg_arrive (s : State) (n q : Nat) (hn : n < 436) (hq : offSources q) : (s.arrive n).reg q = s.reg q := by
  unfold offSources at hq
  have hstat : q ≠ 0x12000 + n * 0x4 := by omega
  have hstamp (w : Nat) (hw : w < 2) : q ≠ 0x14000 + n * 0x8 + w * 0x4 := by omega
  have hset (v : State) (f : Field) (x : Nat) (hf : q ≠ f.off) : (v.set f x).reg q = v.reg q := v.reg_set_other f q x hf
  have hvdx (v : State) (x : Vdx) (hv : v.reg q = s.reg q) : State.reg { v with vdx := x } q = s.reg q := by rw [State.reg]; exact hv
  have hcount : ((s.setStamp n s.stamp).inc (F.VDX_SRCSTAT_COUNT n)).reg q = s.reg q :=
    (hset _ (F.VDX_SRCSTAT_COUNT n) _ hstat).trans
      ((hset _ (F.VDX_SRCSTAMP_W n 1) _ (hstamp 1 (by omega))).trans (hset _ (F.VDX_SRCSTAMP_W n 0) _ (hstamp 0 (by omega))))
  have hpend (v : State) (hv : v.reg q = s.reg q) : (v.set (F.VDX_SRCSTAT_PENDING n) 1).reg q = s.reg q :=
    (hset v (F.VDX_SRCSTAT_PENDING n) 1 hstat).trans hv
  unfold State.arrive
  generalize (s.setStamp n s.stamp).inc (F.VDX_SRCSTAT_COUNT n) = a at hcount
  dsimp only
  have hb := hvdx a { a.vdx with arrived := tput noneD a.vdx.arrived n (some a.fab) } hcount
  split
  · split
    exacts [hb, hpend _ hb]
  · exact hpend _ hb
  · split
    exacts [hb, hvdx _ _ (hpend _ hb)]

/-- A register apart from the sources, and from the event register of the source raised, is as it was. -/
theorem State.reg_raise (s : State) (n q : Nat) (hq : offSources q) (he : ∀ f, evtField n = some f → q ≠ f.off) : (s.raise n).reg q = s.reg q := by
  unfold State.raise
  split
  · rfl
  next hn =>
  have hn : n < 436 := State.lt_of_sourceAbsent (by simpa using hn)
  extract_lets a b
  have ha : a.reg q = s.reg q := by
    unfold a
    cases hf : evtField n with
    | none => rfl
    | some f => exact s.reg_set_other f q 1 (he f hf)
  have hl : q ≠ (F.VDX_SRCSTAT_LINE n).off := by
    unfold offSources at hq
    simp only [F.VDX_SRCSTAT_LINE]
    omega
  exact ((State.reg_set_other _ _ q 1 hl).trans (a.reg_arrive n q hn hq)).trans ha

/-- What was raised in a fabric cycle stays raised in it. -/
theorem State.pulse_raise (s : State) (n k : Nat) (h : (k, s.fab) ∈ s.vdx.pulses) : (k, s.fab) ∈ (s.raise n).vdx.pulses := by
  exact ((Aside.counts s).raise (n := n)).pulses k h

/-- A register apart from VDX_SRCSTAT and SIO_DOSTAT is as it was at a later instant. -/
theorem State.reg_later (s : State) (t q : Nat) (hq : q < 0x12000 ∨ 0x12800 ≤ q) (ho : q < 0xC0220 ∨ 0xC0240 ≤ q) :
    (s.advance t).reg q = s.reg q := by
  have hfall (u : State) (n : Nat) : (u.lineFalls n).reg q = u.reg q := by
    unfold State.lineFalls
    split
    · rfl
    next hn =>
    have hset (u : State) (f : Field) (v : Nat) (hf : f.off = 0x12000 + n * 0x4) : (u.set f v).reg q = u.reg q :=
      u.reg_set_other f q v (by omega)
    dsimp only
    split
    · rw [hset _ (F.VDX_SRCSTAT_PENDING n) _ rfl]
      split
      · rw [hset _ (F.VDX_SRCSTAT_WITHDRAWN n) _ rfl, hset _ (F.VDX_SRCSTAT_LINE n) _ rfl]
      · exact hset _ (F.VDX_SRCSTAT_LINE n) _ rfl
    · exact hset _ (F.VDX_SRCSTAT_LINE n) _ rfl
  have hdrop (u : State) : u.dropPulses.reg q = u.reg q := by
    unfold State.dropPulses
    extract_lets gone _ w
    exact foldl_keeps (fun v => v.reg q = u.reg q) _ (fun (v : State) (c : Nat × Nat) h => (hfall v c.1).trans h) gone w rfl
  have hview (u : State) (m : Nat) (hm : m < 8) : (u.doView m).reg q = u.reg q := by
    unfold State.doView
    dsimp only
    rw [State.reg_set_other _ (F.SIO_DOSTAT_FAULT m) q _ (by simp only [F.SIO_DOSTAT_FAULT]; omega),
      State.reg_set_other _ (F.SIO_DOSTAT_DRIVE m) q _ (by simp only [F.SIO_DOSTAT_DRIVE]; omega)]
    rfl
  have hsw (u : State) : u.runSwitches.reg q = u.reg q := by
    unfold State.runSwitches
    refine foldl_keepsOn (fun v : State => v.reg q = u.reg q) _ _ (fun v m hm h => ?_) u rfl
    dsimp only
    split
    · split
      · exact (hview _ m (List.mem_range.1 hm)).trans h
      · exact h
    · exact h
  unfold State.advance
  split
  · rfl
  · rw [hsw, hdrop]
    obtain ⟨p, e⟩ := s.countCycles_pairs (t - s.clk.t)
    rw [e]
    rfl

/-! ### The relation -/

/-- Registers of the executive, the memory side, the engines and the time base, without their event registers. -/
def farReg (q : Nat) : Bool :=
  (decide (0x20000 ≤ q ∧ q < 0x50000) || decide (0x70000 ≤ q ∧ q < 0x80000)) &&
    !(q == 0x20010 || q == 0x3000C || q == 0x40010 || q == 0x48010 || q == 0x7000C)

theorem farReg_eq_false {q : Nat} : farReg q = false ↔ q < 0x20000 ∨ 0x50000 ≤ q ∧ q < 0x70000 ∨ 0x80000 ≤ q ∨ q = 0x20010 ∨ q = 0x3000C ∨
    q = 0x40010 ∨ q = 0x48010 ∨ q = 0x7000C := by
  simp [farReg]
  omega

/-- The event registers are not among them. -/
theorem farReg_evtField (n : Nat) : ∀ f, evtField n = some f → farReg f.off = false := by
  unfold evtField
  have other {c : Prop} {_ : Decidable c} {f : Field} {r : Option Field} (hf : farReg f.off = false)
      (hr : ∀ g, r = some g → farReg g.off = false) : ∀ g, (if c then some f else r) = some g → farReg g.off = false := some_of_ite (fun _ => hf) hr
  exact other rfl <| other rfl <|
    some_of_ite (fun _ => farReg_eq_false.2 (by simp only [F.LE_EVT_EVT]; omega)) <|
    other rfl <| other rfl <| other rfl <| other rfl <| other rfl <|
    some_of_ite (fun _ => farReg_eq_false.2 (by simp only [F.CAN_EVT_EVT]; omega)) <|
    other rfl <| other rfl <| other rfl <| other rfl <| other rfl <| fun _ h => nomatch h

/-- The supervisor without what waits to be sent, the replies it keeps and the operation in progress. -/
def Sup.core (x : Sup) : Sup := { x with lasts := [], waiting := [], noticeCount := 0, dropped := 0, longOp := none, portWait := 0 }

/-- `t` is what some recording, announcing or letting go of outputs, leases and frames makes of `s` at the same instant. -/
structure Beside (s t : State) : Prop where
  ident : t.ident = s.ident
  clk : t.clk = s.clk
  pairs : t.pairs = s.pairs
  engines : t.engines = s.engines
  hx : t.hx = s.hx
  hxm : t.hxm = s.hxm
  cfg : t.cfg = s.cfg
  prog : t.prog = s.prog
  pwr : t.pwr = s.pwr
  tmb : t.tmb = s.tmb
  pending : t.pending = s.pending
  poison : t.poison = s.poison
  sup : Sup.core t.sup = Sup.core s.sup
  longOp : s.sup.longOp = none → t.sup.longOp = none
  reg : ∀ q, farReg q = true → t.reg q = s.reg q
  pulses : ∀ n, (n, s.fab) ∈ s.vdx.pulses → (n, s.fab) ∈ t.vdx.pulses
  reported : s.rcd.reported <+: t.rcd.reported

namespace Beside
variable {s₀ s t : State}

theorem refl (s : State) : Beside s s :=
  ⟨rfl, rfl, rfl, rfl, rfl, rfl, rfl, rfl, rfl, rfl, rfl, rfl, rfl, id, fun _ _ => rfl, fun _ h => h, List.prefix_rfl⟩

theorem fab {t : State} (h : Beside s t) : t.fab = s.fab := by rw [State.fab, h.clk]; rfl

theorem trans (h : Beside s₀ s) (k : Beside s t) : Beside s₀ t where
  ident := k.ident.trans h.ident
  clk := k.clk.trans h.clk
  pairs := k.pairs.trans h.pairs
  engines := k.engines.trans h.engines
  hx := k.hx.trans h.hx
  hxm := k.hxm.trans h.hxm
  cfg := k.cfg.trans h.cfg
  prog := k.prog.trans h.prog
  pwr := k.pwr.trans h.pwr
  tmb := k.tmb.trans h.tmb
  pending := k.pending.trans h.pending
  poison := k.poison.trans h.poison
  sup := k.sup.trans h.sup
  longOp := k.longOp ∘ h.longOp
  reg q hq := (k.reg q hq).trans (h.reg q hq)
  pulses n hn := h.fab ▸ k.pulses n (h.fab.symm ▸ h.pulses n hn)
  reported := h.reported.trans k.reported

/-- A change of what `Beside` does not speak of. -/
theorem same {t : State} (h : Beside s₀ s) (hident : t.ident = s.ident := by rfl) (hclk : t.clk = s.clk := by rfl)
    (hpairs : t.pairs = s.pairs := by rfl) (hengines : t.engines = s.engines := by rfl) (hhx : t.hx = s.hx := by rfl)
    (hhxm : t.hxm = s.hxm := by rfl) (hcfg : t.cfg = s.cfg := by rfl) (hprog : t.prog = s.prog := by rfl) (hpwr : t.pwr = s.pwr := by rfl)
    (htmb : t.tmb = s.tmb := by rfl) (hpending : t.pending = s.pending := by rfl) (hpoison : t.poison = s.poison := by rfl)
    (hsup : Sup.core t.sup = Sup.core s.sup := by rfl) (hlong : s.sup.longOp = none → t.sup.longOp = none := by exact id)
    (hregs : t.regs = s.regs := by rfl)
    (hpulses : t.vdx.pulses = s.vdx.pulses := by rfl) (hrcd : t.rcd.reported = s.rcd.reported := by rfl) : Beside s₀ t :=
  h.trans ⟨hident, hclk, hpairs, hengines, hhx, hhxm, hcfg, hprog, hpwr, htmb, hpending, hpoison, hsup, hlong,
    fun q _ => by rw [State.reg, State.reg, hregs], fun _ hn => hpulses ▸ hn, by rw [hrcd]⟩

theorem either {c : Prop} {_ : Decidable c} {t u : State} (ht : Beside s₀ t) (hu : Beside s₀ u) : Beside s₀ (if c then t else u) := by
  split <;> assumption

theorem fold {α : Type} {f : State → α → State} {l : List α} (hf : ∀ u a, Beside s₀ u → Beside s₀ (f u a)) (h : Beside s₀ s) :
    Beside s₀ (l.foldl f s) :=
  foldl_keeps (Beside s₀) f hf l s h

/-- The module state that both are in changes alike. -/
theorem withSt (h : Beside s t) (st : MState) : Beside { s with sup := { s.sup with st := st } } { t with sup := { t.sup with st := st } } where
  ident := h.ident
  clk := h.clk
  pairs := h.pairs
  engines := h.engines
  hx := h.hx
  hxm := h.hxm
  cfg := h.cfg
  prog := h.prog
  pwr := h.pwr
  tmb := h.tmb
  pending := h.pending
  poison := h.poison
  sup := congrArg (fun x : Sup => { x with st := st }) h.sup
  longOp := h.longOp
  reg := h.reg
  pulses := h.pulses
  reported := h.reported

theorem st (h : Beside s t) : t.sup.st = s.sup.st := (congrArg Sup.st h.sup :)

/-! ### Registers, sources, reports -/

/-- A write of a register that is not among those kept. -/
theorem set (h : Beside s₀ s) {f : Field} {v : Nat} (hf : farReg f.off = false := by rfl) : Beside s₀ (s.set f v) :=
  h.trans ⟨rfl, rfl, rfl, rfl, rfl, rfl, rfl, rfl, rfl, rfl, rfl, rfl, rfl, id,
    fun q hq => s.reg_set_other f q v (by rintro rfl; simp [hf] at hq), fun _ hn => hn, List.prefix_rfl⟩

theorem inc (h : Beside s₀ s) {f : Field} (hf : farReg f.off = false := by rfl) : Beside s₀ (s.inc f) := h.set hf

theorem report (h : Beside s₀ s) {code : RCode} {src : Nat} {words : List Nat} : Beside s₀ (s.report code src words) :=
  h.trans ⟨rfl, rfl, rfl, rfl, rfl, rfl, rfl, rfl, rfl, rfl, rfl, rfl, rfl, id, fun _ _ => rfl, fun _ hn => hn, ⟨_, rfl⟩⟩

theorem emit (h : Beside s₀ s) {i : Iface} {unit kind : Nat} {data : List Byte} : Beside s₀ (s.emit i unit kind data) := h.same

theorem raise (h : Beside s₀ s) {n : Nat} : Beside s₀ (s.raise n) := by
  refine h.trans ?_
  have hreg (q : Nat) (hq : farReg q = true) : (s.raise n).reg q = s.reg q := by
    refine s.reg_raise n q ?_ fun f hf hqf => ?_
    · simp [farReg] at hq
      unfold offSources
      omega
    · rw [hqf, farReg_evtField n f hf] at hq
      exact Bool.false_ne_true hq
  have hpulses (k : Nat) (hk : (k, s.fab) ∈ s.vdx.pulses) : (k, s.fab) ∈ (s.raise n).vdx.pulses := s.pulse_raise n k hk
  obtain ⟨r, v, e⟩ := s.raise_sources n
  rw [e] at hreg hpulses ⊢
  exact ⟨rfl, rfl, rfl, rfl, rfl, rfl, rfl, rfl, rfl, rfl, rfl, rfl, rfl, id, hreg, hpulses, List.prefix_rfl⟩

/-! ### Gheif and the local outputs -/

theorem modGh (h : Beside s₀ s) {f : Gh → Gh} : Beside s₀ (s.modGh f) := h.same

theorem cutTx (h : Beside s₀ s) {ch x : Nat} : Beside s₀ (s.cutTx ch x) := by
  unfold State.cutTx
  split
  · extract_lets u hit v
    have hu : Beside s₀ u := h.modGh
    have hv : Beside s₀ v := hu.inc.raise.report
    exact .either hv.same hu
  · exact h

theorem cutBoth (h : Beside s₀ s) : Beside s₀ s.cutBoth := h.cutTx.cutTx
theorem setPs (h : Beside s₀ s) {n : Nat} : Beside s₀ (s.setPs n) := either h h.set.raise
theorem ghUnanchor (h : Beside s₀ s) : Beside s₀ s.ghUnanchor := h.set.modGh
theorem ghStop (h : Beside s₀ s) : Beside s₀ s.ghStop := either h h.cutBoth.setPs.ghUnanchor.set.modGh

theorem setDout (h : Beside s₀ s) {m : Nat} {v : Dout} : Beside s₀ (s.setDout m v) := h.same

theorem far_dostat (m : Nat) : farReg (0xC0220 + m * 0x4) = false := farReg_eq_false.2 (by omega)

theorem doView (h : Beside s₀ s) {m : Nat} : Beside s₀ (s.doView m) := (h.setDout.set (far_dostat m)).set (far_dostat m)
theorem doOff (h : Beside s₀ s) {m : Nat} : Beside s₀ (s.doOff m) := (h.set (far_dostat m)).setDout.doView
theorem doHold (h : Beside s₀ s) {m : Nat} : Beside s₀ (s.doHold m) := either (h.set (far_dostat m)).setDout h
theorem eachDo (h : Beside s₀ s) {f : State → Nat → State} (hf : ∀ u m, Beside s₀ u → Beside s₀ (f u m)) : Beside s₀ (s.eachDo f) := fold hf h
theorem doSafetyOff (h : Beside s₀ s) : Beside s₀ s.doSafetyOff :=
  either (h.eachDo fun _ _ h1 => .either (.either h1.doOff h1.doHold) h1) h
theorem doGroupOff (h : Beside s₀ s) {k : Nat} : Beside s₀ (s.doGroupOff k) :=
  either (h.eachDo fun _ _ h1 => .either (.either h1.doOff h1.doHold) h1) h

/-! ### The voting layer -/

theorem tlOut (h : Beside s₀ s) {typ : Nat} {b : List Byte} : Beside s₀ (s.tlOut typ b) := fold (fun _ _ h1 => .either h1.emit h1) h
theorem tlFlush (h : Beside s₀ s) : Beside s₀ s.tlFlush := either h (fold (fun _ _ h1 => h1.tlOut) h.same)

theorem tlSeq (h : Beside s₀ s) {typ group : Nat} {now : Bool} {payload : List Byte} : Beside s₀ (s.tlSeq typ group now payload) := by
  unfold State.tlSeq
  extract_lets w u b
  have hu : Beside s₀ u := h.same
  exact .either hu.tlFlush.tlOut hu.same

theorem setLease (h : Beside s₀ s) {k : Nat} {v : Lease} : Beside s₀ (s.setLease k v) := h.same
theorem setMembers (h : Beside s₀ s) {m : Nat} : Beside s₀ (s.setMembers m) := either h h.set.raise.report

theorem far_tvl {q : Nat} (h : 0x50000 ≤ q) (h' : q < 0x70000 ∨ 0x80000 ≤ q) : farReg q = false := farReg_eq_false.2 (by omega)

theorem far_lstat (k : Nat) (h : k < 16) : farReg (0x50108 + k * 0x10) = false := farReg_eq_false.2 (by omega)

theorem leaseClear (h : Beside s₀ s) {k : Nat} (hk : k < 16) : Beside s₀ (s.leaseClear k) :=
  (h.setLease.set (f := { F.TVL_STAT_HELD with lo := k, w := 1 })).set (far_lstat k hk)

theorem release (h : Beside s₀ s) {mask : Nat} : Beside s₀ (s.release mask) := by
  unfold State.release
  extract_lets ks u v m
  have hu : Beside s₀ u := foldl_keepsOn (Beside s₀) _ _ (fun v k hk h1 => by
    have hk : k < 16 := List.mem_range.1 (List.mem_filter.1 hk).1
    exact ((h1.leaseClear hk).set (far_lstat k hk)).doGroupOff) s h
  have hv : Beside s₀ v := fold (fun _ _ h1 => h1.setLease) hu
  exact .either h (raise (.either hv hv.tlSeq))

theorem releaseAll (h : Beside s₀ s) : Beside s₀ s.releaseAll := h.release

theorem tlOff (h : Beside s₀ s) : Beside s₀ s.tlOff := by
  unfold State.tlOff
  extract_lets u
  have hu : Beside s₀ u := (h.set.set).setMembers
  exact .either h hu.same

/-! ### The rack bridge, notices and replies -/

theorem pfDiscard (h : Beside s₀ s) {p : Nat} : Beside s₀ (s.pfDiscard p) := by
  unfold State.pfDiscard
  split
  · extract_lets u
    have hu : Beside s₀ u := fold (fun _ _ h1 => h1.inc.raise.report) h
    exact hu.same
  · exact h

theorem lrbDusk (h : Beside s₀ s) : Beside s₀ s.lrbDusk := by
  unfold State.lrbDusk
  extract_lets u v
  have hu : Beside s₀ u := fold (fun _ _ h1 => h1.pfDiscard) h
  have hv : Beside s₀ v := hu.set.set
  exact hv.same

theorem announce (h : Beside s₀ s) : Beside s₀ s.announce := either h.emit h

theorem scpQueue (h : Beside s₀ s) {k : Packet} {unsol : Bool} : Beside s₀ (s.scpQueue k unsol) := by
  unfold State.scpQueue
  extract_lets w n u
  have hu : Beside s₀ u := by
    unfold u
    split
    · exact h.same
    · split
      all_goals exact h.same
  exact hu.announce

theorem notice (h : Beside s₀ s) {code : Nat} {data : List Byte} : Beside s₀ (s.notice code data) := by
  unfold State.notice
  extract_lets k
  exact scpQueue h.same

theorem far_mbstat (n : Nat) : farReg (0xD0000 + n * 0x1000) = false := farReg_eq_false.2 (by omega)

theorem deliver (h : Beside s₀ s) {o : Origin} {k : Packet} : Beside s₀ (s.deliver o k) := by
  unfold State.deliver
  split
  · exact h.scpQueue
  · exact .fold (fun _ _ h1 => h1.emit) h
  all_goals
    extract_lets n b u v k1 w
    have hu : Beside s₀ u := h.same
    have hv : Beside s₀ v := ((hu.set (far_mbstat n)).set (far_mbstat n)).set (far_mbstat n)
    have hw : Beside s₀ w := hv.same
    split
  exacts [hw.set.raise, hw.raise, hw.set.raise, hw.set.raise]

theorem setLast (h : Beside s₀ s) {o : Origin} {l : LastReq} : Beside s₀ (s.setLast o l) := h.same

theorem longEnd (h : Beside s₀ s) {status : Nat} {payload : List Byte} : Beside s₀ (s.longEnd status payload) := by
  unfold State.longEnd
  split
  · extract_lets w u k
    have hu : Beside s₀ u := h.same (hlong := fun _ => rfl)
    exact hu.setLast.deliver
  · exact h

/-- After its notice no long operation is in progress. -/
theorem longEnd_none (s : State) (status : Nat) (payload : List Byte) : (s.longEnd status payload).sup.longOp = none := by
  unfold State.longEnd
  split
  · extract_lets w u k
    exact ((refl u).setLast.deliver).longOp rfl
  next h => exact h

/-! ### The units on entry to the Dusk state -/

theorem ixFollow (h : Beside s₀ s) : Beside s₀ s.ixFollow := by
  refine either h (fold (fun u c h1 => ?_) h)
  split
  · exact .either (h1.set (farReg_eq_false.2 (by simp only [F.IXS_CSTAT_STATE]; omega))) h1
  · exact h1

theorem canFollowDusk (h : Beside s₀ s) (hd : s.sup.st = .dusk) : Beside s₀ s.canFollow := by
  refine h.trans (ixFollow (fold (fun u n h1 => ?_) (.refl s)))
  rw [if_pos (h1.st.trans hd)]
  exact .either h1 (h1.set (farReg_eq_false.2 (by simp only [F.CAN_STAT_RESTRICTED]; omega)))

end Beside

/-! ### The entry to the Dusk state -/

/-- The hardware path of R65 before anything is announced: the fault is latched and every pair's clocks have stopped. -/
def State.duskPath (s : State) (cause : Nat) : State :=
  { s with
    sup := { s.sup with faultLatch := true, duskCause := cause, fromDusk := false }
    cyc := { s.cyc with leaving := false }
    hx := { s.hx with frameOn := false } }.freezePairs

/-- The same with the module in the Dusk state. -/
def State.dusking (s : State) (cause : Nat) : State :=
  { s.duskPath cause with sup := { (s.duskPath cause).sup with st := .dusk } }

theorem State.freezePairs_pairs (s : State) : TouchesPairs s s.freezePairs := by
  unfold State.freezePairs
  refine foldl_rel (R := TouchesPairs) .refl .trans _ (fun a p => ?_) _ _
  split
  · exact a.modPair_pairs _ _
  · exact .refl a

/-- Stopping the clocks of pairs changes no more than pairs, and stops each fitted one of those named. -/
theorem State.freeze_fold (l : List Nat) (s : State) (p : Nat) (hf : s.pairFitted p = true) (hp : (s.pair p).frozen = true ∨ p ∈ l) :
    ((l.foldl (fun (s : State) p => if s.pairFitted p then s.modPair p fun q => { q with frozen := true } else s) s).pair p).frozen = true := by
  induction l generalizing s with
  | nil => exact hp.resolve_right (List.not_mem_nil)
  | cons k l ih =>
    rw [List.foldl_cons]
    split
    · refine ih _ hf ?_
      by_cases hk : p = k
      · subst hk
        exact .inl (by rw [State.pair_modPair_same])
      · exact hp.imp (fun h => by rw [State.pair_modPair_other _ _ _ _ hk]; exact h) fun h => (List.mem_cons.1 h).resolve_left hk
    next hk =>
      refine ih _ hf (hp.imp id fun h => (List.mem_cons.1 h).resolve_left ?_)
      rintro rfl
      exact hk hf

theorem State.freezePairs_frozen (s : State) (p : Nat) (h : s.pairFitted p = true) : (s.freezePairs.pair p).frozen = true := by
  have hp : p < 4 := by
    unfold State.pairFitted at h
    simp at h
    exact h.1
  exact s.freeze_fold _ p h (.inr (List.mem_range.2 hp))

theorem Beside.stateChange (s₀ s : State) (h : Beside s₀ s) (st : MState) (cause src inst : Nat) :
    Beside { s₀ with sup := { s₀.sup with st := st } } (s.stateChange st cause src inst) := by
  unfold State.stateChange
  have hu := (h.withSt st).report (code := .STATE_CHANGE) (src := srcSup inst) (words := [s.sup.st.code, st.code, cause, src]) |>.raise (n := 413)
  exact .either hu hu.notice

/-- The entry to the Dusk state: beside the hardware path it announces, records and lets go. -/
theorem State.enterDusk_spec (s : State) (cause : Nat) (ha : s.alive = true) (hd : s.sup.st ≠ .dusk) :
    Beside (s.dusking cause) (s.enterDusk cause) ∧ (s.enterDusk cause).sup.longOp = none := by
  unfold State.enterDusk
  split
  next hst => simp [State.alive, hst] at ha
  next hst => simp [State.alive, hst] at ha
  next hst => exact absurd hst hd
  next old _ _ _ =>
    extract_lets _ _ _ a b c d e
    have hb : Beside (s.duskPath cause) b := (Beside.refl (s.duskPath cause)).ghStop.doSafetyOff.releaseAll.tlOff.lrbDusk
    have hc : Beside (s.duskPath cause) c := hb.report
    have hd : Beside (s.dusking cause) d := Beside.stateChange _ _ hc .dusk (0x100 + cause) 0 3
    have he : Beside (s.dusking cause) e := hd.longEnd
    have hn : Beside (s.dusking cause) (e.notice 3 (leBytes 2 cause)) := he.notice
    have hl : (e.notice 3 (leBytes 2 cause)).sup.longOp = none := (Beside.refl e).notice.longOp (Beside.longEnd_none d _ _)
    have hf := (Beside.refl (e.notice 3 (leBytes 2 cause))).canFollowDusk hn.st
    exact ⟨hn.trans hf, hf.longOp hl⟩

/-- The hardware path changes no more than pairs, the supervisor, the window frame and the stop announced for the cycle end. -/
theorem State.dusking_path (s : State) (cause : Nat) : ∃ p, s.dusking cause = { s with
    pairs := p
    sup := { s.sup with faultLatch := true, duskCause := cause, fromDusk := false, st := .dusk }
    cyc := { s.cyc with leaving := false }
    hx := { s.hx with frameOn := false } } := by
  unfold State.dusking State.duskPath
  generalize hv : ({ s with
    sup := { s.sup with faultLatch := true, duskCause := cause, fromDusk := false }
    cyc := { s.cyc with leaving := false }
    hx := { s.hx with frameOn := false } } : State) = v
  obtain ⟨p, e⟩ := v.freezePairs_pairs
  rw [e, ← hv]
  exact ⟨p, rfl⟩

theorem State.dusking_frozen (s : State) (cause p : Nat) (h : s.pairFitted p = true) : ((s.dusking cause).pair p).frozen = true := by
  exact State.freezePairs_frozen _ p h

/-- What the entry to the Dusk state leaves: the fault latched, the pairs stopped, and everything that stands apart from it. -/
structure State.FellDusk (s t : State) (cause : Nat) : Prop where
  st : t.sup.st = .dusk
  faultLatch : t.sup.faultLatch = true
  duskCause : t.sup.duskCause = cause
  fromDusk : t.sup.fromDusk = false
  longOp : t.sup.longOp = none
  frozen : ∀ p, s.pairFitted p = true → (t.pair p).frozen = true
  pending : t.pending = s.pending
  ident : t.ident = s.ident
  clk : t.clk = s.clk
  engines : t.engines = s.engines
  hxm : t.hxm = s.hxm
  poison : t.poison = s.poison
  pwr : t.pwr = s.pwr
  tmb : t.tmb = s.tmb
  reg : ∀ q, farReg q = true → t.reg q = s.reg q
  reported : s.rcd.reported <+: t.rcd.reported

theorem State.enterDusk_fell (s : State) (cause : Nat) (ha : s.alive = true) (hd : s.sup.st ≠ .dusk) : s.FellDusk (s.enterDusk cause) cause := by
  obtain ⟨hb, hl⟩ := s.enterDusk_spec cause ha hd
  have hz := s.dusking_frozen cause
  obtain ⟨p, e⟩ := s.dusking_path cause
  have hfrozen (k : Nat) (hk : s.pairFitted k = true) : ((s.enterDusk cause).pair k).frozen = true := by
    rw [State.pair, hb.pairs]
    exact hz k hk
  rw [e] at hb
  exact ⟨hb.st, (congrArg Sup.faultLatch hb.sup :), (congrArg Sup.duskCause hb.sup :), (congrArg Sup.fromDusk hb.sup :), hl, hfrozen, hb.pending, hb.ident,
    hb.clk, hb.engines, hb.hxm, hb.poison, hb.pwr, hb.tmb, hb.reg, hb.reported⟩

/-- Where a fitted pair of `s` is one of `v`, the state reached from `v` is one that `s` falls to. -/
theorem State.FellDusk.wentDusk {s v t : State} {cause : Nat} (h : v.FellDusk t cause) (hp : v.pending = s.pending) (hi : v.ident = s.ident) (hc : v.clk = s.clk) :
    WentDusk s t cause :=
  ⟨h.st, h.faultLatch, h.duskCause, h.fromDusk, h.longOp,
    fun p hf => h.frozen p (by rw [State.pairFitted, State.cap, hi]; exact hf), h.pending.trans hp, h.ident.trans hi, h.clk.trans hc⟩

/-- A report made before the fall is the first new one. -/
theorem Reports.of_prefix {s v t : State} {code : RCode} {src : Nat} {words words' : List Nat} (h : (v.report code src words').rcd.reported <+: t.rcd.reported)
    (hr : v.rcd = s.rcd) (hs : v.stamp = s.stamp) (hw : words <+: words') : Reports s t code src words := by
  obtain ⟨l, hl⟩ := h
  refine ⟨⟨code, src, v.stamp, v.flag F.TMB_STAT_TSET, v.frc, words'.map (BitVec.ofNat 32)⟩, l, ?_, rfl, rfl, hs, hw.map _⟩
  rw [← hl, State.report, List.append_assoc, List.singleton_append]
  exact congrArg (fun r : Rec => r.reported ++ _) hr

theorem State.pairFails_spec (s : State) (p : Nat) (code : RCode) (words words' : List Nat) (hw : words <+: words') (ha : s.alive = true) (hd : s.sup.st ≠ .dusk) :
    WentDusk s (s.pairFails p code words') 1 ∧ Reports s (s.pairFails p code words') code (0x20 + p) words := by
  unfold State.pairFails
  dsimp only
  generalize hv : (s.modPair p fun q => { q with frozen := true, testing := none }) = v
  have h := State.enterDusk_fell (v.report code (srcPair p) words') 1 (by subst hv; exact ha) (by subst hv; exact hd)
  subst hv
  exact ⟨h.wentDusk rfl rfl rfl, Reports.of_prefix h.reported rfl rfl hw⟩

theorem State.leFails_spec (s : State) (e : Nat) (code : RCode) (words words' : List Nat) (hw : words <+: words') (ha : s.alive = true) (hd : s.sup.st ≠ .dusk) :
    WentDusk s (s.leFails e code words') 2 ∧ ((s.leFails e code words').eng e).shadow = [] ∧ Reports s (s.leFails e code words') code (0x60 + e) words := by
  unfold State.leFails
  have hs : ((s.setEng e { s.eng e with testing := none, shadow := [] }).eng e).shadow = [] := by rw [State.eng_setEng_same]
  generalize hv : s.setEng e { s.eng e with testing := none, shadow := [] } = v at hs
  have h := State.enterDusk_fell (v.report code (srcLe e) words') 2 (by subst hv; exact ha) (by subst hv; exact hd)
  refine ⟨?_, ?_, ?_⟩
  · subst hv; exact h.wentDusk rfl rfl rfl
  · rw [State.eng, h.engines]; exact hs
  · subst hv; exact Reports.of_prefix h.reported rfl rfl hw

/-! ### Mismatches (R60, R65, R66, R166) -/

theorem comparatorMismatch : ComparatorMismatch := by
  refine ⟨fun p grp lane lead trail s hlane hfit ha hd hz hclk => ⟨_, rfl, ?_⟩, fun e grp lane lead trail s hfit ha hd => ⟨_, rfl, ?_⟩⟩
  · have hgo : (s.pairFitted p && s.alive && s.sup.st != .dusk && !(s.pair p).frozen && s.get (F.PWR_PAIRCLK_STATE p) == 0 && decide (lane < cmpLanes grp)) = true := by
      simp [hfit, ha, hd, hz, hclk, hlane]
    rw [pairMismatch, if_pos hgo]
    exact s.pairFails_spec p _ _ _ ⟨_, rfl⟩ ha hd
  · have hgo : (s.engineFitted e && s.alive && s.sup.st != .dusk) = true := by simp [hfit, ha, hd]
    rw [leMismatch, if_pos hgo]
    exact s.leFails_spec e _ _ _ ⟨_, rfl⟩ ha hd

/-! ### The daily tests (R61, R63, R64, R167) -/

/-- Whether a test is due and how long overdue it is stand in the pairs, the engines and registers that only tests write. -/
theorem State.cmp_congr {s t : State} (hp : ∀ p, (s.pair p).Counted (t.pair p)) (he : t.engines = s.engines)
    (hr : ∀ q, farReg q = true → t.reg q = s.reg q) (u : Nat) (hu : u < 6) : t.cmpDue u = s.cmpDue u ∧ t.cmpOverdue u = s.cmpOverdue u := by
  unfold State.cmpDue State.cmpOverdue
  split
  · obtain ⟨c, m, e⟩ := hp u
    rw [e]
    exact ⟨rfl, rfl⟩
  next h4 =>
    have hq : farReg (F.LE_CMPST_DUE (u - 4)).off = true := by
      obtain rfl | rfl : u = 4 ∨ u = 5 := by omega
      all_goals rfl
    rw [State.eng, State.eng, he, State.flag, State.flag, State.get, State.get, hr _ hq]
    exact ⟨rfl, rfl⟩

theorem State.farReg_later (s : State) (x q : Nat) (hq : farReg q = true) : (s.advance x).reg q = s.reg q := by
  simp [farReg] at hq
  exact s.reg_later x q (by omega) (by omega)

theorem State.cmp_advance (s : State) (x u : Nat) (hu : u < 6) : (s.advance x).cmpDue u = s.cmpDue u ∧ (s.advance x).cmpOverdue u = s.cmpOverdue u := by
  obtain ⟨-, -, -, -, -, -, heng, -⟩ := (s.advance_moves x).1.same
  exact State.cmp_congr (s.pair_advance x) heng (s.farReg_later x) u hu

theorem State.cmp_marked (v : State) (u : Nat) :
    ((if u < 4 then v.modPair u fun q => { q with cmpDue := true } else v.set (F.LE_CMPST_DUE (u - 4)) 1).cmpDue u = true) ∧
    (if u < 4 then v.modPair u fun q => { q with cmpDue := true } else v.set (F.LE_CMPST_DUE (u - 4)) 1).clk = v.clk := by
  split
  next h4 => exact ⟨by rw [State.cmpDue, if_pos h4, State.pair_modPair_same], rfl⟩
  next h4 => exact ⟨by rw [State.cmpDue, if_neg h4, State.flag, State.get_set_same _ _ _ (Nat.le_of_ble_eq_true rfl)]; rfl, rfl⟩

theorem testFallsDue (u : Fin 6) (s : State) (hf : s.unitFitted u = true) (ha : s.alive = true) (ho : s.clk.opOn = true) (hd : s.cmpDue u = false) :
    ∃ t, exec (.cmpTestDue u) s = .next t ∧ t.cmpDue u = true ∧ t.clk.t = max s.clk.t (s.opAt (s.cmpLast u + dayUnits)) := by
  obtain ⟨hdue, hclk⟩ := (s.advance (s.opAt (s.cmpLast u + dayUnits))).cmp_marked u
  have hgo : cmpTestDue u s = (let v := s.advance (s.opAt (s.cmpLast u + dayUnits))
      if u.val < 4 then v.modPair u fun q => { q with cmpDue := true } else v.set (F.LE_CMPST_DUE (u.val - 4)) 1) := by
    rw [cmpTestDue, if_pos (by simp [hf, ha, ho, hd])]
  refine ⟨cmpTestDue u s, rfl, ?_⟩
  rw [hgo]
  exact ⟨hdue, (congrArg Clk.t hclk).trans (s.advance_moves _).2⟩

/-- The hours overdue of unit `u` are `n`. -/
def State.countOverdue (v : State) (u n : Nat) : State :=
  if u < 4 then v.modPair u fun q => { q with cmpOverdue := n } else v.setEng (u - 4) { v.eng (u - 4) with cmpOverdue := n }

theorem State.countOverdue_spec (v : State) (u n : Nat) :
    (v.countOverdue u n).cmpOverdue u = n ∧ (v.countOverdue u n).cmpDue u = v.cmpDue u ∧ (v.countOverdue u n).clk = v.clk ∧
      (v.countOverdue u n).rcd = v.rcd := by
  unfold State.countOverdue State.cmpDue State.cmpOverdue
  split
  · rw [State.pair_modPair_same]
    exact ⟨rfl, rfl, rfl, rfl⟩
  · rw [State.eng_setEng_same]
    exact ⟨rfl, rfl, rfl, rfl⟩

theorem State.report_origins (s : State) (code : RCode) (src : Nat) (words : List Nat) :
    (s.report code src words).rcd.reported.map (fun r => (r.code, r.src)) = s.rcd.reported.map (fun r => (r.code, r.src)) ++ [(code, src)] :=
  List.map_append

/-- The record of an overdue test comes at its instant, and moves no mark of a test. -/
theorem State.overdue_recorded (s : State) (x u : Nat) (hu : u < 6) (words : List Nat) :
    (((s.advance x).raise 41).report .CMP_TEST_OVERDUE srcHx words).cmpDue u = s.cmpDue u ∧
    (((s.advance x).raise 41).report .CMP_TEST_OVERDUE srcHx words).clk.t = max s.clk.t x ∧
    (((s.advance x).raise 41).report .CMP_TEST_OVERDUE srcHx words).rcd.reported.map (fun r => (r.code, r.src)) =
      s.rcd.reported.map (fun r => (r.code, r.src)) ++ [(.CMP_TEST_OVERDUE, 0x40)] := by
  have hb : Beside (s.advance x) (((s.advance x).raise 41).report .CMP_TEST_OVERDUE srcHx words) := (Beside.refl _).raise.report
  have hpair (p : Nat) : ((s.advance x).pair p).Counted ((((s.advance x).raise 41).report .CMP_TEST_OVERDUE srcHx words).pair p) := by
    rw [State.pair, State.pair, hb.pairs]
    exact .refl _
  have hraise : ((s.advance x).raise 41).rcd = (s.advance x).rcd := by
    obtain ⟨r, v, e⟩ := (s.advance x).raise_sources 41
    rw [e]
  have hlater : (s.advance x).rcd = s.rcd := by
    obtain ⟨_, _, _, _, _, e⟩ := (s.advance_moves x).1
    rw [e]
  refine ⟨(State.cmp_congr hpair hb.engines hb.reg u hu).1.trans (s.cmp_advance x u hu).1, (congrArg Clk.t hb.clk).trans (s.advance_moves x).2, ?_⟩
  rw [State.report_origins, hraise, hlater]
  rfl

theorem testIsOverdue (u : Fin 6) (s : State) (hf : s.unitFitted u = true) (ha : s.alive = true) (ho : s.clk.opOn = true) (hd : s.cmpDue u = true)
    (ht : s.testState = true) :
    ∃ t, exec (.cmpTestOverdue u) s = .next t ∧ t.cmpOverdue u = s.cmpOverdue u + 1 ∧ t.cmpDue u = true ∧
      t.clk.t = max s.clk.t (s.opAt (s.cmpLast u + dayUnits + (s.cmpOverdue u + 1) * hourUnits)) ∧
      t.rcd.reported.map (fun r => (r.code, r.src)) = s.rcd.reported.map (fun r => (r.code, r.src)) ++ [(.CMP_TEST_OVERDUE, 0x40)] := by
  have hgo : cmpTestOverdue u s =
      State.countOverdue (((s.advance (s.opAt (s.cmpLast u + dayUnits + (s.cmpOverdue u + 1) * hourUnits))).raise 41).report .CMP_TEST_OVERDUE srcHx
        [u.val, s.cmpOverdue u + 1]) u (s.cmpOverdue u + 1) := by
    rw [cmpTestOverdue, if_pos (by simp [hf, ha, ho, hd, ht])]
    rfl
  refine ⟨cmpTestOverdue u s, rfl, ?_⟩
  rw [hgo]
  obtain ⟨hdue, hclk, hrep⟩ := s.overdue_recorded (s.opAt (s.cmpLast u + dayUnits + (s.cmpOverdue u + 1) * hourUnits)) u u.isLt [u.val, s.cmpOverdue u + 1]
  obtain ⟨hn, hkeep, hclk', hrcd⟩ := State.countOverdue_spec _ u (s.cmpOverdue u + 1)
  exact ⟨hn, hkeep.trans (hdue.trans hd), (congrArg Clk.t hclk').trans hclk,
    (congrArg (fun r : Rec => r.reported.map fun r => (r.code, r.src)) hrcd).trans hrep⟩

theorem pairTestBegins (p : Fin 4) (s : State) (hf : s.pairFitted p = true) (ht : s.testState = true) (hd : (s.pair p).cmpDue = true)
    (hz : (s.pair p).frozen = false) (hh : (s.pair p).halted = false) (hnone : ∀ q, q < 4 → (s.pair q).testing = none)
    (hlow : ∀ q, q < p.val → s.pairFitted q = true → (s.pair q).cmpDue = false) (hgap : s.testGap p 2400 = true) :
    ∃ t, exec (.cmpSelftest p) s = .next t ∧ t.pair p = { s.pair p with testing := some (s.clk.t + 2000) } ∧ PairsBut s t p ∧
      t = { s with pairs := t.pairs } := by
  refine ⟨_, rfl, ?_⟩
  have hothers : ((List.range 4).any fun n => (s.pair n).testing.isSome || (decide (n < p) && s.pairFitted n && (s.pair n).cmpDue)) = false := by
    rw [List.any_eq_false]
    intro n hn
    have hlow := hlow n
    simp [hnone n (List.mem_range.1 hn)]
    exact hlow
  rw [cmpSelftest, if_pos (by simp [hf, ht, hd, hz, hh, hothers, hgap])]
  exact ⟨s.pair_modPair_same _ _, fun q hq => s.pair_modPair_other _ _ _ hq, rfl⟩

theorem engineTestBegins (e : Fin 2) (s : State) (hf : s.engineFitted e = true) (ht : s.testState = true) (hd : s.cmpDue (4 + e) = true)
    (hnone : (s.eng e).testing = none) (hgap : s.testGap (4 + e) 1600 = true) :
    ∃ t, exec (.leCmpSelftest e) s = .next t ∧ t.eng e = { s.eng e with testing := some (s.clk.t + 800) } ∧ t.get (F.LE_STAT_STATE e) = 2 ∧
      EnginesBut s t e ∧ RegsBut s t [(F.LE_STAT_STATE e).off] := by
  refine ⟨_, rfl, ?_⟩
  rw [leCmpSelftest, if_pos (by simp [hf, ht, hd, hnone, hgap])]
  refine ⟨s.eng_setEng_same _ _, ?_, fun k hk => s.eng_setEng_other _ _ _ hk, fun q hq => ?_⟩
  · exact State.get_set_same _ _ _ (Nat.le_of_ble_eq_true rfl)
  · exact State.reg_set_other _ _ q _ (by simpa using hq)

theorem pairTestPasses (p : Fin 4) (x : Nat) (s : State) (hx : (s.pair p).testing = some x) : ∃ u : State,
    exec (.cmpSelftestEnd ⟨p, by omega⟩ none) s = .next ((((u.leaveExcluded).tryOpen p).settle p)) ∧
    u.pair p = { (s.advance x).pair p with
      testing := none, cmpDue := false, cmpPass := min ((s.pair p).cmpPass + 1) 65535, cmpLast := (s.advance x).optime, cmpOverdue := 0 } ∧
    u = { s.advance x with pairs := u.pairs } := by
  have hp : p.val < 4 := p.isLt
  have hu : (s.advance x).testPassed p = (s.advance x).modPair p fun q =>
      { q with testing := none, cmpDue := false, cmpPass := min (q.cmpPass + 1) 65535, cmpLast := (s.advance x).optime, cmpOverdue := 0 } := if_pos hp
  refine ⟨(s.advance x).testPassed p, ?_, ?_, ?_⟩
  · show execCmpSelftestEnd _ none s = _
    rw [execCmpSelftestEnd, cmpSelftestEnd, if_pos hp, hx]
  · obtain ⟨c, m, hc⟩ := s.pair_advance x p
    rw [hu, State.pair_modPair_same, hc]
  · rw [hu]
    rfl

theorem engineTestPasses (e : Fin 2) (x : Nat) (s : State) (hx : (s.eng e).testing = some x) : ∃ u : State,
    exec (.cmpSelftestEnd ⟨4 + e, by omega⟩ none) s = .next ((u.leaveExcluded).tryOpen (4 + e)) ∧
    u.eng e = { s.eng e with testing := none, cmpLast := (s.advance x).optime, cmpOverdue := 0 } ∧ u.flag (F.LE_CMPST_DUE e) = false ∧
    u.get (F.LE_CMPST_PASS_COUNT e) = satAdd 65535 (s.get (F.LE_CMPST_PASS_COUNT e)) 1 ∧ u.get (F.LE_STAT_STATE e) = 0 := by
  have h4 : ¬ 4 + e.val < 4 := by omega
  have he : 4 + e.val - 4 = e.val := by omega
  obtain ⟨-, -, -, -, -, -, heng, -⟩ := (s.advance_moves x).1.same
  have hg : (s.advance x).eng e = s.eng e := by rw [State.eng, State.eng, heng]
  have hcount : (s.advance x).get (F.LE_CMPST_PASS_COUNT e) = s.get (F.LE_CMPST_PASS_COUNT e) := by
    have hq : farReg (F.LE_CMPST_PASS_COUNT e).off = true := by
      have h2 := e.isLt
      generalize e.val = k at h2
      obtain rfl | rfl : k = 0 ∨ k = 1 := by omega
      all_goals rfl
    rw [State.get, State.get, s.farReg_later x _ hq]
  have hstat : (F.LE_STAT_STATE e).off ≠ (F.LE_CMPST_DUE e).off := by simp [F.LE_STAT_STATE, F.LE_CMPST_DUE]
  have hu : (s.advance x).testPassed (4 + e) = ((((s.advance x).setEng e { (s.advance x).eng e with
      testing := none, cmpLast := (s.advance x).optime, cmpOverdue := 0 }).set (F.LE_CMPST_DUE e) 0).inc (F.LE_CMPST_PASS_COUNT e)).set (F.LE_STAT_STATE e) 0 := by
    rw [State.testPassed, if_neg h4, he]
  refine ⟨(s.advance x).testPassed (4 + e), ?_, ?_⟩
  · show execCmpSelftestEnd _ none s = _
    rw [execCmpSelftestEnd, cmpSelftestEnd, if_neg h4, he, hx]
    dsimp only
    rw [State.settle_engine _ _ (Nat.le_add_right 4 e)]
  · rw [hu, hg]
    refine ⟨State.eng_setEng_same _ _ _, ?_, ?_, ?_⟩
    · rw [State.flag, State.get_set_other _ _ _ _ (by exact hstat.symm), State.inc, State.incBy, State.get_set_beside _ _ _ _ (by simp [F.LE_CMPST_DUE, F.LE_CMPST_PASS_COUNT]),
        State.get_set_same _ _ _ (Nat.le_of_ble_eq_true rfl)]
      rfl
    · rw [State.get_set_other _ _ _ _ (by exact hstat.symm), State.get_inc _ _ (Nat.le_of_ble_eq_true rfl), 
        State.get_set_beside _ _ _ _ (by simp [F.LE_CMPST_DUE, F.LE_CMPST_PASS_COUNT])]
      exact congrArg (satAdd 65535 · 1) hcount
    · exact State.get_set_same _ _ _ (Nat.le_of_ble_eq_true rfl)

theorem pairTestFails (p : Fin 4) (x lane : Nat) (s : State) (hx : (s.pair p).testing = some x) (ha : s.alive = true) (hd : s.sup.st ≠ .dusk) :
    ∃ t, exec (.cmpSelftestEnd ⟨p, by omega⟩ (some lane)) s = .next t ∧ WentDusk (s.advance x) t 1 ∧
      Reports (s.advance x) t .CMP_SELFTEST_FAIL (0x20 + p.val) [p.val, lane] := by
  obtain ⟨-, -, -, -, -, -, -, -, -, -, -, -, -, hsup, -⟩ := (s.advance_moves x).1.same
  have ha' : (s.advance x).alive = true := by rw [State.alive, hsup]; exact ha
  refine ⟨(s.advance x).pairFails p .CMP_SELFTEST_FAIL [p, lane], ?_, State.pairFails_spec _ p _ _ _ ⟨[], rfl⟩ ha' (by rw [hsup]; exact hd)⟩
  show execCmpSelftestEnd _ (some lane) s = _
  rw [execCmpSelftestEnd, cmpSelftestEnd, if_pos p.isLt, hx]
  dsimp only
  rw [if_pos p.isLt]

theorem comparatorTests : ComparatorTests :=
  ⟨testFallsDue, testIsOverdue, pairTestBegins, engineTestBegins, pairTestPasses, engineTestPasses, pairTestFails⟩

/-- Settles O16: a mismatch and a failed test enter the Dusk state after their record; a test moves only the marks of its unit. -/
theorem comparators : Obligations.Comparators := ⟨comparatorMismatch, comparatorTests⟩

end Sys2Proof.Machine
end

section
/-! SUPPORT. Requests that operate the module (O49): what the judging of held launches (R314, R315) and the delivery of a reply leave as it is, and the
commands on time, network, leases, tests and power. -/
namespace Sys2Proof.Machine
open Sys2Proof.Claims
set_option Elab.async false

/-! ### The judging of held launches -/

/-- `t` is what the judging of held entries makes of `s` at the same instant: discards are counted, raised and recorded. -/
structure Judged (s t : State) : Prop where
  ident : t.ident = s.ident
  clk : t.clk = s.clk
  tmb : t.tmb = s.tmb
  pwr : t.pwr = s.pwr
  sup : t.sup = s.sup
  tset : t.reg 0x70000 = s.reg 0x70000
  pulses : ∀ n, (n, s.fab) ∈ s.vdx.pulses → (n, s.fab) ∈ t.vdx.pulses
  reported : s.rcd.reported <+: t.rcd.reported

namespace Judged
variable {s₀ s : State}

theorem refl (s : State) : Judged s s := ⟨rfl, rfl, rfl, rfl, rfl, rfl, fun _ h => h, List.prefix_rfl⟩

theorem fab {t : State} (h : Judged s t) : t.fab = s.fab := by rw [State.fab, h.clk]; rfl

theorem trans {t : State} (h : Judged s₀ s) (k : Judged s t) : Judged s₀ t where
  ident := k.ident.trans h.ident
  clk := k.clk.trans h.clk
  tmb := k.tmb.trans h.tmb
  pwr := k.pwr.trans h.pwr
  sup := k.sup.trans h.sup
  tset := k.tset.trans h.tset
  pulses n hn := h.fab ▸ k.pulses n (h.fab.symm ▸ h.pulses n hn)
  reported := h.reported.trans k.reported

/-- A change of what `Judged` does not speak of. -/
theorem same {t : State} (h : Judged s₀ s) (hident : t.ident = s.ident := by rfl) (hclk : t.clk = s.clk := by rfl) (htmb : t.tmb = s.tmb := by rfl)
    (hpwr : t.pwr = s.pwr := by rfl) (hsup : t.sup = s.sup := by rfl) (hregs : t.regs = s.regs := by rfl)
    (hpulses : t.vdx.pulses = s.vdx.pulses := by rfl) (hrcd : t.rcd.reported = s.rcd.reported := by rfl) : Judged s₀ t :=
  h.trans ⟨hident, hclk, htmb, hpwr, hsup, by rw [State.reg, State.reg, hregs], fun _ hn => hpulses ▸ hn, by rw [hrcd]⟩

theorem either {c : Prop} {_ : Decidable c} {t u : State} (ht : Judged s₀ t) (hu : Judged s₀ u) : Judged s₀ (if c then t else u) := by
  split <;> assumption

theorem fold {α : Type} {f : State → α → State} {l : List α} (hf : ∀ u a, Judged s₀ u → Judged s₀ (f u a)) (h : Judged s₀ s) :
    Judged s₀ (l.foldl f s) :=
  foldl_keeps (Judged s₀) f hf l s h

/-- A write of another register than TMB_STAT. -/
theorem set (h : Judged s₀ s) {f : Field} {v : Nat} (hf : f.off ≠ 0x70000 := by decide) : Judged s₀ (s.set f v) :=
  h.trans ⟨rfl, rfl, rfl, rfl, rfl, s.reg_set_other f 0x70000 v hf.symm, fun _ hn => hn, List.prefix_rfl⟩

theorem inc (h : Judged s₀ s) {f : Field} (hf : f.off ≠ 0x70000 := by decide) : Judged s₀ (s.inc f) := h.set hf

theorem raise (h : Judged s₀ s) {n : Nat} : Judged s₀ (s.raise n) := by
  have hreg : (s.raise n).reg 0x70000 = s.reg 0x70000 := ((Beside.refl s).raise (n := n)).reg _ rfl
  have hpulses (k : Nat) (hk : (k, s.fab) ∈ s.vdx.pulses) : (k, s.fab) ∈ (s.raise n).vdx.pulses := s.pulse_raise n k hk
  refine h.trans ?_
  obtain ⟨r, v, e⟩ := s.raise_sources n
  rw [e] at hreg hpulses ⊢
  exact ⟨rfl, rfl, rfl, rfl, rfl, hreg, hpulses, List.prefix_rfl⟩

theorem report (h : Judged s₀ s) {code : RCode} {src : Nat} {words : List Nat} : Judged s₀ (s.report code src words) :=
  h.trans ⟨rfl, rfl, rfl, rfl, rfl, rfl, fun _ hn => hn, ⟨_, rfl⟩⟩

theorem setCan (h : Judged s₀ s) {n : Nat} {v : Can} : Judged s₀ (s.setCan n v) := h.same
theorem setHead (h : Judged s₀ s) {q : Nat} {x : Option TxHead} : Judged s₀ (s.setHead q x) := h.same
theorem launchDrop (h : Judged s₀ s) {c l : Nat} : Judged s₀ (s.launchDrop c l) := (either h.inc h.inc).raise.report

theorem qShow (h : Judged s₀ s) {g : QGeo} (hg : g.b < 0x50000) {c : QSt} : Judged s₀ (s.qShow g c) := by
  have hf (k : Nat) (hk : k < 0x20) : g.b + k ≠ 0x70000 := by omega
  have h1 : Judged s₀ (s.setQueue g.b c) := h.same
  exact (((((h1.set (hf _ (by decide))).set (hf _ (by decide))).set (hf _ (by decide))).set (hf _ (by decide))).set (hf _ (by decide))).set (hf _ (by decide))

theorem qSet (h : Judged s₀ s) {g : QGeo} (hg : g.b < 0x50000) {c : QSt} : Judged s₀ (s.qSet g c) := by
  have hf : g.b + 0x18 ≠ 0x70000 := by omega
  exact either (((h.qShow hg).set hf).inc hf).raise (.either (((h.qShow hg).set hf).inc hf).raise (h.qShow hg))

theorem txqJudge (h : Judged s₀ s) {g : QGeo} (hg : g.b < 0x50000) {n k : Nat} : Judged s₀ (s.txqJudge g n k) := by
  induction k generalizing s with
  | zero => exact h
  | succ k ih =>
    unfold State.txqJudge
    exact either h.setCan (either h (either (ih (h.qSet hg).launchDrop) h.setCan))

theorem txq_low {g : QGeo} {n : Nat} (h : s.txq n = some g) : g.b < 0x50000 := by
  unfold State.txq at h
  split at h
  · exact nomatch h
  · obtain rfl := Option.some.inj h
    have hq : s.get (F.CAN_TXQ_QUEUE n) < 256 := fieldGet_lt _ _ _
    show 0x38000 + s.get (F.CAN_TXQ_QUEUE n) * 0x100 < 0x50000
    omega

theorem clrBit (h : Judged s₀ s) {f : Field} {b : Nat} (hf : f.off ≠ 0x70000) : Judged s₀ (s.clrBit f b) := either (h.set hf) h

theorem tbDrop (h : Judged s₀ s) {n b : Nat} : Judged s₀ (s.tbDrop n b) :=
  ((h.clrBit (by simp only [F.CAN_TXPEND_W]; omega)).clrBit (by simp only [F.CAN_TXHELD_W]; omega)).setCan

theorem tbJudge (h : Judged s₀ s) {n b : Nat} : Judged s₀ (s.tbJudge n b) := either h (.either h.tbDrop.launchDrop h.setCan)

theorem headJudgeCan (h : Judged s₀ s) {n : Nat} : Judged s₀ (s.headJudgeCan n) := by
  unfold State.headJudgeCan
  split
  next hq => exact h.setCan.txqJudge (txq_low hq)
  next => exact h

theorem canJudgeHeld (h : Judged s₀ s) {n : Nat} : Judged s₀ (s.canJudgeHeld n) := by
  unfold State.canJudgeHeld
  extract_lets u
  have hu : Judged s₀ u := fold (fun _ _ h1 => .either h1 h1.tbJudge) h
  exact .either hu hu.headJudgeCan

theorem headJudge (h : Judged s₀ s) {q : Nat} : Judged s₀ (s.headJudge q) := by
  unfold State.headJudge
  split
  · split
    · split
      exacts [h, h.setHead, h.setHead.launchDrop]
    · exact h
  · exact h

theorem rejudge (h : Judged s₀ s) : Judged s₀ s.rejudge := by
  unfold State.rejudge
  extract_lets u
  have hu : Judged s₀ u := by
    refine fold (fun _ _ h1 => ?_) h
    split
    exacts [.either h1 h1.headJudge, h1]
  exact .fold (fun _ _ h1 => .either h1.canJudgeHeld h1) hu

theorem ixFollow (h : Judged s₀ s) : Judged s₀ s.ixFollow := by
  refine either h (fold (fun u c h1 => ?_) h)
  split
  · exact .either (h1.set (by simp only [F.IXS_CSTAT_STATE]; omega)) h1
  · exact h1

theorem canFollow (h : Judged s₀ s) : Judged s₀ s.canFollow := by
  have hf (n : Nat) : 0xA0004 + n * 0x1000 ≠ 0x70000 := by omega
  exact ixFollow (fold (fun _ n h1 => .either h1 (.either (h1.set (hf n)) (.either (.either h1 h1.canJudgeHeld) (h1.setCan.set (hf n))))) h)

end Judged

/-! ### The delivery of a reply -/

/-- The event registers of the sources from 408 on are those of the supervisor, the recorder and the power unit. -/
theorem evtField_high (n : Nat) (hn : 408 ≤ n) (f : Field) (h : evtField n = some f) : 0xD0000 ≤ f.off := by
  unfold evtField at h
  rw [if_neg (by omega), if_neg (by omega), if_neg (by omega), if_neg (by omega), if_neg (by omega), if_neg (by omega), if_neg (by omega),
    if_neg (by omega), if_neg (by omega), if_neg (by omega), if_neg (by omega)] at h
  split at h
  · obtain rfl := Option.some.inj h
    show 0xD0000 ≤ 0xD8000
    decide
  · split at h
    · obtain rfl := Option.some.inj h
      show 0xD0000 ≤ 0xE0004
      decide
    · split at h
      · obtain rfl := Option.some.inj h
        show 0xD0000 ≤ 0xF0004
        decide
      · exact nomatch h

/-- A reply has gone out or waits: of what commands act on, nothing has changed. -/
structure Delivered (s t : State) : Prop where
  frame : ∃ r m v o w d p, t = { s with regs := r, mem := m, vdx := v, out := o, sup := { s.sup with waiting := w, dropped := d, portWait := p } }
  reg : ∀ q, q < 0xD0000 → offSources q → t.reg q = s.reg q
  pulses : ∀ n, (n, s.fab) ∈ s.vdx.pulses → (n, s.fab) ∈ t.vdx.pulses

namespace Delivered
variable {s₀ s : State}

theorem refl (s : State) : Delivered s s := ⟨⟨_, _, _, _, _, _, _, rfl⟩, fun _ _ _ => rfl, fun _ h => h⟩

theorem trans {t : State} (h : Delivered s₀ s) (k : Delivered s t) : Delivered s₀ t := by
  obtain ⟨⟨r, m, v, o, w, d, p, rfl⟩, hreg, hpulses⟩ := h
  obtain ⟨⟨r', m', v', o', w', d', p', rfl⟩, kreg, kpulses⟩ := k
  exact ⟨⟨_, _, _, _, _, _, _, rfl⟩, fun q hq hs => (kreg q hq hs).trans (hreg q hq hs), fun n hn => kpulses n (hpulses n hn)⟩

theorem emit (h : Delivered s₀ s) {i : Iface} {unit kind : Nat} {data : List Byte} : Delivered s₀ (s.emit i unit kind data) :=
  h.trans ⟨⟨_, _, _, _, _, _, _, rfl⟩, fun _ _ _ => rfl, fun _ hn => hn⟩

theorem set (h : Delivered s₀ s) {f : Field} {v : Nat} (hf : 0xD0000 ≤ f.off) : Delivered s₀ (s.set f v) :=
  h.trans ⟨⟨_, _, _, _, _, _, _, rfl⟩, fun q hq _ => s.reg_set_other f q v (by omega), fun _ hn => hn⟩

theorem raise (h : Delivered s₀ s) {n : Nat} (hn : 408 ≤ n) : Delivered s₀ (s.raise n) := by
  have hreg (q : Nat) (hq : q < 0xD0000) (hs : offSources q) : (s.raise n).reg q = s.reg q := by
    refine s.reg_raise n q hs fun f hf hqf => ?_
    have := evtField_high n hn f hf
    omega
  have hpulses (k : Nat) (hk : (k, s.fab) ∈ s.vdx.pulses) : (k, s.fab) ∈ (s.raise n).vdx.pulses := s.pulse_raise n k hk
  refine h.trans ?_
  obtain ⟨r, v, e⟩ := s.raise_sources n
  rw [e] at hreg hpulses ⊢
  exact ⟨⟨_, _, _, _, _, _, _, rfl⟩, hreg, hpulses⟩

theorem wrBytes (h : Delivered s₀ s) {a : Nat} {l : List Byte} : Delivered s₀ (s.wrBytes a l) :=
  h.trans ⟨⟨_, _, _, _, _, _, _, rfl⟩, fun _ _ _ => rfl, fun _ hn => hn⟩

theorem taken (h : Delivered s₀ s) {n : Nat} : Delivered s₀ { s with sup := { s.sup with portWait := n } } :=
  h.trans ⟨⟨_, _, _, _, _, _, _, rfl⟩, fun _ _ _ => rfl, fun _ hn => hn⟩

theorem scpQueue (h : Delivered s₀ s) {k : Packet} {unsol : Bool} : Delivered s₀ (s.scpQueue k unsol) := by
  unfold State.scpQueue
  extract_lets w n u
  have hu : Delivered s₀ u := by
    refine h.trans ?_
    unfold u
    split
    · exact ⟨⟨_, _, _, _, _, _, _, rfl⟩, fun _ _ _ => rfl, fun _ hn => hn⟩
    · split
      all_goals exact ⟨⟨_, _, _, _, _, _, _, rfl⟩, fun _ _ _ => rfl, fun _ hn => hn⟩
  unfold State.announce
  split
  · exact hu.emit
  · exact hu

theorem deliver (h : Delivered s₀ s) {o : Origin} {k : Packet} : Delivered s₀ (s.deliver o k) := by
  unfold State.deliver
  split
  · exact h.scpQueue
  · exact foldl_keeps (Delivered s₀) _ (fun _ _ h1 => h1.emit) _ _ h
  all_goals
    extract_lets n b u v k1 w
    have hu : Delivered s₀ u := h.wrBytes
    have hmb : 0xD0000 ≤ 0xD0000 + n * 0x1000 := Nat.le_add_right _ _
    have hv : Delivered s₀ v := ((hu.set hmb).set hmb).set hmb
    have hw : Delivered s₀ w := hv.taken
    split
  · exact (hw.set (by decide)).raise (by decide)
  · exact hw.raise (Nat.le_add_right _ _)
  · exact (hw.set (by decide)).raise (by decide)
  · exact (hw.set (by decide)).raise (by decide)

end Delivered

/-- The reply is the last one of its origin, and what commands act on is as it was. -/
theorem State.answer_spec (s : State) (r : Req) (opc status : Nat) (data : List Byte) :
    Answered (s.answer r opc status data) r opc status data ∧
    Delivered (s.setLast (reqKey r) ⟨r.seq, r.trailer, replyOf r opc status data⟩) (s.answer r opc status data) := by
  have hlast : ((s.setLast (reqKey r) ⟨r.seq, r.trailer, replyOf r opc status data⟩).lastReq (originKey r.origin)) =
      some ⟨r.seq, r.trailer, replyOf r opc status data⟩ := by
    have hgone : (s.sup.lasts.filter fun c => decide (c.1 ≠ reqKey r)).find? (fun c => c.1 == originKey r.origin) = none := by
      rw [List.find?_eq_none]
      intro c hc
      have hne := of_decide_eq_true (List.mem_filter.1 hc).2
      simpa [reqKey] using hne
    show Option.map _ (List.find? _ (_ ++ _)) = _
    rw [List.find?_append, hgone]
    simp [reqKey]
  have hd : Delivered (s.setLast (reqKey r) ⟨r.seq, r.trailer, replyOf r opc status data⟩) (s.answer r opc status data) := by
    unfold State.answer
    extract_lets k u
    split
    · exact .refl _
    · exact (Delivered.refl _).deliver
  refine ⟨?_, hd⟩
  obtain ⟨⟨_, _, _, _, _, _, _, e⟩, -, -⟩ := hd
  rw [Answered, e]
  exact hlast

/-- A request that the checks let pass, of a length that the command takes, is concluded with what the command answers. -/
theorem State.command_runs {s u : State} {r : Req} {opc : Nat} {ok : List MState} {len : Nat → Bool} {body : State → Ans} (h : Asked s r opc ok u)
    (hl : len r.payload.length = true) : s.command r opc ok len body = ((s.take r).keepCounter r).conclude r opc (body u) := by
  rw [State.command_asked s u r opc ok len body h, if_pos hl]

/-! ### TIME_GET and TIME_SET (R302, R304) -/

/-- At its anchor the time of day is the offset. -/
theorem todAt_anchor (b : Tmb) : todAt b b.anchor = b.offset := by simp [todAt]

/-- A new offset anchored at this instant, with TSET, source 256 and its record. -/
def State.todStepped (s : State) (b : Tmb) (words : List Nat) : State :=
  ((({ s with tmb := b } : State).set F.TMB_STAT_TSET 1).raise 256).report .TIME_STEP srcTmb words

theorem State.todStepped_spec (s : State) (b : Tmb) (words : List Nat) (hb : b.anchor = s.frc) :
    (s.todStepped b words).clk = s.clk ∧ (s.todStepped b words).tod = b.offset ∧ (s.todStepped b words).flag F.TMB_STAT_TSET = true ∧
    (256, s.fab) ∈ (s.todStepped b words).vdx.pulses ∧
    (s.todStepped b words).rcd.reported.map (fun e => e.code) = s.rcd.reported.map (fun e => e.code) ++ [.TIME_STEP] := by
  unfold State.todStepped
  generalize hu : ({ s with tmb := b } : State).set F.TMB_STAT_TSET 1 = u
  have htset : u.flag F.TMB_STAT_TSET = true := by
    rw [← hu, State.flag, State.get_set_same _ _ _ (Nat.le_of_ble_eq_true rfl)]
    rfl
  have hj : Judged u ((u.raise 256).report .TIME_STEP srcTmb words) := (Judged.refl u).raise.report
  have hpulse := u.pulses_raise 256 rfl
  have hcode := ((u.raise 256).report_spec .TIME_STEP srcTmb words).1
  have hrcd : (u.raise 256).rcd = u.rcd := by
    obtain ⟨r, v, e⟩ := u.raise_sources 256
    rw [e]
  have hclk : u.clk = s.clk := by subst hu; rfl
  have htmb : u.tmb = b := by subst hu; rfl
  have hsrcd : u.rcd = s.rcd := by subst hu; rfl
  have hfrc : ((u.raise 256).report .TIME_STEP srcTmb words).frc = b.anchor := by
    rw [State.frc, hj.clk, hclk, hb]
    rfl
  refine ⟨hj.clk.trans hclk, ?_, ?_, ?_, ?_⟩
  · rw [State.tod, hfrc, hj.tmb, htmb, todAt_anchor]
  · rw [State.flag, State.get, show F.TMB_STAT_TSET.off = 0x70000 from rfl, hj.tset]
    exact htset
  · rw [State.fab, ← hclk]
    exact hpulse
  · rw [hcode, hrcd, hsrcd]

/-- The time of day is stepped with source 256 and TSET, and recorded; held entries follow. -/
theorem State.setTod_spec (s : State) (new : Nat) :
    (s.setTod new).clk = s.clk ∧ (s.setTod new).tod = new ∧ (s.setTod new).flag F.TMB_STAT_TSET = true ∧ (256, s.fab) ∈ (s.setTod new).vdx.pulses ∧
    ∃ l, (s.setTod new).rcd.reported.map (fun e => e.code) = s.rcd.reported.map (fun e => e.code) ++ .TIME_STEP :: l := by
  have hj : Judged (s.stepTod new) (s.setTod new) := (Judged.refl _).rejudge
  obtain ⟨b, words, hb, ho, e⟩ : ∃ b words, b.anchor = s.endSlew.frc ∧ b.offset = new ∧ s.stepTod new = s.endSlew.todStepped b words :=
    ⟨_, _, rfl, rfl, rfl⟩
  obtain ⟨hclk, htod, hset, hpulse, hcode⟩ := s.endSlew.todStepped_spec b words hb
  rw [← e] at hclk htod hset hpulse hcode
  have hend : s.endSlew.clk = s.clk := rfl
  have hfab : (s.stepTod new).fab = s.fab := by rw [State.fab, hclk]; rfl
  refine ⟨hj.clk.trans hclk, ?_, ?_, ?_, ?_⟩
  · rw [State.tod, State.frc, hj.tmb, hj.clk]
    exact htod.trans ho
  · rw [State.flag, State.get, show F.TMB_STAT_TSET.off = 0x70000 from rfl, hj.tset]
    exact hset
  · exact hfab ▸ hj.pulses 256 (hfab.symm ▸ hpulse)
  · obtain ⟨l, hl⟩ := hj.reported
    refine ⟨l.map fun e => e.code, ?_⟩
    rw [← hl, List.map_append, hcode, List.append_assoc]
    rfl

/-- What a reply given keeps of the state in which the command was concluded. -/
structure Replied (s t : State) (r : Req) (opc status : Nat) (data : List Byte) : Prop where
  answered : Answered t r opc status data
  clk : t.clk = s.clk
  tmb : t.tmb = s.tmb
  tvl : t.tvl = s.tvl
  gh : t.gh = s.gh
  pairs : t.pairs = s.pairs
  engines : t.engines = s.engines
  rcd : t.rcd = s.rcd
  pwr : t.pwr = s.pwr
  st : t.sup.st = s.sup.st
  faultLatch : t.sup.faultLatch = s.sup.faultLatch
  longOp : t.sup.longOp = s.sup.longOp
  reg : ∀ q, q < 0xD0000 → offSources q → t.reg q = s.reg q
  pulses : ∀ n, (n, s.fab) ∈ s.vdx.pulses → (n, s.fab) ∈ t.vdx.pulses

theorem State.answer_replied (s : State) (r : Req) (opc status : Nat) (data : List Byte) :
    Replied s (s.answer r opc status data) r opc status data := by
  obtain ⟨ha, ⟨_, _, _, _, _, _, _, e⟩, hreg, hpulses⟩ := s.answer_spec r opc status data
  have hr (q : Nat) (hq : q < 0xD0000) (ho : offSources q) : (s.answer r opc status data).reg q = s.reg q := hreg q hq ho
  have hp (n : Nat) (hn : (n, s.fab) ∈ s.vdx.pulses) : (n, s.fab) ∈ (s.answer r opc status data).vdx.pulses := hpulses n hn
  rw [e] at ha hr hp ⊢
  exact ⟨ha, rfl, rfl, rfl, rfl, rfl, rfl, rfl, rfl, rfl, rfl, rfl, hr, hp⟩

theorem Replied.get {s t : State} {r : Req} {opc status : Nat} {data : List Byte} (h : Replied s t r opc status data) {f : Field} (hq : f.off < 0xD0000)
    (ho : offSources f.off) : t.get f = s.get f := by
  rw [State.get, State.get, h.reg _ hq ho]

theorem Replied.tset {s t : State} {r : Req} {opc status : Nat} {data : List Byte} (h : Replied s t r opc status data) :
    t.flag F.TMB_STAT_TSET = s.flag F.TMB_STAT_TSET := by
  rw [State.flag, State.flag, h.get (by decide) (.inr (.inr (by decide)))]

theorem Replied.tod {s t : State} {r : Req} {opc status : Nat} {data : List Byte} (h : Replied s t r opc status data) : t.tod = s.tod := by
  rw [State.tod, State.tod, State.frc, State.frc, h.tmb, h.clk]

/-- The answer of TIME_SET. -/
def timeSetAns (r : Req) (s : State) : Ans :=
  if 1 < fieldLe r.payload 0 1 ∨ fieldLe r.payload 1 3 ≠ 0 then .badParam
  else if fieldLe r.payload 0 1 = 0 then
    if 1000000000 ≤ fieldLe r.payload 12 4 then .badParam else .reply [] (s.setTod (fieldLe r.payload 4 8 * secUnits + fieldLe r.payload 12 4 * 65536))
  else if decide (2 ≤ s.get F.TMB_STAT_ACTIVE) && (s.tsrc (s.get F.TMB_STAT_ACTIVE)).newest.isSome then
    .reply [] (s.setTod (s.reference (s.get F.TMB_STAT_ACTIVE)))
  else .badParam

theorem timeSet_runs {r : Req} {s u : State} (ha : Asked s r 0x31 [.stop] u) (hl : r.payload.length = 16 ∨ r.payload.length = 4 ∧ fieldLe r.payload 0 1 ≠ 0) :
    exec (.timeSet r) s = .next (((s.take r).keepCounter r).conclude r 0x31 (timeSetAns r u)) := by
  have hok : (r.payload.length == 16 || r.payload.length == 4 && fieldLe r.payload 0 1 != 0) = true := by simpa [reqNum] using hl
  show Host.Outcome.next (timeSet r s) = _
  unfold timeSet
  dsimp only
  rw [State.command_runs ha hok]
  rfl

theorem timeCommands : TimeCommands := by
  refine ⟨fun r s u ha hp => ?_, fun r s u mode ha hm hlen => ?_⟩
  · have ha : Asked s r 0x30 allStates u := ha
    show Host.Outcome.next (timeGet r s) = _
    unfold timeGet
    rw [State.command_runs ha (by rw [hp]; rfl)]
    rfl
  · subst hm
    rw [Refused, timeSet_runs ha hlen]
    refine ⟨fun hbad => ?_, fun hmode hzero => ⟨fun hns => ?_, fun hns => ?_⟩, fun hmode hzero c hc => ?_⟩
    · rw [timeSetAns, if_pos hbad]
      rfl
    · rw [timeSetAns, if_neg (by simp [hmode, hzero]), if_pos hmode, if_pos hns]
      rfl
    · rw [timeSetAns, if_neg (by simp [hmode, hzero]), if_pos hmode, if_neg (by exact Nat.not_le.2 hns)]
      obtain ⟨hclk, htod, hset, hpulse, l, hcode⟩ := u.setTod_spec (fieldLe r.payload 4 8 * secUnits + fieldLe r.payload 12 4 * 65536)
      have hv := (u.setTod (fieldLe r.payload 4 8 * secUnits + fieldLe r.payload 12 4 * 65536)).answer_replied r 0x31 0 []
      have hfab : (u.setTod (fieldLe r.payload 4 8 * secUnits + fieldLe r.payload 12 4 * 65536)).fab = u.fab := by rw [State.fab, hclk]; rfl
      exact ⟨_, rfl, hv.answered, hv.clk.trans hclk, hv.tod.trans htod, hv.tset.trans hset, hfab ▸ hv.pulses 256 (hfab.symm ▸ hpulse), l,
        (congrArg (fun x : Rec => x.reported.map fun e => e.code) hv.rcd).trans hcode⟩
    · subst hc
      refine ⟨fun hnone => ?_, fun h2 hsome => ?_⟩
      · rw [timeSetAns, if_neg (by simp [hmode, hzero]), if_neg (by simp [hmode]), if_neg]
        · rfl
        · rcases hnone with h | h
          · simp [Nat.not_le.2 h]
          · simp [h]
      · rw [timeSetAns, if_neg (by simp [hmode, hzero]), if_neg (by simp [hmode]), if_pos (by simpa [Option.isSome_iff_ne_none, h2] using hsome)]
        obtain ⟨hclk, htod, hset, -⟩ := u.setTod_spec (u.reference (u.get F.TMB_STAT_ACTIVE))
        have hv := (u.setTod (u.reference (u.get F.TMB_STAT_ACTIVE))).answer_replied r 0x31 0 []
        exact ⟨_, rfl, hv.answered, hv.clk.trans hclk, hv.tod.trans htod, hv.tset.trans hset⟩

end Sys2Proof.Machine
end

section
/-! SUPPORT. The commands on the network, the leases and the membership (R232, R239, R273, R460). -/
namespace Sys2Proof.Machine
open Sys2Proof.Claims
set_option Elab.async false

/-! ### A lease given up (R232) -/

/-- `t` is `s` but for the local outputs. -/
structure Switched (s t : State) : Prop where
  outputs : TouchesOutputs s t
  reg : ∀ q, q < 0xC0220 → t.reg q = s.reg q

namespace Switched
variable {s₀ s : State}

theorem refl (s : State) : Switched s s := ⟨.refl s, fun _ _ => rfl⟩
theorem trans {t : State} (h : Switched s₀ s) (k : Switched s t) : Switched s₀ t :=
  ⟨h.outputs.trans k.outputs, fun q hq => (k.reg q hq).trans (h.reg q hq)⟩

theorem dostat (h : Switched s₀ s) {f : Field} {v : Nat} (hf : 0xC0220 ≤ f.off) : Switched s₀ (s.set f v) :=
  h.trans ⟨s.set_outputs f v, fun q hq => s.reg_set_other f q v (by omega)⟩
theorem setDout (h : Switched s₀ s) {m : Nat} {d : Dout} : Switched s₀ (s.setDout m d) := h.trans ⟨⟨_, _, rfl⟩, fun _ _ => rfl⟩

theorem doView (h : Switched s₀ s) {m : Nat} : Switched s₀ (s.doView m) :=
  (h.setDout.dostat (Nat.le_add_right _ _)).dostat (Nat.le_add_right _ _)
theorem doOff (h : Switched s₀ s) {m : Nat} : Switched s₀ (s.doOff m) := (h.dostat (Nat.le_add_right _ _)).setDout.doView

theorem doHold (h : Switched s₀ s) {m : Nat} : Switched s₀ (s.doHold m) := by
  unfold State.doHold
  split
  · exact (h.dostat (Nat.le_add_right _ _)).setDout
  · exact h

theorem doGroupOff (h : Switched s₀ s) {k : Nat} : Switched s₀ (s.doGroupOff k) := by
  unfold State.doGroupOff
  split
  · refine foldl_keeps (Switched s₀) _ (fun u m hu => ?_) _ _ h
    split
    · split
      exacts [hu.doOff, hu.doHold]
    · exact hu
  · exact h

end Switched

/-- A bit of a register that is cleared through a field of its own. -/
theorem getLsbD_fieldSet_zero (r : Word) (k j : Nat) (hj : j < 32) :
    (fieldSet r k 1 0).getLsbD j = (r.getLsbD j && !decide (j = k)) := by
  unfold fieldSet
  rw [BitVec.getLsbD_or, BitVec.getLsbD_and, BitVec.getLsbD_not, getLsbD_fieldMask, BitVec.getLsbD_shiftLeft, BitVec.getLsbD_setWidth]
  by_cases h : j = k
  · subst h
    simp [hj]
  · have hkj : k ≤ j → ¬ j - k < 1 := by omega
    by_cases hle : k ≤ j
    · simp [h, hj, hkj hle]
    · simp [h, hj, hle]

theorem State.get_congr {s t : State} {f : Field} (h : t.reg f.off = s.reg f.off) : t.get f = s.get f := by rw [State.get, State.get, h]
theorem State.flag_congr {s t : State} {f : Field} (h : t.reg f.off = s.reg f.off) : t.flag f = s.flag f := by rw [State.flag, State.flag, State.get_congr h]

/-- What R232 does to one group. -/
def State.giveUp (s : State) (k : Nat) : State := ((s.leaseClear k).set (F.TVL_LSTAT_RELEASED k) 1).doGroupOff k

/-- The lease of a group has been given up: neither copy is left, and its release is noted. -/
def State.GivenUp (s : State) (k : Nat) : Prop :=
  s.holds k = false ∧ (s.lease k).mine = none ∧ s.flag (F.TVL_LSTAT_RELEASED k) = true ∧ s.flag (F.TVL_LSTAT_GUARDIAN k) = false

/-- Nothing of a group's lease has changed. -/
def State.SameLease (s t : State) (k : Nat) : Prop :=
  t.holds k = s.holds k ∧ t.lease k = s.lease k ∧ t.reg (0x50108 + k * 0x10) = s.reg (0x50108 + k * 0x10)

theorem State.SameLease.trans {s t u : State} {k : Nat} (h : s.SameLease t k) (g : t.SameLease u k) : s.SameLease u k := by
  obtain ⟨a, b, c⟩ := h
  obtain ⟨a', b', c'⟩ := g
  exact ⟨a'.trans a, b'.trans b, c'.trans c⟩

theorem State.SameLease.givenUp {s t : State} {k : Nat} (h : s.SameLease t k) (g : s.GivenUp k) : t.GivenUp k := by
  obtain ⟨a, b, c⟩ := h
  obtain ⟨g1, g2, g3, g4⟩ := g
  exact ⟨a.trans g1, by rw [b, g2], (State.flag_congr (f := F.TVL_LSTAT_RELEASED k) c).trans g3, (State.flag_congr (f := F.TVL_LSTAT_GUARDIAN k) c).trans g4⟩

theorem State.giveUp_spec (s : State) (k : Nat) (hk : k < 16) :
    (s.giveUp k).GivenUp k ∧ (∀ j, j < 16 → j ≠ k → s.SameLease (s.giveUp k) j) ∧ (s.giveUp k).clk = s.clk := by
  unfold State.giveUp
  have hsw := (Switched.refl ((s.leaseClear k).set (F.TVL_LSTAT_RELEASED k) 1)).doGroupOff (k := k)
  generalize hu : (s.leaseClear k).set (F.TVL_LSTAT_RELEASED k) 1 = u at hsw
  generalize u.doGroupOff k = t at hsw
  obtain ⟨⟨r, o, e⟩, hreg⟩ := hsw
  have htvl : t.tvl = u.tvl := by rw [e]
  have hclk : t.clk = u.clk := by rw [e]
  have hheld : u.reg 0x50000 = fieldSet (s.reg 0x50000) k 1 0 := by
    rw [← hu]
    exact ((State.reg_set_other _ (F.TVL_LSTAT_RELEASED k) _ _ (by simp only [F.TVL_LSTAT_RELEASED]; omega)).trans
      (State.reg_set_other _ (F.TVL_LSTAT_GUARDIAN k) _ _ (by simp only [F.TVL_LSTAT_GUARDIAN]; omega))).trans (State.reg_setReg_same _ _ _)
  have hholds (j : Nat) (hj : j < 16) : t.holds j = (s.holds j && !decide (j = k)) := by
    rw [State.holds_eq _ hj, State.holds_eq _ hj, hreg _ (by decide), hheld, getLsbD_fieldSet_zero _ _ _ (by omega)]
  have hoff (j : Nat) (hj : j < 16) : 0x50108 + j * 0x10 < 0xC0220 := by omega
  refine ⟨⟨by simp [hholds k hk], ?_, ?_, ?_⟩, fun j hj hne => ⟨by simp [hholds j hj, hne], ?_, ?_⟩, ?_⟩
  · rw [State.lease, htvl, ← hu]
    show (tget leaseD (tput leaseD s.tvl.leases k _) k).mine = none
    rw [tget_tput_same]
  · rw [State.flag_congr (f := F.TVL_LSTAT_RELEASED k) (hreg _ (hoff k hk)), ← hu, State.flag, State.get_set_same _ _ _ (Nat.le_of_ble_eq_true rfl)]
    rfl
  · rw [State.flag_congr (f := F.TVL_LSTAT_GUARDIAN k) (hreg _ (hoff k hk)), ← hu, State.flag, State.get_set_beside _ (F.TVL_LSTAT_RELEASED k) (F.TVL_LSTAT_GUARDIAN k) _ (.inl (Nat.le_of_ble_eq_true rfl)), State.leaseClear, State.get_set_same _ _ _ (Nat.le_of_ble_eq_true rfl)]
    rfl
  · rw [State.lease, htvl, ← hu]
    exact tget_tput_other _ _ _ _ _ hne
  · rw [hreg _ (hoff j hj), ← hu]
    have hne' : 0x50108 + j * 0x10 ≠ 0x50108 + k * 0x10 := by omega
    exact (State.reg_set_other _ (F.TVL_LSTAT_RELEASED k) _ _ hne').trans ((State.reg_set_other _ (F.TVL_LSTAT_GUARDIAN k) _ _ hne').trans
      (State.reg_set_other _ { F.TVL_STAT_HELD with lo := k, w := 1 } _ _ (by show 0x50108 + j * 0x10 ≠ 0x50000; omega)))
  · rw [hclk, ← hu]
    rfl

theorem State.giveUp_fold (l : List Nat) (hl : ∀ k ∈ l, k < 16) (s : State) :
    (∀ j ∈ l, (l.foldl State.giveUp s).GivenUp j) ∧ (∀ j, j < 16 → j ∉ l → s.SameLease (l.foldl State.giveUp s) j) ∧ (l.foldl State.giveUp s).clk = s.clk := by
  induction l generalizing s with
  | nil => exact ⟨fun j hj => absurd hj List.not_mem_nil, fun j _ _ => ⟨rfl, rfl, rfl⟩, rfl⟩
  | cons k l ih =>
    obtain ⟨hk, hother, hclk⟩ := s.giveUp_spec k (hl k (by simp))
    obtain ⟨hin, hout, hclk'⟩ := ih (fun j hj => hl j (by simp [hj])) (s.giveUp k)
    rw [List.foldl_cons]
    refine ⟨fun j hj => ?_, fun j hj hn => ?_, hclk'.trans hclk⟩
    · by_cases hjl : j ∈ l
      · exact hin j hjl
      · obtain rfl : j = k := (List.mem_cons.1 hj).resolve_right hjl
        exact (hout j (hl j hj) hjl).givenUp hk
    · obtain ⟨hne, hnl⟩ := not_or.1 (List.mem_cons.not.1 hn)
      exact (hother j hj hne).trans (hout j hj hnl)

/-- The instant of the release is noted in the leases given up. -/
theorem State.relAt_fold (l : List Nat) (s : State) :
    (∀ j ∈ l, ((l.foldl (fun (s : State) k => s.setLease k { s.lease k with relAt := s.clk.t }) s).lease j) = { s.lease j with relAt := s.clk.t }) ∧
    (∀ j, j ∉ l → ((l.foldl (fun (s : State) k => s.setLease k { s.lease k with relAt := s.clk.t }) s).lease j) = s.lease j) ∧
    (l.foldl (fun (s : State) k => s.setLease k { s.lease k with relAt := s.clk.t }) s).regs = s.regs ∧
    (l.foldl (fun (s : State) k => s.setLease k { s.lease k with relAt := s.clk.t }) s).clk = s.clk := by
  induction l generalizing s with
  | nil => exact ⟨fun j hj => absurd hj List.not_mem_nil, fun j _ => rfl, rfl, rfl⟩
  | cons k l ih =>
    obtain ⟨hin, hout, hregs, hclk⟩ := ih (s.setLease k { s.lease k with relAt := s.clk.t })
    have hsame : (s.setLease k { s.lease k with relAt := s.clk.t }).lease k = { s.lease k with relAt := s.clk.t } := tget_tput_same _ _ _ _
    have hother (j : Nat) (hj : j ≠ k) : (s.setLease k { s.lease k with relAt := s.clk.t }).lease j = s.lease j := tget_tput_other _ _ _ _ _ hj
    rw [List.foldl_cons]
    refine ⟨fun j hj => ?_, fun j hj => ?_, hregs, hclk⟩
    · by_cases hk : j = k
      · subst hk
        by_cases hjl : j ∈ l
        · rw [hin j hjl, hsame]
          rfl
        · rw [hout j hjl, hsame]
      · rw [hin j ((List.mem_cons.1 hj).resolve_left hk), hother j hk]
        rfl
    · obtain ⟨hne, hnl⟩ := not_or.1 (List.mem_cons.not.1 hj)
      rw [hout j hnl, hother j hne]

/-- The frame that tells of a release changes no lease and no register but that of its source. -/
theorem State.tell_spec (s : State) (typ group : Nat) (now : Bool) (b : List Byte) (n : Nat) (h : evtField n = some { F.TVL_EVT_EVT with lo := n - 208, w := 1 }) :
    (((if s.simplex then s else s.tlSeq typ group now b).raise n).tvl.leases = s.tvl.leases) ∧
    ((if s.simplex then s else s.tlSeq typ group now b).raise n).clk = s.clk ∧
    ∀ q, offSources q → q ≠ 0x5000C → ((if s.simplex then s else s.tlSeq typ group now b).raise n).reg q = s.reg q := by
  have hout (u : State) (typ : Nat) (b : List Byte) : (u.tlOut typ b).tvl = u.tvl ∧ (u.tlOut typ b).clk = u.clk ∧ (u.tlOut typ b).regs = u.regs :=
    foldl_keeps (fun v : State => v.tvl = u.tvl ∧ v.clk = u.clk ∧ v.regs = u.regs) _ (fun v p hv => by split <;> exact hv) _ u ⟨rfl, rfl, rfl⟩
  have hflush (u : State) : u.tlFlush.tvl.leases = u.tvl.leases ∧ u.tlFlush.clk = u.clk ∧ u.tlFlush.regs = u.regs := by
    unfold State.tlFlush
    split
    · exact ⟨rfl, rfl, rfl⟩
    · extract_lets l
      refine foldl_keeps (fun v : State => v.tvl.leases = u.tvl.leases ∧ v.clk = u.clk ∧ v.regs = u.regs) _ (fun v c hv => ?_) _ _ ⟨rfl, rfl, rfl⟩
      obtain ⟨ha, hb, hc⟩ := hout v c.1 c.2
      exact ⟨(congrArg Tvl.leases ha).trans hv.1, hb.trans hv.2.1, hc.trans hv.2.2⟩
  have hseq : (s.tlSeq typ group now b).tvl.leases = s.tvl.leases ∧ (s.tlSeq typ group now b).clk = s.clk ∧ (s.tlSeq typ group now b).regs = s.regs := by
    unfold State.tlSeq
    extract_lets w u x
    split
    · obtain ⟨ha, hb, hc⟩ := hout u.tlFlush typ x
      obtain ⟨ha', hb', hc'⟩ := hflush u
      exact ⟨(congrArg Tvl.leases ha).trans ha', hb.trans hb', hc.trans hc'⟩
    · exact ⟨rfl, rfl, rfl⟩
  have hu : ∀ u : State, (u.tvl.leases = s.tvl.leases ∧ u.clk = s.clk ∧ u.regs = s.regs) → (u.raise n).tvl.leases = s.tvl.leases ∧ (u.raise n).clk = s.clk ∧
      ∀ q, offSources q → q ≠ 0x5000C → (u.raise n).reg q = s.reg q := by
    rintro u ⟨ha, hb, hc⟩
    have hreg (q : Nat) (ho : offSources q) (hq : q ≠ 0x5000C) : (u.raise n).reg q = s.reg q :=
      (u.reg_raise n q ho fun f hf => by rw [h] at hf; obtain rfl := Option.some.inj hf; exact hq).trans (State.reg_congr hc q)
    obtain ⟨r, v, e⟩ := u.raise_sources n
    rw [e] at hreg ⊢
    exact ⟨ha, hb, hreg⟩
  split
  · exact hu s ⟨rfl, rfl, rfl⟩
  · exact hu _ hseq

/-- R232: the groups held that the mask names are given up at this instant, and the others stay as they are. -/
theorem State.release_spec (s : State) (mask : Nat) :
    (∀ k, k < 16 → mask.testBit k = true → s.holds k = true → (s.release mask).GivenUp k ∧ ((s.release mask).lease k).relAt = s.clk.t) ∧
    (∀ k, k < 16 → mask.testBit k = false ∨ s.holds k = false → s.SameLease (s.release mask) k) := by
  have hmem (k : Nat) : k ∈ (List.range 16).filter (fun k => mask.testBit k && s.holds k) ↔ k < 16 ∧ mask.testBit k = true ∧ s.holds k = true := by
    simp
  unfold State.release
  generalize (List.range 16).filter (fun k => mask.testBit k && s.holds k) = l at hmem ⊢
  dsimp only
  split
  next hnil =>
    subst hnil
    exact ⟨fun k hk hm hh => absurd ((hmem k).2 ⟨hk, hm, hh⟩) List.not_mem_nil, fun k _ _ => ⟨rfl, rfl, rfl⟩⟩
  next =>
    obtain ⟨hin, hout, hclk⟩ := State.giveUp_fold l (fun k hk => ((hmem k).1 hk).1) s
    obtain ⟨hrel, hrest, hregs, hclk'⟩ := State.relAt_fold l (l.foldl State.giveUp s)
    have htell := (l.foldl (fun (s : State) k => s.setLease k { s.lease k with relAt := s.clk.t }) (l.foldl State.giveUp s)).tell_spec 6 0xFF true
      (leBytes 2 (l.foldl (fun m k => m + 2 ^ k) 0)) 216 rfl
    obtain ⟨htl, -, htr⟩ := htell
    have hstat (k : Nat) (hk : k < 16) := (htr (0x50108 + k * 0x10) (.inr (.inr (by omega))) (by omega)).trans (State.reg_congr hregs _)
    refine ⟨fun k hk hm hh => ?_, fun k hk hn => ?_⟩
    · have hkl := (hmem k).2 ⟨hk, hm, hh⟩
      obtain ⟨g1, g2, g3, g4⟩ := hin k hkl
      have hlease := congrArg (fun x => tget leaseD x k) htl
      refine ⟨⟨(State.holds_of_reg (htr _ (.inr (.inr (by decide))) (by decide)) k).trans ((State.holds_of_reg (State.reg_congr hregs _) k).trans g1), ?_, ?_, ?_⟩, ?_⟩
      · exact (congrArg Lease.mine (hlease.trans (hrel k hkl))).trans g2
      · exact (State.flag_congr (f := F.TVL_LSTAT_RELEASED k) (hstat k hk)).trans g3
      · exact (State.flag_congr (f := F.TVL_LSTAT_GUARDIAN k) (hstat k hk)).trans g4
      · exact (congrArg Lease.relAt (hlease.trans (hrel k hkl))).trans (congrArg Clk.t hclk)
    · have hkl : k ∉ l := fun h => by
        obtain ⟨-, hm, hh⟩ := (hmem k).1 h
        rcases hn with hn | hn
        · rw [hm] at hn; exact Bool.noConfusion hn
        · rw [hh] at hn; exact Bool.noConfusion hn
      refine (hout k hk hkl).trans ⟨?_, ?_, ?_⟩
      · exact (State.holds_of_reg (htr _ (.inr (.inr (by decide))) (by decide)) k).trans (State.holds_of_reg (State.reg_congr hregs _) k)
      · exact (congrArg (fun x => tget leaseD x k) htl).trans (hrest k hkl)
      · exact hstat k hk

/-! ### NET_MODE_REQ (R273) -/

/-- The proposal that a node which leads nothing and is in step with its cluster makes. -/
theorem State.ghPropose_spec (s : State) (m : Nat) (c : Cluster) (hc : s.cfg.cluster = some c) (hid : (s.ghMe c).syncId ≠ 0) (hl : s.gh.leader = 0)
    (hp : s.pstate = 4) (hm : c.modes.testBit m = true) (hprop : s.gh.prop = none) (h8 : m ≤ 7) :
    ∃ k t, s.ghPropose m = some t ∧ t.gh.prop = some (m, k, true) ∧ t.flag F.GHC_STAT_MODE_PEND = true ∧ t.get F.GHC_STAT_MODE_NEXT = m := by
  unfold State.ghPropose
  rw [show s.clu = some c from hc]
  dsimp only
  rw [if_neg (by simp [hid, hl, hp, hm, hprop])]
  refine ⟨_, _, rfl, rfl, ?_, ?_⟩
  · show (State.get ((s.set F.GHC_STAT_MODE_PEND 1).set F.GHC_STAT_MODE_NEXT m) F.GHC_STAT_MODE_PEND == 1) = true
    rw [State.get_set_beside _ _ _ _ (.inr (by decide)), State.get_set_same _ _ _ (by decide)]
    rfl
  · show State.get ((s.set F.GHC_STAT_MODE_PEND 1).set F.GHC_STAT_MODE_NEXT m) F.GHC_STAT_MODE_NEXT = m
    rw [State.get_set_same _ _ _ (by decide)]
    exact Nat.mod_eq_of_lt (Nat.lt_succ_of_le h8)

theorem State.ghPropose_none (s : State) (m : Nat) (h : s.gh.leader ≠ 0 ∨ s.pstate ≠ 4) : s.ghPropose m = none := by
  unfold State.ghPropose
  split
  · exact if_pos (by rcases h with h | h <;> simp [h])
  · rfl

/-- What NET_MODE_REQ answers in a cluster. -/
def netModeAns (r : Req) (s : State) (c : Cluster) : Ans :=
  if (s.ghMe c).syncId = 0 ∨ 7 < fieldLe r.payload 0 1 ∨ !(c.modes.testBit (fieldLe r.payload 0 1)) ∨ !((s.ghMe c).permit.testBit (fieldLe r.payload 0 1)) then .badParam
  else if s.gh.prop.isSome then .refuse 0x23 0 0 0xFFFFFFFF
  else match s.ghPropose (fieldLe r.payload 0 1) with
    | some t => .accepted [BitVec.ofNat 8 (match t.gh.prop with | some p => p.2.1 | none => 0)] (t.begin_ r 0x38 (fieldLe r.payload 0 1) 0)
    | none => .refuse 0x20 0 0 0xFFFFFFFF

theorem netModeReq_runs {r : Req} {s u : State} (ha : Asked s r 0x38 [.stop, .run, .hold, .service] u) (hl : r.payload.length = 1) :
    exec (.netModeReq r) s = .next (((s.take r).keepCounter r).conclude r 0x38
      (match u.cfg.cluster with | some c => netModeAns r u c | none => .badParam)) := by
  have ha : Asked s r 0x38 forceStates u := ha
  show Host.Outcome.next (netModeReq r s) = _
  unfold netModeReq
  rw [State.command_runs ha (by rw [hl]; rfl)]
  rfl

theorem netModeRequest (r : Req) (s u : State) (m : Nat) (ha : Asked s r 0x38 [.stop, .run, .hold, .service] u) (hlen : r.payload.length = 1)
    (hm : m = fieldLe r.payload 0 1) :
    (u.cfg.cluster = none → Refused (.netModeReq r) s r 0x38 0x12 0 0 0xFFFFFFFF) ∧
    (∀ c, u.cfg.cluster = some c →
      (((u.ghMe c).syncId = 0 ∨ 7 < m ∨ c.modes.testBit m = false ∨ (u.ghMe c).permit.testBit m = false) →
        Refused (.netModeReq r) s r 0x38 0x12 0 0 0xFFFFFFFF) ∧
      ((u.ghMe c).syncId ≠ 0 → m ≤ 7 → c.modes.testBit m = true → (u.ghMe c).permit.testBit m = true →
        (u.gh.prop ≠ none → Refused (.netModeReq r) s r 0x38 0x23 0 0 0xFFFFFFFF) ∧
        (u.gh.prop = none → (u.gh.leader ≠ 0 ∨ u.get F.GHC_STAT_PSTATE ≠ 4) → Refused (.netModeReq r) s r 0x38 0x20 0 0 0xFFFFFFFF) ∧
        (u.gh.prop = none → u.gh.leader = 0 → u.get F.GHC_STAT_PSTATE = 4 → ∃ v o k, exec (.netModeReq r) s = .next v ∧
          v.gh.prop = some (m, k, true) ∧ v.sup.longOp = some o ∧ o.opc = 0x38 ∧ o.arg = m ∧
          v.flag F.GHC_STAT_MODE_PEND = true ∧ v.get F.GHC_STAT_MODE_NEXT = m ∧ Answered v r 0x38 1 [BitVec.ofNat 8 k]))) := by
  subst hm
  rw [Refused, Refused, Refused, netModeReq_runs ha hlen]
  refine ⟨fun hn => by rw [hn]; rfl, fun c hc => ?_⟩
  rw [hc]
  dsimp only
  refine ⟨fun hbad => ?_, fun hid h7 hmode hperm => ?_⟩
  · rw [netModeAns, if_pos (by simpa using hbad)]
    rfl
  · rw [netModeAns, if_neg (by simp [hid, Nat.not_lt.2 h7, hmode, hperm])]
    refine ⟨fun hprop => ?_, fun hprop hno => ?_, fun hprop hlead hps => ?_⟩
    · rw [if_pos (by simpa [Option.isSome_iff_ne_none] using hprop)]
      rfl
    · rw [if_neg (by simp [hprop]), u.ghPropose_none _ hno]
      rfl
    · obtain ⟨k, t, ht, htp, hpend, hnext⟩ := u.ghPropose_spec _ c hc hid hlead hps hmode hprop h7
      rw [if_neg (by simp [hprop]), ht]
      dsimp only
      rw [htp]
      have hv := (t.begin_ r 0x38 (fieldLe r.payload 0 1) 0).answer_replied r 0x38 1 [BitVec.ofNat 8 k]
      exact ⟨_, _, k, rfl, (congrArg Gh.prop hv.gh).trans htp, hv.longOp, rfl, rfl,
        (State.flag_congr (hv.reg 0x60000 (by decide) (.inr (.inr (by decide))))).trans hpend,
        (State.get_congr (hv.reg 0x60000 (by decide) (.inr (.inr (by decide))))).trans hnext, hv.answered⟩

/-! ### The leases and the membership (R232, R239) -/

theorem leaseRelease_runs (r : Req) (s u : State) (ha : Asked s r 0x41 [.run] u) (hlen : r.payload.length = 2) : ∃ v, exec (.leaseRelease r) s = .next v ∧
    Answered v r 0x41 0 [] ∧
    (∀ k, k < 16 → (fieldLe r.payload 0 2).testBit k = true → u.holds k = true →
      v.holds k = false ∧ (v.lease k).mine = none ∧ v.flag (F.TVL_LSTAT_RELEASED k) = true ∧ (v.lease k).relAt = u.clk.t ∧
      v.flag (F.TVL_LSTAT_GUARDIAN k) = false) ∧
    (∀ k, k < 16 → ((fieldLe r.payload 0 2).testBit k = false ∨ u.holds k = false) → v.holds k = u.holds k ∧ v.lease k = u.lease k) := by
  obtain ⟨hin, hout⟩ := u.release_spec (fieldLe r.payload 0 2)
  have hv := (u.release (fieldLe r.payload 0 2)).answer_replied r 0x41 0 []
  have hsame (k : Nat) (hk : k < 16) : (u.release (fieldLe r.payload 0 2)).SameLease ((u.release (fieldLe r.payload 0 2)).answer r 0x41 0 []) k :=
    ⟨State.holds_of_reg (hv.reg _ (by decide) (.inr (.inr (by decide)))) k, congrArg (fun x : Tvl => tget leaseD x.leases k) hv.tvl,
      hv.reg _ (by omega) (.inr (.inr (by omega)))⟩
  refine ⟨(u.release (fieldLe r.payload 0 2)).answer r 0x41 0 [], ?_, hv.answered, fun k hk hm hh => ?_, fun k hk hn => ?_⟩
  · show Host.Outcome.next (leaseRelease r s) = _
    unfold leaseRelease
    rw [State.command_runs ha (by rw [hlen]; rfl)]
    rfl
  · obtain ⟨hgiven, hrel⟩ := hin k hk hm hh
    obtain ⟨g1, g2, g3, g4⟩ := (hsame k hk).givenUp hgiven
    exact ⟨g1, g2, g3, (congrArg Lease.relAt (hsame k hk).2.1).trans hrel, g4⟩
  · obtain ⟨h1, h2, -⟩ := (hout k hk hn).trans (hsame k hk)
    exact ⟨h1, h2⟩

theorem State.get_tvl (s : State) (v : Tvl) (f : Field) : ({ s with tvl := v } : State).get f = s.get f := rfl

/-- EXCLUDED is left where R239 allows it, and else nothing changes. -/
theorem State.leaveExcluded_spec (s : State) (hm : s.get F.TVL_STAT_MSTATE = 5) (hr : s.tvl.reint = true) :
    (s.tvl.exclPort = none → s.allTested = true → s.leaveExcluded.get F.TVL_STAT_MSTATE = 1 ∧ s.leaveExcluded.tvl.reint = false) ∧
    (s.tvl.exclPort ≠ none ∨ s.allTested = false → s.leaveExcluded = s) := by
  unfold State.leaveExcluded
  generalize s.forgetLeases = w
  generalize (s.tvl.exclAt.filter fun t => decide (s.optime < t + 24 * 3600 * 1024)) = recent
  dsimp only
  split
  next h =>
    obtain ⟨-, hport, htested, -⟩ := h
    have hset : (w.set F.TVL_STAT_MSTATE 1).get F.TVL_STAT_MSTATE = 1 := by rw [State.get_set_same w _ _ (by decide)]; rfl
    refine ⟨fun _ _ => ⟨(State.get_tvl _ _ _).trans hset, rfl⟩, fun hno => ?_⟩
    rcases hno with hn | hn
    · exact absurd hport hn
    · rw [htested] at hn
      exact Bool.noConfusion hn
  next h => exact ⟨fun hp ht => absurd ⟨hm, hp, ht, .inl hr⟩ h, fun _ => rfl⟩

theorem reintegrate_runs {r : Req} {s u : State} (ha : Asked s r 0x42 [.run, .hold] u) (hp : r.payload = []) :
    exec (.reintegrate r) s = .next (((s.take r).keepCounter r).conclude r 0x42
      (if u.get F.TVL_STAT_MSTATE ≠ 5 then .refuse 0x20 0 0 0xFFFFFFFF else .reply [] ({ u with tvl := { u.tvl with reint := true } }).leaveExcluded)) := by
  show Host.Outcome.next (reintegrate r s) = _
  unfold reintegrate
  rw [State.command_runs ha (by rw [hp]; rfl)]
  rfl

theorem reintegration (r : Req) (s u : State) (ha : Asked s r 0x42 [.run, .hold] u) (hp : r.payload = []) :
    (u.get F.TVL_STAT_MSTATE ≠ 5 → Refused (.reintegrate r) s r 0x42 0x20 0 0 0xFFFFFFFF) ∧
    (u.get F.TVL_STAT_MSTATE = 5 → u.tvl.exclPort = none → u.allTested = true → ∃ v, exec (.reintegrate r) s = .next v ∧
      v.get F.TVL_STAT_MSTATE = 1 ∧ v.tvl.reint = false ∧ Answered v r 0x42 0 []) ∧
    (u.get F.TVL_STAT_MSTATE = 5 → (u.tvl.exclPort ≠ none ∨ u.allTested = false) → ∃ v, exec (.reintegrate r) s = .next v ∧
      v.get F.TVL_STAT_MSTATE = 5 ∧ v.tvl.reint = true ∧ Answered v r 0x42 0 []) := by
  rw [Refused, reintegrate_runs ha hp]
  refine ⟨fun hm => by rw [if_pos hm]; rfl, fun hm hport ht => ?_, fun hm hno => ?_⟩
  · rw [if_neg (by exact not_not.2 hm)]
    obtain ⟨hgo, -⟩ := State.leaveExcluded_spec { u with tvl := { u.tvl with reint := true } } hm rfl
    obtain ⟨h1, h2⟩ := hgo hport ht
    have hv := (State.leaveExcluded { u with tvl := { u.tvl with reint := true } }).answer_replied r 0x42 0 []
    exact ⟨_, rfl, (hv.get (by decide) (.inr (.inr (by decide)))).trans h1, (congrArg Tvl.reint hv.tvl).trans h2, hv.answered⟩
  · rw [if_neg (by exact not_not.2 hm)]
    obtain ⟨-, hstay⟩ := State.leaveExcluded_spec { u with tvl := { u.tvl with reint := true } } hm rfl
    rw [hstay hno]
    have hv := State.answer_replied { u with tvl := { u.tvl with reint := true } } r 0x42 0 []
    exact ⟨_, rfl, (hv.get (by decide) (.inr (.inr (by decide)))).trans hm, (congrArg Tvl.reint hv.tvl).trans rfl, hv.answered⟩

theorem networkCommands : NetworkCommands := by
  refine ⟨netModeRequest, fun r s u ha hp => ?_, leaseRelease_runs, reintegration⟩
  have ha : Asked s r 0x40 allStates u := ha
  show Host.Outcome.next (leaseStatus r s) = _
  unfold leaseStatus
  rw [State.command_runs ha (by rw [hp]; rfl)]
  rfl

end Sys2Proof.Machine
end

section
/-! SUPPORT. SELFTEST and POWER_BUDGET (R61, R167, R499); with the commands on time and network before, O49. -/
namespace Sys2Proof.Machine
open Sys2Proof.Claims
set_option Elab.async false

/-! ### Comparator tests passed in turn -/

/-- A pair whose test has passed at an instant of the operating-hours counter. -/
def Pair.passed (q : Pair) (now : Nat) : Pair :=
  { q with testing := none, cmpDue := false, cmpPass := min (q.cmpPass + 1) 65535, cmpLast := now, cmpOverdue := 0 }

/-- A passed test of a unit moves the marks of that unit alone. -/
theorem State.testPassed_spec (s : State) (u : Nat) :
    (s.testPassed u).sup = s.sup ∧ (s.testPassed u).clk = s.clk ∧ (u < 4 → (s.testPassed u).pair u = (s.pair u).passed s.optime) ∧
    (∀ p, p < 4 → p ≠ u → (s.testPassed u).pair p = s.pair p) ∧
    (∀ e, 4 + e = u → ((s.testPassed u).eng e).cmpLast = s.optime ∧ ((s.testPassed u).eng e).testing = none) ∧
    (∀ e, 4 + e ≠ u → (s.testPassed u).eng e = s.eng e) := by
  unfold State.testPassed
  split
  next h4 =>
    exact ⟨rfl, rfl, fun _ => State.pair_modPair_same _ _ _, fun p _ hp => State.pair_modPair_other _ _ _ _ hp, fun e he => by omega, fun _ _ => rfl⟩
  next h4 =>
    dsimp only
    refine ⟨rfl, rfl, fun h => absurd h h4, fun _ _ _ => rfl, fun e he => ?_, fun e he => ?_⟩
    · obtain rfl : e = u - 4 := by omega
      have he : (s.setEng (u - 4) { s.eng (u - 4) with testing := none, cmpLast := s.optime, cmpOverdue := 0 }).eng (u - 4) =
        { s.eng (u - 4) with testing := none, cmpLast := s.optime, cmpOverdue := 0 } := s.eng_setEng_same _ _
      exact ⟨(congrArg Engine.cmpLast he :), (congrArg Engine.testing he :)⟩
    · exact s.eng_setEng_other _ _ _ (by omega)

theorem State.testPassed_fold (l : List Nat) (hl : l.Nodup) (s : State) :
    (l.foldl State.testPassed s).sup = s.sup ∧ (l.foldl State.testPassed s).clk = s.clk ∧
    (∀ p, p < 4 → p ∈ l → (l.foldl State.testPassed s).pair p = (s.pair p).passed s.optime) ∧
    (∀ p, p < 4 → p ∉ l → (l.foldl State.testPassed s).pair p = s.pair p) ∧
    (∀ e, 4 + e ∈ l → ((l.foldl State.testPassed s).eng e).cmpLast = s.optime ∧ ((l.foldl State.testPassed s).eng e).testing = none) ∧
    (∀ e, 4 + e ∉ l → (l.foldl State.testPassed s).eng e = s.eng e) := by
  induction l generalizing s with
  | nil => exact ⟨rfl, rfl, fun _ _ h => absurd h List.not_mem_nil, fun _ _ _ => rfl, fun _ h => absurd h List.not_mem_nil, fun _ _ => rfl⟩
  | cons u l ih =>
    obtain ⟨hu, hl⟩ := List.nodup_cons.1 hl
    obtain ⟨hsup, hclk, hpair, hpairs, heng, hengs⟩ := s.testPassed_spec u
    obtain ⟨isup, iclk, ipair, ipairs, ieng, iengs⟩ := ih hl (s.testPassed u)
    have hop : (s.testPassed u).optime = s.optime := by rw [State.optime, State.optime, hclk]
    rw [List.foldl_cons]
    refine ⟨isup.trans hsup, iclk.trans hclk, fun p hp hm => ?_, fun p hp hm => ?_, fun e hm => ?_, fun e hm => ?_⟩
    · by_cases hpu : p = u
      · subst hpu
        rw [ipairs p hp hu, hpair hp]
      · rw [ipair p hp ((List.mem_cons.1 hm).resolve_left hpu), hpairs p hp hpu, hop]
    · obtain ⟨hne, hnl⟩ := not_or.1 (List.mem_cons.not.1 hm)
      rw [ipairs p hp hnl, hpairs p hp hne]
    · by_cases heu : 4 + e = u
      · rw [iengs e (by rw [heu]; exact hu)]
        exact heng e heu
      · rw [← hop]
        exact ieng e ((List.mem_cons.1 hm).resolve_left heu)
    · obtain ⟨hne, hnl⟩ := not_or.1 (List.mem_cons.not.1 hm)
      rw [iengs e hnl, hengs e hne]

theorem testBit_maskOf (l : List Nat) (k : Nat) : (maskOf l).testBit k = decide (k ∈ l) := by
  have hgen (m : Nat) : (l.foldl (fun m k => m ||| 2 ^ k) m).testBit k = (m.testBit k || decide (k ∈ l)) := by
    induction l generalizing m with
    | nil => simp
    | cons a l ih =>
      rw [List.foldl_cons, ih, Nat.testBit_or, Nat.testBit_two_pow]
      by_cases h : a = k
      · simp [h]
      · simp [h, Ne.symm h]
  rw [maskOf, hgen, Nat.zero_testBit, Bool.false_or]

/-! ### SELFTEST -/

/-- The units a SELFTEST tests. -/
def State.testUnits (s : State) (mask : Nat) : List Nat := (List.range 6).filter fun u => s.unitFitted u && mask.testBit (u / 4)

theorem State.mem_testUnits (s : State) (mask k : Nat) : k ∈ s.testUnits mask ↔ k < 6 ∧ s.unitFitted k = true ∧ mask.testBit (k / 4) = true := by
  simp [State.testUnits]

/-- What SELFTEST answers. -/
def selftestAns (r : Req) (fails : BitVec 6) (s : State) : Ans :=
  if 3 < fieldLe r.payload 0 1 then .badParam else
  match (s.testUnits (fieldLe r.payload 0 1)).find? fun u => fails.getLsbD u with
  | some u =>
    let s := ((s.testUnits (fieldLe r.payload 0 1)).filter fun v => decide (v < u)).foldl State.testPassed s
    let lane := (Config.freeValue s.freeCtr).toNat % 2 ^ 32
    .fault (if u < 4 then s.free.pairFails u .CMP_SELFTEST_FAIL [u, lane] else s.free.leFails (u - 4) .LE_SELFTEST_FAIL [u - 4, lane])
  | none => .reply [BitVec.ofNat 8 (maskOf (s.testUnits (fieldLe r.payload 0 1)))] ((s.testUnits (fieldLe r.payload 0 1)).foldl State.testPassed s)

theorem selftest_runs {r : Req} {fails : BitVec 6} {s u : State} (ha : Asked s r 0x48 [.stop, .service] u) (hl : r.payload.length = 1) :
    exec (.selftest r fails) s = .next (((s.take r).keepCounter r).conclude r 0x48 (selftestAns r fails u)) := by
  show Host.Outcome.next (selftest r fails s) = _
  unfold selftest
  rw [State.command_runs ha (by rw [hl]; rfl)]
  rfl

/-- The acceptance of a command, and the keeping of its COUNTER, leave the module state. -/
theorem State.st_acceptMark (s : State) (r : Req) (opc : Nat) : ((s.keepCounter r).acceptMark r opc).sup.st = s.sup.st := by
  have hkeep : (s.keepCounter r).sup.st = s.sup.st := by
    unfold State.keepCounter
    split <;> rfl
  rw [← hkeep]
  unfold State.acceptMark
  split
  · rfl
  · dsimp only
    split
    · rfl
    · obtain ⟨x, v, e⟩ := ((s.keepCounter r).report .CMD_ACCEPTED (srcSup (originInst r.origin)) [opc, originSrc r.origin]).raise_sources 414
      rw [e]
      rfl

/-- A command of Stop and Service is judged in one of them. -/
theorem asked_st {s u : State} {r : Req} {opc : Nat} (ha : Asked s r opc [.stop, .service] u) : u.sup.st = .stop ∨ u.sup.st = .service := by
  obtain ⟨-, -, -, he, rfl⟩ := ha
  rw [State.st_acceptMark]
  unfold State.early at he
  split at he
  · exact nomatch he
  split at he
  · exact nomatch he
  split at he
  · exact nomatch he
  next hl =>
    have hlegal : (s.take r).legal opc [.stop, .service] = true := by simpa using hl
    unfold State.legal at hlegal
    split at hlegal
    next h =>
      obtain ⟨hst, -⟩ := Bool.and_eq_true_iff.1 h
      exact .inr (by simpa using hst)
    next => simpa using hlegal

theorem asked_awake {s u : State} {r : Req} {opc : Nat} (ha : Asked s r opc [.stop, .service] u) : u.alive = true ∧ u.sup.st ≠ .dusk := by
  rcases asked_st ha with h | h
  · exact ⟨by rw [State.alive, h], by rw [h]; exact nofun⟩
  · exact ⟨by rw [State.alive, h], by rw [h]; exact nofun⟩

/-- A failing unit ends in the Dusk state. -/
theorem State.testFails_dusk (s : State) (u lane : Nat) (ha : s.alive = true) (hd : s.sup.st ≠ .dusk) :
    ∀ t, t = (if u < 4 then s.pairFails u .CMP_SELFTEST_FAIL [u, lane] else s.leFails (u - 4) .LE_SELFTEST_FAIL [u - 4, lane]) →
      t.sup.st = .dusk ∧ t.sup.faultLatch = true := by
  rintro t rfl
  split
  · obtain ⟨⟨hst, hlatch, -⟩, -⟩ := s.pairFails_spec u .CMP_SELFTEST_FAIL _ [u, lane] List.prefix_rfl ha hd
    exact ⟨hst, hlatch⟩
  · obtain ⟨⟨hst, hlatch, -⟩, -⟩ := s.leFails_spec (u - 4) .LE_SELFTEST_FAIL _ [u - 4, lane] List.prefix_rfl ha hd
    exact ⟨hst, hlatch⟩

theorem selftestCommand (r : Req) (fails : BitVec 6) (s u : State) (mask : Nat) (ha : Asked s r 0x48 [.stop, .service] u) (hlen : r.payload.length = 1)
    (hmask : mask = fieldLe r.payload 0 1) :
    (3 < mask → Refused (.selftest r fails) s r 0x48 0x12 0 0 0xFFFFFFFF) ∧
    (mask ≤ 3 → (∀ k, k < 6 → u.unitFitted k = true → mask.testBit (k / 4) = true → fails.getLsbD k = false) →
      ∃ v d, exec (.selftest r fails) s = .next v ∧ v.sup.st = u.sup.st ∧ Answered v r 0x48 0 [d] ∧
        (∀ k, k < 6 → d.getLsbD k = (u.unitFitted k && mask.testBit (k / 4))) ∧
        (∀ p, p < 4 → u.pairFitted p = true → mask.testBit 0 = true →
          (v.pair p).cmpPass = min ((u.pair p).cmpPass + 1) 65535 ∧ (v.pair p).cmpLast = u.optime ∧ (v.pair p).testing = none) ∧
        (∀ e, e < 2 → u.engineFitted e = true → mask.testBit 1 = true → (v.eng e).cmpLast = u.optime ∧ (v.eng e).testing = none)) ∧
    (∀ k, mask ≤ 3 → k < 6 → u.unitFitted k = true → mask.testBit (k / 4) = true → fails.getLsbD k = true →
      ∃ v d, exec (.selftest r fails) s = .next v ∧ v.sup.st = .dusk ∧ v.sup.faultLatch = true ∧ Answered v r 0x48 0x40 d) := by
  subst hmask
  rw [Refused, selftest_runs ha hlen]
  have hnodup : (u.testUnits (fieldLe r.payload 0 1)).Nodup := List.nodup_range.filter _
  have hmem := u.mem_testUnits (fieldLe r.payload 0 1)
  refine ⟨fun h3 => by rw [selftestAns, if_pos h3]; rfl, fun h3 hpass => ?_, fun k h3 hk hfit hbit hfail => ?_⟩
  · have hnone : (u.testUnits (fieldLe r.payload 0 1)).find? (fun u => fails.getLsbD u) = none := by
      rw [List.find?_eq_none]
      intro k hk
      obtain ⟨h6, hfit, hbit⟩ := (hmem k).1 hk
      simp [hpass k h6 hfit hbit]
    rw [selftestAns, if_neg (Nat.not_lt.2 h3), hnone]
    obtain ⟨hsup, hclk, hpair, -, heng, -⟩ := State.testPassed_fold _ hnodup u
    have hv := ((u.testUnits (fieldLe r.payload 0 1)).foldl State.testPassed u).answer_replied r 0x48 0
      [BitVec.ofNat 8 (maskOf (u.testUnits (fieldLe r.payload 0 1)))]
    refine ⟨_, _, rfl, hv.st.trans (congrArg Sup.st hsup), hv.answered, fun k hk => ?_, fun p hp hfit hbit => ?_, fun e he hfit hbit => ?_⟩
    · rw [BitVec.getLsbD_ofNat, testBit_maskOf]
      have hm := hmem k
      simp only [hk, true_and] at hm
      simp only [show k < 8 by omega, decide_true, Bool.true_and, hm]
      simp
    · have hin : p ∈ u.testUnits (fieldLe r.payload 0 1) :=
        (hmem p).2 ⟨by omega, by rw [State.unitFitted, if_pos hp]; exact hfit, by rw [Nat.div_eq_of_lt hp]; exact hbit⟩
      have hp' : ((((u.testUnits (fieldLe r.payload 0 1)).foldl State.testPassed u).answer r 0x48 0
          [BitVec.ofNat 8 (maskOf (u.testUnits (fieldLe r.payload 0 1)))]).pair p) = (u.pair p).passed u.optime :=
        (congrArg (fun x => tget _ x p) hv.pairs).trans (hpair p hp hin)
      exact ⟨(congrArg Pair.cmpPass hp' :), (congrArg Pair.cmpLast hp' :), (congrArg Pair.testing hp' :)⟩
    · have hin : 4 + e ∈ u.testUnits (fieldLe r.payload 0 1) :=
        (hmem (4 + e)).2 ⟨by omega, by rw [State.unitFitted, if_neg (by omega), Nat.add_sub_cancel_left]; exact hfit,
          by rw [show (4 + e) / 4 = 1 by omega]; exact hbit⟩
      have he' : ((((u.testUnits (fieldLe r.payload 0 1)).foldl State.testPassed u).answer r 0x48 0
          [BitVec.ofNat 8 (maskOf (u.testUnits (fieldLe r.payload 0 1)))]).eng e) = ((u.testUnits (fieldLe r.payload 0 1)).foldl State.testPassed u).eng e :=
        congrArg (fun x => tget _ x e) hv.engines
      have hpassed := heng e hin
      rw [← he'] at hpassed
      exact hpassed
  · obtain ⟨w, hw⟩ : ∃ w, (u.testUnits (fieldLe r.payload 0 1)).find? (fun u => fails.getLsbD u) = some w := by
      rw [← Option.isSome_iff_exists, List.find?_isSome]
      exact ⟨k, (hmem k).2 ⟨hk, hfit, hbit⟩, hfail⟩
    rw [selftestAns, if_neg (Nat.not_lt.2 h3), hw]
    dsimp only
    obtain ⟨halive, hdusk⟩ := asked_awake ha
    obtain ⟨hsup, -⟩ := State.testPassed_fold _ (hnodup.filter fun v => decide (v < w)) u
    generalize ((u.testUnits (fieldLe r.payload 0 1)).filter fun v => decide (v < w)).foldl State.testPassed u = x at hsup
    have hx := x.free.testFails_dusk w ((Config.freeValue x.freeCtr).toNat % 2 ^ 32) (by rw [State.alive]; show (match x.sup.st with | .night | .midnight => false | _ => true) = true; rw [hsup]; exact halive)
      (by show x.sup.st ≠ .dusk; rw [hsup]; exact hdusk) _ rfl
    obtain ⟨hst, hlatch⟩ := hx
    generalize (if w < 4 then x.free.pairFails w .CMP_SELFTEST_FAIL [w, (Config.freeValue x.freeCtr).toNat % 2 ^ 32]
      else x.free.leFails (w - 4) .LE_SELFTEST_FAIL [w - 4, (Config.freeValue x.freeCtr).toNat % 2 ^ 32]) = t at hst hlatch
    have hv := t.answer_replied r 0x48 0x40 t.errNone
    exact ⟨_, _, rfl, hv.st.trans hst, hv.faultLatch.trans hlatch, hv.answered⟩

/-! ### POWER_BUDGET (R499) -/

/-- What POWER_BUDGET answers. -/
def powerBudgetAns (r : Req) (s : State) : Ans :=
  if fieldLe r.payload 0 2 ≠ 0 ∧ !(within 120 220 (fieldLe r.payload 0 2)) then .badParam
  else .reply (leBytes 2 (if fieldLe r.payload 0 2 = 0 then s.pwr.budgetNext.getD (s.get F.PWR_BUDGET_BUDGET) else fieldLe r.payload 0 2) ++
      leBytes 2 (s.get F.PWR_BUDGET_MEAS))
    (if fieldLe r.payload 0 2 = 0 then s else s.modPwr fun w => { w with budgetNext := some (fieldLe r.payload 0 2) })

theorem powerBudget_runs {r : Req} {s u : State} (ha : Asked s r 0x50 [.config, .stop, .run, .hold, .service] u) (hl : r.payload.length = 2) :
    exec (.powerBudget r) s = .next (((s.take r).keepCounter r).conclude r 0x50 (powerBudgetAns r u)) := by
  show Host.Outcome.next (powerBudget r s) = _
  unfold powerBudget
  rw [State.command_runs ha (by rw [hl]; rfl)]
  rfl

theorem powerBudgetCommand (r : Req) (s u : State) (b : Nat) (ha : Asked s r 0x50 [.config, .stop, .run, .hold, .service] u) (hlen : r.payload.length = 2)
    (hb : b = fieldLe r.payload 0 2) :
    (b ≠ 0 → (b < 120 ∨ 220 < b) → Refused (.powerBudget r) s r 0x50 0x12 0 0 0xFFFFFFFF) ∧
    (b = 0 → Says (.powerBudget r) s r 0x50 0 (leBytes 2 (u.pwr.budgetNext.getD (u.get F.PWR_BUDGET_BUDGET)) ++
      leBytes 2 (u.get F.PWR_BUDGET_MEAS)) u) ∧
    (120 ≤ b → b ≤ 220 → Says (.powerBudget r) s r 0x50 0 (leBytes 2 b ++ leBytes 2 (u.get F.PWR_BUDGET_MEAS))
      { u with pwr := { u.pwr with budgetNext := some b } }) := by
  subst hb
  rw [Refused, Says, Says, powerBudget_runs ha hlen]
  refine ⟨fun h0 hout => ?_, fun h0 => ?_, fun hlo hhi => ?_⟩
  · rw [powerBudgetAns, if_pos ⟨h0, by simp [within]; omega⟩]
    rfl
  · rw [powerBudgetAns, if_neg (fun h => h.1 h0), if_pos h0, if_pos h0]
    rfl
  · have h0 : fieldLe r.payload 0 2 ≠ 0 := by omega
    rw [powerBudgetAns, if_neg (by simp [within, hlo, hhi]), if_neg h0, if_neg h0]
    rfl

theorem testAndBudgetCommands : TestAndBudgetCommands := ⟨selftestCommand, powerBudgetCommand⟩

/-- Settles O49: each command that its checks let pass is concluded by its own effect, and the reply leaves that effect as it is. -/
theorem operatingCommands : Obligations.OperatingCommands := ⟨timeCommands, networkCommands, testAndBudgetCommands⟩

end Sys2Proof.Machine
end

section
/-! SUPPORT. Page misses of a task and the staging of working sets (R133, R138 to R144). -/
namespace Sys2Proof.Machine
open Sys2Proof.Claims
set_option Elab.async false

/-! ### Accesses of a task that stop (R133, R140, R141, R144) -/

theorem State.umap_execBegin (s : State) (p n va k : Nat) (a : Acc) : (s.execBegin p).umap n va k a = s.umap n va k a := by
  obtain h | ⟨m, h⟩ := s.execBegin_cases p
  · rw [h]
  · rw [h]
    rfl

/-- A user access whose translation stops has the outcome of the translation. -/
theorem State.userAccess_of {s : State} {p n va : Nat} {td : Task} (h : Calls s p n td) (sel : State → UMap → Bool)
    (hsel : sel (s.execBegin p) (s.umap n va 1 .read) = true) :
    s.asInsn p (fun v => v.userAccess p va .read (sel v)) = (s.execBegin p).mapStop p n va .read (s.umap n va 1 .read) := by
  rw [calls_asInsn h]
  obtain ⟨he, hn, -, hu⟩ := calls_begun h
  unfold State.userAccess
  rw [hn]
  dsimp only
  rw [s.umap_execBegin, he, hu, hsel]
  rfl

/-- What WSET_VIOLATION stops at. -/
def State.violates (s : State) (p va : Nat) (m : UMap) : Bool :=
  match m with
  | .violation _ => true
  | .miss _ o => o
  | .mem _ key => key.isSome && (match s.taskOn p with | some tn => s.outside tn va | none => false)
  | _ => false

/-- The page asked for is among the stager's requests, and the pair waits for it. -/
theorem State.askPage_spec (s : State) (p part up : Nat) (why : StageWhy) (st : Stall) :
    (s.askPage p part up why st).pair p = { s.pair p with stall := some st } ∧
    ((s.askPage p part up why st).hxm.stq.any fun r => r.why == why && r.part == part && r.page == up) = true ∧
    PairsBut s (s.askPage p part up why st) p ∧
    s.askPage p part up why st = { s with pairs := (s.askPage p part up why st).pairs, hxm := (s.askPage p part up why st).hxm } := by
  have hsame : (s.modPair p fun q => { q with stall := some st }).pair p = { s.pair p with stall := some st } := s.pair_modPair_same _ _
  have hother (q : Nat) (hq : q ≠ p) : (s.modPair p fun q => { q with stall := some st }).pair q = s.pair q := s.pair_modPair_other _ _ _ hq
  unfold State.askPage
  dsimp only
  split
  next h =>
    refine ⟨hsame, ?_, hother, rfl⟩
    rw [List.any_eq_true] at h ⊢
    obtain ⟨r, hr, hp⟩ := h
    refine ⟨r, hr, ?_⟩
    simp only [Bool.and_eq_true] at hp ⊢
    exact ⟨⟨hp.1.1, hp.2⟩, hp.1.2⟩
  next =>
    refine ⟨hsame, ?_, hother, rfl⟩
    rw [List.any_eq_true]
    exact ⟨_, List.mem_append_right _ (List.mem_singleton.2 rfl), by simp⟩

/-- The count of a task's stage misses stands apart from event registers and sources. -/
theorem farReg_stageMiss {n : Nat} (h : n < 1024) : farReg (F.HX_TASKSTAT1_STAGE_MISS n).off = true := by
  show farReg (0x21004 + n * 0x10) = true
  simp [farReg]
  omega

/-- A stage miss is counted, raised and recorded. -/
theorem State.missMark_spec (s : State) (n : Nat) (h : n < 1024) (words : List Nat) :
    Beside (s.inc (F.HX_TASKSTAT1_STAGE_MISS n)) (((s.inc (F.HX_TASKSTAT1_STAGE_MISS n)).raise 48).report .STAGE_MISS srcHxm words) ∧
    (((s.inc (F.HX_TASKSTAT1_STAGE_MISS n)).raise 48).report .STAGE_MISS srcHxm words).get (F.HX_TASKSTAT1_STAGE_MISS n) =
      satAdd 65535 (s.get (F.HX_TASKSTAT1_STAGE_MISS n)) 1 ∧
    (48, s.fab) ∈ (((s.inc (F.HX_TASKSTAT1_STAGE_MISS n)).raise 48).report .STAGE_MISS srcHxm words).vdx.pulses ∧
    (((s.inc (F.HX_TASKSTAT1_STAGE_MISS n)).raise 48).report .STAGE_MISS srcHxm words).rcd.reported.map (fun r => r.code) =
      s.rcd.reported.map (fun r => r.code) ++ [.STAGE_MISS] ∧
    (((s.inc (F.HX_TASKSTAT1_STAGE_MISS n)).raise 48).report .STAGE_MISS srcHxm words).mem = s.mem := by
  have hb : Beside (s.inc (F.HX_TASKSTAT1_STAGE_MISS n)) (((s.inc (F.HX_TASKSTAT1_STAGE_MISS n)).raise 48).report .STAGE_MISS srcHxm words) :=
    (Beside.refl _).raise.report
  have hcount := s.get_inc (F.HX_TASKSTAT1_STAGE_MISS n) (Nat.le_of_ble_eq_true rfl)
  have hpulse := (s.inc (F.HX_TASKSTAT1_STAGE_MISS n)).pulses_raise 48 rfl
  have hcode := (((s.inc (F.HX_TASKSTAT1_STAGE_MISS n)).raise 48).report_spec .STAGE_MISS srcHxm words).1
  obtain ⟨r, v, e⟩ := (s.inc (F.HX_TASKSTAT1_STAGE_MISS n)).raise_sources 48
  refine ⟨hb, (State.get_congr (hb.reg _ (farReg_stageMiss h))).trans hcount, hpulse, ?_, ?_⟩
  · rw [hcode, e]
    rfl
  · rw [e]
    rfl

theorem State.fab_execBegin (s : State) (p : Nat) : (s.execBegin p).fab = s.fab := by
  rw [(s.execBegin_eq p).1]
  rfl

theorem State.pairs_execBegin (s : State) (p : Nat) : (s.execBegin p).pairs = s.pairs := by rw [(s.execBegin_eq p).1]

theorem State.rcd_execBegin (s : State) (p : Nat) : (s.execBegin p).rcd = s.rcd := by rw [(s.execBegin_eq p).1]

theorem State.regs_execBegin (s : State) (p : Nat) : (s.execBegin p).regs = s.regs := by rw [(s.execBegin_eq p).1]

theorem State.stageMiss_spec (s : State) (p n part up : Nat) (h : n < 1024) : ((s.stageMiss p n part up).pair p) = { s.pair p with stall := some (.stage up) } ∧
    (s.stageMiss p n part up).get (F.HX_TASKSTAT1_STAGE_MISS n) = satAdd 65535 (s.get (F.HX_TASKSTAT1_STAGE_MISS n)) 1 ∧
    (48, s.fab) ∈ (s.stageMiss p n part up).vdx.pulses ∧
    (s.stageMiss p n part up).rcd.reported.map (fun r => r.code) = s.rcd.reported.map (fun r => r.code) ++ [.STAGE_MISS] ∧
    ((s.stageMiss p n part up).hxm.stq.any fun r => r.why == .miss p && r.part == part && r.page == up) = true ∧
    PairsBut s (s.stageMiss p n part up) p ∧ (s.stageMiss p n part up).mem = s.mem := by
  obtain ⟨hb, hcount, hpulse, hcode, hmem⟩ := s.missMark_spec n h [n, up]
  unfold State.stageMiss
  dsimp only
  have hpairs (q : Nat) : (((s.inc (F.HX_TASKSTAT1_STAGE_MISS n)).raise 48).report .STAGE_MISS srcHxm [n, up]).pair q = s.pair q := by
    rw [State.pair, hb.pairs]
    rfl
  generalize ((s.inc (F.HX_TASKSTAT1_STAGE_MISS n)).raise 48).report .STAGE_MISS srcHxm [n, up] = v at hcount hpulse hcode hmem hpairs
  obtain ⟨hpair, hreq, hbut, e⟩ := v.askPage_spec p part up (.miss p) (.stage up)
  rw [hpairs] at hpair
  have hfield : ∀ f : Field, (v.askPage p part up (.miss p) (.stage up)).get f = v.get f := fun f => by rw [e]; rfl
  refine ⟨hpair, (hfield _).trans hcount, ?_, ?_, hreq, fun q hq => (hbut q hq).trans (hpairs q), ?_⟩
  · rw [e]; exact hpulse
  · rw [e]; exact hcode
  · rw [e]; exact hmem

theorem saved_congr {s w t : State} {p cause tval : Nat} (h : ∀ q, w.pair q = s.pair q) (k : Saved w t p cause tval) : Saved s t p cause tval := by
  unfold Saved SameRegisters PairsBut at *
  simp only [h] at k
  exact k

/-- A violation of a working set is raised and recorded. -/
theorem State.wsetMark_spec (s : State) (n up : Nat) : Beside s (s.wsetMark n up) ∧ (49, s.fab) ∈ (s.wsetMark n up).vdx.pulses ∧
    (s.wsetMark n up).rcd.reported.map (fun r => r.code) = s.rcd.reported.map (fun r => r.code) ++ [.WSET_VIOLATION] ∧ (s.wsetMark n up).mem = s.mem := by
  have hpulse := s.pulses_raise 49 rfl
  have hcode := ((s.raise 49).report_spec .WSET_VIOLATION srcHxm [n, up]).1
  obtain ⟨r, v, e⟩ := s.raise_sources 49
  unfold State.wsetMark
  refine ⟨(Beside.refl s).raise.report, hpulse, ?_, ?_⟩
  · rw [hcode, e]
  · rw [e]
    rfl

/-- The registers of a field apart, a write leaves the state. -/
theorem State.set_frame (s : State) (f : Field) (v : Nat) : (s.set f v).pairs = s.pairs ∧ (s.set f v).vdx = s.vdx ∧ (s.set f v).rcd = s.rcd ∧
    (s.set f v).mem = s.mem ∧ (s.set f v).clk = s.clk := ⟨rfl, rfl, rfl, rfl, rfl⟩

theorem State.fab_inc (s : State) (f : Field) : (s.inc f).fab = s.fab := rfl

/-- The load page fault of an access outside the working set. -/
theorem State.violation_spec (s : State) (p n va up : Nat) (h : n < 1024) (ht : (s.pair p).mtvec ≠ 0) :
    Saved s ((s.wsetMark n up).pageFault p n va 4 .read) p 13 va ∧
    (((s.wsetMark n up).pageFault p n va 4 .read).pair p).pc = (s.pair p).mtvec % 2 ^ 64 ∧
    ((s.wsetMark n up).pageFault p n va 4 .read).get (F.HXM_FAULTINFO_CAUSE p) = 4 ∧
    ((s.wsetMark n up).pageFault p n va 4 .read).get (F.HXM_FAULTINFO_TASK p) = n ∧
    (49, s.fab) ∈ ((s.wsetMark n up).pageFault p n va 4 .read).vdx.pulses ∧
    ((s.wsetMark n up).pageFault p n va 4 .read).rcd.reported.map (fun r => r.code) = s.rcd.reported.map (fun r => r.code) ++ [.WSET_VIOLATION] ∧
    ((s.wsetMark n up).pageFault p n va 4 .read).mem = s.mem := by
  obtain ⟨hb, hpulse, hcode, hmem⟩ := s.wsetMark_spec n up
  have hpair (q : Nat) : (s.wsetMark n up).pair q = s.pair q := by rw [State.pair, hb.pairs]; rfl
  unfold State.pageFault
  generalize s.wsetMark n up = v at hb hpulse hcode hmem hpair
  have hcause : ((v.set (F.HXM_FAULTINFO_CAUSE p) 4).set (F.HXM_FAULTINFO_TASK p) n).get (F.HXM_FAULTINFO_CAUSE p) = 4 := by
    rw [State.get_set_beside _ _ _ _ (.inr (Nat.le_of_ble_eq_true rfl)), State.get_set_same _ _ _ (Nat.le_of_ble_eq_true rfl)]
    rfl
  have htask : ((v.set (F.HXM_FAULTINFO_CAUSE p) 4).set (F.HXM_FAULTINFO_TASK p) n).get (F.HXM_FAULTINFO_TASK p) = n := by
    rw [State.get_set_same _ _ _ (Nat.le_of_ble_eq_true rfl)]
    exact Nat.mod_eq_of_lt h
  generalize hw : (v.set (F.HXM_FAULTINFO_CAUSE p) 4).set (F.HXM_FAULTINFO_TASK p) n = w at hcause htask
  obtain ⟨hpairs, hvdx₁, hrcd₁, hmem₁, -⟩ := v.set_frame (F.HXM_FAULTINFO_CAUSE p) 4
  obtain ⟨hpairs₂, hvdx₂, hrcd₂, hmem₂, -⟩ := (v.set (F.HXM_FAULTINFO_CAUSE p) 4).set_frame (F.HXM_FAULTINFO_TASK p) n
  rw [hw] at hpairs₂ hvdx₂ hrcd₂ hmem₂
  have hwpair (q : Nat) : w.pair q = s.pair q := by rw [← hpair, State.pair, State.pair, hpairs₂, hpairs]
  have hwvdx : w.vdx = v.vdx := hvdx₂.trans hvdx₁
  have hwrcd : w.rcd = v.rcd := hrcd₂.trans hrcd₁
  have hwmem : w.mem = v.mem := hmem₂.trans hmem₁
  obtain ⟨⟨hsaved, hpc, e⟩, hvdx⟩ := w.takesTrap_trap p 13 va (by rw [hwpair]; exact ht)
  have hregs : (w.trap p 13 va).regs = w.regs := by rw [e]
  have hrcd : (w.trap p 13 va).rcd = w.rcd := by rw [e]
  have htmem : (w.trap p 13 va).mem = w.mem := by rw [e]
  refine ⟨saved_congr hwpair hsaved, hpc.trans (by rw [hwpair]), (State.get_congr (State.reg_congr hregs _)).trans hcause,
    (State.get_congr (State.reg_congr hregs _)).trans htask, ?_, ?_, ?_⟩
  · rw [show Acc.pageFault .read = 13 from rfl, hvdx, hwvdx]; exact hpulse
  · rw [show Acc.pageFault .read = 13 from rfl, hrcd, hwrcd]; exact hcode
  · rw [show Acc.pageFault .read = 13 from rfl, htmem, hwmem]; exact hmem

/-- A resident page outside the working set: a violation and a stage miss, and the task goes on. -/
theorem State.wsetResident_spec (s : State) (p n up : Nat) (h : n < 1024) (hs : (s.unit p).seen.contains up = false) :
    (s.wsetResident p n up).get (F.HX_TASKSTAT1_STAGE_MISS n) = satAdd 65535 (s.get (F.HX_TASKSTAT1_STAGE_MISS n)) 1 ∧
    (49, s.fab) ∈ (s.wsetResident p n up).vdx.pulses ∧ (48, s.fab) ∈ (s.wsetResident p n up).vdx.pulses ∧
    (s.wsetResident p n up).rcd.reported.map (fun r => r.code) = s.rcd.reported.map (fun r => r.code) ++ [.WSET_VIOLATION, .STAGE_MISS] ∧
    (s.wsetResident p n up).pairs = s.pairs ∧ (s.wsetResident p n up).mem = s.mem := by
  unfold State.wsetResident
  rw [if_neg (by rw [hs]; exact Bool.false_ne_true)]
  dsimp only
  generalize hx : s.setUnit p { s.unit p with seen := up :: (s.unit p).seen } = x
  have hfab : x.fab = s.fab := by subst hx; rfl
  have hreg (f : Field) : x.get f = s.get f := by subst hx; rfl
  have hrcd : x.rcd = s.rcd := by subst hx; rfl
  have hpairs : x.pairs = s.pairs := by subst hx; rfl
  have hxmem : x.mem = s.mem := by subst hx; rfl
  obtain ⟨hb, hpulse, hcode, hmem⟩ := x.wsetMark_spec n up
  obtain ⟨kb, kcount, kpulse, kcode, kmem⟩ := (x.wsetMark n up).missMark_spec n h [n, up]
  have hfab' : (x.wsetMark n up).fab = x.fab := hb.fab
  refine ⟨kcount.trans ?_, ?_, ?_, ?_, kb.pairs.trans (hb.pairs.trans hpairs), kmem.trans (hmem.trans hxmem)⟩
  · rw [State.get_congr (hb.reg _ (farReg_stageMiss h)), hreg]
  · have hinc : ((x.wsetMark n up).inc (F.HX_TASKSTAT1_STAGE_MISS n)).fab = s.fab := (State.fab_inc _ _).trans (hfab'.trans hfab)
    have := kb.pulses 49 (by rw [hinc, ← hfab]; exact hpulse)
    rwa [hinc] at this
  · rwa [hfab', hfab] at kpulse
  · rw [kcode, hcode, hrcd, List.append_assoc]
    rfl

theorem pageMisses : PageMisses := by
  intro p n va up td s h hn
  have htd : s.taskD? n = some td := h.2.2.1
  have htd' : (s.execBegin p).taskD? n = some td := (s.taskD_execBegin p n).trans htd
  refine ⟨fun hm => ?_, fun hm => ?_, fun hm ht => ?_, fun a k hm hc hw hseen => ?_⟩
  · have hgo : s.asInsn p (stageMiss p va) = (s.execBegin p).stageMiss p n td.part up := by
      refine (State.userAccess_of h (fun _ m => match m with | .miss _ o => !o | _ => false) (by rw [hm]; rfl)).trans ?_
      rw [State.mapStop, htd', hm]
      rfl
    obtain ⟨hpair, hcount, hpulse, hcode, hreq, hbut, hmem⟩ := (s.execBegin p).stageMiss_spec p n td.part up hn
    refine ⟨_, congrArg Host.Outcome.next hgo, ?_, ?_, ?_, ?_, hreq, ?_, ?_, ?_⟩
    · rw [hpair]
    · rw [hcount]
      exact congrArg (satAdd 65535 · 1) (State.get_congr (State.reg_congr (s.regs_execBegin p) _))
    · rw [← s.fab_execBegin p]; exact hpulse
    · rw [hcode, s.rcd_execBegin]
    · rw [hpair, ← s.pair_execBegin p p]; rfl
    · exact fun q hq => (hbut q hq).trans (s.pair_execBegin p q)
    · rw [hmem, s.mem_execBegin]
  · have hgo : s.asInsn p (demandFill p va) = (s.execBegin p).askPage p td.part up (.demand p) (.fill up) := by
      refine (State.userAccess_of h (fun _ m => match m with | .fill _ => true | _ => false) (by rw [hm])).trans ?_
      rw [State.mapStop, htd', hm]
    obtain ⟨hpair, hreq, hbut, e⟩ := (s.execBegin p).askPage_spec p td.part up (.demand p) (.fill up)
    refine ⟨_, congrArg Host.Outcome.next hgo, ?_, hreq, ?_, ?_, e⟩
    · rw [hpair]
    · rw [hpair, ← s.pair_execBegin p p]; rfl
    · exact fun q hq => (hbut q hq).trans (s.pair_execBegin p q)
  · have hgo : s.asInsn p (wsetViolation p va) = ((s.execBegin p).wsetMark n up).pageFault p n va 4 .read := by
      refine (State.userAccess_of h (fun v m => v.violates p va m) (by rw [hm]; rfl)).trans ?_
      rw [State.mapStop, htd', hm]
    obtain ⟨hsaved, hpc, hcause, htask, hpulse, hcode, hmem⟩ := (s.execBegin p).violation_spec p n va up hn (by rwa [s.pair_execBegin])
    refine ⟨_, congrArg Host.Outcome.next hgo, saved_congr (s.pair_execBegin p) hsaved, by rw [hpc, s.pair_execBegin], hcause, htask, ?_, ?_, ?_⟩
    · rw [← s.fab_execBegin p]; exact hpulse
    · rw [hcode, s.rcd_execBegin]
    · rw [hmem, s.mem_execBegin]
  · have hout : (s.execBegin p).outside n va = true := by
      have hws : (s.execBegin p).wsetOf td = s.wsetOf td := by
        unfold State.wsetOf
        rw [← (s.execBegin_eq p).2, (s.execBegin_eq p).1]
      unfold State.outside
      rw [htd']
      dsimp only
      rw [hws, hc, hw]
      rfl
    have hgo : s.asInsn p (wsetViolation p va) = (s.execBegin p).wsetResident p n (va / 4096) := by
      have hsel : (s.execBegin p).violates p va (.mem a (some k)) = true := by
        rw [State.violates, (calls_begun h).2.1]
        exact hout
      refine (State.userAccess_of h (fun v m => v.violates p va m) (by rw [hm]; exact hsel)).trans ?_
      rw [State.mapStop, htd', hm]
      dsimp only
      rw [State.resident, hout]
      rfl
    have hunit : ((s.execBegin p).unit p).seen = (s.unit p).seen := by
      obtain e | ⟨m, e⟩ := s.execBegin_cases p
      · rw [e]
      · rw [e, State.unit_setUnit_same]
    obtain ⟨hcount, h49, h48, hcode, hpairs, hmem⟩ := (s.execBegin p).wsetResident_spec p n (va / 4096) hn (by rw [hunit]; exact hseen)
    refine ⟨_, congrArg Host.Outcome.next hgo, ?_, ?_, ?_, ?_, ?_, ?_⟩
    · rw [hcount]
      exact congrArg (satAdd 65535 · 1) (State.get_congr (State.reg_congr (s.regs_execBegin p) _))
    · rw [← s.fab_execBegin p]; exact h49
    · rw [← s.fab_execBegin p]; exact h48
    · rw [hcode, s.rcd_execBegin]
    · rw [hpairs, s.pairs_execBegin]
    · rw [hmem, s.mem_execBegin]

end Sys2Proof.Machine
end

section
/-! SUPPORT. The staging of working sets and the stager's transfers (R128, R138 to R140). -/
namespace Sys2Proof.Machine
open Sys2Proof.Claims
set_option Elab.async false

/-! ### A copy within memory -/

theorem key_gt_of_tsorted {α : Type} {t : Tbl α} {lo : Nat} (h : tsorted (some lo) t = true) : ∀ c ∈ t, lo < c.1 := by
  induction t generalizing lo with
  | nil => exact nofun
  | cons c t ih =>
    obtain ⟨a, v⟩ := c
    obtain ⟨hlo, ht⟩ := Bool.and_eq_true_iff.1 h
    have hlo : lo < a := of_decide_eq_true hlo
    intro c hc
    rcases List.mem_cons.1 hc with rfl | hc
    · exact hlo
    · exact hlo.trans (ih ht c hc)

theorem tget_of_no_key {α : Type} (d : Nat → α) {t : Tbl α} {k : Nat} (h : ∀ c ∈ t, c.1 ≠ k) : tget d t k = d k := by
  induction t with
  | nil => rfl
  | cons c t ih =>
    obtain ⟨a, v⟩ := c
    rw [tget, if_neg (h (a, v) (by simp)), ih fun c hc => h c (by simp [hc])]

/-- The entries of a run copied elsewhere read there as in the run; where the run lists nothing, the destination reads as before. -/
theorem tget_tputs_shifted (m t : Tbl Byte) (dst src n i : Nat) (hi : i < n) (hm : tsorted none m = true) :
    tget byteD (tputs byteD t ((m.filter fun c => decide (src ≤ c.1 ∧ c.1 < src + n)).map fun c => (dst + (c.1 - src), c.2))) (dst + i) =
      if ∃ c ∈ m, c.1 = src + i then tget byteD m (src + i) else tget byteD t (dst + i) := by
  induction m generalizing t with
  | nil => simp [tputs]
  | cons c m ih =>
    obtain ⟨a, v⟩ := c
    have hm : tsorted (some a) m = true := hm
    have hgt := key_gt_of_tsorted hm
    have ih := fun t => ih t (tsorted_none_of_some m a hm)
    by_cases ha : a = src + i
    · have hin : (src ≤ a ∧ a < src + n) := by omega
      have hno : ¬ ∃ c ∈ m, c.1 = src + i := by
        rintro ⟨c, hc, he⟩
        have := hgt c hc
        omega
      rw [List.filter_cons_of_pos (by simp [hin]), List.map_cons, tputs, ih, if_neg hno, if_pos ⟨(a, v), by simp, ha⟩, tget, if_pos ha]
      have hd : dst + (a - src) = dst + i := by omega
      rw [hd, tget_tput_same]
    · have hex : (∃ c ∈ (a, v) :: m, c.1 = src + i) ↔ ∃ c ∈ m, c.1 = src + i := by simp [ha]
      simp only [hex, tget, if_neg ha]
      by_cases hin : src ≤ a ∧ a < src + n
      · rw [List.filter_cons_of_pos (by simp [hin]), List.map_cons, tputs, ih, tget_tput_other _ _ _ _ _ (by simp only; omega)]
      · rw [List.filter_cons_of_neg (by simp [hin]), ih]

/-- A copy reads at its destination as its source did. -/
theorem memCopy_inside (m : Tbl Byte) (dst src n i : Nat) (hi : i < n) (hm : Memory.wf m) :
    tget byteD (memCopy m dst src n) (dst + i) = tget byteD m (src + i) := by
  have hs : tsorted none m = true := (Bool.and_eq_true_iff.1 hm).1
  rw [memCopy, tget_tputs_shifted _ _ _ _ _ _ hi hs]
  split
  · rfl
  next hno =>
    rw [tget_memClear, if_pos (by omega), tget_of_no_key byteD fun c hc he => hno ⟨c, hc, he⟩]
    rfl

/-! ### Working sets (R138, R139) -/

theorem nodup_eraseDups (l : List Nat) : l.eraseDups.Nodup := by
  induction h : l.length using Nat.strong_induction_on generalizing l with
  | _ n ih =>
    cases l with
    | nil => simp
    | cons a l =>
      rw [List.eraseDups_cons, List.nodup_cons]
      refine ⟨by simp [List.mem_eraseDups], ih _ ?_ _ rfl⟩
      rw [← h, List.length_cons]
      exact Nat.lt_succ_of_le (List.length_filter_le _ _)

theorem pkey_inj {part a b : Nat} (h : pkey part a = pkey part b) : a = b := Nat.add_left_cancel h

/-- A working set pinned: each of its pages counts one pin more, and nothing else changes. -/
theorem State.pin_fold (part : Nat) (l : List Nat) (hl : l.Nodup) (s : State) :
    ∃ pages, l.foldl (fun (s : State) up => s.modPage (pkey part up) fun p => { p with pins := p.pins + 1 }) s = { s with hxm := { s.hxm with pages := pages } } ∧
      (∀ up ∈ l, tget pageD pages (pkey part up) = { s.page (pkey part up) with pins := (s.page (pkey part up)).pins + 1 }) ∧
      (∀ k, (∀ up ∈ l, k ≠ pkey part up) → tget pageD pages k = s.page k) := by
  induction l generalizing s with
  | nil => exact ⟨s.hxm.pages, rfl, nofun, fun _ _ => rfl⟩
  | cons a l ih =>
    obtain ⟨ha, hl⟩ := List.nodup_cons.1 hl
    obtain ⟨pages, e, hin, hout⟩ := ih hl (s.modPage (pkey part a) fun p => { p with pins := p.pins + 1 })
    have hother (k : Nat) (hk : k ≠ pkey part a) : (s.modPage (pkey part a) fun p => { p with pins := p.pins + 1 }).page k = s.page k :=
      tget_tput_other _ _ _ _ _ hk
    refine ⟨pages, by rw [List.foldl_cons, e]; rfl, fun up hup => ?_, fun k hk => ?_⟩
    · by_cases hua : up = a
      · subst hua
        rw [hout _ fun b hb he => ha (by rw [pkey_inj he]; exact hb)]
        exact tget_tput_same _ _ _ _
      · rw [hin up ((List.mem_cons.1 hup).resolve_left hua), hother _ fun he => hua (pkey_inj he)]
    · rw [hout k fun b hb => hk b (by simp [hb]), hother k (hk a (by simp))]

theorem stagingRequested (w m : Nat) (d : Window) (td : Task) (s u : State) (hw : s.window? w = some d) (htd : s.taskD? d.task = some td) (ha : s.alive = true)
    (hd : s.dusked = false) (hf : s.hx.frameOn = true) (hc : td.cls < 2) (hu4 : td.unit < 4)
    (hfind : (s.startsOf d).find? (fun x => decide (s.clk.t ≤ s.mt x) && (s.stagedAt w x).isNone) = some m)
    (hu : u = s.advance (s.mt m - s.get F.HXM_LOOKAHEAD_LOOKAHEAD * usUt)) :
    ∃ t, exec (.stagingRequest w) s = .next t ∧ t.clk = u.clk ∧
      t.hxm.staged = s.hxm.staged ++ [⟨w, m, td.part, (s.wsetOf td).eraseDups⟩] ∧
      (∀ up ∈ s.wsetOf td, (t.page (pkey td.part up)).pins = (s.page (pkey td.part up)).pins + 1) ∧
      (∀ up ∈ s.wsetOf td, (s.page (pkey td.part up)).frame = none → (s.page (pkey td.part up)).poisoned = false →
        (⟨.window w, td.part, up, m, td.unit⟩ : StageReq) ∈ t.hxm.stq) ∧
      (∀ r ∈ s.hxm.stq, r ∈ t.hxm.stq) ∧ t.mem = s.mem := by
  obtain ⟨pages, e, hin, -⟩ := State.pin_fold td.part (s.wsetOf td).eraseDups (nodup_eraseDups _) u
  obtain ⟨c, r, p, v, o, hmoved⟩ := (s.advance_moves (s.mt m - s.get F.HXM_LOOKAHEAD_LOOKAHEAD * usUt)).1
  have hws : u.wsetOf td = s.wsetOf td := by rw [hu, hmoved]; rfl
  have hxm : u.hxm = s.hxm := by rw [hu, hmoved]
  have hmem : u.mem = s.mem := by rw [hu, hmoved]
  have hgo : stagingRequest w s = { u with hxm := { s.hxm with
      pages := pages
      staged := s.hxm.staged ++ [⟨w, m, td.part, (s.wsetOf td).eraseDups⟩]
      stq := s.hxm.stq ++ ((s.wsetOf td).eraseDups.filter fun up => (tget pageD pages (pkey td.part up)).frame.isNone && !(tget pageD pages (pkey td.part up)).poisoned).map
        fun up => StageReq.mk (.window w) td.part up m td.unit } } := by
    unfold stagingRequest
    have hwt : s.winTask w = some td := by rw [State.winTask, hw]; exact htd
    rw [hw, hwt]
    dsimp only
    rw [hfind]
    dsimp only
    rw [if_pos (by simp [ha, hd, hf, hc, hu4]), ← hu, hws, e, hxm]
    rfl
  have hpage (k : Nat) : u.page k = s.page k := by rw [State.page, hxm]; rfl
  refine ⟨stagingRequest w s, rfl, ?_⟩
  rw [hgo]
  refine ⟨rfl, rfl, fun up hup => ?_, fun up hup hframe hpois => ?_, fun r hr => List.mem_append_left _ hr, hmem⟩
  · show (tget pageD pages (pkey td.part up)).pins = _
    rw [hin up (List.mem_eraseDups.2 hup), hpage]
  · refine List.mem_append_right _ (List.mem_map.2 ⟨up, List.mem_filter.2 ⟨List.mem_eraseDups.2 hup, ?_⟩, rfl⟩)
    rw [hin up (List.mem_eraseDups.2 hup), hpage]
    simp [hframe, hpois]

/-! ### A transfer of the stager (R128, R138, R140) -/

/-- Within its quota a partition has one of the free frames, at no cost. -/
theorem State.takeFrame_spec (s : State) (part : Nat) (d : Part) (hp : s.part? part = some d) (hq : s.held part < d.sramQuota) (hf : s.hxm.free ≠ []) :
    ∃ f ∈ s.hxm.free, ∃ r k, s.takeFrame part = ({ s with regs := r, freeCtr := k, hxm := { s.hxm with free := s.hxm.free.erase f } }, some f, 0) := by
  have hheld (v : State) (n : Nat) : ∃ r, v.setHeld part n = { v with regs := r } := by
    unfold State.setHeld
    dsimp only
    split
    exacts [⟨_, rfl⟩, ⟨_, rfl⟩]
  unfold State.takeFrame
  rw [hp]
  dsimp only
  rw [if_pos hq]
  dsimp only
  rw [if_pos hq]
  unfold State.allocFrame
  cases hl : s.hxm.free with
  | nil => exact absurd hl hf
  | cons f0 l =>
    dsimp only
    have hmem : (f0 :: l).getD (Config.freePick s.freeCtr % (l.length + 1)) f0 ∈ f0 :: l := by
      have hlt : Config.freePick s.freeCtr % (l.length + 1) < (f0 :: l).length := Nat.mod_lt _ (Nat.succ_pos _)
      rw [List.getD_eq_getElem _ _ hlt]
      exact List.getElem_mem hlt
    obtain ⟨r, hr⟩ := hheld (s.free.setFree ((f0 :: l).erase ((f0 :: l).getD (Config.freePick s.freeCtr % (l.length + 1)) f0)))
      ((s.free.setFree ((f0 :: l).erase ((f0 :: l).getD (Config.freePick s.freeCtr % (l.length + 1)) f0))).held part + 1)
    refine ⟨_, hmem, r, s.freeCtr + 1, ?_⟩
    rw [hr]
    rfl

/-- The end of reservations leaves a pair but for its own. -/
theorem State.pair_unreserve (s : State) (but a n p : Nat) : ∃ r, (s.unreserve but a n).pair p = { s.pair p with resv := r } := by
  unfold State.unreserve
  refine foldl_keeps (fun v : State => ∃ r, v.pair p = { s.pair p with resv := r }) _ (fun v k h => ?_) _ _ ⟨(s.pair p).resv, rfl⟩
  obtain ⟨r, h⟩ := h
  split
  · split
    · by_cases hk : p = k
      · subst hk
        exact ⟨none, by rw [State.pair_modPair_same, h]⟩
      · exact ⟨r, by rw [State.pair_modPair_other _ _ _ _ hk, h]⟩
    · exact ⟨r, h⟩
  · exact ⟨r, h⟩

/-- The pair waits for a page of its own partition. -/
def State.awaits (s : State) (part up p : Nat) : Bool :=
  (match s.taskD? (s.pair p).curBank.task with | some t => t.part == part | none => false) &&
    (match (s.pair p).stall with | some (.stage u) | some (.fill u) => u == up | _ => false)

theorem State.awaits_congr {v w : State} {part up p : Nat} (hpair : w.pair p = v.pair p) (hx : w.hx = v.hx) :
    w.awaits part up p = v.awaits part up p := by
  rw [State.awaits, State.awaits, State.taskD?, State.taskD?, hpair, hx]

/-- The step of `unstall` for one pair. -/
theorem State.unstall_eq (s : State) (part up : Nat) :
    s.unstall part up = (List.range 4).foldl (fun (s : State) p => if s.awaits part up p then s.modPair p fun q => { q with stall := none } else s) s := by
  unfold State.unstall
  congr 1
  funext v p
  unfold State.awaits
  cases (v.pair p).stall with
  | none => simp
  | some x =>
    cases x with
    | stage u => rfl
    | fill u => rfl
    | _ => simp

/-- The pairs that wait for a page go on; nothing but pairs changes. -/
theorem State.unstall_spec (s : State) (part up : Nat) : TouchesPairs s (s.unstall part up) ∧
    ∀ p, p < 4 → s.awaits part up p = true → ((s.unstall part up).pair p).stall = none := by
  rw [s.unstall_eq]
  refine ⟨foldl_rel (R := TouchesPairs) .refl .trans _ (fun a k => ?_) _ _, fun p hp => ?_⟩
  · split
    · exact a.modPair_pairs _ _
    · exact .refl a
  · have hgen (l : List Nat) (v : State) (h : (v.pair p).stall = none ∨ p ∈ l ∧ v.awaits part up p = true) :
        ((l.foldl (fun (s : State) p => if s.awaits part up p then s.modPair p fun q => { q with stall := none } else s) v).pair p).stall = none := by
      induction l generalizing v with
      | nil => exact h.resolve_right fun h => List.not_mem_nil h.1
      | cons k l ih =>
        rw [List.foldl_cons]
        by_cases hk : p = k
        · subst hk
          refine ih _ (.inl ?_)
          split
          · rw [State.pair_modPair_same]
          next hn => exact h.resolve_right fun h => hn h.2
        · have hsame : (if v.awaits part up k then v.modPair k fun q => { q with stall := none } else v).pair p = v.pair p := by
            split
            · exact State.pair_modPair_other _ _ _ _ hk
            · rfl
          have htask : (if v.awaits part up k then v.modPair k fun q => { q with stall := none } else v).hx = v.hx := by split <;> rfl
          refine ih _ (h.imp (fun h => by rw [hsame]; exact h) fun ⟨hm, hw⟩ => ⟨(List.mem_cons.1 hm).resolve_left hk, ?_⟩)
          rw [State.awaits_congr hsame htask]
          exact hw
    exact fun hw => hgen _ s (.inr ⟨List.mem_range.2 hp, hw⟩)

/-- The frame takes its new content, and the page the frame. -/
def State.filled (s : State) (key f : Nat) (m : Tbl Byte) : State :=
  let s := (({ s with mem := m } : State).unpoison (frameAddr f) 4096).unreserve 4 (frameAddr f) 4096
  s.setPage key { s.page key with frame := some f, last := s.clk.t, written := false, lost := false }

theorem State.filled_spec (s : State) (key f : Nat) (m : Tbl Byte) : (s.filled key f m).mem = m ∧ ((s.filled key f m).page key).frame = some f ∧
    (s.filled key f m).hxm.free = s.hxm.free ∧ (s.filled key f m).hxm.stq = s.hxm.stq ∧ (s.filled key f m).clk = s.clk ∧ (s.filled key f m).hx = s.hx ∧
    ∀ p, ∃ r, (s.filled key f m).pair p = { s.pair p with resv := r } := by
  unfold State.filled
  have hpairs := State.pair_unreserve (({ s with mem := m } : State).unpoison (frameAddr f) 4096) 4 (frameAddr f) 4096
  obtain ⟨q, e⟩ := State.unreserve_pairs (({ s with mem := m } : State).unpoison (frameAddr f) 4096) 4 (frameAddr f) 4096
  rw [e] at hpairs ⊢
  exact ⟨rfl, congrArg PageSt.frame (tget_tput_same pageD _ _ _), rfl, rfl, rfl, rfl, hpairs⟩

/-- A page comes into a free frame from its DDR home. -/
theorem State.fillPage_spec (s : State) (part up h : Nat) (g : Seg) (d : Part) (hseg : s.segOf part up = some g) (hg : g.home ≠ 2)
    (hex : g.home = 3 → (s.page (pkey part up)).exist = true)
    (hpage : (s.page (pkey part up)).frame = none ∧ (s.page (pkey part up)).home = some h ∧ (s.page (pkey part up)).poisoned = false)
    (hbad : s.hxm.homePoison.contains h = false) (hp : s.part? part = some d) (hq : s.held part < d.sramQuota) (hf : s.hxm.free ≠ []) :
    ∃ f ∈ s.hxm.free, ∃ w, s.fillPage part up = (w, 640) ∧ w.mem = memCopy s.mem (frameAddr f) (homeAddr h) 4096 ∧
      (w.page (pkey part up)).frame = some f ∧ w.hxm.free = s.hxm.free.erase f ∧ w.hxm.stq = s.hxm.stq ∧ w.clk = s.clk ∧ w.hx = s.hx ∧
      ∀ p, ∃ r, w.pair p = { s.pair p with resv := r } := by
  obtain ⟨hframe, hhome, hpois⟩ := hpage
  have hexists : s.pageExists part up = true := by
    rw [State.pageExists, hseg]
    by_cases h3 : g.home = 3
    · simp [hex h3]
    · simp [h3]
  have hsound : s.homeBad part up = false := by
    rw [State.homeBad, hseg]
    dsimp only
    rw [if_neg hg, hhome]
    exact hbad
  obtain ⟨f, hfree, r, k, e⟩ := s.takeFrame_spec part d hp hq hf
  unfold State.fillPage
  rw [hseg]
  dsimp only
  rw [if_neg (by simp [hframe, hpois, hexists]), if_neg (by simp [hsound]), e]
  dsimp only
  rw [if_neg hg, if_neg hg, hhome]
  obtain ⟨hmem, hpf, hfr, hstq, hclk, hhx, hpair⟩ := State.filled_spec { s with regs := r, freeCtr := k, hxm := { s.hxm with free := s.hxm.free.erase f } }
    (pkey part up) f (memCopy s.mem (frameAddr f) (homeAddr h) 4096)
  exact ⟨f, hfree, _, rfl, hmem, hpf, hfr, hstq, hclk, hhx, hpair⟩

theorem transferred (r : StageReq) (g : Seg) (h : Nat) (d : Part) (s : State) (hnext : s.nextStage = some r) (ha : s.alive = true) (hd : s.dusked = false)
    (hflush : r.why ≠ .flush) (hscrub : ∀ m l, r.why ≠ .scrub m l) (hseg : s.segOf r.part r.page = some g) (hg : g.home ≠ 2)
    (hex : g.home = 3 → (s.page (pkey r.part r.page)).exist = true)
    (hpage : s.page (pkey r.part r.page) = { s.page (pkey r.part r.page) with frame := none, home := some h, poisoned := false })
    (hbad : s.hxm.homePoison.contains h = false) (hp : s.part? r.part = some d) (hq : s.held r.part < d.sramQuota) (hf : s.hxm.free ≠ [])
    (hwf : Memory.wf s.mem) (herrs : s.stagerErrs = []) :
    ∃ t f, exec .pageTransferDone s = .next t ∧ f ∈ s.hxm.free ∧ (t.page (pkey r.part r.page)).frame = some f ∧
      (∀ i, i < 4096 → t.rd8 (frameAddr f + i) = s.rd8 (homeAddr h + i)) ∧ MemBut s t (frameAddr f) 4096 ∧
      t.hxm.stq = s.hxm.stq.erase r ∧ t.hxm.free = s.hxm.free.erase f ∧ t.clk.t = s.clk.t + 640 ∧
      (∀ p, p < 4 → (∃ td, s.taskD? (s.pair p).curBank.task = some td ∧ td.part = r.part) →
        ((s.pair p).stall = some (.stage r.page) ∨ (s.pair p).stall = some (.fill r.page)) → (t.pair p).stall = none) := by
  have hpage' : (s.page (pkey r.part r.page)).frame = none ∧ (s.page (pkey r.part r.page)).home = some h ∧ (s.page (pkey r.part r.page)).poisoned = false := by
    rw [hpage]
    exact ⟨rfl, rfl, rfl⟩
  obtain ⟨f, hfree, w, hfill, hmem, hframe, hfr, hstq, hclk, hhx, hpair⟩ := State.fillPage_spec { s with hxm := { s.hxm with stq := s.hxm.stq.erase r } }
    r.part r.page h g d hseg hg hex hpage' hbad hp hq hf
  have hgo : pageTransferDone s = (w.wait 640).unstall r.part r.page := by
    rw [pageTransferDone, if_pos (by simp [ha, hd, hnext]), herrs]
    show s.transferDone = _
    unfold State.transferDone
    rw [hnext]
    dsimp only
    rw [if_neg (by simp [ha, hd])]
    cases hy : r.why with
    | flush => exact absurd hy hflush
    | scrub m l => exact absurd hy (hscrub m l)
    | _ =>
      dsimp only
      rw [hfill]
  obtain ⟨⟨q, e⟩, hgoes⟩ := (w.wait 640).unstall_spec r.part r.page
  have hcount := w.pair_advance (w.clk.t + 640)
  have hlater := (w.advance_moves (w.clk.t + 640)).2
  obtain ⟨c, x, y, v, o, hmoved⟩ := (w.advance_moves (w.clk.t + 640)).1
  change w.wait 640 = _ at hmoved
  have htmem : ((w.wait 640).unstall r.part r.page).mem = w.mem := by rw [e, hmoved]
  have htxm : ((w.wait 640).unstall r.part r.page).hxm = w.hxm := by rw [e, hmoved]
  have htclk : ((w.wait 640).unstall r.part r.page).clk = (w.wait 640).clk := by rw [e]
  have hread (a : Nat) : ((w.wait 640).unstall r.part r.page).rd8 a = tget byteD (memCopy s.mem (frameAddr f) (homeAddr h) 4096) a := by
    rw [State.rd8, htmem, hmem]
  refine ⟨(w.wait 640).unstall r.part r.page, f, congrArg Host.Outcome.next hgo, hfree, ?_, fun i hi => ?_, fun b hb => ?_, ?_, ?_, ?_, fun p hp4 htask hstall => ?_⟩
  · rw [State.page, htxm]
    exact hframe
  · rw [hread, memCopy_inside _ _ _ _ _ hi hwf]
    rfl
  · rw [hread]
    exact memCopy_other _ _ _ _ _ hb
  · rw [htxm, hstq]
  · rw [htxm, hfr]
  · rw [htclk, State.wait, hlater, hclk]
    show max s.clk.t (s.clk.t + 640) = _
    omega
  · refine hgoes p hp4 ?_
    obtain ⟨td, htd, hpart⟩ := htask
    obtain ⟨rv, hrv⟩ := hpair p
    obtain ⟨a, b, hab⟩ := hcount p
    have hx : (w.wait 640).hx = s.hx := by rw [hmoved]; exact hhx
    have hpp : (w.wait 640).pair p = { s.pair p with resv := rv, mcycle := a, hpm4 := b } := by
      rw [State.wait, hab, hrv]
      rfl
    have htask' : (w.wait 640).taskD? ((w.wait 640).pair p).curBank.task = some td := by
      rw [State.taskD?, hx, hpp]
      exact htd
    have hstall' : ((w.wait 640).pair p).stall = (s.pair p).stall := by rw [hpp]
    rw [State.awaits, htask', hstall']
    rcases hstall with hs | hs
    · rw [hs]; simp [hpart]
    · rw [hs]; simp [hpart]

theorem staging : Staging := by
  refine ⟨stagingRequested, fun r g h d s h1 h2 h3 h4 h5 h6 h7 h8 _ _ => transferred r g h d s h1 h2 h3 h4 h5 h6 h7 h8, fun w s hd => ⟨?_, ?_⟩⟩
  · show Host.Outcome.next (stagingRequest w s) = _
    unfold stagingRequest
    split
    · split
      · rw [if_neg (by simp [hd])]
      · rfl
    · rfl
  · show Host.Outcome.next (pageTransferDone s) = _
    rw [pageTransferDone, if_neg (by simp [hd])]

end Sys2Proof.Machine
end

section
/-! SUPPORT. Scrubbing and uncorrectable errors (R147 to R152); with staging and page misses before, O22. -/
namespace Sys2Proof.Machine
open Sys2Proof.Claims
set_option Elab.async false

/-! ### Passes of the scrubber (R150, R151) -/

/-- A correction is counted and recorded; what waits for the stager is all that changes besides. -/
theorem State.memCorrected_spec (s : State) (m line : Nat) (bad : List Nat) (scrub : Bool) :
    (s.memCorrected m line bad scrub).get F.HXM_MEMERR_CORR = satAdd (2 ^ F.HXM_MEMERR_CORR.w - 1) (s.get F.HXM_MEMERR_CORR) 1 ∧
    (s.memCorrected m line bad scrub).rcd.reported.map (fun r => r.code) = s.rcd.reported.map (fun r => r.code) ++ [.MEM_CORRECTED] ∧
    (∀ q, q ≠ F.HXM_MEMERR_CORR.off → (s.memCorrected m line bad scrub).reg q = s.reg q) ∧
    ∃ r x l k, s.memCorrected m line bad scrub = { s with regs := r, rcd := x, hxm := { s.hxm with latent := l, stq := k } } := by
  have hcount := s.get_inc F.HXM_MEMERR_CORR (by decide)
  have hother (q : Nat) (hq : q ≠ F.HXM_MEMERR_CORR.off) : (s.inc F.HXM_MEMERR_CORR).reg q = s.reg q := s.reg_set_other _ q _ hq
  have hcode := ((s.inc F.HXM_MEMERR_CORR).report_spec .MEM_CORRECTED srcHxm [m, line]).1
  unfold State.memCorrected
  dsimp only
  split
  · exact ⟨hcount, hcode, hother, _, _, _, _, rfl⟩
  · split
    · exact ⟨hcount, hcode, hother, _, _, _, _, rfl⟩
    · exact ⟨hcount, hcode, hother, _, _, _, _, rfl⟩

/-- The first part of the end of a pass: a late pass is raised and recorded (R150). -/
def State.passLagged (s : State) (m : Nat) : State :=
  if max (tget natD s.hxm.passAt m) s.pwr.dawnAt + 2 * s.scrubPeriod m < s.clk.t then (s.raise 435).report .SCRUB_LAG srcHxm [m] else s

/-- The memories that have completed their pass with `m` among them. -/
def Hxm.passedWith (x : Hxm) (m : Nat) : List Nat := if x.passed.contains m then x.passed else m :: x.passed

/-- The second part of the end of a pass: the pass is noted, and the last memory of a round ends the round (R150). -/
def State.passNoted (s : State) (m : Nat) : State :=
  let v := { s with hxm := { s.hxm with passAt := tput natD s.hxm.passAt m s.clk.t, passed := s.hxm.passedWith m } }
  if (s.hxm.passedWith m).length = 5 then { v.raise 53 with hxm := { v.hxm with passed := [] } } else v

theorem State.passDone_eq (s : State) (m : Nat) : s.passDone m = (s.passLagged m).passNoted m := rfl

theorem State.passLagged_beside (s : State) (m : Nat) : Beside s (s.passLagged m) := .either (Beside.refl s).raise.report (.refl s)

theorem State.passLagged_mem (s : State) (m : Nat) : (s.passLagged m).mem = s.mem := by
  unfold State.passLagged
  split
  · obtain ⟨r, v, e⟩ := s.raise_sources 435
    rw [e]
    rfl
  · rfl

theorem State.passNoted_spec (s : State) (m : Nat) :
    ∃ r v l, s.passNoted m = { s with regs := r, vdx := v, hxm := { s.hxm with passAt := tput natD s.hxm.passAt m s.clk.t, passed := l } } ∧
      (∀ n, (n, s.fab) ∈ s.vdx.pulses → (n, s.fab) ∈ v.pulses) ∧ (∀ q, farReg q = true → (s.passNoted m).reg q = s.reg q) ∧
      (s.hxm.passed.contains m = false → (s.hxm.passed.length = 4 → (53, s.fab) ∈ v.pulses ∧ l = []) ∧
        (s.hxm.passed.length < 4 → l = m :: s.hxm.passed)) := by
  have hlist (h : s.hxm.passed.contains m = false) : s.hxm.passedWith m = m :: s.hxm.passed := if_neg (by simp only [h, Bool.false_eq_true, not_false_eq_true])
  unfold State.passNoted
  dsimp only
  generalize hv : ({ s with hxm := { s.hxm with passAt := tput natD s.hxm.passAt m s.clk.t, passed := s.hxm.passedWith m } } : State) = v
  split
  next h5 =>
    obtain ⟨r, x, e⟩ := v.raise_sources 53
    have hp := v.pulse_raise 53
    have hraised := v.pulses_raise 53 rfl
    have hreg := (Beside.refl v).raise (n := 53) |>.reg
    rw [e] at hp hraised hreg ⊢
    subst hv
    exact ⟨r, x, [], rfl, hp, hreg, fun hm => ⟨fun _ => ⟨hraised, rfl⟩, fun h => absurd h5 (by rw [hlist hm, List.length_cons]; omega)⟩⟩
  next h5 =>
    subst hv
    exact ⟨s.regs, s.vdx, _, rfl, fun _ h => h, fun _ _ => rfl,
      fun hm => ⟨fun h => absurd (by rw [hlist hm, List.length_cons, h]) h5, fun _ => hlist hm⟩⟩

theorem State.passNoted_rcd (s : State) (m : Nat) : (s.passNoted m).rcd = s.rcd := by
  obtain ⟨r, v, l, e, -⟩ := s.passNoted_spec m
  rw [e]

/-! ### Passes of SRAM and of the other memories -/

theorem Beside.get_far {s t : State} (h : Beside s t) (f : Field) (hf : farReg f.off = true) : t.get f = s.get f := by
  rw [State.get, State.get, h.reg _ hf]

theorem State.lineErrs_corrected (s : State) (e : LineErr) (hs : s.symbols e ≠ []) (hc : symCorrectable (s.symbols e) = true) :
    s.lineErrs [e] true = s.memCorrected e.m.val (errLine e) (s.symbols e) true := by
  rw [State.lineErrs, List.foldl_cons, List.foldl_nil, State.lineErr, if_pos hc, if_neg (by simp [hs])]

theorem scrubPassed (m : Fin 5) (e : LineErr) (s : State) (ha : s.alive = true) (hm : m.val ≠ 0) (he : e.m.val = m.val) (hs : s.symbols e ≠ [])
    (hc : symCorrectable (s.symbols e) = true) (hl : s.clk.t ≤ max (tget natD s.hxm.passAt m) s.pwr.dawnAt + 2 * s.scrubPeriod m)
    (hp : s.hxm.passed.contains m.val = false) :
    ∃ t, exec (.scrubPass m [e]) s = .next t ∧
      t.get F.HXM_MEMERR_CORR = satAdd (2 ^ F.HXM_MEMERR_CORR.w - 1) (s.get F.HXM_MEMERR_CORR) 1 ∧
      t.rcd.reported.map (fun r => r.code) = s.rcd.reported.map (fun r => r.code) ++ [.MEM_CORRECTED] ∧
      tget natD t.hxm.passAt m = s.clk.t ∧
      (s.hxm.passed.length = 4 → (53, s.fab) ∈ t.vdx.pulses ∧ t.hxm.passed = []) ∧
      (s.hxm.passed.length < 4 → t.hxm.passed = m.val :: s.hxm.passed) ∧ t.mem = s.mem := by
  generalize hu : s.memCorrected e.m.val (errLine e) (s.symbols e) true = u
  have hgo : scrubPass m [e] s = u.passNoted m := by
    have hline : s.lineErrs [e] true = u := (s.lineErrs_corrected e hs hc).trans hu
    have hlag : u.passLagged m = u := by
      obtain ⟨hget, hcode, hreg, r, x, l, k, eu⟩ := s.memCorrected_spec e.m.val (errLine e) (s.symbols e) true
      rw [hu] at hreg eu
      have hperiod : u.scrubPeriod m = s.scrubPeriod m := by
        have hf (f : Field) (hf : f.off = 0x30010) : u.get f = s.get f := by
          rw [State.get, State.get, hreg _ (by rw [hf]; decide)]
        unfold State.scrubPeriod
        rw [hf _ rfl, hf _ rfl, hf _ rfl, hf _ rfl]
      refine if_neg (Nat.not_lt.2 ?_)
      rw [hperiod, eu]
      exact hl
    rw [scrubPass, if_neg (by simp [ha])]
    dsimp only
    rw [List.filter_cons_of_pos (by simp [he]), List.filter_nil, hline, if_neg hm, State.passDone_eq, hlag]
  obtain ⟨hget, hcode, hreg, r, x, l, k, eu⟩ := s.memCorrected_spec e.m.val (errLine e) (s.symbols e) true
  obtain ⟨r', v, l', en, hpulse, hfar, hlast⟩ := u.passNoted_spec m
  rw [hu] at hget hcode eu
  have hh : u.hxm.passed = s.hxm.passed := by rw [eu]
  have hfab : u.fab = s.fab := by rw [eu]; rfl
  rw [hh, hfab] at hlast
  obtain ⟨h4, hlt⟩ := hlast hp
  refine ⟨u.passNoted m, congrArg Host.Outcome.next hgo, ?_, ?_, ?_, ?_, ?_, ?_⟩
  · rw [← hget, State.get, State.get, hfar _ rfl]
  · rw [en]
    exact hcode
  · rw [en, eu]
    exact tget_tput_same _ _ _ _
  · rw [en]
    exact h4
  · rw [en]
    exact hlt
  · rw [en, eu]

theorem lateScrub (m : Fin 5) (s : State) (ha : s.alive = true) (hl : max (tget natD s.hxm.passAt m) s.pwr.dawnAt + 2 * s.scrubPeriod m < s.clk.t) :
    ∃ t, exec (.scrubPass m []) s = .next t ∧ (435, s.fab) ∈ t.vdx.pulses ∧ tget natD t.hxm.passAt m = s.clk.t ∧
      t.rcd.reported.map (fun r => r.code) = s.rcd.reported.map (fun r => r.code) ++ [.SCRUB_LAG] := by
  obtain ⟨l, hsym⟩ : ∃ l, (if m.val = 0 then s.countSymbols [] else s) = { s with hxm := { s.hxm with sym := l } } := by
    split
    exacts [⟨_, rfl⟩, ⟨_, rfl⟩]
  generalize hu : ({ s with hxm := { s.hxm with sym := l } } : State) = u at hsym
  have hgo : scrubPass m [] s = (u.passLagged m).passNoted m := by
    rw [scrubPass, if_neg (by simp [ha])]
    dsimp only
    rw [List.filter_nil, State.lineErrs, List.foldl_nil, State.scrubKeys, List.flatMap_nil, hsym, State.passDone_eq]
  have hlag : u.passLagged m = (u.raise 435).report .SCRUB_LAG srcHxm [m] := if_pos (by rw [← hu]; exact hl)
  obtain ⟨r, v, e⟩ := u.raise_sources 435
  have hraised := u.pulses_raise 435 rfl
  obtain ⟨r', v', l', en, hpulse, -, -⟩ := (u.passLagged m).passNoted_spec m
  have hfab : (u.passLagged m).fab = s.fab := by rw [(u.passLagged_beside m).fab, ← hu]; rfl
  have hcode := ((u.raise 435).report_spec .SCRUB_LAG srcHxm [m]).1
  refine ⟨(u.passLagged m).passNoted m, congrArg Host.Outcome.next hgo, ?_, ?_, ?_⟩
  · rw [en]
    refine (congrArg (fun k => (435, k) ∈ v'.pulses) hfab).mp (hpulse 435 ?_)
    rw [(u.passLagged_beside m).fab, hlag]
    exact hraised
  · rw [en]
    have hc : (u.passLagged m).clk = s.clk := by rw [(u.passLagged_beside m).clk, ← hu]
    rw [hc]
    exact tget_tput_same _ _ _ _
  · rw [en]
    show (u.passLagged m).rcd.reported.map _ = _
    rw [hlag, hcode, e, ← hu]

/-! ### Recurring corrections of SRAM (R151) -/

theorem tget_filter_key {α : Type} (d : Nat → α) (keep : Nat → Bool) (t : Tbl α) (k : Nat) (hk : keep k = true) :
    tget d (t.filter fun c => keep c.1) k = tget d t k := by
  induction t with
  | nil => rfl
  | cons c t ih =>
    obtain ⟨a, v⟩ := c
    by_cases ha : keep a = true
    · rw [List.filter_cons_of_pos (by exact ha), tget, tget, ih]
    · have hne : a ≠ k := fun h => ha (h ▸ hk)
      rw [List.filter_cons_of_neg (by exact ha), tget, if_neg hne, ih]

/-- A frame whose symbol recurs is raised and recorded, retired or not. -/
theorem State.hardSymbol_spec (s : State) (frame sym : Nat) (hr : s.hxm.retired.contains frame = false) :
    (434, s.fab) ∈ (s.hardSymbol frame sym).vdx.pulses ∧
      (s.hardSymbol frame sym).rcd.reported.map (fun r => r.code) = s.rcd.reported.map (fun r => r.code) ++ [.HARD_SYMBOL] ∧
      (s.hardSymbol frame sym).fab = s.fab := by
  have hmark (w : State) (words : List Nat) (hf : w.fab = s.fab) (hc : w.rcd = s.rcd) :
      (434, s.fab) ∈ ((w.raise 434).report .HARD_SYMBOL srcHxm words).vdx.pulses ∧
      ((w.raise 434).report .HARD_SYMBOL srcHxm words).rcd.reported.map (fun r => r.code) = s.rcd.reported.map (fun r => r.code) ++ [.HARD_SYMBOL] ∧
      ((w.raise 434).report .HARD_SYMBOL srcHxm words).fab = s.fab := by
    obtain ⟨r, v, e⟩ := w.raise_sources 434
    have hraised := w.pulses_raise 434 rfl
    refine ⟨hf ▸ hraised, ?_, (Beside.refl w).raise.fab.trans hf⟩
    rw [((w.raise 434).report_spec .HARD_SYMBOL srcHxm words).1, e, ← hc]
  unfold State.hardSymbol
  rw [if_neg (by simp only [hr, Bool.false_eq_true, not_false_eq_true])]
  dsimp only
  split
  · split
    · exact hmark _ _ rfl rfl
    · exact hmark _ _ rfl rfl
  · exact hmark _ _ rfl rfl

/-- The state once a symbol's third correction in a row is counted. -/
def State.thirdCount (s : State) (key : Nat) : State :=
  { s with hxm := { s.hxm with sym := tput natD (s.hxm.sym.filter fun c => [key].contains c.1) key 3 } }

theorem State.countSymbols_third (s : State) (frame n : Nat) (hn : n < 128) (h : tget natD s.hxm.sym (frame * 128 + n) = 2) :
    s.countSymbols [frame * 128 + n] = (s.thirdCount (frame * 128 + n)).hardSymbol frame n := by
  have hframe : (frame * 128 + n) / 128 = frame := by omega
  have hsym : (frame * 128 + n) % 128 = n := by omega
  generalize frame * 128 + n = key at *
  have hold : tget natD (s.hxm.sym.filter fun c => [key].contains c.1) key + 1 = 3 := by
    rw [tget_filter_key natD (fun a => [key].contains a) _ _ (by simp), h]
  have hcount (t : Tbl Nat) (ht : tget natD t key + 1 = 3) : [key].foldl (fun t k => tput natD t k (tget natD t k + 1)) t = tput natD t key 3 := by
    rw [List.foldl_cons, List.foldl_nil, ht]
  have hone : [key].eraseDups = [key] := by rw [List.eraseDups_cons, List.filter_nil, List.eraseDups_nil]
  have hnew : tget natD (s.thirdCount key).hxm.sym key = 3 := tget_tput_same natD _ key 3
  unfold State.countSymbols
  dsimp only
  rw [hone, hcount _ hold]
  show (if tget natD (s.thirdCount key).hxm.sym key = 3 then (s.thirdCount key).hardSymbol (key / 128) (key % 128) else s.thirdCount key) = _
  rw [if_pos hnew, hframe, hsym]

theorem symbolRecurs (e : LineErr) (n : Nat) (s : State) (ha : s.alive = true) (he : e.m.val = 0) (hin : inSram e.addr = true) (hs : s.symbols e = [n])
    (hn : n < 70) (h2 : tget natD s.hxm.sym ((e.addr - sramBase) / 4096 * 128 + n) = 2) (hr : s.hxm.retired.contains ((e.addr - sramBase) / 4096) = false) :
    ∃ t l, exec (.scrubPass 0 [e]) s = .next t ∧ (434, s.fab) ∈ t.vdx.pulses ∧
      t.rcd.reported.map (fun r => r.code) = s.rcd.reported.map (fun r => r.code) ++ [.MEM_CORRECTED, .HARD_SYMBOL] ++ l := by
  have hcorr : symCorrectable (s.symbols e) = true := by simp [hs, symCorrectable, hn]
  obtain ⟨-, hcode, -, r, x, la, st, eu⟩ := s.memCorrected_spec e.m.val (errLine e) (s.symbols e) true
  generalize hu : s.memCorrected e.m.val (errLine e) (s.symbols e) true = u at hcode eu
  have hcount := u.countSymbols_third ((e.addr - sramBase) / 4096) n (by omega) (by rw [eu]; exact h2)
  generalize hk : (e.addr - sramBase) / 4096 * 128 + n = key at hcount
  have hwfab : (u.thirdCount key).fab = s.fab := by rw [eu]; rfl
  have hwrcd : (u.thirdCount key).rcd = u.rcd := rfl
  have hwret : (u.thirdCount key).hxm.retired = s.hxm.retired := by rw [eu]; rfl
  generalize u.thirdCount key = w at hcount hwfab hwrcd hwret
  obtain ⟨hraised, hhard, hfab⟩ := w.hardSymbol_spec ((e.addr - sramBase) / 4096) n (by rw [hwret]; exact hr)
  generalize hv : w.hardSymbol ((e.addr - sramBase) / 4096) n = v at hraised hhard hfab hcount
  have hgo : scrubPass 0 [e] s = (v.passLagged 0).passNoted 0 := by
    have hline : s.lineErrs [e] true = u := (s.lineErrs_corrected e (by rw [hs]; exact List.cons_ne_nil _ _) hcorr).trans hu
    have hkeys : s.scrubKeys [e] = [key] := by
      rw [State.scrubKeys, List.flatMap_cons, List.flatMap_nil, hcorr, hin, hs, Bool.and_self, if_pos rfl, List.map_cons, List.map_nil, hk, List.append_nil]
    rw [scrubPass, if_neg (by simp [ha])]
    dsimp only
    rw [List.filter_cons_of_pos (by simp [he]), List.filter_nil, hline, hkeys, if_pos rfl, hcount, State.passDone_eq]
  have hb := v.passLagged_beside 0
  generalize v.passLagged 0 = y at hb hgo
  have ht := y.passNoted_rcd 0
  obtain ⟨r', v', l', en, hpulse, -, -⟩ := y.passNoted_spec 0
  generalize y.passNoted 0 = t at hgo en ht
  obtain ⟨l, hl⟩ := hb.reported
  refine ⟨t, l.map fun r => r.code, congrArg Host.Outcome.next hgo, ?_, ?_⟩
  · have hyfab : y.fab = s.fab := hb.fab.trans (hfab.trans hwfab)
    rw [en, ← hyfab]
    refine hpulse 434 ?_
    rw [hb.fab]
    refine hb.pulses 434 ?_
    rw [hfab]
    exact hraised
  · rw [ht, ← hl, List.map_append, hhard, hwrcd, hcode]
    simp only [List.append_assoc, List.cons_append, List.nil_append]

/-! ### Uncorrectable errors (R152) -/

/-- The registers of an uncorrectable error. -/
def State.uncorrRegs (s : State) (m line : Nat) : State :=
  (((s.inc F.HXM_MEMERR_UNCORR).set F.HXM_MEMERR_LAST_MEM m).set (F.HXM_ERRADDR_W 0) line).set (F.HXM_ERRADDR_W 1) (line / 2 ^ 32)

theorem State.uncorrRegs_spec (s : State) (m line : Nat) (hm : m < 8) :
    (s.uncorrRegs m line).get F.HXM_MEMERR_UNCORR = satAdd (2 ^ F.HXM_MEMERR_UNCORR.w - 1) (s.get F.HXM_MEMERR_UNCORR) 1 ∧
    (s.uncorrRegs m line).get F.HXM_MEMERR_LAST_MEM = m ∧ (∀ q, q < 0x30014 → (s.uncorrRegs m line).reg q = s.reg q) ∧
    ∃ r, s.uncorrRegs m line = { s with regs := r } := by
  generalize hv : (s.inc F.HXM_MEMERR_UNCORR).set F.HXM_MEMERR_LAST_MEM m = v
  have hw (f : Field) (hf : f.off = 0x30014) : (s.uncorrRegs m line).get f = v.get f := by
    unfold State.uncorrRegs
    rw [hv, State.get_set_other _ _ _ _ (by rw [hf]; decide), State.get_set_other _ _ _ _ (by rw [hf]; decide)]
  refine ⟨?_, ?_, fun q hq => ?_, _, rfl⟩
  · rw [hw _ rfl, ← hv, State.get_set_beside _ _ _ _ (by decide), State.get_inc _ _ (by decide)]
  · rw [hw _ rfl, ← hv, State.get_set_same _ _ _ (by decide)]
    exact Nat.mod_eq_of_lt hm
  · have hbelow (u : State) (f : Field) (n : Nat) (hf : 0x30014 ≤ f.off) : (u.set f n).reg q = u.reg q := u.reg_set_other _ q _ (by omega)
    unfold State.uncorrRegs
    rw [hbelow _ _ _ (by decide), hbelow _ _ _ (by decide), hbelow _ _ _ (by decide), State.inc, State.incBy, hbelow _ _ _ (by decide)]

theorem State.uncorrMark_eq (s : State) (m addr : Nat) (hm : m ≠ 4) :
    s.uncorrMark m addr = ((s.uncorrRegs m (addr / 64 * 64)).raise 433).report .MEM_UNCORR srcHxm [m, addr / 64 * 64, addr / 64 * 64 / 2 ^ 32] := by
  unfold State.uncorrMark
  rw [if_neg hm]
  rfl

/-- What an uncorrectable error in memory 0 or 1 leaves and makes before the memory's own rule. -/
theorem State.uncorrMark_spec (s : State) (m addr : Nat) (hm : m < 4) :
    (s.uncorrMark m addr).get F.HXM_MEMERR_UNCORR = satAdd (2 ^ F.HXM_MEMERR_UNCORR.w - 1) (s.get F.HXM_MEMERR_UNCORR) 1 ∧
    (s.uncorrMark m addr).get F.HXM_MEMERR_LAST_MEM = m ∧ (433, s.fab) ∈ (s.uncorrMark m addr).vdx.pulses ∧
    (s.uncorrMark m addr).get F.HXM_LAYOUT_MACH_PAGES = s.get F.HXM_LAYOUT_MACH_PAGES ∧
    (∃ r v x, s.uncorrMark m addr = { s with regs := r, vdx := v, rcd := x }) ∧
    ∃ v : State, v.rcd = s.rcd ∧ v.stamp = s.stamp ∧
      s.uncorrMark m addr = v.report .MEM_UNCORR srcHxm [m, addr / 64 * 64, addr / 64 * 64 / 2 ^ 32] := by
  obtain ⟨hcount, hlast, hbelow, r, e⟩ := s.uncorrRegs_spec m (addr / 64 * 64) (by omega)
  rw [s.uncorrMark_eq m addr (by omega)]
  generalize s.uncorrRegs m (addr / 64 * 64) = u at hcount hlast hbelow e
  obtain ⟨r', v, e'⟩ := u.raise_sources 433
  have hraised := u.pulses_raise 433 rfl
  have hb : Beside u (u.raise 433) := (Beside.refl u).raise
  have hfab : u.fab = s.fab := by rw [e]; rfl
  generalize u.raise 433 = w at e' hraised hb
  refine ⟨?_, ?_, hfab ▸ hraised, ?_, ⟨r', v, (w.report .MEM_UNCORR srcHxm [m, addr / 64 * 64, addr / 64 * 64 / 2 ^ 32]).rcd, ?_⟩, w, ?_, ?_, rfl⟩
  · rw [← hcount]; exact hb.get_far _ rfl
  · refine Eq.trans ?_ hlast; exact hb.get_far _ rfl
  · refine Eq.trans (hb.get_far F.HXM_LAYOUT_MACH_PAGES rfl) ?_
    rw [State.get, State.get, hbelow _ (by decide)]
  · rw [e', e]; rfl
  · rw [e', e]
  · rw [e', e]; rfl

theorem State.lineErr_uncorrectable (s : State) (e : LineErr) (scrub : Bool) (reader : Option Nat) (h : Uncorrectable s e) :
    s.lineErr e scrub reader = s.uncorr e.m.val e.addr reader := by
  obtain ⟨hc, ho⟩ := h
  have hne : (s.symbols e).isEmpty = false := by
    cases hl : s.symbols e with
    | nil =>
      rw [hl] at hc
      cases hc
    | cons _ _ => rfl
  unfold State.lineErr
  dsimp only
  rw [hne, hc, if_neg Bool.false_ne_true, if_neg Bool.false_ne_true]
  rcases ho with ho | ho <;> rw [ho]
  cases e.other <;> rfl

theorem State.uncorr_sram (s : State) (addr : Nat) (reader : Option Nat) : s.uncorr 0 addr reader = (s.uncorrMark 0 addr).sramErr addr reader := rfl

theorem State.uncorr_emram (s : State) (addr : Nat) : s.uncorr 1 addr none = (s.uncorrMark 1 addr).poisonLine addr := rfl

/-- A poisoned line, and all that its poisoning changes. -/
theorem State.poisonLine_spec (s : State) (a : Nat) : (s.poisonLine a).poisoned a = true ∧ ∃ l, s.poisonLine a = { s with poison := l } := by
  unfold State.poisonLine
  split
  next h => exact ⟨h, _, rfl⟩
  · exact ⟨by simp [State.poisoned], _, rfl⟩

theorem errorInPrivateArea (e : LineErr) (r : Option (Fin 4)) (s : State) (ha : s.alive = true) (hu : Uncorrectable s e) (hm : e.m.val = 0)
    (hlo : 0x11F00000 ≤ e.addr) (hd : s.sup.st ≠ .dusk) :
    ∃ t, exec (.memUncorr e.m e.addr ⟨e.bad, e.other, r⟩) s = .next t ∧ WentDusk s t 4 ∧ Reports s t .MEM_UNCORR 0x50 [e.m.val, e.addr / 64 * 64] ∧
      t.get F.HXM_MEMERR_UNCORR = satAdd (2 ^ F.HXM_MEMERR_UNCORR.w - 1) (s.get F.HXM_MEMERR_UNCORR) 1 := by
  obtain ⟨hcount, -, -, -, ⟨r', v, x, ew⟩, y, hrcd, hstamp, ey⟩ := s.uncorrMark_spec 0 e.addr (by decide)
  generalize hw : s.uncorrMark 0 e.addr = w at hcount ew ey
  have hgo : memUncorr e (r.map fun p => p.val) s = w.enterDusk 4 := by
    rw [memUncorr, if_pos ha, s.lineErr_uncorrectable _ _ _ hu, hm, State.uncorr_sram, hw, State.sramErr, if_pos hlo]
  have h := w.enterDusk_fell 4 (by rw [ew]; exact ha) (by rw [ew]; exact hd)
  have hfirst : (y.report .MEM_UNCORR srcHxm [0, e.addr / 64 * 64, e.addr / 64 * 64 / 2 ^ 32]).rcd.reported <+: (w.enterDusk 4).rcd.reported := by
    rw [← ey]
    exact h.reported
  refine ⟨w.enterDusk 4, congrArg Host.Outcome.next hgo, h.wentDusk (by rw [ew]) (by rw [ew]) (by rw [ew]),
    ?_, ?_⟩
  · rw [hm]
    exact Reports.of_prefix hfirst hrcd hstamp ⟨[_], rfl⟩
  · rw [← hcount, State.get, State.get, h.reg _ rfl]

theorem errorInEmram (e : LineErr) (s : State) (ha : s.alive = true) (hu : Uncorrectable s e) (hm : e.m.val = 1) :
    ∃ t, exec (.memUncorr e.m e.addr ⟨e.bad, e.other, none⟩) s = .next t ∧
      t.poisoned e.addr = true ∧ (433, s.fab) ∈ t.vdx.pulses ∧ t.get F.HXM_MEMERR_LAST_MEM = 1 ∧ t.mem = s.mem ∧ t.pairs = s.pairs := by
  obtain ⟨-, hlast, hraised, -, ⟨r', v, x, ew⟩, -⟩ := s.uncorrMark_spec 1 e.addr (by decide)
  generalize hw : s.uncorrMark 1 e.addr = w at hlast hraised ew
  obtain ⟨hp, l, ep⟩ := w.poisonLine_spec e.addr
  have hgo : memUncorr e none s = w.poisonLine e.addr := by
    rw [memUncorr, if_pos ha, s.lineErr_uncorrectable _ _ _ hu, hm, State.uncorr_emram, hw]
  generalize w.poisonLine e.addr = t at hp ep hgo
  refine ⟨t, congrArg Host.Outcome.next hgo, hp, ?_, ?_, ?_, ?_⟩
  · rw [ep]; exact hraised
  · rw [ep]; exact hlast
  · rw [ep, ew]
  · rw [ep, ew]

/-- The page of a released frame is in no frame; nothing but the pool, the page and the registers changes. -/
theorem State.dropFrame_spec (s : State) (k f : Nat) (h : (s.page k).frame = some f) :
    ((s.dropFrame k).page k).frame = none ∧ ∃ r x, s.dropFrame k = { s with regs := r, hxm := x } := by
  have hset (w : State) (part n : Nat) : ∃ r, w.setHeld part n = { w with regs := r } := by
    unfold State.setHeld
    dsimp only
    split
    exacts [⟨_, rfl⟩, ⟨_, rfl⟩]
  have hfree (w : State) : (w.freeFrame f).hxm.pages = w.hxm.pages ∧ ∃ r x, w.freeFrame f = { w with regs := r, hxm := x } := by
    unfold State.freeFrame
    split
    exacts [⟨rfl, _, _, rfl⟩, ⟨rfl, _, _, rfl⟩]
  unfold State.dropFrame
  rw [h]
  dsimp only
  obtain ⟨hpages, r, x, ef⟩ := hfree (s.modPage k fun p => { p with frame := none, written := false })
  generalize (s.modPage k fun p => { p with frame := none, written := false }).freeFrame f = w at hpages ef
  obtain ⟨r', er⟩ := hset w (k / 2 ^ 20) (w.held (k / 2 ^ 20) - 1)
  rw [er]
  refine ⟨?_, r', x, by rw [ef]; rfl⟩
  show (tget pageD w.hxm.pages k).frame = none
  rw [hpages]
  exact congrArg PageSt.frame (tget_tput_same pageD _ k _)

/-- A line of a pool frame that no pair reads (R152). -/
theorem State.poolErr_spec (s : State) (addr k f : Nat) (g : Seg) (hk : s.frameKey ((addr - sramBase) / 4096) = some k)
    (hg : s.segOf (k / 2 ^ 20) (k % 2 ^ 20) = some g) (hf : (s.page k).frame = some f) :
    (s.poolErr addr none).poisoned addr = true ∧
      (g.home = 0 ∨ (s.page k).written = true → ((s.poolErr addr none).page k).poisoned = true ∧ (51, s.fab) ∈ (s.poolErr addr none).vdx.pulses) ∧
      (g.home ≠ 0 → (s.page k).written = false → ((s.poolErr addr none).page k).frame = none ∧ ((s.poolErr addr none).page k).lost = true) := by
  unfold State.poolErr
  rw [hk]
  dsimp only
  rw [hg]
  dsimp only
  by_cases hkeep : g.home = 0 ∨ (s.page k).written = true
  · rw [if_pos (by simpa using hkeep)]
    have hpage : ((s.modPage k fun c => { c with poisoned := true }).page k).poisoned = true := congrArg PageSt.poisoned (tget_tput_same pageD _ k _)
    have hraised := (s.modPage k fun c => { c with poisoned := true }).pulses_raise 51 rfl
    have hb : Beside (s.modPage k fun c => { c with poisoned := true }) ((s.modPage k fun c => { c with poisoned := true }).raise 51) := (Beside.refl _).raise
    generalize (s.modPage k fun c => { c with poisoned := true }).raise 51 = w at hraised hb
    obtain ⟨hp, l, ep⟩ := w.poisonLine_spec addr
    refine ⟨hp, fun _ => ⟨?_, ?_⟩, fun h0 hw => absurd hkeep (by simp [h0, hw])⟩
    · rw [ep, ← hpage]
      show (tget pageD w.hxm.pages k).poisoned = _
      rw [hb.hxm]
      rfl
    · rw [ep]
      exact hraised
  · rw [if_neg (by simpa using hkeep)]
    obtain ⟨hframe, r, x, ed⟩ := s.dropFrame_spec k f hf
    have hlost : ((((s.dropFrame k).modPage k fun c => { c with lost := true })).page k) = { (s.dropFrame k).page k with lost := true } := tget_tput_same pageD _ k _
    generalize (s.dropFrame k).modPage k (fun c => { c with lost := true }) = w at hlost
    obtain ⟨hp, l, ep⟩ := w.poisonLine_spec addr
    refine ⟨hp, fun h => absurd h hkeep, fun _ _ => ?_⟩
    have hpage : (w.poisonLine addr).page k = w.page k := by rw [ep]; rfl
    rw [hpage, hlost]
    exact ⟨hframe, rfl⟩

theorem errorInPool (e : LineErr) (k f : Nat) (g : Seg) (s : State) (ha : s.alive = true) (hu : Uncorrectable s e) (hm : e.m.val = 0)
    (hhi : e.addr < 0x11F00000) (hq : inQstore e.addr = false) (hmach : s.inMachSram e.addr = false)
    (hk : s.frameKey ((e.addr - sramBase) / 4096) = some k) (hg : s.segOf (k / 2 ^ 20) (k % 2 ^ 20) = some g) (hf : (s.page k).frame = some f) :
    ∃ t, exec (.memUncorr e.m e.addr ⟨e.bad, e.other, none⟩) s = .next t ∧ t.poisoned e.addr = true ∧
      (g.home = 0 ∨ (s.page k).written = true → (t.page k).poisoned = true ∧ (51, s.fab) ∈ t.vdx.pulses) ∧
      (g.home ≠ 0 → (s.page k).written = false → (t.page k).frame = none ∧ (t.page k).lost = true) := by
  obtain ⟨-, -, -, hlayout, ⟨r', v, x, ew⟩, -⟩ := s.uncorrMark_spec 0 e.addr (by decide)
  generalize hw : s.uncorrMark 0 e.addr = w at hlayout ew
  have hsealed : w.sealed = s.sealed := by rw [ew]; rfl
  have hin : w.inMachSram e.addr = false := by
    rw [State.inMachSram, State.machPages, hlayout, hsealed]
    exact hmach
  have hpage : w.page k = s.page k := by rw [ew]; rfl
  have hfab : w.fab = s.fab := by rw [ew]; rfl
  have hgo : memUncorr e none s = w.poolErr e.addr none := by
    rw [memUncorr, if_pos ha, s.lineErr_uncorrectable _ _ _ hu, hm, State.uncorr_sram, hw, State.sramErr, if_neg (by omega), hq, if_neg Bool.false_ne_true, hin, if_neg Bool.false_ne_true]
  have h := w.poolErr_spec e.addr k f g (by rw [ew]; exact hk) (by rw [ew]; exact hg) (by rw [hpage]; exact hf)
  rw [hpage, hfab] at h
  exact ⟨_, congrArg Host.Outcome.next hgo, h⟩

/-! ### The commands -/

theorem memErrorsCleared (s : State) : ∃ t, exec .hxmMemerrClr s = .next t ∧ t.get F.HXM_MEMERR_CORR = 0 ∧ t.get F.HXM_MEMERR_UNCORR = 0 ∧
    RegsBut s t [F.HXM_MEMERR_CORR.off, F.HXM_MEMERR_UNCORR.off] ∧ t = { s with regs := t.regs } := by
  refine ⟨_, rfl, ?_, State.get_set_same _ _ 0 (by decide), fun q hq => ?_, rfl⟩
  · rw [hxmMemerrClr, State.get_set_beside _ _ _ _ (by decide), State.get_set_same _ _ _ (by decide)]
    rfl
  · obtain ⟨hc, hu⟩ := not_or.1 (List.mem_cons.not.1 hq)
    rw [hxmMemerrClr, State.reg_set_other _ _ q _ (List.mem_singleton.not.1 hu), State.reg_set_other _ _ q _ hc]

theorem State.set_beside_spec (s : State) (f g : Field) (v : Nat) (hf : f.lo + f.w ≤ 32) (hg : g.lo + g.w ≤ f.lo ∨ f.lo + f.w ≤ g.lo) :
    (s.set f v).get f = v % 2 ^ f.w ∧ (s.set f v).get g = s.get g ∧ RegsBut s (s.set f v) [f.off] ∧ s.set f v = { s with regs := (s.set f v).regs } :=
  ⟨s.get_set_same f v hf, s.get_set_beside f g v hg, fun q hq => s.reg_set_other f q v (List.mem_singleton.not.1 hq), rfl⟩

theorem peakCleared (part : Fin 256) (s : State) : ∃ t, exec (.hxmPartSramClr part) s = .next t ∧
    t.get (F.HXM_PART_SRAM_PEAK part) = s.held part % 2 ^ (F.HXM_PART_SRAM_PEAK part).w ∧ t.held part = s.held part ∧
    RegsBut s t [(F.HXM_PART_SRAM_PEAK part).off] ∧ t = { s with regs := t.regs } :=
  ⟨_, rfl, s.set_beside_spec (F.HXM_PART_SRAM_PEAK part) (F.HXM_PART_SRAM_HELD part) (s.held part) (Nat.le_of_ble_eq_true rfl)
    (.inl (Nat.le_of_ble_eq_true rfl))⟩

theorem memoryUpkeep : MemoryUpkeep :=
  ⟨scrubPassed, lateScrub, symbolRecurs, errorInPrivateArea, errorInEmram, errorInPool, memErrorsCleared, peakCleared⟩

/-- Settles O22: staging, page misses and the upkeep of the memories are three proofs, each from the rule of its operation. -/
theorem paging : Obligations.Paging := ⟨staging, pageMisses, memoryUpkeep⟩

end Sys2Proof.Machine
end

section
/-! SUPPORT. The supply-fail warning and the replies of queued records (R453, R475, R484, R492); refutes O52. -/
namespace Sys2Proof.Machine
open Sys2Proof.Claims
set_option Elab.async false

/-- A module in the Config state whose hold-up store is down and whose intake queue holds one record, of a REC_MARK that local command
port `n` asked for. -/
def markFromPort (n : Nat) : State :=
  { State.reset with
    sup := { Sup.reset with st := .config }
    pwr := { Pwr.reset with holdupSince := some 0 }
    rcd := { Rec.reset with intake := [⟨0x300, 0, 0x12, false, false, false, false, 0, 0, 0, [], 0, some ⟨.pairPort n, 0, 0, none⟩⟩] } }

/-- SUP_MBSTAT of port 32, which no pair has, lies where PWR_STAT lies: the reply clears BUSY and sets DONE where SUPPLY showed the warning. -/
theorem supply_markFromPort32 : (supplyFail 0 (markFromPort 32)).get F.PWR_STAT_SUPPLY = 1 := by decide +kernel

/-- Refutes O52: the warning writes the queued record of a REC_MARK and replies to the port its origin names; a record in the queue whose origin is
port 32 has its reply's BUSY and DONE written to PWR_STAT, so SUPPLY reads 1 after the warning, not 2. A well-formed
request names a port below 4, but the statement asks nothing of the origins in the intake queue of its state. -/
theorem not_powerUpAndDown : ¬ Obligations.PowerUpAndDown := by
  rintro ⟨-, -, ⟨hwarn, -⟩, -⟩
  obtain ⟨t, hnext, -, -, hsupply, -⟩ := hwarn 0 (markFromPort 32) rfl rfl rfl rfl
  have ht : supplyFail 0 (markFromPort 32) = t := Host.Outcome.next.inj hnext
  rw [← ht, supply_markFromPort32] at hsupply
  exact absurd hsupply (by decide)

end Sys2Proof.Machine
end
